-- ==== Sys2Proof/Word.lean ====
section
/-! DEFINITION. The word types of the machine (00, R4 and Units). -/

namespace Sys2Proof

/-- A byte of any memory. -/
abbrev Byte := BitVec 8

/-- A 16-bit field. -/
abbrev W16 := BitVec 16

/-- A 32-bit register, counter or FP32 value. -/
abbrev W32 := BitVec 32

/-- A 64-bit register or counter. -/
abbrev W64 := BitVec 64

end Sys2Proof
end

