-- ==== Sys2Proof/Syntax.lean ====
section
/-! DEFINITION. The commands: one constructor per row of the table of operations and events. -/

namespace Sys2Proof

/-- A command queue: the queue of a core as its scheduler sees it, or the fabric or memory queue of a context (R305). -/
inductive QRef where
  | core (c : Fin 4)
  | fabric (x : Fin 16)
  | memory (x : Fin 16)
  deriving DecidableEq, Repr

/-- An upset of an array lane while a command runs, as the environment gives it: accumulation number, side, row, lane
and the bits it flips. -/
structure Upset where
  acc : Nat
  side : Nat
  row : Nat
  lane : Nat
  mask : W32
  deriving DecidableEq, Repr

/-- A BXT frame (14, Table 14.3): version and TYPE, the flags, the header fields and the payload. -/
structure Frame where
  version : Nat
  kind : Nat
  throttled : Bool
  last : Bool
  poison : Bool
  retx : Bool
  start : Bool
  src : Nat
  dst : Nat
  job : Nat
  channel : Nat
  stripe : Nat
  seq : W32
  msg : W32
  offset : W64
  word : W32
  pcrc : W32
  payload : List Byte
  deriving DecidableEq, Repr

/-- Bits flipped in the symbols of a code word: place of the symbol, and the bits (10, R243; 11, R276). -/
abbrev Pattern := List (Nat × W16)

/-- A word on a data path with its parity bit, as a stage that checks it sees them (16, R387). -/
structure PathWord where
  word : W32
  parity : Bool
  deriving DecidableEq, Repr

/-- A fault as the environment gives it to the detectors (07, R183; 10, R247; 11, R276; 16, R387, R388, Table 16.5; 17,
R424). `err` are the bits that it flips in a stored code word, `fixed` says that the SECDED of a scratchpad corrects it, `reader` names the core whose command read the data, and `die` is the die
(17, Table 17.5) that checks the parity of word `w`. -/
inductive EnvFault where
  | unified (a : Nat) (err : Pattern) (reader : Option (Fin 4))
  | reserved (a : Nat) (err : Pattern)
  | scratchpad (c : Fin 4) (row : Nat) (fixed : Bool)
  | parityUnified (a : Nat) (die : Fin 32) (w : PathWord)
  | parityScratchpad (c : Fin 4) (row : Nat) (die : Fin 32) (w : PathWord)
  | parityRows (a : Fin 8) (rows : List Nat) (w : PathWord)
  | parityBank (a : Fin 8) (b : Fin 2) (w : PathWord)
  | driftStore (page : Nat)
  | deepDirectory (d : Fin 2)
  | hubSram
  | slotSram (x : Fin 16) (i : Fin 8)
  | ringEntry (pos : Nat)
  deriving DecidableEq, Repr

/-- A failure that an in-field test finds (16, R413): a site, witness or bank of array A or B of the core, and whether it
failed its retest too. -/
inductive IftFail where
  | site (b : Fin 2) (n : Nat) (again : Bool)
  | witness (b : Fin 2) (again : Bool)
  | bank (b : Fin 2)
  deriving DecidableEq, Repr

/-- An SPDM request as it reaches the responder (20, R489): over the DOE mailbox, or in an ATTEST frame at a port. -/
inductive SpdmReq where
  | doe (msg : List Byte)
  | bxt (p : Fin 16) (f : Frame)
  deriving DecidableEq, Repr

/-- The instructions of the test port (22, R519). -/
inductive JtagOp where
  | bypass | idcode | samplePreload | extest
  deriving DecidableEq, Repr

/-- How a stage of a module start ends (19, Tables 19.6 and 19.7; 20, R481), as the environment gives it: at its ordinary end;
stage 2 with the reasons for which the boot header, certificate, manifest and hashes of the active and of the other bank fail
(0: none), whether the replay-protected area and the identity verify, and the records that the module store held when the
module was supplied; stage 3 with the four crystal counts and the frequency of the internal oscillator; stage 5 with the lanes
that fail their eye (stack, channel, pseudo-channel and lane, or a command and address lane) and the voltage step of the bank
in millivolts; stage 7 with the sites that fail the self-test and whether they fail it again. -/
inductive StageEnd where
  | plain
  | verified (active other : Nat) (areaOk identityOk : Bool) (supplied : List (List Byte))
  | crystal (counts : List Nat) (hz : Nat)
  | trained (lanes : List (Fin 12 × Fin 16 × Option (Fin 2) × Nat)) (dv : Nat)
  | selfTest (fails : List (Fin 8 × Nat × Bool))
  deriving DecidableEq, Repr

/-- One of the 512 pattern rows of a witness self-test on the first or second array of a core (16, R404): the bits in which its witness
and magnitude rows differ from their stored expected bits. -/
structure SelfTestRow where
  side : Fin 2
  row : Fin 512
  witness : W32
  magnitude : W32
  deriving DecidableEq, Repr

/-- A command: one constructor per row of the table of operations and events, in the table's order. Units are numbered as the
manual numbers them; contexts 0 to 15, slots 0 to 7, cores 0 to 3. -/
inductive Instr where
  /-- SLOT_WRITE (R296). A host write into a mailbox slot lands if the slot is FREE; otherwise it is dropped and counted
  in LATE_WRITES. Context, slot, offset in the slot and bytes. -/
  | slotWrite (x : Fin 16) (i : Fin 8) (off : Nat) (bs : List Byte)
  /-- SEAL (R299). A write covering the CRC half of the seal word seals a FREE slot and runs the SRAM, length, CRC and
  sequence-window checks. Context, slot, SEQ and CRC of the seal word, and whether the slot SRAM shows an uncorrectable
  error. -/
  | sealWrite (x : Fin 16) (i : Fin 8) (seq : W32) (crc : W32) (sramBad : Bool)
  /-- PACKET_TAKE (R314). The lamplighter takes the next packet in sequence order of a context and advances SEQ_EXPECT.
  -/
  | packetTake (x : Fin 16)
  /-- HELD_PACKET_RELEASE (R315). A FEED or FETCH held by a granule conflict runs once the conflicting command or packet
  has finished. -/
  | heldPacketRelease (x : Fin 16) (i : Fin 8)
  /-- SUBMIT (R306). The validator checks a command list in order and queues every command, or refuses the whole list.
  -/
  | submit (x : Fin 16) (i : Fin 8)
  /-- FEED (R307). FEED writes its payload to a window offset or unified-range address and makes it visible. -/
  | feed (x : Fin 16) (i : Fin 8)
  /-- FETCH (R308). FETCH reads bytes and writes them to host memory in 64 KiB chunks, each followed by a trailer. -/
  | fetch (x : Fin 16) (i : Fin 8)
  /-- CREATE (R311). CONTROL CREATE makes a context ACTIVE with its completion ring, job seed and vector map. -/
  | create (x : Fin 16) (i : Fin 8)
  /-- DESTROY (R312). CONTROL DESTROY makes the context DESTROYING, stops dispatch and discards queued commands. -/
  | destroy (x : Fin 16) (i : Fin 8)
  /-- DESTROY_FINISH (R312). Once its running commands have ended, the context's resources are released, a CONTEXT entry
  is written and the context becomes NONE. -/
  | destroyFinish (x : Fin 16)
  /-- SET_QUOTA (R275). CONTROL SET_QUOTA sets a context's near and deep page quotas, or refuses them. -/
  | setQuota (x : Fin 16) (i : Fin 8)
  /-- SET_WINDOW (R165). CONTROL SET_WINDOW allocates, resizes or releases a resident sub-window and zero-fills it. -/
  | setWindow (x : Fin 16) (i : Fin 8)
  /-- SET_AREAS (R172). CONTROL SET_AREAS checks new transient and cache sizes for a feed die and makes the change
  pending. -/
  | setAreas (x : Fin 16) (i : Fin 8)
  /-- AREAS_APPLY (R172). A pending T and C change takes effect at a suitable command boundary and invalidates the cache
  partition. -/
  | areasApply (c : Fin 4)
  /-- SET_SPREAD (R251). CONTROL SET_SPREAD sets SPREAD_GIB while no context exists. -/
  | setSpread (x : Fin 16) (i : Fin 8)
  /-- LOAD_SCALE (R58). CONTROL LOAD_SCALE checks a scale table load and accepts or refuses it. -/
  | loadScale (x : Fin 16) (i : Fin 8)
  /-- LOAD_SCALE_APPLY (R58). An accepted scale table load replaces its records once no running command names a record
  in its range. -/
  | loadScaleApply (x : Fin 16) (i : Fin 8)
  /-- LOAD_SLOTS (R174). CONTROL LOAD_SLOTS checks a slot table and accepts or refuses it. -/
  | loadSlots (x : Fin 16) (i : Fin 8)
  /-- SLOT_TABLE_APPLY (R173). A slot table load takes effect between commands of the core and resets its slots to
  EMPTY. -/
  | slotTableApply (x : Fin 16) (i : Fin 8)
  /-- LOAD_ALMANAC (R214). CONTROL LOAD_ALMANAC checks almanac entries and accepts or refuses the load. -/
  | loadAlmanac (x : Fin 16) (i : Fin 8)
  /-- ALMANAC_APPLY (R213). An accepted almanac load takes effect once no running command names an entry that it
  replaces or removes. -/
  | almanacApply (x : Fin 16) (i : Fin 8)
  /-- MAP (R272). CONTROL MAP maps a range of free pages to the context as placed, spread or deep, and zero-fills them.
  -/
  | map (x : Fin 16) (i : Fin 8)
  /-- UNMAP (R273). CONTROL UNMAP checks a page range and, once no page of the range is moving, frees the pages. -/
  | unmap (x : Fin 16) (i : Fin 8)
  /-- SET_ROLE (R372). CONTROL SET_ROLE carrying a role record verifies it and stores it or applies it. -/
  | setRole (x : Fin 16) (i : Fin 8)
  /-- OWNER_RECORD (R484). SET_ROLE carrying an owner record enrols or replaces the owner key. -/
  | ownerRecord (x : Fin 16) (i : Fin 8)
  /-- OWNER_RELEASE (R484). SET_ROLE carrying an owner release queues the removal of the owner and of the role record.
  -/
  | ownerRelease (x : Fin 16) (i : Fin 8)
  /-- SET_SCHED (R336). CONTROL SET_SCHED sets a context's slice budget on each core. -/
  | setSched (x : Fin 16) (i : Fin 8)
  /-- FW_UPDATE_WRITE (R486). An FW_UPDATE write piece appends image bytes to the inactive bank through the store write
  queue. -/
  | fwUpdateWrite (x : Fin 16) (i : Fin 8)
  /-- FW_UPDATE_ACTIVATE (R486). An FW_UPDATE activate verifies the complete image and makes it current, pending a hub
  or module reset. -/
  | fwUpdateActivate (x : Fin 16) (i : Fin 8)
  /-- FW_UPDATE_ABANDON (R487). An FW_UPDATE abandon discards a staged or partial image, or restores the running bank as
  current. -/
  | fwUpdateAbandon (x : Fin 16) (i : Fin 8)
  /-- QUERY_CONTEXT_STATUS (R344). QUERY 0x01 returns context status, queue depths, tokens, scheduling counters and lull
  counters. -/
  | queryContextStatus (x : Fin 16) (i : Fin 8)
  /-- QUERY_SCALE_RECORDS (R313). QUERY 0x02 returns a range of scale records. -/
  | queryScaleRecords (x : Fin 16) (i : Fin 8)
  /-- QUERY_SLOTS (R325). QUERY 0x03 returns slot states, claim counts and scratchpad counters of one feed die. -/
  | querySlots (x : Fin 16) (i : Fin 8)
  /-- QUERY_TIER_COUNTERS (R313). QUERY 0x04 returns the tier counters. -/
  | queryTierCounters (x : Fin 16) (i : Fin 8)
  /-- QUERY_HOME_MAP (R313). QUERY 0x05 returns a range of home-map entries, with other contexts' entries read as zero.
  -/
  | queryHomeMap (x : Fin 16) (i : Fin 8)
  /-- QUERY_ALMANAC (R313). QUERY 0x06 returns almanac entries as they stand. -/
  | queryAlmanac (x : Fin 16) (i : Fin 8)
  /-- QUERY_MODULE (R325). QUERY 0x07 returns module identification and status, all taken in one pilot cycle. -/
  | queryModule (x : Fin 16) (i : Fin 8)
  /-- QUERY_FAULT_RING (R437). QUERY 0x08 returns fault ring entries as CPER records. -/
  | queryFaultRing (x : Fin 16) (i : Fin 8)
  /-- CQ_HEAD_WRITE (R316). A host write of CQ_HEAD releases consumed completion entries and frees ring space. -/
  | cqHeadWrite (x : Fin 16) (v : W32)
  /-- BACKLOG_DRAIN (R318). Backlogged completion entries are written when ring space appears, and packet intake resumes
  below 4,032 entries. -/
  | backlogDrain (x : Fin 16)
  /-- COMPLETION_ENTRY (R319). A completion entry is written to the ring and followed by one MSI-X message on the vector
  of its class. -/
  | completionEntry (x : Fin 16)
  /-- FUNCTION_LEVEL_RESET (R294). A PCIe function-level reset destroys the function's context, or all sixteen contexts
  for the physical function. -/
  | functionLevelReset (x : Fin 16)
  /-- MM (R118). MM is dispatched and runs its column blocks and row groups through the arrays and the epilogue. `hold`
  leaves the rows of the last accumulation undrained for ROW_DRAIN; `ups` are upsets of lanes. -/
  | mm (c : Fin 4) (hold : Bool) (ups : List Upset)
  /-- MMB (R190). MMB is dispatched, forms the dY block and runs its dX and dW accumulation lists. `ups` are upsets of
  lanes. -/
  | mmb (c : Fin 4) (ups : List Upset)
  /-- ATTEND (R128). ATTEND is dispatched and runs score, value and combine phases per query block. `ups` are upsets of
  lanes. -/
  | attend (c : Fin 4) (ups : List Upset)
  /-- ATTEND_B (R204). ATTEND_B is dispatched and runs two sweeps per query block, producing dQ, dK and dV. `ups` are
  upsets of lanes. -/
  | attendB (c : Fin 4) (ups : List Upset)
  /-- VEC (R147). VEC is dispatched and applies one elementwise or row operation to its inputs. -/
  | vec (c : Fin 4)
  /-- NORM (R150). NORM is dispatched and normalises every row. -/
  | norm (c : Fin 4)
  /-- NORM_B (R200). NORM_B is dispatched and carries the gradient back through a normalisation. -/
  | normB (c : Fin 4)
  /-- QUANT (R151). QUANT is dispatched and converts a region in forward, transposed or inverse mode. -/
  | quant (c : Fin 4)
  /-- GATHER_E (R153). GATHER_E is dispatched and gathers table rows, or scatter-adds rows into the table. -/
  | gatherE (c : Fin 4)
  /-- COPY (R156). COPY is dispatched and moves rows bitwise, or with conversion. -/
  | copy (c : Fin 4)
  /-- UPDATE (R218). UPDATE is dispatched, forms the gradient factor, advances the version and updates its state blocks
  and copies. `bad` names an element whose two computations differ, and whether the repeat differs too. -/
  | update (c : Fin 4) (x : Fin 16) (bad : List (Nat × Bool))
  /-- PRECOND (R237). PRECOND is dispatched and computes the inverse fourth roots of its preconditioner tiles. -/
  | precond (c : Fin 4)
  /-- COLL (R360). COLL is dispatched and runs the ring steps of a collective over its stripes. -/
  | coll (x : Fin 16)
  /-- SEND (R362). SEND is dispatched and sends an RTS, then its data frames once a CTS arrives. -/
  | send (x : Fin 16)
  /-- RECV (R362). RECV is dispatched, matches an RTS of its tag and answers with a CTS. -/
  | recv (x : Fin 16)
  /-- SHARD_GATHER (R364). SHARD_GATHER is dispatched and requests each owner's shard. -/
  | shardGather (x : Fin 16)
  /-- MIGRATE (R286). MIGRATE is dispatched, checks the quota and moves the pages of its range in ascending order. -/
  | migrate (x : Fin 16)
  /-- LAYER_PLAN_START (R290). LAYER_PLAN OP 0 checks the table, computes the window and starts the plan. -/
  | layerPlanStart (x : Fin 16)
  /-- LAYER_PLAN_STOP (R289). LAYER_PLAN OP 1 stops the plan and moves nothing. -/
  | layerPlanStop (x : Fin 16)
  /-- PIN (R287). PIN sets PINNED on every page of the range once any move in progress has ended. -/
  | pin (x : Fin 16)
  /-- UNPIN (R287). UNPIN clears PINNED on every page of the range. -/
  | unpin (x : Fin 16)
  /-- FENCE_SIGNAL (R331). FENCE SIGNAL adds one to its token once every earlier command of its queue has finished. -/
  | fenceSignal (q : QRef)
  /-- FENCE_WAIT (R332). FENCE WAIT completes at the head of its queue when its token condition holds. -/
  | fenceWait (q : QRef)
  /-- ACQUIRE (R231). ACQUIRE checks the group version and raises the release counter once neither PENDING nor UPDATING
  is set. -/
  | acquire (q : QRef)
  /-- RELEASE (R232). RELEASE lowers the group's release counter by one. -/
  | release (q : QRef)
  /-- SPAN_OPEN (R397). SPAN_OPEN opens a replay span and begins holding the span's input granules. -/
  | spanOpen (c : Fin 4)
  /-- SPAN_CLOSE (R398). SPAN_CLOSE releases the span's completions, signals, slot transitions and census contributions
  in span order. -/
  | spanClose (c : Fin 4)
  /-- HINT (R451). HINT sets the context's hint level for the cores it names and completes at dispatch. -/
  | hint (q : QRef)
  /-- CENSUS (R81). CENSUS closes steps of a range of scale records and copies their summaries out. -/
  | census (q : QRef)
  /-- NOP (R306). NOP is dispatched and completes with no effect. -/
  | nop (q : QRef)
  /-- COMMAND_COMPLETE (R330). A command completes or fails, which releases the commands behind it and forms a command
  boundary of its core. The queue, the position among its dispatched commands, and the charge in array cycles. -/
  | commandComplete (q : QRef) (i : Nat) (charge : Nat)
  /-- LOOKAHEAD_LOAD (R103). While the last K-tile streams, the first tile of the next eligible array command is loaded
  into the shadow bank. -/
  | lookaheadLoad (c : Fin 4)
  /-- BANK_LOAD_DONE (R87). A weight tile load into the shadow bank ends, with its witness column complete. -/
  | bankLoadDone (a : Fin 8)
  /-- BANK_SWAP (R89). The shadow bank becomes active after the swap bubble and the end of its load, and the next load
  begins. -/
  | bankSwap (a : Fin 8)
  /-- ROW_DRAIN (R96). A final accumulator row is drained, scaled, checked against the witness and passed to the
  epilogue. `ups` are upset lanes with the bits that flip. -/
  | rowDrain (a : Fin 8) (ups : List (Nat × W32))
  /-- SPAN_REPLAY (R401). At the end of the command with the first disagreement or fault, the span's outputs are
  discarded and the span is run again. -/
  | spanReplay (c : Fin 4)
  /-- REPLAY_DECISION (R402). When the replay reaches a captured row, the device classifies it and lets the span close
  or fails it. `rows` are the rows of the witness self-tests of the core's arrays that differ from their stored bits. -/
  | replayDecision (c : Fin 4) (rows : List SelfTestRow)
  /-- LANE_REMAP (R110). A lane declared permanent is remapped to its group's spare at the next command boundary of its
  core. -/
  | laneRemap (a : Fin 8)
  /-- ARRAY_DEGRADE (R111). An array with an unrepairable permanent fault leaves service at the next command boundary,
  and the core runs in single-array mode. -/
  | arrayDegrade (a : Fin 8)
  /-- CORE_OUT_OF_SERVICE (R342). A core leaving service fails its running and queued commands with 0x0224. -/
  | coreOutOfService (c : Fin 4)
  /-- STARVE_TIMEOUT (R181). The starve watchdog limit fails a command waiting for slot states, with 0x0107. -/
  | starveTimeout (q : QRef) (x : Fin 16)
  /-- OVERRUN_TIMEOUT (R182). A token slot left FULL or DRAINING for OVERRUN_MS with no claim posts event 0x0108. -/
  | overrunTimeout (x : Fin 16) (die : Fin 4) (i : Nat)
  /-- COMMAND_WATCHDOG (R341). A command running past the watchdog limit fails with 0x0223 and its outputs are poisoned.
  -/
  | commandWatchdog (q : QRef) (i : Nat)
  /-- SPAN_TIMEOUT (R399). A span not closed 8 ms after its SPAN_OPEN fails with 0x0608. -/
  | spanTimeout (c : Fin 4)
  /-- FENCE_WAIT_TIMEOUT (R333). A FENCE WAIT unsatisfied for WAIT_MS fails with 0x0221. -/
  | fenceWaitTimeout (q : QRef) (x : Fin 16)
  /-- ACQUIRE_TIMEOUT (R231). An ACQUIRE waiting for WAIT_MS fails with 0x0414. -/
  | acquireTimeout (q : QRef) (x : Fin 16)
  /-- UPDATE_WAIT_TIMEOUT (R233). An UPDATE whose release counter stays above zero for WAIT_MS fails with 0x0412 and
  clears PENDING. -/
  | updateWaitTimeout (c : Fin 4) (x : Fin 16)
  /-- PEER_WAIT_TIMEOUT (R357). A fabric command whose peer waits reach PEER_WAIT_MS fails with 0x0503. -/
  | peerWaitTimeout (x : Fin 16) (i : Nat)
  /-- DEEP_SPACE_TIMEOUT (R280). A deep write that finds no free granules for 1 ms marks the block lost and fails with
  0x031B. -/
  | deepSpaceTimeout (i : Nat)
  /-- PAGE_MOVE (R282). The drift engine allocates a destination, sets the entry MOVING and copies the page. -/
  | pageMove (x : Fin 16)
  /-- PAGE_SWITCH (R282). After the copy and the buffer wait, the home-map entry is switched to the destination and the
  old home freed. -/
  | pageSwitch (page : Nat)
  /-- MOVE_TIMEOUT (R283). A move not switched within 100 pilot cycles is aborted back to the old home. -/
  | moveTimeout (page : Nat)
  /-- MOVE_RETRY (R283). After the stalled writes of an aborted move have landed, the move is attempted again. -/
  | moveRetry (page : Nat)
  /-- SCRUB_READ (R248). The scrub reads a sector, writes back a correction or poison-marks an uncorrectable sector.
  Stack, sector and the error pattern: lane and symbol bits. -/
  | scrubRead (n : Fin 12) (sector : Nat) (err : Pattern)
  /-- WCB_AGE_FLUSH (R261). A partial write-combining entry open for WCB_AGE is flushed by read-modify-write. -/
  | wcbAgeFlush (n : Fin 12) (sector : Nat)
  /-- WCB_HIGH_FLUSH (R261). A buffer at its high mark flushes its oldest entries. -/
  | wcbHighFlush (n : Fin 12)
  /-- FAULT_RECORD (R427). A detected fault is written to the fault ring as QUEUED, or coalesced, or lost on overflow. A
  fault of the environment, or the oldest fault detected. -/
  | faultRecord (f : Option EnvFault)
  /-- FAULT_HANDLE (R429). The fault handler takes a ring entry, records history, takes its action, posts events,
  reports it and sets DONE. `finish` ends the handling of the entry in hand. -/
  | faultHandle (finish : Bool)
  /-- FAULT_STATUS_WRITE (R431). A write of 1 to a FAULT_STATUS cause bit clears it unless it is set again in the same
  cycle. -/
  | faultStatusWrite (v : W32)
  /-- MINUTE_TICK (R408). H1 advances the module-on minute count. -/
  | minuteTick
  /-- STORE_BATCH (R439). H1 measures hold-up energy and writes the largest fitting prefix of the store queue, or defers
  it. The voltage of the hold-up bank in millivolts. -/
  | storeBatch (vMv : Nat)
  /-- STORE_BATCH_DONE (R438). A store batch completes with its pointer pages verified, which makes its records current.
  -/
  | storeBatchDone
  /-- HOLDUP_LOW (R439). A store queue deferred for 60 s sets HOLDUP_LOW and posts event 0x061A. -/
  | holdupLow
  /-- CAPACITANCE_MEASURE (R440). H1 measures the hold-up bank capacitance by drawing 2 A for 1 ms. The voltage step in
  millivolts. -/
  | capacitanceMeasure (dv : Nat)
  /-- IFT_DUE (R412). An in-field array test of a core falls due after PERIOD minutes. -/
  | iftDue (c : Fin 4)
  /-- IFT_RUN (R411). A due in-field test takes a command boundary of its core and tests every site, bank and the
  witness. -/
  | iftRun (c : Fin 4)
  /-- IFT_FORCE (R343). After 30 s of waiting, a due test takes the next command boundary even with a span open. -/
  | iftForce (c : Fin 4)
  /-- IFT_RUN_NOW (R412). A write of RUN_NOW to IFT_CTRL makes a test due at once. -/
  | iftRunNow (c : Fin 4)
  /-- PORT_IN_SERVICE (R347). A port whose four lanes have trained with FEC aligned enters service. -/
  | portInService (p : Fin 16)
  /-- PORT_ALIGNMENT_LOSS (R347). A port that loses FEC alignment leaves service at once. The lane that the FEC names,
  if it names one. -/
  | portAlignmentLoss (p : Fin 16) (lane : Option (Fin 4))
  /-- DATA_FRAME (R355). A received DATA frame is checked, accepted once, written to its place and may complete a
  message or ring step. -/
  | dataFrame (p : Fin 16) (f : Frame)
  /-- ACK_FRAME (R353). A received ACK advances the acknowledgement, updates credit and window, and may trigger fast
  retransmission. -/
  | ackFrame (p : Fin 16) (f : Frame)
  /-- RTS_FRAME (R362). A received RTS is matched to a RECV, held unmatched, or answered busy. -/
  | rtsFrame (p : Fin 16) (f : Frame)
  /-- CTS_FRAME (R362). A received CTS lets the SEND send its data, or fails it on a length mismatch or refusal. -/
  | ctsFrame (p : Fin 16) (f : Frame)
  /-- SHARD_REQUEST (R364). An owner receives a shard request and refuses it, or waits on its group. -/
  | shardRequest (p : Fin 16) (f : Frame)
  /-- SHARD_SERVE (R364). Once its group is free, the owner raises the release counter and sends the shard with the
  group version. -/
  | shardServe (i : Nat)
  /-- ACK_TIMER (R353). A receiver sends an ACK 4 µs after the first unacknowledged frame of a flow. -/
  | ackTimer (peer : Nat) (job : Nat) (channel : Nat)
  /-- RETX_TIMEOUT (R353). An unacknowledged frame is resent on timeout, and the 8th timeout fails the flow. -/
  | retxTimeout (peer : Nat) (job : Nat) (channel : Nat) (seq : W32)
  /-- RTS_RETRY (R362). A sender whose RTS was answered busy resends it after 100 µs. -/
  | rtsRetry (x : Fin 16) (i : Nat)
  /-- HELLO (R376). A group manager answers a member's HELLO with WELCOME. -/
  | hello (p : Fin 16) (f : Frame)
  /-- WELCOME (R376). A member receives its index, or spare status, from the newest-epoch manager. -/
  | welcome (p : Fin 16) (f : Frame)
  /-- GROUP_READY (R378). The top manager, or the top deputy, records a formed group. -/
  | groupReady (p : Fin 16) (f : Frame)
  /-- INSTALL_READY (R378). A group manager forwards INSTALL_READY to its members, which take their evaluation offset.
  -/
  | installReady (p : Fin 16) (f : Frame)
  /-- HEARTBEAT (R379). A manager records a heartbeat with power and fault counts from a member or group manager. -/
  | heartbeat (p : Fin 16) (f : Frame)
  /-- TAKE_CHARGE (R377). A receiver of TAKE_CHARGE follows the deputy's newer epoch and redirects its reports. -/
  | takeCharge (p : Fin 16) (f : Frame)
  /-- ROSTER_UPDATE (R382). A member learns of a takeover and posts event 0x0523 to its context 0. -/
  | rosterUpdate (p : Fin 16) (f : Frame)
  /-- TAKEOVER (R382). A spare takes a failed worker's index and restores its shard from the mirror. `shard` is what the
  mirror answered. -/
  | takeover (p : Fin 16) (f : Frame) (shard : Option (List Byte))
  /-- TAKEOVER_DONE (R382). The group manager receives the outcome of a takeover and sends ROSTER_UPDATE or posts
  0x0524. -/
  | takeoverDone (p : Fin 16) (f : Frame)
  /-- CKPT_HELD (R381). A group manager records a mirrored checkpoint step in its checkpoint index. -/
  | ckptHeld (p : Fin 16) (f : Frame)
  /-- FAULT_REPORT (R385). A manager receives a CPER fault record and forwards uncontained and fatal ones. -/
  | faultReport (p : Fin 16) (f : Frame)
  /-- SLOW_REPORT (R385). A group manager records a member's slow-down and lull counters. -/
  | slowReport (p : Fin 16) (f : Frame)
  /-- CAP_SET (R386). A member applies the power cap sent by its group manager. -/
  | capSet (p : Fin 16) (f : Frame)
  /-- NOTICE (R377). A sender of an older epoch gives up manager services and sends HELLO to the current manager. -/
  | notice (p : Fin 16) (f : Frame)
  /-- HELLO_REPEAT (R376). A member without WELCOME resends HELLO every second, and after 120 s also to the deputy. -/
  | helloRepeat
  /-- GROUP_FORM (R376). At the close of the group window, the manager marks absentees, assigns spares and sends
  GROUP_READY. -/
  | groupForm
  /-- DEPUTY_TAKE_CHARGE (R377). A deputy hearing nothing from its manager for 10 s raises the epoch and sends
  TAKE_CHARGE. `top` says that the own deputy is the top deputy of the installation. -/
  | deputyTakeCharge (top : Bool)
  /-- REGISTRATION_CLOSE (R378). The top manager closes registration and sends INSTALL_READY. -/
  | registrationClose
  /-- HEARTBEAT_SEND (R379). A member or group manager sends HEARTBEAT every 100 ms. -/
  | heartbeatSend
  /-- MEMBER_FAIL (R379). A member silent for 2 s is failed, and a takeover of its index begins. -/
  | memberFail (node : Nat)
  /-- CAP_REVIEW (R386). Every second a group manager moves watts from slack members to short ones. -/
  | capReview
  /-- SLOW_REPORT_SEND (R385). Every 10 s a member sends SLOW_REPORT, and a manager writes its report table. -/
  | slowReportSend
  /-- GET_VERSION (R489). The SPDM responder answers GET_VERSION. -/
  | getVersion (r : SpdmReq)
  /-- GET_CAPABILITIES (R489). The SPDM responder answers GET_CAPABILITIES. -/
  | getCapabilities (r : SpdmReq)
  /-- NEGOTIATE_ALGORITHMS (R489). The SPDM responder answers NEGOTIATE_ALGORITHMS with RSA-PSS-4096 and SHA-512. -/
  | negotiateAlgorithms (r : SpdmReq)
  /-- GET_DIGESTS (R489). The SPDM responder returns the certificate digests of slot 0. -/
  | getDigests (r : SpdmReq)
  /-- GET_CERTIFICATE (R489). The SPDM responder returns part of the device certificate chain. -/
  | getCertificate (r : SpdmReq)
  /-- CHALLENGE (R491). The SPDM responder signs a CHALLENGE response with the identity key. -/
  | challenge (r : SpdmReq)
  /-- GET_MEASUREMENTS (R490). The SPDM responder returns signed measurement blocks of what is running. -/
  | getMeasurements (r : SpdmReq)
  /-- BAROMETER_WINDOW (R442). Every 1 µs the barometer reads its activity counters, estimates rail currents and adjusts
  rail duties. The counts of the 64 activity counters of each die, in the order of Table 17.5. -/
  | barometerWindow (counts : List (List Nat))
  /-- BAROMETER_PERIOD (R448). Every 2 µs the power manager computes module power and adjusts the cap duty. -/
  | barometerPeriod
  /-- RAIL_MEASUREMENT (R453). A measured rail current arrives and is compared with the estimate, which may switch the
  rail to measurement-only. The rail and its measured current in milliamperes. -/
  | railMeasurement (r : Fin 17) (i : Nat)
  /-- RECALIBRATION_FIT (R454). After 4,096 windows firmware fits new rail weights and restores estimation, or fits
  again. The rail, and the largest difference of the fitted and the measured current over those windows in milliamperes. -/
  | recalibrationFit (r : Fin 17) (worst : Nat)
  /-- TEMPERATURE_READ (R457). Every 10 µs die sensors are read, and two consecutive readings at the trip point trip the
  module. The die and its sensors in quarter degrees. -/
  | temperatureRead (die : Fin 32) (ts : List Nat)
  /-- THERMAL_DUTY_UPDATE (R457). Every 100 µs the thermal duty of each core is set from its hottest reading. -/
  | thermalDutyUpdate
  /-- THERMAL_TRIP (R458). A die reaching its hardware trip point asserts THERMTRIP_N and enters the fatal state. -/
  | thermalTrip (die : Fin 32)
  /-- RAMP_GRANT (R452). The power manager grants a cold core's ramp start, spaced at least 64 array cycles from the
  last. -/
  | rampGrant
  /-- HINT_EXPIRE (R451). A hint whose duration has passed ends, and the core's level is recomputed. -/
  | hintExpire (x : Fin 16) (c : Fin 4)
  /-- CLOCK_START (R456). A fast clock domain begins its eight-step start. -/
  | clockStart (d : Fin 11)
  /-- CLOCK_START_DONE (R456). A domain's start ends after 400 pilot cycles, and commands may be dispatched to it. -/
  | clockStartDone (d : Fin 11)
  /-- CLOCK_STOP (R455). A domain idle for IDLE_US stops its clock. -/
  | clockStop (d : Fin 11)
  /-- PWR_CAP_WRITE (R447). A host write of HOST_CAP sets the host cap or is dropped out of range. -/
  | pwrCapWrite (v : W32)
  /-- BMC_CAP_WRITE (R447). An I3C write of BMC_CAP sets the baseboard cap or is dropped out of range. -/
  | bmcCapWrite (v : W32)
  /-- MONITOR_WINDOW (R461). A 1 ms monitor window of a reference source ends, and its count may fail the source,
  switch, or return to it. The counts of the recovered source and of the crystal. -/
  | monitorWindow (rec : Option Nat) (xtal : Option Nat)
  /-- SWITCH_PAUSE_END (R465). After a switch into or out of the internal source, relocked clocks let work resume. -/
  | switchPauseEnd
  /-- OSCILLATOR_CALIBRATE (R462). Every 60 s H1 measures the internal oscillator against the crystal. -/
  | oscillatorCalibrate (hz : Nat)
  /-- CLK_CTRL_WRITE (R467). A write of CLK_CTRL sets the return, recovered-source, REF_LANE and idle fields, and a lane
  change moves to the crystal. -/
  | clkCtrlWrite (v : W32)
  /-- POWER_ON_RESET (R470). A rising MOD_PWR_GOOD latches straps and starts the power-on start sequence. The straps
  OSC_DLY and SLOT_ID. -/
  | powerOnReset (osc : Fin 4) (slot : Fin 64)
  /-- MOD_RESET_N (R514). A filtered assertion of MOD_RESET_N holds a module reset, which runs from its deassertion. -/
  | modResetN (low : Bool)
  /-- MODULE_RESET (R471). A module reset flushes the buffers and reinitialises everything outside the kept items. -/
  | moduleReset
  /-- HUB_RESET (R470). A hub reset reinitialises H0, the lamplighter, mailboxes and PCIe, and destroys all contexts. -/
  | hubReset
  /-- PERST_N (R470). A PCIe reset reinitialises the PCIe interface and all functions. -/
  | perstN (low : Bool)
  /-- RESET_CTRL_WRITE (R470). A write of RESET_CTRL with the key starts a module reset, and any other write is dropped.
  -/
  | resetCtrlWrite (v : W32)
  /-- BMC_MODULE_RESET (R518). An I3C BMC_RESET write with MODULE and the key starts a module reset. -/
  | bmcModuleReset (v : W32)
  /-- BMC_HUB_RESET (R518). An I3C BMC_RESET write with HUB alone and the key starts a hub reset. -/
  | bmcHubReset (v : W32)
  /-- START_STAGE (R473). A start-up stage ends and the next begins, up to MODULE_READY. How the stage ends. -/
  | startStage (o : StageEnd)
  /-- START_STAGE_TIMEOUT (R475). A start stage past its latest time stops the start with 0x070C. -/
  | startStageTimeout
  /-- LL_HEARTBEAT (R472). H1 receives a lamplighter heartbeat. -/
  | llHeartbeat
  /-- LL_HEARTBEAT_LOSS (R472). With no lamplighter heartbeat for 1 s, H1 enters the fatal state with 0x070D. -/
  | llHeartbeatLoss
  /-- MOD_PWR_EN_ASSERT (R511). An assertion of MOD_PWR_EN brings up the rails in order and raises MOD_PWR_GOOD. The
  voltage of the hold-up bank in millivolts. -/
  | modPwrEnAssert (bankMv : Nat)
  /-- MOD_PWR_EN_DEASSERT (R512). A deassertion of MOD_PWR_EN drops MOD_PWR_GOOD and turns off the rails in reverse
  order. -/
  | modPwrEnDeassert
  /-- VIN_UNDERVOLTAGE (R510). VIN below 45 V for 50 µs drops MOD_PWR_GOOD and turns off the rails. -/
  | vinUndervoltage (mv : Nat)
  /-- VIN_OVERVOLTAGE (R510). VIN above 58.5 V for 10 µs turns off the rails and asserts THERMTRIP_N. -/
  | vinOvervoltage (mv : Nat)
  /-- BLOCK_ENABLE (R322). A write of 1 to ENABLE of a disabled block starts its configuration-consistency check. The
  block in the order of its window, and whether the host or firmware writes. -/
  | blockEnable (b : Fin 36) (host : Bool)
  /-- BLOCK_DISABLE (R499). A write of 0 to ENABLE of a running block disables it and applies its pending RWS values.
  The block in the order of its window, and whether the host or firmware writes. -/
  | blockDisable (b : Fin 36) (host : Bool)
  /-- ENABLE_CHECK_DONE (R322). The enable check ends, setting ENABLED or writing the refusal reason to CFG_REASON. -/
  | enableCheckDone (b : Fin 36)
  /-- RWS_APPLY (R12). At the block's boundary all pending RWS values take effect together and UPDATE_PENDING clears. -/
  | rwsApply (b : Fin 36)
  /-- REGISTER_WRITE (R494). A write to a register with no row of its own applies each field under its access type, or
  is dropped and counted. -/
  | registerWrite (bar : Nat) (bs : List Byte)
  /-- COUNTER_LOW_HALF_READ (R495). A 4-byte read of a 64-bit counter's low half latches its high half for the window.
  Any read by a function of its BAR0: offset and number of bytes. -/
  | counterLowHalfRead (x : Fin 16) (bar : Nat) (n : Nat)
  /-- I3C_PRIVATE_WRITE (R517). An I3C private write sets the register offset and writes data. -/
  | i3cPrivateWrite (bs : List Byte)
  /-- I3C_PRIVATE_READ (R517). An I3C private read returns data from the current offset and advances it. -/
  | i3cPrivateRead (words : Nat)
  /-- I3C_ADDRESS_ASSIGNMENT (R516). ENTDAA or SETDASA assigns the module its dynamic I3C address. The static address
  for SETDASA, or none for ENTDAA, and the dynamic address. -/
  | i3cAddressAssignment (static : Option Nat) (addr : Nat)
  /-- JTAG_INSTRUCTION (R519). The TAP executes BYPASS, IDCODE, SAMPLE/PRELOAD or EXTEST, with EXTEST only under
  MOD_RESET_N. -/
  | jtagInstruction (j : JtagOp)
  /-- ARRAY_COLD (R107). An array that has issued no row for 1,024 array cycles becomes cold and must ramp at its next
  issue. -/
  | arrayCold (a : Fin 8)
  /-- COMPACTION (R280). Background compaction frees consecutive granules on a deep channel, letting a waiting deep
  write complete. -/
  | compaction (ch : Fin 16)
  /-- VIN_RETURN (R510). VIN returns and stays above 47.0 V for 10 ms, so MOD_PWR_EN is honoured again and store batches
  may start. -/
  | vinReturn (mv : Nat)
  /-- RX_DISCARD (R348). A received frame of another EtherType, with a bad FCS, more than one tag, or a bad BXT header
  is discarded and counted in RX_DISCARD. The frame, or none when it cannot be read. -/
  | rxDiscard (p : Fin 16) (f : Option Frame)
  /-- LANE_SYMBOL_ERROR_RATIO (R407). At the end of each one-second window a link lane whose FEC symbol error ratio
  exceeded 10^-5 records a transient. -/
  | laneSymbolErrorRatio (die : Fin 4) (lane : Fin 16)
  /-- IFT_END (R412). An in-field test ends after its 4,200,000 array cycles, releasing the core and failing an open
  span with 0x060F if a unit became permanent. The failures found. -/
  | iftEnd (c : Fin 4) (fs : List IftFail)
  /-- MANAGER_HEARTBEAT_LOSS (R379). A manager with no heartbeat from its own manager for 2 s sends HELLO to the deputy.
  -/
  | managerHeartbeatLoss
  /-- MEMBER_ATTESTATION (R491). A group manager's attestation of a member ends, posting event 0x080B if it failed. -/
  | memberAttestation (node : Nat) (ok : Bool)
  /-- MANAGER_READY (R375). A manager or deputy becomes manager-ready 75 s after its MOD_PWR_GOOD when its module was
  ready earlier. -/
  | managerReady
  /-- HOLDOVER (R465). The fast PLLs enter holdover within 1 us of a loss of signal at their reference. -/
  | holdover
  /-- HOT_RESET (R470). A PCIe hot reset or link down resets the PCIe interface and all functions and destroys all
  contexts. -/
  | hotReset
  deriving DecidableEq, Repr

end Sys2Proof
end

