-- ==== Sys2Proof/Decode.lean ====
section
/-! DEFINITION. Commands from words. The table of operations and events gives no row any bits: a command is an operation of the
bus, a frame, a pin or an event, and no word spells one. -/

namespace Sys2Proof

/-- The command that a word of the table spells: none. -/
def decodeTableWord (nbits w : Nat) : Option Instr :=
  match nbits, w with
  | _, _ => none

end Sys2Proof
end

