-- ==== Sys2Proof/Machine/Bits.lean ====
section
/-! DEFINITION. Byte order, bit fields and saturating counters (00, R4, R6). -/

namespace Sys2Proof.Machine

open Sys2Proof

/-- The field [hi:lo] of a number, as the manual writes bit ranges. -/
def bits (x hi lo : Nat) : Nat := (x / 2 ^ lo) % 2 ^ (hi + 1 - lo)

/-- Bit i of a number. -/
def bit (x i : Nat) : Bool := (x / 2 ^ i) % 2 == 1

/-- A flag as the value of a one-bit field. -/
def b2n (b : Bool) : Nat := if b then 1 else 0

/-- Rounds a quotient up: ceil(a / b); 0 for b = 0. -/
def ceilDiv (a b : Nat) : Nat := (a + b - 1) / b

/-- The n little-endian bytes of a number (R4). -/
def leBytes : Nat → Nat → List Byte
  | 0, _ => []
  | n + 1, x => BitVec.ofNat 8 x :: leBytes n (x / 256)

/-- The number that little-endian bytes spell (R4). -/
def leNat : List Byte → Nat
  | [] => 0
  | b :: bs => b.toNat + 256 * leNat bs

/-- The number that n bytes from an offset of a structure spell; bytes past the end read as zero. -/
def fld (bs : List Byte) (off n : Nat) : Nat := leNat ((bs.drop off).take n)

/-- One byte of a structure. -/
def byteAt (bs : List Byte) (off : Nat) : Nat := fld bs off 1

/-- True when every byte of a range of a structure is zero: a reserved range that R5 asks software to write as zero. -/
def zeroRange (bs : List Byte) (off n : Nat) : Bool := ((bs.drop off).take n).all (· == 0)

/-- Replaces bytes of a structure from an offset on. -/
def putBytes (bs : List Byte) (off : Nat) (new : List Byte) : List Byte :=
  bs.take off ++ new ++ bs.drop (off + new.length)

/-- n zero bytes. -/
def zeros (n : Nat) : List Byte := List.replicate n 0

/-- Pads a structure with zero bytes to n bytes, or cuts it there. -/
def fitTo (n : Nat) (bs : List Byte) : List Byte := (bs ++ zeros (n - bs.length)).take n

/-- A saturating count: adds n and stops at the largest value (R14, R496). -/
def satAdd {w : Nat} (x : BitVec w) (n : Nat) : BitVec w :=
  if x.toNat + n < 2 ^ w then BitVec.ofNat w (x.toNat + n) else BitVec.allOnes w

/-- (a - b) mod 2^32, the distance of R61, R300, R316 and R332. -/
def dist32 (a b : W32) : Nat := (a - b).toNat

/-- Inserts a number into a rising list without repeats. -/
def setInsert (x : Nat) : List Nat → List Nat
  | [] => [x]
  | y :: ys => if x < y then x :: y :: ys else if x = y then y :: ys else y :: setInsert x ys

/-- Removes a number from a list. -/
def setErase (x : Nat) (l : List Nat) : List Nat := l.filter (· != x)

/-- The n-th number from 0 on that a rising list does not hold. -/
def nthFreeFrom : List Nat → Nat → Nat → Nat
  | [], base, n => base + n
  | u :: us, base, n =>
    if u < base then nthFreeFrom us base n
    else if n < u - base then base + n
    else nthFreeFrom us (u + 1) (n - (u - base))

/-- The n-th free number of a rising list of used ones. -/
def nthFree (used : List Nat) (n : Nat) : Nat := nthFreeFrom used 0 n

/-- Looks a key up in an association list. -/
def alookup {β : Type} (k : Nat) : List (Nat × β) → Option β
  | [] => none
  | (k', v) :: r => if k' = k then some v else alookup k r

/-- Writes a key of an association list kept in rising order of its keys. -/
def ainsert {β : Type} (k : Nat) (v : β) : List (Nat × β) → List (Nat × β)
  | [] => [(k, v)]
  | (k', v') :: r =>
    if k < k' then (k, v) :: (k', v') :: r
    else if k = k' then (k, v) :: r
    else (k', v') :: ainsert k v r

/-- Removes a key of an association list. -/
def aerase {β : Type} (k : Nat) (l : List (Nat × β)) : List (Nat × β) := l.filter (fun p => p.1 != k)

/-- Cuts a list into pieces of n items; the last piece holds the remainder. The count is fuel. -/
def chunksFuel {α : Type} : Nat → Nat → List α → List (List α)
  | 0, _, _ => []
  | fuel + 1, n, l =>
    match l with
    | [] => []
    | _ => l.take n :: chunksFuel fuel n (l.drop n)

/-- Cuts a list into pieces of n items. -/
def chunks {α : Type} (n : Nat) (l : List α) : List (List α) := chunksFuel l.length n l

/-- Rows to columns for a matrix given as its rows, each of c items; missing items are the default. -/
def transposeRows {α : Type} (dflt : α) (c : Nat) (rows : List (List α)) : List (List α) :=
  (List.range c).map (fun j => rows.map (fun r => (r[j]?).getD dflt))

end Sys2Proof.Machine
end

