-- ==== Sys2Proof/Machine/Philox.lean ====
section
/-! DEFINITION. The counter generator Philox-4x32-10 (02, R46 to R48), and CRC-32C (12, R298). -/

namespace Sys2Proof.Machine

open Sys2Proof

/-- The four counter words, or output words, of one call. -/
structure Quad where
  a : W32
  b : W32
  c : W32
  d : W32
  deriving DecidableEq, Repr

/-- One round with the published multipliers. -/
def philoxRound (k0 k1 : W32) (x : Quad) : Quad :=
  let p0 := 0xD2511F53 * x.a.toNat
  let p1 := 0xCD9E8D57 * x.c.toNat
  { a := BitVec.ofNat 32 (p1 / 2 ^ 32) ^^^ x.b ^^^ k0
    b := BitVec.ofNat 32 p1
    c := BitVec.ofNat 32 (p0 / 2 ^ 32) ^^^ x.d ^^^ k1
    d := BitVec.ofNat 32 p0 }

/-- n rounds, the key raised by the published constants between rounds. -/
def philoxRounds : Nat → W32 → W32 → Quad → Quad
  | 0, _, _, x => x
  | n + 1, k0, k1, x => philoxRounds n (k0 + 0x9E3779B9#32) (k1 + 0xBB67AE85#32) (philoxRound k0 k1 x)

/-- One call: 64-bit key and 128-bit counter to four words. -/
def philox (k0 k1 : W32) (x : Quad) : Quad := philoxRounds 10 k0 k1 x

/-- The inputs of a draw that do not depend on the element (Table 2.7): seed, purpose code, tag or stream, step and
layer. -/
structure DrawKey where
  seed : W64
  purpose : Nat
  tag : Nat
  step : W32
  layer : W32
  deriving DecidableEq, Repr

/-- One generator call of a draw key (Table 2.7). -/
def drawCall (k : DrawKey) (call : Nat) : Quad :=
  philox (BitVec.ofNat 32 k.seed.toNat) (BitVec.ofNat 32 (k.seed.toNat / 2 ^ 32))
    { a := BitVec.ofNat 32 call
      b := BitVec.ofNat 32 ((call / 2 ^ 32) % 256 + k.purpose * 2 ^ 8 + k.tag * 2 ^ 16)
      c := k.step
      d := k.layer }

/-- One word of a call's output. -/
def Quad.word (q : Quad) (w : Nat) : W32 :=
  if w = 0 then q.a else if w = 1 then q.b else if w = 2 then q.c else q.d

/-- The 16-bit value r of element index i (R47). -/
def draw (k : DrawKey) (i : Nat) : Nat :=
  let o := (drawCall k (i / 8)).word ((i / 2) % 4)
  if i % 2 = 0 then o.toNat % 2 ^ 16 else o.toNat / 2 ^ 16

/-- The eight values of one call (R47). -/
def drawEight (k : DrawKey) (call : Nat) : List Nat :=
  let q := drawCall k call
  [q.a.toNat % 2 ^ 16, q.a.toNat / 2 ^ 16, q.b.toNat % 2 ^ 16, q.b.toNat / 2 ^ 16,
   q.c.toNat % 2 ^ 16, q.c.toNat / 2 ^ 16, q.d.toNat % 2 ^ 16, q.d.toNat / 2 ^ 16]

/-- The values of n consecutive element indices from i on. -/
def drawRun (k : DrawKey) (i n : Nat) : List Nat :=
  let first := i / 8
  let calls := (i + n + 7) / 8 - first
  ((((List.range calls).map (fun j => drawEight k (first + j))).flatten).drop (i % 8)).take n

/-- One bit of the reflected CRC-32C register. -/
def crcBit (c : W32) : W32 := if c.getLsbD 0 then (c >>> 1) ^^^ 0x82F63B78#32 else c >>> 1

/-- One byte of CRC-32C. -/
def crcByte (c : W32) (b : Byte) : W32 :=
  let c0 := c ^^^ b.setWidth 32
  crcBit (crcBit (crcBit (crcBit (crcBit (crcBit (crcBit (crcBit c0)))))))

/-- CRC-32C with initial value and final XOR 0xFFFF_FFFF (R298). -/
def crc32c (bs : List Byte) : W32 := (bs.foldl crcByte 0xFFFFFFFF#32) ^^^ 0xFFFFFFFF#32

end Sys2Proof.Machine
end

