-- ==== Sys2Proof/Config.lean ====
section
/-! DEFINITION. What the manual leaves open: constants without a body, so that nothing can be proved of their values.
Each is applied to a number that names the occasion (a counter of the state, or the data it depends on). -/

namespace Sys2Proof.Config

open Sys2Proof

/-- The compressed length of a deep block that is neither all zero nor poisoned, before the bounds of R278 are put on
it: a fixed function of its bytes (11, R278). -/
opaque blockLength : List Byte → Nat

/-- Which free frame, spread slot or granule run an allocation takes (11, R272, R282). -/
opaque choice : Nat → Nat

/-- The cache partition set of a sector (07, R170). -/
opaque cacheSet : Nat → Nat → Nat

/-- The line a full cache set gives up (07, R170). -/
opaque cacheVictim : Nat → Nat

/-- A byte whose value the manual does not fix: staging and work areas after their command (05, R120, R131; 08, R196),
named by an occasion and a place. -/
opaque freeByte : Nat → Nat → Byte

/-- Whether such a byte is poisoned (05, R120). -/
opaque freePoison : Nat → Nat → Bool

/-- A 32-bit value whose value the manual does not fix, named by an occasion. -/
opaque freeWord : Nat → W32

/-- A byte string of the asked length that the manual does not fix (signatures, certificates), named by an occasion. -/
opaque freeBytes : Nat → Nat → List Byte

/-- The public modulus of the device identity (20, R477): the manual fixes no value. -/
opaque identityModulus : Nat

/-- The public modulus of the vendor signing key (20, Table 20.1). -/
opaque vendorModulus : Nat

/-- The signature that H1 makes with the identity key over a message (20, R476, R480): the salt is the device's own. -/
opaque identitySign : List Byte → List Byte

/-- The certificate chain of the device identity (20, R482), in the form that SPDM returns it. -/
opaque certChain : List Byte

/-- The SHA-512 of the boot ROM of H1 (20, Table 20.7). -/
opaque bootRomHash : List Byte

/-- REASON of the fault record of a corrected scratchpad word (17, Tables 17.10 and 17.11): the manual gives no code. -/
opaque correctedReason : Nat

/-- By how many bytes a page of the module store exceeds the 1,792 bytes of a lane repair map record, which fits one
page (17, R439). -/
opaque nandSlack : Nat

/-- The static current of a rail in milliamperes (18, R442): a function of the product options record, the fit in force, the rail, its
set point in millivolts and the hottest reading of its dies. The manual does not lay the record out. -/
opaque railStatic : List Byte → Nat → Nat → Nat → Nat → Nat

/-- The weight of an activity counter in milliamperes per count per window (18, R442): by the product options record, the fit in
force, the rail, the die and the counter. -/
opaque railWeight : List Byte → Nat → Nat → Nat → Nat → Nat

end Sys2Proof.Config
end

