-- ==== Sys2Proof/Machine/Fp.lean ====
section
/-! DEFINITION. FP32 and BF16 arithmetic (02, R35 to R37, R52, R53): exact values, one rounding. -/

namespace Sys2Proof.Machine

open Sys2Proof

/-- The value an FP32 pattern stands for once R35 has read a subnormal input as zero: a NaN, an infinity, or the
number m * 2^e with its sign. -/
inductive FpVal where
  | nan
  | inf (neg : Bool)
  | fin (neg : Bool) (m : Nat) (e : Int)
  deriving DecidableEq, Repr

/-- The canonical NaN (R36). -/
def fpNaN : W32 := 0x7FC00000#32

/-- Infinity of a sign. -/
def fpInf (neg : Bool) : W32 := if neg then 0xFF800000#32 else 0x7F800000#32

/-- Zero of a sign. -/
def fpZero (neg : Bool) : W32 := if neg then 0x80000000#32 else 0#32

/-- One. -/
def fpOne : W32 := 0x3F800000#32

/-- The sign bit. -/
def fpSign (x : W32) : Bool := x.getLsbD 31

/-- The biased exponent. -/
def fpExp (x : W32) : Nat := (x.toNat / 2 ^ 23) % 256

/-- The fraction field. -/
def fpFrac (x : W32) : Nat := x.toNat % 2 ^ 23

/-- Reads a pattern; a subnormal is zero of its sign (R35). -/
def fpVal (x : W32) : FpVal :=
  if fpExp x = 255 then (if fpFrac x = 0 then .inf (fpSign x) else .nan)
  else if fpExp x = 0 then .fin (fpSign x) 0 0
  else .fin (fpSign x) (fpFrac x + 2 ^ 23) ((fpExp x : Int) - 150)

/-- The number of bits of a natural number; 0 for 0. -/
def bitLen (n : Nat) : Nat := if n = 0 then 0 else Nat.log2 n + 1

/-- Rounds m / 2^k to an integer, ties to even; sticky says that the true value lies a little above m. -/
def roundShift (m k : Nat) (sticky : Bool) : Nat :=
  if k = 0 then m
  else
    let q := m / 2 ^ k
    let r := m % 2 ^ k
    let half := 2 ^ (k - 1)
    if half < r || (r == half && (sticky || q % 2 == 1)) then q + 1 else q

/-- FP32(m * 2^e) of a sign, rounded once to nearest even with an unbounded exponent, then flushed below 2^-126
and made infinite on overflow (R35). With sticky set the true magnitude lies strictly between m and m + 1 units, and
m has at least 26 bits. -/
def fpPack (neg : Bool) (m : Nat) (e : Int) (sticky : Bool) : W32 :=
  if m = 0 then fpZero neg
  else
    let n := bitLen m
    let q0 := if n ≤ 24 then m * 2 ^ (24 - n) else roundShift m (n - 24) sticky
    let e0 : Int := e + (n : Int) - 24
    let q := if q0 = 2 ^ 24 then 2 ^ 23 else q0
    let e1 : Int := if q0 = 2 ^ 24 then e0 + 1 else e0
    let ee : Int := e1 + 23
    if ee < -126 then fpZero neg
    else if 127 < ee then fpInf neg
    else BitVec.ofNat 32 ((if neg then 2 ^ 31 else 0) + ((ee + 127).toNat) * 2 ^ 23 + (q - 2 ^ 23))

/-- An exact real m * 2^e. -/
structure Dy where
  m : Int
  e : Int
  deriving DecidableEq, Repr

/-- The exact zero. -/
def Dy.zero : Dy := ⟨0, 0⟩

/-- Exact sum. -/
def Dy.add (a b : Dy) : Dy :=
  if a.m = 0 then b
  else if b.m = 0 then a
  else if a.e ≤ b.e then ⟨a.m + b.m * 2 ^ (b.e - a.e).toNat, a.e⟩
  else ⟨a.m * 2 ^ (a.e - b.e).toNat + b.m, b.e⟩

/-- Exact product. -/
def Dy.mul (a b : Dy) : Dy := ⟨a.m * b.m, a.e + b.e⟩

/-- Exact negation. -/
def Dy.neg (a : Dy) : Dy := ⟨-a.m, a.e⟩

/-- Exact magnitude. -/
def Dy.abs (a : Dy) : Dy := ⟨(a.m.natAbs : Int), a.e⟩

/-- Exact comparison. -/
def Dy.le (a b : Dy) : Bool :=
  let d := Dy.add b (Dy.neg a)
  decide (0 ≤ d.m)

/-- The exact value of a finite pattern; 0 for NaN and infinity. -/
def fpDy (x : W32) : Dy :=
  match fpVal x with
  | .fin neg m e => ⟨if neg then -(m : Int) else (m : Int), e⟩
  | _ => Dy.zero

/-- FP32 of an exact real; an exact zero gives +0 (R35). -/
def fpOfDy (a : Dy) : W32 := fpPack (decide (a.m < 0)) a.m.natAbs a.e false

/-- FP32(a + b) (R35). -/
def fpAdd (a b : W32) : W32 :=
  match fpVal a, fpVal b with
  | .nan, _ => fpNaN
  | _, .nan => fpNaN
  | .inf s, .inf t => if s = t then fpInf s else fpNaN
  | .inf s, .fin _ _ _ => fpInf s
  | .fin _ _ _, .inf t => fpInf t
  | .fin s m e, .fin t n f =>
    if m = 0 ∧ n = 0 then fpZero (s && t)
    else fpOfDy (Dy.add ⟨if s then -(m : Int) else m, e⟩ ⟨if t then -(n : Int) else n, f⟩)

/-- The negated pattern. -/
def fpNeg (a : W32) : W32 := a ^^^ 0x80000000#32

/-- FP32(a - b) (R35). -/
def fpSub (a b : W32) : W32 := fpAdd a (fpNeg b)

/-- FP32(a * b) (R35). -/
def fpMul (a b : W32) : W32 :=
  match fpVal a, fpVal b with
  | .nan, _ => fpNaN
  | _, .nan => fpNaN
  | .inf s, .inf t => fpInf (s != t)
  | .inf s, .fin t n _ => if n = 0 then fpNaN else fpInf (s != t)
  | .fin s m _, .inf t => if m = 0 then fpNaN else fpInf (s != t)
  | .fin s m e, .fin t n f => fpPack (s != t) (m * n) (e + f) false

/-- FP32 of the exact quotient (m * 2^e) / (n * 2^f), n not 0. -/
def fpQuot (neg : Bool) (m : Nat) (e : Int) (n : Nat) (f : Int) : W32 :=
  if m = 0 then fpZero neg
  else
    let k := 28 + bitLen n
    let q := (m * 2 ^ k) / n
    let r := (m * 2 ^ k) % n
    fpPack neg q (e - f - (k : Int)) (r != 0)

/-- FP32(a / b) (R35, R39). -/
def fpDiv (a b : W32) : W32 :=
  match fpVal a, fpVal b with
  | .nan, _ => fpNaN
  | _, .nan => fpNaN
  | .inf _, .inf _ => fpNaN
  | .inf s, .fin t _ _ => fpInf (s != t)
  | .fin s _ _, .inf t => fpZero (s != t)
  | .fin s m e, .fin t n f =>
    if n = 0 then (if m = 0 then fpNaN else fpInf (s != t)) else fpQuot (s != t) m e n f

/-- The reciprocal (R53). -/
def fpRecip (a : W32) : W32 := fpDiv fpOne a

/-- Bit-by-bit integer square root. -/
def isqrtGo (n : Nat) : Nat → Nat → Nat
  | 0, r => r
  | b + 1, r =>
    let r' := r + 2 ^ b
    isqrtGo n b (if r' * r' ≤ n then r' else r)

/-- floor of the square root. -/
def isqrt (n : Nat) : Nat := isqrtGo n (bitLen n / 2 + 1) 0

/-- The reciprocal square root (R53): correctly rounded; +0 gives +inf, -0 gives -inf, a negative value NaN. -/
def fpRsqrt (a : W32) : W32 :=
  match fpVal a with
  | .nan => fpNaN
  | .inf true => fpNaN
  | .inf false => fpZero false
  | .fin neg m e =>
    if m = 0 then fpInf neg
    else if neg then fpNaN
    else
      let m' := if e % 2 = 0 then m else 2 * m
      let e' : Int := if e % 2 = 0 then e else e - 1
      let k : Nat := 42
      let q := isqrt (2 ^ (2 * k) / m')
      fpPack false q (-(k : Int) - e' / 2) (q * q * m' != 2 ^ (2 * k))

/-- The working precision of exp, in fraction bits. -/
def expBits : Nat := 288

/-- Terms of the exponential series at working precision: adds t, t*y/k, ... until the fuel ends. -/
def expSeries (y : Nat) : Nat → Nat → Nat → Nat → Nat
  | 0, _, _, acc => acc
  | fuel + 1, k, t, acc =>
    let t' := t * y / 2 ^ expBits / k
    expSeries y fuel (k + 1) t' (acc + t')

/-- Squares a number of working precision a number of times. -/
def fixSquare : Nat → Nat → Nat
  | 0, a => a
  | n + 1, a => fixSquare n (a * a / 2 ^ expBits)

/-- e^x for x = m * 2^e of magnitude below 128, as a natural number of units of 2^-expBits. The result is a little
below the true value, by far less than the distance of e^x from any rounding boundary of FP32. -/
def expFix (m : Nat) (e : Int) : Nat :=
  let y := if 0 ≤ e + (expBits : Int) - 8 then m * 2 ^ (e + (expBits : Int) - 8).toNat
           else m / 2 ^ (-(e + (expBits : Int) - 8)).toNat
  fixSquare 8 (expSeries y 72 1 (2 ^ expBits) (2 ^ expBits))

/-- exp(x), correctly rounded (R53). -/
def fpExpE (x : W32) : W32 :=
  match fpVal x with
  | .nan => fpNaN
  | .inf true => fpZero false
  | .inf false => fpInf false
  | .fin neg m e =>
    if m = 0 then fpOne
    else if 128 ≤ m * 2 ^ (e + 150).toNat / 2 ^ 150 then (if neg then fpZero false else fpInf false)
    else
      let v := expFix m e
      if neg then fpPack false (2 ^ (2 * expBits + 64) / v) (-(expBits : Int) - 64) true
      else fpPack false v (-(expBits : Int)) true

/-- True for a finite pattern. -/
def fpFinite (x : W32) : Bool := fpExp x != 255

/-- True for a NaN pattern. -/
def fpIsNaN (x : W32) : Bool := fpExp x == 255 && fpFrac x != 0

/-- True for a zero after R35 has read subnormals as zero. -/
def fpIsZero (x : W32) : Bool := fpExp x == 0

/-- The magnitude pattern. -/
def fpAbs (x : W32) : W32 := x &&& 0x7FFFFFFF#32

/-- Reads a subnormal input as zero of its sign and a NaN as the canonical one (R35, R36). -/
def fpCanon (x : W32) : W32 :=
  if fpIsNaN x then fpNaN else if fpExp x = 0 then fpZero (fpSign x) else x

/-- A NaN of any payload as the canonical one (R36); any other pattern as it stands. -/
def canonNaN (x : W32) : W32 := if fpIsNaN x then fpNaN else x

/-- The rank of a pattern that is not NaN in the order of the values, -0 below +0. -/
def fpRank (x : W32) : Int :=
  let y := fpCanon x
  if fpSign y then -((fpAbs y).toNat : Int) - 1 else ((fpAbs y).toNat : Int)

/-- a < b of two patterns that are not NaN; zeros are equal. -/
def fpLt (a b : W32) : Bool :=
  if fpIsZero a && fpIsZero b then false else decide (fpRank a < fpRank b)

/-- a ≤ b of two patterns that are not NaN. -/
def fpLe (a b : W32) : Bool := !fpLt b a

/-- The maximum of R52: NaN if either input is, +0 over a mix of zeros. -/
def fpMax (a b : W32) : W32 :=
  if fpIsNaN a || fpIsNaN b then fpNaN
  else if fpRank a < fpRank b then fpCanon b else fpCanon a

/-- The minimum of R52: NaN if either input is, -0 over a mix of zeros. -/
def fpMin (a b : W32) : W32 :=
  if fpIsNaN a || fpIsNaN b then fpNaN
  else if fpRank a < fpRank b then fpCanon a else fpCanon b

/-- The maximum over a list; -inf for the empty list. -/
def fpMaxList (l : List W32) : W32 := l.foldl fpMax (fpInf true)

/-- Adds adjacent pairs (R52, step 2). -/
def pairAdd : List W32 → List W32
  | a :: b :: r => fpAdd a b :: pairAdd r
  | l => l

/-- Repeats the pairwise additions (R52, step 3); the count is fuel. -/
def treeGo : Nat → List W32 → W32
  | 0, l => (l.head?).getD (fpZero false)
  | n + 1, l => treeGo n (pairAdd l)

/-- The exponent of the next power of two at or above n. -/
def log2up (n : Nat) : Nat := if n ≤ 1 then 0 else Nat.log2 (n - 1) + 1

/-- The fixed pairwise sum tree of R52. -/
def fpSum (l : List W32) : W32 :=
  let k := log2up l.length
  treeGo k (l ++ List.replicate (2 ^ k - l.length) (fpZero false))

/-- The values at a level of the R52 tree, counted from the inputs at level 0. -/
def treeLevel : Nat → List W32 → List W32
  | 0, l => l
  | n + 1, l => treeLevel n (pairAdd l)

/-- FP32 to BF16 (R37): nearest even on bit 16, a result below 2^-126 is signed zero. -/
def toBf16 (x : W32) : BitVec 16 :=
  match fpVal x with
  | .nan => 0x7FC0#16
  | .inf s => if s then 0xFF80#16 else 0x7F80#16
  | .fin s m _ =>
    if m = 0 then (if s then 0x8000#16 else 0#16)
    else
      let u := x.toNat
      let q := roundShift u 16 false
      BitVec.ofNat 16 q

/-- BF16 to FP32 (R37), exact; R35 reads a subnormal as zero where it is used. -/
def ofBf16 (x : BitVec 16) : W32 := BitVec.ofNat 32 (x.toNat * 2 ^ 16)

/-- FP32 value of x rounded through BF16, the bf16(...) of R129 and R205. -/
def bf16r (x : W32) : W32 := ofBf16 (toBf16 x)

/-- FP32 of a natural number. -/
def fpOfNat (n : Nat) : W32 := fpPack false n 0 false

/-- A valid tensor scale: positive, normal and finite (R32). -/
def validScale (t : W32) : Bool := !fpSign t && fpExp t != 0 && fpExp t != 255

end Sys2Proof.Machine
end

