-- ==== Sys2Proof/Machine/Formats.lean ====
section
/-! DEFINITION. The number formats, their storage layout and quantisation (02, R26 to R45), and the rotation
(03, R68 to R73). -/

namespace Sys2Proof.Machine

open Sys2Proof

/-- The formats of Table 2.1. -/
inductive Fmt where
  | fp32 | bf16 | s4 | s8eB | s8wB | s8eT | s8wT
  deriving DecidableEq, Repr

/-- The format of a code; reserved codes have none (R26). -/
def fmtOf (c : Nat) : Option Fmt :=
  if c = 0 then some .fp32 else if c = 1 then some .bf16 else if c = 2 then some .s4
  else if c = 3 then some .s8eB else if c = 4 then some .s8wB
  else if c = 5 then some .s8eT else if c = 6 then some .s8wT else none

/-- The code of a format (Table 2.1). -/
def fmtCode : Fmt → Nat
  | .fp32 => 0 | .bf16 => 1 | .s4 => 2 | .s8eB => 3 | .s8wB => 4 | .s8eT => 5 | .s8wT => 6

/-- S4 or S8. -/
def Fmt.quantised : Fmt → Bool
  | .fp32 => false | .bf16 => false | _ => true

/-- S8 of either element kind and scale mode. -/
def Fmt.isS8 : Fmt → Bool
  | .s8eB => true | .s8wB => true | .s8eT => true | .s8wT => true | _ => false

/-- S8e of either scale mode. -/
def Fmt.isS8e : Fmt → Bool
  | .s8eB => true | .s8eT => true | _ => false

/-- Tensor-scale-only S8. -/
def Fmt.tensorOnly : Fmt → Bool
  | .s8eT => true | .s8wT => true | _ => false

/-- Elements of one segment (R115). -/
def Fmt.segElems : Fmt → Nat
  | .fp32 => 64 | .bf16 => 128 | .s4 => 512 | _ => 256

/-- Bytes of one segment (R115). -/
def Fmt.segBytes : Fmt → Nat
  | .fp32 => 256 | .bf16 => 256 | _ => 272

/-- Elements of one block: 32 in S4, 128 in S8 (Table 2.1). -/
def Fmt.blockElems : Fmt → Nat
  | .s4 => 32 | _ => 128

/-- The bytes of a row of c columns (R115). -/
def rowBytes (f : Fmt) (c : Nat) : Nat := ceilDiv c f.segElems * f.segBytes

/-- A value with its poison mark (17, R416: one element in the feed engines). -/
structure PV where
  v : W32
  p : Bool
  deriving DecidableEq, Repr

/-- A clean zero. -/
def PV.zero : PV := ⟨0#32, false⟩

/-- A stored byte with the poison mark of its unit. -/
structure PByte where
  b : Byte
  p : Bool
  deriving DecidableEq, Repr

/-- The mantissa bits of an element format. -/
def Fmt.manBits : Fmt → Nat
  | .s4 => 1 | .s8wB => 2 | .s8wT => 2 | _ => 3

/-- The unbiased exponent of the smallest normal element: 0 in S4, -6 in S8e, -14 in S8w. -/
def Fmt.eMin : Fmt → Int
  | .s4 => 0 | .s8wB => -14 | .s8wT => -14 | _ => -6

/-- The code of the largest finite magnitude (Table 2.4). -/
def Fmt.maxCode : Fmt → Nat
  | .s4 => 0x7 | .s8wB => 0x7B | .s8wT => 0x7B | _ => 0x7E

/-- Emax (R28 to R30). -/
def Fmt.eMax : Fmt → Nat
  | .s4 => 6 | .s8wB => 57344 | .s8wT => 57344 | _ => 448

/-- The bit above the magnitude code. -/
def Fmt.signBit : Fmt → Nat
  | .s4 => 8 | _ => 128

/-- The value of an element code (R28 to R30). -/
def elemVal (f : Fmt) (c : Nat) : FpVal :=
  let neg := decide (f.signBit ≤ c)
  let u := c % f.signBit
  let p := f.manBits
  let e := u / 2 ^ p
  let m := u % 2 ^ p
  if f.isS8e && u == 0x7F then .nan
  else if f.isS8 && !f.isS8e && decide (0x7C ≤ u) then (if u = 0x7C then .inf neg else .nan)
  else if e = 0 then .fin neg m (f.eMin - (p : Int))
  else .fin neg (2 ^ p + m) (f.eMin - (p : Int) + (e : Int) - 1)

/-- The value of a U5M3 code (R31); none for the NaN-block marker 0xFF. -/
def u5m3 (c : Nat) : Option Dy :=
  if 255 ≤ c then none
  else if c < 8 then some ⟨(c : Int), -17⟩
  else some ⟨((8 + c % 8 : Nat) : Int), ((c / 8 : Nat) : Int) - 18⟩

/-- The FP32 pattern of a U5M3 code below 0xFF, exact. -/
def u5m3Fp (c : Nat) : W32 :=
  match u5m3 c with
  | some d => fpOfDy d
  | none => fpNaN

/-- The exact product of a block scale and an element (R49), without the tensor scale. -/
def scaledElem (f : Fmt) (scale c : Nat) : FpVal :=
  match elemVal f c, u5m3 scale with
  | .nan, _ => .nan
  | _, none => .nan
  | .inf s, some d => if d.m = 0 then .nan else .inf s
  | .fin s m e, some d => .fin s (m * d.m.natAbs) (e + d.e)

/-- The FP32 pattern of a value that FP32 holds exactly or that rounds once into it. -/
def fpOfVal : FpVal → W32
  | .nan => fpNaN
  | .inf s => fpInf s
  | .fin s m e => fpPack s m e false

/-- Dequantisation (R43), the cases in the order listed. -/
def dequant (f : Fmt) (t : W32) (scale c : Nat) : W32 :=
  if !validScale t || scale == 0xFF then fpNaN
  else match elemVal f c with
    | .nan => fpNaN
    | .inf s => fpInf s
    | .fin s m e =>
      if m = 0 then fpZero s
      else fpMul (fpMul t (u5m3Fp scale)) (fpPack s m e false)

/-- Binary search for the smallest U5M3 code that meets a condition that is monotone in the code: n more bits to
decide below the code found so far. -/
def searchCode (ok : Nat → Bool) : Nat → Nat → Nat
  | 0, c => c
  | n + 1, c => searchCode ok n (if ok (c + 2 ^ n - 1) then c else c + 2 ^ n)

/-- The block scale of R38 for an amax that is not zero: the smallest finite U5M3 value v with v * t * Emax ≥ amax,
or 0xFE if there is none. -/
def pickScale (f : Fmt) (t amax : W32) : Nat :=
  let k := Dy.mul (fpDy t) ⟨(f.eMax : Int), 0⟩
  let ok := fun c => match u5m3 c with
    | some v => Dy.le (fpDy amax) (Dy.mul v k)
    | none => true
  min 0xFE (searchCode ok 8 0)

/-- A magnitude m * 2^e rounded onto the unbounded grid of an element format (R39, R40, R45): the magnitude code, which
is above the format's largest code exactly when the element overflows. The random value is given for stochastic
rounding. -/
def gridCode (f : Fmt) (m : Nat) (e : Int) (r : Option Nat) : Nat :=
  if m = 0 then 0
  else
    let p := f.manBits
    let top : Int := e + (bitLen m : Int) - 1
    let ex : Int := if top < f.eMin then f.eMin else top
    let qe : Int := ex - (p : Int)
    -- the magnitude in units of the grid step: m * 2^(e - qe)
    let num := if 0 ≤ e - qe then m * 2 ^ (e - qe).toNat else m
    let den := if 0 ≤ e - qe then 1 else 2 ^ (qe - e).toNat
    let k := num / den
    let rem := num % den
    let up := match r with
      | none => decide (den < 2 * rem) || (decide (2 * rem = den) && k % 2 == 1)
      | some r => decide (r < 65536 * rem / den)
    let k' := if up then k + 1 else k
    if k' < 2 ^ p then k'
    else if k' < 2 ^ (p + 1) then ((ex - f.eMin + 1).toNat) * 2 ^ p + (k' - 2 ^ p)
    else ((ex - f.eMin + 2).toNat) * 2 ^ p

/-- The census outcomes of R42. -/
inductive Outcome4 where
  | nonFinite | saturated | zero | normal
  deriving DecidableEq, Repr

/-- The four census counts of Table 3.1. -/
structure Counts where
  total : Nat
  zero : Nat
  sat : Nat
  nf : Nat
  deriving DecidableEq, Repr

/-- No counts. -/
def Counts.none : Counts := ⟨0, 0, 0, 0⟩

/-- Sum of counts. -/
def Counts.add (a b : Counts) : Counts := ⟨a.total + b.total, a.zero + b.zero, a.sat + b.sat, a.nf + b.nf⟩

/-- Counts of one outcome. -/
def Counts.one : Outcome4 → Counts
  | .nonFinite => ⟨1, 0, 0, 1⟩
  | .saturated => ⟨1, 0, 1, 0⟩
  | .zero => ⟨1, 1, 0, 0⟩
  | .normal => ⟨1, 0, 0, 0⟩

/-- What a quantisation contributes to its record (R60, R77): the largest finite magnitude, if any, and the counts. -/
structure Contrib where
  amax : Option W32
  counts : Counts
  deriving DecidableEq, Repr

/-- No contribution. -/
def Contrib.none : Contrib := ⟨Option.none, Counts.none⟩

/-- A quantised block: scale code, element codes and contribution. -/
structure Block where
  scale : Nat
  codes : List Nat
  contrib : Contrib
  deriving DecidableEq, Repr

/-- amax of R38 over the clean finite elements (R126: a poisoned element contributes nothing). -/
def amaxOf (xs : List PV) : Option W32 :=
  xs.foldl (fun a x =>
    if x.p || !fpFinite x.v then a
    else some (match a with | some y => fpMax y (fpAbs (fpCanon x.v)) | none => fpAbs (fpCanon x.v))) none

/-- One finite element through R39, R40 and R45: its code and outcome. -/
def quantFinite (f : Fmt) (d : W32) (x : W32) (r : Option Nat) : Nat × Outcome4 :=
  let s := if fpSign x then f.signBit else 0
  if fpIsZero x then (s, .zero)
  else
    match fpVal (fpDiv x d) with
    | .fin _ m e =>
      let c := gridCode f m e r
      if f.maxCode < c then (s + f.maxCode, .saturated)
      else if c = 0 then (s, .zero) else (s + c, .normal)
    | _ => (s + f.maxCode, .saturated)

/-- The code of a NaN element (R36): in S4 the block marker carries the NaN and the code is 0. -/
def Fmt.nanCode : Fmt → Nat
  | .s4 => 0 | _ => 0x7F

/-- One element of an S8 block, or a finite one of S4 (R39 to R41). A stored code that decodes as infinity under R43 is non-finite,
also where its input is finite (R42). -/
def quantElem (f : Fmt) (t : W32) (scale : Nat) (d : W32) (x : W32) (r : Option Nat) : Nat × Outcome4 :=
  if fpFinite x then
    let q := quantFinite f d x r
    (q.1, if fpFinite (dequant f t scale q.1) then q.2 else .nonFinite)
  else if fpIsNaN x || f.isS8e then (0x7F, .nonFinite)
  else (if fpSign x then 0xFC else 0x7C, .nonFinite)

/-- A block written as NaN (R32, R41). -/
def nanBlock (f : Fmt) (xs : List PV) (amax : Option W32) : Block :=
  { scale := 0xFF
    codes := xs.map (fun _ => f.nanCode)
    contrib := ⟨amax, (xs.filter (fun x => !x.p)).foldl (fun c _ => Counts.add c (Counts.one .nonFinite)) Counts.none⟩ }

/-- Quantises one block (R38 to R42). rs gives the random values of the elements for stochastic rounding; without
one, the element rounds to nearest even. -/
def quantBlock (f : Fmt) (t : W32) (rs : List Nat) (xs : List PV) : Block :=
  let amax := amaxOf xs
  if !validScale t then nanBlock f xs amax
  else if f == .s4 && xs.any (fun x => !fpFinite x.v) then nanBlock f xs amax
  else
    let scale := if f.tensorOnly then 0x78
      else match amax with
        | none => 0
        | some a => if fpIsZero a then 0 else pickScale f t a
    let d := fpMul t (u5m3Fp scale)
    let q := xs.zipIdx.map (fun p => quantElem f t scale d p.1.v (rs[p.2]?))
    { scale := scale
      codes := q.map (·.1)
      contrib := ⟨amax, ((xs.zip q).filter (fun p => !p.1.p)).foldl
        (fun c p => Counts.add c (Counts.one p.2.2)) Counts.none⟩ }

/-- Packs S4 codes two a byte (Table 2.5). -/
def packNibbles : List Nat → List Byte
  | a :: b :: r => BitVec.ofNat 8 (a + 16 * b) :: packNibbles r
  | [a] => [BitVec.ofNat 8 a]
  | [] => []

/-- A row as it is stored: bytes with their poison, and the contributions of its blocks in order. -/
structure RowOut where
  bytes : List PByte
  contribs : List Contrib
  deriving DecidableEq, Repr

/-- Poison of the bytes that hold elements: one mark per element, es elements a byte. -/
def bytePoison (es : Nat) (ps : List Bool) : List Bool := (chunks es ps).map (fun c => c.any id)

/-- The scale codes of the blocks of a segment that hold no real element: 0x00 (R34, R38), or the NaN marker where the tensor
scale is not valid (R32). -/
def padScales (t : W32) (n : Nat) : List Byte := List.replicate n (if validScale t then 0 else 0xFF)

/-- One quantised segment of real elements (R33, R34): pads are code +0, block scales cover real elements only. -/
def quantSegment (f : Fmt) (t : W32) (rs : List Nat) (xs : List PV) : RowOut :=
  let n := f.blockElems
  let blocks := (chunks n xs).zipIdx.map (fun p => quantBlock f t ((rs.drop (p.2 * n)).take n) p.1)
  let codes := (blocks.map (·.codes)).flatten
  let codes' := codes ++ List.replicate (f.segElems - codes.length) 0
  let ps := xs.map (·.p) ++ List.replicate (f.segElems - xs.length) false
  let eb := if f == .s4 then packNibbles codes' else codes'.map (BitVec.ofNat 8)
  let ep := if f == .s4 then bytePoison 2 ps else ps
  let scales := if f.tensorOnly then List.replicate 16 (BitVec.ofNat 8 0x78)
    else fitTo 16 (blocks.map (fun b => BitVec.ofNat 8 b.scale) ++ padScales t (f.segElems / n - blocks.length))
  let sp0 := (chunks n xs).map (fun c => c.any (·.p))
  let sp := if f.tensorOnly then List.replicate 16 false
    else (sp0 ++ List.replicate (16 - sp0.length) false).take 16
  { bytes := ((eb ++ scales).zip (ep ++ sp)).map (fun p => ⟨p.1, p.2⟩)
    contribs := blocks.map (·.contrib) }

/-- Splits a poisoned value into bytes. -/
def pvBytes (n : Nat) (x : Nat) (p : Bool) : List PByte := (leBytes n x).map (fun b => ⟨b, p⟩)

/-- Stores a row of values in a format (R33, R34, R36, R37, R115). Rotated rows come here already padded (R70). The bytes after the
last element in the last segment of an FP32 or BF16 row, of which no rule speaks, are written as zero (DESIGN CHOICE, log 116). -/
def encodeRow (f : Fmt) (t : W32) (rs : List Nat) (xs : List PV) : RowOut :=
  match f with
  | .fp32 =>
    let b := (xs.map (fun x => pvBytes 4 (canonNaN x.v).toNat x.p)).flatten
    ⟨b ++ List.replicate (rowBytes f xs.length - b.length) ⟨0, false⟩, []⟩
  | .bf16 =>
    let b := (xs.map (fun x => pvBytes 2 (toBf16 x.v).toNat x.p)).flatten
    ⟨b ++ List.replicate (rowBytes f xs.length - b.length) ⟨0, false⟩, []⟩
  | _ =>
    let segs := (chunks f.segElems xs).zipIdx.map
      (fun p => quantSegment f t ((rs.drop (p.2 * f.segElems)).take f.segElems) p.1)
    ⟨(segs.map (·.bytes)).flatten, (segs.map (·.contribs)).flatten⟩

/-- An exact element with its poison. -/
structure EV where
  v : FpVal
  p : Bool
  deriving DecidableEq, Repr

/-- The bytes of one quantised segment as pairs of element code and scale code, with poison (Table 2.5). -/
def segCodes (f : Fmt) (seg : List PByte) : List (Nat × Nat × Bool) :=
  let eb := seg.take 256
  let sb := seg.drop 256
  let codes : List (Nat × Bool) := if f == .s4
    then (eb.map (fun x => [(x.b.toNat % 16, x.p), (x.b.toNat / 16, x.p)])).flatten
    else eb.map (fun x => (x.b.toNat, x.p))
  let per : List (List (Nat × Bool)) := chunks f.blockElems codes
  (per.zipIdx.map (fun c =>
    let s := if f.tensorOnly then (⟨BitVec.ofNat 8 0x78, false⟩ : PByte) else (sb[c.2]?).getD ⟨0, false⟩
    c.1.map (fun x => (x.1, s.b.toNat, x.2 || s.p)))).flatten

/-- Reads a stored row as FP32 values (R37, R43). -/
def decodeRow (f : Fmt) (t : W32) (cols : Nat) (bs : List PByte) : List PV :=
  match f with
  | .fp32 => ((chunks 4 bs).map (fun c =>
      (⟨BitVec.ofNat 32 (leNat (c.map (·.b))), c.any (·.p)⟩ : PV))).take cols
  | .bf16 => ((chunks 2 bs).map (fun c =>
      (⟨ofBf16 (BitVec.ofNat 16 (leNat (c.map (·.b)))), c.any (·.p)⟩ : PV))).take cols
  | _ => (((chunks f.segBytes bs).map (segCodes f)).flatten.map
      (fun x => (⟨dequant f t x.2.1 x.1, x.2.2⟩ : PV))).take cols

/-- Reads a stored row as the exact operands of an array product (R49): block scale times element, without the
tensor scale. -/
def exactRow (f : Fmt) (cols : Nat) (bs : List PByte) : List EV :=
  match f with
  | .fp32 | .bf16 => (decodeRow f fpOne cols bs).map (fun x => ⟨fpVal x.v, x.p⟩)
  | _ => (((chunks f.segBytes bs).map (segCodes f)).flatten.map
      (fun x => (⟨scaledElem f x.2.1 x.1, x.2.2⟩ : EV))).take cols

/-- The constant c of R68. -/
def rotC : W32 := 0x3DB504F3#32

/-- One butterfly stage over pieces of 2h values: (a + b, a - b) (R68). -/
def butterfly (h : Nat) (xs : List W32) : List W32 :=
  ((chunks (2 * h) xs).map (fun c =>
    let a := c.take h
    let b := c.drop h
    a.zipWith fpAdd b ++ a.zipWith fpSub b)).flatten

/-- The seven butterfly stages of a 128-value block. -/
def butterflies (xs : List W32) : List W32 :=
  butterfly 64 (butterfly 32 (butterfly 16 (butterfly 8 (butterfly 4 (butterfly 2 (butterfly 1 xs))))))

/-- The rotation key of a dimension (R69): seed of the job, step, layer and stream. -/
structure RotKey where
  seed : W64
  step : W32
  layer : W32
  stream : Nat
  deriving DecidableEq, Repr

/-- The signs of positions k to k + n - 1: true for -1 (R69). -/
def rotSigns (key : RotKey) (k n : Nat) : List Bool :=
  (drawRun ⟨key.seed, 0x05, key.stream, key.step, key.layer⟩ k n).map (fun r => decide (32768 ≤ r))

/-- Multiplies values by their signs, exactly. -/
def applySigns (sg : List Bool) (xs : List W32) : List W32 :=
  xs.zipWith (fun x s => if s then fpNeg (fpCanon x) else fpCanon x) sg

/-- Canonical NaN after a sign change (R36). -/
def canonAll (xs : List W32) : List W32 := xs.map fpCanon

/-- Rotates one 128-value block forward (R68). -/
def rotFwd (sg : List Bool) (xs : List W32) : List W32 :=
  (butterflies (canonAll (applySigns sg xs))).map (fpMul rotC)

/-- Rotates one 128-value block backward: butterflies, signs, then the multiplication by c (R72). -/
def rotInv (sg : List Bool) (xs : List W32) : List W32 :=
  (canonAll (applySigns sg (butterflies (canonAll xs)))).map (fpMul rotC)

/-- Pads a rotated dimension with +0 to the next multiple of 128 (R70). -/
def pad128 (xs : List PV) : List PV := xs ++ List.replicate ((128 - xs.length % 128) % 128) PV.zero

/-- Rotates a line of values whose first position is k, block by block; poison spreads over its block of 128. -/
def rotLine (inv : Bool) (key : RotKey) (k : Nat) (xs : List PV) : List PV :=
  ((chunks 128 (pad128 xs)).zipIdx.map (fun c =>
    let p := c.1.any (·.p)
    let sg := rotSigns key (k + 128 * c.2) 128
    let vs := c.1.map (·.v)
    ((if inv then rotInv sg vs else rotFwd sg vs)).map (fun v => (⟨v, p⟩ : PV)))).flatten

end Sys2Proof.Machine
end

