-- ==== Sys2Proof/Machine/SectorCode.lean ====
section
/-! DEFINITION. The Reed-Solomon code of sectors and granules (10, R243 to R246; 11, R276). -/

namespace Sys2Proof.Machine

open Sys2Proof

/-! ## The field of R244 -/

/-- Multiplies by α: x^16 = x^12 + x^3 + x + 1. -/
def gfTimesA (a : W16) : W16 := if a.getLsbD 15 then (a <<< 1) ^^^ 0x100B#16 else a <<< 1

/-- A product in GF(2^16), from the lowest bit of the second factor on; the count is the bits left. -/
def gfMulGo : Nat → W16 → W16 → W16
  | 0, _, _ => 0
  | n + 1, a, b => (if b.getLsbD 0 then a else 0) ^^^ gfMulGo n (gfTimesA a) (b >>> 1)

def gfMul (a b : W16) : W16 := gfMulGo 16 a b

/-- A power α^k. -/
def gfPow : Nat → W16
  | 0 => 1
  | n + 1 => gfTimesA (gfPow n)

/-- Squares n times, multiplying the squares together: a^(2 + 4 + … + 2^n). -/
def gfInvGo : Nat → W16 → W16
  | 0, _ => 1
  | n + 1, a => let q := gfMul a a; gfMul q (gfInvGo n q)

/-- The inverse a^(2^16 - 2). -/
def gfInv (a : W16) : W16 := gfInvGo 15 a

/-- The power of x that a lane carries (R243, R244): DQ lanes 0 to 31, then ECC lanes 32 to 35. -/
def lanePower (lane : Nat) : Nat := if lane < 32 then lane + 4 else lane - 32

/-- The four syndromes of an error pattern, for a code whose symbol l is the coefficient of x^(pw l). -/
def syndromes (pw : Nat → Nat) (p : Pattern) : List W16 :=
  (List.range 4).map (fun j => p.foldl (fun s e => s ^^^ gfMul e.2 (gfPow (pw e.1 * j))) 0)

/-- Symbol values at given places that give syndromes: the system of R244 solved one place at a time. -/
def solveLanes (pw : Nat → Nat) : List Nat → List W16 → Pattern
  | [], _ => []
  | l :: ls, s =>
    let x := gfPow (pw l)
    let s' := (s.zip (s.drop 1)).map (fun p => p.2 ^^^ gfMul x p.1)
    let rest := (solveLanes pw ls s').map (fun e => (e.1, gfMul e.2 (gfInv (gfPow (pw e.1) ^^^ x))))
    (l, rest.foldl (fun v e => v ^^^ e.2) ((s[0]?).getD 0)) :: rest

/-- Values at the places that explain all four syndromes, if there are any. -/
def explains (pw : Nat → Nat) (lanes : List Nat) (s : List W16) : Option Pattern :=
  let p := solveLanes pw lanes s
  if syndromes pw p = s then some p else none

/-- The outcomes of the decoder (Table 10.3). -/
inductive Decoded where
  | clean
  | corrected (p : Pattern)
  | poisoned
  | uncorrectable
  deriving DecidableEq, Repr

/-- POISON_MASK (R246; 21, Table 21.8), on the four ECC lanes. -/
def poisonMask : Nat := 0x6B1DD2E44E97B15A

/-- The poison mask on the check symbols, which stand from a place on. -/
def maskAt (check : Nat) : Pattern := (List.range 4).map (fun j => (check + j, BitVec.ofNat 16 (poisonMask / 2 ^ (16 * j))))

def maskPattern : Pattern := maskAt 32

/-- Decodes what the symbols of a code of `count` symbols add to a codeword (R245, R246): up to two symbols with none erased, one
more symbol with one or two erased. -/
def decodeCode (pw : Nat → Nat) (count : Nat) (erased : List Nat) (p : Pattern) : Decoded :=
  let s := syndromes pw p
  if erased.isEmpty && s == syndromes pw (maskAt (count - 4)) then .poisoned
  else if s.all (· == 0) then .clean
  else
    let lanes := (List.range count).filter (fun l => !erased.contains l)
    let tries := if erased.isEmpty then lanes.map (fun l => [l]) ++ lanes.flatMap (fun l => (lanes.filter (fun m => l < m)).map (fun m => [l, m]))
      else if erased.length ≤ 2 then [erased] ++ lanes.map (fun l => erased ++ [l]) else []
    match tries.findSome? (fun ls => explains pw ls s) with
    | some q => .corrected q
    | none => .uncorrectable

/-- Decodes a sector, by lane (R245). -/
def decodeSector (erased : List Nat) (p : Pattern) : Decoded := decodeCode lanePower 36 erased p

/-- The power of x that a symbol of a deep granule carries: 128 data symbols, then 4 check symbols (11, R276). -/
def granulePower (l : Nat) : Nat := if l < 128 then l + 4 else l - 128

/-- Decodes a granule of the deep tier (11, R276). -/
def decodeGranule (p : Pattern) : Decoded := decodeCode granulePower 132 [] p

/-- Flips data symbols of a sector. -/
def flipData (bs : List Byte) (p : Pattern) : List Byte :=
  p.foldl (fun bs e =>
    if e.1 < 32 then putBytes bs (2 * e.1) (leBytes 2 ((BitVec.ofNat 16 (fld bs (2 * e.1) 2) ^^^ e.2).toNat)) else bs) bs

end Sys2Proof.Machine
end

