-- ==== Sys2Proof/Machine/Mem.lean ====
section
/-! DEFINITION. Byte memories: rising addresses, no entry equal to what an unlisted address reads as (zero). -/

namespace Sys2Proof.Machine

open Sys2Proof

/-- A byte memory. -/
abbrev Mem := List Host.Cell

/-- What an unlisted address reads as. DESIGN CHOICE (log 5): the manual gives no contents after power-on. -/
def Mem.blank : Byte := 0#8

/-- One byte. -/
def Mem.get : Mem → Nat → Byte
  | [], _ => Mem.blank
  | (k, v) :: r, a => if k = a then v else Mem.get r a

/-- The listed cells of a run of bytes. -/
def Mem.cells : Nat → List Byte → Mem
  | _, [] => []
  | a, b :: bs => if b = Mem.blank then Mem.cells (a + 1) bs else (a, b) :: Mem.cells (a + 1) bs

/-- Writes a run of bytes; keeps the canonical form. -/
def Mem.write (m : Mem) (a : Nat) (bs : List Byte) : Mem :=
  m.filter (fun c => decide (c.1 < a)) ++ Mem.cells a bs ++ m.filter (fun c => decide (a + bs.length ≤ c.1))

/-- Makes a range read as blank. -/
def Mem.erase (m : Mem) (a n : Nat) : Mem := m.filter (fun c => decide (c.1 < a) || decide (a + n ≤ c.1))

/-- Reads n bytes from an address in one pass over the cells at or above it. -/
def Mem.runFrom : Mem → Nat → Nat → List Byte
  | _, _, 0 => []
  | [], a, n + 1 => Mem.blank :: Mem.runFrom [] (a + 1) n
  | (k, v) :: r, a, n + 1 =>
    if k = a then v :: Mem.runFrom r (a + 1) n else Mem.blank :: Mem.runFrom ((k, v) :: r) (a + 1) n

/-- Reads n bytes from an address. -/
def Mem.read (m : Mem) (a n : Nat) : List Byte :=
  Mem.runFrom (m.filter (fun c => decide (a ≤ c.1) && decide (c.1 < a + n))) a n

/-- The canonical form: addresses strictly rising from a bound on, no blank entry. -/
def Mem.wfFrom : Nat → Mem → Bool
  | _, [] => true
  | lo, (k, v) :: r => decide (lo ≤ k) && decide (v ≠ Mem.blank) && Mem.wfFrom (k + 1) r

/-- The canonical form. -/
def Mem.wf (m : Mem) : Bool := Mem.wfFrom 0 m

/-- Marks numbers lo, lo + 1, …, lo + n - 1 of a rising list of poisoned units. -/
def markRange (l : List Nat) (lo n : Nat) : List Nat :=
  l.filter (fun x => decide (x < lo)) ++ (List.range n).map (lo + ·) ++ l.filter (fun x => decide (lo + n ≤ x))

/-- Removes the numbers of a range. -/
def clearRange (l : List Nat) (lo n : Nat) : List Nat :=
  l.filter (fun x => decide (x < lo) || decide (lo + n ≤ x))

end Sys2Proof.Machine
end

