-- ==== Sys2Proof/Machine/State.lean ====
section
/-! DEFINITION. The state of the module: every register, queue, memory and mode the manual gives it, as plain data. -/

namespace Sys2Proof.Machine

open Sys2Proof

/-! ## Stops -/

/-- Why a step stops with a fault. -/
inductive Fault where
  /-- Raised by no command: the module answers every error it detects by a next state (17, R416 to R432). Safe. -/
  | none
  deriving DecidableEq, Repr

/-- Why a command is refused by the model. -/
inductive Refusal where
  /-- Raised by an arm of exec for a command that has no meaning yet. Safe. -/
  | notModelled (mnemonic : String)
  deriving DecidableEq, Repr

/-! ## Host interface (12) -/

/-- The states of a mailbox slot (R296). `held` and `accepted` are TAKEN slots: a FEED or FETCH that waits under R315,
and a packet that was accepted and waits to take effect. -/
inductive SlotState where
  | free | sealed | taken | held | accepted
  deriving DecidableEq, Repr

/-- A mailbox slot: its state and its 73,728 bytes (R295). -/
structure MailSlot where
  state : SlotState
  bytes : Mem
  deriving DecidableEq, Repr

/-- A completion entry (Table 12.10) before it has its place in the ring. -/
structure Entry where
  kind : Nat
  failed : Bool
  poisoned : Bool
  reason : Nat
  seq : W32
  tag : W64
  index : Nat
  queue : Nat
  slot : Nat
  detail : List Byte
  deriving DecidableEq, Repr

/-- A posted write into host memory (R293). -/
structure HostWrite where
  fn : Nat
  addr : Nat
  bytes : List Byte
  deriving DecidableEq, Repr

/-- The states of a context (Table 12.4). -/
inductive CtxState where
  | none | active | destroying | killed
  deriving DecidableEq, Repr

/-- A region of bytes that a command names: rows of rowBytes at a pitch (R524). Space 0 is the window of a core and
space 1 the unified range. -/
structure Region where
  space : Nat
  core : Nat
  base : Nat
  rows : Nat
  pitch : Nat
  rowBytes : Nat
  write : Bool
  scratch : Bool
  deriving DecidableEq, Repr

/-- An accepted command (R304, R305): its descriptor, the tensor area of its list, its route, its estimate,
the regions it names, the records it quantises through, with their steps, and the records that its tensors name. -/
structure Cmd where
  seq : W32
  tag : W64
  index : Nat
  queue : Nat
  eval : Bool
  notify : Bool
  desc : List Byte
  tens : List (List Byte)
  est : Nat
  regions : List Region
  quants : List (Nat × W32)
  recs : List Nat
  deriving DecidableEq, Repr

/-- A claim of a command on a slot of a context's table on a feed die (R176). -/
structure Claim where
  die : Fin 4
  slot : Nat
  producer : Bool
  deriving DecidableEq, Repr

/-- How a command ended (R317, R419). -/
structure Done where
  reason : Nat
  failed : Bool
  poisoned : Bool
  detail : List Byte
  deriving DecidableEq, Repr

/-- A dispatched command that has not completed. `count` is the pilot cycles of the command watchdog (R341). `busy`
says that a transfer, a move or a wait of its own is still open. `scales` and `stamps` are the tensor scales that the
dispatch fixed and the loads that its records were in (R525). `began` is the array time of its dispatch, from which its charge
counts (R337). -/
structure Run where
  x : Fin 16
  id : Nat
  cmd : Cmd
  count : Nat
  out : Done
  busy : Bool
  claims : List Claim
  scales : List W32
  stamps : List Nat
  began : Nat
  deriving DecidableEq, Repr

/-- A list whose commands have not all finished (R317). -/
structure ListAcct where
  seq : W32
  tag : W64
  left : Nat
  notify : Bool
  deriving DecidableEq, Repr

/-! ## Scale records (03) -/

/-- The four census counts of a step. -/
structure Census where
  total : W64
  zero : W64
  sat : W64
  nf : W64
  deriving DecidableEq, Repr

/-- A scale record (Table 3.1). `stamp` is the number of the table load that wrote it (R525); the model's own. -/
structure ScaleRec where
  tCur : W32
  tPrev : W32
  sCur : W32
  amax : W32
  tInit : W32
  margin : W32
  window : Nat
  format : Nat
  histCount : Nat
  histHead : Nat
  started : Bool
  eventsEn : Bool
  nfImm : Bool
  held : Bool
  clamped : Bool
  thrZero : Nat
  thrSat : Nat
  thrNf : Nat
  history : List W32
  cenCur : Census
  cenClosed : Census
  sClosed : W32
  events : W32
  stamp : Nat
  deriving DecidableEq, Repr

/-- A contribution to a scale record, held or applied (R60, R77, R525): record, step and stamp of the contributing
command, its largest magnitude and its counts. -/
structure Contribution where
  record : Nat
  step : W32
  stamp : Nat
  amax : Option W32
  total : Nat
  zero : Nat
  sat : Nat
  nf : Nat
  deriving DecidableEq, Repr

/-! ## Scratchpad slots (07) -/

/-- The states of a token slot (Table 7.5). -/
inductive TokState where
  | empty | filling | full | draining
  deriving DecidableEq, Repr

/-- A slot of a slot table (Table 7.4) with its state. `since` is the pilot cycle of the last claim or fill. -/
structure TokSlot where
  offset : Nat
  rows : Nat
  raw : Bool
  readers : Nat
  state : TokState
  claims : Nat
  finished : Nat
  fills : W32
  since : Nat
  posted : Bool
  deriving DecidableEq, Repr

/-- A slot table (Table 7.3). -/
structure SlotTable where
  starveUs : Nat
  overrunMs : Nat
  slots : List TokSlot
  deriving DecidableEq, Repr

/-- A cache partition line (R170). -/
structure CacheLine where
  x : Nat
  sector : Nat
  bytes : List Byte
  poison : Bool
  deriving DecidableEq, Repr

/-- A hint of a context on a core (18, R451): level and the pilot cycle at which it ends, if it ends. -/
structure Hint where
  level : Nat
  expires : Option Nat
  deriving DecidableEq, Repr

/-- What a context holds for one core: queues, scheduling state, window, slot table and counters (Tables 13.1, 13.4
and 7.8). `wait` and `starve` count pilot cycles of the head command's own wait and of its wait for slot states;
`setPending` says that the head UPDATE has set PENDING (R233). -/
structure CtxCore where
  main : List Cmd
  eval : List Cmd
  admitted : Nat
  wait : Nat
  starve : Nat
  evalWait : Nat
  evalStarve : Nat
  budget : Nat
  remaining : Nat
  debt : Nat
  actual : W64
  solo : W64
  schedWait : W64
  testWait : W64
  evalCycles : W64
  skips : W32
  replays : W64
  replayCycles : W64
  resBase : Nat
  resSize : Nat
  table : SlotTable
  rawCollide : W32
  starveWait : W64
  overrunEvents : W32
  setPending : Bool
  hint : Option Hint
  boundaries : Nat
  deriving DecidableEq, Repr

/-- One page range of a layer plan position. -/
structure PlanPos where
  layer : W32
  ranges : List (Nat × Nat)
  deriving DecidableEq, Repr

/-- A running layer plan (11, R288 to R291). -/
structure Plan where
  table : List PlanPos
  n : Nat
  pos : Nat
  windowMode : Bool
  deriving DecidableEq, Repr

/-- The almanac in force (09, R213): its base and the 256 bytes of each loaded entry (Table 9.2). -/
structure Almanac where
  base : Nat
  entries : List (Nat × List Byte)
  deriving DecidableEq, Repr

/-- A context (Table 13.1). -/
structure Ctx where
  state : CtxState
  lastReason : Nat
  seqExpect : W32
  lastRefused : W32
  cqHead : W32
  cqTail : W32
  formed : List Entry
  backlog : List Entry
  owedOverflow : Bool
  lateWrites : W32
  sealRefused : W32
  eventsDropped : W32
  slots : Vector MailSlot 8
  ringAddr : W64
  ringEntries : Nat
  jobSeed : W64
  vecMap : List Nat
  cores : Vector CtxCore 4
  fabric : List Cmd
  fabricWait : Nat
  fabricStarve : Nat
  fabricRun : List Run
  memory : List Cmd
  memoryWait : Nat
  memoryRun : List Run
  lists : List ListAcct
  tokens : Vector W32 256
  lulls : Vector W64 7
  scales : List (Nat × ScaleRec)
  almanac : Option Almanac
  skipped : List (Nat × List Byte)
  nearQ : Nat
  deepQ : Nat
  moves : W64
  aborts : W64
  plan : Option Plan
  dying : Bool
  killReason : Nat
  killRseq : W32
  discarded : Nat
  destroyTag : Option (Nat × W32 × W64 × Nat)
  silent : Bool
  loads : Nat
  deriving DecidableEq, Repr

/-- One PCIe function's MSI-X state (R319): mask and pending bits of the 64 vectors, as rising lists. -/
structure Msix where
  masked : List Nat
  pend : List Nat
  deriving DecidableEq, Repr

/-- The host side of the hub; `nextRun` numbers dispatched commands, and `parity` is PARITY_ERR of H0. `maxPayload` is the payload size
that the host has set in configuration space (Table 12.1), `turn` the context that the lamplighter has served last (R314), and
`badSlots` the mailbox slots whose SRAM holds an uncorrectable error (R299). -/
structure Hub where
  ctxs : Vector Ctx 16
  msix : Vector Msix 16
  hostWrites : List HostWrite
  msixSent : List (Nat × Nat)
  vfEnable : Bool
  maxPayload : Nat
  turn : Fin 16
  badSlots : List (Fin 16 × Fin 8)
  nextRun : Nat
  parity : W32
  deriving DecidableEq, Repr

/-! ## Arrays and cores (04, 13, 16) -/

/-- Weight bank states (R86). -/
inductive BankState where
  | empty | loading | ready | active
  deriving DecidableEq, Repr

/-- A weight bank: one list of element and scale bytes per column, its poison, and its witness and magnitude columns
(R88, R389). -/
structure Bank where
  state : BankState
  cols : List (List Byte)
  poison : Bool
  witness : List W32
  magnitude : List W32
  deriving DecidableEq, Repr

/-- An accumulator row that is final and not drained (R96), with its lanes, poison, witness row and magnitude row, and
the witness and magnitude rows of each lane group that the locate pass of R403 would form. -/
structure AccRow where
  side : Nat
  acc : Nat
  row : Nat
  k : Nat
  lanes : List W32
  poison : Bool
  w : W32
  mag : W32
  groups : List (W32 × W32)
  deriving DecidableEq, Repr

/-- Where a drained row stands in a span: command index, accumulation, side and row (R400). -/
structure RowPlace where
  cmd : Nat
  acc : Nat
  side : Nat
  row : Nat
  deriving DecidableEq, Repr

/-- A captured row (R400), with the replay's lanes and its check once the replay has reached it. -/
structure Capture where
  place : RowPlace
  k : Nat
  lanes : List W32
  w : W32
  mag : W32
  groups : List (W32 × W32)
  replayed : Option (List W32 × Bool)
  deriving DecidableEq, Repr

/-- An array die (Table 1.1). Suspect groups carry the minute of suspicion; group 128 is the whole array (R403).
`missed` are the disagreeing rows of the span that found the capture buffer full; `fresh` says that a row which passed
in the original has failed in the replay (R402); `lastIssue` is the array time of the last row issue (R107). `ahead` counts the
tiles of the next command that a swap has made active (R89, R103), `sets` holds the rows of the two accumulator sets with their
witness rows (R95, R100), and `rows` those of them that are final and still to drain. -/
structure ArrayS where
  map : List Byte
  activeBank : Fin 2
  banks : Vector Bank 2
  ahead : Nat
  sets : Vector (List AccRow) 2
  rows : List AccRow
  captures : List Capture
  missed : List RowPlace
  fresh : Bool
  spanDisagree : Nat
  lastIssue : Nat
  cold : Bool
  duty : Nat
  inService : Bool
  degraded : Bool
  witnessFlagged : Bool
  checks : W64
  skip : W64
  disagree : W32
  parity : W32
  railThrottle : W64
  capThrottle : W64
  thermThrottle : W64
  suspects : List (Nat × Nat)
  deriving DecidableEq, Repr

/-- A drained row that waits in the epilogue for its partner array (R123). -/
structure EpiRow where
  side : Nat
  row : Nat
  vals : List W32
  poison : Bool
  deriving DecidableEq, Repr

/-- An open replay span (R397 to R402). `done` holds the ends of its commands with their charges; `contribs` and `claims` hold the
contributions and the slot transitions that wait, each with the place of its command in `done`, and `made` the claims that the original made and the replay keeps. -/
structure Span where
  x : Fin 16
  eval : Bool
  id : Nat
  opener : Cmd
  count : Nat
  cmds : List Cmd
  done : List (Cmd × Done × Nat)
  contribs : List (Nat × Contribution)
  claims : List (Nat × Claim × Bool)
  made : List Claim
  writes : List Region
  inputs : List Region
  replay : Bool
  usedReplay : Bool
  replayDue : Bool
  faults : Nat
  deriving DecidableEq, Repr

/-- The in-field test of a core (R343, R411 to R413; Table 16.7): the periods in force and in the shadow, the minute at which
the next test falls due, the pilot cycles that a due test has waited, and the array cycles that a running one has taken. -/
structure Ift where
  runNow : Bool
  period : Nat
  periodNext : Nat
  due : Bool
  forced : Bool
  waited : Nat
  nextMinute : Nat
  running : Bool
  ran : Nat
  runs : W32
  fails : W32
  deriving DecidableEq, Repr

/-- A core: scheduler, running command, span, test and status (Table 21.12). `issuing` lists the arrays that its command uses, and
`nextSet` is the accumulator set of the command's next accumulation (R95). -/
structure CoreS where
  running : Option Run
  current : Fin 16
  span : Option Span
  epi : List EpiRow
  inService : Bool
  quarantined : Bool
  singleArray : Bool
  remaps : List (Fin 8 × Nat)
  degrades : List (Fin 8)
  leaving : Bool
  reload : Bool
  issuing : List (Fin 8)
  nextSet : Fin 2
  ift : Ift
  thermalDuty : Nat
  staggerWait : W64
  deriving DecidableEq, Repr

/-- A feed die (07): scratchpad, row poison, transient tags, areas, cache partition and counters. `stage` lists the stage slots of
the stage ring that the chain of the running command holds (06, R140; R161). -/
structure FeedS where
  spad : Mem
  poison : List Nat
  gen : Nat
  tags : List (Nat × Nat)
  t : Nat
  c : Nat
  areasPending : Option (Nat × Nat × Nat × Nat)
  stage : List (Fin 32)
  cache : List CacheLine
  bankDefer : W64
  cacheHit : W64
  cacheMiss : W64
  ce : W32
  ue : W32
  census : Census
  parity : W32
  deriving DecidableEq, Repr

/-! ## Near memory (10) -/

/-- A write-combining entry (R260, R261): sector number, the bytes present, poison, and the array cycles it has stood
open. Entries stand in the order of opening. -/
structure WcbEntry where
  sector : Nat
  bytes : List (Nat × Byte)
  poison : Bool
  age : Nat
  deriving DecidableEq, Repr

/-- The fields of SC_CTRL other than ENABLE (Table 10.7). -/
structure ScCtrl where
  loopback : Nat
  eraseEn : Bool
  wcbAge : Nat
  wcbHigh : Nat
  scrubH : Nat
  deriving DecidableEq, Repr

/-- A stack with its controller: SC_CTRL in force and its shadow (R12). `dead` lists the pseudo-channels that a third permanent lane has left unreadable
(R259), `errs` the sectors whose stored code words hold flipped bits, and `found` the sectors that a flush has found uncorrectable and whose
fault records are still to be entered (R262). `fixes` lists symbol positions that reads have corrected and H1 has not yet counted, as 36
times the pseudo-channel plus the lane, and `fixTimes` those counted, each with its pilot cycle (16, R407). -/
structure StackS where
  mem : Mem
  poison : List Nat
  wcb : List WcbEntry
  ctrl : ScCtrl
  shadow : ScCtrl
  map : List Byte
  dead : List Nat
  errs : List (Nat × Pattern)
  found : List Nat
  fixes : List Nat
  fixTimes : List (Nat × Nat)
  ce : W64
  ue : W32
  fullFlush : W64
  rmwFlush : W64
  parity : W32
  laneErr : List (Nat × W32)
  deriving DecidableEq, Repr

/-! ## Tiers (11) -/

/-- The home of a page (R268). -/
inductive Home where
  | placed (stack : Fin 12) (frame : Nat)
  | spread (slot : Nat)
  | deep
  deriving DecidableEq, Repr

/-- A home-map entry that is not FREE (Table 11.1). A move in progress carries its destination. -/
structure HomeEntry where
  owner : Fin 16
  home : Home
  dest : Option Home
  pinned : Bool
  prefKind : Nat
  prefStack : Nat
  aborts : Nat
  switches : W32
  deriving DecidableEq, Repr

/-- A directory entry of a deep block (Table 11.3). -/
structure DeepBlk where
  granule : Nat
  length : Nat
  deriving DecidableEq, Repr

/-- A deep write that waits for granules (R280): page, block, the offset in the block, the bytes with their poison, the context, and
the pilot cycle at which the wait began. -/
structure DeepWait where
  page : Nat
  block : Nat
  off : Nat
  bytes : List Byte
  poison : List Bool
  x : Fin 16
  since : Nat
  deriving DecidableEq, Repr

/-- A page in motion (R282, R283): its destination kind and stack, when MOVING was set, whether it has been copied,
whether the attempt was aborted and a retry is owed, the writes that stall, the MIGRATE runs that wait for it, and whether a MIGRATE
asked for it, so that it sets NEAR_PREF (R286). -/
structure Move where
  page : Nat
  x : Fin 16
  kind : Nat
  stack : Nat
  since : Nat
  copied : Bool
  aborted : Bool
  stalled : List (Nat × List Byte × Bool)
  runs : List Nat
  pref : Bool
  deriving DecidableEq, Repr

/-- A page queued for the drift engine (R284, R286, R291): destination kind and stack, the MIGRATE run that asked
for it, if one did, and the aborted attempts that it has behind it where another request came between (R284). -/
structure MoveReq where
  page : Nat
  x : Fin 16
  kind : Nat
  stack : Nat
  run : Option Nat
  tried : Nat
  deriving DecidableEq, Repr

/-- The progress of a dispatched MIGRATE (R286). -/
structure MigrateAcct where
  run : Nat
  moved : Nat
  present : Nat
  skipped : Nat
  abandoned : Nat
  left : Nat
  deriving DecidableEq, Repr

/-- The tiers. `freed` holds SWITCHES of FREE pages that have switched before (R269). Deep data is kept by page and page offset; the compressed form is not defined by the manual (R278). -/
structure Tiers where
  spreadGib : Nat
  map : List (Nat × HomeEntry)
  freed : List (Nat × W32)
  deepDir : List (Nat × List DeepBlk)
  deepMem : Mem
  deepPoison : List Nat
  deepWaits : List DeepWait
  lowArmed : Vector Bool 16
  moves : List Move
  reqs : List MoveReq
  migrates : List MigrateAcct
  deepCe : Vector W64 16
  deepUe : Vector W32 16
  parity : Vector W32 2
  deepLow : Vector Nat 2
  deepLowNext : Vector Nat 2
  deriving DecidableEq, Repr

/-! ## Faults, history, module store (16, 17) -/

/-- A detected fault: the fields of Table 17.5 that its source gives. `transient` says that it is a transient of its unit
(Table 16.5). -/
structure FaultRec where
  severity : Nat
  reason : Nat
  source : Nat
  ctx : Option (Fin 16)
  span : Option Nat
  unitKind : Nat
  unit : Nat
  addrKind : Nat
  addr : Nat
  queue : Nat
  index : Nat
  seq : W32
  minute : Nat
  pilot : Nat
  detail : List Byte
  transient : Bool
  deriving DecidableEq, Repr

/-- The states of a ring entry (Table 17.5). -/
inductive RingState where
  | queued | handling | done
  deriving DecidableEq, Repr

/-- A fault ring entry (Table 17.5). -/
structure RingEntry where
  rseq : W32
  fault : FaultRec
  state : RingState
  preempted : Bool
  hostSeen : Bool
  mgrSent : Bool
  afterOverflow : Bool
  count : W32
  deriving DecidableEq, Repr

/-- A fault history entry (Table 16.6). -/
structure HistEntry where
  kind : Nat
  unit : Nat
  permanent : Bool
  suspect : Bool
  count : W32
  times : List Nat
  since : Nat
  deriving DecidableEq, Repr

/-- A record of the module store's write queue (R438): kind, pages without the pointer page, contents, and the packet
that waits for it. Kinds 1 to 8 are those of Table 20.4; 0x20 fault history, 0x21 an image piece, 0x22 the pointer page
of an activated image, 0x23 the pointer page of an abandon, 0x24 the identity record. -/
structure StoreRec where
  kind : Nat
  pages : Nat
  bytes : List Byte
  packet : Option (Fin 16 × Fin 8 × W32)
  deriving DecidableEq, Repr

/-- Fault ring by position, the entry in HANDLING that is not suspended, the contexts in the kill latch with the reasons of
their lost faults, history and module store: when the queue was first deferred and last tried, and when a capacitance
measurement ends. `minuteAt` is the pilot cycle of the last minute, `counts` the
faults recorded by severity, `nmiAt` the pilot cycle at which hardware last set OVERFLOW, FATAL_NMI and CLOCK_NMI (00, R11). -/
structure Faults where
  detected : List FaultRec
  ring : List (Nat × RingEntry)
  handling : Option W32
  rseqNext : W32
  lost : Vector W32 4
  counts : Vector W32 4
  overflow : Bool
  killLatch : List (Nat × Nat)
  fatal : Bool
  nmiOverflow : Bool
  nmiFatal : Bool
  nmiClock : Bool
  nmiAt : Vector Nat 3
  holdupLow : Bool
  history : List HistEntry
  minute : W32
  minuteAt : Nat
  histFull : W32
  storeQueue : List StoreRec
  storeBatch : List StoreRec
  deferredAt : Option Nat
  triedAt : Nat
  deferralPosted : Bool
  storeBatches : W64
  storeDeferrals : W64
  vMv : Nat
  cUf : Nat
  measureEnd : Nat
  measuredMinute : Nat
  deriving DecidableEq, Repr

/-! ## Blocks (12, 21) -/

/-- The common header of a block (Tables 21.3 and 21.4), with the ENABLE field of its control register. -/
structure Blk where
  enable : Bool
  enabled : Bool
  updatePending : Bool
  checking : Bool
  reason : Nat
  rweDropped : W32
  deriving DecidableEq, Repr

/-- A port of a link die (21, R503). -/
structure Port where
  inService : Bool
  training : Bool
  retired : Bool
  deriving DecidableEq, Repr

/-- A link die: LINK_CTRL and BXT_CFG (Table 14.2), ports and counters. -/
structure LinkS where
  payMax : Nat
  vlanEn : Bool
  vlanId : Nat
  vlanPcp : Nat
  etype : Nat
  retxUs : Nat
  ports : Vector Port 4
  rxDiscard : W64
  rxDup : W64
  parity : W32
  deriving DecidableEq, Repr

/-! ## Fabric (14) -/

/-- A frame that a flow holds until it is acknowledged (R353): when it was last sent, its timeouts in a row, whether it
is selectively acknowledged or has been resent for that, the command or service it belongs to, and the port of its
stripe. -/
structure OutFrame where
  frame : Frame
  sent : Option Nat
  timeouts : Nat
  sacked : Bool
  fast : Bool
  owner : Option Nat
  port : Option (Fin 16)
  deriving DecidableEq, Repr

/-- The sending side of a flow (R352 to R354): peer, job, channel and bound context; the next SEQ, whether the next frame
carries FLOW_START, window, credit, and the frames not yet acknowledged in SEQ order. -/
structure TxFlow where
  peer : Nat
  job : Nat
  channel : Nat
  x : Option (Fin 16)
  next : W32
  start : Bool
  cwnd : Nat
  credit : Nat
  frames : List OutFrame
  deriving DecidableEq, Repr

/-- The receiving side of a flow (R352, R353): the next SEQ expected, the later ones accepted, and the frames that the
next ACK is owed for with the pilot cycle of the first. -/
structure RxFlow where
  peer : Nat
  job : Nat
  channel : Nat
  x : Option (Fin 16)
  expected : W32
  seen : List Nat
  fresh : Nat
  firstAt : Option Nat
  deriving DecidableEq, Repr

/-- An RTS that no RECV has matched (R362). -/
structure Rts where
  peer : Nat
  x : Fin 16
  seq : W32
  tag : W32
  bytes : Nat
  deriving DecidableEq, Repr

/-- A shard service (R364): the requester and its message number, or the own command that reads its own shard. -/
structure Service where
  id : Nat
  x : Fin 16
  job : Nat
  peer : Nat
  msg : W32
  src : Nat
  bytes : Nat
  group : Nat
  started : Bool
  own : Option Nat
  deriving DecidableEq, Repr

/-- A part of a message or ring step that a fabric command still awaits: ring step or owner, stripe, and bytes left. -/
structure Part where
  step : Nat
  stripe : Nat
  left : Nat
  deriving DecidableEq, Repr

/-- The progress of a dispatched fabric command (R357 to R365): pilot cycles of peer waits, its phase, when a busy RTS is
sent again, the parts awaited, the pieces that have arrived, the SEQs of their LAST frames with their peers, the shard
versions, the reason that it will fail with, and when a frame of the awaited peer last arrived. -/
structure Fab where
  run : Nat
  x : Fin 16
  waits : Nat
  phase : Nat
  retry : Option Nat
  parts : List Part
  got : List (Nat × Nat × Nat)
  lasts : List (Nat × W32)
  versions : List (Nat × W32)
  bad : Nat
  heard : Option Nat
  deriving DecidableEq, Repr

/-- An Ethernet frame that was sent (R348): port, MAC addresses, VLAN tag, EtherType and the BXT frame. -/
structure Wire where
  port : Nat
  dstMac : Nat
  srcMac : Nat
  vlan : Option (Nat × Nat)
  etype : Nat
  frame : Frame
  deriving DecidableEq, Repr

/-- The fabric: flows, RTSs without a RECV, shard services, progress of commands, DATA frames of a collective that this
member has not dispatched, THROTTLED of each peer's latest frame, the port pointer of R347, and the frames sent. -/
structure Fabric where
  tx : List TxFlow
  rx : List RxFlow
  rts : List Rts
  services : List Service
  fabs : List Fab
  early : List Frame
  peers : List (Nat × Bool)
  port : Nat
  sent : List Wire
  deriving DecidableEq, Repr

/-! ## Power (18) -/

/-- A rail (Tables 18.1 and 18.6). Currents are in milliamperes and the set point in millivolts; `slew` counts pilot
cycles towards its next millivolt and `rising` says which way it goes (R451), `calib` names the weights in force, 0 for those of the
product options record (R442, R454), `since` windows since the last change of duty (R445), `overRun` and `lowRun`
windows above and below the limit (R446), `driftRun` drifting windows (R453), `fitNo` and `fitWin` the recalibration and
`restore` a fit that has passed (R454). -/
structure Rail where
  setMv : Nat
  slew : Nat
  rising : Bool
  calib : Nat
  duty : Nat
  since : Nat
  est : Nat
  estPrev : Nat
  meas : Nat
  measPrev : Nat
  statEst : Nat
  statMeas : Nat
  measOnly : Bool
  overLim : Bool
  fixed : Bool
  overRun : Nat
  lowRun : Nat
  posted : Bool
  driftRun : Nat
  drifts : W32
  fitNo : Nat
  fitWin : Nat
  restore : Bool
  deriving DecidableEq, Repr

/-- The states of a fast clock domain (R455, R456). -/
inductive ClockSt where
  | stopped | starting | running
  deriving DecidableEq, Repr

/-- A fast clock domain (Table 18.3): its state, the pilot cycle at which it began, idle pilot cycles, and its starts. -/
structure Domain where
  st : ClockSt
  since : Nat
  idle : Nat
  starts : W32
  deriving DecidableEq, Repr

/-- A ramp start request: core, and the array time at which its first row is ready to issue (R452). -/
structure RampReq where
  core : Fin 4
  at' : Nat
  deriving DecidableEq, Repr

/-- The power manager (18). Rails count as in Table 18.1; `windows` are those read in the current period, `short` says that
the period was throttled for power, `periods` and `shortPeriods` count since the last heartbeat, and `draw` is the sum
over the rails of set point times both window currents, in microwatts. Temperatures are in quarter degrees, dies as in
Table 17.5, 4 × die + sensor in `atTrip`: sensors whose last reading stood at the trip point. `hot` lists the dies at their
throttle point that no duty relieves. -/
structure Power where
  rails : Vector Rail 17
  capDuty : Nat
  capSince : Nat
  capRun : Nat
  capPosted : Bool
  hostCap : Nat
  mgrCap : Nat
  bmcCap : Nat
  effCap : Nat
  peak : W64
  windows : Nat
  draw : Nat
  throttled : Bool
  short : Bool
  periods : Nat
  shortPeriods : Nat
  domains : Vector Domain 11
  temps : Vector Nat 32
  atTrip : List Nat
  hot : List Nat
  thermtrip : Bool
  rampReqs : List RampReq
  lastRamp : Option Nat
  deriving DecidableEq, Repr

/-! ## Clocks, reset, start (19) -/

/-- A reference source: 0 recovered, 1 crystal, 2 internal (Table 19.1): failed, consecutive failed and good windows,
and counters. -/
structure Source where
  failed : Bool
  failRun : Nat
  goodRun : Nat
  switches : W32
  failedWindows : W32
  deriving DecidableEq, Repr

/-- The resets of Table 19.5 that hold more than the PCIe interface. -/
inductive ResetKind where
  | module | hub
  deriving DecidableEq, Repr

/-- Clocks, resets and start-up (19). `pauseFrom` is the pilot cycle at which the pause of R465 began; `owedSwitch` a
switch that fell due during it; `lanePending` says that REF_LANE waits for its good windows (R467, Table 19.6); `warm` that the start follows a module reset. A reset in
progress carries the pilot cycle of its request; `resetDone` says that a hub reset has reinitialised H0 and waits for the
lamplighter. `stageAt` is the end of the stage before, `resetAt` the pilot cycle from which the start is timed. -/
structure Clock where
  returnEn : Bool
  linkRefEn : Bool
  refLane : Nat
  idleUs : Nat
  source : Fin 3
  limited : Bool
  sources : Vector Source 3
  lanePending : Bool
  xtalPassed : Bool
  calibrated : Nat
  calAt : Nat
  holdover : Bool
  pauseFrom : Option Nat
  owedSwitch : Bool
  oscDly : Nat
  ready : Bool
  lastReset : Nat
  stage : Nat
  stageAt : Nat
  startReason : Nat
  startStopped : Bool
  resetHeld : Bool
  perstHeld : Bool
  resetting : Option (ResetKind × Nat)
  resetDone : Bool
  lastBeat : Nat
  beats : W64
  resetAt : Nat
  warm : Bool
  deriving DecidableEq, Repr

/-! ## Installation roles (15) -/

/-- What a heartbeat says of a member's power (R386): watts drawn, barometer periods since the heartbeat before, and those of them
throttled for a power cap or current limit. -/
structure Beat where
  watts : Nat
  periods : Nat
  short : Nat
  deriving DecidableEq, Repr

/-- What a manager holds of a member: node, position in MEMBERS, worker index if it has one, spare position if it is a
spare, presence, failure, the pilot cycle of its last heartbeat, power and THROTTLED of up to ten heartbeats with the
newest first, its cap, fault counts, its latest SLOW_REPORT and the run of slow reports (R376, R379, R385, R386). -/
structure Member where
  node : Nat
  listed : Nat
  index : Option Nat
  sparePos : Option Nat
  present : Bool
  failed : Bool
  beat : Nat
  beats : List Beat
  cap : Nat
  faults : List Nat
  slow : List Nat
  slowRun : Nat
  slowPosted : Bool
  deriving DecidableEq, Repr

/-- What the holder of the installation has registered of a group (R378, R381, R383): its manager, indices present and
absent, spares left, the spares at which 0x0526 was last posted, and its complete steps of each job. -/
structure GroupReg where
  group : Nat
  node : Nat
  present : Nat
  absent : Nat
  spares : Nat
  posted : Option Nat
  beat : Nat
  steps : List (Nat × Nat)
  deriving DecidableEq, Repr

/-- A checkpoint index entry (R381): job, worker index, newest step held, and the node that holds the mirror. -/
structure Ckpt where
  job : Nat
  index : Nat
  step : Nat
  holder : Nat
  deriving DecidableEq, Repr

/-- A takeover that is queued or running (R382): index, failed node, and the spare once one is chosen. -/
structure Takeover where
  index : Nat
  failed : Nat
  spare : Option Nat
  deriving DecidableEq, Repr

/-- The role services (15). Record bodies are those of Table 15.2; `role`, `index`, `manager` and `top` are those now held,
`steps` the complete steps of each job of the own group that the restore steps have not passed, and `restore` the restore steps. Times are pilot cycles.
`asked` says that a manager has turned to this top deputy (R379). -/
structure Roles where
  record : Option (List Byte)
  role : Nat
  index : Nat
  groupEpoch : Nat
  installEpoch : Nat
  manager : Nat
  top : Nat
  welcomed : Bool
  readyAt : Option Nat
  managerReadyAt : Option Nat
  chargeAt : Option Nat
  topChargeAt : Option Nat
  helloAt : Option Nat
  formed : Bool
  closed : Bool
  members : List Member
  groups : List GroupReg
  installReady : Bool
  offset : Nat
  ckpts : List Ckpt
  steps : List (Nat × Nat)
  restore : List (Nat × Nat)
  takeovers : List Takeover
  beatAt : Option Nat
  managerBeat : Option Nat
  slowAt : Option Nat
  reviewAt : Option Nat
  countsAt : Option Nat
  asked : Bool
  deriving DecidableEq, Repr

/-! ## Security (20) -/

/-- What a requester of the SPDM responder has negotiated: requester 0 is the DOE mailbox, others are node + 1 (R491). -/
structure Spdm where
  who : Nat
  stage : Nat
  last : Nat
  deriving DecidableEq, Repr

/-- A firmware image of a bank: VERSION, SVN and FLOOR of its manifest, and the hashes of the H1 firmware and the lamplighter
image (Table 20.5). -/
structure Image where
  version : W32
  svn : Nat
  floor : Nat
  h1 : List Byte
  ll : List Byte
  deriving DecidableEq, Repr

/-- Security state: SEC_STATUS (Table 20.8), the images of the two banks, the bank that the pointer page makes current and
the running one, the current record of each kind in the module store (R479), the stored fault history with its minute (16, R408), the replay-protected area with the SVN floor,
the GENs and the owner's KEY_ID (R480), the progress of a firmware update (R485 to R487), and the events that wait for the
module to be ready (R481). `identityKey` and `vendorKey` are the public moduli of the device identity and of the
vendor signing key (Table 20.1). `image` is the complete image that an accepted activate waits to make current. -/
structure Sec where
  identityOk : Bool
  banks : Vector Image 2
  boot : Fin 2
  running : Fin 2
  staged : Bool
  pendingModule : Bool
  floor : Nat
  records : List (Nat × List Byte)
  gens : List (Nat × Nat)
  ownerKey : Option (List Byte)
  partialTotal : Nat
  partialImage : List Byte
  image : Option (Image × Nat)
  hubResetAt : Option Nat
  startEvents : List Nat
  hist : List HistEntry
  minute : W32
  spdm : List Spdm
  spdmOut : List (Nat × List Byte)
  identityKey : Nat
  vendorKey : Nat
  deriving DecidableEq, Repr

/-! ## Module hardware (21, 22) -/

/-- The counter latch of a window (R495): window, offset of the low half last read, and the latched high half. -/
structure Latch where
  window : Nat
  offset : Nat
  high : W32
  deriving DecidableEq, Repr

/-- Pins, straps, management bus and test port (22). `railsOn` says that the rails other than VDD_AON are on; `enOffAt` is
the pilot cycle at which MOD_PWR_EN was deasserted (R512). -/
structure Board where
  vinMv : Nat
  iinCa : Nat
  vinOk : Bool
  pwrEn : Bool
  pwrGood : Bool
  goodAt : Option Nat
  railsOn : Bool
  aonOn : Bool
  enOffAt : Option Nat
  inputLost : Bool
  slotId : Nat
  i3cAddr : Option Nat
  i3cOffset : Nat
  i3cIbis : Nat
  i3cOut : List Byte
  jtagIr : Nat
  jtagOut : W32
  hostDropped : W32
  latches : List Latch
  readOut : List Byte
  pcieStatus : W32
  deriving DecidableEq, Repr

/-! ## The whole module -/

/-- The state of the module. -/
structure State where
  pending : List Instr
  pilot : Nat
  arrayTime : Nat
  freeCtr : Nat
  hub : Hub
  cores : Vector CoreS 4
  arrays : Vector ArrayS 8
  feeds : Vector FeedS 4
  hbm : Vector StackS 12
  tiers : Tiers
  faults : Faults
  blks : Vector Blk 36
  links : Vector LinkS 4
  fabric : Fabric
  power : Power
  clock : Clock
  roles : Roles
  sec : Sec
  board : Board
  deriving DecidableEq, Repr

/-! ## After a power-on reset (19, R470)

Values that the manual gives no reset for are named in the log (entries 4 to 8). -/

/-- A slot table that is not loaded. -/
def SlotTable.none : SlotTable := { starveUs := 0, overrunMs := 0, slots := [] }

/-- A context's part on a core before CREATE. -/
def CtxCore.blank : CtxCore :=
  { main := [], eval := [], admitted := 0, wait := 0, starve := 0, evalWait := 0, evalStarve := 0, budget := 2800000
    remaining := 0, debt := 0, actual := 0, solo := 0, schedWait := 0, testWait := 0, evalCycles := 0, skips := 0
    replays := 0, replayCycles := 0, resBase := 0, resSize := 0, table := SlotTable.none, rawCollide := 0
    starveWait := 0, overrunEvents := 0, setPending := false, hint := none, boundaries := 0 }

/-- A mailbox slot that holds nothing. -/
def MailSlot.blank : MailSlot := { state := .free, bytes := [] }

/-- A context that does not exist (Table 12.4). -/
def Ctx.blank : Ctx :=
  { state := .none, lastReason := 0, seqExpect := 1, lastRefused := 0, cqHead := 0, cqTail := 0, formed := [], backlog := []
    owedOverflow := false, lateWrites := 0, sealRefused := 0, eventsDropped := 0, slots := Vector.replicate 8 MailSlot.blank
    ringAddr := 0, ringEntries := 0, jobSeed := 0, vecMap := List.replicate 9 0, cores := Vector.replicate 4 CtxCore.blank
    fabric := [], fabricWait := 0, fabricStarve := 0, fabricRun := [], memory := [], memoryWait := 0, memoryRun := []
    lists := [], tokens := Vector.replicate 256 0, lulls := Vector.replicate 7 0, scales := [], almanac := none
    skipped := [], nearQ := 0, deepQ := 0, moves := 0, aborts := 0, plan := none, dying := false, killReason := 0
    killRseq := 0, discarded := 0, destroyTag := none, silent := false, loads := 0 }

/-- A bank that holds nothing. -/
def Bank.blank : Bank := { state := .empty, cols := [], poison := false, witness := [], magnitude := [] }

/-- A module with no role record (R370). -/
def Roles.standalone : Roles :=
  { record := none, role := 0, index := 0xFFFF, groupEpoch := 0, installEpoch := 0, manager := 0, top := 0
    welcomed := false, readyAt := none, managerReadyAt := none, chargeAt := none, topChargeAt := none, helloAt := none
    formed := false, closed := false, members := [], groups := [], installReady := false, offset := 0, ckpts := []
    steps := [], restore := [], takeovers := [], beatAt := none, managerBeat := none, slowAt := none, reviewAt := none
    countsAt := none, asked := false }

/-- An array after reset (21, Table 21.12; 04, R84 for the map). -/
def ArrayS.initial (n : Nat) : ArrayS :=
  { map := BitVec.ofNat 8 n :: zeros 143, activeBank := 0, banks := Vector.replicate 2 Bank.blank, ahead := 0
    sets := Vector.replicate 2 [], rows := [], captures := [], missed := [], fresh := false, spanDisagree := 0, lastIssue := 0, cold := true, duty := 64, inService := false
    degraded := false, witnessFlagged := false, checks := 0, skip := 0, disagree := 0, parity := 0, railThrottle := 0
    capThrottle := 0, thermThrottle := 0, suspects := [] }

/-- The in-field test after reset (16, Table 16.7). -/
def Ift.fresh : Ift :=
  { runNow := false, period := 360, periodNext := 360, due := false, forced := false, waited := 0, nextMinute := 0
    running := false, ran := 0, runs := 0, fails := 0 }

/-- A core after reset (21, Table 21.12). -/
def CoreS.fresh : CoreS :=
  { running := none, current := 0, span := none, epi := [], inService := false, quarantined := false, singleArray := false
    remaps := [], degrades := [], leaving := false, reload := false, issuing := [], nextSet := 0, ift := Ift.fresh, thermalDuty := 64
    staggerWait := 0 }

/-- Four census counts at zero. -/
def Census.none : Census := { total := 0, zero := 0, sat := 0, nf := 0 }

/-- A feed die after reset (21, Table 21.11: FEED_AREAS 0x40). -/
def FeedS.fresh : FeedS :=
  { spad := [], poison := [], gen := 0, tags := [], t := 64, c := 0, areasPending := none, stage := [], cache := []
    bankDefer := 0
    cacheHit := 0, cacheMiss := 0, ce := 0, ue := 0, census := Census.none, parity := 0 }

/-- SC_CTRL after reset (10, Table 10.7). -/
def ScCtrl.fresh : ScCtrl := { loopback := 0, eraseEn := true, wcbAge := 1, wcbHigh := 12, scrubH := 24 }

/-- A stack after reset (10, R256 for the map). -/
def StackS.fresh (n : Nat) : StackS :=
  { mem := [], poison := [], wcb := [], ctrl := ScCtrl.fresh, shadow := ScCtrl.fresh, map := BitVec.ofNat 8 n :: zeros 271
    dead := [], errs := [], found := [], fixes := [], fixTimes := [], ce := 0, ue := 0, fullFlush := 0, rmwFlush := 0, parity := 0, laneErr := [] }

/-- The tiers after reset (10, R251; 21, Table 21.7). -/
def Tiers.fresh : Tiers :=
  { spreadGib := 36, map := [], freed := [], deepDir := [], deepMem := [], deepPoison := [], deepWaits := []
    lowArmed := Vector.replicate 16 true, moves := [], reqs := [], migrates := [], deepCe := Vector.replicate 16 0
    deepUe := Vector.replicate 16 0, parity := Vector.replicate 2 0, deepLow := Vector.replicate 2 4
    deepLowNext := Vector.replicate 2 4 }

/-- Fault ring, history and module store after reset (17, R426, Table 17.9). -/
def Faults.fresh : Faults :=
  { detected := [], ring := [], handling := none, rseqNext := 0, lost := Vector.replicate 4 0
    counts := Vector.replicate 4 0, overflow := false, killLatch := [], fatal := false, nmiOverflow := false
    nmiFatal := false, nmiClock := false, nmiAt := Vector.replicate 3 0, holdupLow := false, history := [], minute := 0, minuteAt := 0, histFull := 0
    storeQueue := [], storeBatch := [], deferredAt := none, triedAt := 0, deferralPosted := false, storeBatches := 0
    storeDeferrals := 0, vMv := 0, cUf := 0, measureEnd := 0, measuredMinute := 0 }

/-- A block header after reset (21, Table 21.4). -/
def Blk.fresh : Blk :=
  { enable := false, enabled := false, updatePending := false, checking := false, reason := 0, rweDropped := 0 }

/-- A link die after reset (14, Table 14.2). -/
def LinkS.fresh : LinkS :=
  { payMax := 3, vlanEn := false, vlanId := 0, vlanPcp := 0, etype := 0x88B5, retxUs := 64
    ports := Vector.replicate 4 ⟨false, false, false⟩, rxDiscard := 0, rxDup := 0, parity := 0 }

/-- The fabric with nothing in flight. -/
def Fabric.fresh : Fabric :=
  { tx := [], rx := [], rts := [], services := [], fabs := [], early := [], peers := [], port := 0, sent := [] }

/-- A rail at its nominal set point (18, Tables 18.1 and 18.6). -/
def Rail.fresh (mv : Nat) : Rail :=
  { setMv := mv, slew := 0, rising := false, calib := 0, duty := 64, since := 0, est := 0, estPrev := 0, meas := 0, measPrev := 0, statEst := 0
    statMeas := 0, measOnly := false, overLim := false, fixed := false, overRun := 0, lowRun := 0, posted := false
    driftRun := 0, drifts := 0, fitNo := 0, fitWin := 0, restore := false }

/-- The nominal set point of a rail in millivolts (18, Table 18.1). -/
def railMv (r : Nat) : Nat := if r < 12 then 750 else if r = 12 then 1100 else 800

/-- The power manager after reset (18, R445, R447, R448). -/
def Power.fresh : Power :=
  { rails := Vector.ofFn (fun r => Rail.fresh (railMv r.val)), capDuty := 64, capSince := 0, capRun := 0, capPosted := false
    hostCap := 3200, mgrCap := 3200, bmcCap := 3200, effCap := 3200, peak := 0, windows := 0, draw := 0
    throttled := false, short := false, periods := 0, shortPeriods := 0, domains := Vector.replicate 11 ⟨.stopped, 0, 0, 0⟩, temps := Vector.replicate 32 0, atTrip := []
    hot := [], thermtrip := false, rampReqs := [], lastRamp := none }

/-- A reference source that has failed no window. -/
def Source.fresh : Source := { failed := false, failRun := 0, goodRun := 0, switches := 0, failedWindows := 0 }

/-- Clocks and start after a power-on reset with straps left open (19, Table 19.8; 22, R507). -/
def Clock.fresh : Clock :=
  { returnEn := true, linkRefEn := true, refLane := 0, idleUs := 50, source := 2, limited := true
    sources := Vector.replicate 3 Source.fresh, lanePending := false, xtalPassed := false, calibrated := 0, calAt := 0
    holdover := false, pauseFrom := none, owedSwitch := false, oscDly := 3, ready := false, lastReset := 0, stage := 1
    stageAt := 0, startReason := 0, startStopped := false, resetHeld := false, perstHeld := false, resetting := none
    resetDone := false, lastBeat := 0, beats := 0, resetAt := 0, warm := false }

/-- An image of firmware 1.4 as a module is supplied (00, R3). -/
def Image.supplied : Image := { version := 0x00010004, svn := 0, floor := 0, h1 := zeros 64, ll := zeros 64 }

/-- Security state of a module as supplied (20, Table 20.8). -/
def Sec.fresh : Sec :=
  { identityOk := false, banks := Vector.replicate 2 Image.supplied, boot := 0, running := 0, staged := false
    pendingModule := false, floor := 0, records := [], gens := [], ownerKey := none, partialTotal := 0, partialImage := []
    image := none, hubResetAt := none, startEvents := [], hist := [], minute := 0, spdm := [], spdmOut := []
    identityKey := Config.identityModulus, vendorKey := Config.vendorModulus }

/-- The board at the rising edge of MOD_PWR_GOOD, its straps open (22, R507, R511). -/
def Board.fresh : Board :=
  { vinMv := 0, iinCa := 0, vinOk := true, pwrEn := true, pwrGood := true, goodAt := some 0, railsOn := true, aonOn := true
    enOffAt := none, inputLost := false, slotId := 63, i3cAddr := none, i3cOffset := 0, i3cIbis := 0, i3cOut := []
    jtagIr := 0, jtagOut := 0, hostDropped := 0, latches := [], readOut := [], pcieStatus := 0 }

/-- The module right after a power-on reset: stage 1 of its start, no command waiting. -/
def State.reset : State :=
  { pending := [], pilot := 0, arrayTime := 0, freeCtr := 0
    hub := { ctxs := Vector.replicate 16 Ctx.blank, msix := Vector.replicate 16 ⟨[], []⟩, hostWrites := [], msixSent := []
             vfEnable := false, maxPayload := 128, turn := 15, badSlots := [], nextRun := 0, parity := 0 }
    cores := Vector.replicate 4 CoreS.fresh, arrays := Vector.ofFn (fun n => ArrayS.initial n.val)
    feeds := Vector.replicate 4 FeedS.fresh, hbm := Vector.ofFn (fun n => StackS.fresh n.val), tiers := Tiers.fresh
    faults := Faults.fresh, blks := Vector.replicate 36 Blk.fresh, links := Vector.replicate 4 LinkS.fresh
    fabric := Fabric.fresh, power := Power.fresh, clock := Clock.fresh, roles := Roles.standalone, sec := Sec.fresh
    board := Board.fresh }

end Sys2Proof.Machine
end

