-- ==== Sys2Proof/Machine/Ops.lean ====
section
/-! DEFINITION. The named operations over the state: units, memories, entries and fault records. -/

namespace Sys2Proof.Machine

open Sys2Proof

/-! ## Units -/

/-- Replaces one unit of a row of units by a function of it. -/
def vmod {α : Type} {n : Nat} (v : Vector α n) (i : Fin n) (f : α → α) : Vector α n := v.set i (f v[i])

/-- A unit number as an index; numbers past the end wrap, and no caller passes one. -/
def ix (n : Nat) [NeZero n] (i : Nat) : Fin n := Fin.ofNat n i

def State.ctx (s : State) (x : Fin 16) : Ctx := s.hub.ctxs[x]

def State.modCtx (s : State) (x : Fin 16) (f : Ctx → Ctx) : State :=
  { s with hub := { s.hub with ctxs := vmod s.hub.ctxs x f } }

def State.core (s : State) (c : Fin 4) : CoreS := s.cores[c]

def State.modCore (s : State) (c : Fin 4) (f : CoreS → CoreS) : State := { s with cores := vmod s.cores c f }

def State.feed (s : State) (c : Fin 4) : FeedS := s.feeds[c]

def State.modFeed (s : State) (c : Fin 4) (f : FeedS → FeedS) : State := { s with feeds := vmod s.feeds c f }

def State.arr (s : State) (a : Fin 8) : ArrayS := s.arrays[a]

def State.modArr (s : State) (a : Fin 8) (f : ArrayS → ArrayS) : State := { s with arrays := vmod s.arrays a f }

def State.stack (s : State) (n : Fin 12) : StackS := s.hbm[n]

def State.modStack (s : State) (n : Fin 12) (f : StackS → StackS) : State := { s with hbm := vmod s.hbm n f }

/-- The per-core part of a context. -/
def State.cc (s : State) (x : Fin 16) (c : Fin 4) : CtxCore := (s.ctx x).cores[c]

def State.modCC (s : State) (x : Fin 16) (c : Fin 4) (f : CtxCore → CtxCore) : State :=
  s.modCtx x (fun k => { k with cores := vmod k.cores c f })

def State.modSlot (s : State) (x : Fin 16) (i : Fin 8) (f : MailSlot → MailSlot) : State :=
  s.modCtx x (fun k => { k with slots := vmod k.slots i f })

def State.modTiers (s : State) (f : Tiers → Tiers) : State := { s with tiers := f s.tiers }

def State.modFaults (s : State) (f : Faults → Faults) : State := { s with faults := f s.faults }

/-- Array A (0) or B (1) of a core, counted as in Table 1.5. -/
def arrayOf (c : Fin 4) (b : Fin 2) : Fin 8 := ⟨2 * c.val + b.val, by omega⟩

/-- The core of an array. -/
def coreOfArray (a : Fin 8) : Fin 4 := ⟨a.val / 2, by omega⟩

/-- The core that drives a stack (R16). -/
def coreOfStack (n : Fin 12) : Fin 4 := ⟨n.val / 3, by omega⟩

/-- Takes a free choice: the occasion's number, and the state with the counter advanced. -/
def State.occasion (s : State) : Nat × State := (s.freeCtr, { s with freeCtr := s.freeCtr + 1 })

/-- Counts a dropped write on a block (00, R14). -/
def State.dropWrite (s : State) (block : Nat) : State :=
  { s with blks := vmod s.blks (ix 36 block) (fun b => { b with rweDropped := satAdd b.rweDropped 1 }) }

/-! ## Completion entries and events (12, R316 to R319) -/

/-- An entry with no queue, no slot and no detail. -/
def Entry.blank (kind reason : Nat) : Entry :=
  { kind := kind, failed := false, poisoned := false, reason := reason, seq := 0, tag := 0, index := 0, queue := 0xFF
    slot := 0xFF, detail := [] }

/-- Forms an entry for the ring of a context. A context that has no ring, or has received its CONTEXT entry for KILLED,
gets none (R432), nor does one that a reset destroys (R294). -/
def State.post (s : State) (x : Fin 16) (e : Entry) : State :=
  match (s.ctx x).state with
  | .active => s.modCtx x (fun k => { k with formed := k.formed ++ [e] })
  | .destroying => if (s.ctx x).destroyTag.isSome && !(s.ctx x).silent then s.modCtx x (fun k => { k with formed := k.formed ++ [e] }) else s
  | .none => s
  | .killed => s

/-- An EVENT entry (R317). -/
def State.event (s : State) (x : Fin 16) (reason : Nat) (detail : List Byte) : State :=
  s.post x { Entry.blank 4 reason with detail := detail }

/-- Detail bytes: fields at offsets from 0x18, given relative to 0x18 with their sizes. -/
def detail (fs : List (Nat × Nat × Nat)) : List Byte :=
  fs.foldl (fun d f => putBytes d f.1 (leBytes f.2.1 f.2.2)) (zeros 40)

/-- The 64 bytes of entry number n of a ring (Table 12.10; PHASE by R316). -/
def Entry.encode (e : Entry) (n entries : Nat) : List Byte :=
  [BitVec.ofNat 8 e.kind,
   BitVec.ofNat 8 ((if (n / entries) % 2 = 0 then 1 else 0) + 2 * b2n e.failed + 4 * b2n e.poisoned)] ++
  leBytes 2 e.reason ++ leBytes 4 e.seq.toNat ++ leBytes 8 e.tag.toNat ++ leBytes 2 e.index ++
  [BitVec.ofNat 8 e.queue, BitVec.ofNat 8 e.slot] ++ zeros 4 ++ fitTo 40 e.detail

/-! ## Fault records (17) -/

/-- A fault with no unit, context or command, detected now. -/
def State.faultNow (s : State) (severity reason source : Nat) : FaultRec :=
  { severity := severity, reason := reason, source := source, ctx := none, span := none, unitKind := 0, unit := 0
    addrKind := 0, addr := 0, queue := 0xFF, index := 0, seq := 0, minute := s.faults.minute.toNat
    pilot := s.pilot - s.clock.resetAt
    detail := [], transient := false }

/-- Detects a fault: it waits for its place in the ring (FAULT_RECORD). -/
def State.detect (s : State) (f : FaultRec) : State :=
  s.modFaults (fun t => { t with detected := t.detected ++ [f] })

/-- Names a command and its context in a fault. -/
def FaultRec.ofCmd (f : FaultRec) (x : Fin 16) (c : Cmd) : FaultRec :=
  { f with ctx := some x, queue := c.queue, index := c.index, seq := c.seq }

/-! ## Write-combining buffer and stack (10) -/

/-- Bytes of a sector with the bytes of an entry laid over them. -/
def overlay (base : Nat) (es : List (Nat × Byte)) (bs : List PByte) (p : Bool) : List PByte :=
  bs.zipIdx.map (fun b =>
    match alookup (base + b.2) es with
    | some v => ⟨v, b.1.p || p⟩
    | none => ⟨b.1.b, b.1.p || p⟩)

/-- The pseudo-channel selector of a stack address (R249). -/
def pseudoChannel (a : Nat) : Nat := Nat.xor (bits a 12 8) (bits a 19 15)

/-- The bank and the row of a stack address (R249). -/
def stackBank (a : Nat) : Nat := Nat.xor (bits a 20 15) (bits a 26 21)

def stackRow (a : Nat) : Nat := bits a 36 21

/-- Sector numbers of a byte range. -/
def sectorsOf (a n : Nat) : List Nat :=
  if n = 0 then [] else (List.range ((a + n - 1) / 64 - a / 64 + 1)).map (a / 64 + ·)

/-- The pseudo-channel of a stack address as channel and pseudo-channel. -/
def channelOf (a : Nat) : Nat × Nat := (pseudoChannel a / 2, pseudoChannel a % 2)

/-- The ERASE fields of a pseudo-channel in the stack lane map: offset of ERASE0 (Table 10.6). -/
def eraseOffset (channel pc : Nat) : Nat := 0x10 + 16 * channel + 4 * pc + 2

/-- Lanes of a pseudo-channel in erasure mode (Table 10.6). -/
def StackS.erased (st : StackS) (a : Nat) : List Nat :=
  let o := eraseOffset (channelOf a).1 (channelOf a).2
  [byteAt st.map o, byteAt st.map (o + 1)].filterMap (fun b => if bit b 7 then some (bits b 5 0) else none)

/-- The bits flipped in the stored code word of a sector. -/
def StackS.errsOf (st : StackS) (sector : Nat) : Pattern := (alookup sector st.errs).getD []

/-- What the decoder finds in a stored sector (R245, R246, R259). A marked sector stays marked under any further error. -/
def StackS.outcome (st : StackS) (sector : Nat) : Decoded :=
  if st.poison.contains sector then .poisoned
  else if st.dead.contains (pseudoChannel (64 * sector)) then .uncorrectable
  else decodeSector (st.erased (64 * sector)) (st.errsOf sector)

/-- The bytes of a stored sector as the decoder returns them (R245 to R247). -/
def StackS.sectorBytes (st : StackS) (sector : Nat) : List PByte :=
  let data := flipData (st.mem.read (64 * sector) 64) (st.errsOf sector)
  match st.outcome sector with
  | .clean => data.map (fun b => ⟨b, false⟩)
  | .corrected p => (flipData data p).map (fun b => ⟨b, false⟩)
  | .poisoned => data.map (fun b => ⟨b, true⟩)
  | .uncorrectable => data.map (fun b => ⟨b, true⟩)

/-- No sector of a byte range is marked, unreadable or in error. -/
def StackS.quiet (st : StackS) (a n : Nat) : Bool :=
  let inside := fun (x : Nat) => decide (a / 64 ≤ x) && decide (x ≤ (a + n) / 64)
  st.dead.isEmpty && !st.poison.any inside && !st.errs.any (fun e => inside e.1)

/-- Reads bytes of a stack through its buffer: every sector is decoded (R245, R246, R260). -/
def StackS.read (st : StackS) (a n : Nat) : List PByte :=
  let raw := if st.quiet a n then (st.mem.read a n).map (fun b => (⟨b, false⟩ : PByte))
    else (((sectorsOf a n).flatMap st.sectorBytes).drop (a % 64)).take n
  let es := st.wcb.filter (fun e => decide (a / 64 ≤ e.sector) && decide (e.sector ≤ (a + n) / 64))
  es.foldl (fun bs e =>
    bs.zipIdx.map (fun b =>
      if (a + b.2) / 64 = e.sector then
        match alookup ((a + b.2) % 64) e.bytes with
        | some v => (⟨v, b.1.p || e.poison⟩ : PByte)
        | none => ⟨b.1.b, b.1.p || e.poison⟩
      else b.1)) raw

/-- Writes whole sectors to a stack: contents and a poison mark for each (R246, R247). -/
def StackS.putSectors (st : StackS) (a : Nat) (bs : List PByte) : StackS :=
  let secs := (chunks 64 bs).zipIdx
  let bad := (secs.filter (fun c => c.1.any (·.p))).map (fun c => a / 64 + c.2)
  let kept := clearRange st.poison (a / 64) (bs.length / 64)
  { st with
    mem := st.mem.write a (bs.map (·.b))
    errs := st.errs.filter (fun e => decide (e.1 < a / 64) || decide (a / 64 + bs.length / 64 ≤ e.1))
    poison := bad.foldl (fun l x => setInsert x l) kept }

/-- A read has corrected a sector (R245; 16, R407): NEAR_CE counts it, and every symbol position that it corrected, erased ones apart,
is noted as 36 times the pseudo-channel plus the lane. -/
def StackS.noteFixed (st : StackS) (sector : Nat) (p : Pattern) : StackS :=
  let live := p.filter (fun e => e.2 != 0 && !(st.erased (64 * sector)).contains e.1)
  { st with ce := satAdd st.ce 1, fixes := st.fixes ++ live.map (fun e => 36 * pseudoChannel (64 * sector) + e.1) }

/-- Counts what a read found in a sector (Table 10.8). -/
def StackS.noteRead (st : StackS) (sector : Nat) (out : Decoded) : StackS :=
  match out with
  | .clean => st
  | .corrected p => st.noteFixed sector p
  | .poisoned | .uncorrectable => { st with ue := satAdd st.ue 1 }

/-- Flushes one partial entry by read-modify-write (R261, R262): the stored sector is decoded, and one found uncorrectable is
written under the poison mark, its record owed. What the read finds counts in NEAR_CE and NEAR_UE (Table 10.8). -/
def StackS.flushPartial (st : StackS) (e : WcbEntry) : StackS :=
  let out := st.outcome e.sector
  let cur := st.sectorBytes e.sector
  let p := cur.any (·.p) || e.poison
  let st' := (st.noteRead e.sector out).putSectors (64 * e.sector) (overlay 0 e.bytes cur p)
  { st' with rmwFlush := satAdd st'.rmwFlush 1
             found := match out with | .uncorrectable => st'.found ++ [e.sector] | _ => st'.found
             wcb := st'.wcb.filter (fun x => x.sector != e.sector) }

/-- A write that covers whole sectors enters the buffer and leaves it as full entries (R260, R261). -/
def StackS.writeFull (st : StackS) (a : Nat) (bs : List PByte) : StackS :=
  let n := bs.length / 64
  let st' := { st with wcb := st.wcb.filter (fun e => decide (e.sector < a / 64) || decide (a / 64 + n ≤ e.sector)) }
  let st'' := st'.putSectors a bs
  { st'' with fullFlush := satAdd st''.fullFlush n }

/-- A write of part of a sector (R260, R261): it merges into the open entry or opens one; a buffer of 512 entries first
flushes its oldest. -/
def StackS.writePart (st : StackS) (a : Nat) (bs : List PByte) : StackS :=
  let sec := a / 64
  let p := bs.any (·.p)
  let new := bs.zipIdx.map (fun b => (a % 64 + b.2, b.1.b))
  match st.wcb.find? (fun e => e.sector == sec) with
  | some e =>
    let merged := new.foldl (fun l b => ainsert b.1 b.2 l) e.bytes
    let e' : WcbEntry := { e with bytes := merged, poison := e.poison || p }
    if merged.length = 64 then
      let st' := { st with wcb := st.wcb.filter (fun x => x.sector != sec) }
      let st'' := st'.putSectors (64 * sec) (merged.map (fun b => (⟨b.2, e'.poison⟩ : PByte)))
      { st'' with fullFlush := satAdd st''.fullFlush 1 }
    else { st with wcb := st.wcb.map (fun x => if x.sector = sec then e' else x) }
  | none =>
    let st1 := match st.wcb with
      | old :: _ => if 512 ≤ st.wcb.length then st.flushPartial old else st
      | [] => st
    { st1 with wcb := st1.wcb ++ [⟨sec, new, p, 0⟩] }

/-- Writes bytes to a stack (R260): the part before the first sector boundary, whole sectors, and the rest. -/
def StackS.write (st : StackS) (a : Nat) (bs : List PByte) : StackS :=
  let head := min bs.length ((64 - a % 64) % 64)
  let st1 := if head = 0 then st else st.writePart a (bs.take head)
  let rest := bs.drop head
  let n := rest.length / 64 * 64
  let st2 := if n = 0 then st1 else st1.writeFull (a + head) (rest.take n)
  let tail := rest.drop n
  if tail.isEmpty then st2 else st2.writePart (a + head + n) tail

/-- Flushes the oldest entries of a buffer, n of them. -/
def StackS.flushOldest : Nat → StackS → StackS
  | 0, st => st
  | n + 1, st =>
    match st.wcb with
    | [] => st
    | e :: _ => StackS.flushOldest n (st.flushPartial e)

/-- Flushes every entry whose sector lies in a byte range (R261, R263). -/
def StackS.flushRange (st : StackS) (a n : Nat) : StackS :=
  (st.wcb.filter (fun e => decide (a / 64 ≤ e.sector) && decide (e.sector < (a + n) / 64))).foldl
    StackS.flushPartial st

/-! ## Where pages lie (10, R250 to R253) -/

/-- SPREAD_BASE (R250). -/
def State.spreadBase (s : State) : Nat := (72 - s.tiers.spreadGib) * 2 ^ 30

/-- The number of placed frames of a stack (R252). -/
def State.frameCount (s : State) (n : Fin 12) : Nat :=
  (72 - s.tiers.spreadGib) * 8192 - (if n.val = 0 then 16384 else 0)

/-- The stack address of a placed frame (R252). -/
def frameBase (n : Fin 12) (f : Nat) : Nat := (if n.val = 0 then 0x80000000 else 0) + f * 131072

/-- The number of spread slots (R253). -/
def State.slotCount (s : State) : Nat := 98304 * s.tiers.spreadGib

/-- The xor fold of R253 over the bit pairs above the lowest. -/
def pairFold : Nat → Nat → Nat
  | 0, _ => 0
  | n + 1, c => Nat.xor (c % 4) (pairFold n (c / 4))

/-- The stack and stack address of byte offset b of a spread slot (R253). -/
def spreadPlace (base slot b : Nat) : Fin 12 × Nat :=
  let c := slot * 512 + b / 256
  let f := pairFold 15 (c / 4)
  let core := Nat.xor (c % 4) f % 4
  let c2 := c / 4
  (ix 12 (3 * core + c2 % 3), base + c2 / 3 * 256 + b % 256)

/-- The pieces of a byte range that lie in whole units of size u: (offset, length) of each. The count is fuel. -/
def pieces (u : Nat) : Nat → Nat → Nat → List (Nat × Nat)
  | 0, _, _ => []
  | fuel + 1, a, n =>
    if n = 0 then [] else
      let k := min n (u - a % u)
      (a, k) :: pieces u fuel (a + k) (n - k)

/-- The stack pieces of a range of a page at a near home: stack, stack address and length of each. -/
def State.nearPieces (s : State) (h : Home) (off n : Nat) : List (Fin 12 × Nat × Nat) :=
  match h with
  | .placed st f => [(st, frameBase st f + off, n)]
  | .spread slot => (pieces 256 (n / 256 + 2) off n).map (fun p =>
      let q := spreadPlace s.spreadBase slot p.1
      (q.1, q.2, p.2))
  | .deep => []

/-! ## Deep tier (11, R276 to R280) -/

/-- The deep directory of a page; a page with no record has every LENGTH 0. -/
def State.deepDirOf (s : State) (p : Nat) : List DeepBlk :=
  (alookup p s.tiers.deepDir).getD (List.replicate 32 ⟨0, 0⟩)

/-- The channel of block j of page p (R277). -/
def deepChannel (p j : Nat) : Nat := (p + j) % 16

/-- The 4,096 bytes of a block, with poison by granule (R278). -/
def State.deepBlock (s : State) (p j : Nat) : List PByte :=
  let blk := ((s.deepDirOf p)[j]?).getD ⟨0, 0⟩
  if blk.length = 0xFF then List.replicate 4096 ⟨0, true⟩
  else
    let base := p * 131072 + j * 4096
    (s.tiers.deepMem.read base 4096).zipIdx.map (fun b =>
      (⟨b.1, s.tiers.deepPoison.contains ((base + b.2) / 256)⟩ : PByte))

/-- The granules in use on a channel as (first, length), rising. -/
def State.granulesUsed (s : State) (ch : Nat) : List (Nat × Nat) :=
  let all := s.tiers.deepDir.foldl (fun l d =>
    (d.2.zipIdx.filter (fun b => decide (b.1.length ≠ 0) && decide (b.1.length ≤ 16) &&
      deepChannel d.1 b.2 == ch)).foldl (fun l b => ainsert b.1.granule b.1.length l) l) []
  all

/-- Granules of a channel's block area (R276). -/
def blockGranules : Nat := 258998272

/-- Free granules of a channel. -/
def State.freeGranules (s : State) (ch : Nat) : Nat :=
  blockGranules - (s.granulesUsed ch).foldl (fun n g => n + g.2) 0

/-- The free runs of a channel: (first, length). -/
def freeRuns : List (Nat × Nat) → Nat → List (Nat × Nat)
  | [], at' => if at' < blockGranules then [(at', blockGranules - at')] else []
  | (g, n) :: r, at' => if at' < g then (at', g - at') :: freeRuns r (g + n) else freeRuns r (g + n)

/-- LENGTH of a block's contents within the bounds of R278. -/
def deepLength (bs : List PByte) : Nat :=
  if bs.any (·.p) then 16
  else if bs.all (fun b => b.b == 0) then 0
  else 1 + Config.blockLength (bs.map (·.b)) % 16

/-- Posts 0x031C when a channel's free granules fall below DEEP_LOW sixty-fourths, and again only after they have risen above the
mark (R281). -/
def State.deepLowCheck (s : State) (ch : Fin 16) (deepLow : Nat) : State :=
  let low := decide (64 * s.freeGranules ch.val < deepLow * blockGranules)
  if low && s.tiers.lowArmed[ch] then
    let s1 := s.modTiers (fun t => { t with lowArmed := t.lowArmed.set ch false })
    (List.finRange 16).foldl (fun s x =>
      if s.tiers.map.any (fun e => e.2.owner == x && e.2.home == Home.deep)
      then s.event x 0x031C (detail [(0, 1, ch.val)]) else s) s1
  else if deepLow * blockGranules < 64 * s.freeGranules ch.val then s.modTiers (fun t => { t with lowArmed := t.lowArmed.set ch true })
  else s

/-- Stores a block's contents with its directory entry. -/
def State.putDeep (s : State) (p j granule length : Nat) (bs : List PByte) : State :=
  let base := p * 131072 + j * 4096
  let bad := ((chunks 256 bs).zipIdx.filter (fun c => c.1.any (·.p))).map (fun c => base / 256 + c.2)
  s.modTiers (fun t => { t with
    deepMem := t.deepMem.write base (bs.map (·.b))
    deepPoison := bad.foldl (fun l x => setInsert x l) (clearRange t.deepPoison (base / 256) 16)
    deepDir := ainsert p ((s.deepDirOf p).set j ⟨granule, length⟩) t.deepDir })

/-- The die of a deep channel. -/
def deepDie (ch : Nat) : Fin 2 := ix 2 (ch / 8)

/-- Checks the low mark of a channel after its granules changed (R281). -/
def State.deepLowOf (s : State) (ch : Nat) : State := s.deepLowCheck (ix 16 ch) s.tiers.deepLow[deepDie ch]

/-- The free runs of a channel that hold len granules. -/
def State.fitRuns (s : State) (ch len : Nat) : List (Nat × Nat) :=
  (freeRuns (s.granulesUsed ch) 0).filter (fun r => decide (len ≤ r.2))

/-- Stores a block in a run of granules of its length, which it chooses freely; none when no run is long enough. -/
def State.placeBlock (s : State) (p j : Nat) (bs : List PByte) : Option State :=
  let len := deepLength bs
  if len = 0 then some ((s.putDeep p j 0 0 bs).deepLowOf (deepChannel p j))
  else
    let runs := s.fitRuns (deepChannel p j) len
    match runs with
    | [] => none
    | r0 :: _ =>
      let (n, s0) := s.occasion
      let (m, s1) := s0.occasion
      let r := (runs[Config.choice n % runs.length]?).getD r0
      some ((s1.putDeep p j (r.1 + Config.choice m % (r.2 - len + 1)) len bs).deepLowOf (deepChannel p j))

/-- Clears the deep record of a page: every LENGTH 0 (R272, R282). -/
def State.clearDeep (s : State) (p : Nat) : State :=
  let s1 := s.modTiers (fun t => { t with
    deepDir := aerase p t.deepDir
    deepMem := t.deepMem.erase (p * 131072) 131072
    deepPoison := clearRange t.deepPoison (p * 512) 512 })
  (List.range 16).foldl (fun s ch => s.deepLowOf ch) s1

/-- Merges a write into a block: a granule that is only partly covered keeps its poison (R418). -/
def mergeBlock (old : List PByte) (off : Nat) (new : List PByte) : List PByte :=
  let m := old.take off ++ new ++ old.drop (off + new.length)
  ((chunks 256 m).zip (chunks 256 old)).zipIdx.map (fun c =>
    let lo := 256 * c.2
    let whole := decide (off ≤ lo) && decide (lo + 256 ≤ off + new.length)
    let p := if whole then c.1.1.any (·.p) else c.1.1.any (·.p) || c.1.2.any (·.p)
    c.1.1.map (fun b => (⟨b.b, p⟩ : PByte))) |>.flatten

/-- Writes part of a block (R279, R280): it is merged and stored, or waits for granules, behind any earlier write of the block that
waits. A lost block, which reads as poisoned whole, stays lost when poison is all that is written to it. -/
def State.writeDeepBlock (s : State) (x : Fin 16) (p j off : Nat) (bs : List PByte) : State :=
  let wait := s.modTiers (fun t => { t with
    deepWaits := t.deepWaits ++ [{ page := p, block := j, off := off, bytes := bs.map (·.b), poison := bs.map (·.p), x := x
                                   since := s.pilot }] })
  if s.tiers.deepWaits.any (fun w => w.page == p && w.block == j) then wait
  else
    let new := mergeBlock (s.deepBlock p j) off bs
    match s.placeBlock p j new with
    | some s1 => s1
    | none => if ((s.deepDirOf p)[j]?).any (fun b => b.length == 0xFF) && new.all (·.p) then s else wait

/-- Writes part of a page that is homed deep. -/
def State.writeDeep (s : State) (x : Fin 16) (p off : Nat) (bs : List PByte) : State :=
  (pieces 4096 (bs.length / 4096 + 2) off bs.length).foldl (fun s q =>
    s.writeDeepBlock x p (q.1 / 4096) (q.1 % 4096) ((bs.drop (q.1 - off)).take q.2)) s

/-- Reads part of a page that is homed deep. -/
def State.readDeep (s : State) (p off n : Nat) : List PByte :=
  ((pieces 4096 (n / 4096 + 2) off n).map (fun q =>
    ((s.deepBlock p (q.1 / 4096)).drop (q.1 % 4096)).take q.2)).flatten

/-! ## The unified range (11, R266 to R283) -/

/-- The home-map entry of a page; none is FREE. -/
def State.homeOf (s : State) (p : Nat) : Option HomeEntry := alookup p s.tiers.map

/-- Reads part of a page at a home. -/
def State.readHome (s : State) (h : Home) (p off n : Nat) : List PByte :=
  match h with
  | .deep => s.readDeep p off n
  | h => ((s.nearPieces h off n).map (fun q => (s.stack q.1).read q.2.1 q.2.2)).flatten

/-- Writes part of a page at a home. -/
def State.writeHome (s : State) (x : Fin 16) (h : Home) (p off : Nat) (bs : List PByte) : State :=
  match h with
  | .deep => s.writeDeep x p off bs
  | h => ((s.nearPieces h off bs.length).foldl (fun (r : State × List PByte) q =>
      (r.1.modStack q.1 (fun st => st.write q.2.1 (r.2.take q.2.2)), r.2.drop q.2.2)) (s, bs)).1

/-- Reads n bytes of the unified range (R268). A FREE page is unreachable under R267; it reads as zero here. -/
def State.uread (s : State) (a n : Nat) : List PByte :=
  ((pieces 131072 (n / 131072 + 2) a n).map (fun q =>
    match s.homeOf (q.1 / 131072) with
    | some e => s.readHome e.home (q.1 / 131072) (q.1 % 131072) q.2
    | none => List.replicate q.2 ⟨0, false⟩)).flatten

/-- Invalidates the cache lines of a written range on all four feed dies (07, R171). -/
def State.invalidate (s : State) (a n : Nat) : State :=
  { s with feeds := s.feeds.map (fun f => { f with
      cache := f.cache.filter (fun l => decide (l.sector < a / 64) || decide ((a + n + 63) / 64 ≤ l.sector)) }) }

/-- True when a page is MOVING (R269). -/
def State.moving (s : State) (p : Nat) : Bool :=
  match s.homeOf p with
  | some e => e.dest.isSome
  | none => false

/-- Writes bytes of the unified range. A write to a page that is MOVING stalls until the switch or the abort (R283). -/
def State.uwrite (s : State) (a : Nat) (bs : List PByte) : State :=
  ((pieces 131072 (bs.length / 131072 + 2) a bs.length).foldl (fun (r : State × List PByte) q =>
    let p := q.1 / 131072
    let now := r.2.take q.2
    let s1 := match r.1.homeOf p with
      | none => r.1
      | some e =>
        match e.dest with
        | some _ => r.1.modTiers (fun t => { t with moves := t.moves.map (fun m =>
            if m.page = p then { m with stalled := m.stalled ++ (chunks 64 now).zipIdx.map (fun c =>
              (q.1 % 131072 + 64 * c.2, c.1.map (·.b), c.1.any (·.p))) } else m) })
        | none => r.1.writeHome e.owner e.home p (q.1 % 131072) now
    (s1, r.2.drop q.2)) (s.invalidate a bs.length, bs)).1

/-! ## Scratchpad (07, R160 to R169, R183) -/

/-- TRANS_BASE of a feed die: the first offset of the transient area (Table 7.1). -/
def FeedS.transBase (f : FeedS) : Nat := 0x0C000000 - (f.t + f.c) * 2 ^ 20

/-- The physical offset of a window offset, and whether it is transient (R164). -/
def State.windowAt (s : State) (x : Fin 16) (c : Fin 4) (w : Nat) : Option (Nat × Bool) :=
  let k := s.cc x c
  let f := s.feed c
  if w < k.resSize then some (k.resBase + w, false)
  else if w < k.resSize + f.t * 2 ^ 20 then some (f.transBase + (w - k.resSize), true)
  else none

/-- Reads bytes of a feed die by physical offset. Transient rows that the current command has not written read as zero
(R169). -/
def FeedS.read (f : FeedS) (o n : Nat) (transient : Bool) : List PByte :=
  (f.spad.read o n).zipIdx.map (fun b =>
    let row := (o + b.2) / 1024
    if transient && alookup row f.tags != some f.gen then (⟨0, false⟩ : PByte)
    else ⟨b.1, f.poison.contains row⟩)

/-- Poison of the rows that a write touches: a row it covers whole takes the write's poison, another row keeps its own
as well (R183). -/
def rowPoison (old : List Nat) (o : Nat) (bs : List PByte) : List Nat :=
  (pieces 1024 (bs.length / 1024 + 2) o bs.length).foldl (fun l q =>
    let row := q.1 / 1024
    let bad := ((bs.drop (q.1 - o)).take q.2).any (·.p)
    if bad then setInsert row l else if q.2 = 1024 then setErase row l else l) old

/-- Writes bytes of a feed die by physical offset. The first write of a command to a transient row clears the row and
tags it (R169). -/
def FeedS.write (f : FeedS) (o : Nat) (bs : List PByte) (transient : Bool) : FeedS :=
  let f1 := if transient then
      (pieces 1024 (bs.length / 1024 + 2) o bs.length).foldl (fun f q =>
        let row := q.1 / 1024
        if alookup row f.tags = some f.gen then f
        else { f with spad := f.spad.erase (1024 * row) 1024, poison := setErase row f.poison
                      tags := ainsert row f.gen f.tags }) f
    else f
  { f1 with spad := f1.spad.write o (bs.map (·.b)), poison := rowPoison f1.poison o bs }

/-- Reads bytes of a context's window; bytes outside it read as zero (R166 lets no command name them). -/
def State.wread (s : State) (x : Fin 16) (c : Fin 4) (w n : Nat) : List PByte :=
  match s.windowAt x c w with
  | some (o, tr) => (s.feed c).read o n tr
  | none => List.replicate n ⟨0, false⟩

/-- Writes bytes of a context's window. -/
def State.wwrite (s : State) (x : Fin 16) (c : Fin 4) (w : Nat) (bs : List PByte) : State :=
  match s.windowAt x c w with
  | some (o, tr) => s.modFeed c (fun f => f.write o bs tr)
  | none => s

/-- Reads from either space of a region. -/
def State.rread (s : State) (x : Fin 16) (space : Nat) (c : Fin 4) (a n : Nat) : List PByte :=
  if space = 0 then s.wread x c a n else s.uread a n

/-- Writes to either space of a region. -/
def State.rwrite (s : State) (x : Fin 16) (space : Nat) (c : Fin 4) (a : Nat) (bs : List PByte) : State :=
  if space = 0 then s.wwrite x c a bs else s.uwrite a bs

/-- Joins runs that follow each other without a gap, so that one write covers the rows they fill together. -/
def coalesce : List (Nat × List PByte) → List (Nat × List PByte)
  | [] => []
  | (a, bs) :: r =>
    match coalesce r with
    | (b, cs) :: r' => if a + bs.length = b then (a, bs ++ cs) :: r' else (a, bs) :: (b, cs) :: r'
    | [] => [(a, bs)]

/-- Writes runs of bytes to a space, joined where they follow each other. -/
def State.rwriteRuns (s : State) (x : Fin 16) (space : Nat) (c : Fin 4) (runs : List (Nat × List PByte)) : State :=
  (coalesce runs).foldl (fun s r => s.rwrite x space c r.1 r.2) s

/-- Poisons every byte of a region that a failed command or span wrote (R341, R406, R418). -/
def State.poisonRegion (s : State) (x : Fin 16) (c : Fin 4) (r : Region) : State :=
  (List.range r.rows).foldl (fun s i =>
    let a := r.base + i * r.pitch
    s.rwrite x r.space c a ((s.rread x r.space c a r.rowBytes).map (fun b => ⟨b.b, true⟩))) s

/-! ## The role record in force (15, Tables 15.2 and 15.3) -/

/-- A field of the role record in force; 0 on a standalone module. -/
def State.role (s : State) (off n : Nat) : Nat := match s.roles.record with | some r => fld r off n | none => 0

/-- The own node number; none on a standalone module (R370). -/
def State.node (s : State) : Option Nat := s.roles.record.map (fun r => fld r 4 4 % 2 ^ 24)

/-- A node lies in the installation (R371). -/
def State.knownNode (s : State) (n : Nat) : Bool := decide (n < s.role 0xC 4)

/-- A job entry (Table 15.3). -/
structure JobEntry where
  job : Nat
  x : Fin 16
  ckptFirst : Nat
  ckptPages : Nat
  mirrorFirst : Nat
  deriving DecidableEq, Repr

def jobEntry (bs : List Byte) : JobEntry :=
  { job := fld bs 0 2, x := ix 16 (bits (byteAt bs 2) 3 0), ckptFirst := fld bs 4 4, ckptPages := fld bs 8 4
    mirrorFirst := fld bs 0xC 4 }

/-- The used job entries of the record in force. -/
def State.jobEntries (s : State) : List JobEntry :=
  match s.roles.record with
  | none => []
  | some r => ((List.range 16).map (fun i => jobEntry ((r.drop (0x40 + 16 * i)).take 16))).filter (fun j => j.job != 0xFFFF)

/-- The job entries that bind contexts: a dedicated manager runs no job context (R369). -/
def State.jobs (s : State) : List JobEntry := if bit (s.role 3 1) 0 then [] else s.jobEntries

/-- The context that a job is bound to: it exists (R373). -/
def State.jobCtx (s : State) (job : Nat) : Option (Fin 16) :=
  (s.jobs.find? (fun j => j.job == job && (s.ctx j.x).state != .none)).map (·.x)

/-- The job entry of a context. -/
def State.jobOf (s : State) (x : Fin 16) : Option JobEntry := s.jobs.find? (fun j => j.x == x)

end Sys2Proof.Machine
end

