-- ==== Sys2Proof/Machine/Flags.lean ====
section
/-! DEFINITION. Scale records, rolls and the census: the flags and counts that quantisation leaves behind
(03, R56 to R67, R77 to R80, R525). -/

namespace Sys2Proof.Machine

open Sys2Proof

/-- A record that no load has written: all zeros (R56). -/
def ScaleRec.zero : ScaleRec :=
  { tCur := 0, tPrev := 0, sCur := 0, amax := 0, tInit := 0, margin := 0, window := 0, format := 0, histCount := 0
    histHead := 0, started := false, eventsEn := false, nfImm := false, held := false, clamped := false, thrZero := 0
    thrSat := 0, thrNf := 0, history := List.replicate 16 0, cenCur := ⟨0, 0, 0, 0⟩, cenClosed := ⟨0, 0, 0, 0⟩
    sClosed := 0, events := 0, stamp := 0 }

def State.scaleRec (s : State) (x : Fin 16) (i : Nat) : ScaleRec := (alookup i (s.ctx x).scales).getD ScaleRec.zero

def State.setScaleRec (s : State) (x : Fin 16) (i : Nat) (r : ScaleRec) : State :=
  s.modCtx x (fun k => { k with scales := ainsert i r k.scales })

/-- The four counts as bytes. -/
def Census.bytes (c : Census) : List Byte :=
  leBytes 8 c.total.toNat ++ leBytes 8 c.zero.toNat ++ leBytes 8 c.sat.toNat ++ leBytes 8 c.nf.toNat

/-- Adds counts, each saturating (R77). -/
def Census.add (c : Census) (t z s n : Nat) : Census :=
  ⟨satAdd c.total t, satAdd c.zero z, satAdd c.sat s, satAdd c.nf n⟩

/-- FLAGS of a record (Table 3.1). -/
def ScaleRec.flags (r : ScaleRec) : Nat :=
  b2n r.started + 2 * b2n r.eventsEn + 4 * b2n r.nfImm + 8 * b2n r.held + 16 * b2n r.clamped

/-- The 256 bytes of a record (Table 3.1). -/
def ScaleRec.encode (r : ScaleRec) : List Byte :=
  leBytes 4 r.tCur.toNat ++ leBytes 4 r.tPrev.toNat ++ leBytes 4 r.sCur.toNat ++ leBytes 4 r.amax.toNat ++
  leBytes 4 r.tInit.toNat ++ leBytes 4 r.margin.toNat ++
  leBytes 1 r.window ++ leBytes 1 r.format ++ leBytes 1 r.histCount ++ leBytes 1 r.histHead ++ leBytes 1 r.flags ++
  zeros 3 ++ leBytes 2 r.thrZero ++ leBytes 2 r.thrSat ++ leBytes 2 r.thrNf ++ zeros 10 ++
  (r.history.map (fun h => leBytes 4 h.toNat)).flatten ++ r.cenCur.bytes ++ r.cenClosed.bytes ++
  leBytes 4 r.sClosed.toNat ++ leBytes 4 r.events.toNat ++ zeros 72

/-- The record that a table load's 256 bytes give: software fields only, history and counts cleared (R57, R58). -/
def ScaleRec.load (bs : List Byte) (stamp : Nat) : ScaleRec :=
  { ScaleRec.zero with
    tInit := BitVec.ofNat 32 (fld bs 0x10 4), margin := BitVec.ofNat 32 (fld bs 0x14 4)
    window := bits (byteAt bs 0x18) 4 0, format := bits (byteAt bs 0x19) 3 0
    eventsEn := bit (byteAt bs 0x1C) 1, nfImm := bit (byteAt bs 0x1C) 2
    thrZero := fld bs 0x20 2, thrSat := fld bs 0x22 2, thrNf := fld bs 0x24 2, stamp := stamp }

/-- Emax × A (R63): 1,536 for S4, 114,688 for S8e, 14,680,064 for S8w, 448 and 57,344 in tensor-scale-only mode. -/
def scaleDivisor (format : Nat) : Nat :=
  match fmtOf format with
  | some .s4 => 1536
  | some .s8eB => 114688
  | some .s8wB => 14680064
  | some .s8eT => 448
  | some .s8wT => 57344
  | _ => 1

/-- The thresholds that the closed counts pass, as bits of FIRED (R79). -/
def ScaleRec.passed (r : ScaleRec) (c : Census) : Nat :=
  let t := fun (thr n : Nat) => decide (thr ≠ 0xFFFF) && decide (thr * c.total.toNat < n * 65536)
  b2n (t r.thrZero c.zero.toNat) + 2 * b2n (t r.thrSat c.sat.toNat) + 4 * b2n (t r.thrNf c.nf.toNat)

/-- A census event (Table 12.11). -/
def censusEvent (record fired : Nat) (step : W32) (c : Census) : Entry :=
  { Entry.blank 4 0x0214 with
    detail := detail [(0, 2, record), (2, 1, fired), (4, 4, step.toNat), (8, 8, c.total.toNat), (16, 8, c.zero.toNat)
                      , (24, 8, c.sat.toNat), (32, 8, c.nf.toNat)] }

/-- Pushes an entry into the history ring (R63). -/
def ScaleRec.push (r : ScaleRec) (v : W32) : ScaleRec :=
  let h := if r.histCount = 0 then 0 else (r.histHead + 1) % 16
  { r with histHead := h, history := r.history.set h v, histCount := min (r.histCount + 1) 16 }

/-- The newest n entries of the history, newest first (R63). -/
def ScaleRec.newest (r : ScaleRec) (n : Nat) : List W32 :=
  (List.range (min r.histCount n)).map (fun j => (r.history[(r.histHead + 16 - j) % 16]?).getD 0)

/-- The next tensor scale (R63): the scale, HELD and CLAMPED. -/
def ScaleRec.nextScale (r : ScaleRec) : W32 × Bool × Bool :=
  if r.window = 0 then (r.tInit, false, false)
  else
    let hs := (r.newest r.window).filter (fun h => fpFinite h && !fpIsZero h && !fpSign h)
    match hs with
    | [] => (r.tCur, true, false)
    | h0 :: hs =>
      let h := hs.foldl fpMax h0
      let t := fpDiv (fpMul r.margin h) (fpOfNat (scaleDivisor r.format))
      if t = fpInf false then (0x7F7FFFFF#32, false, true)
      else if fpIsZero t then (0x00800000#32, false, true)
      else (t, false, false)

/-- A roll to a step (R63): the record, and FIRED when an event is due (R79). -/
def ScaleRec.roll (r : ScaleRec) (step : W32) : ScaleRec × Option Nat :=
  let r1 := r.push r.amax
  let r2 := { r1 with cenClosed := r1.cenCur, sClosed := r1.sCur, cenCur := ⟨0, 0, 0, 0⟩ }
  let (t, held, clamped) := r2.nextScale
  let fired := r2.passed r2.cenClosed + 8 * b2n held + 16 * b2n clamped
  let due := r2.eventsEn && decide (fired ≠ 0)
  ({ r2 with tPrev := r2.tCur, tCur := t, held := held, clamped := clamped, sCur := step, amax := 0
             events := if due then satAdd r2.events 1 else r2.events }, if due then some fired else none)

/-- Rolls a record of a context and posts its census event (ROLL, CENSUS_EVENT). -/
def State.rollRec (s : State) (x : Fin 16) (i : Nat) (step : W32) : State :=
  let (r, fired) := (s.scaleRec x i).roll step
  let s1 := s.setScaleRec x i r
  match fired with
  | none => s1
  | some f => s1.post x (censusEvent i f r.sClosed r.cenClosed)

/-- How a step stands to a started record (R61). -/
inductive StepClass where
  | current | later | previous | stale
  deriving DecidableEq, Repr

def stepClass (r : ScaleRec) (step : W32) : StepClass :=
  let d := dist32 step r.sCur
  if d = 0 then .current else if d ≤ 2 ^ 31 - 1 then .later else if d = 2 ^ 32 - 1 then .previous else .stale

/-- The tensor scale of a quantisation through a record, classified at dispatch (R61 to R64, R525); none when it is
stale. It starts or rolls the record. -/
def State.quantScale (s : State) (x : Fin 16) (i : Nat) (explicit step : W32) : State × Option W32 :=
  if i = 0xFFFF then (s, some explicit)
  else
    let r := s.scaleRec x i
    if !r.started then
      (s.setScaleRec x i { r with sCur := step, tCur := r.tInit, tPrev := r.tInit, amax := 0, started := true }
      , some r.tInit)
    else match stepClass r step with
      | .current => (s, some r.tCur)
      | .later => let s1 := s.rollRec x i step; (s1, some (s1.scaleRec x i).tCur)
      | .previous => (s, some r.tPrev)
      | .stale => (s, none)

/-- The tensor scale of a read through a record (R61, R62, R65); none when the read fails. -/
def State.readScale (s : State) (x : Fin 16) (i : Nat) (explicit step : W32) : Option W32 :=
  if i = 0xFFFF then some explicit
  else
    let r := s.scaleRec x i
    if !r.started then none
    else match stepClass r step with
      | .current => some r.tCur
      | .previous => some r.tPrev
      | _ => none

/-- Adds a contribution to the current step, with the immediate event of R80 when it is due. -/
def ScaleRec.addCurrent (r : ScaleRec) (c : Contribution) : ScaleRec × Bool :=
  let imm := r.nfImm && r.eventsEn && decide (r.cenCur.nf = 0) && decide (c.nf ≠ 0)
  ({ r with amax := match c.amax with | some a => fpMax r.amax a | none => r.amax
            cenCur := r.cenCur.add c.total c.zero c.sat c.nf
            events := if imm then satAdd r.events 1 else r.events }, imm)

/-- Folds a contribution into the previous step (R64): the record, and the thresholds newly passed when an event is
due. -/
def ScaleRec.foldPrevious (r : ScaleRec) (c : Contribution) : ScaleRec × Option Nat :=
  let r1 := if r.histCount = 0 then { r.push 0 with sClosed := r.sCur - 1, cenClosed := ⟨0, 0, 0, 0⟩ } else r
  let before := r1.passed r1.cenClosed
  let cen := r1.cenClosed.add c.total c.zero c.sat c.nf
  let hist := match c.amax with
    | some a => r1.history.set r1.histHead (fpMax ((r1.history[r1.histHead]?).getD 0) a)
    | none => r1.history
  let after := r1.passed cen
  let new := (if bit after 0 && !bit before 0 then 1 else 0) + (if bit after 1 && !bit before 1 then 2 else 0)
    + (if bit after 2 && !bit before 2 then 4 else 0)
  let due := r1.eventsEn && decide (new ≠ 0)
  ({ r1 with cenClosed := cen, history := hist, events := if due then satAdd r1.events 1 else r1.events }
  , if due then some new else none)

/-- Applies a contribution to the current step of its record. -/
def State.contributeNow (s : State) (x : Fin 16) (c : Contribution) : State :=
  let (r, imm) := (s.scaleRec x c.record).addCurrent c
  let s1 := s.setScaleRec x c.record r
  if imm then s1.post x (censusEvent c.record 0x20 r.sCur r.cenCur) else s1

/-- Applies a contribution to its record, classified as it arrives (R525). -/
def State.contribute (s : State) (x : Fin 16) (c : Contribution) : State :=
  let r := s.scaleRec x c.record
  if !r.started || r.stamp != c.stamp then s
  else match stepClass r c.step with
    | .current => s.contributeNow x c
    | .previous =>
      let (r1, fired) := r.foldPrevious c
      let s1 := s.setScaleRec x c.record r1
      match fired with
      | some f => s1.post x (censusEvent c.record f r1.sClosed r1.cenClosed)
      | none => s1
    | .later => (s.rollRec x c.record c.step).contributeNow x c
    | .stale => s

/-- The summary that CENSUS COPY writes for a record (R81); a record that has never closed a step reads as zeros. -/
def ScaleRec.summary (r : ScaleRec) : List Byte :=
  if r.histCount = 0 then zeros 64
  else leBytes 4 r.sClosed.toNat ++ leBytes 4 r.tPrev.toNat ++ leBytes 4 ((r.history[r.histHead]?).getD 0).toNat ++
    leBytes 4 r.flags ++ r.cenClosed.bytes ++ zeros 16

end Sys2Proof.Machine
end

