-- ==== Sys2Proof/Machine/Operands.lean ====
section
/-! DEFINITION. Operand forms: tensor descriptors, regions, reading and storing tensors (05, R114 to R116, R124, R524;
03, R70 to R73). -/

namespace Sys2Proof.Machine

open Sys2Proof

/-- A tensor descriptor (Table 5.1); the pitch is in bytes. -/
structure Tensor where
  base : Nat
  format : Nat
  space : Nat
  rotK : Bool
  rotT : Bool
  streamK : Nat
  streamT : Nat
  tag : Nat
  scaleRec : Nat
  pitch : Nat
  scale : W32
  row0 : Nat
  col0 : Nat
  fullCols : Nat
  deriving DecidableEq, Repr

def Tensor.decode (bs : List Byte) : Tensor :=
  { base := fld bs 0 6, format := bits (byteAt bs 6) 3 0, space := bits (byteAt bs 6) 4 4
    rotK := bit (byteAt bs 7) 0, rotT := bit (byteAt bs 7) 1, streamK := byteAt bs 8, streamT := byteAt bs 9
    tag := byteAt bs 0xA, scaleRec := fld bs 0xC 2, pitch := 16 * fld bs 0xE 2
    scale := BitVec.ofNat 32 (fld bs 0x10 4), row0 := fld bs 0x14 4, col0 := fld bs 0x18 4
    fullCols := fld bs 0x1C 4 }

/-- Reserved bits and bytes of Table 5.1 are zero. -/
def tensorReservedOk (bs : List Byte) : Bool :=
  bits (byteAt bs 6) 7 5 == 0 && bits (byteAt bs 7) 7 2 == 0 && byteAt bs 0xB == 0

/-- The format of a tensor; reserved codes are refused at acceptance (R26). -/
def Tensor.fmt (t : Tensor) : Fmt := (fmtOf t.format).getD .fp32

/-- A length rounded up to the next multiple of 128 (R70). -/
def up128 (n : Nat) : Nat := ceilDiv n 128 * 128

/-- The columns that a row stores: a rotated row includes its pad positions, as far as they lie inside the row's last segment
(R70, R115). -/
def Tensor.storedCols (t : Tensor) (cols : Nat) : Nat :=
  if t.rotK then min (up128 cols) (ceilDiv cols t.fmt.segElems * t.fmt.segElems) else cols

/-- The rows that a region stores: a region rotated along its rows includes its pad rows (R70). -/
def Tensor.storedRows (t : Tensor) (rows : Nat) : Nat := if t.rotT then up128 rows else rows

/-- The bytes of one stored row (R115). -/
def Tensor.rowBytes (t : Tensor) (cols : Nat) : Nat := Machine.rowBytes t.fmt (t.storedCols cols)

/-- The region of a tensor of rows × cols (R524). -/
def Tensor.region (t : Tensor) (core rows cols : Nat) (write : Bool) : Region :=
  { space := t.space, core := core, base := t.base, rows := t.storedRows rows, pitch := t.pitch
    rowBytes := t.rowBytes cols, write := write, scratch := false }

/-- The address of a row. -/
def Tensor.rowAddr (t : Tensor) (r : Nat) : Nat := t.base + r * t.pitch

/-- The last byte of a region plus one. -/
def Region.stop (r : Region) : Nat := if r.rows = 0 then r.base else r.base + (r.rows - 1) * r.pitch + r.rowBytes

/-- Whether the rows of two regions share a byte: row i of one against the rows of the other that can reach it
(R524). -/
def rowsOverlap (a b : Region) : Bool :=
  (List.range a.rows).any (fun i =>
    let lo := a.base + i * a.pitch
    let hi := lo + a.rowBytes
    -- the first row of b that ends above lo
    let j := if b.base + b.rowBytes ≤ lo ∧ 0 < b.pitch then (lo - b.base - b.rowBytes) / b.pitch + 1 else 0
    decide (j < b.rows) && decide (b.base + j * b.pitch < hi) && decide (lo < b.base + j * b.pitch + b.rowBytes))

/-- Two regions overlap (R524). -/
def Region.overlaps (a b : Region) : Bool :=
  if a.space ≠ b.space ∨ (a.space = 0 ∧ a.core ≠ b.core) then false
  else if a.stop ≤ b.base ∨ b.stop ≤ a.base then false
  else rowsOverlap a b

/-- Every byte of a region lies in another (R395, R524). -/
def Region.within (r w : Region) : Bool :=
  if w.space ≠ r.space ∨ (r.space = 0 ∧ w.core ≠ r.core) ∨ r.base < w.base then false
  else if w.rows ≤ 1 ∨ w.pitch ≤ w.rowBytes then decide (r.stop ≤ w.stop)
  else (List.range r.rows).all (fun i =>
    let lo := r.base + i * r.pitch
    let j := (lo - w.base) / w.pitch
    decide (j < w.rows) && decide (lo + r.rowBytes ≤ w.base + j * w.pitch + w.rowBytes))

/-- The units of size u that a region's rows touch, rising. -/
def Region.units (u : Nat) (r : Region) : List Nat :=
  if r.rowBytes = 0 then []
  else if r.pitch = r.rowBytes then
    (List.range ((r.stop - 1) / u + 1 - r.base / u)).map (r.base / u + ·)
  else
    (List.range r.rows).foldl (fun l i =>
      let lo := r.base + i * r.pitch
      (List.range ((lo + r.rowBytes - 1) / u + 1 - lo / u)).foldl (fun l k =>
        if l.getLast? = some (lo / u + k) then l else l ++ [lo / u + k]) l) []

/-- The granules of R315: pages of the unified range, or 64 KiB pieces of a core's window. -/
def Region.granules (r : Region) : List Nat := r.units (if r.space = 0 then 65536 else 131072)

/-- Two regions share a granule, and one of them writes it (R315). -/
def Region.conflicts (a b : Region) : Bool :=
  (a.write || b.write) && (a.space == b.space) && (a.space != 0 || a.core == b.core) &&
    (let gs := b.granules
     a.granules.any (fun g => gs.contains g))

/-- The random values of n elements of row r from column c (R47, R116). -/
def rowDraws (seed : W64) (purpose : Nat) (t : Tensor) (step layer : W32) (r c n : Nat) : List Nat :=
  drawRun ⟨seed, purpose, t.tag, step, layer⟩ ((t.row0 + r) * t.fullCols + t.col0 + c) n

/-- What a command knows of one of its tensors after dispatch: its descriptor and the tensor scale of R525. -/
structure Opnd where
  t : Tensor
  s : W32
  deriving DecidableEq, Repr

/-- Bytes of a stored row of a tensor. -/
def State.rowBytesOf (st : State) (x : Fin 16) (c : Fin 4) (t : Tensor) (cols r : Nat) : List PByte :=
  st.rread x t.space c (t.rowAddr r) (t.rowBytes cols)

/-- Reads a row of cols elements as FP32 values, pad positions of a rotated row included (R37, R43, R70). -/
def State.loadRow (st : State) (x : Fin 16) (c : Fin 4) (o : Opnd) (cols r : Nat) : List PV :=
  decodeRow o.t.fmt o.s (o.t.storedCols cols) (st.rowBytesOf x c o.t cols r)

/-- Reads rows lo to lo + n - 1. -/
def State.loadRows (st : State) (x : Fin 16) (c : Fin 4) (o : Opnd) (cols lo n : Nat) : List (List PV) :=
  (List.range n).map (fun i => st.loadRow x c o cols (lo + i))

/-- Reads a row as exact operands of an array product (R49). -/
def State.exactLoad (st : State) (x : Fin 16) (c : Fin 4) (t : Tensor) (cols r : Nat) : List EV :=
  exactRow t.fmt (t.storedCols cols) (st.rowBytesOf x c t cols r)

/-- The rotation key of a dimension (R69). -/
def rotKeyOf (seed : W64) (step layer : W32) (stream : Nat) : RotKey := ⟨seed, step, layer, stream⟩

/-- Rotates the rows of a matrix along its columns (R68). -/
def rotCols (inv : Bool) (key : RotKey) (col0 : Nat) (rows : List (List PV)) : List (List PV) :=
  rows.map (rotLine inv key col0)

/-- Rotates a matrix along its rows, padding to a multiple of 128 rows (R70, R73). -/
def rotRowsDim (inv : Bool) (key : RotKey) (row0 : Nat) (rows : List (List PV)) : List (List PV) :=
  let c := (rows.head?.getD []).length
  let n := up128 rows.length
  let cols := (transposeRows PV.zero c rows).map (rotLine inv key row0)
  transposeRows PV.zero n cols

/-- What a store of rows leaves: bytes at addresses, and contributions block by block (R78). -/
structure Stored where
  runs : List (Nat × List PByte)
  contribs : List Contrib
  deriving DecidableEq, Repr

/-- How elements are rounded: to nearest even, or stochastically with a purpose code (R44, R48). -/
structure StoreMode where
  seed : W64
  step : W32
  layer : W32
  purpose : Option Nat
  deriving DecidableEq, Repr

/-- Stores values that are already rotated, from row r on at column offset off of the region (R33, R34, R38 to R47). -/
def storeRowAt (o : Opnd) (m : StoreMode) (r off : Nat) (xs : List PV) : Nat × RowOut :=
  let rs := match m.purpose with
    | some p => if o.t.fmt.quantised then rowDraws m.seed p o.t m.step m.layer r off xs.length else []
    | none => []
  (o.t.rowAddr r + off / o.t.fmt.segElems * o.t.fmt.segBytes, encodeRow o.t.fmt o.s rs xs)

/-- Rotates rows along their columns if the tensor is quantised with ROT_K, and stores them (R124). -/
def storeRows (o : Opnd) (m : StoreMode) (off : Nat) (rows : List (Nat × List PV)) : Stored :=
  let outs := rows.map (fun p =>
    let xs := if o.t.fmt.quantised && o.t.rotK
      then rotLine false (rotKeyOf m.seed m.step m.layer o.t.streamK) (o.t.col0 + off) p.2 else p.2
    storeRowAt o m p.1 off xs)
  { runs := outs.map (fun q => (q.1, q.2.bytes)), contribs := (outs.map (fun q => q.2.contribs)).flatten }

/-- True when a stored run carries poison. -/
def runsPoisoned (runs : List (Nat × List PByte)) : Bool := runs.any (fun r => r.2.any (·.p))

/-- A contribution of a command to a record (R60, R77): nothing for index 0xFFFF. -/
def mkContribs (rec : Nat) (step : W32) (stamp : Nat) (cs : List Contrib) : List Contribution :=
  if rec = 0xFFFF then []
  else (cs.filter (fun c => decide (c.counts.total ≠ 0) || c.amax.isSome)).map (fun c =>
    { record := rec, step := step, stamp := stamp, amax := c.amax, total := c.counts.total, zero := c.counts.zero
      sat := c.counts.sat, nf := c.counts.nf })

/-- Counts on the feed die (21, R503), as R77 counts them. -/
def State.dieCensus (s : State) (c : Fin 4) (cs : List Contribution) : State :=
  s.modFeed c (fun f => { f with census := cs.foldl (fun a b => a.add b.total b.zero b.sat b.nf) f.census })

/-- Applies contributions to the records of a context and to the counts of the feed die. -/
def State.applyContribs (s : State) (x : Fin 16) (c : Fin 4) (cs : List Contribution) : State :=
  cs.foldl (fun s b => s.contribute x b) (s.dieCensus c cs)

/-- Applies the contributions of a command on a core, or holds them inside its span (R78). -/
def State.contributeAll (s : State) (x : Fin 16) (c : Fin 4) (cs : List Contribution) : State :=
  match (s.core c).span with
  | some sp =>
    if sp.x = x then s.modCore c (fun k => { k with span := some { sp with
      contribs := sp.contribs ++ cs.map (fun b => (sp.done.length, b)) } })
    else s.applyContribs x c cs
  | none => s.applyContribs x c cs

/-- Stores runs in the space of a tensor. -/
def State.putStored (s : State) (x : Fin 16) (c : Fin 4) (t : Tensor) (d : Stored) : State :=
  s.rwriteRuns x t.space c d.runs

end Sys2Proof.Machine
end

