-- ==== Sys2Proof/Machine/Groups.lean ====
section
/-! DEFINITION. Almanac entries and parameter groups: the fields of Table 9.2 (09, R213, R231 to R235). -/

namespace Sys2Proof.Machine

open Sys2Proof

/-- The 256 bytes of an almanac entry in force. -/
def State.almEntry (s : State) (x : Fin 16) (g : Nat) : Option (List Byte) :=
  match (s.ctx x).almanac with
  | none => none
  | some a => alookup g a.entries

/-- Writes bytes of an entry in force, where it is held and where it lies in the unified range. -/
def State.putAlm (s : State) (x : Fin 16) (g off : Nat) (bs : List Byte) : State :=
  match (s.ctx x).almanac with
  | none => s
  | some a =>
    match alookup g a.entries with
    | none => s
    | some e =>
      (s.modCtx x (fun k => { k with almanac := some { a with entries := ainsert g (putBytes e off bs) a.entries } })
        ).uwrite (a.base + 256 * g + off) (bs.map (fun b => ⟨b, false⟩))

def almVersion (e : List Byte) : Nat := fld e 0x50 4
def almRefs (e : List Byte) : Nat := fld e 0x54 2
def almStatus (e : List Byte) : Nat := fld e 0x58 4
def almPending (e : List Byte) : Bool := bit (almStatus e) 0
def almUpdating (e : List Byte) : Bool := bit (almStatus e) 1
def almSkip (e : List Byte) : Bool := bit (almStatus e) 2
def almFault (e : List Byte) : Bool := bit (almStatus e) 3
def almFrozen (e : List Byte) : Bool := bit (byteAt e 0x2E) 0
def almRule (e : List Byte) : Nat := bits (byteAt e 0x2D) 1 0
def almRows (e : List Byte) : Nat := fld e 0x34 4
def almCols (e : List Byte) : Nat := fld e 0x38 4
def almStateBase (e : List Byte) : Nat := fld e 0x40 8
def almPreBase (e : List Byte) : Nat := fld e 0x48 8

/-- STATUS as four flags. -/
def statusBytes (pending updating skip fault : Bool) : List Byte :=
  leBytes 4 (b2n pending + 2 * b2n updating + 4 * b2n skip + 8 * b2n fault)

/-- Sets or clears one STATUS flag of a group: 0 PENDING, 1 UPDATING, 2 SKIP, 3 FAULT. -/
def State.setStatus (s : State) (x : Fin 16) (g i : Nat) (v : Bool) : State :=
  match s.almEntry x g with
  | none => s
  | some e =>
    let f := fun j => if j = i then v else bit (almStatus e) j
    s.putAlm x g 0x58 (statusBytes (f 0) (f 1) (f 2) (f 3))

/-- GROUP of an UPDATE (at 0x08), ACQUIRE, RELEASE or PRECOND (at 0x04). -/
def groupAt (desc : List Byte) (off : Nat) : Nat := bits (fld desc off 4) 17 0

/-- An ACQUIRE can be decided: its group is neither PENDING nor UPDATING (R231). -/
def State.acquireReady (s : State) (x : Fin 16) (desc : List Byte) : Bool :=
  match s.almEntry x (groupAt desc 4) with
  | none => true
  | some e => !almPending e && !almUpdating e

/-- An UPDATE can be dispatched (R230, R233 to R235). -/
def State.updateReady (s : State) (x : Fin 16) (c : Fin 4) (desc : List Byte) : Bool :=
  if !bit (byteAt desc 1) 0 then true
  else match s.almEntry x (groupAt desc 8) with
    | none => true
    | some e =>
      if almFault e || almFrozen e || almUpdating e then true
      else if almPending e && !(s.cc x c).setPending then false
      else decide (almRefs e = 0)

end Sys2Proof.Machine
end

