-- ==== Sys2Proof/Machine/Plan.lean ====
section
/-! DEFINITION. Layer plans (11, R288 to R291). -/

namespace Sys2Proof.Machine

open Sys2Proof

/-- The pages that a position names. -/
def PlanPos.pages (p : PlanPos) : List Nat :=
  (p.ranges.map (fun r => (List.range r.2).map (r.1 + ·))).flatten

/-- The n positions from i on, in cyclic order. -/
def Plan.from (p : Plan) (i n : Nat) : List PlanPos :=
  (List.range n).filterMap (fun j => p.table[(i + j) % p.table.length]?)

/-- The distinct pages of positions, ascending. -/
def planPages (ps : List PlanPos) : List Nat :=
  (ps.map PlanPos.pages).flatten.foldl (fun l x => setInsert x l) []

/-- The pages of the window at position c: the positions c - 1 to c + N - 2 (R291). -/
def Plan.window (p : Plan) (c : Nat) : List Nat := planPages (p.from (c + p.table.length - 1) p.n)

/-- A page is PINNED. -/
def State.pinned (s : State) (page : Nat) : Bool :=
  match s.homeOf page with
  | some e => e.pinned
  | none => false

/-- A home lies in the near tier. -/
def Home.near : Home → Bool
  | .deep => false
  | _ => true

/-- A page will be near once the moves asked for have run. -/
def State.willBeNear (s : State) (page : Nat) : Bool :=
  match (s.tiers.reqs.filter (fun r => r.page == page)).getLast? with
  | some r => r.kind != 2
  | none => match s.tiers.moves.find? (fun m => m.page == page), s.homeOf page with
    | some m, some _ => m.kind != 2
    | none, some e => e.home.near
    | _, none => false

/-- Asks the drift engine for a move. -/
def State.askMove (s : State) (r : MoveReq) : State := s.modTiers (fun t => { t with reqs := t.reqs ++ [r] })

/-- Asks for a page to come near, to its NEAR_PREF. -/
def State.askNear (s : State) (x : Fin 16) (page : Nat) : State :=
  match s.homeOf page with
  | some e => s.askMove ⟨page, x, e.prefKind, e.prefStack, none, 0⟩
  | none => s

/-- The moves of an advance: down first, then up, each in ascending page order (R291). -/
def State.planMoves (s : State) (x : Fin 16) (old new : List Nat) : State :=
  let down := old.filter (fun p => !new.contains p && !s.pinned p)
  let s1 := down.foldl (fun s p => s.askMove ⟨p, x, 2, 0, none, 0⟩) s
  (new.filter (fun p => !s1.pinned p && !s1.willBeNear p)).foldl (fun s p => s.askNear x p) s1

/-- LAYER of an array or feed command, none where its descriptor has none (R291); the offsets are those of the
descriptor tables. -/
def layerOffset (op : Nat) : Option Nat :=
  match op with
  | 0x10 => some 0x24 | 0x11 => some 0x28 | 0x12 => some 0x2C | 0x20 => some 0x28 | 0x21 => some 0x1C
  | 0x23 => some 0x14
  | _ => none

/-- LAYER_ADVANCE (R291): the dispatch of a command of the next position's layer advances the window. -/
def State.layerAdvance (s : State) (x : Fin 16) (c : Cmd) : State :=
  match (s.ctx x).plan, layerOffset (byteAt c.desc 0) with
  | some p, some off =>
    let next := (p.pos + 1) % p.table.length
    match p.table[next]? with
    | none => s
    | some q =>
      if p.windowMode && q.layer.toNat == fld c.desc off 4 then
        (s.modCtx x (fun k => { k with plan := some { p with pos := next } })).planMoves x (p.window p.pos) (p.window next)
      else s
  | _, _ => s

end Sys2Proof.Machine
end

