-- ==== Sys2Proof/Machine/Sched.lean ====
section
/-! DEFINITION. Queues, eligibility, the scheduler, slot claims, dispatch and completion (13; 07, R175 to R177;
12, R315 to R317; 16, R397, R398). -/

namespace Sys2Proof.Machine

open Sys2Proof

/-- OPCODE of a command. -/
def Cmd.op (c : Cmd) : Nat := byteAt c.desc 0

/-! ## Operands of a command -/

/-- A 16-bit tensor index of a descriptor, resolved; none for 0xFFFF or beyond the tensor area. -/
def Cmd.tensor (c : Cmd) (off : Nat) : Option Tensor :=
  let i := fld c.desc off 2
  if i = 0xFFFF then none else (c.tens[i]?).map Tensor.decode

/-- A tensor that the command requires. -/
def Cmd.tensorD (c : Cmd) (off : Nat) : Tensor := (c.tensor off).getD (Tensor.decode (zeros 32))

/-! ## Slot claims (07, R176, R177) -/

/-- The slot that holds a region of a window wholly. -/
def slotOf (t : SlotTable) (r : Region) : Option Nat :=
  (t.slots.zipIdx.find? (fun p =>
    decide (p.1.offset ≤ r.base) && decide (r.stop ≤ p.1.offset + 1024 * p.1.rows))).map (·.2)

/-- The claims a command makes: one for each token slot that it reads or writes. -/
def State.claimsOf (s : State) (x : Fin 16) (cmd : Cmd) : List Claim :=
  cmd.regions.foldl (fun l r =>
    if r.space ≠ 0 then l
    else
      let die := ix 4 r.core
      let t := (s.cc x die).table
      match slotOf t r with
      | none => l
      | some i =>
        match t.slots[i]? with
        | none => l
        | some sl => if sl.raw || l.contains ⟨die, i, r.write⟩ then l else l ++ [⟨die, i, r.write⟩]) []

/-- A claim can be made now (R176). -/
def State.canClaim (s : State) (x : Fin 16) (c : Claim) : Bool :=
  match (s.cc x c.die).table.slots[c.slot]? with
  | none => false
  | some t =>
    if c.producer then t.state == .empty
    else t.state == .full || (t.state == .draining && decide (t.claims < t.readers))

def State.modTok (s : State) (x : Fin 16) (die : Fin 4) (i : Nat) (f : TokSlot → TokSlot) : State :=
  s.modCC x die (fun k => { k with table := { k.table with
    slots := k.table.slots.zipIdx.map (fun p => if p.2 = i then f p.1 else p.1) } })

/-- Makes a claim (Table 7.5). -/
def State.claim (s : State) (x : Fin 16) (c : Claim) : State :=
  s.modTok x c.die c.slot (fun t =>
    if c.producer then { t with state := .filling }
    else { t with state := .draining, claims := t.claims + 1, since := s.pilot })

/-- Poisons every row of a slot (R177). -/
def State.poisonSlot (s : State) (x : Fin 16) (die : Fin 4) (i : Nat) : State :=
  match (s.cc x die).table.slots[i]? with
  | none => s
  | some t =>
    match s.windowAt x die t.offset with
    | none => s
    | some (o, _) => s.modFeed die (fun f => { f with poison := markRange f.poison (o / 1024) t.rows })

/-- Ends a claim when its command completes or fails (R175, R177). -/
def State.release (s : State) (x : Fin 16) (c : Claim) (failed : Bool) : State :=
  let s1 := s.modTok x c.die c.slot (fun t =>
    if c.producer then { t with state := .full, fills := t.fills + 1, claims := 0, finished := 0, since := s.pilot
                                posted := false }
    else if t.finished + 1 = t.readers then { t with state := .empty, claims := 0, finished := 0 }
    else { t with finished := t.finished + 1 })
  if c.producer && failed then s1.poisonSlot x c.die c.slot else s1

/-! ## Conflicts with packets and spans (12, R315; 16, R397) -/

/-- The region of a FEED or FETCH from its header (R302, R307, R308). -/
def packetRegion (h : List Byte) : Region :=
  let feed := decide (byteAt h 0 = 2)
  let n := if feed then fld h 4 4 else fld h 0x20 4
  { space := bits (byteAt h 0x1E) 0 0, core := bits (byteAt h 0x1E) 2 1, base := fld h 0x18 6, rows := 1, pitch := n
    rowBytes := n, write := feed, scratch := false }

/-- Header bytes of a slot. -/
def MailSlot.header (m : MailSlot) (n : Nat) : List Byte := m.bytes.read 0 n

/-- SEQ of a slot's seal word (R297). -/
def MailSlot.seq (m : MailSlot) : W32 := BitVec.ofNat 32 (leNat (m.bytes.read 0x1FF8 4))

/-- TAKEN in any of its three forms. -/
def SlotState.isTaken : SlotState → Bool
  | .taken => true
  | .held => true
  | .accepted => true
  | _ => false

/-- The packets of a context that are taken and not finished, with their slots. -/
def Ctx.takenSlots (k : Ctx) : List (Fin 8 × MailSlot) :=
  ((List.finRange 8).map (fun i => (i, k.slots[i]))).filter (fun p => p.2.state.isTaken)

/-- a is sequenced before b. -/
def seqBefore (a b : W32) : Bool := let d := dist32 b a; decide (0 < d) && decide (d < 2 ^ 31)

/-- The regions of the unfinished FEED and FETCH packets that are sequenced before a number. -/
def Ctx.openPackets (k : Ctx) (seq : W32) : List Region :=
  (k.takenSlots.filter (fun p =>
    let h := p.2.header 64
    (byteAt h 0 == 2 || byteAt h 0 == 3) && seqBefore p.2.seq seq)).map (fun p => packetRegion (p.2.header 64))

/-- The regions held by the open spans of a context on cores other than one (R397). -/
def State.spanHeld (s : State) (x : Fin 16) (c : Option (Fin 4)) (ev : Bool) : List Region :=
  ((List.finRange 4).map (fun d =>
    match (s.core d).span with
    | some sp => if sp.x = x && !(c == some d && sp.eval == ev) then sp.inputs else []
    | none => [])).flatten

/-- A write of one of the regions would reach a held granule. -/
def hitsHeld (held rs : List Region) : Bool :=
  held.any (fun h => rs.any (fun r => r.write && h.conflicts r))

/-- The scale records that a running UPDATE of a context holds against rolls (R223). -/
def State.heldRecords (s : State) (x : Fin 16) : List Nat :=
  ((List.finRange 4).map (fun c =>
    match (s.core c).running with
    | some r => if r.x = x && r.cmd.op == 0x30 then
        match s.almEntry x (groupAt r.cmd.desc 8) with
        | some e => if almRule e = 1 then [fld e 0x30 2, fld e 0x32 2] else [fld e 0x30 2]
        | none => []
      else []
    | none => [])).flatten

/-- The moment records that an UPDATE would quantise through, with its step (R223). -/
def State.momentQuants (s : State) (x : Fin 16) (cmd : Cmd) : List (Nat × W32) :=
  if cmd.op ≠ 0x30 then []
  else match s.almEntry x (groupAt cmd.desc 8) with
    | none => []
    | some e =>
      let step := BitVec.ofNat 32 (fld cmd.desc 0x14 4)
      (fld e 0x30 2, step) :: (if almRule e = 1 then [(fld e 0x32 2, step)] else [])

/-- The command would roll a record that a running UPDATE holds (R223). -/
def State.rollHeld (s : State) (x : Fin 16) (cmd : Cmd) : Bool :=
  let held := s.heldRecords x
  if cmd.op = 0x66 then
    held.any (fun i => let r := s.scaleRec x i
      bit (byteAt cmd.desc 1) 0 && decide (fld cmd.desc 2 2 ≤ i) && decide (i < fld cmd.desc 2 2 + fld cmd.desc 4 2) &&
        r.started && r.sCur.toNat == fld cmd.desc 8 4)
  else (cmd.quants ++ s.momentQuants x cmd).any (fun q => held.contains q.1 && (let r := s.scaleRec x q.1
    r.started && stepClass r q.2 == .later))

/-! ## Eligibility (13, R328) -/

/-- FENCE WAIT's condition (R332). -/
def State.fenceHolds (s : State) (x : Fin 16) (desc : List Byte) : Bool :=
  let t := (s.ctx x).tokens[ix 256 (byteAt desc 2)]
  decide (dist32 t (BitVec.ofNat 32 (fld desc 4 4)) < 2 ^ 31)

/-- Entries that wait for room in the ring (12, R318): those of the backlog, and of the formed ones all that the ring cannot take
now. -/
def Ctx.waiting (k : Ctx) : Nat :=
  let room := if k.backlog.isEmpty && !k.owedOverflow then k.ringEntries - dist32 k.cqTail k.cqHead else 0
  k.backlog.length + (k.formed.length - room)

/-- The context may dispatch at all (R303, R318, R425). -/
def State.mayDispatch (s : State) (x : Fin 16) : Bool :=
  (s.ctx x).state == .active && !(s.ctx x).dying && decide ((s.ctx x).waiting < 4032) && !s.faults.fatal

/-- Everything but slot states, token, version and release conditions. -/
def State.clearAhead (s : State) (x : Fin 16) (c : Option (Fin 4)) (ev : Bool) (cmd : Cmd) : Bool :=
  s.mayDispatch x
  && !(((s.ctx x).openPackets cmd.seq).any (fun p => cmd.regions.any p.conflicts))
  && !hitsHeld (s.spanHeld x c ev) cmd.regions
  && !s.rollHeld x cmd

/-- The command's own wait is over: FENCE WAIT, ACQUIRE, UPDATE (R328). -/
def State.waitOver (s : State) (x : Fin 16) (c : Option (Fin 4)) (cmd : Cmd) : Bool :=
  if cmd.op = 0x60 && byteAt cmd.desc 1 == 1 then s.fenceHolds x cmd.desc
  else if cmd.op = 0x61 then s.acquireReady x cmd.desc
  else if cmd.op = 0x30 then
    match c with
    | some c => s.updateReady x c cmd.desc
    | none => true
  else true

/-- The claims that a replay keeps from the original (R398, R401). -/
def State.madeClaims (s : State) (x : Fin 16) (c : Option (Fin 4)) : List Claim :=
  match c with
  | none => []
  | some c => match (s.core c).span with
    | some sp => if sp.x = x then sp.made else []
    | none => []

/-- The slot claims of a command can be made (R176). -/
def State.claimsFree (s : State) (x : Fin 16) (c : Option (Fin 4)) (cmd : Cmd) : Bool :=
  (s.claimsOf x cmd).all (fun k => (s.madeClaims x c).contains k || s.canClaim x k)

/-- A head command is eligible (R328). -/
def State.eligible (s : State) (x : Fin 16) (c : Option (Fin 4)) (ev : Bool) (cmd : Cmd) : Bool :=
  s.clearAhead x c ev cmd && s.waitOver x c cmd && s.claimsFree x c cmd

/-- The clock domain of a core. -/
def coreDomain (c : Fin 4) : Fin 11 := ⟨c.val, by omega⟩

/-- The fast domains run: no pause of a source switch, no reset in progress and no fatal state (R425, R465, R470). -/
def State.fastUp (s : State) : Bool :=
  s.clock.pauseFrom.isNone && s.clock.resetting.isNone && !s.clock.resetHeld && !s.faults.fatal

/-- An in-field test claims the command boundaries of a core (R337, R343): it is due with no span open, or it is forced. -/
def State.testClaims (s : State) (c : Fin 4) : Bool :=
  let k := s.core c
  k.ift.due && !k.ift.running && (k.span.isNone || k.ift.forced)

/-- A core that may run commands (R337, R342, R343, R456): in service, no test running or claiming the boundary, no replay due,
and its clock running but for a HINT (R450). -/
def State.coreUp (s : State) (c : Fin 4) : Bool :=
  (s.core c).inService && !(s.core c).ift.running && !s.testClaims c && s.fastUp &&
    (match (s.core c).span with | some sp => !sp.replayDue | none => true)

/-- The core's clock domain runs, or the command is a HINT, which needs no clock (R450, R456). -/
def State.clockFor (s : State) (c : Fin 4) (cmd : Cmd) : Bool :=
  s.power.domains[coreDomain c].st == .running || cmd.op == 0x65

/-- The head of a context's queues on a core: admitted evaluation commands first (R339), and true for that class. -/
def CtxCore.head (k : CtxCore) : Option (Cmd × Bool) :=
  if k.admitted = 0 then k.main.head?.map (fun c => (c, false)) else k.eval.head?.map (fun c => (c, true))

/-- A span keeps other classes of its context out, and its SPAN_CLOSE waits for the decision on captured rows (R399,
R402). -/
def State.spanOpenFor (s : State) (c : Fin 4) (x : Fin 16) (ev : Bool) (cmd : Cmd) : Bool :=
  match (s.core c).span with
  | none => true
  | some sp => sp.x = x && sp.eval == ev && (cmd.op != 0x64 || [0, 1].all (fun b =>
      let a := s.arr (arrayOf c (ix 2 b))
      a.captures.isEmpty && !a.fresh))

/-- A context has an eligible head command on a core. -/
def State.hasHead (s : State) (c : Fin 4) (x : Fin 16) : Bool :=
  match (s.cc x c).head with
  | some (cmd, ev) => s.eligible x (some c) ev cmd && s.clockFor c cmd && s.spanOpenFor c x ev cmd
  | none => false

/-! ## The scheduler (13, R337) -/

/-- One pass over the contexts after the current one: the first with an eligible head whose debt is below its budget.
Others pay a budget of debt and count a skip. -/
def State.schedPass (s : State) (c : Fin 4) : List (Fin 16) → State × Option (Fin 16) × Bool → State × Option (Fin 16) × Bool
  | [], r => r
  | x :: xs, (st, found, skipped) =>
    match found with
    | some _ => (st, found, skipped)
    | none =>
      if !s.hasHead c x then State.schedPass s c xs (st, none, skipped)
      else
        let k := st.cc x c
        if k.budget ≤ k.debt then
          State.schedPass s c xs (st.modCC x c (fun k => { k with debt := k.debt - k.budget, skips := satAdd k.skips 1 })
            , none, true)
        else (st.modCC x c (fun k => { k with remaining := k.budget - k.debt, debt := 0 }), some x, skipped)

/-- Repeats the pass while contexts were skipped and none was found; the count is fuel. -/
def State.schedLoop (c : Fin 4) (order : List (Fin 16)) : Nat → State → State × Option (Fin 16)
  | 0, s => (s, none)
  | n + 1, s =>
    match s.schedPass c order (s, none, false) with
    | (s1, some x, _) => (s1, some x)
    | (s1, none, skipped) => if skipped then State.schedLoop c order n s1 else (s1, none)

/-- The contexts after x in ascending order, wrapping, x last. -/
def contextsAfter (x : Fin 16) : List (Fin 16) := (List.range 16).map (fun i => ix 16 (x.val + 1 + i))

/-- Abandons a look-ahead load: the shadow bank returns to EMPTY, and a tile that a swap has made active counts no more (04,
R103). -/
def ArrayS.dropShadow (t : ArrayS) : ArrayS :=
  { t with ahead := 0, banks := vmod t.banks (ix 2 (t.activeBank.val + 1)) (fun _ => Bank.blank) }

/-- Abandons the look-ahead loads of both arrays of a core (04, R103). -/
def State.dropShadows (s : State) (c : Fin 4) : State :=
  (s.modArr (arrayOf c 0) ArrayS.dropShadow).modArr (arrayOf c 1) ArrayS.dropShadow

/-- The scheduler's pick at a command boundary of a core (R337, R399). A context switch abandons any look-ahead load (R338). -/
def State.schedule (s : State) (c : Fin 4) : State × Option (Fin 16) :=
  let cur := (s.core c).current
  match (s.core c).span with
  | some sp => (s, if s.hasHead c sp.x then some sp.x else none)
  | none =>
    if s.testClaims c then (s, none)
    else if s.hasHead c cur && decide (0 < (s.cc cur c).remaining) then (s, some cur)
    else
      let s1 := s.modCC cur c (fun k => { k with remaining := 0 })
      let order := contextsAfter cur
      let fuel := order.foldl (fun n x => n + (s.cc x c).debt / ((s.cc x c).budget + 1) + 2) 1
      match s1.schedLoop c order fuel with
      | (s2, some x) =>
        let s3 := if x = cur then s2 else s2.dropShadows c
        (s3.modCore c (fun k => { k with current := x }), some x)
      | (s2, none) => (s2, none)

/-! ## Dispatch -/

/-- How a command ends when nothing goes wrong. -/
def Done.ok : Done := { reason := 0, failed := false, poisoned := false, detail := [] }

/-- Takes a head command out of its queue on a core. -/
def State.popHead (s : State) (x : Fin 16) (c : Fin 4) (ev : Bool) : State :=
  s.modCC x c (fun k => if ev then { k with eval := k.eval.tail, admitted := k.admitted - 1, evalWait := 0, evalStarve := 0 }
    else { k with main := k.main.tail, wait := 0, starve := 0 })

/-- The open span that a command of a context and class on a core belongs to. -/
def State.spanFor (s : State) (x : Fin 16) (c : Fin 4) (ev : Bool) : Option Span :=
  match (s.core c).span with
  | some sp => if sp.x = x && sp.eval == ev then some sp else none
  | none => none

/-- Inputs that a command adds to its span: read regions that do not lie wholly within an earlier write of the span
(R395). -/
def spanInputs (writes rs : List Region) : List Region :=
  rs.filter (fun r => !r.write && !writes.any r.within)

/-- A run that starts now. -/
def newRun (s : State) (x : Fin 16) (cmd : Cmd) (claims : List Claim) : Run :=
  { x := x, id := s.hub.nextRun, cmd := cmd, count := 0, out := Done.ok, busy := false, claims := claims, scales := []
    stamps := [], began := s.arrayTime }

/-- A span command joins the commands of its span with the regions it writes, each named once: in a replay those that the original
wrote stand there already. -/
def Span.join (sp : Span) (cmd : Cmd) : Span :=
  { sp with cmds := sp.cmds ++ [cmd]
            writes := sp.writes ++ cmd.regions.filter (fun g => g.write && !sp.writes.contains g) }

/-- The chain positions that a command on a core passes its data through (06, Table 6.2), the branch for TZ after the 10 of the first
branch. -/
def chainOf (cmd : Cmd) : List Nat :=
  let flags := byteAt cmd.desc 1
  let store := fun (off : Nat) => match cmd.tensor off with
    | some t => if t.fmt.quantised then [8, 9, 10] else [10]
    | none => []
  match cmd.op with
  | 0x10 => [1, 4] ++ store 8 ++ (if bit flags 3 then 6 :: store 0xE else [])
  | 0x11 => 1 :: store 0xC ++ store 0xE
  | 0x12 => [1, 4, 7] ++ store 8
  | 0x13 => [1, 4, 7, 10]
  | 0x20 => [1, 4] ++ (if bit (byteAt cmd.desc 2) 0 then [5] else []) ++ (if 9 ≤ flags then [7] else []) ++ store 0xA
  | 0x21 => [1, 6] ++ store 4
  | 0x22 => [1, 6, 10]
  | 0x23 => [1] ++ (if bit flags 2 then [2] else []) ++ 
      (if bit flags 0 || ((cmd.tensor 6).map (·.rotT)).getD false then [3] else []) ++ store 6
  | 0x24 => [1, 10]
  | 0x25 => [1] ++ (if bit flags 0 then [2] else []) ++ [10]
  | _ => []

/-- The stage slots of a command's chain: one for each link between two of its engines (07, R161), the lowest of the ring (DESIGN
CHOICE, log 138). -/
def stageOf (cmd : Cmd) : List (Fin 32) := (List.range ((chainOf cmd).length - 1)).map (ix 32)

/-- Dispatches a command to a core: it leaves its queue, makes its claims, and the command generation advances; the
layer plan may advance (R291). -/
def State.startRun (s : State) (x : Fin 16) (c : Fin 4) (ev : Bool) (cmd : Cmd) : State × Run :=
  let claims := s.claimsOf x cmd
  let run := newRun s x cmd claims
  let made := s.madeClaims x (some c)
  let s1 := (claims.filter (fun k => !made.contains k)).foldl (fun s k => s.claim x k) (s.popHead x c ev)
  let s2 := s1.modFeed c (fun f => { f with gen := f.gen + 1, stage := stageOf cmd })
  let s3 := { s2 with hub := { s2.hub with nextRun := s2.hub.nextRun + 1 } }
  let s4 := s3.modCore c (fun k => { k with
    running := some run, current := x, epi := []
    span := match k.span with
      | some sp => some (if sp.x = x && sp.eval == ev then sp.join cmd else sp)
      | none => none })
  (s4.layerAdvance x cmd, run)

/-- Dispatches the command that the scheduler of a core picks, if it has one of the given operation; none when the core
is busy or the pick is another command. -/
def State.dispatchCore (s : State) (c : Fin 4) (isOp : Cmd → Bool) : Option (State × Run) :=
  if (s.core c).running.isSome || !s.coreUp c then none
  else match s.schedule c with
    | (_, none) => none
    | (s1, some x) =>
      match (s1.cc x c).head with
      | none => none
      | some (cmd, ev) => if isOp cmd then some (s1.startRun x c ev cmd) else none

/-- A new command may leave a fabric or memory queue (R329): work is not stopped, and fewer than 16 are in flight. -/
def State.queueUp (s : State) (runs : List Run) : Bool := s.fastUp && decide (runs.length < 16)

/-- Dispatches the head of a context's fabric queue (R329). -/
def State.dispatchFabric (s : State) (x : Fin 16) (isOp : Cmd → Bool) : Option (State × Run) :=
  match (s.ctx x).fabric with
  | [] => none
  | cmd :: rest =>
    if !isOp cmd || !s.queueUp (s.ctx x).fabricRun || !s.eligible x none false cmd then none
    else
      let claims := s.claimsOf x cmd
      let run := newRun s x cmd claims
      let s1 := claims.foldl (fun s c => s.claim x c)
        (s.modCtx x (fun k => { k with fabric := rest, fabricWait := 0, fabricStarve := 0, fabricRun := k.fabricRun ++ [run] }))
      some ({ s1 with hub := { s1.hub with nextRun := s1.hub.nextRun + 1 } }, run)

/-- Dispatches the head of a context's memory queue (R329). -/
def State.dispatchMemory (s : State) (x : Fin 16) (isOp : Cmd → Bool) : Option (State × Run) :=
  match (s.ctx x).memory with
  | [] => none
  | cmd :: rest =>
    if !isOp cmd || !s.queueUp (s.ctx x).memoryRun || !s.eligible x none false cmd then none
    else
      let claims := s.claimsOf x cmd
      let run := newRun s x cmd claims
      let s1 := claims.foldl (fun s c => s.claim x c)
        (s.modCtx x (fun k => { k with memory := rest, memoryWait := 0, memoryRun := k.memoryRun ++ [run] }))
      some ({ s1 with hub := { s1.hub with nextRun := s1.hub.nextRun + 1 } }, run)

/-- Dispatches from any queue. -/
def State.dispatchQ (s : State) (q : QRef) (isOp : Cmd → Bool) : Option (State × Run) :=
  match q with
  | .core c => s.dispatchCore c isOp
  | .fabric x => s.dispatchFabric x isOp
  | .memory x => s.dispatchMemory x isOp

/-! ## How a running command ends -/

/-- Changes a running command wherever it runs. -/
def State.modRun (s : State) (id : Nat) (f : Run → Run) : State :=
  let g := fun (r : Run) => if r.id = id then f r else r
  { s with
    cores := s.cores.map (fun k => { k with running := k.running.map g })
    hub := { s.hub with ctxs := s.hub.ctxs.map (fun k =>
      { k with fabricRun := k.fabricRun.map g, memoryRun := k.memoryRun.map g }) } }

/-- The core whose window a command's regions lie in. -/
def Cmd.coreIx (c : Cmd) : Fin 4 := ix 4 c.queue

/-- A command fails: its outputs are poisoned and it ends with the reason (R61, R177, R181, R341). -/
def State.failRun (s : State) (r : Run) (reason : Nat) : State :=
  let s1 := (r.cmd.regions.filter (fun g => g.write && !g.scratch)).foldl
    (fun s g => s.poisonRegion r.x (ix 4 g.core) g) s
  s1.modRun r.id (fun r => { r with busy := false, out := { r.out with reason := reason, failed := true, poisoned := true } })

/-- A command fails and has written nothing. -/
def State.failClean (s : State) (r : Run) (reason : Nat) : State :=
  s.modRun r.id (fun r => { r with busy := false, out := { r.out with reason := reason, failed := true } })

/-- A command ends with a status that is not a failure. -/
def State.setStatusOut (s : State) (r : Run) (reason : Nat) : State :=
  s.modRun r.id (fun r => { r with out := { r.out with reason := reason } })

/-- A command wrote poisoned units: status 0x0612 unless it fails under its own rules (R419). -/
def State.notePoison (s : State) (r : Run) (poisoned : Bool) : State :=
  if poisoned then s.modRun r.id (fun r => { r with out := { r.out with
    reason := if r.out.reason = 0 then 0x0612 else r.out.reason, poisoned := true } }) else s

/-- The COMMAND entry of a command (R317). Its packet has left its slot, so it names none (Table 12.10). -/
def commandEntry (c : Cmd) (d : Done) : Entry :=
  { kind := 2, failed := d.failed, poisoned := d.poisoned, reason := d.reason, seq := c.seq, tag := c.tag
    index := c.index, queue := c.queue, slot := 0xFF, detail := d.detail }

/-- Takes a finished command out of its list's account; the last one writes the LIST entry (R317). -/
def State.listDone (s : State) (x : Fin 16) (c : Cmd) : State :=
  match (s.ctx x).lists.find? (fun l => l.seq == c.seq) with
  | none => s
  | some l =>
    if l.left ≤ 1 then
      let s1 := s.modCtx x (fun k => { k with lists := k.lists.filter (fun m => m.seq != c.seq) })
      if l.notify then s1.post x { Entry.blank 3 0 with seq := l.seq, tag := l.tag } else s1
    else s.modCtx x (fun k => { k with lists := k.lists.map (fun m =>
      if m.seq = c.seq then { m with left := m.left - 1 } else m) })

/-- The entry and list account of a command that has completed or failed (R317). -/
def State.report (s : State) (x : Fin 16) (c : Cmd) (d : Done) : State :=
  let s1 := if d.failed || decide (d.reason ≠ 0) || c.notify then s.post x (commandEntry c d) else s
  s1.listDone x c

/-- Charges a slice (R337). -/
def CtxCore.chargeSlice (k : CtxCore) (charge : Nat) : CtxCore :=
  if k.remaining < charge then { k with debt := k.debt + (charge - k.remaining), remaining := 0 }
  else { k with remaining := k.remaining - charge }

/-- The counters of a command that ends (R345): ACTUAL and SOLO count those that complete; EVAL_CYCLES counts the charge of every
evaluation command, to its completion or failure (R337). -/
def CtxCore.countRun (k : CtxCore) (c : Cmd) (failed : Bool) (charge : Nat) : CtxCore :=
  let k1 := if failed then k else { k with actual := satAdd k.actual charge, solo := satAdd k.solo c.est }
  if c.eval then { k1 with evalCycles := satAdd k1.evalCycles charge } else k1

/-- The step boundary with count b admits evaluation commands (R384). -/
def State.evalGate (s : State) (b : Nat) : Bool :=
  match s.roles.record with
  | none => true
  | some r =>
    let every := fld r 0x1A 2
    if bit (byteAt r 3) 1 && decide (every ≠ 0) && s.roles.installReady then (b + s.roles.offset) % every == 0 else true

/-- A step boundary of a context on a core admits the evaluation commands then queued (R339, R384). -/
def State.stepBoundary (s : State) (x : Fin 16) (c : Fin 4) : State :=
  s.modCC x c (fun k => { k with
    boundaries := k.boundaries + 1
    admitted := if s.evalGate (k.boundaries + 1) then k.eval.length else k.admitted })

/-- The step boundary that an emptied main class makes (R339). -/
def State.emptyBoundary (s : State) (x : Fin 16) (c : Fin 4) (ev : Bool) : State :=
  if !ev && (s.cc x c).main.isEmpty then s.stepBoundary x c else s

/-- Pending RWS values of a core's window take effect: PERIOD (Table 16.7; 00, R12, R13). -/
def State.coreRws (s : State) (c : Fin 4) : State :=
  let s1 := s.modCore c (fun k => { k with ift := { k.ift with period := k.ift.periodNext } })
  { s1 with blks := vmod s1.blks (ix 36 (2 + c.val)) (fun b => { b with updatePending := false }) }

/-- Holds the end of a span command until the span closes (R398). A replay falls due at the end of the command in which
the first disagreement or uncorrectable fault arose (R401, R405). -/
def Span.hold (sp : Span) (r : Run) (charge disagreements : Nat) : Span :=
  { sp with done := sp.done ++ [(r.cmd, r.out, charge)]
            claims := sp.claims ++ r.claims.map (fun c => (sp.done.length, c, r.out.failed))
            replayDue := !sp.usedReplay && decide (0 < disagreements + sp.faults) }

/-- Disagreements of the open span on the arrays of a core (R400). -/
def State.disagreements (s : State) (c : Fin 4) : Nat :=
  (s.arr (arrayOf c 0)).spanDisagree + (s.arr (arrayOf c 1)).spanDisagree

/-- The part of an UPDATE with LAST set clears UPDATING when it completes and when it fails (09, R234); a part that fails
with 0x0413 writes nothing. -/
def State.endUpdate (s : State) (r : Run) : State :=
  if r.cmd.op = 0x30 && bit (byteAt r.cmd.desc 1) 1 && r.out.reason != 0x0413
  then s.setStatus r.x (groupAt r.cmd.desc 8) 1 false else s

/-- What the failure of an UPDATE that is still queued on a core leaves on its group: the PENDING that the head has set clears (09, R233),
and a part with LAST of the update in progress clears UPDATING (R234; DEDUCED, log 128). -/
def State.endQueued (s : State) (x : Fin 16) (c : Fin 4) (cmd : Cmd) : State :=
  if cmd.op ≠ 0x30 then s
  else
    let g := groupAt cmd.desc 8
    let s1 := if (s.cc x c).setPending
      then (s.setStatus x g 0 false).modCC x c (fun k => { k with setPending := false }) else s
    match s1.almEntry x g with
    | some e => if bit (byteAt cmd.desc 1) 1 && almUpdating e && fld cmd.desc 0x14 4 == fld e 0x5C 4
        then s1.setStatus x g 1 false else s1
    | none => s1

/-- The arrays of a core issue no row any more (04, R107), and its stage slots are empty (06, R142). -/
def State.stopIssue (s : State) (c : Fin 4) : State :=
  (((s.core c).issuing.foldl (fun s a => s.modArr a (fun t => { t with lastIssue := s.arrayTime })) s).modCore c
    (fun k => { k with issuing := [] })).modFeed c (fun f => { f with stage := [] })

/-- The contents of a work area after its command are not fixed (05, R131; 08, R196): bytes are free, and poisoned only where the
byte was poisoned or `p` says that the command met poison. A transient area is dead with the command (R169) and keeps no bytes. -/
def State.scrambleArea (s : State) (x : Fin 16) (c : Fin 4) (off size : Nat) (p : Bool) : State :=
  if off < (s.cc x c).resSize then
    let (n, s1) := s.occasion
    s1.wwrite x c off ((s1.wread x c off size).zipIdx.map (fun b =>
      ⟨Config.freeByte n b.2, (p || b.1.p) && Config.freePoison n b.2⟩))
  else s

/-- What the completion of an MMB leaves in its work area (08, R196). One that ended at its dispatch has formed nothing there. -/
def State.leaveWork (s : State) (c : Fin 4) (r : Run) : State :=
  if r.cmd.op = 0x11 && r.out.reason != 0x025A && r.out.reason != 0x0211
  then s.scrambleArea r.x c (fld r.cmd.desc 0x2C 4) (fld r.cmd.desc 0x30 4) r.out.poisoned else s

/-- Ends the running command of a core: its slice is charged, its completion is reported or held in its span, and its
rows are gone from the arrays (R330, R337, R398; 04, R95). -/
def State.finishCore (s : State) (c : Fin 4) (charge : Nat) : State :=
  match (s.core c).running with
  | none => s
  | some r =>
    let s1 := ((((s.endUpdate r).leaveWork c r).stopIssue c).modCore c (fun k => { k with running := none, epi := [] })).modCC r.x c (·.chargeSlice charge)
    let s2 := { s1 with arrays := s1.arrays.mapIdx (fun i (a : ArrayS) => if i / 2 = c.val then { a with rows := [] } else a) }
    match s.spanFor r.x c r.cmd.eval with
    | some sp =>
      let s3 := s2.modCore c (fun k => { k with span := some (sp.hold r charge (s2.disagreements c)) })
      if sp.replay then s3.modCC r.x c (fun k => { k with replayCycles := satAdd k.replayCycles charge }) else s3
    | none =>
      let s3 := r.claims.foldl (fun s k => s.release r.x k r.out.failed) s2
      let s4 := s3.modCC r.x c (·.countRun r.cmd r.out.failed charge)
      (s4.report r.x r.cmd r.out).emptyBoundary r.x c r.cmd.eval

/-- Ends a dispatched command of a fabric or memory queue (R329). -/
def State.finishRun (s : State) (r : Run) : State :=
  let s1 := s.modCtx r.x (fun k => { k with fabricRun := k.fabricRun.filter (fun q => q.id != r.id)
                                            memoryRun := k.memoryRun.filter (fun q => q.id != r.id) })
  let s2 := r.claims.foldl (fun s k => s.release r.x k r.out.failed) s1
  s2.report r.x r.cmd r.out

/-- The running command with a number, wherever it runs. -/
def State.findRun (s : State) (id : Nat) : Option Run :=
  let inCores := (s.cores.toList.filterMap (·.running)).find? (fun r => r.id == id)
  match inCores with
  | some r => some r
  | none => ((s.hub.ctxs.toList.map (fun k => k.fabricRun ++ k.memoryRun)).flatten).find? (fun r => r.id == id)

/-- A head command of a core queue fails without being dispatched: it makes no claims (R181, R231, R233, R333). -/
def State.failHeadCore (s : State) (x : Fin 16) (c : Fin 4) (ev : Bool) (cmd : Cmd) (reason : Nat) (poison : Bool) :
    State :=
  let s1 := ((s.endQueued x c cmd).popHead x c ev).dropShadows c
  let s2 := if poison then (cmd.regions.filter (fun g => g.write && !g.scratch)).foldl
    (fun s g => s.poisonRegion x (ix 4 g.core) g) s1 else s1
  let out : Done := { reason := reason, failed := true, poisoned := poison, detail := [] }
  match s2.spanFor x c ev with
  | some sp => s2.modCore c (fun k => { k with span := some { sp with
      cmds := sp.cmds ++ [cmd], done := sp.done ++ [(cmd, out, 0)]
      writes := sp.writes ++ cmd.regions.filter (·.write) } })
  | none => (s2.report x cmd out).emptyBoundary x c ev

/-- A head command of a fabric or memory queue fails without being dispatched. -/
def State.failHeadQueue (s : State) (x : Fin 16) (fabric : Bool) (cmd : Cmd) (reason : Nat) (poison : Bool) : State :=
  let s1 := s.modCtx x (fun k =>
    if fabric then { k with fabric := k.fabric.tail, fabricWait := 0, fabricStarve := 0 }
    else { k with memory := k.memory.tail, memoryWait := 0 })
  let s2 := if poison then (cmd.regions.filter (fun g => g.write && !g.scratch)).foldl
    (fun s g => s.poisonRegion x (ix 4 g.core) g) s1 else s1
  s2.report x cmd { reason := reason, failed := true, poisoned := poison, detail := [] }

/-- Ends a command that completes in the step that dispatches it: it takes no array cycles. -/
def State.finishNow (s : State) (q : QRef) (r : Run) : State :=
  match q with
  | .core c => ((s.finishCore c 0).schedule c).1
  | _ => match s.findRun r.id with
    | some r' => s.finishRun r'
    | none => s

end Sys2Proof.Machine
end

