-- ==== Sys2Proof/Machine/ArrayMath.lean ====
section
/-! DEFINITION. The arithmetic of an array: exact K-tile products, accumulation, witness and magnitude, and the drain
(02, R49 to R51; 04, R88 to R101; 16, R389 to R392). -/

namespace Sys2Proof.Machine

open Sys2Proof

/-- The exact value of a sum of products: NaN, an infinity, or a dyadic number (R49). -/
inductive Exact where
  | nan
  | inf (neg : Bool)
  | fin (d : Dy)
  deriving DecidableEq, Repr

/-- The exact product of two values (R49). -/
def exactMul (a b : FpVal) : Exact :=
  match a, b with
  | .nan, _ => .nan
  | _, .nan => .nan
  | .inf s, .inf t => .inf (s != t)
  | .inf s, .fin t m _ => if m = 0 then .nan else .inf (s != t)
  | .fin s m _, .inf t => if m = 0 then .nan else .inf (s != t)
  | .fin s m e, .fin t n f =>
    .fin ⟨if s = t then ((m * n : Nat) : Int) else -((m * n : Nat) : Int), e + f⟩

/-- The sum of exact terms (R49). -/
def exactAdd (a b : Exact) : Exact :=
  match a, b with
  | .nan, _ => .nan
  | _, .nan => .nan
  | .inf s, .inf t => if s = t then .inf s else .nan
  | .inf s, .fin _ => .inf s
  | .fin _, .inf t => .inf t
  | .fin x, .fin y => if x.m = 0 then .fin y else if y.m = 0 then .fin x else .fin (Dy.add x y)

/-- V of R49: the exact sum of the products of a row segment and a weight column. -/
def exactDot (xs ws : List FpVal) : Exact := (xs.zipWith exactMul ws).foldl exactAdd (.fin Dy.zero)

/-- FP32(a + V) with one rounding (R49). An exact sum of zero gives +0. -/
def accumulate (a : W32) (v : Exact) : W32 :=
  match fpVal a, v with
  | .nan, _ => fpNaN
  | _, .nan => fpNaN
  | .inf s, .inf t => if s = t then fpInf s else fpNaN
  | .inf s, .fin _ => fpInf s
  | .fin _ _ _, .inf t => fpInf t
  | .fin _ _ _, .fin d => fpOfDy (Dy.add (fpDy a) d)

/-- A lane's accumulator over the K-tiles of an accumulation, in order, from +0 (R50, R95). -/
def laneSum (depth : Nat) (xs ws : List FpVal) : W32 :=
  ((chunks depth xs).zip (chunks depth ws)).foldl (fun a p => accumulate a (exactDot p.1 p.2)) 0

/-- The magnitude of an exact element. -/
def FpVal.mag : FpVal → FpVal
  | .nan => .nan
  | .inf _ => .inf false
  | .fin _ m e => .fin false m e

/-- The witness column of a tile: for each position, the FP32 sum over the loaded columns, in column order (R88). -/
def witnessColumn (depth : Nat) (cols : List (List FpVal)) : List W32 :=
  cols.foldl (fun acc c => acc.zipWith (fun a v => fpAdd a (fpOfVal v)) c) (List.replicate depth 0#32)

/-- The magnitude column of a tile (R389). -/
def magnitudeColumn (depth : Nat) (cols : List (List FpVal)) : List W32 := witnessColumn depth (cols.map (·.map FpVal.mag))

/-- A tile of a weight matrix: element positions k0 to k0 + depth - 1 of each column. -/
def tileOf (depth j : Nat) (ws : List (List FpVal)) : List (List FpVal) :=
  ws.map (fun w => (w.drop (j * depth)).take depth)

/-- The witness and magnitude columns of every K-tile of a product's columns. -/
def witnessTiles (depth k : Nat) (ws : List (List FpVal)) : List (List W32 × List W32) :=
  (List.range k).map (fun j =>
    let t := tileOf depth j ws
    let d := ((t.head?).getD []).length
    (witnessColumn d t, magnitudeColumn d t))

/-- Witness row and magnitude row of one activation row (R100, R389). -/
def witnessRow (depth : Nat) (xs : List FpVal) (tiles : List (List W32 × List W32)) : W32 × W32 :=
  ((chunks depth xs).zip tiles).foldl (fun a p =>
    (accumulate a.1 (exactDot p.1 (p.2.1.map fpVal)),
     accumulate a.2 (exactDot (p.1.map FpVal.mag) (p.2.2.map fpVal)))) (0#32, 0#32)

/-- ceil(log2 W). -/
def ceilLog2 (w : Nat) : Nat := log2up w

/-- The outcome of the witness check of a drained row (R390, R392). -/
inductive Check where
  | pass | disagree | notChecked | skipped
  deriving DecidableEq, Repr

/-- The check of R390 on the exact values: |S - w| ≤ τ × M with τ = (2k + W + ceil(log2 W) + 4) × 2^-24. -/
def witnessHolds (k width : Nat) (s w m : W32) : Bool :=
  Dy.le (Dy.abs (Dy.add (fpDy s) (Dy.neg (fpDy w))))
    (Dy.mul ⟨((2 * k + width + ceilLog2 width + 4 : Nat) : Int), -24⟩ (fpDy m))

/-- The witness check of a drained row (R390, R392). -/
def checkRow (r : AccRow) : Check :=
  if r.poison then .notChecked
  else if !fpFinite r.w || !fpFinite r.mag then .skipped
  else
    let s := fpSum r.lanes
    if !fpFinite s then .disagree
    else if witnessHolds r.k r.lanes.length s r.w r.mag then .pass else .disagree

/-- The lane depth of an operand pair, rows then weights (Table 2.2); none for a pair the array does not take. -/
def laneDepth (rows weights : Fmt) : Option Nat :=
  match rows, weights with
  | .s4, .s4 => some 512
  | .bf16, .bf16 => some 128
  | r, w => if r.isS8 && (w.isS8 || w == .s4) then some 256 else none

/-- The scale factor of the drain (R51): none when a tensor scale is not valid. -/
def drainScale (rows weights : Opnd) : Option W32 :=
  if rows.t.fmt == .bf16 then some fpOne
  else if validScale rows.s && validScale weights.s then some (fpMul rows.s weights.s) else none

/-- A drained value (R51). -/
def drainValue (scale : Option W32) (a : W32) : W32 :=
  match scale with
  | some s => fpMul a s
  | none => fpNaN

/-- The accumulator rows of one accumulation on one array: rows of X against the columns of one tile set. -/
def accRows (depth side acc : Nat) (xs : List (Nat × List EV)) (ws : List (List EV)) : List AccRow :=
  let wv := ws.map (·.map (·.v))
  let wp := ws.any (·.any (·.p))
  let k := ceilDiv (((ws.head?).getD []).length) depth
  let tiles := witnessTiles depth k wv
  let gtiles := (chunks 32 wv).map (witnessTiles depth k)
  xs.map (fun x =>
    let xv := x.2.map (·.v)
    let (w, m) := witnessRow depth xv tiles
    { side := side, acc := acc, row := x.1, k := k, lanes := wv.map (laneSum depth xv), poison := wp || x.2.any (·.p), w := w
      mag := m, groups := gtiles.map (witnessRow depth xv) })

/-- Applies an upset to a row: a fault of the environment, as bits flipped in a lane's result (R400); lane 4,096 is the
witness row. -/
def upsetLanes (r : AccRow) (ups : List (Nat × W32)) : AccRow :=
  { r with
    lanes := r.lanes.zipIdx.map (fun l => match alookup l.2 ups with | some m => l.1 ^^^ m | none => l.1)
    w := match alookup 4096 ups with | some m => r.w ^^^ m | none => r.w }

/-- A parity mismatch in a word loaded into a bank poisons every row of the accumulation that uses the tile (R99, R388): the rows
that wait in the array when its active tile is the running command's, and otherwise those of the command whose tile is loaded
ahead (ArrayS.aheadPoison). -/
def ArrayS.poisonBank (t : ArrayS) (b : Fin 2) : ArrayS :=
  { t with
    banks := vmod t.banks b (fun k => { k with poison := true })
    rows := if b = t.activeBank && t.ahead == 0 then t.rows.map (fun r => { r with poison := true }) else t.rows }

/-- One of the first `loads` tiles that an array has loaded ahead for the command now dispatched is poisoned (R99, R103). -/
def ArrayS.aheadPoison (t : ArrayS) (loads : Nat) : Bool :=
  let shadow := t.banks[ix 2 (t.activeBank.val + 1)]
  (t.ahead == 1 && t.banks[t.activeBank].poison) || (decide (t.ahead < loads) && shadow.state != .empty && shadow.poison)

/-- What an accumulation of `loads` tiles leaves on an array: its rows in the set, its last tile in the active bank. A tile loaded
ahead for a later accumulation stays in the shadow bank, which is EMPTY otherwise (R86, R89, R95). -/
def ArrayS.endAcc (t : ArrayS) (set : Fin 2) (rows : List AccRow) (loads : Nat) (b : Bank) : ArrayS :=
  let t1 := { t with sets := vmod t.sets set (fun _ => rows), ahead := 0 }
  if loads ≤ t.ahead then { t1 with banks := vmod t.banks t.activeBank (fun _ => b) }
  else
    let act := ix 2 (t.activeBank.val + (loads - t.ahead))
    { t1 with activeBank := act, banks := vmod (vmod t.banks act (fun _ => b)) (ix 2 (act.val + 1)) (fun _ => Bank.blank) }

/-- A row in the accumulator sets takes the value that the drain reads. -/
def ArrayS.putRow (t : ArrayS) (r : AccRow) : ArrayS :=
  { t with sets := t.sets.map (·.map (fun q => if q.acc = r.acc && q.side == r.side && q.row == r.row then r else q)) }

/-- A parity mismatch in the row stream poisons the rows that the word reaches, by their place among those that wait (R388). -/
def ArrayS.poisonRows (t : ArrayS) (rows : List Nat) : ArrayS :=
  let hit := t.rows.zipIdx.map (fun r => if rows.contains r.2 then { r.1 with poison := true } else r.1)
  hit.foldl ArrayS.putRow { t with rows := hit }

/-- Counts the check of a drained row (Table 16.8). -/
def ArrayS.countCheck (t : ArrayS) (ch : Check) : ArrayS :=
  match ch with
  | .pass => { t with checks := satAdd t.checks 1 }
  | .disagree => { t with checks := satAdd t.checks 1 }
  | .skipped => { t with skip := satAdd t.skip 1 }
  | .notChecked => t

/-- A disagreement of an original run: counted, and captured while the buffer of four has room (R400). -/
def ArrayS.capture (t : ArrayS) (p : RowPlace) (r : AccRow) : ArrayS :=
  let t1 := { t with disagree := satAdd t.disagree 1, spanDisagree := t.spanDisagree + 1 }
  if t.captures.length < 4 then { t1 with captures := t.captures ++
    [{ place := p, k := r.k, lanes := r.lanes, w := r.w, mag := r.mag, groups := r.groups, replayed := none }] }
  else { t1 with missed := t.missed ++ [p] }

/-- A row of a replay (R402): it fills its capture; a disagreement where the original passed is new. -/
def ArrayS.replayRow (t : ArrayS) (p : RowPlace) (r : AccRow) (failed : Bool) : ArrayS :=
  if t.captures.any (fun c => c.place = p) then
    { t with captures := t.captures.map (fun c =>
        if c.place = p then { c with replayed := some (r.lanes, !failed) } else c) }
  else if failed && !t.missed.contains p then { t with fresh := true }
  else t

/-- The check of a drained row on its array, in an original run or a replay (R390, R400, R402). -/
def State.noteRow (s : State) (a : Fin 8) (cmd : Nat) (r : AccRow) (replay : Bool) : State :=
  let ch := checkRow r
  let p : RowPlace := ⟨cmd, r.acc, r.side, r.row⟩
  s.modArr a (fun t =>
    let t1 := t.countCheck ch
    if replay then t1.replayRow p r (decide (ch = .disagree))
    else if ch = .disagree then t1.capture p r else t1)

end Sys2Proof.Machine
end

