-- ==== Sys2Proof/Machine/Sha.lean ====
section
/-! DEFINITION. SHA-512 and RSASSA-PSS verification (20, R476). PRESUMED: the algorithms are those of FIPS 180-4 and
RFC 8017, which the manual names and does not repeat (log 13). -/

namespace Sys2Proof.Machine

open Sys2Proof

/-! ## SHA-512 -/

/-- The integer root of n by bisection from the bits of an upper bound: the largest r with r ^ k ≤ n. -/
def rootGo (k n : Nat) : Nat → Nat → Nat
  | 0, r => r
  | b + 1, r => rootGo k n b (if (r + 2 ^ b) ^ k ≤ n then r + 2 ^ b else r)

/-- A number has no divisor from 2 to its half. -/
def isPrime (n : Nat) : Bool := decide (2 ≤ n) && ((List.range (n / 2 + 1)).drop 2).all (fun d => n % d != 0)

/-- The first 80 primes. -/
def shaPrimes : List Nat := ((List.range 410).filter isPrime).take 80

/-- The 80 round constants: the first 64 bits of the fractions of the cube roots of the primes. -/
def shaK : List W64 := shaPrimes.map (fun p => BitVec.ofNat 64 (rootGo 3 (p * 2 ^ 192) 68 0))

/-- The eight initial words: the first 64 bits of the fractions of the square roots of the first eight primes. -/
def shaInit : List W64 := (shaPrimes.take 8).map (fun p => BitVec.ofNat 64 (rootGo 2 (p * 2 ^ 128) 68 0))

/-- The big-endian bytes of a number. -/
def beBytes (n x : Nat) : List Byte := (leBytes n x).reverse

/-- The number that big-endian bytes spell. -/
def beNat (bs : List Byte) : Nat := leNat bs.reverse

def ror (x : W64) (n : Nat) : W64 := x.rotateRight n

/-- Extends the message schedule by one word; the newest word comes first. -/
def shaExtend : Nat → List W64 → List W64
  | 0, w => w
  | n + 1, w =>
    let at' := fun i => (w[i]?).getD 0
    let s0 := ror (at' 14) 1 ^^^ ror (at' 14) 8 ^^^ (at' 14 >>> 7)
    let s1 := ror (at' 1) 19 ^^^ ror (at' 1) 61 ^^^ (at' 1 >>> 6)
    shaExtend n ((at' 15 + s0 + at' 6 + s1) :: w)

/-- One round on the eight working words. -/
def shaRound (v : List W64) (kw : W64 × W64) : List W64 :=
  match v with
  | [a, b, c, d, e, f, g, h] =>
    let t1 := h + (ror e 14 ^^^ ror e 18 ^^^ ror e 41) + ((e &&& f) ^^^ ((~~~e) &&& g)) + kw.1 + kw.2
    let t2 := (ror a 28 ^^^ ror a 34 ^^^ ror a 39) + ((a &&& b) ^^^ (a &&& c) ^^^ (b &&& c))
    [t1 + t2, a, b, c, d + t1, e, f, g]
  | v => v

/-- Compresses one block of 128 bytes. -/
def shaBlock (h : List W64) (block : List Byte) : List W64 :=
  let w0 := ((chunks 8 block).map (fun c => BitVec.ofNat 64 (beNat c))).reverse
  let w := (shaExtend 64 w0).reverse
  h.zipWith (· + ·) ((shaK.zip w).foldl shaRound h)

/-- SHA-512. -/
def sha512 (m : List Byte) : List Byte :=
  let pad := (111 + 128 - m.length % 128) % 128
  let p := m ++ 0x80#8 :: zeros pad ++ beBytes 16 (8 * m.length)
  (((chunks 128 p).foldl shaBlock shaInit).map (fun w => beBytes 8 w.toNat)).flatten

/-! ## RSASSA-PSS -/

/-- m ^ e mod n by squaring; the count is fuel. -/
def powMod (n : Nat) : Nat → Nat → Nat → Nat
  | 0, _, _ => 1 % n
  | fuel + 1, m, e =>
    if e = 0 then 1 % n
    else
      let h := powMod n fuel (m * m % n) (e / 2)
      if e % 2 = 1 then h * m % n else h

/-- MGF1 with SHA-512. -/
def mgf1 (seed : List Byte) (n : Nat) : List Byte :=
  (((List.range (ceilDiv n 64)).map (fun i => sha512 (seed ++ beBytes 4 i))).flatten).take n

/-- RSASSA-PSS verification with SHA-512, a salt of 64 bytes, a modulus of 4,096 bits and exponent 65,537 (R476). -/
def pssVerify (modulus : Nat) (m sig : List Byte) : Bool :=
  let s := beNat sig
  if sig.length ≠ 512 ∨ modulus < 2 ^ 4095 ∨ 2 ^ 4096 ≤ modulus ∨ modulus ≤ s then false
  else
    let em := beBytes 512 (powMod modulus 20 s 65537)
    let masked := em.take 447
    let h := (em.drop 447).take 64
    let db := (masked.zipWith (· ^^^ ·) (mgf1 h 447))
    let db' := putBytes db 0 [BitVec.ofNat 8 (byteAt db 0 % 128)]
    byteAt em 511 == 0xBC && decide (byteAt em 0 < 128) && (db'.take 382).all (· == 0) && byteAt db' 382 == 1 &&
      h == sha512 (zeros 8 ++ sha512 m ++ db'.drop 383)

/-- KEY_ID of a key: the SHA-512 of its public modulus, big-endian (Table 20.3). -/
def keyId (modulus : Nat) : List Byte := sha512 (beBytes 512 modulus)

end Sys2Proof.Machine
end

