-- ==== Sys2Proof/Machine/History.lean ====
section
/-! DEFINITION. Fault history, repairs that fall due, killing a context, the fatal state and the module store's queue
(16, R403, R407 to R410; 17, R425, R431 to R433, R438; 04, R83, R84; 10, R256, R259). -/

namespace Sys2Proof.Machine

open Sys2Proof

/-! ## Module store queue (17, R438) -/

/-- DEVICE_ID (20, R477). -/
def State.deviceId (s : State) : List Byte := keyId s.sec.identityKey

/-- Pages of a record of n bytes. -/
def recordPages (n : Nat) : Nat := max 1 (ceilDiv n (1792 + Config.nandSlack))

/-- Queues a record for the module store. -/
def State.queueRec (s : State) (kind : Nat) (bytes : List Byte) (packet : Option (Fin 16 × Fin 8 × W32)) : State :=
  s.modFaults (fun t => { t with storeQueue := t.storeQueue ++
    [{ kind := kind, pages := recordPages bytes.length, bytes := bytes, packet := packet }] })

/-- The highest GEN of a kind that is stored or queued (20, R480). -/
def State.genOf (s : State) (kind : Nat) : Nat :=
  (s.faults.storeBatch ++ s.faults.storeQueue).foldl
    (fun g r => if r.kind = kind then max g (fld r.bytes 0x14 4) else g) ((alookup kind s.sec.gens).getD 0)

/-- Signs a changed map with the identity key, GEN raised by one, and queues it (20, R477, R480). -/
def State.queueMap (s : State) (kind : Nat) (body : List Byte) : State :=
  let header := leBytes 4 0x43524B53 ++ [BitVec.ofNat 8 kind, 2#8] ++ leBytes 2 1 ++ leBytes 4 body.length ++ leBytes 4 0
    ++ leBytes 2 0x00A1 ++ zeros 2 ++ leBytes 4 (s.genOf kind + 1) ++ s.deviceId.take 32 ++ zeros 8
  s.queueRec kind (header ++ body ++ s.deviceId ++ fitTo 512 (Config.identitySign (header ++ body))) none

/-- The body of the lane repair map: the working copies of the eight arrays (Table 20.4). -/
def State.laneMapBody (s : State) : List Byte := (s.arrays.toList.map (·.map)).flatten

/-- The body of the stack lane map. -/
def State.stackMapBody (s : State) : List Byte := (s.hbm.toList.map (·.map)).flatten

/-! ## Units of the history (Table 16.6) -/

/-- UNIT of a lane site. -/
def siteUnit (a site : Nat) : Nat := a * 65536 + site

/-- UNIT of a stack lane. -/
def stackLaneUnit (stack channel pc lane : Nat) : Nat := stack * 2 ^ 24 + channel * 2 ^ 16 + pc * 256 + lane

/-- UNIT of a link lane. -/
def linkLaneUnit (die lane : Nat) : Nat := die * 256 + lane

/-- The site on which a logical lane runs (R83). -/
def siteOfLane (map : List Byte) (lane : Nat) : Nat :=
  let e := byteAt map (0x10 + lane / 32)
  if bit e 7 && bits e 4 0 == lane % 32 then 33 * (lane / 32) + 32 else 33 * (lane / 32) + lane % 32

/-- An entry as its 32 bytes (Table 16.6). -/
def HistEntry.encode (e : HistEntry) : List Byte :=
  [BitVec.ofNat 8 e.kind, BitVec.ofNat 8 (b2n e.permanent + 2 * b2n e.suspect)] ++ zeros 2 ++ leBytes 4 e.unit ++
    leBytes 4 e.count.toNat ++ (List.range 3).flatMap (fun i => leBytes 4 ((e.times[i]?).getD 0)) ++ leBytes 4 e.since
    ++ zeros 4

/-- A changed entry goes to the module store in the next batch: it joins the history record that ends the queue, or
begins one (R410). -/
def State.storeHist (s : State) (e : HistEntry) : State :=
  match s.faults.storeQueue.getLast? with
  | some r =>
    if r.kind = 0x20 then s.modFaults (fun t => { t with storeQueue := t.storeQueue.dropLast ++
      [{ r with bytes := r.bytes ++ e.encode, pages := recordPages (r.bytes.length + 32) }] })
    else s.queueRec 0x20 e.encode none
  | none => s.queueRec 0x20 e.encode none

/-- Replaces or appends the entry of a unit. -/
def putHist (e : HistEntry) : List HistEntry → List HistEntry
  | [] => [e]
  | f :: r => if f.kind = e.kind && f.unit == e.unit then e :: r else f :: putHist e r

/-- The entry a full history gives up: neither permanent nor suspect, newest transient oldest (R410). -/
def histVictim (l : List HistEntry) : Option HistEntry :=
  (l.filter (fun e => !e.permanent && !e.suspect)).foldl (fun v e =>
    match v with
    | none => some e
    | some w => if (e.times.head?).getD 0 < (w.times.head?).getD 0 then some e else some w) none

/-- Writes an entry; a full history replaces one or drops it (R410). The flag says that the entry is held. -/
def State.writeHist (s : State) (e : HistEntry) : State × Bool :=
  let l := s.faults.history
  if l.any (fun f => f.kind = e.kind && f.unit == e.unit) || decide (l.length < 65536) then
    ((s.modFaults (fun t => { t with history := putHist e l })).storeHist e, true)
  else match histVictim l with
    | some v => ((s.modFaults (fun t => { t with
        history := (l.filter (fun f => !(f.kind = v.kind && f.unit == v.unit))) ++ [e] })).storeHist e, true)
    | none => (s.modFaults (fun t => { t with histFull := satAdd t.histFull 1 }), false)

/-- The entry of a unit, empty when it has none. -/
def State.histOf (s : State) (kind unit : Nat) : HistEntry :=
  (s.faults.history.find? (fun f => f.kind = kind && f.unit == unit)).getD
    { kind := kind, unit := unit, permanent := false, suspect := false, count := 0, times := [], since := 0 }

/-! ## What a permanent mark causes (Table 16.5) -/

/-- An event of chapter 16 on the ring of context 0, with its unit (R415). -/
def State.unitEvent (s : State) (reason unit : Nat) : State := s.event 0 reason (detail [(0, 4, unit)])

/-- An array is to be degraded at the next command boundary of its core (R111, R409). -/
def State.oweDegrade (s : State) (a : Fin 8) : State :=
  if (s.arr a).degraded then s
  else s.modCore (coreOfArray a) (fun k => { k with degrades := if k.degrades.contains a then k.degrades else k.degrades ++ [a] })

/-- A core is quarantined: it leaves service until module reset, and its arrays are tested at once (Table 16.4). -/
def State.quarantine (s : State) (c : Fin 4) : State :=
  (s.modCore c (fun k => { k with quarantined := true, leaving := true, ift := { k.ift with due := true } })).unitEvent
    0x060C c.val

/-- A permanent fault on a lane site (R110, R111). -/
def State.permanentSite (s : State) (a : Fin 8) (site : Nat) : State :=
  let g := site / 33
  let e := byteAt (s.arr a).map (0x10 + g)
  let bad := bit e 7 || bit e 6
  if site % 33 = 32 && !bit e 7 then
    if bit e 6 then s
    else
      let s1 := s.modArr a (fun t => { t with map := putBytes t.map (0x10 + g) [BitVec.ofNat 8 (e + 64)] })
      s1.queueMap 4 s1.laneMapBody
  else if site % 33 = 32 || bad then s.oweDegrade a
  else s.modCore (coreOfArray a) (fun k => { k with remaps := k.remaps ++ [(a, site)] })

/-- The channel entries of a stack's map part with USED or VALID set in one of their fields (R256). -/
def mapCount (m : List Byte) : Nat :=
  ((List.range 16).filter (fun c => (List.range 9).any (fun i => bit (byteAt m (0x10 + 16 * c + i)) 7))).length

/-- A map part with new entries: its header count moves as their count does, so that a wrong count stays wrong (R257). -/
def recount (old new : List Byte) : List Byte :=
  putBytes new 1 (leBytes 2 ((fld old 1 2 + mapCount new + 65536 - mapCount old) % 65536))

/-- A stack lane declared permanent enters erasure mode (R259). A third one leaves its pseudo-channel unreadable. -/
def State.eraseLane (s : State) (n : Fin 12) (channel pc lane : Nat) : State :=
  let o := eraseOffset channel pc
  let m := (s.stack n).map
  let s1 :=
    if !bit (byteAt m o) 7 then
      let s1 := s.modStack n (fun t => { t with map := recount m (putBytes m o [BitVec.ofNat 8 (128 + lane)]) })
      s1.queueMap 5 s1.stackMapBody
    else if !bit (byteAt m (o + 1)) 7 then
      let s1 := s.modStack n (fun t => { t with map := recount m (putBytes m (o + 1) [BitVec.ofNat 8 (128 + lane)]) })
      s1.queueMap 5 s1.stackMapBody
    else s.modStack n (fun t => { t with dead := setInsert (2 * channel + pc) t.dead })
  s1.unitEvent 0x0307 (stackLaneUnit n.val channel pc lane)

/-- A link lane declared permanent retires its port, which takes four lanes (R407). -/
def State.retirePort (s : State) (l : Fin 4) (lane : Nat) : State :=
  let gone := fun (k : LinkS) => vmod k.ports (ix 4 (lane / 4)) (fun _ => ⟨false, false, true⟩)
  ({ s with links := vmod s.links l (fun k => { k with ports := gone k }) }).unitEvent 0x060E (linkLaneUnit l.val lane)

/-- What follows when a unit becomes permanent (Table 16.5). -/
def State.onPermanent (s : State) (kind unit : Nat) : State :=
  match kind with
  | 1 => s.permanentSite (ix 8 (bits unit 18 16)) (bits unit 12 0)
  | 2 => ((s.modArr (ix 8 unit) (fun t => { t with witnessFlagged := true })).oweDegrade (ix 8 unit)).unitEvent 0x060B unit
  | 3 => s.oweDegrade (ix 8 unit)
  | 4 => s.quarantine (ix 4 unit)
  | 5 => s.eraseLane (ix 12 (bits unit 27 24)) (bits unit 19 16) (bits unit 8 8) (bits unit 5 0)
  | 6 => s.retirePort (ix 4 (bits unit 9 8)) (bits unit 3 0)
  | _ => s

/-- Marks a unit permanent (R409, R413); a unit that is already permanent stays as it is. -/
def State.makePermanent (s : State) (kind unit : Nat) : State :=
  let e := s.histOf kind unit
  if e.permanent then s
  else ((s.writeHist { e with permanent := true, since := s.faults.minute.toNat }).1).onPermanent kind unit

/-- Records n transients of a unit at a minute, and the permanent mark that they cause (R407, R409). -/
def State.transient (s : State) (kind unit minute n : Nat) : State :=
  let e := s.histOf kind unit
  let times := (List.replicate (min n 3) minute ++ e.times).take 3
  match s.writeHist { e with count := satAdd e.count n, times := times } with
  | (s1, false) => s1
  | (s1, true) =>
    match times with
    | [t0, _, t2] => if t0 ≤ t2 + 43200 then s1.makePermanent kind unit else s1
    | _ => s1

/-! ## Suspicion (R403, R414) -/

/-- A suspicion stands for 43,200 module-on minutes. -/
def State.suspected (s : State) (a : Fin 8) (g : Nat) : Bool :=
  (s.arr a).suspects.any (fun p => (p.1 == g || p.1 == 128) && decide (s.faults.minute.toNat ≤ p.2 + 43200))

/-- Puts groups of an array under suspicion: its test falls due at once, and an unresolved outcome in a group that is
already suspect degrades the array (R414). The SUSPECT mark stands on the array's history entry. -/
def State.suspect (s : State) (a : Fin 8) (gs : List Nat) : State :=
  let again := gs.any (s.suspected a)
  let now := s.faults.minute.toNat
  let s1 := s.modArr a (fun t => { t with suspects := t.suspects.filter (fun p => !gs.contains p.1) ++ gs.map (fun g => (g, now)) })
  let e := s1.histOf 3 a.val
  let s2 := (s1.writeHist { e with suspect := true, since := now }).1
  let s3 := s2.modCore (coreOfArray a) (fun k => { k with ift := { k.ift with due := true } })
  if again then s3.oweDegrade a else s3

/-! ## Killing a context (17, R432, R433; 13, R327) -/

/-- Every slot of every table of a context returns to EMPTY (07, R173). -/
def State.emptySlots (s : State) (x : Fin 16) : State :=
  s.modCtx x (fun k => { k with cores := k.cores.map (fun q => { q with table := { q.table with
    slots := q.table.slots.map (fun t => { t with state := .empty, claims := 0, finished := 0 }) } }) })

/-- Clears what a core holds for a context: its running command, its rows and captures, and its span. -/
def State.clearCore (s : State) (x : Fin 16) (c : Fin 4) : State :=
  let k := s.core c
  let mine := match k.running with | some r => r.x == x | none => false
  let span := match k.span with | some sp => sp.x == x | none => false
  let s1 := if mine then (s.stopIssue c).modCore c (fun k => { k with running := none, epi := [] }) else s
  let s2 := if span then s1.modCore c (fun k => { k with span := none }) else s1
  if mine || span then
    [0, 1].foldl (fun s b => s.modArr (arrayOf c b) (fun t => { t with
      rows := [], captures := [], missed := [], fresh := false, spanDisagree := 0 })) s2
  else s2

/-- Failed commands of a context that have not been reported: each gets its COMMAND entry before the CONTEXT entry
(R432), but for those inside a span (R433). -/
def State.reportFailed (s : State) (x : Fin 16) : State :=
  let cores := (List.finRange 4).filterMap (fun c =>
    match (s.core c).running with
    | some r => if r.x = x && r.out.failed && (s.spanFor x c r.cmd.eval).isNone then some r else none
    | none => none)
  let queues := ((s.ctx x).fabricRun ++ (s.ctx x).memoryRun).filter (·.out.failed)
  (cores ++ queues).foldl (fun s r => s.report x r.cmd r.out) s

/-- Drops what the link dies hold for a context: its commands' progress, the frames of its jobs, and its shard services; a
later frame begins its flow anew. -/
def State.dropFabric (s : State) (x : Fin 16) : State :=
  let mine := fun (y : Option (Fin 16)) => y == some x
  { s with fabric := { s.fabric with
      tx := s.fabric.tx.map (fun f => if mine f.x then { f with frames := [], next := 0, start := true } else f)
      rts := s.fabric.rts.filter (fun r => r.x != x)
      services := s.fabric.services.filter (fun v => v.x != x)
      fabs := s.fabric.fabs.filter (fun f => f.x != x)
      early := s.fabric.early.filter (fun f => s.jobs.all (fun j => j.job != f.job || j.x != x)) } }

/-- Releases the writes that stalled on a page, in order (11, R283). -/
def State.landStalled (s : State) (m : Move) : State :=
  m.stalled.foldl (fun s w => s.uwrite (m.page * 131072 + w.1) (w.2.1.map (fun b => ⟨b, w.2.2⟩))) s

/-- Aborts a context's moves at once as it is destroyed or killed (11, R284): each entry is RESIDENT at its old home, the destination
is freed, and the stalled writes are released. -/
def State.haltMoves (s : State) (x : Fin 16) : State :=
  (s.tiers.moves.filter (fun m => m.x == x)).foldl (fun s m =>
    let drop := s.modTiers (fun t => { t with moves := t.moves.filter (fun k => k.page != m.page) })
    match s.homeOf m.page with
    | none => drop
    | some e =>
      let s1 := drop.modTiers (fun t => { t with map := ainsert m.page { e with dest := none, aborts := 0 } t.map })
      let s2 := if e.dest == some Home.deep && e.home != Home.deep then s1.clearDeep m.page else s1
      let s3 := s2.landStalled m
      if e.dest.isSome then s3.modCtx x (fun k => { k with aborts := satAdd k.aborts 1 }) else s3) s

/-- Stops a context's work: queued commands are discarded, running ones stop and write nothing further, and its moves
are aborted at once (11, R284); its hints end (18, R451). -/
def State.stopWork (s : State) (x : Fin 16) : State :=
  let s1 := s.modCtx x (fun k => { k with
    fabric := [], memory := [], fabricRun := [], memoryRun := []
    cores := k.cores.map (fun q => { q with main := [], eval := [], admitted := 0, setPending := false, hint := none }) })
  let s2 := (List.finRange 4).foldl (fun s c => s.clearCore x c) s1
  ((s2.dropFabric x).haltMoves x).modTiers (fun t => { t with
    deepWaits := t.deepWaits.filter (fun w => w.x != x)
    reqs := t.reqs.filter (fun r => r.x != x)
    migrates := t.migrates.filter (fun m => ((s.ctx x).memoryRun.all (fun r => r.id != m.run))) })

/-- Ends a kill once no packet of the context is taken: the CONTEXT entry, then KILLED (R327, R432). -/
def State.endKill (s : State) (x : Fin 16) : State :=
  let k := s.ctx x
  if k.dying && k.takenSlots.isEmpty then
    (s.post x { Entry.blank 5 k.killReason with detail := detail [(0, 4, k.killRseq.toNat)] }).modCtx x
      (fun k => { k with state := .killed, dying := false })
  else s

/-- Kills a context (R327, R432): dispatch stops, queued commands are discarded, running ones stop, sealed packets are
discarded, and the CONTEXT entry follows the packets already taken. -/
def State.kill (s : State) (x : Fin 16) (reason : Nat) (rseq : W32) : State :=
  if (s.ctx x).state != .active || (s.ctx x).dying then s
  else
    let s1 := ((s.reportFailed x).stopWork x).emptySlots x
    let s2 := s1.modCtx x (fun k => { k with
      dying := true, killReason := reason, killRseq := rseq
      slots := k.slots.map (fun m => if m.state = .sealed then { m with state := .free } else m) })
    s2.endKill x

/-! ## Non-maskable events and the fatal state (17, R425, R431) -/

/-- The cause bits of FAULT_STATUS as they stand: 1 OVERFLOW, 2 FATAL_NMI, 3 CLOCK_NMI. -/
def Faults.causes (f : Faults) : Nat := 2 * b2n f.nmiOverflow + 4 * b2n f.nmiFatal + 8 * b2n f.nmiClock

/-- Raises a non-maskable event whose cause bit has been set: an I3C in-band interrupt and EVENT 0x0611 (R431). ALERT_N
follows the cause bits. -/
def State.nonMaskable (s : State) : State :=
  ({ s with board := { s.board with i3cIbis := s.board.i3cIbis + 1 } }).event 0 0x0611 (detail [(0, 4, s.faults.causes)])

/-- ALERT_N is asserted (R431). -/
def State.alert (s : State) : Bool := s.faults.causes != 0

/-- Hardware sets a cause bit of FAULT_STATUS now: 0 OVERFLOW, 1 FATAL_NMI, 2 CLOCK_NMI (R431; 00, R11). -/
def Faults.setCause (f : Faults) (i : Fin 3) (pilot : Nat) : Faults :=
  { f with nmiOverflow := f.nmiOverflow || i == 0, nmiFatal := f.nmiFatal || i == 1, nmiClock := f.nmiClock || i == 2
           nmiAt := f.nmiAt.set i pilot }

/-- Enters the fatal state (R425): every ACTIVE context is killed and all work stops. -/
def State.enterFatal (s : State) (reason : Nat) (rseq : W32) : State :=
  if s.faults.fatal then s
  else
    let s1 := s.modFaults (fun t => { t.setCause 1 s.pilot with fatal := true })
    ((List.finRange 16).foldl (fun s x => s.kill x reason rseq) s1).nonMaskable

end Sys2Proof.Machine
end

