-- ==== Sys2Proof/Machine/Near.lean ====
section
/-! DEFINITION. Stack controllers: the sector code, scrub reads and flushes of the write-combining buffer (10, R243 to
R248, R260 to R262). -/

namespace Sys2Proof.Machine

open Sys2Proof

/-! ## Detection (R405, R417, R424) -/

/-- The core whose open span wrote some of a unit. -/
def State.spanWith (s : State) (hit : Fin 4 → Region → Span → Bool) : Option (Fin 4) :=
  (List.finRange 4).find? (fun c =>
    match (s.core c).span with
    | some sp => sp.writes.any (fun r => hit c r sp)
    | none => false)

/-- An open span meets an uncorrectable fault (R405): the first one makes a replay due at the end of the running command. -/
def Span.fault (sp : Span) (idle : Bool) : Span :=
  { sp with faults := sp.faults + 1, replayDue := sp.replayDue || (sp.faults == 0 && !sp.usedReplay && idle) }

/-- Detects an uncorrectable fault, which may be one of an open span (R405; Table 17.6). -/
def State.detectSpan (s : State) (core : Option (Fin 4)) (f : FaultRec) : State :=
  match core with
  | none => s.detect f
  | some c =>
    match (s.core c).span with
    | none => s.detect f
    | some sp => (s.detect { f with severity := 1, ctx := some sp.x, span := some sp.id }).modCore c (fun k => { k with
        span := some (sp.fault k.running.isNone) })

/-- One row of bytes as a region. -/
def bytesRegion (space core a n : Nat) : Region :=
  { space := space, core := core, base := a, rows := 1, pitch := n, rowBytes := n, write := false, scratch := false }

/-- The span that wrote bytes of the unified range. -/
def State.spanOfUnified (s : State) (a n : Nat) : Option (Fin 4) :=
  s.spanWith (fun _ r _ => r.overlaps (bytesRegion 1 0 a n))

/-- The span that wrote bytes of a scratchpad row. -/
def State.spanOfRow (s : State) (c : Fin 4) (row : Nat) : Option (Fin 4) :=
  s.spanWith (fun _ r sp =>
    r.space == 0 && r.core == c.val &&
      match s.windowAt sp.x c r.base with
      | some (o, _) => ({ r with base := o }).overlaps (bytesRegion 0 c.val (1024 * row) 1024)
      | none => false)

/-- Names the command of a core that read the data. -/
def State.byReader (s : State) (reader : Option (Fin 4)) (f : FaultRec) : FaultRec :=
  match reader with
  | none => f
  | some c => match (s.core c).running with | some r => f.ofCmd r.x r.cmd | none => f

/-! ## Scrub (R247, R248) -/

/-- Severity, reason and context of an uncorrectable error in the reserved region of S0 (17, Table 17.4; Table 10.5). -/
def reservedFault (a : Nat) : Nat × Nat × Option (Fin 16) :=
  let area := a / 0x10000000
  if area = 0 then (3, 0x0614, none)
  else if area = 1 ∨ area = 2 then (2, 0x0615, some (ix 16 (a % 0x10000000 / 0x1000000)))
  else if area = 5 then (3, 0x0617, none)
  else (0, 0x0616, none)

/-- An address lies in the reserved region of S0 (R250). -/
def inReserved (n : Fin 12) (a : Nat) : Bool := n == 0 && decide (a < 0x80000000)

/-- The fault record of an uncorrectable sector of a stack (R247, R255; 17, R424). -/
def State.sectorFault (s : State) (n : Fin 12) (a : Nat) : FaultRec :=
  if inReserved n a then
    let r := reservedFault a
    { s.faultNow r.1 r.2.1 0x05 with ctx := r.2.2, unitKind := 9, unit := 12 + n.val, addrKind := 5, addr := a }
  else { s.faultNow 1 0x0620 0x05 with unitKind := 9, unit := 12 + n.val, addrKind := 2, addr := a }

/-- Marks a sector of a stack poisoned, with the data that a read found (R247). -/
def StackS.poisonSector (st : StackS) (a : Nat) (bs : List Byte) : StackS :=
  { (st.putSectors a (bs.map (fun b => ⟨b, true⟩))) with ue := satAdd st.ue 1 }

/-- A read finds a sector uncorrectable (R247): poison mark and fault record. In the reserved region recoverable data is
restored: test patterns from the module store, and the held region as zeros (17, Table 17.4). `core` is the core whose open span wrote
the sector, and `name` adds what the record says of the reader. -/
def State.loseSector (s : State) (n : Fin 12) (a : Nat) (data : List Byte) (core : Option (Fin 4) := none)
    (name : FaultRec → FaultRec := id) : State :=
  let f := name (s.sectorFault n a)
  let bad := (s.stack n).poison.contains (a / 64)
  let s1 := if inReserved n a && f.severity == 0 then
      s.modStack n (fun t => { t with
        mem := if 0x70000000 ≤ a then t.mem.erase a 64 else t.mem, errs := aerase (a / 64) t.errs, ue := satAdd t.ue 1 })
    else s.modStack n (fun t => t.poisonSector a data)
  if bad then s1 else s1.detectSpan core f

/-- Poisons the granules that an uncorrectable deep granule reaches: its own in a block stored uncompressed, all sixteen
otherwise, where the granule of the address names one of the block's own in turn (11, R276, R278). The result holds the channel, the
granule, whether it was marked, and the state. -/
def State.poisonDeep (s : State) (a : Nat) : Option (Nat × Nat × Bool × State) :=
  let p := a / 131072
  let j := a % 131072 / 4096
  match (s.deepDirOf p)[j]? with
  | none => none
  | some b =>
    if b.length = 0 ∨ 16 < b.length then none
    else
      let first := p * 512 + j * 16
      let g := a % 4096 / 256
      let gs := if b.length = 16 then [first + g] else (List.range 16).map (first + ·)
      some (deepChannel p j, b.granule + g % b.length, gs.all s.tiers.deepPoison.contains,
        s.modTiers (fun t => { t with deepPoison := gs.foldl (fun l x => setInsert x l) t.deepPoison }))

/-- Counts a deep granule corrected or uncorrectable on its channel (11, Table 11.4). -/
def State.countDeep (s : State) (ch : Nat) (fixed : Bool) : State :=
  s.modTiers (fun t => if fixed then { t with deepCe := vmod t.deepCe (ix 16 ch) (fun n => satAdd n 1) }
    else { t with deepUe := vmod t.deepUe (ix 16 ch) (fun n => satAdd n 1) })

/-- A read of a sector of a stack acts on what its decoder finds (R245 to R247): counts, and for an uncorrectable sector the mark and
the record. -/
def State.touchSector (s : State) (n : Fin 12) (a : Nat) (core : Option (Fin 4)) (name : FaultRec → FaultRec) : State :=
  let st := s.stack n
  match st.outcome (a / 64) with
  | .clean => s
  | .corrected p => s.modStack n (fun t => t.noteFixed (a / 64) p)
  | .poisoned => s.modStack n (fun t => { t with ue := satAdd t.ue 1 })
  | .uncorrectable => s.loseSector n a ((st.sectorBytes (a / 64)).map (·.b)) core name

/-- A read of a 64-byte unit of the unified range, near or deep (10, R247; 11, R276). -/
def State.touch (s : State) (a : Nat) (reader : Option (Fin 4)) : State :=
  let a := a / 64 * 64
  match s.homeOf (a / 131072) with
  | none => s
  | some e =>
    match e.home with
    | .deep => match s.poisonDeep a with
      | some (ch, _, true, _) => s.countDeep ch false
      | _ => s
    | h => match s.nearPieces h (a % 131072) 64 with
      | (n, sa, _) :: _ => s.touchSector n sa (s.spanOfUnified a 64) (fun f => s.byReader reader { f with ctx := some e.owner })
      | [] => s

/-- Nothing that the unified range holds is marked, unreadable or in error. -/
def State.quiet (s : State) : Bool :=
  s.hbm.all (fun (t : StackS) => t.dead.isEmpty && t.poison.isEmpty && t.errs.isEmpty) && s.tiers.deepPoison.isEmpty

/-- The reads of a byte range of the unified range. -/
def State.touchRange (s : State) (a n : Nat) (reader : Option (Fin 4)) : State :=
  if s.quiet then s else (sectorsOf a n).foldl (fun s k => s.touch (64 * k) reader) s

/-- SCRUB_READ (R248): sector `sector` of a stack, whose lanes add an error pattern to the stored codeword. -/
def doScrubRead (n : Fin 12) (sector : Nat) (err : Pattern) (s : State) : State :=
  let st := s.stack n
  let a := 64 * sector
  if !s.blks[ix 36 (18 + n.val)].enabled || decide (0x1200000000 ≤ a) then s
  else
    let bad := st.poison.contains sector
    let err := st.errsOf sector ++ err
    let data := st.mem.read a 64
    let out := if st.dead.contains (pseudoChannel a) then .uncorrectable
      else decodeSector (st.erased a) (err ++ if bad then maskPattern else [])
    match out with
    | .clean => if bad then s.modStack n (fun t => { t with ue := satAdd t.ue 1 }) else s
    | .poisoned => s.modStack n (fun t => { t with ue := satAdd t.ue 1 })
    | .corrected p =>
      let fixed := (flipData (flipData data err) p).map (fun b => (⟨b, false⟩ : PByte))
      s.modStack n (fun t => (t.noteFixed sector p).putSectors a fixed)
    | .uncorrectable => s.loseSector n a (flipData data err)

/-! ## Flushes (R261, R262) -/

/-- WCB_AGE in array cycles (Table 10.7). -/
def wcbAge (code : Nat) : Nat := 64 * 4 ^ code

/-- WCB_AGE_FLUSH (R261): a partial entry that has stood open for WCB_AGE array cycles is flushed. -/
def doWcbAgeFlush (n : Fin 12) (sector : Nat) (s : State) : State :=
  let st := s.stack n
  match st.wcb.find? (fun e => e.sector == sector) with
  | none => s
  | some e => if wcbAge st.ctrl.wcbAge ≤ e.age then s.modStack n (fun t => t.flushPartial e) else s

/-- WCB_HIGH as sixteenths; 0 reads as 12 (Table 10.7). -/
def ScCtrl.high (c : ScCtrl) : Nat := if c.wcbHigh = 0 then 12 else c.wcbHigh

/-- WCB_HIGH_FLUSH (R261): at WCB_HIGH sixteenths of 512 entries the oldest are flushed until the buffer is below. -/
def doWcbHighFlush (n : Fin 12) (s : State) : State :=
  let mark := 32 * (s.stack n).ctrl.high
  let len := (s.stack n).wcb.length
  s.modStack n (fun t => t.flushOldest (len + 1 - mark))

/-- Flushes every buffer, as before the stacks self-refresh or a reset that keeps them powered (R261; 19, R465, R471). -/
def State.flushAll (s : State) : State :=
  { s with hbm := s.hbm.map (fun (t : StackS) => t.wcb.foldl StackS.flushPartial t) }

end Sys2Proof.Machine
end

