-- ==== Sys2Proof/Machine/VecMath.lean ====
section
/-! DEFINITION. The arithmetic of the feed engines: activations, norm, softmax, dropout and the inputs of commands
(05, Table 5.4; 06, R138 to R146). -/

namespace Sys2Proof.Machine

open Sys2Proof

/-- A lane operation on two values; the result is poisoned when an input is (R158). -/
def pv2 (f : W32 → W32 → W32) (a b : PV) : PV := ⟨f a.v b.v, a.p || b.p⟩

/-- A lane operation on one value. -/
def pv1 (f : W32 → W32) (a : PV) : PV := ⟨f a.v, a.p⟩

/-- fp32(x × recip(fp32(1 + exp(e)))). -/
def sigmoidMul (x e : W32) : W32 := fpMul x (fpRecip (fpAdd fpOne (fpExpE e)))

/-- u of the GELU tanh form (Table 5.4), before the factor -2. -/
def geluU (x : W32) : W32 :=
  fpMul 0x3F4C422A#32 (fpAdd x (fpMul 0x3D372713#32 (fpMul (fpMul x x) x)))

/-- ReLU (Table 5.4). -/
def relu (x : W32) : W32 :=
  if fpIsNaN x then fpNaN else if fpIsZero x || fpSign x then 0#32 else x

/-- Activation of a code (Table 5.4). Code 0 gives x as it stands: a subnormal passes unchanged, as the table's x does not say that it
is an FP32 operation of R35 (02) (DESIGN CHOICE, log 117). -/
def actOf (code : Nat) (x : W32) : W32 :=
  match code with
  | 1 => relu x
  | 2 => sigmoidMul x (fpNeg x)
  | 3 => sigmoidMul x (fpMul 0xC0000000#32 (geluU x))
  | _ => x

/-- Row normalisation on FP32 values (R144): kind 0 root-mean-square, 1 mean-subtracted. -/
def normVals (kind : Nat) (eps : W32) (xs : List W32) : List W32 × W32 :=
  let ic := fpRecip (fpOfNat xs.length)
  let d := if kind = 0 then xs
    else
      let mu := fpMul (fpSum xs) ic
      xs.map (fun x => fpSub x mu)
  let v := fpMul (fpSum (d.map (fun x => fpMul x x))) ic
  (d, fpRsqrt (fpAdd v eps))

/-- Row normalisation with gain and optional shift (R144). A poisoned input element poisons the row, a poisoned gain or
shift element its column (R126, R158). -/
def normRow (kind : Nat) (eps : W32) (gain : List PV) (shift : Option (List PV)) (xs : List PV) : List PV :=
  let p := xs.any (·.p)
  let (d, q) := normVals kind eps (xs.map (·.v))
  let y := d.zipWith (fun x (g : PV) => (⟨fpMul (fpMul x q) g.v, p || g.p⟩ : PV)) gain
  match shift with
  | none => y
  | some b => y.zipWith (pv2 fpAdd) b

/-- m and l of R145, with the probabilities. -/
def softmaxParts (sa : W32) (xs : List W32) : W32 × W32 × List W32 :=
  let z := xs.map (fun a => fpMul a sa)
  let m := fpMaxList z
  if m = fpInf true then (m, 0#32, xs.map (fun _ => 0#32))
  else
    let p := z.map (fun t => fpExpE (fpSub t m))
    (m, fpSum p, p)

/-- Row softmax (R145). -/
def softmaxRow (sa : W32) (xs : List W32) : List W32 :=
  let (m, l, p) := softmaxParts sa xs
  if m = fpInf true then p else p.map (fun t => fpMul t (fpRecip l))

/-- Dropout of a row whose first element has the draws rs (R146). -/
def dropoutRow (dropP : Nat) (keep : W32) (rs : List Nat) (xs : List PV) : List PV :=
  (xs.zip rs).map (fun q => if q.2 < dropP then (⟨0#32, q.1.p⟩ : PV) else ⟨fpMul q.1.v keep, q.1.p⟩)

/-! ## The tensors of a command -/

/-- A 32-bit field of a descriptor as a word. -/
def Cmd.word (c : Cmd) (off : Nat) : W32 := BitVec.ofNat 32 (fld c.desc off 4)

/-- The scale of a tensor that a command reads at a step (R61, R65, R66); none when the read fails. -/
def State.readOpnd (s : State) (x : Fin 16) (t : Tensor) (step : W32) : Option Opnd :=
  if t.fmt.quantised then (s.readScale x t.scaleRec t.scale step).map (fun v => ⟨t, v⟩) else some ⟨t, t.scale⟩

/-- The scale of a tensor that a command stores at a step (R61 to R64). -/
def State.quantOpnd (s : State) (x : Fin 16) (t : Tensor) (step : W32) : State × Option Opnd :=
  if t.fmt.quantised then
    let (s1, v) := s.quantScale x t.scaleRec t.scale step
    (s1, v.map (fun v => ⟨t, v⟩))
  else (s, some ⟨t, t.scale⟩)

/-- The table load that a tensor's record stands in (R525). -/
def State.stampOf (s : State) (x : Fin 16) (t : Tensor) : Nat := (s.scaleRec x t.scaleRec).stamp

/-- Reads a cache line or fills one (07, R170): a free way or the line the set gives up. -/
def State.cacheTouch (s : State) (x : Fin 16) (c : Fin 4) (sector : Nat) : State :=
  let f := s.feed c
  if f.cache.any (fun l => l.x == x.val && l.sector == sector) then
    s.modFeed c (fun f => { f with cacheHit := satAdd f.cacheHit 1 })
  else
    let sets := f.c * 2 ^ 20 / 1024
    let bs := s.uread (64 * sector) 64
    let s := s.touchRange (64 * sector) 64 (some c)
    let set := fun (l : CacheLine) => Config.cacheSet l.x l.sector % sets
    let new : CacheLine := ⟨x.val, sector, bs.map (·.b), bs.any (·.p)⟩
    let mates := f.cache.filter (fun l => set l == set new)
    let (n, s1) := s.occasion
    s1.modFeed c (fun f => { f with
      cacheMiss := satAdd f.cacheMiss 1
      cache := (if mates.length < 16 then f.cache
        else f.cache.filter (fun l => some l != mates[Config.cacheVictim n % 16]?)) ++ [new] })

/-- The reads of a command's input regions in the unified range: lookups in the cache partition of its core (07, R170), and the sectors
that the stacks and the deep tier then read (10, R247). -/
def State.cacheReads (s : State) (x : Fin 16) (c : Fin 4) (rs : List Region) : State :=
  if (s.feed c).c = 0 then
    if s.quiet then s
    else (rs.filter (fun r => !r.write && r.space == 1)).foldl (fun s r =>
      (r.units 64).foldl (fun s k => s.touch (64 * k) (some c)) s) s
  else (rs.filter (fun r => !r.write && r.space == 1)).foldl (fun s r =>
    (r.units 64).foldl (fun s k => s.cacheTouch x c k) s) s

/-- Makes a run's scales known for later drains. -/
def State.keepScales (s : State) (r : Run) (scales : List W32) (stamps : List Nat) : State :=
  s.modRun r.id (fun r => { r with scales := scales, stamps := stamps })

/-- Stores rows of a tensor: bytes, die census and contributions, block by block, and the poison status. -/
def State.storeOut (s : State) (r : Run) (c : Fin 4) (o : Opnd) (m : StoreMode) (stamp off : Nat)
    (rows : List (Nat × List PV)) : State :=
  let d := storeRows o m off rows
  let s1 := s.putStored r.x c o.t d
  let s2 := s1.contributeAll r.x c (mkContribs o.t.scaleRec m.step stamp d.contribs)
  s2.notePoison r (runsPoisoned d.runs)

end Sys2Proof.Machine
end

