-- ==== Sys2Proof/Machine/Forward.lean ====
section
/-! DEFINITION. MM and ATTEND (05; 04, R82 to R104). -/

namespace Sys2Proof.Machine

open Sys2Proof

/-! ## Upsets -/

/-- An upset of a lane while a command runs, as the environment gives it: accumulation number, side, row, lane and the
bits it flips (R400). -/
def upsetsOf (ups : List Upset) (row : AccRow) : List (Nat × W32) :=
  (ups.filter (fun u => u.acc == row.acc && u.side == row.side && u.row == row.row)).map (fun u => (u.lane, u.mask))

/-- Position of the running command in its span, and whether the span replays. -/
def State.spanPlace (s : State) (c : Fin 4) : Nat × Bool :=
  match (s.core c).span with
  | some sp => (sp.cmds.length - 1, sp.replay)
  | none => (0, false)

/-! ## MM -/

/-- The fields of an MM descriptor (Table 5.2). -/
structure MMArgs where
  gated : Bool
  bias : Bool
  resid : Bool
  norm : Bool
  act : Nat
  normKind : Nat
  r : Nat
  m : Nat
  n : Nat
  k : Nat
  step : W32
  layer : W32
  eps : W32
  stageOff : Nat
  stageSize : Nat
  deriving DecidableEq, Repr

def mmArgs (c : Cmd) : MMArgs :=
  let f := byteAt c.desc 1
  { gated := bit f 0, bias := bit f 1, resid := bit f 2, norm := bit f 3, act := byteAt c.desc 2
    normKind := bits (byteAt c.desc 3) 0 0, r := fld c.desc 0x12 2, m := fld c.desc 0x14 4, n := fld c.desc 0x18 4
    k := fld c.desc 0x1C 4, step := c.word 0x20, layer := c.word 0x24, eps := c.word 0x28
    stageOff := fld c.desc 0x2C 4, stageSize := fld c.desc 0x30 4 }

/-- N_out. -/
def MMArgs.nOut (a : MMArgs) : Nat := if a.gated then a.n / 2 else a.n

/-- Column blocks (R118, R119). -/
def MMArgs.blocks (a : MMArgs) : Nat := if a.gated then ceilDiv (a.n / 2) 4096 else ceilDiv a.n 8192

/-- Row groups (R118). -/
def MMArgs.groups (a : MMArgs) : Nat := ceilDiv a.m a.r

/-- The rows of W that one side of a column block holds: side 0 is Cn.A, side 1 Cn.B (R118, R119). -/
def MMArgs.cols (a : MMArgs) (b side : Nat) : List Nat :=
  if a.gated then
    let lo := 4096 * b
    (List.range (min 4096 (a.n / 2 - lo))).map (fun i => side * (a.n / 2) + lo + i)
  else
    let lo := 8192 * b + 4096 * side
    (List.range (min 4096 (a.n - lo))).map (lo + ·)

/-- The first output column of a block. -/
def MMArgs.outCol (a : MMArgs) (b : Nat) : Nat := if a.gated then 4096 * b else 8192 * b

/-- The rows of a row group. -/
def MMArgs.rowsOf (a : MMArgs) (g : Nat) : List Nat := (List.range (min a.r (a.m - g * a.r))).map (g * a.r + ·)

/-- The array that runs a side: in single-array mode the one left in service (R112). -/
def State.arrayFor (s : State) (c : Fin 4) (side : Nat) : Fin 8 :=
  if (s.core c).singleArray then
    (if (s.arr (arrayOf c 0)).degraded then arrayOf c 1 else arrayOf c 0)
  else arrayOf c (ix 2 side)

/-- The operands of a running MM with the scales its dispatch fixed: X, W, Y and Z. -/
def mmOpnds (r : Run) : Opnd × Opnd × Opnd × Opnd :=
  let sc := fun i => (r.scales[i]?).getD 0
  (⟨r.cmd.tensorD 4, sc 0⟩, ⟨r.cmd.tensorD 6, sc 1⟩, ⟨r.cmd.tensorD 8, sc 2⟩, ⟨r.cmd.tensorD 0xE, sc 3⟩)

/-- A one-row FP32 input: bias, gain or shift. -/
def State.oneRow (s : State) (x : Fin 16) (c : Fin 4) (t : Tensor) (cols : Nat) : List PV :=
  s.loadRow x c ⟨t, t.scale⟩ cols 0

/-- The epilogue of one drained row of a column block (R123): drained values of the two sides, each with the poison of its own
array's row (R99), to a row of outputs. -/
def mmEpilogue (a : MMArgs) (b : Nat) (bias resid : List PV) (va vb : List PV) : List PV :=
  let lift := fun (vs : List PV) (cols : List Nat) =>
    if a.bias then vs.zipWith (fun v n => pv2 fpAdd v ((bias[n]?).getD PV.zero)) cols else vs
  let da := lift va (a.cols b 0)
  let db := lift vb (a.cols b 1)
  let y := if a.gated then da.zipWith (pv2 (fun g u => fpMul (actOf a.act g) u)) db
    else (da ++ db).map (pv1 (actOf a.act))
  if a.resid then y.zipWith (fun v r => pv2 fpAdd r v) ((resid.drop (a.outCol b)).take y.length) else y

/-- Stores one output row of a column block: Y, and Z when the norm is chained (R123, R124). -/
def State.mmStore (s : State) (r : Run) (c : Fin 4) (a : MMArgs) (b row : Nat) (va vb : List PV) : State :=
  let (_, _, oy, oz) := mmOpnds r
  let bias := if a.bias then s.oneRow r.x c (r.cmd.tensorD 0xA) a.n else []
  let resid := if a.resid then s.loadRow r.x c ⟨r.cmd.tensorD 0xC, 0⟩ a.nOut row else []
  let y := mmEpilogue a b bias resid va vb
  let mode : StoreMode := ⟨(s.ctx r.x).jobSeed, a.step, a.layer, none⟩
  let st := fun i => (r.stamps[i]?).getD 0
  let s1 := s.storeOut r c oy mode (st 0) (a.outCol b) [(row, y)]
  if a.norm then
    let gain := s.oneRow r.x c (r.cmd.tensorD 0x10) a.nOut
    s1.storeOut r c oz mode (st 1) 0 [(row, normRow a.normKind a.eps gain none y)]
  else s1

/-- Drained values with the poison of their accumulator row (R99). -/
def EpiRow.lift (e : EpiRow) : List PV := e.vals.map (fun v => ⟨v, e.poison⟩)

/-- Drains one final row (R96, R97, R101): the upset of the environment acts on the lanes, the witness checks them, and
the row waits in the epilogue until every side of its block has arrived. -/
def State.drainRow (s : State) (r : Run) (c : Fin 4) (a : MMArgs) (row : AccRow) (ups : List (Nat × W32)) : State :=
  let (ox, ow, _, _) := mmOpnds r
  let row := upsetLanes row ups
  let arr := s.arrayFor c row.side
  let s1 := s.noteRow arr (s.spanPlace c).1 row (s.spanPlace c).2
  let b := row.acc / a.groups
  let m := row.acc % a.groups * a.r + row.row
  let mine : EpiRow := ⟨row.side, m, row.lanes.map (drainValue (drainScale ox ow)), row.poison⟩
  if (a.cols b 1).isEmpty then s1.mmStore r c a b m mine.lift []
  else
    match (s1.core c).epi.find? (fun e => e.row == m && e.side != row.side) with
    | none => s1.modCore c (fun k => { k with epi := k.epi ++ [mine] })
    | some other =>
      let s2 := s1.modCore c (fun k => { k with epi := k.epi.filter (fun e => e.row != m) })
      let (ea, eb) := if row.side = 0 then (mine, other) else (other, mine)
      s2.mmStore r c a b m ea.lift eb.lift

/-! ## Banks and accumulator sets (04) -/

/-- A bank that holds a tile given by its columns' bytes, with its witness and magnitude columns; lanes beyond them hold code +0
elements and zero scales (R87, R88, R389). -/
def Bank.tile (state : BankState) (f : Fmt) (cols : List (List PByte)) : Bank :=
  let vals := cols.map (fun bs => (exactRow f f.segElems bs).map (·.v))
  { state := state, cols := (cols.map (fun c => fitTo f.segBytes (c.map (·.b)))) ++ List.replicate (4096 - cols.length) (zeros f.segBytes)
    poison := cols.any (·.any (·.p)), witness := witnessColumn f.segElems vals, magnitude := magnitudeColumn f.segElems vals }

/-- The bytes of a column of BF16 values. -/
def exactBytes (vs : List EV) : List PByte := (vs.map (fun v => pvBytes 2 (toBf16 (fpOfVal v.v)).toNat v.p)).flatten

/-- A side of an accumulation ends: its rows stand in their set and its last tile in the active bank. In single-array mode the other
side's accumulation takes the other set (R95, R112). -/
def State.endSide (s : State) (c : Fin 4) (side : Nat) (rows : List AccRow) (loads : Nat) (b : Bank) : State :=
  let s1 := s.modArr (s.arrayFor c side) (fun t => t.endAcc (s.core c).nextSet rows loads b)
  if (s.core c).singleArray then s1.modCore c (fun k => { k with nextSet := ix 2 (k.nextSet.val + 1) }) else s1

/-- An accumulation on both arrays ends: the next one takes the other set (R95). -/
def State.endAcc (s : State) (c : Fin 4) : State :=
  if (s.core c).singleArray then s else s.modCore c (fun k => { k with nextSet := ix 2 (k.nextSet.val + 1) })

/-- The rows of an accumulation that uses a poisoned tile loaded ahead are poisoned (R99, R103). -/
def State.takeAhead (s : State) (c : Fin 4) (side loads : Nat) (rows : List AccRow) : List AccRow :=
  if (s.arr (s.arrayFor c side)).aheadPoison loads then rows.map (fun r => { r with poison := true }) else rows

/-- The first tile of a command stands ready on an array, loaded ahead. -/
def ArrayS.aheadReady (t : ArrayS) : Bool := t.ahead == 1 || t.banks[ix 2 (t.activeBank.val + 1)].state == .ready

/-- An array command begins (R95, R102, R107): it uses Cn.A, and Cn.B too when `two` holds; no accumulator value has survived. If an
array that it uses is cold, a ramp is asked for at the array time at which the first row is ready to issue: `w` is the width of its
first tile (Table 4.3; 18, R452). A tile still loading ahead counts as not loaded (DESIGN CHOICE, log 129). -/
def State.beginArray (s : State) (c : Fin 4) (two : Bool) (w : Nat) : State :=
  let arrs := if two && !(s.core c).singleArray then [s.arrayFor c 0, s.arrayFor c 1] else [s.arrayFor c 0]
  let cold := arrs.any (fun a => (s.arr a).inService && (s.arr a).cold)
  let l := ceilDiv w 16
  let first := if (s.core c).reload then 256 + l else if arrs.all (fun a => (s.arr a).aheadReady) then 4 else l
  let s1 := s.modCore c (fun k => { k with issuing := arrs, reload := false, nextSet := 0 })
  let s2 := [0, 1].foldl (fun s b => s.modArr (arrayOf c b) (fun t => { t with sets := Vector.replicate 2 [] })) s1
  if cold && !s.power.rampReqs.any (fun r => r.core == c) then
    { s2 with power := { s2.power with rampReqs := s2.power.rampReqs ++ [⟨c, s.arrayTime + first⟩] } }
  else s2

/-- The accumulator rows of one side of an accumulation (R95). -/
def State.mmAcc (s : State) (r : Run) (c : Fin 4) (a : MMArgs) (b g side : Nat) : List AccRow :=
  let (ox, ow, _, _) := mmOpnds r
  let depth := (laneDepth ox.t.fmt ow.t.fmt).getD 512
  let xs := (a.rowsOf g).zipIdx.map (fun m => (m.2, s.exactLoad r.x c ox.t a.k m.1))
  let ws := (a.cols b side).map (fun n => s.exactLoad r.x c ow.t a.k n)
  if ws.isEmpty then [] else accRows depth side (b * a.groups + g) xs ws

/-- The rows of an accumulation in the order in which they drain, Cn.A and Cn.B side by side. -/
def interleave {α : Type} : List α → List α → List α
  | [], b => b
  | x :: a, b =>
    match b with
    | [] => x :: a
    | y :: b => x :: y :: interleave a b

/-- Bank loads of one side of an accumulation of an MM: K-tiles, two to a load with S4 weights and S8 rows (R90). -/
def mmLoads (a : MMArgs) (fx fw : Fmt) : Nat :=
  let k := ceilDiv a.k ((laneDepth fx fw).getD 512)
  if fw == .s4 && fx.isS8 then ceilDiv k 2 else k

/-- Tile j of one side of a column block of an MM. -/
def State.mmTile (s : State) (x : Fin 16) (c : Fin 4) (a : MMArgs) (w : Tensor) (state : BankState) (b side j : Nat) : Bank :=
  Bank.tile state w.fmt ((a.cols b side).map (fun n =>
    ((s.rowBytesOf x c w a.k n).drop (j * w.fmt.segBytes)).take w.fmt.segBytes))

/-- One side of an accumulation: its rows, which its array then holds with its last tile. Operands are read from s0. -/
def State.mmSide (s0 s : State) (r : Run) (c : Fin 4) (a : MMArgs) (b g side : Nat) : State × List AccRow :=
  let (ox, ow, _, _) := mmOpnds r
  let loads := mmLoads a ox.t.fmt ow.t.fmt
  let rows := s.takeAhead c side loads (s0.mmAcc r c a b g side)
  if rows.isEmpty then (s, [])
  else (s.endSide c side rows loads (s0.mmTile r.x c a ow.t .active b side (loads - 1)), rows)

/-- Runs one accumulation: the rows of the two sides. Operands are read from the state at dispatch. -/
def State.mmRunAcc (s0 s : State) (r : Run) (c : Fin 4) (a : MMArgs) (b g : Nat) : State × List AccRow × List AccRow :=
  let (s1, ra) := State.mmSide s0 s r c a b g 0
  let (s2, rb) := State.mmSide s0 s1 r c a b g 1
  (s2.endAcc c, ra, rb)

/-- Drains one final row of an array, as the drain reads it. -/
def State.drainKept (s : State) (r : Run) (c : Fin 4) (a : MMArgs) (row : AccRow) (ups : List (Nat × W32)) : State :=
  let s1 := if ups.isEmpty then s else s.modArr (s.arrayFor c row.side) (fun t => t.putRow (upsetLanes row ups))
  s1.drainRow r c a row ups

/-- Runs one accumulation and drains it. -/
def State.mmDrainAcc (s0 s : State) (r : Run) (c : Fin 4) (a : MMArgs) (ups : List Upset) (b g : Nat) : State :=
  let (s1, ra, rb) := State.mmRunAcc s0 s r c a b g
  (interleave ra rb).foldl (fun s row => s.drainKept r c a row (upsetsOf ups row)) s1

/-- Runs one accumulation and leaves its rows final and undrained on their arrays (R96). -/
def State.mmHoldAcc (s0 s : State) (r : Run) (c : Fin 4) (a : MMArgs) (b g : Nat) : State :=
  let (s1, ra, rb) := State.mmRunAcc s0 s r c a b g
  let hold := fun (s : State) (side : Nat) (rows : List AccRow) =>
    if rows.isEmpty then s else s.modArr (s.arrayFor c side) (fun t => { t with rows := t.rows ++ rows })
  hold (hold s1 0 ra) 1 rb

/-- The staging area after its MM (R120): each byte holds its earlier contents or a byte of the copied rows of W with its poison,
and which is not fixed. A transient area is dead with the command (R169) and keeps no bytes. -/
def State.leaveStaging (s : State) (r : Run) (c : Fin 4) (a : MMArgs) (w : Tensor) : State :=
  if a.stageOff < (s.cc r.x c).resSize then
    let copied := ((List.range a.n).map (s.rowBytesOf r.x c w a.k)).flatten
    let n := s.freeCtr
    let s1 : State := { s with freeCtr := n + a.stageSize }
    s1.wwrite r.x c a.stageOff ((s.wread r.x c a.stageOff a.stageSize).zipIdx.map (fun b =>
      let k := Config.choice (n + b.2) % (copied.length + 1)
      if k = 0 then b.1 else (copied[k - 1]?).getD b.1))
  else s

/-- Runs a dispatched MM (R118): every accumulation in order; with hold, the last one stays on the arrays. Every record is
classified on the records as the dispatch finds them, and every roll and start that is due takes place, whether or not another
record fails the command (03, R525). -/
def State.runMM (s : State) (r : Run) (c : Fin 4) (hold : Bool) (ups : List Upset) : State :=
  let a := mmArgs r.cmd
  let tx := r.cmd.tensorD 4
  let tw := r.cmd.tensorD 6
  let (s1, oy) := s.quantOpnd r.x (r.cmd.tensorD 8) a.step
  let (s2, oz) := if a.norm then s1.quantOpnd r.x (r.cmd.tensorD 0xE) a.step else (s1, some ⟨tx, 0⟩)
  match s.readOpnd r.x tx a.step, s.readOpnd r.x tw a.step, oy, oz with
  | some ox, some ow, some oy, some oz =>
    let scales := [ox.s, ow.s, oy.s, oz.s]
    let stamps := [s2.stampOf r.x oy.t, s2.stampOf r.x oz.t]
    let r1 := { r with scales := scales, stamps := stamps }
    let s3 := ((s2.keepScales r scales stamps).cacheReads r.x c r.cmd.regions).beginArray c (!(a.cols 0 1).isEmpty) (a.cols 0 0).length
    let accs := (List.range (a.blocks * a.groups)).map (fun i => (i / a.groups, i % a.groups))
    let lastAcc := a.blocks * a.groups - 1
    let s4 := ((if hold then accs.take lastAcc else accs)).foldl
      (fun t p => State.mmDrainAcc s3 t r1 c a ups p.1 p.2) s3
    let s5 := if hold then State.mmHoldAcc s3 s4 r1 c a (lastAcc / a.groups) (lastAcc % a.groups) else s4
    if tw.space = 1 then s5.leaveStaging r c a tw else s5
  | _, _, _, _ => (s2.failRun r 0x0211).dropShadows c

/-- MM (R118). -/
def doMm (c : Fin 4) (hold : Bool) (ups : List Upset) (s : State) : State :=
  match s.dispatchCore c (fun m => m.op == 0x10) with
  | none => s
  | some (s1, r) => s1.runMM r c hold ups

/-- ROW_DRAIN (R96): the oldest final row of an array is drained. -/
def doRowDrain (a : Fin 8) (ups : List (Nat × W32)) (s : State) : State :=
  let c := coreOfArray a
  match (s.core c).running, (s.arr a).rows with
  | some r, row :: rest =>
    (s.modArr a (fun t => { t with rows := rest })).drainKept r c (mmArgs r.cmd) row ups
  | _, _ => s

/-! ## ATTEND -/

/-- The fields of an ATTEND descriptor (Table 5.5). -/
structure AttendArgs where
  causal : Bool
  h : Nat
  hkv : Nat
  qb : Nat
  kb : Nat
  seqs : Nat
  m : Nat
  nk : Nat
  qPos : Nat
  kPos : Nat
  smScale : W32
  step : W32
  layer : W32
  workOff : Nat
  workSize : Nat
  deriving DecidableEq, Repr

def attendArgs (c : Cmd) : AttendArgs :=
  { causal := bit (byteAt c.desc 1) 0, h := fld c.desc 0xA 2, hkv := fld c.desc 0xC 2, qb := fld c.desc 0xE 2
    kb := fld c.desc 0x10 2, seqs := fld c.desc 0x12 2, m := fld c.desc 0x14 4, nk := fld c.desc 0x18 4
    qPos := fld c.desc 0x1C 4, kPos := fld c.desc 0x20 4, smScale := c.word 0x24, step := c.word 0x28
    layer := c.word 0x2C, workOff := fld c.desc 0x30 4, workSize := fld c.desc 0x34 4 }

/-- The blocks of n items in pieces of b: (first, length). -/
def blocksOf (n b : Nat) : List (Nat × Nat) := (List.range (ceilDiv n b)).map (fun i => (i * b, min b (n - i * b)))

/-- The key is masked for the query (R130). -/
def masked (a : AttendArgs) (q k : Nat) : Bool := a.causal && decide (a.qPos + q < a.kPos + k)

/-- A key block is skipped for a query block (R130). -/
def blockSkipped (a : AttendArgs) (q0 qn k0 : Nat) : Bool := a.causal && decide (a.qPos + q0 + qn - 1 < a.kPos + k0)

/-- A value as an exact operand. -/
def PV.exact (v : PV) : EV := ⟨fpVal v.v, v.p⟩

/-- The drained values of a product, the rows that a poisoned tile loaded ahead has reached, and the number of the next
accumulation. -/
structure PhaseOut where
  st : State
  vals : List (List W32)
  early : List Bool
  acc : Nat

/-- One side of a pass: the drained rows, noted by their array, which then holds them with the last tile of the pass. -/
def State.phaseSide (s : State) (c : Fin 4) (acc side : Nat) (ups : List Upset) (xs : List (List EV))
    (ws : List (List EV)) : State × List (List W32) :=
  if ws.isEmpty then (s, xs.map (fun _ => []))
  else
    let loads := ceilDiv (((ws.head?).getD []).length) 128
    let rows := (s.takeAhead c side loads (accRows 128 side acc (xs.zipIdx.map (fun x => (x.2, x.1))) ws)).map
      (fun row => upsetLanes row (upsetsOf ups row))
    let tile := Bank.tile .active .bf16 (ws.map (fun w => exactBytes ((w.drop ((loads - 1) * 128)).take 128)))
    rows.foldl (fun (a : State × List (List W32)) row =>
      (a.1.noteRow (a.1.arrayFor c side) (a.1.spanPlace c).1 row (a.1.spanPlace c).2,
       a.2 ++ [row.lanes.map (drainValue (some fpOne))])) (s.endSide c side rows loads tile, [])

/-- A BF16 product of an attention command: rows in passes of up to 512 against weight columns, the first 4,096 on Cn.A
and the rest on Cn.B, drained with scale 1.0 (R51, R128, R129). -/
def State.phase (s : State) (c : Fin 4) (acc : Nat) (ups : List Upset) (xs ws : List (List EV)) : PhaseOut :=
  let hit := fun (s : State) (side : Nat) (ws : List (List EV)) =>
    !ws.isEmpty && (s.arr (s.arrayFor c side)).aheadPoison (ceilDiv (((ws.head?).getD []).length) 128)
  (chunks 512 xs).foldl (fun (o : PhaseOut) pass =>
    let (s1, va) := o.st.phaseSide c o.acc 0 ups pass (ws.take 4096)
    let (s2, vb) := s1.phaseSide c o.acc 1 ups pass (ws.drop 4096)
    let bad := hit o.st 0 (ws.take 4096) || hit s1 1 (ws.drop 4096)
    ⟨s2.endAcc c, o.vals ++ va.zipWith (· ++ ·) vb, o.early ++ pass.map (fun _ => bad), o.acc + 1⟩) ⟨s, [], [], acc⟩

/-- Columns of rows as operands: row d holds element d of every item. -/
def turned (items : List (List PV)) : List (List EV) := (transposeRows PV.zero 128 items).map (·.map PV.exact)

/-- The running softmax of one query (R129). -/
structure SoftState where
  m : W32
  l : W32
  o : List W32
  deriving DecidableEq, Repr

/-- The softmax of a query's drained scores (R129): the new maximum, the probabilities and the factor a. -/
def softStep (a : AttendArgs) (q k0 : Nat) (st : SoftState) (drained : List W32) : W32 × List W32 × W32 :=
  let sc := drained.zipIdx.map (fun v => if masked a q (k0 + v.2) then fpInf true else fpMul v.1 a.smScale)
  let mn := fpMax st.m (fpMaxList sc)
  if mn = fpInf true then (mn, sc.map (fun _ => 0#32), fpOne)
  else (mn, sc.map (fun s => bf16r (fpExpE (fpSub s mn))), fpExpE (fpSub st.m mn))

/-- What the sweep over key blocks carries: state, softmax of each query, the queries that a poisoned tile loaded ahead has
reached, next accumulation. -/
structure Sweep where
  st : State
  soft : List SoftState
  early : List Bool
  acc : Nat

/-- One key block of a query block (R128, R129): queries from q0 on, keys from k0 on. -/
def Sweep.block (w : Sweep) (c : Fin 4) (a : AttendArgs) (ups : List Upset) (q0 k0 : Nat)
    (qs ks vs : List (List PV)) : Sweep :=
  let sc := w.st.phase c w.acc ups (qs.map (·.map PV.exact)) (ks.map (·.map PV.exact))
  let steps := (w.soft.zip sc.vals).zipIdx.map (fun v => softStep a (q0 + v.2) k0 v.1.1 v.1.2)
  let kp := ks.any (·.any (·.p))
  let ps := (steps.zip qs).map (fun v =>
    let p := kp || v.2.any (·.p)
    v.1.2.1.map (fun x => (⟨fpVal x, p⟩ : EV)))
  let u := sc.st.phase c sc.acc ups (turned vs) ps
  let ut := transposeRows 0#32 qs.length u.vals
  { st := u.st
    soft := (w.soft.zip (steps.zip ut)).map (fun v =>
      let (mn, p, al) := v.2.1
      { m := mn, l := fpAdd (fpMul v.1.l al) (fpSum p)
        o := v.1.o.zipWith (fun o u => fpAdd (fpMul o al) u) v.2.2 })
    early := w.early.zipWith (· || ·) sc.early
    acc := u.acc }

/-- Key blocks of a query block that are not skipped: first key, keys, values (R130). -/
def usedBlocks (a : AttendArgs) (q0 qn : Nat) (ks vs : List (List PV)) : List (Nat × List (List PV) × List (List PV)) :=
  ((blocksOf a.nk a.kb).filter (fun b => !blockSkipped a q0 qn b.1)).map (fun b =>
    (b.1, (ks.drop b.1).take b.2, (vs.drop b.1).take b.2))

/-- The sweep over the key blocks of a query block (R128). -/
def State.sweep (s : State) (c : Fin 4) (a : AttendArgs) (ups : List Upset) (acc q0 : Nat) (qs ks vs : List (List PV)) :
    Sweep :=
  (usedBlocks a q0 qs.length ks vs).foldl (fun (w : Sweep) b => w.block c a ups q0 b.1 qs b.2.1 b.2.2)
    ⟨s, qs.map (fun _ => ⟨fpInf true, 0#32, List.replicate 128 0#32⟩), qs.map (fun _ => false), acc⟩

/-- The normalised output of a query (R129). -/
def SoftState.out (st : SoftState) : List W32 :=
  if fpIsZero st.l then List.replicate 128 0#32 else st.o.map (fun o => fpMul o (fpRecip st.l))

/-- Columns of a head out of a row. -/
def headCols (h : Nat) (row : List PV) : List PV := (row.drop (128 * h)).take 128

/-- Rows of one head of a tensor of 128-column heads. -/
def State.headRows (s : State) (x : Fin 16) (c : Fin 4) (t : Tensor) (heads h lo n : Nat) : List (List PV) :=
  (s.loadRows x c ⟨t, 0⟩ (128 * heads) lo n).map (headCols h)

/-- The output rows of one head of a sequence, block by block (R128, R132): they are read from s0. -/
def State.attendHead (s0 s : State) (r : Run) (c : Fin 4) (a : AttendArgs) (ups : List Upset) (acc sq h : Nat) :
    State × List (List PV) × Nat :=
  let kvh := h * a.hkv / a.h
  let qs := s0.headRows r.x c (r.cmd.tensorD 2) a.h h (sq * a.m) a.m
  let ks := s0.headRows r.x c (r.cmd.tensorD 4) a.hkv kvh (sq * a.nk) a.nk
  let vs := s0.headRows r.x c (r.cmd.tensorD 6) a.hkv kvh (sq * a.nk) a.nk
  (blocksOf a.m a.qb).foldl (fun (o : State × List (List PV) × Nat) b =>
    let qb := (qs.drop b.1).take b.2
    let used := usedBlocks a b.1 b.2 ks vs
    let kvp := used.any (fun k => k.2.1.any (·.any (·.p)) || k.2.2.any (·.any (·.p)))
    let w := o.1.sweep c a ups o.2.2 b.1 qb ks vs
    (w.st, o.2.1 ++ (w.soft.zip (qb.zip w.early)).map (fun v =>
      v.1.out.map (fun x => (⟨x, kvp || v.2.2 || v.2.1.any (·.p)⟩ : PV))), w.acc)) (s, [], acc)

/-- The heads of a command in order: for each sequence and head, its output rows. -/
def State.attendHeads (s0 s : State) (r : Run) (c : Fin 4) (a : AttendArgs) (ups : List Upset) :
    State × List (List (List (List PV))) :=
  let o := (List.range a.seqs).foldl (fun (o : State × List (List (List (List PV))) × Nat) sq =>
    let q := (List.range a.h).foldl (fun (q : State × List (List (List PV)) × Nat) h =>
      let (s1, rows, acc) := State.attendHead s0 q.1 r c a ups q.2.2 sq h
      (s1, q.2.1 ++ [rows], acc)) (o.1, [], o.2.2)
    (q.1, o.2.1 ++ [q.2.1], q.2.2)) (s, [], 0)
  (o.1, o.2.1)

/-- The regions that an attention command reads: of its keys and values only the rows of blocks that some query block does not skip
(R130), in every sequence. -/
def attendReads (cmd : Cmd) (c : Fin 4) (a : AttendArgs) : List Region :=
  let used := (blocksOf a.m a.qb).flatMap (fun q =>
    ((blocksOf a.nk a.kb).filter (fun b => !blockSkipped a q.1 q.2 b.1)).map (fun b => b.1 + b.2))
  let rows := used.foldl max 0
  cmd.regions.flatMap (fun g =>
    match [cmd.tensorD 4, cmd.tensorD 6].find? (fun t => t.region c (a.seqs * a.nk) (128 * a.hkv) false == g) with
    | some t => if rows = 0 then [] else (List.range a.seqs).map (fun sq => { g with base := t.rowAddr (sq * a.nk), rows := rows })
    | none => [g])

/-- An attention command begins: it uses both arrays when a product has more than 4,096 columns (R93). -/
def State.beginAttend (s : State) (c : Fin 4) (a : AttendArgs) : State :=
  s.beginArray c (decide (4096 < max (min a.kb a.nk) (min a.qb a.m))) (min 4096 (min a.kb a.nk))

/-- Whether a running command has met poison so far. -/
def State.metPoison (s : State) (r : Run) : Bool :=
  match s.findRun r.id with
  | some k => k.out.poisoned
  | none => false

/-- Runs a dispatched ATTEND (R128). -/
def State.runAttend (s : State) (r : Run) (c : Fin 4) (ups : List Upset) : State :=
  let a := attendArgs r.cmd
  let (s1, oo) := s.quantOpnd r.x (r.cmd.tensorD 8) a.step
  match oo with
  | none => (s1.failRun r 0x0211).dropShadows c
  | some oo =>
    let s2 := (s1.cacheReads r.x c (attendReads r.cmd c a)).beginAttend c a
    let (s3, seqs) := State.attendHeads s2 s2 r c a ups
    let rows := (seqs.zipIdx.map (fun sq => (List.range a.m).map (fun i =>
      (sq.2 * a.m + i, (sq.1.map (fun hd => (hd[i]?).getD [])).flatten)))).flatten
    let mode : StoreMode := ⟨(s3.ctx r.x).jobSeed, a.step, a.layer, none⟩
    let s4 := s3.storeOut r c oo mode (s3.stampOf r.x oo.t) 0 rows
    s4.scrambleArea r.x c a.workOff a.workSize (s4.metPoison r)

/-- ATTEND (R128). -/
def doAttend (c : Fin 4) (ups : List Upset) (s : State) : State :=
  match s.dispatchCore c (fun m => m.op == 0x12) with
  | none => s
  | some (s1, r) => s1.runAttend r c ups

end Sys2Proof.Machine
end

