-- ==== Sys2Proof/Machine/Curves.lean ====
section
/-! DEFINITION. Rate curves and command scalars of the update engine (09, R215, R216). -/

namespace Sys2Proof.Machine

open Sys2Proof

/-- FP32 nearest to n / d times 2^e, for an exact numerator (R215); not below zero, by R214. -/
def fpRatio (n : Dy) (d : Nat) : W32 := fpQuot (decide (n.m < 0)) n.m.natAbs n.e d 0

/-- Fraction bits of the fixed-point work below. -/
def curveBits : Nat := 320

/-- π in units of 2^-320, rounded down. -/
def piFix : Nat :=
  0x3243F6A8885A308D313198A2E03707344A4093822299F31D0082EFA98EC4E6C89452821E638D01377

/-- The alternating series of cos for an angle below 2: each term is the last times θ² / (j (j + 1)). -/
def cosSeries (th2 : Nat) : Nat → Nat → Nat → Bool → Int → Int
  | 0, _, _, _, acc => acc
  | fuel + 1, j, t, neg, acc =>
    let t' := t * th2 / 2 ^ curveBits / (j * (j + 1))
    cosSeries th2 fuel (j + 2) t' (!neg) (if neg then acc - (t' : Int) else acc + (t' : Int))

/-- cos(π a / b) for a ≤ b, in units of 2^-320. -/
def cosPi (a b : Nat) : Int :=
  let half := decide (2 * a ≤ b)
  let a' := if half then a else b - a
  let th := piFix * a' / b
  let v := cosSeries (th * th / 2 ^ curveBits) 70 1 (2 ^ curveBits) true ((2 ^ curveBits : Nat) : Int)
  if half then v else -v

/-- Four times (1 + cos(π a / b)) / 2 where that is a whole number: the angles whose cosine is rational. -/
def cosRational (a b : Nat) : Option Nat :=
  if a = 0 then some 4 else if 3 * a = b then some 3 else if 2 * a = b then some 2
  else if 3 * a = 2 * b then some 1 else if a = b then some 0 else none

/-- The exact difference of two patterns. -/
def fpDiff (a b : W32) : Dy := Dy.add (fpDy a) (Dy.neg (fpDy b))

/-- Curve 2 between warm-up and end (Table 9.3). -/
def cosineRate (lr lrMin : W32) (a b : Nat) : W32 :=
  match cosRational a b with
  | some q => fpOfDy (Dy.add (fpDy lrMin) (Dy.mul (fpDiff lr lrMin) ⟨(q : Int), -2⟩))
  | none =>
    if (fpDiff lr lrMin).m = 0 then lr
    else
      let f : Dy := ⟨((2 ^ curveBits : Nat) : Int) + cosPi a b, -(curveBits : Int) - 1⟩
      let v := Dy.add (fpDy lrMin) (Dy.mul (fpDiff lr lrMin) f)
      fpPack false v.m.natAbs v.e true

/-- Curve 3 after warm-up: lr × √(w / n) (Table 9.3). -/
def rootRate (lr : W32) (w n : Nat) : W32 :=
  let d := fpDy lr
  let m := d.m.natAbs
  let k : Nat := 96
  let t := m * m * w * 2 ^ (2 * k)
  let q := isqrt (t / n)
  fpPack false q (d.e - (k : Int)) (q * q * n != t)

/-- Curve 4 (Table 9.3): points as pairs of step and rate, rising. -/
def pieceRate (u : Nat) : List (Nat × W32) → W32
  | [] => 0
  | [(_, r)] => r
  | (s0, r0) :: (s1, r1) :: rest =>
    if u ≤ s0 then r0
    else if u < s1 then
      fpRatio (Dy.add (Dy.mul (fpDy r0) ⟨((s1 - s0 : Nat) : Int), 0⟩)
        (Dy.mul (fpDiff r1 r0) ⟨((u - s0 : Nat) : Int), 0⟩)) (s1 - s0)
    else pieceRate u ((s1, r1) :: rest)

/-- A rate below 2^-126 is +0 (R215). -/
def plusRate (r : W32) : W32 := if fpIsZero r then 0 else r

/-- The rate lr at u (Table 9.3), before R215 replaces what is below 2^-126. -/
def rawRate (curve : Nat) (lr lrMin : W32) (w t u : Nat) (points : List (Nat × W32)) : W32 :=
  let warm := fpRatio (Dy.mul (fpDy lr) ⟨((u + 1 : Nat) : Int), 0⟩) w
  if curve = 0 then lr
  else if curve = 1 then
    if u < w then warm
    else if u < t then
      fpRatio (Dy.add (Dy.mul (fpDy lrMin) ⟨((t - w : Nat) : Int), 0⟩)
        (Dy.mul (fpDiff lr lrMin) ⟨((t - u : Nat) : Int), 0⟩)) (t - w)
    else lrMin
  else if curve = 2 then
    if u < w then warm else if u < t then cosineRate lr lrMin (u - w) (t - w) else lrMin
  else if curve = 3 then
    if u < w then warm else rootRate lr w (u + 1)
  else pieceRate u points

/-- The rate lr at u (R215, Table 9.3). -/
def curveRate (curve : Nat) (lr lrMin : W32) (w t u : Nat) (points : List (Nat × W32)) : W32 :=
  plusRate (rawRate curve lr lrMin w t u points)

/-- Fraction bits of the powers of R216. -/
def powBits : Nat := 448

/-- b^t in units of 2^-448 by squaring, over the 33 bits of t from the top. -/
def powFix (b t : Nat) : Nat → Nat → Nat
  | 0, acc => acc
  | n + 1, acc =>
    let sq := acc * acc / 2 ^ powBits
    powFix b t n (if (t / 2 ^ n) % 2 = 1 then sq * b / 2 ^ powBits else sq)

/-- The FP32 value nearest to num / (1 - beta^t) (R216). -/
def biasScale (num beta : W32) (t : Nat) : W32 :=
  let d := fpDy beta
  let b := d.m.natAbs * 2 ^ (d.e + (powBits : Int)).toNat
  let v := powFix b t 33 (2 ^ powBits)
  let n := fpDy num
  fpQuot false n.m.natAbs n.e (2 ^ powBits - v) (-(powBits : Int))

/-- The FP32 value nearest to 1 - a × b (R216). -/
def oneMinus (a b : W32) : W32 := fpOfDy (Dy.add ⟨1, 0⟩ (Dy.neg (Dy.mul (fpDy a) (fpDy b))))

end Sys2Proof.Machine
end

