-- ==== Sys2Proof/Machine/Feed.lean ====
section
/-! DEFINITION. The feed commands VEC, NORM, QUANT, GATHER_E and COPY (06, R147 to R158). -/

namespace Sys2Proof.Machine

open Sys2Proof

/-- Fits a row to n elements with +0. -/
def fitRow (n : Nat) (xs : List PV) : List PV := (xs ++ List.replicate (n - xs.length) PV.zero).take n

/-- The purpose code of a stochastic store (R148). -/
def srPurpose (kind : Nat) : Nat := kind + 1

/-! ## VEC -/

/-- minimum(maximum(a, -sa), sa) (Table 6.4, CLIP). -/
def clipVal (sa a : W32) : W32 := fpMin (fpMax a (fpNeg sa)) sa

/-- One output row of an elementwise VEC (Table 6.4, 0x00 to 0x08). -/
def vecRow (op act : Nat) (sa sb : W32) (a b c : List PV) : List PV :=
  match op with
  | 0 => a.zipWith (pv2 fpAdd) b
  | 1 => a.zipWith (pv2 fpMul) b
  | 2 => a.zipWith (pv2 (fun x y => fpAdd (fpMul x sa) y)) b
  | 3 => (a.zipWith (pv2 fpMul) b).zipWith (pv2 fpAdd) c
  | 4 => a.map (pv1 (fun x => fpAdd (fpMul x sa) sb))
  | 5 => a.map (pv1 (actOf act))
  | 6 => a.zipWith (pv2 (fun x y => fpMul (actOf act x) y)) b
  | 7 => a.zipWith (pv2 fpMax) b
  | _ => a.map (pv1 (clipVal sa))

/-- One output row of a row operation (Table 6.4, 0x09 to 0x0B); a poisoned element poisons the row (R158). -/
def vecRowOp (op : Nat) (sa : W32) (a : List PV) : List PV :=
  let p := a.any (·.p)
  let vs := a.map (·.v)
  let ys := if op = 9 then softmaxRow sa vs
    else if op = 0xA then (let (m, l, _) := softmaxParts sa vs; [m, l])
    else [fpSum (vs.map (fun x => fpMul x x))]
  ys.map (fun v => ⟨v, p⟩)

/-- Row i of an input of an elementwise VEC, fitted to n elements; a row that the input does not store reads as +0 (DESIGN CHOICE,
log 125). -/
def State.padRow (s : State) (x : Fin 16) (c : Fin 4) (t : Tensor) (rows cols n i : Nat) : List PV :=
  if i < t.storedRows rows then fitRow n (s.loadRow x c ⟨t, t.scale⟩ cols i) else List.replicate n PV.zero

/-- Runs a dispatched VEC (R147 to R149). An FP32 or BF16 TY that carries TA's ROT_T stores its pad rows too (R70, R148). -/
def State.runVec (s : State) (r : Run) (c : Fin 4) : State :=
  let d := r.cmd.desc
  let op := byteAt d 1
  let flags := byteAt d 2
  let rows := fld d 0xC 4
  let cols := fld d 0x10 4
  let step := r.cmd.word 0x24
  let layer := r.cmd.word 0x28
  let ty := r.cmd.tensorD 0xA
  let (s1, oy) := s.quantOpnd r.x ty step
  match oy with
  | none => s1.failRun r 0x0211
  | some oy =>
    let s2 := s1.cacheReads r.x c r.cmd.regions
    let seed := (s2.ctx r.x).jobSeed
    let n := if ty.fmt.quantised || decide (9 ≤ op) then cols else ty.storedCols cols
    let rd := fun (off i : Nat) =>
      match r.cmd.tensor off with
      | some t => s2.padRow r.x c t rows cols n i
      | none => []
    let all := if ty.fmt.quantised || decide (9 ≤ op) then rows else ty.storedRows rows
    let out := (List.range all).map (fun i =>
      let a := rd 4 i
      let y := if 9 ≤ op then vecRowOp op (r.cmd.word 0x14) a
        else vecRow op (byteAt d 3) (r.cmd.word 0x14) (r.cmd.word 0x18) a (rd 6 (if bit flags 1 then 0 else i)) (rd 8 i)
      let y := if bit flags 0 then
          dropoutRow (fld d 0x20 2) (r.cmd.word 0x1C) (rowDraws seed 1 ty step layer i 0 y.length) y
        else y
      (i, y))
    let purpose := if bit flags 2 then some (srPurpose (byteAt d 0x22)) else none
    s2.storeOut r c oy ⟨seed, step, layer, purpose⟩ (s2.stampOf r.x ty) 0 out

/-- VEC (R147). -/
def doVec (c : Fin 4) (s : State) : State :=
  match s.dispatchCore c (fun m => m.op == 0x20) with
  | none => s
  | some (s1, r) => s1.runVec r c

/-! ## NORM -/

/-- Runs a dispatched NORM (R150). -/
def State.runNorm (s : State) (r : Run) (c : Fin 4) : State :=
  let d := r.cmd.desc
  let rows := fld d 0xC 4
  let cols := fld d 0x10 4
  let step := r.cmd.word 0x18
  let layer := r.cmd.word 0x1C
  let tx := r.cmd.tensorD 2
  let (s1, oy) := s.quantOpnd r.x (r.cmd.tensorD 4) step
  match oy with
  | none => s1.failRun r 0x0211
  | some oy =>
    let s2 := s1.cacheReads r.x c r.cmd.regions
    let gain := s2.oneRow r.x c (r.cmd.tensorD 6) cols
    let shift := (r.cmd.tensor 8).map (fun t => s2.oneRow r.x c t cols)
    let out := (List.range rows).map (fun i =>
      (i, normRow (bits (byteAt d 1) 0 0) (r.cmd.word 0x14) gain shift
        (fitRow cols (s2.loadRow r.x c ⟨tx, tx.scale⟩ cols i))))
    s2.storeOut r c oy ⟨(s2.ctx r.x).jobSeed, step, layer, none⟩ (s2.stampOf r.x oy.t) 0 out

/-- NORM (R150). -/
def doNorm (c : Fin 4) (s : State) : State :=
  match s.dispatchCore c (fun m => m.op == 0x21) with
  | none => s
  | some (s1, r) => s1.runNorm r c

/-! ## QUANT -/

/-- Rotates a matrix forward as its destination marks it: columns first, then rows (R72, R151). -/
def rotateInto (t : Tensor) (seed : W64) (step layer : W32) (rows : List (List PV)) : List (List PV) :=
  let a := if t.fmt.quantised && t.rotK then rotCols false (rotKeyOf seed step layer t.streamK) t.col0 rows else rows
  if t.fmt.quantised && t.rotT then rotRowsDim false (rotKeyOf seed step layer t.streamT) t.row0 a else a

/-- Undoes the rotations that a source marks: rows first, then columns (R72, R151). -/
def rotateOut (t : Tensor) (seed : W64) (step layer : W32) (rows : List (List PV)) : List (List PV) :=
  let a := if t.rotT then rotRowsDim true (rotKeyOf seed step layer t.streamT) t.row0 rows else rows
  if t.rotK then rotCols true (rotKeyOf seed step layer t.streamK) t.col0 a else a

/-- Stores rows that are already rotated. -/
def State.storeRotated (s : State) (r : Run) (c : Fin 4) (o : Opnd) (m : StoreMode) (stamp : Nat)
    (rows : List (List PV)) : State :=
  let outs := rows.zipIdx.map (fun p => storeRowAt o m p.2 0 p.1)
  let d : Stored := ⟨outs.map (fun q => (q.1, q.2.bytes)), (outs.map (fun q => q.2.contribs)).flatten⟩
  let s1 := s.putStored r.x c o.t d
  let s2 := s1.contributeAll r.x c (mkContribs o.t.scaleRec m.step stamp d.contribs)
  s2.notePoison r (runsPoisoned d.runs)

/-- Runs a dispatched QUANT (R151). -/
def State.runQuant (s : State) (r : Run) (c : Fin 4) : State :=
  let d := r.cmd.desc
  let flags := byteAt d 1
  let rows := fld d 8 4
  let cols := fld d 0xC 4
  let step := r.cmd.word 0x10
  let layer := r.cmd.word 0x14
  let tx := r.cmd.tensorD 4
  let ty := r.cmd.tensorD 6
  let seed := (s.ctx r.x).jobSeed
  let (s1, oy) := s.quantOpnd r.x ty step
  match s.readOpnd r.x tx step, oy with
  | some ox, some oy =>
    let s2 := s1.cacheReads r.x c r.cmd.regions
    if bit flags 2 then
      let src := s2.loadRows r.x c ox cols 0 (tx.storedRows rows)
      let out := ((rotateOut tx seed step layer src).take rows).map (fitRow cols)
      s2.storeOut r c oy ⟨seed, step, layer, none⟩ 0 0 (out.zipIdx.map (fun p => (p.2, p.1)))
    else
      let src := (s2.loadRows r.x c ox cols 0 rows).map (fitRow cols)
      let m := if bit flags 0 then transposeRows PV.zero cols src else src
      let purpose := if bit flags 1 then some (srPurpose (byteAt d 2)) else none
      s2.storeRotated r c oy ⟨seed, step, layer, purpose⟩ (s2.stampOf r.x ty) (rotateInto ty seed step layer m)
  | _, _ => s1.failRun r 0x0211

/-- QUANT (R151). -/
def doQuant (c : Fin 4) (s : State) : State :=
  match s.dispatchCore c (fun m => m.op == 0x23) with
  | none => s
  | some (s1, r) => s1.runQuant r c

/-! ## GATHER_E -/

/-- The indices of a GATHER_E with their poison (Table 6.7). -/
def State.gatherIndices (s : State) (r : Run) (c : Fin 4) (count : Nat) : List PV :=
  s.oneRow r.x c (r.cmd.tensorD 2) count

/-- The padding index (R153). -/
def padIndex : W32 := 0xFFFFFFFF#32

/-- One gathered row as stored bytes (R153, R155). -/
def State.gatherRow (s : State) (r : Run) (c : Fin 4) (tt ty : Tensor) (cols tableRows : Nat) (i : PV) : List PByte :=
  let n := ty.rowBytes cols
  let bs := if i.v = padIndex || decide (tableRows ≤ i.v.toNat) then List.replicate n ⟨0, false⟩
    else if tt.format = ty.format then s.rowBytesOf r.x c tt cols i.v.toNat
    else (encodeRow ty.fmt 0 [] (fitRow (ty.storedCols cols) (decodeRow tt.fmt 0 (tt.storedCols cols) (s.rowBytesOf r.x c tt cols i.v.toNat)))).bytes
  let p := i.p || bs.any (·.p)
  bs.map (fun b => ⟨b.b, p⟩)

/-- An index that neither reaches the table nor is the padding index (R155). -/
def badIndex (tableRows : Nat) (i : PV) : Bool := !i.p && i.v != padIndex && decide (tableRows ≤ i.v.toNat)

/-- Scatter-add in index order: the rows of the table that were touched, with their new values (R154, R155). -/
def State.scatterRows (s : State) (r : Run) (c : Fin 4) (tt ty : Tensor) (cols : Nat) (is : List PV) :
    List (Nat × List PV) :=
  is.zipIdx.foldl (fun acc i =>
    if i.1.v = padIndex then acc
    else
      let k := i.1.v.toNat
      let old := match alookup k acc with
        | some v => v
        | none => s.loadRow r.x c ⟨tt, 0⟩ cols k
      let src := s.loadRow r.x c ⟨ty, 0⟩ cols i.2
      let p := src.any (·.p)
      ainsert k (old.zipWith (fun a b => (⟨fpAdd a.v b.v, a.p || p⟩ : PV)) src) acc) []

/-- The regions that a GATHER_E reads: of its table only the rows that an index names (R153). -/
def gatherReads (cmd : Cmd) (c : Fin 4) (tt : Tensor) (tableRows cols : Nat) (is : List PV) : List Region :=
  let all := tt.region c tableRows cols false
  cmd.regions.filter (· != all) ++ (if cmd.regions.contains all then
    (is.filter (fun i => i.v != padIndex && decide (i.v.toNat < tableRows))).map (fun i =>
      { all with base := tt.rowAddr i.v.toNat, rows := 1 }) else [])

/-- Runs a dispatched GATHER_E (R153 to R155). Where its regions overlap, which no check forbids, every source row and index is read as
it stood at dispatch (DESIGN CHOICE, log 119). A scatter-add with both a poisoned and an out-of-range index fails with 0x0249
(DESIGN CHOICE, log 120). -/
def State.runGather (s : State) (r : Run) (c : Fin 4) : State :=
  let d := r.cmd.desc
  let count := fld d 8 4
  let tableRows := fld d 0xC 4
  let cols := fld d 0x10 4
  let tt := r.cmd.tensorD 4
  let ty := r.cmd.tensorD 6
  let is := s.gatherIndices r c count
  let s1 := s.cacheReads r.x c (gatherReads r.cmd c tt tableRows cols is)
  if bit (byteAt d 1) 0 then
    if is.any (·.p) then s1.failRun r 0x0249
    else if is.any (badIndex tableRows) then s1.failRun r 0x0248
    else
      let rows := s1.scatterRows r c tt ty cols is
      s1.storeOut r c ⟨tt, 0⟩ ⟨0, 0, 0, none⟩ 0 0 rows
  else if is.any (badIndex tableRows) then s1.failRun r 0x0248
  else
    let runs := is.zipIdx.map (fun i => (ty.rowAddr i.2, s1.gatherRow r c tt ty cols tableRows i.1))
    (s1.rwriteRuns r.x ty.space c runs).notePoison r (runsPoisoned runs)

/-- GATHER_E (R153). -/
def doGatherE (c : Fin 4) (s : State) : State :=
  match s.dispatchCore c (fun m => m.op == 0x24) with
  | none => s
  | some (s1, r) => s1.runGather r c

/-! ## COPY -/

/-- The scale with which COPY decodes its source (R156): T_CUR as the record stands, without classification. -/
def State.copyScale (s : State) (x : Fin 16) (t : Tensor) : Option W32 :=
  if !t.fmt.quantised || t.scaleRec == 0xFFFF then some t.scale
  else
    let r := s.scaleRec x t.scaleRec
    if r.started then some r.tCur else none

/-- Runs a dispatched COPY (R156). -/
def State.runCopy (s : State) (r : Run) (c : Fin 4) : State :=
  let d := r.cmd.desc
  let rows := fld d 8 4
  let cols := fld d 0xC 4
  let ts := r.cmd.tensorD 2
  let td := r.cmd.tensorD 4
  let s1 := s.cacheReads r.x c r.cmd.regions
  if bit (byteAt d 1) 0 then
    match s1.copyScale r.x ts with
    | none => s1.failRun r 0x0211
    | some t =>
      let out := (List.range (ts.storedRows rows)).map (fun i =>
        (td.rowAddr i, (encodeRow td.fmt 0 [] (fitRow (td.storedCols cols) (s1.loadRow r.x c ⟨ts, t⟩ cols i))).bytes))
      (s1.rwriteRuns r.x td.space c out).notePoison r (runsPoisoned out)
  else
    let out := (List.range (ts.storedRows rows)).map (fun i => (td.rowAddr i, s1.rowBytesOf r.x c ts cols i))
    (s1.rwriteRuns r.x td.space c out).notePoison r (runsPoisoned out)

/-- COPY (R156). -/
def doCopy (c : Fin 4) (s : State) : State :=
  match s.dispatchCore c (fun m => m.op == 0x25) with
  | none => s
  | some (s1, r) => s1.runCopy r c

end Sys2Proof.Machine
end

