-- ==== Sys2Proof/Machine/Update.lean ====
section
/-! DEFINITION. UPDATE, PRECOND, ACQUIRE and RELEASE (09, R210 to R238, R527). -/

namespace Sys2Proof.Machine

open Sys2Proof

/-! ## Groups and their ranges -/

/-- A 32-bit field of an almanac entry as a word. -/
def entryWord (e : List Byte) (off : Nat) : W32 := BitVec.ofNat 32 (fld e off 4)

/-- Bands of a group (R210). -/
def bandCount (e : List Byte) : Nat := ceilDiv (almRows e) 128

/-- Blocks in a row of the group. -/
def blocksPerRow (e : List Byte) : Nat := almCols e / 128

/-- Preconditioner tiles of a group (R222). -/
def tileCount (e : List Byte) : Nat := bandCount e * blocksPerRow e

/-- The rows that an UPDATE covers. -/
def updRows (e desc : List Byte) : List Nat :=
  let lo := 128 * fld desc 0xC 4
  let hi := min (128 * (fld desc 0xC 4 + fld desc 0x10 4)) (almRows e)
  (List.range (hi - lo)).map (lo + ·)

/-- Address of a state block (R210). -/
def blockAddr (e : List Byte) (b : Nat) : Nat := almStateBase e + 832 * b

/-- Address of a preconditioner tile (R222). -/
def tileAddr (e : List Byte) (i : Nat) : Nat := almPreBase e + 262144 * i

/-- Address of a tile's status word (R222). -/
def tileStatusAddr (e : List Byte) (i : Nat) : Nat := almPreBase e + 262144 * tileCount e + 16 * i

/-- Every page of a range is placed on a stack of a core (R19, R212). -/
def State.homedOn (s : State) (c : Fin 4) (a n : Nat) : Bool :=
  (List.range ((a + n - 1) / 131072 + 1 - a / 131072)).all (fun i =>
    match s.homeOf (a / 131072 + i) with
    | some h => match h.home with
      | .placed st _ => coreOfStack st == c
      | _ => false
    | none => false)

/-- The ranges of state blocks and tiles that an UPDATE names: (address, bytes). -/
def updRanges (e desc : List Byte) : List (Nat × Nat) :=
  let rows := updRows e desc
  let nb := blocksPerRow e
  let st := match rows.head? with
    | some k => [(blockAddr e (k * nb), 832 * (nb * rows.length))]
    | none => []
  if almRule e = 2 then
    st ++ [(tileAddr e (fld desc 0xC 4 * nb), 262144 * (nb * fld desc 0x10 4))]
  else st

/-- The ranges of all state blocks of a group and, under BLOCKPRE, of all its tiles (R217). -/
def groupRanges (e : List Byte) : List (Nat × Nat) :=
  (almStateBase e, 832 * (blocksPerRow e * almRows e)) ::
    (if almRule e = 2 then [(almPreBase e, 262144 * tileCount e)] else [])

/-- The tiles that a PRECOND names (R212). -/
def preTiles (e desc : List Byte) : List (Nat × Nat) := [(tileAddr e (fld desc 8 4), 262144 * fld desc 0xC 4)]

/-- The tiles and status words that a PRECOND names. -/
def preRanges (e desc : List Byte) : List (Nat × Nat) :=
  preTiles e desc ++ [(tileStatusAddr e (fld desc 8 4), 16 * fld desc 0xC 4)]

/-- A copy or gradient tensor spans the group's rows and columns (R217). -/
def spansGroup (t : Tensor) (cols : Nat) : Bool := t.fullCols == cols && t.col0 == 0 && t.row0 == 0

/-- Shapes of an UPDATE against its group (R217). -/
def updShapesOk (cmd : Cmd) (e : List Byte) : Bool :=
  (match cmd.tensor 2 with | some t => spansGroup t (almCols e) | none => true) &&
  (match cmd.tensor 4 with | some t => spansGroup t (almRows e) | none => true) &&
  (match cmd.tensor 6 with | some t => spansGroup t (almCols e) | none => true)

/-- The moment records of a group have block-scaled S8 formats (R217). -/
def State.updRecordsOk (s : State) (x : Fin 16) (e : List Byte) : Bool :=
  let ok := fun i => (s.scaleRec x i).format == 3 || (s.scaleRec x i).format == 4
  ok (fld e 0x30 2) && (almRule e != 1 || ok (fld e 0x32 2))

/-- The band range of an UPDATE (R217). -/
def updBandsOk (e desc : List Byte) : Bool :=
  decide (fld desc 0x10 4 ≠ 0) && decide (fld desc 0xC 4 + fld desc 0x10 4 ≤ bandCount e)

/-- The tile range of a PRECOND (R236). -/
def preTilesOk (e desc : List Byte) : Bool :=
  decide (fld desc 0xC 4 ≠ 0) && decide (fld desc 8 4 + fld desc 0xC 4 ≤ tileCount e)

/-! ## Scalars (R215, R216) -/

/-- The scalars of an UPDATE. -/
structure UpdScalars where
  rule : Nat
  nesterov : Bool
  lr : W32
  kd : W32
  b1 : W32
  b2 : W32
  c1 : W32
  c2 : W32
  s1 : W32
  s2 : W32
  eps : W32
  gs : W32
  deriving DecidableEq, Repr

/-- The points of curve 4 (Table 9.2). -/
def curvePoints (e : List Byte) : List (Nat × W32) :=
  (List.range (bits (byteAt e 0x2F) 4 0)).map (fun j => (fld e (0x80 + 8 * j) 4, entryWord e (0x84 + 8 * j)))

/-- The rate at a step (R215). -/
def rateAt (e : List Byte) (step : Nat) : W32 :=
  let s0 := fld e 0x20 4
  curveRate (bits (byteAt e 0x2C) 2 0) (entryWord e 0) (entryWord e 4) (fld e 0x24 4) (fld e 0x28 4)
    (if s0 ≤ step then step - s0 else 0) (curvePoints e)

/-- The scalars of an update at a step with gradient factor gs, on the entry after its version has advanced (R216). -/
def updScalars (e : List Byte) (step : Nat) (gs : W32) : UpdScalars :=
  let lr := rateAt e step
  let t := if almVersion e = 0 then 2 ^ 32 else almVersion e
  { rule := almRule e, nesterov := bit (byteAt e 0x2E) 1, lr := lr, kd := oneMinus lr (entryWord e 0x14)
    b1 := entryWord e 8, b2 := entryWord e 0xC, c1 := oneMinus (entryWord e 8) fpOne
    c2 := oneMinus (entryWord e 0xC) fpOne, s1 := biasScale lr (entryWord e 8) t
    s2 := biasScale fpOne (entryWord e 0xC) t, eps := entryWord e 0x10, gs := gs }

/-! ## One state block -/

/-- The decoded contents of a state block with its gradient (R211, R219, R220). -/
structure BlockIn where
  p : List W32
  m1 : List W32
  m2 : List W32
  g : List W32
  poison : Bool
  deriving DecidableEq, Repr

/-- The moment key (R220): step 0, layer identifier GROUP, stream 0xFE or 0xFF. -/
def momentKey (seed : W64) (group stream : Nat) : RotKey := ⟨seed, 0, BitVec.ofNat 32 group, stream⟩

/-- Decodes and inverse-rotates one moment of a state block (R220). -/
def readMoment (f : Fmt) (key : RotKey) (b : Nat) (bs : List PByte) (off scaleOff tsOff : Nat) : List W32 :=
  let raw := bs.map (·.b)
  let ts := BitVec.ofNat 32 (fld raw tsOff 4)
  let vs := ((raw.drop off).take 128).map (fun c => (⟨dequant f ts (byteAt raw scaleOff) c.toNat, false⟩ : PV))
  (rotLine true key (128 * b) vs).map (·.v)

/-- Every negative second moment becomes +0 (R76). -/
def dropNegative (x : W32) : W32 := if fpSign x && !fpIsNaN x then 0#32 else x

/-- Reads a state block with the gradient row given (R219 to R221). -/
def State.readBlock (s : State) (seed : W64) (e : List Byte) (group b : Nat) (f1 f2 : Fmt) (gs : W32) (g : List PV) :
    BlockIn :=
  let bs := s.uread (blockAddr e b) 832
  let raw := bs.map (·.b)
  { p := (List.range 128).map (fun i => BitVec.ofNat 32 (fld raw (4 * i) 4))
    m1 := readMoment f1 (momentKey seed group 0xFE) b bs 0x200 0x300 0x304
    m2 := if almRule e = 1 then
        (readMoment f2 (momentKey seed group 0xFF) b bs 0x280 0x301 0x308).map dropNegative
      else List.replicate 128 0#32
    g := g.map (fun v => fpMul v.v gs)
    poison := bs.any (·.p) || g.any (·.p) }

/-- The new p, m1 and m2 of an element (R221); d gives the direction under BLOCKPRE. -/
def updElem (k : UpdScalars) (p m1 m2 g : W32) (d : Option W32) : W32 × W32 × W32 :=
  if k.rule = 0 then
    let m := fpAdd (fpMul k.b1 m1) g
    let dir := if k.nesterov then fpAdd (fpMul k.b1 m) g else m
    (fpSub (fpMul p k.kd) (fpMul k.lr dir), m, 0)
  else if k.rule = 1 then
    let m := fpAdd (fpMul k.b1 m1) (fpMul k.c1 g)
    let v2 := fpAdd (fpMul k.b2 m2) (fpMul k.c2 (fpMul g g))
    let v := fpMul v2 k.s2
    let sq := if v = 0#32 then 0#32 else fpMul v (fpRsqrt v)
    let dir := fpMul m (fpRecip (fpAdd sq k.eps))
    (fpSub (fpMul p k.kd) (fpMul k.s1 dir), m, v2)
  else
    (fpSub (fpMul p k.kd) (fpMul k.lr (d.getD 0)), m1, 0)

/-- The new first moment under BLOCKPRE (R221). -/
def preMoment (k : UpdScalars) (m1 g : W32) : W32 := fpAdd (fpMul k.b1 m1) (fpMul k.c1 g)

/-- Rotates and quantises a moment for its store (R223): scale code, element codes and contribution. -/
def storeMoment (f : Fmt) (seed : W64) (group stream : Nat) (ts : W32) (sr : Option (Nat × W32)) (b : Nat)
    (xs : List W32) : Block :=
  let ys := rotLine false (momentKey seed group stream) (128 * b) (xs.map (fun v => ⟨v, false⟩))
  let rs := match sr with
    | some (tag, step) => drawRun ⟨seed, 4, tag, step, BitVec.ofNat 32 group⟩ (128 * b) 128
    | none => []
  quantBlock f ts rs ys

/-- The 832 bytes of a new state block (Table 9.1). -/
def blockBytes (p : List W32) (m1 m2 : Block) (ts1 ts2 : W32) (step : Nat) : List Byte :=
  (p.map (fun v => leBytes 4 v.toNat)).flatten ++ m1.codes.map (BitVec.ofNat 8) ++ m2.codes.map (BitVec.ofNat 8) ++
  leBytes 1 m1.scale ++ leBytes 1 m2.scale ++ zeros 2 ++ leBytes 4 ts1.toNat ++ leBytes 4 ts2.toNat ++
  leBytes 4 step ++ zeros 48

/-- The zero M2 area of MOMENTUM and BLOCKPRE (R221). -/
def zeroMoment : Block := { scale := 0, codes := List.replicate 128 0, contrib := Contrib.none }

/-! ## Matrices of 128 × 128 (R222, R237) -/

abbrev Mat := List (List W32)

/-- Element (i, j) is the R52 sum over k of fp32(A[i][k] × B[k][j]). -/
def matMul (a b : Mat) : Mat :=
  let bt := transposeRows 0#32 128 b
  a.map (fun r => bt.map (fun c => fpSum (r.zipWith fpMul c)))

def matZip (f : W32 → W32 → W32) (a b : Mat) : Mat := a.zipWith (fun r t => r.zipWith f t) b

/-- A matrix by its indices. -/
def matMapIdx (f : Nat → Nat → W32 → W32) (a : Mat) : Mat :=
  a.zipIdx.map (fun r => r.1.zipIdx.map (fun v => f r.2 v.2 v.1))

def matAll (f : W32 → Bool) (a : Mat) : Bool := a.all (·.all f)

/-- The identity matrix. -/
def matOne : Mat := (List.range 128).map (fun i => (List.range 128).map (fun j => if i = j then fpOne else 0#32))

/-- Reads a matrix from a tile: values and poison. -/
def State.readMat (s : State) (a : Nat) : Mat × Bool :=
  let bs := s.uread a 65536
  (chunks 128 ((chunks 4 (bs.map (·.b))).map (fun c => BitVec.ofNat 32 (leNat c))), bs.any (·.p))

def matBytes (m : Mat) : List PByte := (m.flatten.map (fun v => (leBytes 4 v.toNat).map (fun b => (⟨b, false⟩ : PByte)))).flatten

/-! ## The loop of an UPDATE -/

/-- What an UPDATE carries through its blocks: the state, the reason it has failed with, and the blocks, or tiles under BLOCKPRE,
that it has gone through. -/
structure UpdLoop where
  st : State
  failed : Option Nat
  done : Nat

/-- The fixed inputs of a running UPDATE. -/
structure UpdFix where
  r : Run
  c : Fin 4
  e : List Byte
  group : Nat
  seed : W64
  k : UpdScalars
  step : W32
  f1 : Fmt
  f2 : Fmt
  ts1 : W32
  ts2 : W32
  sr : Option (Nat × W32)
  rec1 : Nat
  rec2 : Nat
  stamp1 : Nat
  stamp2 : Nat
  qPoison : Bool
  bad : List (Nat × Bool)
  fwd : Option (Opnd × Nat)
  bwd : Option (Opnd × Nat)
  mode : StoreMode

/-- The fault of a recompute that agreed with the witness path (R224; history unit KIND 4). -/
def updFault (s : State) (u : UpdFix) : FaultRec :=
  { (s.faultNow 0 0x0626 0x02).ofCmd u.r.x u.r.cmd with unitKind := 4, unit := u.c.val, transient := true }

/-- The fault of poison that reached a state block (R226, R420). -/
def sinkFault (s : State) (x : Fin 16) (cmd : Cmd) (reason : Nat) : FaultRec := (s.faultNow 2 reason 0x0C).ofCmd x cmd

/-- The gradient row k, inverse-rotated along its columns (R219). -/
def State.gradRow (s : State) (u : UpdFix) (og : Opnd) (layer : W32) (k : Nat) : List PV :=
  rotLine true (rotKeyOf u.seed u.step layer og.t.streamK) og.t.col0 (s.loadRow u.r.x u.c og (almCols u.e) k)

/-- The bytes of 128 elements of a row, stored inside their segment (R225, R33, R34): element bytes and scale bytes; the
last block of the row also writes the pads of its segment. -/
def storePiece (o : Opnd) (m : StoreMode) (r off : Nat) (last : Bool) (xs : List PV) : List (Nat × List PByte) × List Contrib :=
  let f := o.t.fmt
  let (_, out) := storeRowAt o m r off xs
  let seg := o.t.rowAddr r + off / f.segElems * f.segBytes
  if !f.quantised then ([(o.t.rowAddr r + off / f.segElems * f.segBytes, out.bytes)], out.contribs)
  else
    let es := if f == .s4 then 64 else 128
    let ss := if f == .s4 then 4 else 1
    let q := off % f.segElems / 128
    let eb := (out.bytes.take 256)
    let sb := (out.bytes.drop 256)
    let n := if last then 256 - q * es else es
    let k := if last || f.tensorOnly then 16 - q * ss else ss
    ([(seg + q * es, eb.take n), (seg + 256 + q * ss, sb.take k)], out.contribs)

/-- Stores pieces of a copy row, rotated along its columns as its descriptor marks it (R225; log 126). -/
def copyPiece (o : Opnd) (m : StoreMode) (r off : Nat) (last : Bool) (xs : List PV) : List (Nat × List PByte) × List Contrib :=
  let ys := if o.t.rotK
    then rotLine false (rotKeyOf m.seed m.step m.layer o.t.streamK) (o.t.col0 + off) xs else xs
  storePiece o m r off last ys

/-- Master parameters of a block as stored now. -/
def State.masters (s : State) (e : List Byte) (b : Nat) : List PV :=
  ((chunks 4 ((s.uread (blockAddr e b) 512).map (·.b))).map (fun c => (⟨BitVec.ofNat 32 (leNat c), false⟩ : PV)))

/-- Writes pieces of a copy and applies their contributions (R225). -/
def State.putCopy (s : State) (u : UpdFix) (o : Opnd × Nat) (ps : List (List (Nat × List PByte) × List Contrib)) : State :=
  (s.rwriteRuns u.r.x o.1.t.space u.c (ps.map (·.1)).flatten).contributeAll u.r.x u.c
    (mkContribs o.1.t.scaleRec u.mode.step o.2 (ps.map (·.2)).flatten)

/-- The new parameters of block b, written into TBWD after the block (R225). -/
def State.putBwd (s : State) (u : UpdFix) (b : Nat) (p : List W32) : State :=
  match u.bwd with
  | none => s
  | some o =>
    let nb := blocksPerRow u.e
    s.putCopy u o [copyPiece o.1 u.mode (b / nb) (128 * (b % nb)) (decide (b % nb + 1 = nb)) (p.map (fun v => ⟨v, false⟩))]

/-- A strip of a band, turned and written into TFWD after its last row (R225): rows k0 on, n of them, block columns js. -/
def State.putFwd (s : State) (u : UpdFix) (k0 n : Nat) (js : List Nat) : State :=
  match u.fwd with
  | none => s
  | some o =>
    let nb := blocksPerRow u.e
    let params := (List.range n).map (fun i => (js.map (fun j => s.masters u.e ((k0 + i) * nb + j))).flatten)
    s.putCopy u o ((transposeRows PV.zero (128 * js.length) params).zipIdx.map (fun p =>
      copyPiece o.1 u.mode (128 * js.headD 0 + p.2) k0 (decide (almRows u.e ≤ k0 + 128)) p.1))

/-- Writes one new block with its moments, whose contributions apply as it is written, and then its row of TBWD (R223 to R225;
03, R78). -/
def State.writeBlockNew (s : State) (u : UpdFix) (b : Nat) (p m1 m2 : List W32) : State :=
  let q1 := storeMoment u.f1 u.seed u.group 0xFE u.ts1 u.sr b m1
  let q2 := if u.k.rule = 1 then storeMoment u.f2 u.seed u.group 0xFF u.ts2 u.sr b m2 else zeroMoment
  let bs := blockBytes p q1 q2 u.ts1 (if u.k.rule = 1 then u.ts2 else fpOne) u.step.toNat
  let s1 := (s.uwrite (blockAddr u.e b) (bs.map (fun x => ⟨x, false⟩))).contributeAll u.r.x u.c
    (mkContribs u.rec1 u.step u.stamp1 [q1.contrib] ++
      (if u.k.rule = 1 then mkContribs u.rec2 u.step u.stamp2 [q2.contrib] else []))
  s1.putBwd u b p

/-- The comparison of the two paths for one block, or one tile under BLOCKPRE (R224, R226): the environment names the units whose main
path is corrupted and says of each whether the recompute agrees. Poison and a failed recompute end the command before the unit is
written; otherwise `write` writes it. -/
def UpdLoop.commit (l : UpdLoop) (u : UpdFix) (poison : Bool) (write : State → State) : UpdLoop :=
  match l.failed with
  | some _ => l
  | none =>
    if poison || u.qPoison then
      { l with st := l.st.detect (sinkFault l.st u.r.x u.r.cmd 0x0613), failed := some 0x0613 }
    else match alookup l.done u.bad with
      | some false => { l with failed := some 0x0420 }
      | some true => { st := (write l.st).detect (updFault l.st u), failed := none, done := l.done + 1 }
      | none => { st := write l.st, failed := none, done := l.done + 1 }

/-- The reads of a part that has not failed, as the stacks answer them (10, R247). -/
def UpdLoop.touch (l : UpdLoop) (u : UpdFix) (as : List (Nat × Nat)) : UpdLoop :=
  match l.failed with
  | some _ => l
  | none => { l with st := as.foldl (fun s a => s.touchRange a.1 a.2 (some u.c)) l.st }

/-- One block of MOMENTUM or ADAPTIVE. -/
def UpdLoop.block (l : UpdLoop) (u : UpdFix) (b : Nat) (g : List PV) : UpdLoop :=
  let l := l.touch u [(blockAddr u.e b, 832)]
  let i := l.st.readBlock u.seed u.e u.group b u.f1 u.f2 u.k.gs g
  let out := (i.p.zip (i.m1.zip (i.m2.zip i.g))).map (fun v => updElem u.k v.1 v.2.1 v.2.2.1 v.2.2.2 none)
  l.commit u i.poison (fun s => s.writeBlockNew u b (out.map (·.1)) (out.map (·.2.1)) (out.map (·.2.2)))

/-- One tile of BLOCKPRE (R222, R224): rows k0 on, n of them, block column j. The whole tile, S_L and S_R included, is compared before
any of it is written. -/
def UpdLoop.tile (l : UpdLoop) (u : UpdFix) (grad : List (List PV)) (k0 n j nb : Nat) : UpdLoop :=
  match l.failed with
  | some _ => l
  | none =>
    let l := l.touch u ((List.range n).map (fun i => (blockAddr u.e ((k0 + i) * nb + j), 832)) ++
      [(tileAddr u.e (k0 / 128 * nb + j), 0x40000)])
    let ins := (List.range n).map (fun i =>
      l.st.readBlock u.seed u.e u.group ((k0 + i) * nb + j) u.f1 u.f2 u.k.gs (((grad[i]?).getD []).drop (128 * j) |>.take 128))
    let base := tileAddr u.e (k0 / 128 * nb + j)
    let (sl, p1) := l.st.readMat base
    let (sr, p2) := l.st.readMat (base + 0x10000)
    let (rl, p3) := l.st.readMat (base + 0x20000)
    let (rr, p4) := l.st.readMat (base + 0x30000)
    let g := ins.map (·.g)
    let gt := transposeRows 0#32 128 g
    let sl' := matZip fpAdd (sl.map (·.map (fpMul u.k.b2))) (matMul g gt)
    let sr' := matZip fpAdd (sr.map (·.map (fpMul u.k.b2))) (matMul gt g)
    let m := ins.map (fun i => i.m1.zipWith (preMoment u.k) i.g)
    let d := matMul (matMul rl m) rr
    l.commit u (p1 || p2 || p3 || p4 || ins.any (·.poison)) (fun s =>
      let s1 := ins.zipIdx.foldl (fun (s : State) i =>
        let mi := (m[i.2]?).getD []
        let di := (d[i.2]?).getD []
        let out := (i.1.p.zip (mi.zip di)).map (fun v => updElem u.k v.1 v.2.1 0 0 (some v.2.2))
        s.writeBlockNew u ((k0 + i.2) * nb + j) (out.map (·.1)) mi []) s
      (s1.uwrite base (matBytes sl')).uwrite (base + 0x10000) (matBytes sr'))

/-- One strip of a band (R218, R225): its blocks, then its columns into TFWD. -/
def UpdLoop.strip (l : UpdLoop) (u : UpdFix) (grad : List (List PV)) (k0 n nb : Nat) (js : List Nat) : UpdLoop :=
  let l1 := if u.k.rule = 2 then js.foldl (fun l j => l.tile u grad k0 n j nb) l
    else grad.zipIdx.foldl (fun l g => js.foldl (fun l j =>
      l.block u ((k0 + g.2) * nb + j) ((g.1.drop (128 * j)).take 128)) l) l
  match l1.failed with
  | some _ => l1
  | none => { l1 with st := l1.st.putFwd u k0 n js }

/-- One band of an UPDATE (R218, R225), strip by strip of 2,048 columns. -/
def UpdLoop.band (l : UpdLoop) (u : UpdFix) (og : Opnd) (layer : W32) (k0 n : Nat) : UpdLoop :=
  match l.failed with
  | some _ => l
  | none =>
    let nb := blocksPerRow u.e
    let grad := (List.range n).map (fun i => l.st.gradRow u og layer (k0 + i))
    (chunks 16 (List.range nb)).foldl (fun l js => l.strip u grad k0 n nb js) l

/-- Bands of the rows that an UPDATE covers: (first row, rows). -/
def updBands (e desc : List Byte) : List (Nat × Nat) :=
  (List.range (fld desc 0x10 4)).map (fun i =>
    let k0 := 128 * (fld desc 0xC 4 + i)
    (k0, min 128 (almRows e - k0)))

/-! ## Dispatch of an UPDATE (R228 to R235, R527) -/

/-- The gradient factor f of R228: none when q is not a squared norm. -/
def clipFactor (clip q : W32) : Option W32 :=
  if !fpFinite q || (fpSign q && !fpIsZero q) then none
  else if fpIsZero q then some fpOne
  else some (fpMin fpOne (fpMul clip (fpRsqrt (fpAbs q))))

/-- PENDING that this UPDATE set is cleared (R233). -/
def State.dropPending (s : State) (r : Run) (c : Fin 4) (group : Nat) : State :=
  if (s.cc r.x c).setPending then
    (s.setStatus r.x group 0 false).modCC r.x c (fun k => { k with setPending := false })
  else s

/-- Runs the blocks of an UPDATE whose checks have passed. -/
def State.runBlocks (s : State) (u : UpdFix) (og : Opnd) (layer : W32) : State :=
  let l := (updBands u.e u.r.cmd.desc).foldl (fun (l : UpdLoop) b => l.band u og layer b.1 b.2)
    { st := s, failed := none, done := 0 }
  match l.failed with
  | none => l.st
  | some reason =>
    let s1 := if reason = 0x0420 then l.st.setStatus u.r.x u.group 3 true else l.st
    s1.failClean u.r reason

/-- The part of an UPDATE after its gradient factor is known: records are classified before any write (R223), a FIRST
part advances the version (R233), and the blocks run. A moment record that is stale fails the command before any write; a gradient
or copy record that is fails it under R61, and the copies are poisoned. -/
def State.startUpdate (s : State) (r : Run) (c : Fin 4) (e : List Byte) (group : Nat) (first : Bool) (gs : W32)
    (qPoison : Bool) (bad : List (Nat × Bool)) : State :=
  let d := r.cmd.desc
  let step := r.cmd.word 0x14
  let layer := r.cmd.word 0x18
  let copyStep := r.cmd.word 0x1C
  let adaptive := decide (almRule e = 1)
  let rec1 := fld e 0x30 2
  let rec2 := fld e 0x32 2
  let opt := fun (s : State) (off : Nat) => match r.cmd.tensor off with
    | none => (s, some (none : Option (Opnd × Nat)))
    | some t => let (s1, o) := s.quantOpnd r.x t copyStep; (s1, o.map (fun o => some (o, s1.stampOf r.x t)))
  let (s1, t1) := s.quantScale r.x rec1 0 step
  let (s2, t2) := if adaptive then s1.quantScale r.x rec2 0 step else (s1, some fpOne)
  let (s3, fwd) := opt s2 4
  let (s4, bwd) := opt s3 6
  match t1, t2, fwd, bwd, s.readOpnd r.x (r.cmd.tensorD 2) step with
  | some t1, some t2, some fwd, some bwd, some og =>
    let s5 := (s4.dropPending r c group).cacheReads r.x c r.cmd.regions
    let s6 := if first then
        let v := leBytes 4 ((almVersion e + 1) % 2 ^ 32)
        (((s5.putAlm r.x group 0x50 v).setStatus r.x group 1 true).setStatus r.x group 2 false).putAlm r.x group 0x5C
          (leBytes 4 step.toNat ++ leBytes 4 gs.toNat)
      else s5
    let e' := (s6.almEntry r.x group).getD e
    let fmt := fun i => (fmtOf (s6.scaleRec r.x i).format).getD .s8eB
    let u : UpdFix := { r := r, c := c, e := e', group := group, seed := (s6.ctx r.x).jobSeed
                        k := updScalars e' step.toNat gs, step := step, f1 := fmt rec1, f2 := fmt rec2, ts1 := t1
                        ts2 := t2, sr := if bit (byteAt d 1) 2 then some (byteAt d 0x26, step) else none, rec1 := rec1
                        rec2 := rec2, stamp1 := (s6.scaleRec r.x rec1).stamp, stamp2 := (s6.scaleRec r.x rec2).stamp
                        qPoison := qPoison, bad := bad, fwd := fwd, bwd := bwd
                        mode := ⟨(s6.ctx r.x).jobSeed, copyStep, layer, none⟩ }
    s6.runBlocks u og layer
  | some _, some _, _, _, _ => (s4.dropPending r c group).failRun r 0x0211
  | _, _, _, _, _ => (s4.dropPending r c group).failClean r 0x0211

/-- A skipped part (R229). -/
def State.skipUpdate (s : State) (r : Run) (c : Fin 4) (group : Nat) (last : Bool) : State :=
  let s1 := (s.dropPending r c group).setStatusOut r 0x0418
  if last then s1.setStatus r.x group 2 false else s1

/-- A FIRST part (R228, R229). -/
def State.firstUpdate (s : State) (r : Run) (c : Fin 4) (e : List Byte) (group : Nat) (last : Bool)
    (bad : List (Nat × Bool)) : State :=
  let clip := entryWord e 0x18
  let gscale := r.cmd.word 0x20
  let src := fld r.cmd.desc 0x28 8
  if almUpdating e then (s.dropPending r c group).failClean r 0x0413
  else if clip = 0#32 then s.startUpdate r c e group true (fpMul gscale fpOne) false bad
  else if src = 0 then (s.dropPending r c group).failClean r 0x040A
  else
    let s := s.touchRange src 4 (some c)
    let bs := s.uread src 4
    let q : W32 := BitVec.ofNat 32 (leNat (bs.map (·.b)))
    if bs.any (·.p) then s.startUpdate r c e group true (fpMul gscale fpOne) true bad
    else match clipFactor clip q with
      | some f => s.startUpdate r c e group true (fpMul gscale f) false bad
      | none =>
        let n : W32 := satAdd (entryWord e 0x68) 1
        (((s.putAlm r.x group 0x68 (leBytes 4 n.toNat)).setStatus r.x group 2 true).putAlm r.x group 0x5C
          (leBytes 4 (r.cmd.word 0x14).toNat)).skipUpdate r c group last

/-- Runs a dispatched UPDATE (R230, R234, R235, R527). -/
def State.runUpdate (s : State) (r : Run) (c : Fin 4) (bad : List (Nat × Bool)) : State :=
  let d := r.cmd.desc
  let group := groupAt d 8
  let first := bit (byteAt d 1) 0
  let last := bit (byteAt d 1) 1
  match s.almEntry r.x group with
  | none => (s.modCC r.x c (fun k => { k with setPending := false })).failClean r 0x0403
  | some e =>
    if !(updShapesOk r.cmd e && updBandsOk e d && s.updRecordsOk r.x e) then
      (s.dropPending r c group).failClean r 0x0403
    else if almFault e then (s.dropPending r c group).failClean r 0x0416
    else if almFrozen e then
      let n : W32 := satAdd (entryWord e 0x64) 1
      ((s.dropPending r c group).putAlm r.x group 0x64 (leBytes 4 n.toNat)).setStatusOut r 0x0419
    else if !(updRanges e d).all (fun g => s.homedOn c g.1 g.2) then (s.dropPending r c group).failClean r 0x0402
    else if first then s.firstUpdate r c e group last bad
    else if r.cmd.word 0x14 ≠ entryWord e 0x5C then s.failClean r 0x0413
    else if almSkip e then s.skipUpdate r c group last
    else if !almUpdating e then s.failClean r 0x0413
    else s.startUpdate r c e group false (entryWord e 0x60) false bad

/-- An UPDATE at the head sets PENDING when references remain (R233): it is otherwise eligible, and neither PENDING nor
UPDATING is set. What it has waited on another UPDATE's PENDING counts towards its own WAIT_MS. -/
def State.markPending (s : State) (x : Fin 16) (c : Fin 4) : State :=
  match (s.cc x c).head with
  | some (cmd, ev) =>
    if cmd.op == 0x30 && bit (byteAt cmd.desc 1) 0 && s.clearAhead x (some c) ev cmd && s.claimsFree x (some c) cmd then
      match s.almEntry x (groupAt cmd.desc 8) with
      | some e =>
        if almFault e || almFrozen e || almUpdating e || almPending e || decide (almRefs e = 0) then s
        else (s.setStatus x (groupAt cmd.desc 8) 0 true).modCC x c (fun k => { k with setPending := true })
      | none => s
    else s
  | none => s

/-- UPDATE (R218, R233): the head UPDATE of a context on a core sets PENDING and waits, or is dispatched. -/
def doUpdate (c : Fin 4) (x : Fin 16) (bad : List (Nat × Bool)) (s : State) : State :=
  match s.dispatchCore c (fun m => m.op == 0x30) with
  | some (s1, r) => if r.x = x then s1.runUpdate r c bad else s.markPending x c
  | none => s.markPending x c

/-! ## PRECOND (R237, R238) -/

/-- One iteration of R237 from x and m. -/
def rootStep (x m : Mat) : Mat × Mat :=
  let t := matMapIdx (fun i j v =>
    fpSub (if i = j then 0x3FA00000#32 else 0#32) (fpMul 0x3E800000#32 v)) m
  let t2 := matMul t t
  (matMul x t, matMul (matMul t2 t2) m)

/-- The test of R237. -/
def rootClose (m : Mat) : Bool :=
  let d := (matMapIdx (fun i j v => fpAbs (fpSub v (if i = j then fpOne else 0#32))) m).flatten
  fpLe (d.foldl fpMax 0#32) 0x3A800000#32 && d.all fpFinite

/-- The iterations of an attempt: fuel left, iteration number. -/
def rootIter : Nat → Nat → Mat → Mat → Option (Mat × Nat)
  | 0, _, _, _ => none
  | fuel + 1, n, x, m =>
    let (x', m') := rootStep x m
    if !(matAll fpFinite x' && matAll fpFinite m') then none
    else if rootClose m' then some (x', n) else rootIter fuel (n + 1) x' m'

/-- One attempt of R237 with damping e. -/
def rootAttempt (a : Mat) (e : W32) : Option (Mat × Nat) :=
  let b := matMapIdx (fun i j v => if i = j then fpAdd v e else v) a
  let q := fpSum (b.map (·.map (fun v => fpMul v v))).flatten
  if fpIsZero q || !fpFinite q then none
  else
    let rq := fpRsqrt q
    let m := b.map (·.map (fun v => fpMul v rq))
    let d := fpRsqrt (fpRsqrt rq)
    rootIter 24 1 (matMapIdx (fun i j _ => if i = j then d else 0#32) a) m

/-- A root (R237): the matrix, identity, retry and iterations. -/
structure Root where
  m : Mat
  ident : Bool
  retry : Bool
  iters : Nat
  deriving DecidableEq, Repr

def findRoot (a : Mat) (e : W32) : Root :=
  match rootAttempt a e with
  | some (m, n) => ⟨m, false, false, n⟩
  | none =>
    match rootAttempt a (fpMul e (fpOfNat 100)) with
    | some (m, n) => ⟨m, false, true, n⟩
    | none => ⟨matOne, true, true, 24⟩

/-- One side of a tile: its root is written, and a fall back to the identity posts event 0x0421 (R238). Poison of the
statistics poisons the root (R418). -/
def State.preSide (s : State) (r : Run) (c : Fin 4) (e : List Byte) (group tile side : Nat) : State × Root :=
  let base := tileAddr e tile
  let s := s.touchRange (base + 0x10000 * side) 0x10000 (some c)
  let (a, p) := s.readMat (base + 0x10000 * side)
  let root := findRoot a (entryWord e 0x1C)
  let bs := (matBytes root.m).map (fun b => (⟨b.b, p⟩ : PByte))
  let s1 := (s.uwrite (base + 0x20000 + 0x10000 * side) bs).notePoison r p
  (if root.ident then s1.event r.x 0x0421 (detail [(0, 4, group), (4, 4, tile), (8, 1, side)]) else s1, root)

/-- One tile of a PRECOND (R237). -/
def State.preTile (s : State) (r : Run) (c : Fin 4) (e : List Byte) (group tile : Nat) : State :=
  let (s1, l) := s.preSide r c e group tile 0
  let (s2, rr) := s1.preSide r c e group tile 1
  let flags := b2n l.ident + 2 * b2n rr.ident + 4 * b2n l.retry + 8 * b2n rr.retry
  let bs := leBytes 4 flags ++ leBytes 2 l.iters ++ leBytes 2 rr.iters ++ leBytes 4 (fld r.cmd.desc 0x10 4) ++ zeros 4
  s2.uwrite (tileStatusAddr e tile) (bs.map (fun b => ⟨b, false⟩))

/-- Runs a dispatched PRECOND (R236, R237, R527). -/
def State.runPrecond (s : State) (r : Run) (c : Fin 4) : State :=
  let d := r.cmd.desc
  let group := groupAt d 4
  match s.almEntry r.x group with
  | none => s.failClean r 0x0403
  | some e =>
    if almRule e ≠ 2 || !preTilesOk e d then s.failClean r 0x0403
    else if !(preTiles e d).all (fun g => s.homedOn c g.1 g.2) then s.failClean r 0x0402
    else (List.range (fld d 0xC 4)).foldl (fun s i => s.preTile r c e group (fld d 8 4 + i)) s

/-- PRECOND (R237). -/
def doPrecond (c : Fin 4) (s : State) : State :=
  match s.dispatchCore c (fun m => m.op == 0x31) with
  | none => s
  | some (s1, r) => s1.runPrecond r c

/-! ## ACQUIRE and RELEASE (R231, R232) -/

/-- ACQUIRE (R231). -/
def doAcquire (q : QRef) (s : State) : State :=
  match s.dispatchQ q (fun m => m.op == 0x61) with
  | none => s
  | some (s1, r) =>
    let g := groupAt r.cmd.desc 4
    let s2 := match s1.almEntry r.x g with
      | none => s1.failClean r 0x0403
      | some e =>
        if almFault e then s1.failClean r 0x0416
        else if almVersion e ≠ fld r.cmd.desc 8 4 then s1.failClean r 0x0410
        else if almRefs e = 65535 then s1.failClean r 0x0415
        else s1.putAlm r.x g 0x54 (leBytes 2 (almRefs e + 1))
    s2.finishNow q r

/-- RELEASE (R232). -/
def doRelease (q : QRef) (s : State) : State :=
  match s.dispatchQ q (fun m => m.op == 0x62) with
  | none => s
  | some (s1, r) =>
    let g := groupAt r.cmd.desc 4
    let s2 := match s1.almEntry r.x g with
      | none => s1.failClean r 0x0403
      | some e =>
        if almRefs e = 0 then s1.failClean r 0x0411 else s1.putAlm r.x g 0x54 (leBytes 2 (almRefs e - 1))
    s2.finishNow q r

/-! ## Time-outs (R231, R233) -/

/-- A wait limit field in pilot cycles: 0 selects a default in milliseconds. -/
def waitLimit (field dflt : Nat) : Nat := (if field = 0 then dflt else field) * 50000

/-- The head command of a queue with its own wait: context, core, class, command and pilot cycles waited. -/
def State.waiting (s : State) (q : QRef) (x : Fin 16) : Option (Option (Fin 4) × Bool × Cmd × Nat) :=
  match q with
  | .core c => match (s.cc x c).head with
    | some (cmd, ev) => some (some c, ev, cmd, if ev then (s.cc x c).evalWait else (s.cc x c).wait)
    | none => none
  | .fabric y => (s.ctx y).fabric.head?.map (fun cmd => (none, false, cmd, (s.ctx y).fabricWait))
  | .memory y => (s.ctx y).memory.head?.map (fun cmd => (none, false, cmd, (s.ctx y).memoryWait))

/-- Fails a waiting head command. -/
def State.failWaiting (s : State) (q : QRef) (x : Fin 16) (cmd : Cmd) (ev : Bool) (reason : Nat) (poison : Bool) : State :=
  match q with
  | .core c => s.failHeadCore x c ev cmd reason poison
  | .fabric y => s.failHeadQueue y true cmd reason poison
  | .memory y => s.failHeadQueue y false cmd reason poison

/-- The context of a queue: the operand's for a core queue. -/
def ctxOfQueue (q : QRef) (x : Fin 16) : Fin 16 :=
  match q with
  | .core _ => x
  | .fabric y => y
  | .memory y => y

/-- ACQUIRE_TIMEOUT (R231). -/
def doAcquireTimeout (q : QRef) (x : Fin 16) (s : State) : State :=
  match s.waiting q x with
  | some (_, ev, cmd, n) =>
    if cmd.op == 0x61 && !s.acquireReady (ctxOfQueue q x) cmd.desc && decide (waitLimit (fld cmd.desc 2 2) 100 ≤ n)
    then s.failWaiting q x cmd ev 0x0414 false else s
  | none => s

/-- UPDATE_WAIT_TIMEOUT (R233). -/
def doUpdateWaitTimeout (c : Fin 4) (x : Fin 16) (s : State) : State :=
  match s.waiting (.core c) x with
  | some (_, ev, cmd, n) =>
    if cmd.op == 0x30 && !s.updateReady x c cmd.desc && decide (waitLimit (fld cmd.desc 0x24 2) 100 ≤ n) then
      s.failHeadCore x c ev cmd 0x0412 false
    else s
  | none => s

end Sys2Proof.Machine
end

