-- ==== Sys2Proof/Machine/Spans.lean ====
section
/-! DEFINITION. Fences, hints, census commands and NOP; the end of commands; replay spans and the decision on captured
rows; the watchdogs of queues (13; 16, R393 to R406; 07, R181, R182). -/

namespace Sys2Proof.Machine

open Sys2Proof

/-! ## FENCE (13, R331 to R334) -/

/-- Adds one to a token (R331). -/
def State.addToken (s : State) (x : Fin 16) (t : Nat) : State :=
  s.modCtx x (fun k => { k with tokens := vmod k.tokens (ix 256 t) (· + 1) })

/-- What a FENCE SIGNAL does when it takes effect: its token, and the step boundary of BOUNDARY (R331, R339). -/
def State.signal (s : State) (x : Fin 16) (q : Nat) (cmd : Cmd) : State :=
  let s1 := s.addToken x (byteAt cmd.desc 2)
  if bit (byteAt cmd.desc 3) 0 && decide (q < 4) then s1.stepBoundary x (ix 4 q) else s1

/-- A command of an operation with a given byte 1. -/
def isForm (op sub : Nat) (m : Cmd) : Bool := m.op == op && byteAt m.desc 1 == sub

/-- No command of a fabric or memory queue is running: what a command that waits for every earlier one needs. -/
def State.queueIdle (s : State) (q : QRef) : Bool :=
  match q with
  | .core _ => true
  | .fabric x => (s.ctx x).fabricRun.isEmpty
  | .memory x => (s.ctx x).memoryRun.isEmpty

/-- A run stands inside an open span of its core. -/
def State.inSpan (s : State) (q : QRef) (r : Run) : Bool :=
  match q with
  | .core c => (s.spanFor r.x c r.cmd.eval).isSome
  | _ => false

/-- FENCE SIGNAL (R331, R334). -/
def doFenceSignal (q : QRef) (s : State) : State :=
  if !s.queueIdle q then s
  else match s.dispatchQ q (isForm 0x60 0) with
    | none => s
    | some (s1, r) => if s1.inSpan q r then s1.finishNow q r else (s1.signal r.x r.cmd.queue r.cmd).finishNow q r

/-- FENCE WAIT (R332). -/
def doFenceWait (q : QRef) (s : State) : State :=
  match s.dispatchQ q (isForm 0x60 1) with
  | none => s
  | some (s1, r) => s1.finishNow q r

/-- FENCE_WAIT_TIMEOUT (R333). -/
def doFenceWaitTimeout (q : QRef) (x : Fin 16) (s : State) : State :=
  match s.waiting q x with
  | some (_, ev, cmd, n) =>
    if isForm 0x60 1 cmd && !s.fenceHolds (ctxOfQueue q x) cmd.desc && decide (waitLimit (fld cmd.desc 8 2) 1000 ≤ n)
    then s.failWaiting q x cmd ev 0x0221 false else s
  | none => s

/-! ## NOP, HINT and CENSUS -/

/-- NOP (12, R306). -/
def doNop (q : QRef) (s : State) : State :=
  match s.dispatchQ q (fun m => m.op == 0x67) with
  | none => s
  | some (s1, r) => s1.finishNow q r

/-- The cores that a HINT names (18, Table 18.2). -/
def hintCores (q : Nat) (desc : List Byte) : List (Fin 4) :=
  let m := bits (byteAt desc 2) 3 0
  if m = 0 then [ix 4 q] else (List.finRange 4).filter (fun c => bit m c.val)

/-- HINT (18, R450, R451): it replaces the context's hint for every core it names; a replay repeats it to no effect. -/
def doHint (q : QRef) (s : State) : State :=
  match s.dispatchQ q (fun m => m.op == 0x65) with
  | none => s
  | some (s1, r) =>
    let replay := match q with
      | .core c => (match s1.spanFor r.x c r.cmd.eval with | some sp => sp.replay | none => false)
      | _ => false
    let us := fld r.cmd.desc 4 4
    let h : Hint := { level := bits (byteAt r.cmd.desc 1) 1 0, expires := if us = 0 then none else some (s1.pilot + 50 * us) }
    let s2 := if replay then s1
      else (hintCores r.cmd.queue r.cmd.desc).foldl (fun s c => s.modCC r.x c (fun k => { k with hint := some h })) s1
    s2.finishNow q r

/-- CLOSE of a CENSUS (03, R81): rolls every started record of the range whose S_CUR is the step. -/
def State.censusClose (s : State) (x : Fin 16) (first count : Nat) (step : W32) : State :=
  (List.range count).foldl (fun s i =>
    let r := s.scaleRec x (first + i)
    if r.started && r.sCur == step then s.rollRec x (first + i) (step + 1) else s) s

/-- COPY of a CENSUS: one summary per record. -/
def State.censusCopy (s : State) (x : Fin 16) (first count dest : Nat) : State :=
  (List.range count).foldl (fun s i =>
    s.uwrite (dest + 64 * i) ((s.scaleRec x (first + i)).summary.map (fun b => ⟨b, false⟩))) s

/-! ## The end of a command (R330) -/

/-- Array cycles of a pilot cycle: 28 at 1.4 GHz, 20 under the 1.0 GHz limit (19). -/
def State.cyclesPerPilot (s : State) : Nat := if s.clock.limited then 20 else 28

/-- No write of a command of the context stalls or waits: neither on a page in motion nor for deep granules (11, R280,
R283). -/
def State.writesLanded (s : State) (x : Fin 16) : Bool :=
  s.tiers.moves.all (fun m => m.x != x || m.stalled.isEmpty) && s.tiers.deepWaits.all (fun w => w.x != x)

/-- What a running command may write of the unified range: its regions, and for an UPDATE or PRECOND the state blocks, tiles and status
words of its group (09, R210, R222). -/
def State.writesOf (s : State) (r : Run) : List Region :=
  let g := if r.cmd.op = 0x30 then some (groupAt r.cmd.desc 8) else if r.cmd.op = 0x31 then some (groupAt r.cmd.desc 4) else none
  r.cmd.regions.filter (·.write) ++ (match g.bind (s.almEntry r.x) with
    | some e => (groupRanges e ++ [(tileStatusAddr e 0, 16 * tileCount e)]).map (fun p => { bytesRegion 1 0 p.1 p.2 with write := true })
    | none => [])

/-- No write of a command stalls on a page in motion or waits for deep granules (13, R335; 11, R280, R283). -/
def State.landed (s : State) (r : Run) : Bool :=
  let free := fun (a n : Nat) => (s.writesOf r).all (fun g => !g.overlaps (bytesRegion 1 0 a n))
  s.tiers.moves.all (fun m => m.x != r.x || m.stalled.all (fun w => free (m.page * 131072 + w.1) w.2.1.length)) &&
    s.tiers.deepWaits.all (fun w => w.x != r.x || free (w.page * 131072 + w.block * 4096 + w.off) w.bytes.length)

/-- CENSUS (03, R81): it acts after every earlier command of its queue. A COPY whose writes stall or wait completes
once they have landed (13, R335). -/
def doCensus (q : QRef) (s : State) : State :=
  if !s.queueIdle q then s
  else match s.dispatchQ q (fun m => m.op == 0x66) with
    | none => s
    | some (s1, r) =>
      let d := r.cmd.desc
      let s2 := if bit (byteAt d 1) 0 then s1.censusClose r.x (fld d 2 2) (fld d 4 2) (r.cmd.word 8) else s1
      let s3 := if bit (byteAt d 1) 1 then s2.censusCopy r.x (fld d 2 2) (fld d 4 2) (fld d 0x10 8) else s2
      if s3.landed r then s3.finishNow q r else s3

/-- The work of the command running on a core has ended. -/
def State.coreDone (s : State) (c : Fin 4) (r : Run) : Bool :=
  !r.busy && (s.core c).epi.isEmpty && [0, 1].all (fun b => (s.arr (arrayOf c b)).rows.isEmpty) &&
    s.power.rampReqs.all (fun q => q.core != c) && (r.out.failed || s.landed r)

/-- A PIN or UNPIN waits for the moves in progress on its range (11, R287). -/
def State.pinWaits (s : State) (cmd : Cmd) : Bool :=
  (cmd.op == 0x52 || cmd.op == 0x53) && s.tiers.moves.any (fun m =>
    decide (fld cmd.desc 4 4 ≤ m.page) && decide (m.page < fld cmd.desc 4 4 + fld cmd.desc 8 4) && s.moving m.page)

/-! ## Replay spans (16, R397 to R406) -/

/-- The commands of a span that are still queued: those before its SPAN_CLOSE. -/
def spanBody : List Cmd → List Cmd
  | [] => []
  | c :: r => if c.op = 0x64 then [] else c :: spanBody r

/-- The inputs of a span (R395). -/
def spanInputsOf (cmds : List Cmd) : List Region :=
  (cmds.foldl (fun (p : List Region × List Region) c =>
    (p.1 ++ c.regions.filter (·.write), p.2 ++ spanInputs p.1 c.regions)) ([], [])).2

/-- Clears what a span leaves on the arrays of its core. -/
def State.clearCaptures (s : State) (c : Fin 4) : State :=
  [0, 1].foldl (fun s b => s.modArr (arrayOf c b) (fun t => { t with
    captures := [], missed := [], fresh := false, spanDisagree := 0 })) s

/-- The queue of a class. -/
def CtxCore.queueOf (k : CtxCore) (ev : Bool) : List Cmd := if ev then k.eval else k.main

/-- SPAN_OPEN (R397): the span opens and holds its input granules. -/
def doSpanOpen (c : Fin 4) (s : State) : State :=
  match s.dispatchCore c (fun m => m.op == 0x63) with
  | none => s
  | some (s1, r) =>
    let s2 := (s1.finishCore c 0).clearCaptures c
    let sp : Span :=
      { x := r.x, eval := r.cmd.eval, id := fld r.cmd.desc 2 2, opener := r.cmd, count := 0, cmds := [], done := []
        contribs := [], claims := [], made := [], writes := []
        inputs := spanInputsOf (spanBody ((s2.cc r.x c).queueOf r.cmd.eval))
        replay := false, usedReplay := false, replayDue := false, faults := 0 }
    s2.modCore c (fun k => { k with span := some sp })

/-- Releases the end of one span command at the close (R398): its signal, its counters and its entry. -/
def State.releaseDone (s : State) (x : Fin 16) (c : Fin 4) (d : Cmd × Done × Nat) : State :=
  let s1 := if d.1.op = 0x60 then s.signal x c.val d.1 else s
  let s2 := s1.modCC x c (·.countRun d.1 d.2.1.failed d.2.2)
  s2.report x d.1 d.2.1

/-- SPAN_REPLAY (R401): the outputs of the original are discarded and its commands run again, on the same lanes and with
no look-ahead load. -/
def doSpanReplay (c : Fin 4) (s : State) : State :=
  match (s.core c).running, (s.core c).span with
  | none, some sp =>
    if !sp.replayDue || !s.fastUp then s
    else
      let n := sp.cmds.length
      let s1 := s.modCC sp.x c (fun k =>
        let k1 := if sp.eval then { k with eval := sp.cmds ++ k.eval, admitted := k.admitted + n }
          else { k with main := sp.cmds ++ k.main }
        { k1 with replays := satAdd k1.replays 1 })
      let s2 := s1.modCore c (fun k => { k with span := some { sp with
        cmds := [], done := [], contribs := [], claims := [], made := sp.claims.map (·.2.1)
        replay := true, usedReplay := true, replayDue := false } })
      s2.dropShadows c
  | _, _ => s

/-- Takes the rest of a failed span out of its queue: its commands and its SPAN_CLOSE. -/
def State.dropSpanRest (s : State) (c : Fin 4) (sp : Span) : State × List Cmd :=
  let q := (s.cc sp.x c).queueOf sp.eval
  let rest := q.take ((spanBody q).length + 1)
  (s.modCC sp.x c (fun k =>
    if sp.eval then { k with eval := q.drop rest.length, admitted := k.admitted - rest.length }
    else { k with main := q.drop rest.length }), rest)

/-- Ends the command of a span that is still running when its span fails: it stops, charged with the cycles it has had. -/
def State.stopSpanRun (s : State) (c : Fin 4) (r : Run) : State :=
  let s1 := (s.stopIssue c).modCore c (fun k => { k with running := none, epi := [] })
  let s2 := [0, 1].foldl (fun s b => s.modArr (arrayOf c b) (fun t => { t with rows := [] })) s1
  let s3 := { s2 with power := { s2.power with rampReqs := s2.power.rampReqs.filter (fun q => q.core != c) } }
  (s3.dropShadows c).modCC r.x c (fun k => (k.chargeSlice (s.arrayTime - r.began)).countRun r.cmd true (s.arrayTime - r.began))

/-- A span fails (R406): every region its commands wrote is poisoned, every command and the SPAN_CLOSE end with the
reason, then signals take effect and held slot transitions take place. -/
def State.failSpan (s : State) (c : Fin 4) (reason : Nat) : State :=
  match (s.core c).span with
  | none => s
  | some sp =>
    let run := (s.core c).running
    let s1 := match run with | some r => s.stopSpanRun c r | none => s
    let (s2, rest) := s1.dropSpanRest c sp
    let s3 := (sp.done.foldl (fun s d => s.modCC sp.x c (·.countRun d.1 true d.2.2))
      (s2.modCore c (fun k => { k with span := none }))).clearCaptures c
    let s4 := (sp.writes.filter (fun g => !g.scratch)).foldl (fun s g => s.poisonRegion sp.x c g) s3
    let ran := match run with | some r => [r.cmd] | none => []
    let cmds := sp.done.map (·.1) ++ ran ++ rest
    let out : Done := { reason := reason, failed := true, poisoned := true, detail := [] }
    let s5 := cmds.foldl (fun s k => s.report sp.x k out) s4
    let s6 := (cmds.filter (fun k => k.op == 0x60)).foldl (fun s k => s.signal sp.x c.val k) s5
    let mine := match run with | some r => r.claims | none => []
    let claims := (sp.claims.map (·.2.1) ++ mine ++ sp.made).foldl (fun l k => if l.contains k then l else l ++ [k]) []
    let s7 := claims.foldl (fun s k => s.release sp.x k true) s6
    ((s7.emptyBoundary sp.x c sp.eval).schedule c).1

/-- The held effects of one span command take place (R398): its contributions with their events, its slot transitions, its signal and
its entry. -/
def State.releaseHeld (s : State) (c : Fin 4) (sp : Span) (i : Nat) (d : Cmd × Done × Nat) : State :=
  let s1 := s.applyContribs sp.x c ((sp.contribs.filter (fun b => b.1 == i)).map (·.2))
  let s2 := (sp.claims.filter (fun k => k.1 == i)).foldl (fun s k => s.release sp.x k.2.1 k.2.2) s1
  s2.releaseDone sp.x c d

/-- SPAN_CLOSE (R398): held effects take place in span order, command by command. A span that has met a second uncorrectable fault
fails instead (R405). -/
def doSpanClose (c : Fin 4) (s : State) : State :=
  match s.dispatchCore c (fun m => m.op == 0x64) with
  | none => s
  | some (s1, r) =>
    match (s1.core c).span with
    | none => s1.finishNow (.core c) r
    | some sp =>
      if 2 ≤ sp.faults then s.failSpan c 0x0607
      else
        let s2 := sp.done.zipIdx.foldl (fun s d => s.releaseHeld c sp d.2 d.1) (s1.modCore c (fun k => { k with span := none }))
        (s2.clearCaptures c).finishNow (.core c) r

/-- A span that has met a second uncorrectable fault fails (R405). -/
def State.endFaulty (s : State) (c : Fin 4) : State :=
  match (s.core c).span with
  | some sp => if 2 ≤ sp.faults then s.failSpan c 0x0607 else s
  | none => s

/-- COMMAND_COMPLETE (R330, R337): the running command of a core, or running command i of a fabric or memory queue, ends
if its work is done; `charge` is its array cycles from dispatch. -/
def doCommandComplete (q : QRef) (i charge : Nat) (s : State) : State :=
  match q with
  | .core c =>
    match (s.core c).running with
    | some r => if s.coreDone c r then (((s.finishCore c charge).endFaulty c).schedule c).1 else s
    | none => s
  | .fabric x =>
    match (s.ctx x).fabricRun[i]? with
    | some r => if r.busy || (!r.out.failed && !s.landed r) then s else s.finishRun r
    | none => s
  | .memory x =>
    match (s.ctx x).memoryRun[i]? with
    | some r => if r.busy || s.pinWaits r.cmd || (!r.out.failed && !s.landed r) then s else s.finishRun r
    | none => s

/-! ## The decision on captured rows (R402 to R404) -/

/-- How a captured row is classified (Table 16.4). -/
inductive RowOutcome where
  | transient (lanes : List Nat)
  | arrayTransient
  | witnessTransient
  | witnessFault
  | unresolved
  | suspect
  deriving DecidableEq, Repr

/-- Lanes whose replay differs from the capture. -/
def differing (a b : List W32) : List Nat :=
  ((a.zip b).zipIdx.filter (fun p => p.1.1 != p.1.2)).map (·.2)

/-- The witness self-test of an array of a core passes only if every witness and magnitude row equals its stored bits (R404). -/
def selfTestPasses (rows : List SelfTestRow) (side : Fin 2) : Bool :=
  rows.all (fun d => d.side != side || (d.witness == 0 && d.magnitude == 0))

/-- Classifies a captured row (R402). `selfTest` says that the witness self-test passes (R404). -/
def Capture.outcome (k : Capture) (selfTest : Bool) : RowOutcome :=
  match k.replayed with
  | none => .unresolved
  | some (lanes, passes) =>
    let d := differing k.lanes lanes
    if passes then
      if d.isEmpty then .witnessTransient else if d.length ≤ 4 then .transient d else .arrayTransient
    else if d.isEmpty then (if selfTest then .unresolved else .witnessFault)
    else .suspect

/-- The groups that the locate pass finds failing, or 128 for the whole array (R403). -/
def Capture.locate (k : Capture) : List Nat :=
  let bad := ((chunks 32 k.lanes).zip k.groups).zipIdx.filter (fun p =>
    let s := fpSum p.1.1
    !(fpFinite s && witnessHolds k.k 32 s p.1.2.1 p.1.2.2))
  if bad.isEmpty then [128] else bad.map (·.2)

/-- A fault record of an array inside an open span. -/
def State.spanRecord (s : State) (c : Fin 4) (severity reason kind unit : Nat) : FaultRec :=
  let f := { s.faultNow severity reason 0x01 with unitKind := kind, unit := unit }
  match (s.core c).span with
  | some sp => { f with ctx := some sp.x, span := some sp.id, queue := c.val, seq := sp.opener.seq, index := sp.opener.index }
  | none => f

/-- What one captured row leaves behind besides the span's own fate. -/
def State.noteOutcome (s : State) (c : Fin 4) (a : Fin 8) (k : Capture) (o : RowOutcome) : State :=
  let corrected := fun (s : State) (kind unit : Nat) =>
    s.detect { s.spanRecord c 0 0x0624 kind unit with transient := true }
  match o with
  | .transient lanes => lanes.foldl (fun s l => corrected s 1 (siteUnit a.val (siteOfLane (s.arr a).map l))) s
  | .arrayTransient => corrected s 3 a.val
  | .witnessTransient => corrected s 2 a.val
  | .witnessFault => (s.detect (s.spanRecord c 0 0x0625 2 a.val)).makePermanent 2 a.val
  | .unresolved => (s.detect (s.spanRecord c 1 0x0605 3 a.val)).suspect a k.locate
  | .suspect => s.detect (s.spanRecord c 1 0x0606 3 a.val)

/-- REPLAY_DECISION (R402): once the replay has reached every captured row, or a row that passed has failed, the span
continues or fails by its most severe outcome. -/
def doReplayDecision (c : Fin 4) (rows : List SelfTestRow) (s : State) : State :=
  match (s.core c).running, (s.core c).span with
  | none, some sp =>
    let caps := ([0, 1] : List (Fin 2)).flatMap (fun b => (s.arr (arrayOf c b)).captures.map (fun k => (b, k)))
    let fresh := [0, 1].any (fun b => (s.arr (arrayOf c b)).fresh)
    if !sp.replay || !(fresh || (!caps.isEmpty && caps.all (fun k => k.2.replayed.isSome))) then s
    else
      let outs := (caps.filter (fun k => k.2.replayed.isSome)).map (fun k => (arrayOf c k.1, k.2, k.2.outcome (selfTestPasses rows k.1)))
      let s1 := outs.foldl (fun s o => s.noteOutcome c o.1 o.2.1 o.2.2) s
      if outs.any (fun o => o.2.2 == .suspect) then (s1.failSpan c 0x0606).quarantine c
      else if fresh then s1.failSpan c 0x0607
      else if outs.any (fun o => o.2.2 == .unresolved) then s1.failSpan c 0x0605
      else s1.clearCaptures c
  | _, _ => s

/-- SPAN_TIMEOUT (R399). -/
def doSpanTimeout (c : Fin 4) (s : State) : State :=
  match (s.core c).span with
  | some sp => if 400000 ≤ sp.count then s.failSpan c 0x0608 else s
  | none => s

/-! ## Watchdogs -/

/-- The limit of the command watchdog of a queue (R341; 04, R112). -/
def State.watchdogLimit (s : State) (q : QRef) : Nat :=
  match q with
  | .core c => if (s.core c).singleArray then 800000 else 400000
  | _ => 400000

/-- A running command fails with 0x0223 (R341). -/
def State.watchdogFail (s : State) (r : Run) : State :=
  (s.failRun r 0x0223).detect ((s.faultNow 1 0x0223 0x0B).ofCmd r.x r.cmd)

/-- Clears an array (R341): its banks, its accumulators and the rows that wait. -/
def ArrayS.clear (t : ArrayS) : ArrayS :=
  { t with banks := Vector.replicate 2 Bank.blank, ahead := 0, sets := Vector.replicate 2 [], rows := [] }

/-- COMMAND_WATCHDOG (R341). -/
def doCommandWatchdog (q : QRef) (i : Nat) (s : State) : State :=
  match q with
  | .core c =>
    match (s.core c).running with
    | some r =>
      if s.watchdogLimit q ≤ r.count && !r.out.failed then
        let s1 := ((s.watchdogFail r).stopIssue c).modCore c (fun k => { k with epi := [] })
        let s2 := [0, 1].foldl (fun s b => s.modArr (arrayOf c b) ArrayS.clear) s1
        { s2 with power := { s2.power with rampReqs := s2.power.rampReqs.filter (fun q => q.core != c) } }
      else s
    | none => s
  | .fabric x =>
    match (s.ctx x).fabricRun[i]? with
    | some r => if s.watchdogLimit q ≤ r.count && !r.out.failed then s.watchdogFail r else s
    | none => s
  | .memory x =>
    match (s.ctx x).memoryRun[i]? with
    | some r => if s.watchdogLimit q ≤ r.count && !r.out.failed then s.watchdogFail r else s
    | none => s

/-- The head of a queue waits only for slot states (R181). -/
def State.starving (s : State) (q : QRef) (x : Fin 16) : Bool :=
  match s.waiting q x with
  | some (c, ev, cmd, _) =>
    let y := ctxOfQueue q x
    s.clearAhead y c ev cmd && s.waitOver y c cmd && !s.claimsFree y c cmd
  | none => false

/-- Pilot cycles that the head has waited for slot states. -/
def State.starveCount (s : State) (q : QRef) (x : Fin 16) (ev : Bool) : Nat :=
  match q with
  | .core c => if ev then (s.cc x c).evalStarve else (s.cc x c).starve
  | .fabric y => (s.ctx y).fabricStarve
  | .memory _ => 0

/-- The starve limit in pilot cycles: STARVE_US of the table that holds the slot waited for. -/
def State.starveLimit (s : State) (x : Fin 16) (cmd : Cmd) : Nat :=
  match (s.claimsOf x cmd).find? (fun k => !s.canClaim x k) with
  | some k => let us := (s.cc x k.die).table.starveUs
              50 * (if us = 0 then 1000 else us)
  | none => 50000

/-- STARVE_TIMEOUT (R181). -/
def doStarveTimeout (q : QRef) (x : Fin 16) (s : State) : State :=
  match s.waiting q x with
  | some (_, ev, cmd, _) =>
    let y := ctxOfQueue q x
    if s.starving q x && decide (s.starveLimit y cmd ≤ s.starveCount q x ev) then
      (s.failWaiting q x cmd ev 0x0107 true).detect ((s.faultNow 1 0x0107 0x0B).ofCmd y cmd)
    else s
  | none => s

/-- OVERRUN_TIMEOUT (R182). -/
def doOverrunTimeout (x : Fin 16) (die : Fin 4) (i : Nat) (s : State) : State :=
  match (s.cc x die).table.slots[i]? with
  | none => s
  | some t =>
    let ms := (s.cc x die).table.overrunMs
    let open' := t.state == .full || t.state == .draining
    if !t.raw && open' && !t.posted && decide ((if ms = 0 then 100 else ms) * 50000 ≤ s.pilot - t.since) then
      ((s.modTok x die i (fun t => { t with posted := true })).event x 0x0108 (detail [(0, 1, die.val), (1, 1, i)])).modCC
        x die (fun k => { k with overrunEvents := satAdd k.overrunEvents 1 })
    else s

/-! ## Repairs at a command boundary (04, R110 to R113; 13, R342) -/

/-- A repair may take effect on a core: no command runs and no span is open (16, R409). -/
def State.repairTime (s : State) (c : Fin 4) : Bool := (s.core c).running.isNone && (s.core c).span.isNone

/-- LANE_REMAP (R110): the lane moves to its group's spare site; event 0x0609. -/
def doLaneRemap (a : Fin 8) (s : State) : State :=
  let c := coreOfArray a
  match (s.core c).remaps.find? (fun p => p.1 == a) with
  | none => s
  | some (_, site) =>
    if !s.repairTime c then s
    else
      let s1 := s.modCore c (fun k => { k with remaps := k.remaps.erase (a, site) })
      let g := site / 33
      let e := byteAt (s.arr a).map (0x10 + g)
      if bit e 7 || bit e 6 then s1.oweDegrade a
      else
        let s2 := s1.modArr a (fun t =>
          let m := putBytes t.map (0x10 + g) [BitVec.ofNat 8 (128 + site % 33)]
          { t with map := putBytes m 1 [BitVec.ofNat 8 (byteAt m 1 + 1)] })
        (((s2.dropShadows c).modCore c (fun k => { k with reload := true })).queueMap 4 s2.laneMapBody).unitEvent 0x0609
          (siteUnit a.val site)

/-- ARRAY_DEGRADE (R111, R112): the array leaves service; its core runs in single-array mode, or leaves service. -/
def doArrayDegrade (a : Fin 8) (s : State) : State :=
  let c := coreOfArray a
  if !(s.core c).degrades.contains a || !s.repairTime c then s
  else
    let s1 := s.modArr a (fun t => { t with degraded := true, inService := false })
    let both := [0, 1].all (fun b => (s1.arr (arrayOf c b)).degraded)
    (s1.modCore c (fun k => { k with degrades := k.degrades.erase a, remaps := k.remaps.filter (fun p => p.1 != a)
                                     singleArray := !both, leaving := k.leaving || both })).unitEvent 0x060A a.val

/-- Fails one queued command of a core that leaves service (R342). -/
def State.failQueued (s : State) (x : Fin 16) (c : Fin 4) (cmd : Cmd) : State :=
  let s0 := s.endQueued x c cmd
  let s1 := if isForm 0x60 0 cmd then s0.signal x c.val cmd else s0
  s1.report x cmd { reason := 0x0224, failed := true, poisoned := false, detail := [] }

/-- CORE_OUT_OF_SERVICE (R342): the running command fails, then every queued command in queue order. The core's arrays leave
service with it (01, R21), and its window no longer runs, so that pending RWS values take effect (00, R13; 21, R498, R499). -/
def doCoreOutOfService (c : Fin 4) (s : State) : State :=
  if !(s.core c).leaving then s
  else
    let s1 := (s.failSpan c 0x0224)
    let s2 := match (s1.core c).running with
      | some r => (s1.failRun r 0x0224).finishCore c (s.arrayTime - r.began)
      | none => s1
    let s3 := (List.finRange 16).foldl (fun s x =>
      let k := s.cc x c
      let s' := s.modCC x c (fun k => { k with main := [], eval := [], admitted := 0 })
      (k.main ++ k.eval).foldl (fun s cmd => s.failQueued x c cmd) s') s2
    let s4 := s3.modCore c (fun k => { k with inService := false, leaving := false })
    ((s4.modArr (arrayOf c 0) (fun t => { t with inService := false })).modArr (arrayOf c 1)
      (fun t => { t with inService := false })).coreRws c

end Sys2Proof.Machine
end

