-- ==== Sys2Proof/Machine/Tiers.lean ====
section
/-! DEFINITION. Pages, quotas, the drift engine, MIGRATE, PIN, UNPIN, layer plans and the deep tier's granules
(11, R272 to R291). -/

namespace Sys2Proof.Machine

open Sys2Proof

/-! ## Usage and free space (R274, R281) -/

/-- A page counts against the near tier. -/
def HomeEntry.usesNear (e : HomeEntry) : Bool :=
  e.home.near || (match e.dest with | some d => d.near | none => false)

/-- A page counts against the deep tier. -/
def HomeEntry.usesDeep (e : HomeEntry) : Bool :=
  !e.home.near || (match e.dest with | some d => !d.near | none => false)

/-- The entries that a context owns. -/
def State.pagesOf (s : State) (x : Fin 16) : List (Nat × HomeEntry) := s.tiers.map.filter (fun e => e.2.owner == x)

/-- NEAR_PAGES and DEEP_PAGES (Table 11.4). -/
def State.nearUse (s : State) (x : Fin 16) : Nat := ((s.pagesOf x).filter (·.2.usesNear)).length

def State.deepUse (s : State) (x : Fin 16) : Nat := ((s.pagesOf x).filter (·.2.usesDeep)).length

/-- The homes that pages hold, moves' destinations included. -/
def State.homesHeld (s : State) : List Home :=
  s.tiers.map.flatMap (fun e => e.2.home :: (match e.2.dest with | some d => [d] | none => []))

/-- Used placed frames of a stack, rising. -/
def State.framesUsed (s : State) (n : Fin 12) : List Nat :=
  s.homesHeld.foldl (fun l h => match h with | .placed st f => if st = n then setInsert f l else l | _ => l) []

/-- Used spread slots, rising. -/
def State.slotsUsed (s : State) : List Nat :=
  s.homesHeld.foldl (fun l h => match h with | .spread k => setInsert k l | _ => l) []

/-- FREE_FRAMES and FREE_SLOTS (Table 11.4). -/
def State.freeFrames (s : State) (n : Fin 12) : Nat := s.frameCount n - (s.framesUsed n).length

def State.freeSlots (s : State) : Nat := s.slotCount - s.slotsUsed.length

/-- DEEP_BYTES of a context (Table 11.4). -/
def State.deepBytes (s : State) (x : Fin 16) : Nat :=
  256 * ((s.pagesOf x).foldl (fun n e => n + ((s.deepDirOf e.1).foldl (fun n b => if b.length ≤ 16 then n + b.length else n) 0)) 0)

/-- Allocates a home of a kind (0 placed, 1 spread, 2 deep); which frame or slot is free to choose. None when there is no
space. -/
def State.allocHome (s : State) (kind : Nat) (stack : Fin 12) : Option (Home × State) :=
  match kind with
  | 0 =>
    let used := s.framesUsed stack
    let free := s.frameCount stack - used.length
    if free = 0 then none
    else let (n, s1) := s.occasion
         some (.placed stack (nthFree used (Config.choice n % free)), s1)
  | 1 =>
    let used := s.slotsUsed
    let free := s.slotCount - used.length
    if free = 0 then none
    else let (n, s1) := s.occasion
         some (.spread (nthFree used (Config.choice n % free)), s1)
  | _ => some (.deep, s)

/-- Writes a home-map entry. -/
def State.putHome (s : State) (p : Nat) (e : HomeEntry) : State := s.modTiers (fun t => { t with map := ainsert p e t.map })

/-- Zero bytes of a page. -/
def zeroPage : List PByte := List.replicate 131072 ⟨0, false⟩

/-- Maps one page (R272): it takes a home, its contents are zero, and it becomes RESIDENT. -/
def State.mapPage (s : State) (x : Fin 16) (p kind : Nat) (stack : Fin 12) : State :=
  match s.allocHome kind stack with
  | none => s
  | some (h, s1) =>
    let e : HomeEntry := { owner := x, home := h, dest := none, pinned := false, prefKind := if kind = 0 then 0 else 1
                           prefStack := if kind = 0 then stack.val else 0, aborts := 0
                           switches := (alookup p s1.tiers.freed).getD 0 }
    let s2 := ((s1.putHome p e).modTiers (fun t => { t with freed := aerase p t.freed })).invalidate (p * 131072) 131072
    match h with
    | .deep => s2.clearDeep p
    | h => s2.writeHome x h p 0 zeroPage

/-- Frees one page (R273), its destination with it where it was MOVING. SWITCHES goes on from where it stands (R269). -/
def State.freePage (s : State) (p : Nat) : State :=
  let s1 := s.modTiers (fun t => { t with map := aerase p t.map, moves := t.moves.filter (fun m => m.page != p)
                                          freed := match s.homeOf p with
                                            | some e => if e.switches = 0 then t.freed else ainsert p e.switches t.freed
                                            | none => t.freed
                                          reqs := t.reqs.filter (fun r => r.page != p)
                                          deepWaits := t.deepWaits.filter (fun w => w.page != p) })
  match s.homeOf p with
  | some e => if e.home.near && e.dest != some Home.deep then s1 else s1.clearDeep p
  | none => s1

/-! ## MIGRATE's account (R286) -/

/-- Changes the account of a MIGRATE. -/
def State.modAcct (s : State) (run : Nat) (f : MigrateAcct → MigrateAcct) : State :=
  s.modTiers (fun t => { t with migrates := t.migrates.map (fun m => if m.run = run then f m else m) })

/-- The counts of a MIGRATE as its DETAIL (Table 12.11). -/
def MigrateAcct.detail (m : MigrateAcct) : List Byte :=
  Machine.detail [(8, 4, m.moved), (12, 4, m.present), (16, 4, m.skipped), (20, 4, m.abandoned)]

/-- Ends a MIGRATE whose pages are all accounted for: it may complete, with 0x0316 when pages were abandoned. -/
def State.settleMigrate (s : State) (run : Nat) : State :=
  match s.tiers.migrates.find? (fun m => m.run = run) with
  | none => s
  | some m =>
    if m.left ≠ 0 then s
    else
      let s1 := s.modTiers (fun t => { t with migrates := t.migrates.filter (fun k => k.run != run) })
      s1.modRun run (fun r => { r with busy := false, out := { r.out with
        detail := m.detail, reason := if m.abandoned = 0 then r.out.reason else 0x0316 } })

/-- One page of a MIGRATE is accounted for. -/
def State.countPage (s : State) (f : MigrateAcct → MigrateAcct) (run : Nat) : State :=
  (s.modAcct run (fun m => { f m with left := m.left - 1 })).settleMigrate run

/-- A MIGRATE that finds no space stops and fails (R286). -/
def State.failMigrate (s : State) (run : Nat) : State :=
  let det := match s.tiers.migrates.find? (fun m => m.run = run) with | some m => m.detail | none => []
  let s1 := s.modTiers (fun t => { t with
    reqs := t.reqs.filter (fun r => r.run != some run)
    moves := t.moves.map (fun m => { m with runs := m.runs.filter (· != run) })
    migrates := t.migrates.filter (fun m => m.run != run) })
  s1.modRun run (fun r => { r with busy := false, out := { r.out with reason := 0x0315, failed := true, detail := det } })

/-! ## Moves (R282, R283) -/

/-- A home is of the kind and stack that a request names. -/
def Home.isAt (h : Home) (kind stack : Nat) : Bool :=
  match h with
  | .placed st _ => kind == 0 && st.val == stack
  | .spread _ => kind == 1
  | .deep => kind == 2

/-- The move of a page. -/
def State.moveOf (s : State) (p : Nat) : Option Move := s.tiers.moves.find? (fun m => m.page = p)

/-- Removes the first request that equals one. -/
def State.dropReq (s : State) (r : MoveReq) : State := s.modTiers (fun t => { t with reqs := t.reqs.erase r })

/-- A move of a plan waits while it would break R274 (R291). -/
def State.quotaHolds (s : State) (r : MoveReq) (e : HomeEntry) : Bool :=
  match r.run with
  | some _ => true
  | none =>
    if r.kind = 2 then e.usesDeep || decide (s.deepUse r.x < (s.ctx r.x).deepQ)
    else e.usesNear || decide (s.nearUse r.x < (s.ctx r.x).nearQ)

/-- Moves of all contexts, and of one, that are in motion. -/
def State.inMotion (s : State) (x : Option (Fin 16)) : Nat :=
  (s.tiers.moves.filter (fun m => !m.aborted && (match x with | some y => m.x == y | none => true))).length

/-- A move goes where a request asks. -/
def Move.meets (m : Move) (r : MoveReq) : Bool := m.kind == r.kind && (r.kind != 0 || m.stack == r.stack)

/-- The drift engine can begin a move that a request asks for: fewer than 64 pages are in motion, and fewer than 16 of the context
(R282); quotas hold (R274, R291); and no write of the page waits in the deep tier, which would be lost with the old home (R279). -/
def State.canBegin (s : State) (r : MoveReq) (e : HomeEntry) : Bool :=
  decide (s.inMotion none < 64) && decide (s.inMotion (some r.x) < 16) && s.quotaHolds r e &&
    s.tiers.deepWaits.all (fun w => w.page != r.page)

/-- A request can be treated now. One for another destination than that of a move in progress waits for its switch or abort
(R284). -/
def State.reqReady (s : State) (r : MoveReq) : Bool :=
  match s.homeOf r.page with
  | none => true
  | some e =>
    let free := e.pinned || e.home.isAt r.kind r.stack || s.canBegin r e
    match s.moveOf r.page with
    | some m => m.meets r || (m.aborted && free)
    | none => free

/-- The next request of a context: the first of its MIGRATE, or of its layer plan, that can be treated; pages go in the order in which
they were asked for (R286, R291). -/
def State.nextReq (s : State) (x : Fin 16) : Option MoveReq :=
  let mine := s.tiers.reqs.filter (fun r => r.x == x)
  (mine.zipIdx.find? (fun p => s.reqReady p.1 && (mine.take p.2).all (fun q => q.page != p.1.page && q.run != p.1.run))).map (·.1)

/-- Copies a page to a deep destination, block by block; none when granules are lacking. -/
def State.copyDeep (s : State) (p : Nat) : List (Nat × List PByte) → Option State
  | [] => some s
  | (j, bs) :: r =>
    match s.placeBlock p j bs with
    | some s1 => State.copyDeep s1 p r
    | none => none

/-- Begins an attempt: the destination is allocated, the entry becomes MOVING and the page is copied, poison with it. -/
def State.beginMove (s : State) (p : Nat) (e : HomeEntry) (m : Move) : Option State :=
  match s.allocHome m.kind (ix 12 m.stack) with
  | none => none
  | some (d, s1) =>
    let bytes := s1.readHome e.home p 0 131072
    let copied : Option State := match d with
      | .deep => s1.copyDeep p ((chunks 4096 bytes).zipIdx.map (fun (b : List PByte × Nat) => (b.2, b.1)))
      | d => some (s1.writeHome e.owner d p 0 bytes)
    match copied with
    | none => none
    | some s2 =>
      let s3 := s2.putHome p { e with dest := some d }
      some (s3.modTiers (fun t => { t with
        moves := t.moves.filter (fun (k : Move) => k.page != p) ++ [{ m with since := s.pilot, copied := true, aborted := false, stalled := [] }] }))

/-- Puts an aborted attempt back among the requests, where another request for its page comes between (R284). -/
def State.standBack (s : State) (m : Move) (e : HomeEntry) : State :=
  let runs := if m.runs.isEmpty then (if m.pref then [] else [none]) else m.runs.map some
  (s.modTiers (fun t => { t with
    moves := t.moves.filter (fun k => k.page != m.page)
    reqs := runs.map (fun r => ⟨m.page, m.x, m.kind, m.stack, r, e.aborts⟩) ++ t.reqs })).putHome m.page { e with aborts := 0 }

/-- Carries out a request for a page that no move holds (R282, R286): a page already there or pinned is counted, and any other begins
to move; `back` is the state in which the request still stands. -/
def State.openMove (s back : State) (r : MoveReq) (e : HomeEntry) : State :=
  let count := fun (s : State) (f : MigrateAcct → MigrateAcct) =>
    match r.run with | some id => s.countPage f id | none => s
  if e.home.isAt r.kind r.stack then count s (fun m => { m with present := m.present + 1 })
  else if e.pinned then count s (fun m => { m with skipped := m.skipped + 1 })
  else
    let m : Move := { page := r.page, x := r.x, kind := r.kind, stack := r.stack, since := s.pilot, copied := false
                      aborted := false, stalled := [], runs := r.run.toList, pref := r.run.isSome }
    match s.beginMove r.page { e with aborts := r.tried } m with
    | some s1 => s1
    | none => match r.run with
      | some id => s.failMigrate id
      | none => back

/-- Treats a request (R282, R284, R286): it joins a move to the same destination, takes the place of an aborted attempt to another
one, or is carried out. -/
def State.treatReq (s : State) (r : MoveReq) : State :=
  let s0 := s.dropReq r
  match s0.homeOf r.page with
  | none => match r.run with | some id => s0.countPage (fun m => { m with skipped := m.skipped + 1 }) id | none => s0
  | some e =>
    match s0.moveOf r.page with
    | none => s0.openMove s r e
    | some m =>
      if m.meets r then s0.modTiers (fun t => { t with moves := t.moves.map (fun k =>
        if k.page = r.page then { k with runs := k.runs ++ r.run.toList, pref := k.pref || r.run.isSome } else k) })
      else (s0.standBack m e).openMove s r { e with aborts := 0 }

/-- PAGE_MOVE (R282): the drift engine treats a context's next request. -/
def doPageMove (x : Fin 16) (s : State) : State :=
  if !s.fastUp then s
  else match s.nextReq x with
    | none => s
    | some r => s.treatReq r

/-- Forces the buffer entries of a page's old home to flush (10, R263). -/
def State.flushHome (s : State) (h : Home) : State :=
  (s.nearPieces h 0 131072).foldl (fun s q => s.modStack q.1 (fun st => st.flushRange q.2.1 q.2.2)) s

/-- PAGE_SWITCH (R282): the entry is switched to its destination, stalled writes are released to it and the old home is
freed. -/
def doPageSwitch (p : Nat) (s : State) : State :=
  match s.moveOf p, s.homeOf p with
  | some m, some e =>
    match e.dest with
    | none => s
    | some d =>
      if m.aborted || !m.copied || !s.fastUp || decide (100 < s.pilot - m.since) then s
      else
        let s1 := s.flushHome e.home
        let pref := m.pref && d.near
        let e' := { e with home := d, dest := none, aborts := 0, switches := e.switches + 1
                           prefKind := if pref then m.kind else e.prefKind
                           prefStack := if pref then (if m.kind = 0 then m.stack else 0) else e.prefStack }
        let s2 := (s1.putHome p e').modTiers (fun t => { t with moves := t.moves.filter (fun k => k.page != p) })
        let s3 := if e.home.near then s2 else s2.clearDeep p
        let s4 := (s3.landStalled m).modCtx e.owner (fun k => { k with moves := satAdd k.moves 1 })
        m.runs.foldl (fun s id => s.countPage (fun a => { a with moved := a.moved + 1 }) id) s4
  | _, _ => s

/-- An attempt to move a page is aborted; the 8th abort abandons the page for its request (R283). -/
def State.abortMove (s : State) (p : Nat) (m : Move) (e : HomeEntry) : State :=
  let last := decide (7 ≤ e.aborts)
  let s1 := s.putHome p { e with dest := none, aborts := if last then 0 else e.aborts + 1 }
  let s2 := if m.kind = 2 then s1.clearDeep p else s1
  let s3 := s2.modTiers (fun t => { t with
    moves := if last then t.moves.filter (fun k => k.page != p)
      else t.moves.map (fun k => if k.page = p then { k with aborted := true, copied := false, stalled := [] } else k) })
  let s4 := (s3.landStalled m).modCtx e.owner (fun k => { k with aborts := satAdd k.aborts 1 })
  if last then m.runs.foldl (fun s id => s.countPage (fun a => { a with abandoned := a.abandoned + 1 }) id) s4 else s4

/-- MOVE_TIMEOUT (R283): an attempt that has taken its time is aborted. -/
def doMoveTimeout (p : Nat) (s : State) : State :=
  match s.moveOf p, s.homeOf p with
  | some m, some e => if m.aborted || decide (s.pilot - m.since < 100) then s else s.abortMove p m e
  | _, _ => s

/-- An aborted attempt is not made again; ABORTS is that of a current request only (R269, R283). -/
def State.dropMove (s : State) (p : Nat) (e : HomeEntry) : State :=
  (s.putHome p { e with aborts := 0 }).modTiers (fun t => { t with moves := t.moves.filter (fun k => k.page != p) })

/-- A request to another destination stands ready in the place of an aborted attempt (R284). -/
def State.displaced (s : State) (p : Nat) (m : Move) : Bool :=
  match s.nextReq m.x with
  | some r => r.page == p
  | none => false

/-- MOVE_RETRY (R283): an aborted attempt is made again once its stalled writes have landed, under the limits of R282 and, for a page
that a layer plan brings near, of R274. -/
def doMoveRetry (p : Nat) (s : State) : State :=
  match s.moveOf p, s.homeOf p with
  | some m, some e =>
    let r : MoveReq := ⟨p, m.x, m.kind, m.stack, m.runs.head?, e.aborts⟩
    if !m.aborted || !s.fastUp || s.displaced p m then s
    else if e.pinned then
      m.runs.foldl (fun s id => s.countPage (fun a => { a with skipped := a.skipped + 1 }) id) (s.dropMove p e)
    else if !s.canBegin r e then s
    else match s.beginMove p e m with
      | some s1 => s1
      | none => if m.runs.isEmpty then s else m.runs.foldl (fun s id => s.failMigrate id) (s.dropMove p e)
  | _, _ => s

/-! ## MIGRATE, PIN and UNPIN (R285 to R287) -/

/-- The pages of a range. -/
def pageRange (first count : Nat) : List Nat := (List.range count).map (first + ·)

/-- The pages of a range that a quota has to take: those not already at the destination that do not count against its
tier. -/
def State.quotaNeed (s : State) (pages : List Nat) (kind stack : Nat) : Nat :=
  (pages.filter (fun p => match s.homeOf p with
    | some e => !e.home.isAt kind stack && !(if kind = 2 then e.usesDeep else e.usesNear)
    | none => false)).length

/-- MIGRATE (R286). -/
def doMigrate (x : Fin 16) (s : State) : State :=
  match s.dispatchMemory x (fun m => m.op == 0x50) with
  | none => s
  | some (s1, r) =>
    let d := r.cmd.desc
    let kind := bits (byteAt d 1) 1 0
    let stack := bits (byteAt d 2) 3 0
    let pages := pageRange (fld d 4 4) (fld d 8 4)
    let need := s1.quotaNeed pages kind stack
    let (use, quota) := if kind = 2 then (s1.deepUse x, (s1.ctx x).deepQ) else (s1.nearUse x, (s1.ctx x).nearQ)
    if need ≠ 0 ∧ quota < use + need then s1.failClean r 0x0314
    else
      let s2 := s1.modRun r.id (fun r => { r with busy := true })
      let s3 := s2.modTiers (fun t => { t with
        migrates := t.migrates ++ [⟨r.id, 0, 0, 0, 0, pages.length⟩]
        reqs := t.reqs ++ pages.map (fun p => ⟨p, x, kind, stack, some r.id, 0⟩) })
      s3.settleMigrate r.id

/-- Sets or clears PINNED on a range. -/
def State.setPinned (s : State) (first count : Nat) (v : Bool) : State :=
  s.modTiers (fun t => { t with map := t.map.map (fun e =>
    if first ≤ e.1 ∧ e.1 < first + count then (e.1, { e.2 with pinned := v }) else e) })

/-- PIN and UNPIN (R287): the flag is set at dispatch, and the command completes once no page of the range is MOVING. -/
def State.pinRange (s : State) (x : Fin 16) (op : Nat) (v : Bool) : State :=
  match s.dispatchMemory x (fun m => m.op == op) with
  | none => s
  | some (s1, r) => s1.setPinned (fld r.cmd.desc 4 4) (fld r.cmd.desc 8 4) v

/-- PIN (R287). -/
def doPin (x : Fin 16) (s : State) : State := s.pinRange x 0x52 true

/-- UNPIN (R287). -/
def doUnpin (x : Fin 16) (s : State) : State := s.pinRange x 0x53 false

/-! ## Layer plans (R288 to R291) -/

/-- A position of a layer order table (Table 11.7). -/
def planPos (bs : List Byte) : PlanPos :=
  { layer := BitVec.ofNat 32 (fld bs 0 4)
    ranges := (List.range (byteAt bs 4)).map (fun j => (fld bs (8 + 8 * j) 4, fld bs (12 + 8 * j) 4)) }

/-- A position is well formed: NRANGES in range, reserved bytes zero, every range non-empty and owned (R289). -/
def State.planPosOk (s : State) (x : Fin 16) (bs : List Byte) : Bool :=
  let n := byteAt bs 4
  let p := planPos bs
  decide (1 ≤ n) && decide (n ≤ 7) && zeroRange bs 5 3 &&
    p.ranges.all (fun r => decide (1 ≤ r.2) && decide (r.1 + r.2 ≤ 16777216) &&
      (pageRange r.1 r.2).all (fun q => match s.homeOf q with | some e => e.owner == x | none => false))

/-- U(i, n) ≤ Q at every position (R290). -/
def State.windowFits (s : State) (p : Plan) (q n : Nat) : Bool :=
  (List.range p.table.length).all (fun i =>
    decide (((planPages (p.from i n)).filter (fun g => !s.pinned g)).length ≤ q))

/-- The largest window: the greatest n up to a bound that fits; the bound is the number of positions. -/
def State.largestWindow (s : State) (p : Plan) (q : Nat) : Nat → Nat
  | 0 => 0
  | n + 1 => if s.windowFits p q (n + 1) then n + 1 else s.largestWindow p q n

/-- The window of a plan (R290): the largest n up to a bound for which U(i, n) ≤ Q at every position. Q is NEAR_Q less the near pages
that no position names, less the pinned pages that positions name; below 0 no window fits. -/
def State.planWindow (s : State) (x : Fin 16) (p : Plan) (bound : Nat) : Nat :=
  let named := planPages p.table
  let used := ((s.pagesOf x).filter (fun e => e.2.usesNear && !named.contains e.1)).length + (named.filter s.pinned).length
  if (s.ctx x).nearQ < used then 0 else s.largestWindow p ((s.ctx x).nearQ - used) bound

/-- Stops a context's plan; requests of it that have not begun are dropped (R289). -/
def State.stopPlan (s : State) (x : Fin 16) : State :=
  (s.modCtx x (fun k => { k with plan := none })).modTiers (fun t => { t with
    reqs := t.reqs.filter (fun r => r.x != x || r.run.isSome) })

/-- LAYER_PLAN OP 0 (R289, R290). At the start of window mode the pages outside the window go down and those of the
window come near, as at an advance. -/
def doLayerPlanStart (x : Fin 16) (s : State) : State :=
  match s.dispatchMemory x (isForm 0x51 0) with
  | none => s
  | some (s1, r) =>
    let d := r.cmd.desc
    let n := fld d 2 2
    let bs := (s1.uread (fld d 8 8) (64 * n))
    let s1 := if bs.any (·.p) then s1.touchRange (fld d 8 8) (64 * n) none else s1
    let rows := chunks 64 (bs.map (·.b))
    if !rows.all (s1.planPosOk x) then (s1.failClean r 0x0318).finishNow (.memory x) r
    else
      let p0 : Plan := { table := rows.map planPos, n := 0, pos := fld d 6 2, windowMode := false }
      let named := planPages p0.table
      let w := s1.planWindow x p0 (if fld d 4 2 = 0 then n else min (fld d 4 2) n)
      let s2 := s1.stopPlan x
      if w < 3 ∧ w < n then (s2.failClean r 0x0319).finishNow (.memory x) r
      else
        let full := decide (n ≤ w)
        let p : Plan := { p0 with n := w, windowMode := !full }
        let s3 := s2.modCtx x (fun k => { k with plan := some p })
        let s4 := if full then s3.planMoves x [] named else s3.planMoves x named (p.window p.pos)
        let s5 := s4.modRun r.id (fun r => { r with out := { r.out with detail := detail [(8, 4, w)] } })
        s5.finishNow (.memory x) r

/-- LAYER_PLAN OP 1 (R289). -/
def doLayerPlanStop (x : Fin 16) (s : State) : State :=
  match s.dispatchMemory x (isForm 0x51 1) with
  | none => s
  | some (s1, r) => (s1.stopPlan x).finishNow (.memory x) r

/-! ## Deep granules (R280) -/

/-- The bytes of a waiting write. -/
def DeepWait.pbytes (w : DeepWait) : List PByte := (w.bytes.zip w.poison).map (fun b => ⟨b.1, b.2⟩)

/-- The unified-range address of a waiting write. -/
def DeepWait.addr (w : DeepWait) : Nat := w.page * 131072 + w.block * 4096 + w.off

/-- Stores a waiting write if granules are free now: it is merged with the block as it stands (R279), and becomes visible with the
invalidation of 07, R171. -/
def State.landWait (s : State) (w : DeepWait) : Option State :=
  (s.placeBlock w.page w.block (mergeBlock (s.deepBlock w.page w.block) w.off w.pbytes)).map
    (fun s => s.invalidate w.addr w.bytes.length)

/-- The used blocks of a channel: page, block, granule, length, in granule order. -/
def State.channelBlocks (s : State) (ch : Nat) : List (Nat × Nat × Nat × Nat) :=
  (s.granulesUsed ch).filterMap (fun g =>
    (s.tiers.deepDir.findSome? (fun d =>
      (d.2.zipIdx.find? (fun b => deepChannel d.1 b.2 == ch && b.1.granule == g.1 && b.1.length != 0 && decide (b.1.length ≤ 16))).map
        (fun b => (d.1, b.2, b.1.granule, b.1.length)))))

/-- Packs the blocks of a channel from granule 0 on. -/
def State.packChannel (s : State) (ch : Nat) : State :=
  ((s.channelBlocks ch).foldl (fun (r : State × Nat) b =>
    (r.1.modTiers (fun t => { t with deepDir := ainsert b.1 (((alookup b.1 t.deepDir).getD []).set b.2.1 ⟨r.2, b.2.2.2⟩) t.deepDir })
    , r.2 + b.2.2.2)) (s, 0)).1

/-- COMPACTION (R280): a channel's free granules are made consecutive, and waiting writes that now find space complete, those of one
block in their order (R279), unless their 50,000 pilot cycles have passed. -/
def doCompaction (ch : Fin 16) (s : State) : State :=
  let s1 := s.packChannel ch.val
  let waits := s1.tiers.deepWaits
  let s2 := s1.modTiers (fun t => { t with deepWaits := [] })
  waits.foldl (fun s w =>
    let keep := s.modTiers (fun t => { t with deepWaits := t.deepWaits ++ [w] })
    if deepChannel w.page w.block != ch.val || decide (50000 < s.pilot - w.since) ||
        s.tiers.deepWaits.any (fun v => v.page == w.page && v.block == w.block) then keep
    else match s.landWait w with
      | some s' => s'
      | none => keep) s2

/-- The running commands of a context that write a byte of a block. -/
def State.writersOf (s : State) (x : Fin 16) (p j : Nat) : List Run :=
  let blk : Region := { space := 1, core := 0, base := p * 131072 + j * 4096, rows := 1, pitch := 4096, rowBytes := 4096
                        write := true, scratch := false }
  let runs := (s.cores.toList.filterMap (·.running)).filter (fun r => r.x == x) ++ (s.ctx x).fabricRun ++ (s.ctx x).memoryRun
  runs.filter (fun r => r.cmd.regions.any (fun g => g.write && g.overlaps blk))

/-- A command whose write has found no granules fails; a fabric command drops what it still waits for. -/
def State.failWriter (s : State) (r : Run) : State :=
  let s1 := s.failRun r 0x031B
  { s1 with fabric := { s1.fabric with fabs := s1.fabric.fabs.filter (fun f => f.run != r.id)
                                       services := s1.fabric.services.filter (fun v => v.own != some r.id) } }

/-- DEEP_SPACE_TIMEOUT (R280): a write that has waited 1 ms loses its block and its command fails. -/
def doDeepSpaceTimeout (i : Nat) (s : State) : State :=
  match s.tiers.deepWaits[i]? with
  | none => s
  | some w =>
    if s.pilot - w.since < 50000 then s
    else
      let ch := deepChannel w.page w.block
      let s1 := s.modTiers (fun t => { t with
        deepWaits := t.deepWaits.eraseIdx i
        deepDir := ainsert w.page ((s.deepDirOf w.page).set w.block ⟨0, 0xFF⟩) t.deepDir })
      let f := { s1.faultNow 1 0x031B 0x06 with
        ctx := some w.x, unitKind := 8, unit := ch, addrKind := 1, addr := w.page * 131072 + w.block * 4096 }
      let ws := s1.writersOf w.x w.page w.block
      let s2 := ws.foldl (fun s r => s.failWriter r) (s1.invalidate (w.page * 131072 + w.block * 4096) 4096)
      (s2.detect (match ws with | r :: _ => f.ofCmd w.x r.cmd | [] => f)).deepLowOf ch

end Sys2Proof.Machine
end

