-- ==== Sys2Proof/Machine/Mailbox.lean ====
section
/-! DEFINITION. Mailbox slots, sealing, taking packets, FEED, FETCH, completion entries and the destruction of contexts
(12, R294 to R319). -/

namespace Sys2Proof.Machine

open Sys2Proof

/-! ## Slots and the seal -/

/-- The lamplighter runs and the mailboxes answer: stage 4 has ended and no reset holds H0 (19, R470, R472). -/
def State.hubUp (s : State) : Bool :=
  s.board.railsOn && decide (5 ≤ s.clock.stage) && s.clock.resetting.isNone && !s.clock.resetHeld && !s.clock.perstHeld

/-- A packet as a slot holds it. -/
structure Pkt where
  slot : Fin 8
  seq : W32
  tag : W64
  hdr : List Byte
  pay : List Byte
  deriving DecidableEq, Repr

/-- The packet of a slot's bytes (R297, R302). -/
def MailSlot.pkt (m : MailSlot) (i : Fin 8) : Pkt :=
  let h := m.bytes.read 0 64
  let n := fld h 2 2
  { slot := i, seq := m.seq, tag := BitVec.ofNat 64 (fld h 8 8), hdr := m.bytes.read 0 n
    pay := m.bytes.read 0x2000 (fld h 4 4) }

def Pkt.type (p : Pkt) : Nat := byteAt p.hdr 0
def Pkt.sub (p : Pkt) : Nat := byteAt p.hdr 1
def Pkt.target (p : Pkt) : Fin 16 := ix 16 (bits (byteAt p.hdr 0x10) 3 0)

/-- A PACKET entry (R317). -/
def packetEntry (p : Pkt) (reason : Nat) (failed poisoned : Bool) (det : List Byte) : Entry :=
  { Entry.blank 1 reason with failed := failed, poisoned := poisoned, seq := p.seq, tag := p.tag, slot := p.slot.val
                              detail := det }

/-- LAST_REASON and LAST_REFUSED_SEQ (R301). -/
def State.noteRefusal (s : State) (x : Fin 16) (reason : Nat) (seq : W32) : State :=
  s.modCtx x (fun k => { k with lastReason := reason, lastRefused := seq })

/-- A packet finishes: its slot is FREE and its PACKET entry is written; a kill that waited for it may end (R296, R317,
R432). -/
def State.finishPacket (s : State) (x : Fin 16) (p : Pkt) (reason : Nat) (failed poisoned : Bool) (det : List Byte) : State :=
  ((s.modSlot x p.slot (fun m => { m with state := .free })).post x (packetEntry p reason failed poisoned det)).endKill x

/-- A packet finishes without a reason. -/
def State.donePacket (s : State) (x : Fin 16) (p : Pkt) : State := s.finishPacket x p 0 false false []

/-- A taken packet is refused; an ACTIVE context is told by an entry (R301). -/
def State.refusePacket (s : State) (x : Fin 16) (p : Pkt) (reason index : Nat) : State :=
  let s1 := (s.noteRefusal x reason p.seq).modSlot x p.slot (fun m => { m with state := .free })
  (if (s.ctx x).state == .active then s1.post x { packetEntry p reason true false [] with index := index } else s1).endKill x

/-- A SEQ that a sealed or taken packet carries (R300). -/
def Ctx.holdsSeq (k : Ctx) (seq : W32) : Bool :=
  k.slots.toList.any (fun m => m.state != .free && m.seq == seq)

/-- The checks of R299 on a slot that is being sealed: the reason of the first that fails, or 0. -/
def Ctx.sealReason (k : Ctx) (m : MailSlot) (sramBad : Bool) : Nat :=
  let h := m.bytes.read 0 64
  let hl := fld h 2 2
  let pl := fld h 4 4
  if sramBad then 0x0209
  else if hl % 64 ≠ 0 ∨ hl < 64 ∨ 8128 < hl ∨ 65536 < pl then 0x0204
  else if crc32c (m.bytes.read 0 hl ++ m.bytes.read 0x2000 pl) ≠ BitVec.ofNat 32 (leNat (m.bytes.read 0x1FFC 4)) then 0x0201
  else if 8 ≤ dist32 m.seq k.seqExpect ∨ k.holdsSeq m.seq then 0x0202
  else 0

/-- Seals a FREE slot with what it holds (R297, R299). -/
def State.seal (s : State) (x : Fin 16) (i : Fin 8) (sramBad : Bool) : State :=
  let m := (s.ctx x).slots[i]
  let reason := (s.ctx x).sealReason m sramBad
  if reason = 0 then s.modSlot x i (fun m => { m with state := .sealed })
  else
    let s1 := (s.noteRefusal x reason m.seq).modCtx x (fun k => { k with sealRefused := satAdd k.sealRefused 1 })
    if (s.ctx x).state == .active then s1.post x (packetEntry (m.pkt i) reason true false []) else s1

/-- A host write into a slot (R296, R297): it lands if the slot is FREE, and seals it when it covers the CRC half of the
seal word. `sramBad` says that an error has struck the slot's SRAM meanwhile, besides those that stand in it (log 148). -/
def State.slotWrite (s : State) (x : Fin 16) (i : Fin 8) (off : Nat) (bs : List Byte) (sramBad : Bool) : State :=
  if !s.hubUp then s
  else if (s.ctx x).slots[i].state != .free then s.modCtx x (fun k => { k with lateWrites := satAdd k.lateWrites 1 })
  else
    let bs := bs.take (0x12000 - off)
    let s1 := s.modSlot x i (fun m => { m with bytes := m.bytes.write off bs })
    if off < 0x2000 ∧ 0x1FFC < off + bs.length then
      ({ s1 with hub := { s1.hub with badSlots := s1.hub.badSlots.filter (· != (x, i)) } }).seal x i
        (sramBad || s.hub.badSlots.contains (x, i))
    else s1

/-- SLOT_WRITE (R296). -/
def doSlotWrite (x : Fin 16) (i : Fin 8) (off : Nat) (bs : List Byte) (s : State) : State := s.slotWrite x i off bs false

/-- SEAL (R297, R299): the write of the seal word, as one 8-byte write. -/
def doSeal (x : Fin 16) (i : Fin 8) (seq crc : W32) (sramBad : Bool) (s : State) : State :=
  s.slotWrite x i 0x1FF8 (leBytes 4 seq.toNat ++ leBytes 4 crc.toNat) sramBad

/-! ## Taking packets (R302, R303, R310, R314) -/

/-- A context accepts a packet of a type and subtype in its state (R303): the reason to refuse it, or 0. -/
def acceptState (st : CtxState) (type sub : Nat) : Nat :=
  let create := type == 4 && sub == 1
  match st with
  | .none => if create then 0 else 0x0110
  | .active => if create then 0x0105 else 0
  | .destroying => 0x0110
  | .killed => if type == 5 || (type == 4 && sub == 2) then 0 else 0x0110

/-- The length rules of SUBMIT (R304). -/
def submitLengths (p : Pkt) : Bool :=
  let n := fld p.hdr 0x18 2
  let t := fld p.hdr 0x1A 2
  decide (1 ≤ n) && decide (n ≤ 1024) && decide (t ≤ 1024) && p.pay.length == 64 * n + 32 * t && decide (64 + n ≤ p.hdr.length)

/-- Reserved ranges of the type-specific header bytes of CONTROL, by subtype (Table 12.8): offset and length. -/
def controlReserved (sub : Nat) : List (Nat × Nat) :=
  match sub with
  | 0x01 => [(0x24, 4), (0x39, 7)]
  | 0x03 => [(0x20, 0x20)]
  | 0x04 => [(0x19, 3), (0x24, 0x1C)]
  | 0x05 => [(0x19, 1), (0x1E, 0x22)]
  | 0x06 => [(0x19, 0x27)]
  | 0x07 => [(0x1C, 4), (0x28, 0x18)]
  | 0x08 => [(0x19, 0x27)]
  | 0x09 => [(0x28, 0x18)]
  | 0x0A => [(0x22, 0x1E)]
  | 0x0B => [(0x20, 0x20)]
  | 0x0D => [(0x28, 0x18)]
  | _ => [(0x18, 0x28)]

/-- Reserved header bytes and bits are zero (R302, R310, Table 12.5). -/
def headerReservedOk (p : Pkt) : Bool :=
  let h := p.hdr
  let common := bits (byteAt h 0x10) 7 4 == 0 && zeroRange h 0x11 7
  let tail := zeroRange h 0x40 (h.length - 0x40)
  let plain := byteAt h 1 == 0 && byteAt h 0x10 == 0
  match p.type with
  | 1 => common && plain && bits (byteAt h 0x1C) 7 1 == 0 && zeroRange h 0x1D 0x23 &&
      zeroRange h (0x40 + fld h 0x18 2) (h.length - 0x40 - fld h 0x18 2)
  | 2 => common && plain && tail && bits (byteAt h 0x1E) 7 3 == 0 && zeroRange h 0x1F 0x21
  | 3 => common && plain && tail && bits (byteAt h 0x1E) 7 3 == 0 && byteAt h 0x1F == 0 && zeroRange h 0x24 4 &&
      zeroRange h 0x38 8
  | 4 => common && tail && (controlReserved p.sub).all (fun r => zeroRange h r.1 r.2) &&
      (!(p.sub == 4 || p.sub == 5 || p.sub == 8) || bits (byteAt h 0x18) 7 2 == 0)
  | _ => common && tail && bits (byteAt h 0x30) 7 2 == 0 && zeroRange h 0x31 0xF

/-- Subtypes that a context may send for itself, and those that the physical function may send for any context
(Table 12.8). -/
def controlOwn (sub : Nat) : Bool := [0x01, 0x02, 0x07, 0x08, 0x09, 0x0A, 0x0B].contains sub

def controlPf (sub : Nat) : Bool := [0x03, 0x04, 0x05, 0x06, 0x0C, 0x0D, 0x0E].contains sub

/-- The sender and TARGET rules (R310, R313): the reason to refuse, or 0. -/
def senderReason (x : Fin 16) (p : Pkt) : Nat :=
  let own := p.target == x
  if p.type = 4 then
    if !(controlOwn p.sub || controlPf p.sub) then 0x010D
    else if controlOwn p.sub then
      if own || (x == 0 && p.sub == 2) then 0 else 0x010C
    else if x == 0 then 0 else 0x010C
  else if p.type = 5 then
    if p.sub < 1 ∨ 8 < p.sub then 0x010D
    else if x == 0 then 0
    else if p.sub = 8 ∨ !own then 0x010C else 0
  else 0

/-- The payload lengths of CONTROL and QUERY packets that carry none (R302, Table 12.8). -/
def payloadOk (p : Pkt) : Bool :=
  if p.type = 4 then
    match p.sub with
    | 0x07 => true
    | 0x08 => true
    | 0x0C => true
    | 0x0E => decide (64 ≤ p.pay.length)
    | _ => p.pay.isEmpty
  else if p.type = 5 ∨ p.type = 3 then p.pay.isEmpty
  else true

/-- The checks made when a packet is taken: the reason to refuse it, or 0. -/
def takeReason (st : CtxState) (x : Fin 16) (p : Pkt) : Nat :=
  if p.type < 1 ∨ 5 < p.type then 0x0203
  else
    let a := acceptState st p.type p.sub
    if a ≠ 0 then a
    else if p.type = 1 ∧ !submitLengths p then 0x0204
    else
      let r := senderReason x p
      if r ≠ 0 then r
      else if !headerReservedOk p then 0x0206
      else if !payloadOk p then 0x0204
      else 0

/-- Slots that hold a CONTROL packet in progress. -/
def Ctx.controlOpen (k : Ctx) : Bool := k.takenSlots.any (fun q => byteAt (q.2.header 64) 0 == 4)

/-- The sealed slot that holds packet E of a context. -/
def Ctx.nextSlot (k : Ctx) : Option (Fin 8) :=
  (List.finRange 8).find? (fun i => k.slots[i].state == .sealed && k.slots[i].seq == k.seqExpect)

/-- The lamplighter can take packet E of a context now (R300, R314, R318). A refusal waits until the packets taken before it have
reported, so that PACKET entries follow sequence order. -/
def State.canTake (s : State) (x : Fin 16) : Bool :=
  let k := s.ctx x
  match k.nextSlot with
  | none => false
  | some i =>
    let p := k.slots[i].pkt i
    let idle := k.takenSlots.isEmpty
    let waiting := k.takenSlots.any (fun q => q.2.state == .taken)
    s.hubUp && !k.dying && decide (k.waiting < 4032) && !k.controlOpen && (p.type != 4 || idle) &&
      (takeReason k.state x p == 0 || !waiting)

/-- Contexts are served in round-robin order (R314): none that stands between the one served last and this one can be taken now. -/
def State.itsTurn (s : State) (x : Fin 16) : Bool :=
  (List.finRange 16).all (fun i => decide ((x.val + 15 - s.hub.turn.val) % 16 ≤ i.val) ||
    !s.canTake (ix 16 ((s.hub.turn.val + 1 + i.val) % 16)))

/-- PACKET_TAKE (R300, R303, R314): the lamplighter takes packet E of a context, in its turn. -/
def doPacketTake (x : Fin 16) (s : State) : State :=
  let k := s.ctx x
  match k.nextSlot with
  | none => s
  | some i =>
    if !s.canTake x || !s.itsTurn x then s
    else
      let p := k.slots[i].pkt i
      let reason := takeReason k.state x p
      let s1 := ({ s with hub := { s.hub with turn := x } }).modCtx x (fun k => { k with seqExpect := k.seqExpect + 1 })
      let s2 := s1.modSlot x i (fun m => { m with state := .taken })
      if reason = 0 then s2 else s2.refusePacket x p reason 0

/-- The taken packet of a slot, if it is of a type and subtype and no packet taken before it waits to be carried out. -/
def State.packetAt (s : State) (x : Fin 16) (i : Fin 8) (type : Nat) (sub : Option Nat) : Option Pkt :=
  let k := s.ctx x
  let m := k.slots[i]
  let p := m.pkt i
  let ahead := k.takenSlots.any (fun q => q.2.state == .taken && seqBefore q.2.seq p.seq)
  if s.hubUp && m.state == .taken && p.type == type && (match sub with | some b => p.sub == b | none => true) && !ahead
  then some p else none

/-- The accepted packet of a slot that waits to take effect. -/
def State.acceptedAt (s : State) (x : Fin 16) (i : Fin 8) (sub : Nat) : Option Pkt :=
  let m := (s.ctx x).slots[i]
  let p := m.pkt i
  if s.hubUp && m.state == .accepted && p.type == 4 && p.sub == sub then some p else none

/-- A CONTROL packet is accepted and waits. -/
def State.acceptPacket (s : State) (x : Fin 16) (p : Pkt) : State := s.modSlot x p.slot (fun m => { m with state := .accepted })

/-! ## FEED and FETCH (R307 to R309, R315) -/

/-- Every page that a range of the unified range touches belongs to a context (R267). -/
def State.owns (s : State) (x : Fin 16) (a n : Nat) : Bool :=
  (List.range ((a + n + 131071) / 131072 - a / 131072)).all (fun i =>
    match s.homeOf (a / 131072 + i) with
    | some e => e.owner == x
    | none => false)

/-- One past the last byte of a context's almanac region (09, R213), with its base. -/
def Ctx.almanacRange (k : Ctx) : Option (Nat × Nat) :=
  match k.almanac with
  | none => none
  | some a => match a.entries.getLast? with
    | some e => some (a.base, a.base + 256 * (e.1 + 1))
    | none => none

/-- A write of a range would reach the almanac region (R213). -/
def Ctx.hitsAlmanac (k : Ctx) (a n : Nat) : Bool :=
  match k.almanacRange with
  | some (lo, hi) => decide (a < hi) && decide (lo < a + n)
  | none => false

/-- The address rules of FEED and FETCH (R307, R308): the reason to refuse, or 0. -/
def State.transferReason (s : State) (x : Fin 16) (p : Pkt) (n : Nat) (write : Bool) : Nat :=
  let r := packetRegion p.hdr
  let a := r.base
  if a % 64 ≠ 0 ∨ n % 64 ≠ 0 ∨ n < 64 then 0x020A
  else if r.space = 1 then
    if 2 ^ 41 < a + n then 0x020A
    else if !s.owns x a n then 0x0232
    else if write && (s.ctx x).hitsAlmanac a n then 0x0405
    else 0
  else
    let c : Fin 4 := ix 4 r.core
    let res := (s.cc x c).resSize
    if a + n ≤ res then 0
    else if a + n ≤ res + (s.feed c).t * 2 ^ 20 then 0x0229
    else 0x0232

/-- The commands of a context that have not completed for R315: queued, running, or held inside an open span. -/
def State.openCmds (s : State) (x : Fin 16) : List Cmd :=
  let k := s.ctx x
  let queued := k.cores.toList.flatMap (fun c => c.main ++ c.eval)
  let running := (s.cores.toList.filterMap (·.running)).filterMap (fun r => if r.x = x then some r.cmd else none)
  let held := s.cores.toList.flatMap (fun c => match c.span with | some sp => if sp.x = x then sp.cmds else [] | none => [])
  queued ++ running ++ held ++ k.fabric ++ k.memory ++ (k.fabricRun ++ k.memoryRun).map (·.cmd)

/-- A FEED or FETCH waits (R315, R397; 11, R283). -/
def State.transferWaits (s : State) (x : Fin 16) (p : Pkt) : Bool :=
  let r := packetRegion p.hdr
  let earlier := (s.openCmds x).filter (fun c => seqBefore c.seq p.seq)
  earlier.any (fun c => c.regions.any r.conflicts) || ((s.ctx x).openPackets p.seq).any r.conflicts ||
    hitsHeld (s.spanHeld x none false) [r] ||
    (r.write && r.space == 1 && (r.units 131072).any s.moving)

/-- A posted write into host memory (R293). -/
def State.hostWrite (s : State) (x : Fin 16) (addr : Nat) (bs : List Byte) : State :=
  { s with hub := { s.hub with hostWrites := s.hub.hostWrites ++ [⟨x.val, addr, bs⟩] } }

/-- The data of a chunk as the host gets it: a poisoned sector is 64 zero bytes (R309). -/
def cleanChunk (bs : List PByte) : List Byte :=
  ((chunks 64 bs).map (fun c => if c.any (·.p) then zeros c.length else c.map (·.b))).flatten

/-- A chunk trailer (Table 12.7). -/
def trailer (p : Pkt) (j : Nat) (data : List Byte) (reason : Nat) (last poisoned : Bool) : List Byte :=
  leBytes 8 p.tag.toNat ++ leBytes 4 p.seq.toNat ++ leBytes 4 j ++ leBytes 4 data.length ++
    leBytes 4 (crc32c data).toNat ++ leBytes 2 reason ++
    [BitVec.ofNat 8 (1 + 2 * b2n last + 4 * b2n poisoned)] ++ zeros 37

/-- Returns data to the host in chunks, each followed by its trailer (R308, R309). The last trailer carries 0x020C when
poison was met. -/
def State.returnData (s : State) (x : Fin 16) (p : Pkt) (host : Nat) (bs : List PByte) : State :=
  let cs := chunks 65536 bs
  let bad := bs.any (·.p)
  cs.zipIdx.foldl (fun s c =>
    let data := cleanChunk c.1
    let last := c.2 + 1 == cs.length
    let at' := host + 69632 * c.2
    (s.hostWrite x at' data).hostWrite x (at' + 65536)
      (trailer p c.2 data (if last && bad then 0x020C else 0) last (c.1.any (·.p)))) s

/-- A FETCH or QUERY that met poison: one uncontained record (R309, R420). -/
def State.sinkPacket (s : State) (x : Fin 16) (p : Pkt) : State :=
  s.detect { s.faultNow 2 0x020C 0x0C with ctx := some x, seq := p.seq }

/-- Finishes a transfer to the host (R309). -/
def State.endTransfer (s : State) (x : Fin 16) (p : Pkt) (host : Nat) (bs : List PByte) : State :=
  let bad := bs.any (·.p)
  let s1 := s.returnData x p host bs
  if bad then (s1.sinkPacket x p).finishPacket x p 0x020C true true [] else s1.donePacket x p

/-- Carries out a FEED: its payload becomes visible, with no poison (R307). -/
def State.runFeed (s : State) (x : Fin 16) (p : Pkt) : State :=
  let r := packetRegion p.hdr
  (s.rwrite x r.space (ix 4 r.core) r.base (p.pay.map (fun b => ⟨b, false⟩))).donePacket x p

/-- Carries out a FETCH (R308): the bytes as they are stored. A FETCH names no tensor and no format, so that the dequantisation which
R43 (02) speaks of has no field to ask for it (DESIGN CHOICE, log 118). -/
def State.runFetch (s : State) (x : Fin 16) (p : Pkt) : State :=
  let r := packetRegion p.hdr
  let s := if r.space = 1 then s.touchRange r.base (fld p.hdr 0x20 4) none else s
  s.endTransfer x p (fld p.hdr 0x28 8) (s.rread x r.space (ix 4 r.core) r.base (fld p.hdr 0x20 4))

/-- The transfer of a taken or held packet. -/
def State.runTransfer (s : State) (x : Fin 16) (p : Pkt) : State :=
  if p.type = 2 then s.runFeed x p else s.runFetch x p

/-- FEED (R307, R315). -/
def doFeed (x : Fin 16) (i : Fin 8) (s : State) : State :=
  match s.packetAt x i 2 none with
  | none => s
  | some p =>
    let reason := s.transferReason x p p.pay.length true
    if reason ≠ 0 then s.refusePacket x p reason 0
    else if s.transferWaits x p then s.modSlot x i (fun m => { m with state := .held })
    else s.runFeed x p

/-- HOST_ADDR and HOST_SIZE hold a result of n bytes (R308). -/
def hostRoom (addr size n : Nat) : Bool := addr % 4096 == 0 && decide (69632 * ceilDiv n 65536 ≤ size)

/-- FETCH (R308, R309, R315). A FETCH of a context that is being killed stops before its first chunk (R432). -/
def doFetch (x : Fin 16) (i : Fin 8) (s : State) : State :=
  match s.packetAt x i 3 none with
  | none => s
  | some p =>
    let n := fld p.hdr 0x20 4
    let reason := if 16777216 < n then 0x020A else s.transferReason x p n false
    if (s.ctx x).dying then s.finishPacket x p (s.ctx x).killReason true false []
    else if reason ≠ 0 then s.refusePacket x p reason 0
    else if !hostRoom (fld p.hdr 0x28 8) (fld p.hdr 0x30 8) n then s.refusePacket x p 0x020B 0
    else if s.transferWaits x p then s.modSlot x i (fun m => { m with state := .held })
    else s.runFetch x p

/-- HELD_PACKET_RELEASE (R315): a held FEED or FETCH runs once nothing it conflicts with is left. -/
def doHeldPacketRelease (x : Fin 16) (i : Fin 8) (s : State) : State :=
  let m := (s.ctx x).slots[i]
  if !s.hubUp || m.state != .held then s
  else
    let p := m.pkt i
    if (s.ctx x).dying && p.type == 3 then s.finishPacket x p (s.ctx x).killReason true false []
    else if s.transferWaits x p then s
    else s.runTransfer x p

/-! ## Completion ring (R316 to R319) -/

/-- The ring has room (R316). -/
def Ctx.ringRoom (k : Ctx) : Bool := decide (dist32 k.cqTail k.cqHead < k.ringEntries)

/-- The class of an entry (Table 12.12). -/
def Entry.cls (e : Entry) : Nat :=
  match e.kind with
  | 2 => if e.queue < 4 then 1 + e.queue else if e.queue = 4 then 5 else 6
  | 4 => 7
  | 5 => 8
  | 6 => 8
  | _ => 0

/-- One MSI-X message, or its pending bit when the vector is masked (R319). -/
def State.msix (s : State) (x : Fin 16) (v : Nat) : State :=
  let m := s.hub.msix[x]
  if m.masked.contains v then
    { s with hub := { s.hub with msix := vmod s.hub.msix x (fun m => { m with pend := setInsert v m.pend }) } }
  else { s with hub := { s.hub with msixSent := s.hub.msixSent ++ [(x.val, v)] } }

/-- Writes an entry to the ring, then its message (R316, R319). -/
def State.ringWrite (s : State) (x : Fin 16) (e : Entry) : State :=
  let k := s.ctx x
  let n := k.cqTail.toNat
  let s1 := s.hostWrite x (k.ringAddr.toNat + 64 * (n % k.ringEntries)) (e.encode n k.ringEntries)
  (s1.modCtx x (fun k => { k with cqTail := k.cqTail + 1 })).msix x ((k.vecMap[e.cls]?).getD 0)

/-- The OVERFLOW entry (R318). -/
def Ctx.overflowEntry (k : Ctx) : Entry := { Entry.blank 6 0 with detail := detail [(0, 4, k.eventsDropped.toNat)] }

/-- COMPLETION_ENTRY (R318, R319): the oldest formed entry goes to the ring, or to the backlog when the ring is full or
entries already wait; an EVENT finds no place from 4,032 on. -/
def doCompletionEntry (x : Fin 16) (s : State) : State :=
  let k := s.ctx x
  match k.formed with
  | [] => s
  | e :: rest =>
    let s1 := s.modCtx x (fun k => { k with formed := rest })
    if k.ringRoom && k.backlog.isEmpty && !k.owedOverflow then s1.ringWrite x e
    else if e.kind = 4 ∧ 4032 ≤ k.backlog.length then
      s1.modCtx x (fun k => { k with eventsDropped := satAdd k.eventsDropped 1, owedOverflow := true })
    else s1.modCtx x (fun k => { k with backlog := k.backlog ++ [e] })

/-- BACKLOG_DRAIN (R318): the OVERFLOW entry that is owed, or the oldest waiting entry, is written. -/
def doBacklogDrain (x : Fin 16) (s : State) : State :=
  let k := s.ctx x
  if !k.ringRoom then s
  else if k.owedOverflow then (s.ringWrite x k.overflowEntry).modCtx x (fun k => { k with owedOverflow := false })
  else match k.backlog with
    | [] => s
    | e :: rest => (s.ringWrite x e).modCtx x (fun k => { k with backlog := rest })

/-- CQ_HEAD_WRITE (R316). -/
def doCqHeadWrite (x : Fin 16) (v : W32) (s : State) : State := s.modCtx x (fun k => { k with cqHead := v })

/-! ## Destroying contexts (R294, R312) -/

/-- Fills a physical range of a feed die with zero bytes (07, R168). -/
def FeedS.zeroFill (f : FeedS) (o n : Nat) : FeedS :=
  { f with spad := f.spad.erase o n, poison := clearRange f.poison (o / 1024) (n / 1024) }

/-- Releases what a context holds outside itself: pages and resident sub-windows (R312). -/
def State.releaseAll (s : State) (x : Fin 16) : State :=
  let s1 := (s.pagesOf x).foldl (fun s e => s.freePage e.1) s
  (List.finRange 4).foldl (fun s c =>
    let k := s.cc x c
    s.modFeed c (fun f => { (f.zeroFill k.resBase k.resSize) with cache := f.cache.filter (fun l => l.x != x.val) })) s1

/-- Commands queued in a context. -/
def Ctx.queued (k : Ctx) : Nat :=
  k.cores.toList.foldl (fun n c => n + c.main.length + c.eval.length) 0 + k.fabric.length + k.memory.length

/-- Begins to destroy a context (R312): dispatch stops, queued commands are discarded; running ones go on. An open span
has lost its SPAN_CLOSE and is dropped with the completions it held. -/
def State.beginDestroy (s : State) (x : Fin 16) (tag : Option (Nat × W32 × W64 × Nat)) : State :=
  let n := (s.ctx x).queued
  let s1 := s.modCtx x (fun k => { k with
    state := .destroying, discarded := n, destroyTag := tag, fabric := [], memory := []
    cores := k.cores.map (fun q => { q with main := [], eval := [], admitted := 0, setPending := false, hint := none }) })
  let s2 := (List.finRange 4).foldl (fun s c =>
    match (s.core c).span with
    | some sp => if sp.x = x then (s.modCore c (fun k => { k with span := none })).clearCaptures c else s
    | none => s) s1
  (s2.haltMoves x).modTiers (fun t => { t with reqs := t.reqs.filter (fun r => r.x != x) })

/-- A context runs no command. -/
def State.noneRunning (s : State) (x : Fin 16) : Bool :=
  s.cores.toList.all (fun k => match k.running with | some r => r.x != x | none => true) &&
    (s.ctx x).fabricRun.isEmpty && (s.ctx x).memoryRun.isEmpty

/-- A context becomes NONE with E 1; its ring takes the entries already formed. -/
def State.makeNone (s : State) (x : Fin 16) : State :=
  ((s.dropFabric x).releaseAll x).modCtx x (fun k => { Ctx.blank with
    lastReason := k.lastReason, lastRefused := k.lastRefused, cqHead := k.cqHead, cqTail := k.cqTail, formed := k.formed
    backlog := k.backlog, owedOverflow := k.owedOverflow, lateWrites := k.lateWrites, sealRefused := k.sealRefused
    eventsDropped := k.eventsDropped, ringAddr := k.ringAddr, ringEntries := k.ringEntries, vecMap := k.vecMap
    slots := k.slots.map (fun m => { m with state := .free }) })

/-- DESTROY_FINISH (R312): once no command runs, resources are released, the DESTROY packet and the CONTEXT entry are
written and the context becomes NONE. -/
def doDestroyFinish (x : Fin 16) (s : State) : State :=
  if (s.ctx x).state != .destroying || !s.noneRunning x then s
  else
    let k := s.ctx x
    let ctxEntry := fun (s : State) => s.post x (Entry.blank 5 0)
    let done := fun (s : State) =>
      match k.destroyTag with
      | some (by', seq, tag, slot) =>
        let p : Pkt := { slot := ix 8 slot, seq := seq, tag := tag, hdr := [], pay := [] }
        s.finishPacket (ix 16 by') p 0 false false (detail [(8, 4, k.discarded)])
      | none => s
    let s1 := match k.destroyTag with
      | none => s
      | some _ => if k.killReason = 0 then ctxEntry (done s) else done (ctxEntry s)
    s1.makeNone x

/-- Destroys a context at once, with no entries (19, R470; R294): its commands are lost with the reset. -/
def State.wipeCtx (s : State) (x : Fin 16) : State :=
  (((s.stopWork x).makeNone x)).modCtx x (fun _ => Ctx.blank)

/-- A function's mailbox, control page and MSI-X state return to their reset values (R294, R300, Table 12.4). -/
def State.resetFunction (s : State) (x : Fin 16) : State :=
  let s1 := { s with hub := { s.hub with msix := vmod s.hub.msix x (fun _ => ⟨[], []⟩) } }
  s1.modCtx x (fun k => { k with
    lastReason := 0, seqExpect := 1, lastRefused := 0, cqHead := 0, cqTail := 0, formed := [], backlog := []
    owedOverflow := false, lateWrites := 0, sealRefused := 0, eventsDropped := 0
    slots := k.slots.map (fun m => { m with state := .free }) })

/-- Destroys a context for a function-level reset: as DESTROY does, with no entries (R294). A DESTROY of it that the physical function
has asked for still finishes with its packet, unless that function is reset too. -/
def State.flrCtx (s : State) (x : Fin 16) (pf : Bool) : State :=
  let s1 := match (s.ctx x).state with
    | .none => s
    | .destroying => s.modCtx x (fun k => { k with
        silent := true, destroyTag := k.destroyTag.filter (fun t => t.1 != x.val && !pf) })
    | _ => s.beginDestroy x none
  s1.resetFunction x

/-- FUNCTION_LEVEL_RESET (R294): of a virtual function its own context; of the physical function all sixteen, and VF
Enable is cleared. -/
def doFunctionLevelReset (x : Fin 16) (s : State) : State :=
  if x = 0 then
    let s1 := (List.finRange 16).foldl (fun s y => s.flrCtx y true) s
    { s1 with hub := { s1.hub with vfEnable := false } }
  else s.flrCtx x false

end Sys2Proof.Machine
end

