-- ==== Sys2Proof/Machine/Link.lean ====
section
/-! DEFINITION. Ports, frames, flows and acknowledgements (14, R347 to R355). -/

namespace Sys2Proof.Machine

open Sys2Proof

/-! ## Ports (R347, R348) -/

/-- The link die of a port, counted as 4 × die + port. -/
def dieOfPort (p : Fin 16) : Fin 4 := ⟨p.val / 4, by omega⟩

/-- A port is in service on an enabled link die. -/
def State.portUp (s : State) (p : Fin 16) : Bool :=
  s.blks[ix 36 (32 + p.val / 4)].enabled && (s.links[dieOfPort p]).ports[ix 4 (p.val % 4)].inService

def State.anyPort (s : State) : Bool := (List.finRange 16).any s.portUp

def State.modLink (s : State) (l : Fin 4) (f : LinkS → LinkS) : State := { s with links := vmod s.links l f }

def State.modPort (s : State) (p : Fin 16) (f : Port → Port) : State :=
  s.modLink (dieOfPort p) (fun k => { k with ports := vmod k.ports (ix 4 (p.val % 4)) f })

def State.modFabric (s : State) (f : Fabric → Fabric) : State := { s with fabric := f s.fabric }

/-- The next port in service in round-robin order (R347). -/
def State.nextPort (s : State) : Option (Fin 16) :=
  ((List.range 16).map (fun i => ix 16 (s.fabric.port + i))).find? s.portUp

/-- The MAC address of a port of a node (R371). -/
def State.mac (s : State) (node port : Nat) : Nat := (s.role 0x30 4 % 2 ^ 20) * 2 ^ 28 + node * 16 + port

/-- The link registers in force: those of the first enabled die, which all enabled dies share (R349). -/
def State.linkCfg (s : State) : LinkS :=
  match (List.finRange 4).find? (fun l => s.blks[ix 36 (32 + l.val)].enabled) with
  | some l => s.links[l]
  | none => s.links[(0 : Fin 4)]

/-- The largest payload that is sent (Table 14.2). -/
def State.payMax (s : State) : Nat := 1024 * 2 ^ s.linkCfg.payMax

/-- Puts a frame on a port, with THROTTLED as it stands (R348, R367). -/
def State.wire (s : State) (p : Fin 16) (f : Frame) : State :=
  let k := s.linkCfg
  let w : Wire := { port := p.val, dstMac := s.mac f.dst p.val, srcMac := s.mac f.src p.val
                    vlan := if k.vlanEn then some (k.vlanId, k.vlanPcp) else none, etype := k.etype
                    frame := { f with throttled := s.power.throttled } }
  s.modFabric (fun b => { b with port := (p.val + 1) % 16, sent := b.sent ++ [w] })

/-- Frames may be sent: the link clocks run and the module is not in the fatal state (R425, R465). -/
def State.maySend (s : State) : Bool := s.fastUp

/-- Sends a frame on the port of its stripe, or round-robin (R347); none when no port is in service. -/
def State.transmit (s : State) (pref : Option (Fin 16)) (f : Frame) : Option State :=
  match pref with
  | some p => if s.portUp p then some (s.wire p f) else s.nextPort.map (fun q => s.wire q f)
  | none => s.nextPort.map (fun q => s.wire q f)

/-! ## Sending flows (R352 to R354) -/

def TxFlow.isKey (f : TxFlow) (peer job channel : Nat) : Bool := f.peer == peer && f.job == job && f.channel == channel

/-- A new sending flow. -/
def TxFlow.fresh (peer job channel : Nat) (x : Option (Fin 16)) : TxFlow :=
  { peer := peer, job := job, channel := channel, x := x, next := 0, start := true, cwnd := 64, credit := 64, frames := [] }

def State.txFlow (s : State) (peer job channel : Nat) : Option TxFlow :=
  s.fabric.tx.find? (·.isKey peer job channel)

def State.modTx (s : State) (peer job channel : Nat) (f : TxFlow → TxFlow) : State :=
  s.modFabric (fun b => { b with tx := b.tx.map (fun t => if t.isKey peer job channel then f t else t) })

/-- Marks a frame of a flow as sent now. -/
def TxFlow.markSent (t : TxFlow) (seq : W32) (now : Nat) : TxFlow :=
  { t with frames := t.frames.map (fun o => if o.frame.seq = seq then { o with sent := some now } else o) }

/-- Frames of a flow that are in flight (R354). -/
def TxFlow.flying (t : TxFlow) : Nat := (t.frames.filter (fun o => o.sent.isSome && !o.sacked)).length

/-- The window of a flow is full: it sends nothing before an ACK arrives (R354). -/
def TxFlow.full (t : TxFlow) : Bool := decide (min t.cwnd t.credit ≤ t.flying)

/-- Sends the frames that the window of a flow allows (R354). -/
def State.pump (s : State) (peer job channel : Nat) : State :=
  match s.txFlow peer job channel with
  | none => s
  | some t =>
    let room := min t.cwnd t.credit - t.flying
    if !s.maySend then s
    else ((t.frames.filter (fun o => o.sent.isNone)).take room).foldl (fun s o =>
      match s.transmit o.port o.frame with
      | none => s
      | some s1 => s1.modTx peer job channel (·.markSent o.frame.seq s.pilot)) s

/-- Sends what every flow's window allows. -/
def State.pumpAll (s : State) : State := s.fabric.tx.foldl (fun s t => s.pump t.peer t.job t.channel) s

/-- A frame of the own node without flow fields. -/
def State.frame (s : State) (kind channel job dst : Nat) (payload : List Byte) : Frame :=
  { version := 1, kind := kind, throttled := false, last := false, poison := false, retx := false, start := false
    src := s.node.getD 0, dst := dst, job := job, channel := channel, stripe := 0, seq := 0, msg := 0, offset := 0, word := 0
    pcrc := if payload.isEmpty then 0 else crc32c payload, payload := payload }

/-- Gives a frame its place in its flow and sends what the window allows. -/
def State.enqueue (s : State) (x : Option (Fin 16)) (owner : Option Nat) (port : Option (Fin 16)) (f : Frame) : State :=
  let s1 := match s.txFlow f.dst f.job f.channel with
    | some _ => s
    | none => s.modFabric (fun b => { b with tx := b.tx ++ [TxFlow.fresh f.dst f.job f.channel x] })
  let s2 := s1.modTx f.dst f.job f.channel (fun t =>
    let f' := { f with seq := t.next, start := t.start }
    { t with x := x, next := t.next + 1, start := false
             frames := t.frames ++ [{ frame := f', sent := none, timeouts := 0, sacked := false, fast := false, owner := owner
                                      port := port }] })
  s2.pump f.dst f.job f.channel

/-- No frame of a command or service is unacknowledged. -/
def State.allAcked (s : State) (owner : Nat) : Bool :=
  s.fabric.tx.all (fun t => t.frames.all (fun o => o.owner != some owner))

/-- A command has sent every frame that it has made. -/
def State.allSent (s : State) (owner : Nat) : Bool :=
  s.fabric.tx.all (fun t => t.frames.all (fun o => o.owner != some owner || o.sent.isSome))

/-- A command has sent everything it can (R357): what it has not sent stands behind a full window. -/
def State.sentAll (s : State) (owner : Nat) : Bool :=
  s.fabric.tx.all (fun t => t.full || t.frames.all (fun o => o.owner != some owner || o.sent.isSome))

/-! ## Receiving (R351, R352) -/

/-- A frame passes R351. Control and attestation frames use job 0xFFFF (R350), and so do the ACKs of their flows (15, R374). -/
def State.frameOk (s : State) (f : Frame) : Bool :=
  f.version == 1 && decide (1 ≤ f.kind) && decide (f.kind ≤ 6) && f.payload.length % 64 == 0 &&
    decide (f.payload.length ≤ 8192) && f.pcrc == (if f.payload.isEmpty then 0 else crc32c f.payload) &&
    s.node == some f.dst &&
    (if 5 ≤ f.kind then f.job == 0xFFFF else (f.kind == 2 && f.job == 0xFFFF) || (s.jobCtx f.job).isSome)

/-- Counts a discarded frame on the die of its port. -/
def State.discardFrame (s : State) (p : Fin 16) : State :=
  s.modLink (dieOfPort p) (fun k => { k with rxDiscard := satAdd k.rxDiscard 1 })

/-- A frame that a port takes in: discarded under R351, or heard, with THROTTLED of its sender noted (R357). The flag says
that it stands. -/
def State.hear (s : State) (p : Fin 16) (f : Frame) : State × Bool :=
  if !s.portUp p then (s, false)
  else if !s.frameOk f then (s.discardFrame p, false)
  else (s.modFabric (fun b => { b with peers := ainsert f.src f.throttled b.peers }), true)

def RxFlow.isKey (r : RxFlow) (peer job channel : Nat) : Bool := r.peer == peer && r.job == job && r.channel == channel

def State.rxFlow (s : State) (peer job channel : Nat) : Option RxFlow :=
  s.fabric.rx.find? (·.isKey peer job channel)

/-- A receiving flow that has seen nothing. -/
def RxFlow.fresh' (peer job channel : Nat) (x : Option (Fin 16)) : RxFlow :=
  { peer := peer, job := job, channel := channel, x := x, expected := 0, seen := [], fresh := 0, firstAt := none }

/-- Moves the next SEQ expected past those accepted; the count bounds the window. -/
def RxFlow.advance : Nat → RxFlow → RxFlow
  | 0, r => r
  | n + 1, r =>
    if r.seen.contains r.expected.toNat then
      RxFlow.advance n { r with seen := r.seen.erase r.expected.toNat, expected := r.expected + 1 }
    else r

/-- SEQs that the SACK bitmap of an ACK names (Table 14.3). -/
def RxFlow.sack (r : RxFlow) : Nat :=
  (List.range 64).foldl (fun n i => n + b2n (r.seen.contains (r.expected + 1 + BitVec.ofNat 32 i).toNat) * 2 ^ i) 0

def State.setRx (s : State) (r : RxFlow) : State :=
  let put := fun (l : List RxFlow) =>
    if l.any (·.isKey r.peer r.job r.channel) then l.map (fun q => if q.isKey r.peer r.job r.channel then r else q)
    else l ++ [r]
  s.modFabric (fun b => { b with rx := put b.rx })

/-- Sends the ACK of a flow (R353). The credit that it grants, from 16 to 1,024 frames, is free to the receiver (R354). -/
def State.sendAck (s : State) (r : RxFlow) : State :=
  if !s.maySend then s
  else
    let (n, s1) := s.occasion
    let f := { (s1.frame 2 r.channel r.job r.peer []) with
      msg := r.expected, offset := BitVec.ofNat 64 r.sack, word := BitVec.ofNat 32 (16 + Config.choice n % 1009) }
    match s1.transmit none f with
    | none => s
    | some s2 => s2.setRx { r with fresh := 0, firstAt := none }

/-- FLOW_START discards every earlier state of a receiving flow (R352): its window and owed ACK, the frames that wait in it for their
command, its RTSs without a RECV, and its shard requests that are not being served. -/
def State.startFlow (s : State) (peer job channel : Nat) : State :=
  let x := s.jobCtx job
  (s.setRx (RxFlow.fresh' peer job channel x)).modFabric (fun b => { b with
    early := b.early.filter (fun f => !(f.src == peer && f.job == job && f.channel == channel))
    rts := b.rts.filter (fun t => !(channel == 1 && t.peer == peer && some t.x == x))
    services := b.services.filter (fun v =>
      !(channel == 2 && v.peer == peer && v.job == job && v.own.isNone && !v.started)) })

/-- Takes a frame into its flow (R352, R353): accepted once; behind the window or already accepted it is counted and
acknowledged again; beyond the window it is discarded. -/
def State.takeSeq (s : State) (p : Fin 16) (f : Frame) : State × Bool :=
  let s := if f.start then s.startFlow f.src f.job f.channel else s
  let r := (s.rxFlow f.src f.job f.channel).getD (RxFlow.fresh' f.src f.job f.channel (s.jobCtx f.job))
  let d := dist32 f.seq r.expected
  if 2 ^ 31 ≤ d ∨ r.seen.contains f.seq.toNat then
    ((s.modLink (dieOfPort p) (fun k => { k with rxDup := satAdd k.rxDup 1 })).sendAck r, false)
  else if 1024 ≤ d then (s.discardFrame p, false)
  else
    let r1 := RxFlow.advance 1024 { r with seen := f.seq.toNat :: r.seen }
    let r2 := { r1 with fresh := r1.fresh + 1, firstAt := some (r1.firstAt.getD s.pilot) }
    let s1 := s.setRx r2
    (if 16 ≤ r2.fresh then s1.sendAck r2 else s1, true)

/-- A frame that a port takes in on a flow: the flag says that it is new. -/
def State.receive (s : State) (p : Fin 16) (f : Frame) : State × Bool :=
  match s.hear p f with
  | (s1, false) => (s1, false)
  | (s1, true) => s1.takeSeq p f

/-- Every frame of a flow with a lower SEQ has been accepted (R355). -/
def State.inOrder (s : State) (peer job channel : Nat) (seq : W32) : Bool :=
  match s.rxFlow peer job channel with
  | none => false
  | some r => decide (2 ^ 31 ≤ dist32 seq r.expected)

/-! ## Control messages (15, R374, Table 15.4) -/

/-- The header of a control message. The body follows it, its fields in the order of Table 15.5: DESIGN CHOICE (log 78), the
manual gives no layout. -/
def State.ctrlHeader (s : State) (msg epoch : Nat) (body : List Byte) : List Byte :=
  [BitVec.ofNat 8 msg, 0#8] ++ leBytes 2 epoch ++ leBytes 4 (s.role 8 4) ++
    [BitVec.ofNat 8 (s.role 0x10 1), BitVec.ofNat 8 s.roles.role] ++ leBytes 2 s.roles.index ++ leBytes 4 body.length

/-- A control frame. -/
def State.ctrlFrame (s : State) (dst msg epoch : Nat) (body : List Byte) : Frame :=
  let m := s.ctrlHeader msg epoch body ++ body
  s.frame 5 3 0xFFFF dst (m ++ zeros ((64 - m.length % 64) % 64))

/-- Sends a control message to another node; a standalone module sends none (R370). -/
def State.sendCtrl (s : State) (dst msg epoch : Nat) (body : List Byte) : State :=
  if s.node.isNone || s.node == some dst then s else s.enqueue none none none (s.ctrlFrame dst msg epoch body)

/-- Sends one control message in the fatal state (17, R425): the link dies send nothing else. -/
def State.sendLast (s : State) (dst msg epoch : Nat) (body : List Byte) : State :=
  if s.node.isNone then s
  else
    let t := (s.txFlow dst 0xFFFF 3).getD (TxFlow.fresh dst 0xFFFF 3 none)
    match s.transmit none { (s.ctrlFrame dst msg epoch body) with seq := t.next, start := t.start } with
    | none => s
    | some s1 => s1

/-! ## Discarded frames and timers -/

/-- MSG of a control message is reserved (15, Table 15.5). -/
def reservedMsg (f : Frame) : Bool := f.kind == 5 && f.channel == 3 && (byteAt f.payload 0 == 0 || decide (14 < byteAt f.payload 0))

/-- RX_DISCARD (R348, R351; 15, R374): a frame of another EtherType, with a bad FCS or with more than one tag, of which the
port keeps nothing; a frame that fails R351; or a control message of a reserved MSG, which has its place in its flow. -/
def doRxDiscard (p : Fin 16) (f : Option Frame) (s : State) : State :=
  if !s.portUp p then s
  else match f with
    | none => s.discardFrame p
    | some f =>
      if !s.frameOk f then s.discardFrame p
      else if reservedMsg f then
        match s.receive p f with
        | (s1, true) => s1.discardFrame p
        | (s1, false) => s1
      else s

/-- ACK_TIMER (R353): 200 pilot cycles after the first frame of a flow that has not been acknowledged. -/
def doAckTimer (peer job channel : Nat) (s : State) : State :=
  match s.rxFlow peer job channel with
  | none => s
  | some r =>
    match r.firstAt with
    | none => s
    | some t => if t + 200 ≤ s.pilot then s.sendAck r else s

end Sys2Proof.Machine
end

