-- ==== Sys2Proof/Machine/Backward.lean ====
section
/-! DEFINITION. The backward commands MMB, NORM_B and ATTEND_B (08, R184 to R207). -/

namespace Sys2Proof.Machine

open Sys2Proof

/-! ## MMB -/

/-- The fields of an MMB descriptor (Table 8.3). -/
structure MmbArgs where
  srDy : Bool
  srDx : Bool
  srDw : Bool
  dwFirst : Bool
  vcheck : Bool
  dyOp : Nat
  act : Nat
  dyRec : Nat
  dyTag : Nat
  dwMode : Nat
  streamN : Nat
  streamT : Nat
  keepN0 : Nat
  keepN1 : Nat
  keepK0 : Nat
  keepK1 : Nat
  m : Nat
  n : Nat
  k : Nat
  step : W32
  layer : W32
  workOff : Nat
  workSize : Nat
  group : Nat
  fwdVersion : Nat
  deriving DecidableEq, Repr

def mmbArgs (c : Cmd) : MmbArgs :=
  let d := c.desc
  let f := byteAt d 1
  let g := fld d 0x34 4
  { srDy := bit f 0, srDx := bit f 1, srDw := bit f 2, dwFirst := bit f 3, vcheck := bit f 4, dyOp := byteAt d 2
    act := byteAt d 3, dyRec := fld d 0x10 2, dyTag := byteAt d 0x12, dwMode := byteAt d 0x13, streamN := byteAt d 0x14
    streamT := byteAt d 0x15, keepN0 := fld d 0x16 2, keepN1 := fld d 0x3C 2
    keepK0 := byteAt d 0x3E + 256 * bits g 20 18, keepK1 := byteAt d 0x3F + 256 * bits g 23 21, m := fld d 0x18 4
    n := fld d 0x1C 4, k := fld d 0x20 4, step := c.word 0x24, layer := c.word 0x28, workOff := fld d 0x2C 4
    workSize := fld d 0x30 4, group := bits g 17 0, fwdVersion := fld d 0x38 4 }

/-- d(x) of R186. -/
def actDeriv (code : Nat) (x : W32) : W32 :=
  match code with
  | 1 => if fpIsNaN x then fpNaN else if !fpSign x && !fpIsZero x then fpOne else 0#32
  | 2 =>
    let s := fpRecip (fpAdd fpOne (fpExpE (fpNeg x)))
    fpMul s (fpAdd fpOne (fpMul x (fpSub fpOne s)))
  | 3 =>
    let h := fpRecip (fpAdd fpOne (fpExpE (fpMul 0xC0000000#32 (geluU x))))
    let w := fpMul 0x3F4C422A#32 (fpAdd fpOne (fpMul 0x40400000#32 (fpMul 0x3D372713#32 (fpMul x x))))
    fpAdd h (fpMul (fpMul x (fpMul (fpMul 0x40000000#32 h) (fpSub fpOne h))) w)
  | _ => fpOne

/-- One token row of dY before rotation (R186). -/
def dyRow (a : MmbArgs) (g p : List PV) : List PV :=
  match a.dyOp with
  | 1 => g.zipWith (pv2 (fun g p => fpMul g (actDeriv a.act p))) p
  | 2 =>
    let pg := p.take (a.n / 2)
    let pu := p.drop (a.n / 2)
    (g.zip (pg.zip pu)).map (fun v => pv2 fpMul (pv2 fpMul v.1 v.2.2) (pv1 (actDeriv a.act) v.2.1)) ++
      (g.zip pg).map (fun v => pv2 fpMul v.1 (pv1 (actOf a.act) v.2))
  | _ => g

/-- A quantised square of 32 tokens by 32 columns (R187): scale code, codes by token and column, poison. -/
structure Square where
  scale : Nat
  codes : List Nat
  poison : Bool
  deriving DecidableEq, Repr

/-- The quantised dY block: squares by token square and column square, and the contributions of the squares. -/
structure DyBlock where
  squares : List (List Square)
  contribs : List Contrib
  deriving DecidableEq, Repr

/-- Quantises the square whose first token and column are r0 and c0 (R187). -/
def dySquare (a : MmbArgs) (ts : W32) (pos : Tensor) (seed : W64) (rows : List (List PV)) (i j : Nat) : Square × Contrib :=
  let xs := (((rows.drop (32 * i)).take 32).map (fun r => (r.drop (32 * j)).take 32)).flatten
  let rs := if a.srDy then
      ((List.range 32).map (fun r =>
        rowDraws seed 2 { pos with tag := a.dyTag } a.step a.layer (32 * i + r) (32 * j) 32)).flatten
    else []
  let b := quantBlock .s4 ts rs xs
  (⟨b.scale, b.codes, xs.any (·.p)⟩, b.contrib)

/-- The dY phase (R186 to R188): the positions come from TP's descriptor with DY_OP 1 or 2, from TG's otherwise. -/
def State.dyPhase (s : State) (r : Run) (c : Fin 4) (a : MmbArgs) (ts : W32) : DyBlock :=
  let tg := r.cmd.tensorD 4
  let tp := r.cmd.tensorD 6
  let pos := if a.dyOp = 0 then tg else tp
  let seed := (s.ctx r.x).jobSeed
  let gCols := if a.dyOp = 2 then a.n / 2 else a.n
  let raw := (List.range a.m).map (fun i =>
    dyRow a (s.loadRow r.x c ⟨tg, 0⟩ gCols i) (if a.dyOp = 0 then [] else s.loadRow r.x c ⟨tp, 0⟩ a.n i))
  let rot := rotRowsDim false (rotKeyOf seed a.step a.layer a.streamT) pos.row0
    (rotCols false (rotKeyOf seed a.step a.layer a.streamN) pos.col0 raw)
  let qs := (List.range (a.m / 32)).map (fun i =>
    (List.range (a.n / 32)).map (fun j => dySquare a ts pos seed rot i j))
  { squares := qs.map (·.map (·.1)), contribs := (qs.flatten).map (·.2) }

/-- One element of a square as an exact operand. -/
def Square.elem (q : Square) (i : Nat) : EV := ⟨scaledElem .s4 q.scale ((q.codes[i]?).getD 0), q.poison⟩

/-- The dY row of a token as array operands (R189). -/
def DyBlock.row (d : DyBlock) (m : Nat) : List EV :=
  (((d.squares[m / 32]?).getD []).map (fun q => (List.range 32).map (fun j => q.elem (32 * (m % 32) + j)))).flatten

/-- The dY column n as array operands, token by token (R189). -/
def DyBlock.col (d : DyBlock) (n : Nat) : List EV :=
  (d.squares.map (fun band =>
    match band[n / 32]? with
    | some q => (List.range 32).map (fun i => q.elem (32 * i + n % 32))
    | none => [])).flatten

/-- The element and scale bytes of column n of a 512-token tile (R188, R189); tokens beyond the last are code +0. -/
def DyBlock.colBytes (d : DyBlock) (band n : Nat) : List PByte :=
  let qs := ((d.squares.drop (16 * band)).take 16).map (fun b => (b[n / 32]?).getD ⟨0, [], false⟩)
  let codes := (qs.map (fun q => (List.range 32).map (fun i => (q.codes[32 * i + n % 32]?).getD 0))).flatten
  let p := qs.any (·.poison)
  (packNibbles (codes ++ List.replicate (512 - codes.length) 0) ++
    fitTo 16 (qs.map (fun q => BitVec.ofNat 8 q.scale))).map (fun b => ⟨b, p⟩)

/-- The square (i, j) of tile (b, s); one beyond the last token or column is code +0 with scale 0x00 (R188). -/
def DyBlock.square (d : DyBlock) (b s i j : Nat) : Square :=
  ((d.squares[16 * b + i]?).bind (fun q => q[16 * s + j]?)).getD ⟨0, List.replicate 1024 0, false⟩

/-- The bytes of tile (b, s) (Table 8.2): elements, square by square, then the scales of the squares. -/
def DyBlock.tile (d : DyBlock) (b s : Nat) : List PByte :=
  let qs := (List.range 256).map (fun q => d.square b s (q / 16) (q % 16))
  (qs.map (fun q => (packNibbles q.codes).map (fun v => (⟨v, q.poison⟩ : PByte)))).flatten ++
    qs.map (fun q => ⟨BitVec.ofNat 8 q.scale, q.poison⟩)

/-- Writes the dY tiles into the work area (R188). -/
def State.putDy (s : State) (x : Fin 16) (c : Fin 4) (a : MmbArgs) (d : DyBlock) : State :=
  let segs := ceilDiv a.n 512
  (List.range (ceilDiv a.m 512 * segs)).foldl (fun st t =>
    st.wwrite x c (a.workOff + 132096 * t) (d.tile (t / segs) (t % segs))) s

/-- The operands of a running MMB with the scales of its dispatch: dY, TWB, TXT, TDX and TDW. -/
structure MmbOpnds where
  dy : Opnd
  twb : Opnd
  txt : Opnd
  tdx : Option (Opnd × Nat)
  tdw : Option (Opnd × Nat)
  deriving DecidableEq, Repr

/-- An accumulation of MMB (R190): of the dX list or the dW list, its column block and its row group. -/
structure MmbAcc where
  dx : Bool
  block : Nat
  group : Nat
  deriving DecidableEq, Repr

/-- The dX list and the dW list. -/
def mmbLists (a : MmbArgs) : List MmbAcc × List MmbAcc :=
  let list := fun (dx : Bool) (cols rows : Nat) =>
    ((List.range (ceilDiv cols 8192)).map (fun b =>
      (List.range (ceilDiv rows 512)).map (fun g => (⟨dx, b, g⟩ : MmbAcc)))).flatten
  (list true a.k a.m, list false a.n a.k)

/-- The order of the accumulations (R190): some dX accumulations while the dY phase is incomplete, then dW and dX in
turn. How many come first depends on timing. -/
def mmbOrder (first : Nat) (dx dw : List MmbAcc) : List MmbAcc := dx.take first ++ interleave dw (dx.drop first)

/-- Columns of one side of a column block. -/
def sideCols (total block side : Nat) : List Nat :=
  let lo := 8192 * block + 4096 * side
  (List.range (min 4096 (total - lo))).map (lo + ·)

/-- The rows of a group of 512. -/
def groupRows (total g : Nat) : List Nat := (List.range (min 512 (total - 512 * g))).map (512 * g + ·)

/-- The accumulator rows of one side of an accumulation. -/
def State.mmbRows (s : State) (r : Run) (c : Fin 4) (a : MmbArgs) (o : MmbOpnds) (d : DyBlock) (acc : MmbAcc)
    (number side : Nat) : List AccRow :=
  if acc.dx then
    let ws := (sideCols a.k acc.block side).map (fun k => s.exactLoad r.x c o.twb.t a.n k)
    let xs := (groupRows a.m acc.group).zipIdx.map (fun m => (m.2, d.row m.1))
    if ws.isEmpty then [] else accRows 512 side number xs ws
  else
    let depth := (laneDepth o.txt.t.fmt .s4).getD 512
    let ws := (sideCols a.n acc.block side).map d.col
    let xs := (groupRows a.k acc.group).zipIdx.map (fun k => (k.2, s.exactLoad r.x c o.txt.t a.m k.1))
    if ws.isEmpty then [] else accRows depth side number xs ws

/-- A dW column unit and row are kept (R193). -/
def keptUnit (a : MmbArgs) (unit : Nat) : Bool := decide (a.keepN0 ≤ unit) && decide (unit ≤ a.keepN1)

def keptRow (a : MmbArgs) (k : Nat) : Bool := decide (a.keepK0 ≤ k / 512) && decide (k / 512 ≤ a.keepK1)

/-- Stores one dX row from a column on (R191). -/
def State.putDx (s : State) (r : Run) (c : Fin 4) (a : MmbArgs) (o : MmbOpnds) (m lo : Nat) (ys : List PV) : State :=
  match o.tdx with
  | none => s
  | some (t, stamp) =>
    s.storeOut r c t ⟨(s.ctx r.x).jobSeed, a.step, a.layer, if a.srDx then some 2 else none⟩ stamp lo [(m, ys)]

/-- Stores one kept unit of 128 columns of a dW row (R192). -/
def State.putDwUnit (s : State) (r : Run) (c : Fin 4) (a : MmbArgs) (t : Opnd) (stamp k unit : Nat) (ys : List PV) :
    State :=
  if a.dwMode = 1 then
    let mode : StoreMode := ⟨(s.ctx r.x).jobSeed, a.step, a.layer, if a.srDw then some 3 else none⟩
    let (runs, contribs) := storePiece t mode k (128 * unit) (decide (128 * unit + 128 = a.n)) ys
    ((s.rwriteRuns r.x t.t.space c runs).contributeAll r.x c (mkContribs t.t.scaleRec a.step stamp contribs)
      ).notePoison r (runsPoisoned runs)
  else
    let addr := t.t.rowAddr k + 512 * unit
    let old := s.rread r.x t.t.space c addr 512
    let vals := if a.dwFirst then ys else (decodeRow .fp32 fpOne 128 old).zipWith (pv2 fpAdd) ys
    let bs := (vals.map (fun v => pvBytes 4 v.v.toNat v.p)).flatten
    (s.rwrite r.x t.t.space c addr bs).notePoison r (bs.any (·.p))

/-- Stores the kept units of one dW row from column lo on (R193). -/
def State.putDw (s : State) (r : Run) (c : Fin 4) (a : MmbArgs) (o : MmbOpnds) (k lo : Nat) (ys : List PV) : State :=
  match o.tdw with
  | none => s
  | some (t, stamp) =>
    if a.dwMode = 0 || !keptRow a k then s
    else (chunks 128 ys).zipIdx.foldl (fun s u =>
      let unit := lo / 128 + u.2
      if keptUnit a unit then s.putDwUnit r c a t stamp k unit u.1 else s) s

/-- Drains one row of an MMB accumulation. -/
def State.mmbDrain (s : State) (r : Run) (c : Fin 4) (a : MmbArgs) (o : MmbOpnds) (acc : MmbAcc) (row : AccRow) : State :=
  let place := s.spanPlace c
  let s1 := s.noteRow (s.arrayFor c row.side) place.1 row place.2
  let scale := if acc.dx then drainScale o.dy o.twb else drainScale o.txt o.dy
  let ys := row.lanes.map (fun v => (⟨drainValue scale v, row.poison⟩ : PV))
  let lo := 8192 * acc.block + 4096 * row.side
  let i := 512 * acc.group + row.row
  if acc.dx then s1.putDx r c a o i lo ys else s1.putDw r c a o i lo ys

/-- Bank loads of an accumulation. -/
def mmbLoads (a : MmbArgs) (acc : MmbAcc) : Nat :=
  if acc.dx then ceilDiv a.n 512 else ceilDiv a.m 512

/-- Tile j of one side of a dX accumulation: columns of TWB. -/
def State.twbTile (s : State) (x : Fin 16) (c : Fin 4) (a : MmbArgs) (w : Tensor) (state : BankState) (b side j : Nat) : Bank :=
  Bank.tile state .s4 ((sideCols a.k b side).map (fun k =>
    ((s.rowBytesOf x c w a.n k).drop (j * w.fmt.segBytes)).take w.fmt.segBytes))

/-- The last tile of one side of an accumulation. -/
def State.mmbTile (s : State) (r : Run) (c : Fin 4) (a : MmbArgs) (o : MmbOpnds) (d : DyBlock) (acc : MmbAcc)
    (side : Nat) : Bank :=
  if acc.dx then s.twbTile r.x c a o.twb.t .active acc.block side (mmbLoads a acc - 1)
  else Bank.tile .active .s4 ((sideCols a.n acc.block side).map (d.colBytes (mmbLoads a acc - 1)))

/-- One side of an accumulation: its rows, which its array then holds with its last tile; operands are those of the dispatch. -/
def State.mmbSide (s0 s : State) (r : Run) (c : Fin 4) (a : MmbArgs) (o : MmbOpnds) (d : DyBlock) (ups : List Upset)
    (acc : MmbAcc) (number side : Nat) : State × List AccRow :=
  let rows := (s.takeAhead c side (mmbLoads a acc) (s0.mmbRows r c a o d acc number side)).map
    (fun row => upsetLanes row (upsetsOf ups row))
  if rows.isEmpty then (s, []) else (s.endSide c side rows (mmbLoads a acc) (s0.mmbTile r c a o d acc side), rows)

/-- Runs one accumulation and drains it. -/
def State.mmbAcc (s0 s : State) (r : Run) (c : Fin 4) (a : MmbArgs) (o : MmbOpnds) (d : DyBlock) (ups : List Upset)
    (acc : MmbAcc) (number : Nat) : State :=
  let (s1, ra) := State.mmbSide s0 s r c a o d ups acc number 0
  let (s2, rb) := State.mmbSide s0 s1 r c a o d ups acc number 1
  (interleave ra rb).foldl (fun s row => s.mmbDrain r c a o acc row) (s2.endAcc c)

/-- Poisons bytes where they lie. -/
def State.poisonBytes (s : State) (x : Fin 16) (c : Fin 4) (space a n : Nat) : State :=
  s.rwrite x space c a ((s.rread x space c a n).map (fun b => ⟨b.b, true⟩))

/-- A version mismatch (R194): every kept output region is poisoned. -/
def State.mmbMismatch (s : State) (r : Run) (c : Fin 4) (a : MmbArgs) : State :=
  let s1 := match r.cmd.tensor 0xC with
    | some t => s.poisonRegion r.x c (t.region c a.m a.k true)
    | none => s
  let s2 := match r.cmd.tensor 0xE with
    | some t =>
      ((List.range a.k).filter (keptRow a)).foldl (fun (s : State) k =>
        ((List.range (a.n / 128)).filter (keptUnit a)).foldl (fun (s : State) u =>
          if a.dwMode = 2 then s.poisonBytes r.x c t.space (t.rowAddr k + 512 * u) 512
          else
            (storePiece ⟨t, fpOne⟩ ⟨0, 0, 0, none⟩ k (128 * u) (decide (128 * u + 128 = a.n))
              (List.replicate 128 PV.zero)).1.foldl (fun (s : State) (p : Nat × List PByte) => s.poisonBytes r.x c t.space p.1 p.2.length) s) s) s1
    | none => s1
  s2.modRun r.id (fun r => { r with out := { r.out with reason := 0x025A, failed := true, poisoned := true } })

/-- The version that the almanac holds for the group is the one recorded at forward (R194). -/
def State.versionHolds (s : State) (x : Fin 16) (a : MmbArgs) : Bool :=
  !a.vcheck || (match s.almEntry x a.group with
    | some e => decide (almVersion e = a.fwdVersion)
    | none => false)

/-- Runs the phases of an MMB whose scales are fixed (R190, R196). -/
def State.mmbPhases (s : State) (r : Run) (c : Fin 4) (a : MmbArgs) (o : MmbOpnds) (dyStamp : Nat)
    (ups : List Upset) : State :=
  let s0 := (s.cacheReads r.x c r.cmd.regions).beginArray c (decide (4096 < max a.k a.n)) (sideCols a.k 0 0).length
  let (n, s1) := s0.occasion
  let d := s1.dyPhase r c a o.dy.s
  let (dx, dw) := mmbLists a
  let order := mmbOrder (1 + Config.choice n % dx.length) dx dw
  let numbered := fun (acc : MmbAcc) =>
    if acc.dx then acc.block * ceilDiv a.m 512 + acc.group else dx.length + acc.block * ceilDiv a.k 512 + acc.group
  let s2 := (s1.putDy r.x c a d).contributeAll r.x c (mkContribs a.dyRec a.step dyStamp d.contribs)
  order.foldl (fun t acc => State.mmbAcc s1 t r c a o d ups acc (numbered acc)) s2

/-- Runs a dispatched MMB (R184 to R196). The version is compared before any record is classified: a failing comparison rolls and
starts none (DESIGN CHOICE, log 122). -/
def State.runMmb (s : State) (r : Run) (c : Fin 4) (ups : List Upset) : State :=
  let a := mmbArgs r.cmd
  if !s.versionHolds r.x a then (s.mmbMismatch r c a).dropShadows c
  else
    let opt := fun (s : State) (off : Nat) => match r.cmd.tensor off with
      | none => (s, some (none : Option (Opnd × Nat)))
      | some t => let (s1, o) := s.quantOpnd r.x t a.step; (s1, o.map (fun o => some (o, s1.stampOf r.x t)))
    let (s1, dy) := s.quantScale r.x a.dyRec 0 a.step
    let (s2, tdx) := opt s1 0xC
    let (s3, tdw) := opt s2 0xE
    match dy, tdx, tdw, s.readOpnd r.x (r.cmd.tensorD 8) a.step, s.readOpnd r.x (r.cmd.tensorD 0xA) a.step with
    | some ts, some tdx, some tdw, some twb, some txt =>
      let dyT : Tensor := { Tensor.decode (zeros 32) with format := 2 }
      s3.mmbPhases r c a ⟨⟨dyT, ts⟩, twb, txt, tdx, tdw⟩ (s3.scaleRec r.x a.dyRec).stamp ups
    | _, _, _, _, _ => (s3.failRun r 0x0211).dropShadows c

/-- MMB (R184). -/
def doMmb (c : Fin 4) (ups : List Upset) (s : State) : State :=
  match s.dispatchCore c (fun m => m.op == 0x11) with
  | none => s
  | some (s1, r) => s1.runMmb r c ups

/-! ## NORM_B -/

/-- What one row of NORM_B gives (R200): dx, and what it adds to dg and db. -/
structure NormBRow where
  dx : List W32
  dg : List W32
  deriving DecidableEq, Repr

/-- One row (R200): kind, epsilon, forward input, gradient and gain. -/
def normBRow (kind : Nat) (eps : W32) (xs dy g : List W32) : NormBRow :=
  let ic := fpRecip (fpOfNat xs.length)
  let (d, q) := normVals kind eps xs
  let e := dy.zipWith fpMul g
  let a := fpMul (fpSum (e.zipWith fpMul d)) ic
  let kk := fpMul (fpMul q q) a
  let b := fpMul (fpSum e) ic
  let dx := (e.zip d).map (fun v =>
    let t := if kind = 0 then v.1 else fpSub v.1 b
    fpMul q (fpSub t (fpMul v.2 kk)))
  ⟨dx, (dy.zip d).map (fun v => fpMul v.1 (fpMul v.2 q))⟩

/-- Runs a dispatched NORM_B (R200, R201). -/
def State.runNormB (s : State) (r : Run) (c : Fin 4) : State :=
  let d := r.cmd.desc
  let f := byteAt d 1
  let rows := fld d 0x10 4
  let cols := fld d 0x14 4
  let tdx := r.cmd.tensorD 8
  let s1 := s.cacheReads r.x c r.cmd.regions
  let rd := fun (off i : Nat) => s1.loadRow r.x c ⟨r.cmd.tensorD off, 0⟩ cols i
  let gain := rd 6 0
  let start := fun (off : Nat) => match r.cmd.tensor off with
    | some t => if bit f 1 then s1.loadRow r.x c ⟨t, 0⟩ cols 0 else List.replicate cols PV.zero
    | none => List.replicate cols PV.zero
  let step := fun (acc : List (Nat × List PV) × List PV × List PV) (i : Nat) =>
    let xs := rd 2 i
    let dy := rd 4 i
    let p := xs.any (·.p) || dy.any (·.p)
    let o := normBRow (bits f 0 0) (r.cmd.word 0x18) (xs.map (·.v)) (dy.map (·.v)) (gain.map (·.v))
    let dx := (o.dx.zip gain).map (fun v => (⟨v.1, p || gain.any (·.p)⟩ : PV))
    let dx' := if bit f 2 then (rd 0xA i).zipWith (pv2 fpAdd) dx else dx
    let rp := p || (bit f 2 && (rd 0xA i).any (·.p))
    let add := fun (acc : List PV) (v : List W32) => acc.zipWith (fun a b => (⟨fpAdd a.v b, a.p || rp⟩ : PV)) v
    (acc.1 ++ [(i, dx'.map (fun v => ⟨v.v, v.p || rp⟩))], add acc.2.1 o.dg, add acc.2.2 (dy.map (·.v)))
  let (out, dg, db) := (List.range rows).foldl step ([], start 0xC, start 0xE)
  let mode : StoreMode := ⟨0, 0, 0, none⟩
  let s2 := s1.storeOut r c ⟨tdx, 0⟩ mode 0 0 out
  let put := fun (s : State) (off : Nat) (v : List PV) => match r.cmd.tensor off with
    | some t => s.storeOut r c ⟨t, 0⟩ mode 0 0 [(0, v)]
    | none => s
  put (put s2 0xC dg) 0xE db

/-- NORM_B (R200). -/
def doNormB (c : Fin 4) (s : State) : State :=
  match s.dispatchCore c (fun m => m.op == 0x22) with
  | none => s
  | some (s1, r) => s1.runNormB r c

/-! ## ATTEND_B -/

/-- The fields of an ATTEND_B descriptor (Table 8.6). -/
def attendBArgs (c : Cmd) : AttendArgs :=
  { causal := bit (byteAt c.desc 1) 0, h := fld c.desc 0x10 2, hkv := fld c.desc 0x12 2, qb := fld c.desc 0x14 2
    kb := fld c.desc 0x16 2, seqs := fld c.desc 0x18 2, m := fld c.desc 0x1C 4, nk := fld c.desc 0x20 4
    qPos := fld c.desc 0x24 4, kPos := fld c.desc 0x28 4, smScale := c.word 0x2C, step := 0, layer := 0
    workOff := fld c.desc 0x30 4, workSize := fld c.desc 0x34 4 }

/-- p and ds of one query against one key, from the drained score and the drained dp (R205). -/
def pAndDs (a : AttendArgs) (q t : Nat) (sc dp : W32) (st : SoftState) (dd : W32) : W32 × W32 :=
  let s := if masked a q t then fpInf true else fpMul sc a.smScale
  let p := if s = fpInf true || fpIsZero st.l then 0#32
    else bf16r (fpMul (fpExpE (fpSub s st.m)) (fpRecip st.l))
  (p, bf16r (fpMul p (fpSub dp dd)))

/-- Adds a product to rows: rows of an item and element d of the drained row d. -/
def addTurned (scale : Option W32) (rows : List (List W32)) (vals : List (List W32)) : List (List W32) :=
  let vt := transposeRows 0#32 rows.length vals
  rows.zipWith (fun row vs => row.zipWith (fun o u =>
    fpAdd o (match scale with | some k => fpMul k u | none => u)) vs) vt

/-- The gradients of one key and value head of a sequence, with the state and the next accumulation: dq by head and
query. -/
structure AttGrads where
  st : State
  acc : Nat
  dq : List (Nat × Nat × List W32)
  dk : List (List W32)
  dv : List (List W32)
  early : Bool

/-- Rows of a head and a query block. -/
structure QueryBlock where
  h : Nat
  q0 : Nat
  qs : List (List PV)
  dos : List (List PV)
  deriving DecidableEq, Repr

/-- One key block of sweep 2 (R204, R205): the gradients and the block's dq. -/
def AttGrads.block (g : AttGrads) (c : Fin 4) (a : AttendArgs) (ups : List Upset) (b : QueryBlock)
    (soft : List SoftState) (dd : List W32) (k0 : Nat) (ks vs : List (List PV)) (dq : List (List W32)) :
    AttGrads × List (List W32) :=
  let n := ks.length
  let sc := g.st.phase c g.acc ups (b.qs.map (·.map PV.exact)) (ks.map (·.map PV.exact))
  let dp := sc.st.phase c sc.acc ups (b.dos.map (·.map PV.exact)) (vs.map (·.map PV.exact))
  let pd := ((sc.vals.zip dp.vals).zip (soft.zip dd)).zipIdx.map (fun v =>
    (v.1.1.1.zip v.1.1.2).zipIdx.map (fun k =>
      pAndDs a (b.q0 + v.2) (k0 + k.2) k.1.1 k.1.2 v.1.2.1 v.1.2.2))
  let bad := ks.any (·.any (·.p)) || vs.any (·.any (·.p)) || b.qs.any (·.any (·.p)) || b.dos.any (·.any (·.p))
  let ev := fun (m : List (List W32)) => m.map (·.map (fun v => (⟨fpVal v, bad⟩ : EV)))
  let p := pd.map (·.map (·.1))
  let ds := pd.map (·.map (·.2))
  let uv := dp.st.phase c dp.acc ups (turned b.dos) (ev (transposeRows 0#32 n p))
  let uk := uv.st.phase c uv.acc ups (turned b.qs) (ev (transposeRows 0#32 n ds))
  let uq := uk.st.phase c uk.acc ups (turned ks) (ev ds)
  let part := fun (m new : List (List W32)) => m.take k0 ++ new ++ m.drop (k0 + n)
  ({ g with st := uq.st, acc := uq.acc
            dv := part g.dv (addTurned none ((g.dv.drop k0).take n) uv.vals)
            dk := part g.dk (addTurned (some a.smScale) ((g.dk.drop k0).take n) uk.vals) }
  , addTurned (some a.smScale) dq uq.vals)

/-- One query block of one head (R204). -/
def AttGrads.queries (g : AttGrads) (c : Fin 4) (a : AttendArgs) (ups : List Upset) (ks vs : List (List PV))
    (b : QueryBlock) : AttGrads :=
  let w := g.st.sweep c a ups g.acc b.q0 b.qs ks vs
  let dd := (b.dos.zip w.soft).map (fun v => fpSum ((v.1.map (·.v)).zipWith fpMul v.2.out))
  let (g1, dq) := (usedBlocks a b.q0 b.qs.length ks vs).foldl
    (fun (o : AttGrads × List (List W32)) k => o.1.block c a ups b w.soft dd k.1 k.2.1 k.2.2 o.2)
    ({ g with st := w.st, acc := w.acc, early := g.early || w.early.any id }, b.qs.map (fun _ => List.replicate 128 0#32))
  { g1 with dq := g1.dq ++ dq.zipIdx.map (fun v => (b.h, b.q0 + v.2, v.1)) }

/-- The gradients of key and value head kvh of sequence sq, with the poison of R206; inputs are read from s0. The heads
that share it come in ascending order (R205). -/
def State.attendBHead (s0 s : State) (r : Run) (c : Fin 4) (a : AttendArgs) (ups : List Upset) (acc sq kvh : Nat) :
    AttGrads × Bool :=
  let ks := s0.headRows r.x c (r.cmd.tensorD 4) a.hkv kvh (sq * a.nk) a.nk
  let vs := s0.headRows r.x c (r.cmd.tensorD 6) a.hkv kvh (sq * a.nk) a.nk
  let heads := (List.range a.h).filter (fun h => h * a.hkv / a.h == kvh)
  let qs := (heads.map (fun h =>
    let q := s0.headRows r.x c (r.cmd.tensorD 2) a.h h (sq * a.m) a.m
    let d := s0.headRows r.x c (r.cmd.tensorD 8) a.h h (sq * a.m) a.m
    (blocksOf a.m a.qb).map (fun b =>
      (⟨h, b.1, (q.drop b.1).take b.2, (d.drop b.1).take b.2⟩ : QueryBlock)))).flatten
  let any := fun (m : List (List PV)) => m.any (·.any (·.p))
  let zero := (List.range a.nk).map (fun _ => List.replicate 128 0#32)
  let g := qs.foldl (fun (g : AttGrads) b => g.queries c a ups ks vs b) ⟨s, acc, [], zero, zero, false⟩
  (g, g.early || any ks || any vs || qs.any (fun b => any b.qs || any b.dos))

/-- The element bytes of one head's columns of a row. -/
def headRun (t : Tensor) (row hd : Nat) (vs : List W32) (p : Bool) : Nat × List PByte :=
  (t.rowAddr row + 512 * hd, (vs.map (fun v => pvBytes 4 v.toNat p)).flatten)

/-- Writes the gradients of one key and value head (R204, R206). -/
def State.putAttGrads (s : State) (r : Run) (c : Fin 4) (a : AttendArgs) (sq kvh : Nat) (g : AttGrads) (p : Bool) :
    State :=
  let tdq := r.cmd.tensorD 0xA
  let tdk := r.cmd.tensorD 0xC
  let tdv := r.cmd.tensorD 0xE
  let put := fun (s : State) (t : Tensor) (runs : List (Nat × List PByte)) =>
    (s.rwriteRuns r.x t.space c runs).notePoison r (runsPoisoned runs)
  let s1 := put s tdq (g.dq.map (fun v => headRun tdq (sq * a.m + v.2.1) v.1 v.2.2 p))
  let s2 := put s1 tdk (g.dk.zipIdx.map (fun v => headRun tdk (sq * a.nk + v.2) kvh v.1 p))
  put s2 tdv (g.dv.zipIdx.map (fun v => headRun tdv (sq * a.nk + v.2) kvh v.1 p))

/-- Runs a dispatched ATTEND_B (R204 to R206). -/
def State.runAttendB (s : State) (r : Run) (c : Fin 4) (ups : List Upset) : State :=
  let a := attendBArgs r.cmd
  let s1 := (s.cacheReads r.x c (attendReads r.cmd c a)).beginAttend c a
  let pairs := ((List.range a.seqs).map (fun sq => (List.range a.hkv).map (fun k => (sq, k)))).flatten
  let (s2, _) := pairs.foldl (fun (o : State × Nat) q =>
    let (g, p) := State.attendBHead s1 o.1 r c a ups o.2 q.1 q.2
    (g.st.putAttGrads r c a q.1 q.2 g p, g.acc)) (s1, 0)
  s2.scrambleArea r.x c a.workOff a.workSize (s2.metPoison r)

/-- ATTEND_B (R204). -/
def doAttendB (c : Fin 4) (ups : List Upset) (s : State) : State :=
  match s.dispatchCore c (fun m => m.op == 0x13) with
  | none => s
  | some (s1, r) => s1.runAttendB r c ups

end Sys2Proof.Machine
end

