-- ==== Sys2Proof/Machine/Estimates.lean ====
section
/-! DEFINITION. The validator's estimates (05, R133 to R135; 06, R157; 08, R198, R202, R207; 09, R239; 14, R356). -/

namespace Sys2Proof.Machine

open Sys2Proof

/-- The largest estimate of an array, feed or update command, in array cycles (R133). -/
def estLimit : Nat := 5600000

/-- The largest estimate of a fabric command, in link cycles (R356). -/
def linkLimit : Nat := 6250000

/-- A sum over groups of r out of m items; the last group holds the remainder. -/
def sumGroups (f : Nat → Nat) (m r : Nat) : Nat := m / r * f r + (if m % r = 0 then 0 else f (m % r))

/-- The bank loads of an accumulation of r rows over k K-tiles at width w (R105); `pair` when one load serves two
K-tiles (R90). -/
def loadTime (pair : Bool) (r k w : Nat) : Nat :=
  let l := ceilDiv w 16
  if pair then k / 2 * max (2 * r + 4) l + k % 2 * max (r + 4) l else k * max (r + 4) l

/-- t_a of R134. -/
def accTime (pair : Bool) (e r k w : Nat) : Nat := max (loadTime pair r k w) (ceilDiv w e * r)

/-- The widths of the accumulations that a column block of n columns takes, the wider array of each (R93, R118); in
single-array mode a block that would use both arrays counts as two (R133). -/
def blockWidths (single : Bool) (n : Nat) : List Nat :=
  if n ≤ 4096 then [n] else if single then [4096, n - 4096] else [4096]

/-- The column blocks of n columns in pieces of 8,192. -/
def colBlocks (n : Nat) : List Nat := (blocksOf n 8192).map (·.2)

/-! ## MM and ATTEND -/

/-- Bytes of block b's rows of W (R120). -/
def mmBlockBytes (a : MMArgs) (tw : Tensor) (b : Nat) : Nat :=
  ((a.cols b 0).length + (a.cols b 1).length) * tw.rowBytes a.k

/-- The epilogue rate of Table 5.6. -/
def mmRate (a : MMArgs) : Nat := if a.act < 2 then 1024 else if a.gated then 512 else 256

/-- The widths of the accumulations of each column block of an MM. -/
def mmWidths (single : Bool) (a : MMArgs) : List Nat :=
  (List.range a.blocks).flatMap (fun b =>
    if a.gated then
      let w := (a.cols b 0).length
      if single then [w, w] else [w]
    else blockWidths single ((a.cols b 0).length + (a.cols b 1).length))

/-- The estimate of an MM (R134). -/
def estMm (single : Bool) (a : MMArgs) (tx tw : Tensor) : Nat :=
  let depth := (laneDepth tx.fmt tw.fmt).getD 512
  let k := ceilDiv a.k depth
  let pair := tw.fmt == .s4 && tx.fmt.isS8
  let e := mmRate a
  let ws := mmWidths single a
  let stage := if tw.space = 1 then ceilDiv (mmBlockBytes a tw 0) 3072 else 0
  let rLast := if a.m % a.r = 0 then a.r else a.m % a.r
  512 + stage + ws.foldl (fun n w => n + sumGroups (fun r => accTime pair e r k w) a.m a.r) 0 +
    12 + ceilDiv (ws.getLastD 0) e * rLast

/-- The pass sum of a score phase of q rows at a width (Table 5.7). -/
def passSum (q w : Nat) : Nat :=
  sumGroups (fun p => max (max (p + 4) (ceilDiv w 16)) (ceilDiv w 1024 * p)) q 512

/-- The pass sums of a phase whose columns are n. -/
def passSums (single : Bool) (q n : Nat) : Nat := (blockWidths single n).foldl (fun t w => t + passSum q w) 0

/-- T_qk of Table 5.7. -/
def timeQk (single : Bool) (q kb : Nat) : Nat := max (passSums single q kb) (ceilDiv (q * kb) 1024)

/-- A phase of 128 rows over ceil(b ÷ 128) K-tiles whose columns are n: T_pv of Table 5.7 and T_v of R207. -/
def timeV (single : Bool) (n b : Nat) : Nat :=
  (blockWidths single n).foldl (fun t w =>
    t + max (ceilDiv b 128 * max 132 (ceilDiv w 16)) (ceilDiv w 1024 * 128)) 0

/-- A sum over the query blocks of a head: a term per block and a term per key block that is not skipped (R130). -/
def attendSum (a : AttendArgs) (perQ : Nat → Nat) (perK : Nat → Nat → Nat) : Nat :=
  (blocksOf a.m a.qb).foldl (fun n q =>
    n + perQ q.2 + ((blocksOf a.nk a.kb).filter (fun k => !blockSkipped a q.1 q.2 k.1)).foldl
      (fun m k => m + perK q.2 k.2) 0) 0

/-- The estimate of an ATTEND (R135). -/
def estAttend (single : Bool) (a : AttendArgs) : Nat :=
  512 + a.seqs * a.h * attendSum a (fun q => ceilDiv (q * 128) 2048)
    (fun q kb => timeQk single q kb + timeV single q kb + ceilDiv (q * 128) 4096)

/-- The estimate of an ATTEND_B (R207). -/
def estAttendB (single : Bool) (a : AttendArgs) : Nat :=
  512 + a.seqs * a.h * attendSum a (fun q => 2 * ceilDiv (q * 128) 2048)
    (fun q kb =>
      timeQk single q kb + timeV single q kb + ceilDiv (q * 128) 4096 +
      timeQk single q kb + max (passSums single q kb) (ceilDiv (q * kb) 2048) +
      2 * timeV single kb q + timeV single q kb + ceilDiv (2 * q * kb) 2048 + ceilDiv ((q + 2 * kb) * 128) 2048)

/-! ## Feed commands -/

/-- Bytes of e elements of a format, in units of 1/512 byte (R157: a segment counts in proportion). -/
def beatBytes (f : Fmt) (e : Nat) : Nat := e * f.segBytes * (512 / f.segElems)

/-- Scratchpad and unified-range bytes of tensors per beat, in units of 1/512 byte. -/
def beatSums (ts : List (Tensor × Nat)) : Nat × Nat :=
  ts.foldl (fun p t => if t.1.space = 0 then (p.1 + beatBytes t.1.fmt t.2, p.2) else (p.1, p.2 + beatBytes t.1.fmt t.2))
    (0, 0)

/-- c of R157 from the reads and stores of a beat. -/
def beatCost (reads stores : List (Tensor × Nat)) (f : Nat) : Nat :=
  let r := beatSums reads
  let ub := r.2 + (beatSums stores).2
  max (max 1 (2 * f)) (max (ceilDiv r.1 (512 * 16384)) (ceilDiv ub (512 * 3072)))

/-- Elements of a beat of rows of cols columns. -/
def beatElems (cols : Nat) : Nat := min cols 2048

/-- β. -/
def beats (cols : Nat) : Nat := ceilDiv cols 2048

/-- The estimate of VEC, NORM and QUANT (Table 6.9). -/
def estRows (rows cols c extra : Nat) : Nat := 64 + (rows + 2) * beats cols * c + extra + 24

/-! ## MMB -/

/-- c_dy of R198. -/
def mmbCdy (a : MmbArgs) (tg : Tensor) (tp : Option Tensor) : Nat :=
  let reads := (tg, if a.dyOp = 2 then 1024 else 2048) :: (match tp with | some t => [(t, 2048)] | none => [])
  let slow := decide (a.act = 2) || decide (a.act = 3)
  let s := if slow && a.dyOp == 1 then 4 else if slow && a.dyOp == 2 then 2 else 1
  max (beatCost reads [] 0) s

/-- The estimate of an MMB (R198). -/
def estMmb (single : Bool) (a : MmbArgs) (tg : Tensor) (tp : Option Tensor) (txt : Tensor) (tdw : Option Tensor) : Nat :=
  let cdy := mmbCdy a tg tp
  let beta := beats a.n
  let kx := ceilDiv a.n 512
  let s8 := txt.fmt.isS8
  let kw := ceilDiv a.m (if s8 then 256 else 512)
  let ew := match tdw with | some t => if a.dwMode = 2 ∧ t.space = 1 then 192 else 1024 | none => 1024
  let dx := (colBlocks a.k).zipIdx.foldl (fun n b =>
    n + (blockWidths single b.1).foldl (fun n w => n + sumGroups (fun r =>
      let t := accTime false 1024 r kx w
      if b.2 = 0 then max t (beta * 512 * cdy) else t) a.m 512) 0) 0
  let dw := (colBlocks a.n).foldl (fun n b =>
    n + (blockWidths single b).foldl (fun n w => n + sumGroups (fun r => accTime s8 ew r kw w) a.k 512) 0) 0
  let drain := fun (e cols rows : Nat) => (colBlocks cols).foldl (fun n b =>
    (blockWidths single b).foldl (fun n w => max n (ceilDiv w e * min rows 512)) n) 0
  let dy1 := min a.m 512 * cdy + 128
  let dyAll := a.m * beta * cdy + 128
  512 + dy1 + dx + dw + (dyAll - dy1 - dx) + 12 + max (drain 1024 a.k a.m) (drain ew a.n a.k)

/-- The estimate of a NORM_B (R202). -/
def estNormB (rows cols : Nat) (reads : List Tensor) : Nat :=
  let cn := if cols ≤ 32768 then 2 else 3
  64 + rows * beats cols * max cn (beatCost (reads.map (fun t => (t, beatElems cols))) [] 0) + 2 * beats cols + 24

/-! ## UPDATE -/

/-- Bytes per block of a gradient or copy (R239). -/
def updPerBlock (f : Fmt) : Nat :=
  match f with
  | .fp32 => 512
  | .bf16 => 256
  | .s4 => 68
  | _ => 136

/-- The estimate of an UPDATE (R239): blocks, bands of a forward copy, tiles, and the tensors with whether each lies on
the core's own stacks. -/
def estUpdate (blocks fwdBands tiles : Nat) (ts : List (Tensor × Bool)) : Nat :=
  let sum := fun (own : Bool) => ts.foldl (fun n t => if t.2 = own then n + blocks * updPerBlock t.1.fmt else n) 0
  64 + max (max (ceilDiv (1664 * blocks + sum true) 3072) (ceilDiv (sum false) 3072)) (ceilDiv blocks 4) +
    128 * fwdBands + 4224 * tiles

/-! ## Fabric commands -/

/-- Elements of chunk i of a vector of e elements among p members (14). -/
def chunkLen (e p i : Nat) : Nat := (i + 1) * e / p - i * e / p

/-- The chunk that a member sends in step k of a ring pass of an operation (R360): partials in a reduce-scatter, final
chunks in an all-gather; a BROADCAST passes every chunk over each hop. -/
def stepElems (op e p me k : Nat) : Nat :=
  if op = 3 then chunkLen e p (k % p)
  else if op = 2 then chunkLen e p ((me + p - k % p) % p)
  else if op = 0 ∧ p - 1 ≤ k then chunkLen e p ((me + 2 * p - (k - (p - 1))) % p)
  else chunkLen e p ((me + 2 * p - 1 - k) % p)

/-- Ring steps of a COLL (R360). -/
def ringSteps (op p : Nat) : Nat := if op = 0 then 2 * (p - 1) else p - 1

/-- The estimate of a COLL (R356): `wire` is the bytes of an element on the wire. -/
def estColl (op e p me stripes wire : Nat) : Nat :=
  64 + (List.range (ringSteps op p)).foldl (fun n k => n + ceilDiv (ceilDiv (stepElems op e p me k) stripes * wire) 63) 0

end Sys2Proof.Machine
end

