-- ==== Sys2Proof/Machine/Validate.lean ====
section
/-! DEFINITION. The validator of SUBMIT (12, R304 to R306, with the validation rules of each command chapter). A command
that fails several checks at once is refused with one of their reasons: the manual does not order them. -/

namespace Sys2Proof.Machine

open Sys2Proof

/-! ## Checks -/

/-- A reason, if a condition for it holds. -/
def err (b : Bool) (r : Nat) : List Nat := if b then [r] else []

/-- A number lies outside a range. -/
def outside (lo hi n : Nat) : Bool := decide (n < lo) || decide (hi < n)

/-- A tensor as a command uses it: offset of its index in the descriptor, whether it must be named, shape, and whether it
is read (0), written (1) or both (2). -/
structure TUse where
  off : Nat
  req : Bool
  rows : Nat
  cols : Nat
  mode : Nat
  deriving DecidableEq, Repr

/-- A use of a tensor that the descriptor names. -/
def TUse.named (u : TUse) (cmd : Cmd) : Bool := u.req || decide (fld cmd.desc u.off 2 ≠ 0xFFFF)

/-- The index rule of R114 and Table 5.8, and the reserved format codes of R26. -/
def indexReasons (cmd : Cmd) (u : TUse) : List Nat :=
  if !u.named cmd then []
  else match cmd.tens[fld cmd.desc u.off 2]? with
    | none => [0x0230]
    | some bs => err (fmtOf (bits (byteAt bs 6) 3 0)).isNone 0x0206

/-- The rules of R115. -/
def tensorBad (bs : List Byte) (rows cols : Nat) : Bool :=
  let t := Tensor.decode bs
  t.base % 64 != 0 || t.pitch == 0 || (decide (t.pitch < t.rowBytes cols) && decide (0 < rows)) ||
    t.col0 % t.fmt.segElems != 0 || (t.rotK && t.col0 % 128 != 0) || (t.rotT && t.row0 % 128 != 0) ||
    decide (t.fullCols < t.col0 + cols) || !tensorReservedOk bs

/-- Reasons of a tensor descriptor: R115, and the record rule of R59. -/
def State.tensorReasons (s : State) (x : Fin 16) (cmd : Cmd) (u : TUse) : List Nat :=
  if !u.named cmd then []
  else match cmd.tens[fld cmd.desc u.off 2]? with
    | none => []
    | some bs =>
      let t := Tensor.decode bs
      err (tensorBad bs u.rows u.cols) 0x0231 ++
        err (t.fmt.quantised && t.scaleRec != 0xFFFF && (s.scaleRec x t.scaleRec).format != t.format) 0x0213

/-- The regions of a use. -/
def TUse.regions (u : TUse) (cmd : Cmd) (core : Nat) : List Region :=
  match cmd.tensor u.off with
  | none => []
  | some t =>
    let r := t.region core u.rows u.cols false
    (if u.mode = 1 then [] else [r]) ++ (if u.mode = 0 then [] else [{ r with write := true }])

/-- Every page that a region touches belongs to a context (R267). -/
def State.ownsRegion (s : State) (x : Fin 16) (r : Region) : Bool :=
  decide (r.stop ≤ 2 ^ 41) && (r.units 131072).all (fun p =>
    match s.homeOf p with
    | some e => e.owner == x
    | none => false)

/-- The transient area that new commands are checked against, in MiB: the smaller of the one in force and a pending one
(07, R172). -/
def FeedS.checkedT (f : FeedS) : Nat :=
  match f.areasPending with
  | some (t, _) => min f.t t
  | none => f.t

/-- Where a region lies in a window: 0 in the resident sub-window, 1 in the transient one, 2 across, 3 beyond. -/
def State.windowClass (s : State) (x : Fin 16) (r : Region) : Nat :=
  let c : Fin 4 := ix 4 r.core
  let res := (s.cc x c).resSize
  if r.stop ≤ res then 0
  else if res + (s.feed c).checkedT * 2 ^ 20 < r.stop then 3
  else if res ≤ r.base then 1 else 2

/-- A region lies partly inside a slot, or spans two (R176). -/
def State.partSlot (s : State) (x : Fin 16) (r : Region) : Bool :=
  (s.cc x (ix 4 r.core)).table.slots.any (fun t =>
    let sl : Region := { space := 0, core := r.core, base := t.offset, rows := 1, pitch := 1024 * t.rows
                         rowBytes := 1024 * t.rows, write := false, scratch := false }
    r.overlaps sl && !(decide (t.offset ≤ r.base) && decide (r.stop ≤ t.offset + 1024 * t.rows)))

/-- Reasons of where a region lies (R166, R167, R176, R267, R213). A scratch region may lie in the transient
sub-window. -/
def State.regionReasons (s : State) (x : Fin 16) (r : Region) : List Nat :=
  if r.space = 1 then
    err (!s.ownsRegion x r) 0x0232 ++
      err (r.write && (match (s.ctx x).almanacRange with
        | some (lo, hi) => r.overlaps { r with base := lo, rows := 1, pitch := hi - lo, rowBytes := hi - lo }
        | none => false)) 0x0405
  else
    let k := s.windowClass x r
    err (k == 3) 0x0232 ++ err (k == 2 || (k == 1 && !r.scratch)) 0x0229 ++
      err (k == 0 && s.partSlot x r) 0x0228

/-- A token slot that the command both reads and writes (R176). A command reads and writes its staging or work area (log 34). -/
def State.slotBothWays (s : State) (x : Fin 16) (rs : List Region) : Bool :=
  let in' := fun (w : Bool) => (rs.filter (fun r => r.space == 0 && (r.scratch || r.write == w))).filterMap (fun r =>
    let t := (s.cc x (ix 4 r.core)).table
    (slotOf t r).bind (fun i => if ((t.slots[i]?).map (·.raw)).getD true then none else some (r.core, i)))
  (in' true).any (fun p => (in' false).contains p)

/-- Any region of one list overlaps any of another (R524). -/
def anyOverlap (as bs : List Region) : Bool := as.any (fun a => bs.any a.overlaps)

/-- Any two regions of a list overlap. -/
def selfOverlap : List Region → Bool
  | [] => false
  | a :: r => r.any a.overlaps || selfOverlap r

/-- The region of a tensor is named exactly by another (R125). -/
def sameRegion (a b : Tensor) : Bool :=
  a.base == b.base && a.space == b.space && a.pitch == b.pitch && a.row0 == b.row0 && a.col0 == b.col0 &&
    a.fullCols == b.fullCols

/-- Rotation marks and stream numbers agree exactly (R148). -/
def exactMarks (a b : Tensor) : Bool :=
  a.rotK == b.rotK && a.rotT == b.rotT && a.streamK == b.streamK && a.streamT == b.streamT

/-- Rotation marks agree, with the stream numbers of marked dimensions (DEDUCED, log 24). -/
def sameMarks (a b : Tensor) : Bool :=
  a.rotK == b.rotK && a.rotT == b.rotT && (!a.rotK || a.streamK == b.streamK) && (!a.rotT || a.streamT == b.streamT)

/-- A rotation mark of either dimension. -/
def Tensor.marked (t : Tensor) : Bool := t.rotK || t.rotT

/-- Two tensors agree in format, rotation keys and scale identity (R153). -/
def sameIdentity (a b : Tensor) : Bool :=
  a.format == b.format && sameMarks a b &&
    (!a.fmt.quantised || (a.scaleRec == b.scaleRec && (a.scaleRec != 0xFFFF || a.scale == b.scale)))

/-- What the validator finds: reasons to refuse, and otherwise the estimate, the regions that the command names and the
records that it quantises through and names. -/
structure Verdict where
  reasons : List Nat
  est : Nat
  regions : List Region
  quants : List (Nat × W32)
  recs : List Nat
  deriving DecidableEq, Repr

def Verdict.refuse (rs : List Nat) : Verdict := { reasons := rs, est := 0, regions := [], quants := [], recs := [] }

/-- A command without tensors. -/
def Verdict.plain (rs : List Nat) : Verdict := { reasons := rs, est := 0, regions := [], quants := [], recs := [] }

/-- The records that stores go through, with their steps. -/
def quantsOf (ts : List (Option Tensor × W32)) : List (Nat × W32) :=
  ts.filterMap (fun p => match p.1 with
    | some t => if t.fmt.quantised && t.scaleRec != 0xFFFF then some (t.scaleRec, p.2) else none
    | none => none)

/-- The records that a command's tensors name. -/
def recsAt (cmd : Cmd) (offs : List Nat) : List Nat :=
  offs.filterMap (fun o => match cmd.tensor o with
    | some t => if t.fmt.quantised && t.scaleRec != 0xFFFF then some t.scaleRec else none
    | none => none)

/-- Checks a command in four passes: its fields and tensor indices; its tensor descriptors and forms; where its regions
lie and overlap; and its estimate against its limit. The manual orders commands (R306), not the checks of one command: the passes
are the model's (DESIGN CHOICE, log 21). -/
def State.verdict (s : State) (x : Fin 16) (cmd : Cmd) (core : Nat) (fields : List Nat) (us : List TUse) (form : List Nat)
    (extra : List Region) (overLim : List Region → List Nat) (est limit limitReason : Nat) (quants : List (Nat × W32)) :
    Verdict :=
  let a := fields ++ us.flatMap (indexReasons cmd)
  if !a.isEmpty then .refuse a
  else
    let b := us.flatMap (s.tensorReasons x cmd) ++ form
    if !b.isEmpty then .refuse b
    else
      let rs := us.flatMap (fun u => u.regions cmd core) ++ extra
      let c := rs.flatMap (s.regionReasons x) ++ err (s.slotBothWays x rs) 0x022A ++ overLim rs
      if !c.isEmpty then .refuse c
      else if limit < est then .refuse [limitReason]
      else { reasons := [], est := est, regions := rs, quants := quants, recs := quants.map (·.1) ++ recsAt cmd (us.map (·.off)) }

/-- A staging or work area of a command. -/
def areaRegion (core off size : Nat) : Region :=
  { space := 0, core := core, base := off, rows := 1, pitch := size, rowBytes := size, write := true, scratch := true }

/-- The regions of one use. -/
def useAt (us : List TUse) (cmd : Cmd) (core : Nat) (off : Nat) : List Region :=
  (us.filter (fun u => u.off == off)).flatMap (fun u => u.regions cmd core)

/-- The core of a command counts single-array estimates (R112, R133). -/
def State.single (s : State) (cmd : Cmd) : Bool := (s.core cmd.coreIx).singleArray

/-! ## MM and ATTEND (05) -/

/-- The two operands of a product fail R71. -/
def keysBad (a b : Tensor) : Bool :=
  if a.fmt.quantised then !(a.rotK && b.rotK && a.streamK == b.streamK)
  else a.rotK != b.rotK || (a.rotK && a.streamK != b.streamK)

/-- A store that R124 does not allow. -/
def mmStoreBad (t : Tensor) : Bool := if t.fmt.quantised then !t.rotK || t.rotT else t.marked

/-- MM (R117 to R125). The size and overlaps of the staging area are tested only when TW lies in the unified range (DESIGN CHOICE,
log 123), and an index in TB, TR, TZ or TG whose flag is clear is not looked at (DESIGN CHOICE, log 124). -/
def State.checkMm (s : State) (x : Fin 16) (cmd : Cmd) : Verdict :=
  let d := cmd.desc
  let a := mmArgs cmd
  let core := cmd.queue
  let on := fun (b : Bool) (u : TUse) => if b then [u] else []
  let us : List TUse := [⟨4, true, a.m, a.k, 0⟩, ⟨6, true, a.n, a.k, 0⟩, ⟨8, true, a.m, a.nOut, 1⟩] ++
    on a.bias ⟨0xA, true, 1, a.n, 0⟩ ++ on a.resid ⟨0xC, true, a.m, a.nOut, 0⟩ ++ on a.norm ⟨0xE, true, a.m, a.nOut, 1⟩ ++
    on a.norm ⟨0x10, true, 1, a.nOut, 0⟩
  let tx := cmd.tensorD 4
  let tw := cmd.tensorD 6
  let ty := cmd.tensorD 8
  let tb := cmd.tensorD 0xA
  let tr := cmd.tensorD 0xC
  let tz := cmd.tensorD 0xE
  let tg := cmd.tensorD 0x10
  let depth := (laneDepth tx.fmt tw.fmt).getD 512
  let staged := tw.space == 1
  let fields :=
    err (bits (byteAt d 1) 7 4 != 0 || bits (byteAt d 3) 7 1 != 0 || !zeroRange d 0x34 12) 0x0206 ++
    err (outside 1 1048576 a.m || outside 1 1048576 a.n || outside 1 512 a.r || outside 1 131072 a.k) 0x0233 ++
    err (decide (3 < a.act) || (a.gated && a.n % 2 == 1) || (a.gated && (a.resid || a.norm))) 0x0238 ++
    err (a.norm && decide (8192 < a.nOut)) 0x0236 ++ err (a.stageOff % 64 != 0) 0x0239
  let form :=
    err ((laneDepth tx.fmt tw.fmt).isNone || (a.bias && tb.fmt != .fp32) || (a.norm && tg.fmt != .fp32)) 0x0234 ++
    err ((laneDepth tx.fmt tw.fmt).isSome && decide (256 < ceilDiv a.k depth)) 0x0233 ++
    err (keysBad tx tw || tx.rotT || tw.rotT || (a.bias && tb.marked) || (a.norm && tg.marked)) 0x0235 ++
    err (mmStoreBad ty || (a.norm && mmStoreBad tz) || (a.resid && (ty.fmt != .fp32 || tr.fmt != .fp32))) 0x0236
  let area := if staged then [areaRegion core a.stageOff a.stageSize] else []
  let overLim := fun (_ : List Region) =>
    let at' := useAt us cmd core
    let ins := at' 4 ++ at' 6 ++ (if a.bias then at' 0xA else []) ++ (if a.norm then at' 0x10 else [])
    let res := if a.resid then at' 0xC else []
    let y := at' 8
    let z := if a.norm then at' 0xE else []
    err (anyOverlap (y ++ z) ins || anyOverlap z res || (!sameRegion tr ty && anyOverlap y res) || anyOverlap y z ||
      anyOverlap area (ins ++ res ++ y ++ z)) 0x0237 ++
    err (staged && decide (a.stageSize < (if a.blocks = 1 then 1 else 2) * mmBlockBytes a tw 0)) 0x0239
  s.verdict x cmd core fields us form area overLim (estMm (s.single cmd) a tx tw) estLimit 0x023A
    (quantsOf ([(some ty, a.step)] ++ (if a.norm then [(some tz, a.step)] else [])))

/-- The field ranges of Table 5.5. -/
def attendRangesBad (a : AttendArgs) : Bool :=
  outside 1 128 a.h || outside 1 a.h a.hkv || a.h % (max a.hkv 1) != 0 || outside 1 8192 a.qb || outside 128 8192 a.kb ||
    a.kb % 128 != 0 || outside 1 256 a.seqs || outside 1 65536 a.m || outside 1 65536 a.nk

/-- ATTEND (R127). A TO in FP32, and a BF16 TO with a rotation mark, are refused with 0x0236 (DEDUCED, log 26). -/
def State.checkAttend (s : State) (x : Fin 16) (cmd : Cmd) : Verdict :=
  let d := cmd.desc
  let a := attendArgs cmd
  let core := cmd.queue
  let us : List TUse := [⟨2, true, a.seqs * a.m, a.h * 128, 0⟩, ⟨4, true, a.seqs * a.nk, a.hkv * 128, 0⟩,
    ⟨6, true, a.seqs * a.nk, a.hkv * 128, 0⟩, ⟨8, true, a.seqs * a.m, a.h * 128, 1⟩]
  let bf := fun (o : Nat) => (cmd.tensorD o).fmt == .bf16 && !(cmd.tensorD o).marked
  let tO := cmd.tensorD 8
  let fields := err (bits (byteAt d 1) 7 1 != 0 || !zeroRange d 0x38 8) 0x0206 ++ err (attendRangesBad a) 0x0233 ++
    err (a.workOff % 64 != 0 || decide (a.workSize < a.qb * a.kb * 2 + a.qb * 520)) 0x0239
  let form := err (!(bf 2 && bf 4 && bf 6)) 0x0234 ++ err (tO.fmt == .fp32 || mmStoreBad tO) 0x0236
  let area := [areaRegion core a.workOff a.workSize]
  let overLim := fun (_ : List Region) =>
    let ins := useAt us cmd core 2 ++ useAt us cmd core 4 ++ useAt us cmd core 6
    let out := useAt us cmd core 8
    err (anyOverlap out ins || anyOverlap area (ins ++ out)) 0x0237
  s.verdict x cmd core fields us form area overLim (estAttend (s.single cmd) a) estLimit 0x023A (quantsOf [(some tO, a.step)])

/-! ## Feed commands (06) -/

/-- The stores that Table 3.6 accepts for a kind, for S4 and S8 outputs. -/
def kindStoreOk (kind : Nat) (t : Tensor) : Bool :=
  match kind with
  | 0 => t.rotK && !t.rotT
  | 1 => (t.fmt == .s4 && t.rotK && t.rotT) || (t.rotT && !t.rotK)
  | 2 => t.fmt.isS8e && t.rotK && !t.rotT
  | _ => (t.fmt == .s8eB || t.fmt == .s8wB) && t.rotK && !t.rotT

/-- Reasons of a store with STORE_KIND and SR (R148, R526): `marksOk` says that an FP32 or BF16 output carries the marks
it may carry. -/
def storeReasons (t : Tensor) (kind : Nat) (sr vec marksOk : Bool) : List Nat :=
  err (sr && (kind == 0 || !t.fmt.quantised)) 0x0244 ++
  err (if t.fmt.quantised then !kindStoreOk kind t || (vec && t.rotT) else !marksOk) 0x0243

/-- FP32 or BF16. -/
def Tensor.wide (t : Tensor) : Bool := !t.fmt.quantised

/-- VEC (R147 to R149). -/
def State.checkVec (s : State) (x : Fin 16) (cmd : Cmd) : Verdict :=
  let d := cmd.desc
  let op := byteAt d 1
  let fl := byteAt d 2
  let drop := bit fl 0
  let bc := bit fl 1
  let sr := bit fl 2
  let act := byteAt d 3
  let rows := fld d 0xC 4
  let cols := fld d 0x10 4
  let kind := byteAt d 0x22
  let core := cmd.queue
  let rowOp := decide (9 ≤ op)
  let hasB := [0, 1, 2, 3, 6, 7].contains op
  let hasC := op == 3
  let outCols := if op = 0xA then 2 else if op = 0xB then 1 else cols
  let us : List TUse := [⟨4, true, rows, cols, 0⟩] ++ (if hasB then [⟨6, true, if bc then 1 else rows, cols, 0⟩] else []) ++
    (if hasC then [⟨8, true, rows, cols, 0⟩] else []) ++ [⟨0xA, true, rows, outCols, 1⟩]
  let ta := cmd.tensorD 4
  let ty := cmd.tensorD 0xA
  let ins := [ta] ++ (if hasB then [cmd.tensorD 6] else []) ++ (if hasC then [cmd.tensorD 8] else [])
  let fields := err (byteAt d 0x23 != 0 || !zeroRange d 0x2C 20 || decide (3 < kind)) 0x0206 ++
    err (decide (0xB < op) || bits fl 7 3 != 0 || ((op == 5 || op == 6) && decide (3 < act)) || (bc && !hasB) ||
      (drop && rowOp)) 0x0240 ++
    err (outside 1 1048576 rows || outside 1 (if rowOp then 65536 else 1048576) cols) 0x0241 ++
    err ((drop && !validScale (cmd.word 0x1C)) ||
      (op == 8 && (fpIsNaN (cmd.word 0x14) || (fpSign (cmd.word 0x14) && !fpIsZero (cmd.word 0x14))))) 0x0246
  let form := err (!ins.all (·.wide) || (rowOp && ty.fmt != .fp32)) 0x0242 ++
    storeReasons ty kind sr true (if rowOp then !ty.marked else exactMarks ty ta)
  let overLim := fun (_ : List Region) =>
    let out := useAt us cmd core 0xA
    err ((!(sameRegion ta ty && !rowOp) && anyOverlap out (useAt us cmd core 4)) ||
      (hasB && anyOverlap out (useAt us cmd core 6)) || (hasC && anyOverlap out (useAt us cmd core 8))) 0x0245
  let e := beatElems cols
  let reads := [(ta, e)] ++ (if hasB && !bc then [(cmd.tensorD 6, e)] else []) ++ (if hasC then [(cmd.tensorD 8, e)] else [])
  let f := if (op == 5 || op == 6) && decide (2 ≤ act) then 2 else if op == 9 || op == 0xA then 1 else 0
  let c := beatCost reads [(ty, ceilDiv (outCols * e) (max cols 1))] f
  s.verdict x cmd core fields us form [] overLim (estRows rows cols c (if rowOp then 2 * beats cols else 0)) estLimit 0x024A
    (quantsOf [(some ty, cmd.word 0x24)])

/-- An EPS that NORM refuses (R150). -/
def epsBad (e : W32) : Bool := fpSign e || !fpFinite e

/-- NORM (R150). -/
def State.checkNorm (s : State) (x : Fin 16) (cmd : Cmd) : Verdict :=
  let d := cmd.desc
  let rows := fld d 0xC 4
  let cols := fld d 0x10 4
  let core := cmd.queue
  let us : List TUse := [⟨2, true, rows, cols, 0⟩, ⟨4, true, rows, cols, 1⟩, ⟨6, true, 1, cols, 0⟩, ⟨8, false, 1, cols, 0⟩]
  let tx := cmd.tensorD 2
  let ty := cmd.tensorD 4
  let fields := err (!zeroRange d 0xA 2 || !zeroRange d 0x20 32) 0x0206 ++ err (bits (byteAt d 1) 7 1 != 0) 0x0240 ++
    err (outside 1 1048576 rows || outside 1 65536 cols) 0x0241 ++ err (epsBad (cmd.word 0x14)) 0x0246
  let fp32 := fun (o : Nat) => match cmd.tensor o with | some t => t.fmt == .fp32 | none => true
  let form := err (!tx.wide || !fp32 6 || !fp32 8) 0x0242 ++ storeReasons ty 0 false false (!ty.marked)
  let overLim := fun (_ : List Region) =>
    err (anyOverlap (useAt us cmd core 4) (useAt us cmd core 2 ++ useAt us cmd core 6 ++ useAt us cmd core 8)) 0x0245
  let e := beatElems cols
  s.verdict x cmd core fields us form [] overLim (estRows rows cols (beatCost [(tx, e)] [(ty, e)] 0) 0) estLimit 0x024A
    (quantsOf [(some ty, cmd.word 0x18)])

/-- QUANT (R151, R152). -/
def State.checkQuant (s : State) (x : Fin 16) (cmd : Cmd) : Verdict :=
  let d := cmd.desc
  let fl := byteAt d 1
  let tr := bit fl 0
  let sr := bit fl 1
  let inv := bit fl 2
  let kind := byteAt d 2
  let rows := fld d 8 4
  let cols := fld d 0xC 4
  let core := cmd.queue
  let us : List TUse := [⟨4, true, rows, cols, 0⟩, if tr then ⟨6, true, cols, rows, 1⟩ else ⟨6, true, rows, cols, 1⟩]
  let tx := cmd.tensorD 4
  let ty := cmd.tensorD 6
  let fields := err (byteAt d 3 != 0 || !zeroRange d 0x18 40 || decide (3 < kind)) 0x0206 ++
    err (bits fl 7 3 != 0 || (inv && (tr || sr))) 0x0240 ++ err (outside 1 1048576 rows || outside 1 1048576 cols) 0x0241
  let form := err (if inv then !ty.wide else !tx.wide) 0x0242 ++ err (!inv && tx.marked) 0x0243 ++
    storeReasons ty kind sr false (!ty.marked)
  let overLim := fun (_ : List Region) => err (anyOverlap (useAt us cmd core 6) (useAt us cmd core 4)) 0x0245
  let e := beatElems cols
  let rotT := if inv then tx.rotT else ty.rotT
  s.verdict x cmd core fields us form [] overLim
    (estRows rows cols (beatCost [(tx, e)] [(ty, e)] 0) (if tr || rotT then 128 * beats cols else 0)) estLimit 0x024A
    (quantsOf [(some ty, cmd.word 0x10)])

/-- GATHER_E (R153, R154). BF16 rows gathered into FP32 need not agree with TY in rotation marks and keys, which R153 asks only of a
bitwise gather (DESIGN CHOICE, log 121). -/
def State.checkGather (s : State) (x : Fin 16) (cmd : Cmd) : Verdict :=
  let d := cmd.desc
  let scatter := bit (byteAt d 1) 0
  let count := fld d 8 4
  let trows := fld d 0xC 4
  let cols := fld d 0x10 4
  let core := cmd.queue
  let us : List TUse := [⟨2, true, 1, count, 0⟩, ⟨4, true, trows, cols, if scatter then 2 else 0⟩,
    ⟨6, true, count, cols, if scatter then 0 else 1⟩]
  let tt := cmd.tensorD 4
  let ty := cmd.tensorD 6
  let fields := err (!zeroRange d 0x14 44) 0x0206 ++ err (bits (byteAt d 1) 7 1 != 0) 0x0240 ++
    err (outside 1 1048576 count || outside 1 0xFFFFFFFE trows || outside 1 65536 cols) 0x0241
  let pair := if scatter then tt.fmt == .fp32 && ty.fmt == .fp32
    else sameIdentity tt ty || (tt.fmt == .bf16 && ty.fmt == .fp32)
  let form := err ((cmd.tensorD 2).fmt != .fp32) 0x0242 ++ err (!pair) 0x0247
  s.verdict x cmd core fields us form [] (fun _ => [])
    (64 + count * ceilDiv (tt.rowBytes cols) (if scatter then 1536 else 3072)) estLimit 0x024A []

/-- An end of a COPY lies in scratchpad, or wholly in pages on the core's own stacks (Table 6.9). -/
def State.nearEnd (s : State) (cmd : Cmd) (rs : List Region) : Bool :=
  rs.all (fun r => r.space == 0 || (r.units 131072).all (fun p => s.homedOn cmd.coreIx (p * 131072) 1))

/-- COPY (R156). -/
def State.checkCopy (s : State) (x : Fin 16) (cmd : Cmd) : Verdict :=
  let d := cmd.desc
  let conv := bit (byteAt d 1) 0
  let rows := fld d 8 4
  let cols := fld d 0xC 4
  let core := cmd.queue
  let us : List TUse := [⟨2, true, rows, cols, 0⟩, ⟨4, true, rows, cols, 1⟩]
  let ts := cmd.tensorD 2
  let td := cmd.tensorD 4
  let fields := err (!zeroRange d 6 2 || !zeroRange d 0x10 48) 0x0206 ++ err (bits (byteAt d 1) 7 1 != 0) 0x0240 ++
    err (outside 1 1048576 rows || outside 1 1048576 cols) 0x0241
  let ok := if conv then
      sameMarks ts td && (((ts.fmt.quantised || ts.fmt == .bf16) && td.fmt == .fp32) || (ts.fmt == .fp32 && td.fmt == .bf16))
    else sameIdentity ts td
  let overLim := fun (_ : List Region) => err (anyOverlap (useAt us cmd core 4) (useAt us cmd core 2)) 0x0245
  let w := if s.nearEnd cmd (useAt us cmd core 2) && s.nearEnd cmd (useAt us cmd core 4) then 4096 else 3072
  let b := max (ts.rowBytes cols) (td.rowBytes cols)
  s.verdict x cmd core fields us (err (!ok) 0x0242) [] overLim
    (64 + rows * max (ceilDiv b w) (if conv then beats cols else 0)) estLimit 0x024A []

/-! ## The backward commands (08) -/

/-- A region lies in the resident sub-window. -/
def State.isResident (s : State) (x : Fin 16) (r : Region) : Bool := r.space == 0 && s.windowClass x r == 0

/-- MMB (R185 to R197). -/
def State.checkMmb (s : State) (x : Fin 16) (cmd : Cmd) : Verdict :=
  let d := cmd.desc
  let a := mmbArgs cmd
  let core := cmd.queue
  let gated := a.dyOp == 2
  let hasP := a.dyOp != 0
  let dxOn := fld d 0xC 2 != 0xFFFF
  let dwOn := a.dwMode != 0
  let us : List TUse := [⟨4, true, a.m, if gated then a.n / 2 else a.n, 0⟩] ++ (if hasP then [⟨6, true, a.m, a.n, 0⟩] else []) ++
    [⟨8, true, a.k, a.n, 0⟩, ⟨0xA, true, a.k, a.m, 0⟩, ⟨0xC, false, a.m, a.k, 1⟩] ++
    (if dwOn then [⟨0xE, true, a.k, a.n, if a.dwMode = 2 ∧ !a.dwFirst then 2 else 1⟩] else [])
  let tg := cmd.tensorD 4
  let tp := if hasP then cmd.tensor 6 else none
  let twb := cmd.tensorD 8
  let txt := cmd.tensorD 0xA
  let tdx := cmd.tensorD 0xC
  let tdw := cmd.tensorD 0xE
  let pos := if gated then cmd.tensorD 6 else tg
  let fields := err (bits (fld d 0x34 4) 31 24 != 0) 0x0206 ++
    err (bits (byteAt d 1) 7 5 != 0 || decide (2 < a.dyOp) || decide (3 < a.act) || decide (2 < a.dwMode) ||
      (a.srDw && a.dwMode != 1) || (a.dwFirst && a.dwMode != 2)) 0x0250 ++
    err (outside 128 131072 a.m || outside 128 131072 a.n || outside 1 1048576 a.k || decide (a.keepN1 < a.keepN0) ||
      decide (a.n / 128 ≤ a.keepN1) || decide (a.keepK1 < a.keepK0) || decide (ceilDiv a.k 512 ≤ a.keepK1) ||
      (a.vcheck && (s.almEntry x a.group).isNone)) 0x0251 ++
    err (a.m % 128 != 0 || a.n % (if gated then 256 else 128) != 0) 0x0252 ++
    err ((hasP && fld d 6 2 == 0xFFFF) || (!hasP && fld d 6 2 != 0xFFFF) || a.dyRec == 0xFFFF ||
      (s.scaleRec x a.dyRec).format != 2) 0x0253 ++
    err (!dwOn && fld d 0xE 2 != 0xFFFF) 0x0255 ++
    err (a.workOff % 1024 != 0 || decide (a.workSize < 132096 * (ceilDiv a.m 512 * ceilDiv a.n 512))) 0x0257
  let form := err (twb.fmt != .s4 || !(txt.fmt == .s4 || txt.fmt.isS8) || !tg.wide || (hasP && !(cmd.tensorD 6).wide)) 0x0253 ++
    err (!twb.rotK || twb.streamK != a.streamN || twb.rotT || twb.col0 != pos.col0 || !txt.rotK || txt.streamK != a.streamT ||
      txt.rotT || txt.col0 != tg.row0 || tg.marked || (hasP && (cmd.tensorD 6).marked)) 0x0254 ++
    err ((dxOn && (!tdx.fmt.quantised || !tdx.rotT || tdx.streamT != a.streamT || tdx.rotK)) ||
      (dwOn && (!(if a.dwMode = 1 then tdw.fmt.isS8e else tdw.fmt == .fp32) || !tdw.rotK || tdw.streamK != a.streamN ||
        tdw.rotT))) 0x0255
  let area := areaRegion core a.workOff a.workSize
  let overLim := fun (_ : List Region) =>
    let at' := useAt us cmd core
    let outs := at' 0xC
    let dw := (at' 0xE).filter (·.write)
    let ins := ((us.filter (fun u => u.off != 0xE)).flatMap (fun u => at' u.off)).filter (fun r => !r.write)
    err (!((at' 8 ++ at' 0xA).all (s.isResident x)) || !s.isResident x area) 0x0257 ++
    err (anyOverlap (outs ++ dw ++ [area]) ins || selfOverlap (outs ++ dw ++ [area])) 0x0258
  let dwT := if dwOn then cmd.tensor 0xE else none
  s.verdict x cmd core fields us form [area] overLim (estMmb (s.single cmd) a tg tp txt dwT) estLimit 0x0259
    ([(a.dyRec, a.step)] ++ quantsOf [(cmd.tensor 0xC, a.step), (dwT, a.step)])

/-- NORM_B (R200, R201). -/
def State.checkNormB (s : State) (x : Fin 16) (cmd : Cmd) : Verdict :=
  let d := cmd.desc
  let fl := byteAt d 1
  let gacc := bit fl 1
  let resid := bit fl 2
  let rows := fld d 0x10 4
  let cols := fld d 0x14 4
  let core := cmd.queue
  let acc := if gacc then 2 else 1
  let us : List TUse := [⟨2, true, rows, cols, 0⟩, ⟨4, true, rows, cols, 0⟩, ⟨6, true, 1, cols, 0⟩, ⟨8, true, rows, cols, 1⟩] ++
    (if resid then [⟨0xA, true, rows, cols, 0⟩] else []) ++ [⟨0xC, false, 1, cols, acc⟩, ⟨0xE, false, 1, cols, acc⟩]
  let fp32 := fun (o : Nat) => match cmd.tensor o with | some t => t.fmt == .fp32 | none => true
  let clear := fun (o : Nat) => match cmd.tensor o with | some t => !t.marked | none => true
  let fields := err (!zeroRange d 0x1C 36) 0x0206 ++ err (bits fl 7 3 != 0) 0x0250 ++
    err (outside 1 1048576 rows || outside 1 65536 cols) 0x0251 ++
    err (epsBad (cmd.word 0x18) || (decide (32768 < cols) && fld d 0xE 2 != 0xFFFF)) 0x0256
  let form := err (!(cmd.tensorD 2).wide || !(cmd.tensorD 4).wide || !fp32 6 || (resid && !fp32 0xA) || !fp32 0xC ||
      !fp32 0xE) 0x0253 ++
    err (!clear 2 || !clear 4 || !fp32 8 || !clear 8) 0x0256
  let overLim := fun (_ : List Region) =>
    let at' := useAt us cmd core
    let wr := fun (rs : List Region) => rs.filter (·.write)
    let outs := at' 8 ++ wr (at' 0xC) ++ wr (at' 0xE)
    let ins := at' 2 ++ at' 4 ++ at' 6
    let tr := if resid then at' 0xA else []
    err (anyOverlap outs ins || selfOverlap outs || anyOverlap (wr (at' 0xC) ++ wr (at' 0xE)) tr ||
      (resid && !sameRegion (cmd.tensorD 0xA) (cmd.tensorD 8) && anyOverlap (at' 8) tr)) 0x0258
  let reads := [cmd.tensorD 2, cmd.tensorD 4] ++ (if resid then [cmd.tensorD 0xA] else [])
  s.verdict x cmd core fields us form [] overLim (estNormB rows cols reads) estLimit 0x0259 []

/-- ATTEND_B (R203). -/
def State.checkAttendB (s : State) (x : Fin 16) (cmd : Cmd) : Verdict :=
  let d := cmd.desc
  let a := attendBArgs cmd
  let core := cmd.queue
  let q := fun (o m : Nat) => (⟨o, true, a.seqs * a.m, a.h * 128, m⟩ : TUse)
  let k := fun (o m : Nat) => (⟨o, true, a.seqs * a.nk, a.hkv * 128, m⟩ : TUse)
  let us := [q 2 0, k 4 0, k 6 0, q 8 0, q 0xA 1, k 0xC 1, k 0xE 1]
  let fields := err (!zeroRange d 0x1A 2 || !zeroRange d 0x38 8) 0x0206 ++ err (bits (byteAt d 1) 7 1 != 0) 0x0250 ++
    err (attendRangesBad a || a.workOff % 64 != 0) 0x025B ++
    err (decide (a.workSize < 8 * a.qb * a.kb + 1036 * a.qb)) 0x0257
  let form := err ([2, 4, 6, 8].any (fun o => (cmd.tensorD o).fmt != .bf16 || (cmd.tensorD o).marked)) 0x0253 ++
    err ([0xA, 0xC, 0xE].any (fun o => (cmd.tensorD o).fmt != .fp32 || (cmd.tensorD o).marked)) 0x0255
  let area := areaRegion core a.workOff a.workSize
  let overLim := fun (rs : List Region) =>
    let outs := rs.filter (·.write)
    err (!s.isResident x area) 0x0257 ++ err (anyOverlap outs (rs.filter (fun r => !r.write)) || selfOverlap outs) 0x0258
  s.verdict x cmd core fields us form [area] overLim (estAttendB (s.single cmd) a) estLimit 0x0259 []

/-! ## UPDATE, PRECOND, ACQUIRE, RELEASE (09) -/

/-- A range of the unified range as a region that is held but not an output: poison never enters it (R226). -/
def rangeRegion (write : Bool) (p : Nat × Nat) : Region :=
  { space := 1, core := 0, base := p.1, rows := 1, pitch := p.2, rowBytes := p.2, write := write, scratch := write }

/-- A copy that R217 refuses: one that Table 3.2 does not list, or an FP32 one with a mark. A BF16 copy may carry ROT_K or none
(DEDUCED, log 126). -/
def copyBad (t : Option Tensor) : Bool :=
  match t with
  | none => false
  | some t => t.rotT || (if t.fmt.quantised then !t.rotK else t.rotK && t.fmt == .fp32)

/-- The forms of the tensors of an UPDATE against its group, and its records (R217). -/
def State.updForm (s : State) (x : Fin 16) (cmd : Cmd) (e : List Byte) : List Nat :=
  let tg := cmd.tensorD 2
  err (!(tg.fmt.isS8e || (tg.fmt == .fp32 && tg.rotK)) || copyBad (cmd.tensor 4) || copyBad (cmd.tensor 6) ||
    !updShapesOk cmd e || !s.updRecordsOk x e) 0x0406

/-- UPDATE (R212, R217). -/
def State.checkUpdate (s : State) (x : Fin 16) (cmd : Cmd) : Verdict :=
  let d := cmd.desc
  let first := bit (byteAt d 1) 0
  let src := fld d 0x28 8
  let reserved := err (bits (byteAt d 1) 7 3 != 0 || bits (fld d 8 4) 31 18 != 0 || byteAt d 0x27 != 0 || !zeroRange d 0x30 16) 0x0206
  let waits := err (decide (1000 < fld d 0x24 2) || (first && src != 0 && src % 4 != 0)) 0x040A
  match s.almEntry x (groupAt d 8) with
  | none => .refuse (reserved ++ waits ++ [0x0403])
  | some e =>
    let core := cmd.queue
    let us : List TUse := [⟨2, true, almRows e, almCols e, 0⟩, ⟨4, false, almCols e, almRows e, 1⟩,
      ⟨6, false, almRows e, almCols e, 1⟩]
    let named := updRanges e d
    let clip := if first && src != 0 then [rangeRegion false (src, 4)] else []
    let fields := reserved ++ waits ++ err (!updBandsOk e d) 0x0407
    let overLim := fun (_ : List Region) =>
      let held := (groupRanges e).map (rangeRegion true)
      let ts := us.flatMap (fun u => u.regions cmd core) ++ clip
      let alm := match (s.ctx x).almanacRange with
        | some (lo, hi) => [rangeRegion false (lo, hi - lo)]
        | none => []
      err (!named.all (fun g => s.homedOn cmd.coreIx g.1 g.2)) 0x0401 ++
        err (anyOverlap (ts ++ held) alm || anyOverlap ts held || selfOverlap ts || selfOverlap held) 0x0405
    let rows := (updRows e d).length
    let own := fun (t : Tensor) (u : TUse) => s.nearEnd cmd (u.regions cmd core) && t.space == 1
    let ts := us.filterMap (fun u => (cmd.tensor u.off).map (fun t => (t, own t u)))
    let est := estUpdate (rows * blocksPerRow e) (if (cmd.tensor 4).isSome then fld d 0x10 4 else 0)
      (if almRule e = 2 then blocksPerRow e * fld d 0x10 4 else 0) ts
    s.verdict x cmd core fields us (s.updForm x cmd e) (named.map (rangeRegion true) ++ clip) overLim est estLimit 0x0409
      (quantsOf [(cmd.tensor 4, cmd.word 0x1C), (cmd.tensor 6, cmd.word 0x1C)])

/-- PRECOND (R212, R236). -/
def State.checkPrecond (s : State) (x : Fin 16) (cmd : Cmd) : Verdict :=
  let d := cmd.desc
  let tiles := fld d 0xC 4
  let reserved := err (!zeroRange d 1 3 || bits (fld d 4 4) 31 18 != 0 || !zeroRange d 0x14 44) 0x0206
  match s.almEntry x (groupAt d 4) with
  | none => .refuse (reserved ++ [0x0403])
  | some e =>
    let named := preRanges e d
    let fields := reserved ++ err (almRule e != 2) 0x0406 ++ err (!preTilesOk e d) 0x0407
    let overLim := fun (_ : List Region) =>
      err (!(preTiles e d).all (fun g => s.homedOn cmd.coreIx g.1 g.2)) 0x0401
    s.verdict x cmd cmd.queue fields [] [] (named.map (rangeRegion true)) overLim (64 + 393558 * tiles) estLimit 0x0409 []

/-- ACQUIRE and RELEASE (09). -/
def State.checkAcquire (s : State) (x : Fin 16) (cmd : Cmd) : Verdict :=
  let d := cmd.desc
  .plain (err (byteAt d 1 != 0 || bits (fld d 4 4) 31 18 != 0 || !zeroRange d 0xC 52) 0x0206 ++
    err (s.almEntry x (groupAt d 4)).isNone 0x0403 ++ err (cmd.op == 0x61 && decide (1000 < fld d 2 2)) 0x040A)

/-! ## Fabric commands (14) -/

/-- The regions of a run of n elements from a tensor's first, in rows of FULL_COLS - COL0 columns (14): the full rows and
the remainder. -/
def runRegions (t : Tensor) (core n : Nat) (write : Bool) : List Region :=
  let w := t.fullCols - t.col0
  let full := n / w
  let rest := n % w
  (if full = 0 then [] else [{ t.region core full w write with rows := full }]) ++
    (if rest = 0 then [] else
      [{ t.region core 1 rest write with base := t.base + full * t.pitch, rows := 1 }])

/-- Tensor rules of a fabric command's tensor: index, format, R115 over rows of FULL_COLS - COL0 columns, and R59. -/
def State.fabTensor (s : State) (x : Fin 16) (cmd : Cmd) (off : Nat) : List Nat :=
  let i := indexReasons cmd ⟨off, true, 0, 0, 0⟩
  if !i.isEmpty then i
  else
    let t := cmd.tensorD off
    err (decide (t.fullCols ≤ t.col0)) 0x0231 ++ s.tensorReasons x cmd ⟨off, true, 1, t.fullCols - t.col0, 0⟩

/-- Checks a fabric command in passes: fields, tensors, and where its regions lie. -/
def State.fabVerdict (s : State) (x : Fin 16) (fields tens form : List Nat) (rs : List Region) (overLim : List Nat) (est : Nat) :
    Verdict :=
  let a := fields ++ tens
  if !a.isEmpty then .refuse a
  else if !form.isEmpty then .refuse form
  else
    let c := rs.flatMap (s.regionReasons x) ++ err (s.slotBothWays x rs) 0x022A ++ overLim
    if !c.isEmpty then .refuse c
    else if linkLimit < est then .refuse [0x0509]
    else { reasons := [], est := est, regions := rs, quants := [], recs := [] }

/-- An accepted command with what its verdict found. -/
def Verdict.finish (v : Verdict) (cmd : Cmd) : Cmd :=
  { cmd with est := v.est, regions := v.regions, quants := v.quants, recs := v.recs }

/-- A verdict with the record that the tensor of a SEND, RECV or SHARD_GATHER names. -/
def Verdict.naming (v : Verdict) (cmd : Cmd) : Verdict := { v with recs := recsAt cmd [2] }

/-- COLL (R359). -/
def State.checkColl (s : State) (x : Fin 16) (cmd : Cmd) : Verdict :=
  let d := cmd.desc
  let op := byteAt d 1
  let e := fld d 0xC 4
  let p := fld d 0x18 2
  let me := fld d 0x1A 2
  let core := bits (byteAt d 8) 1 0
  let st := byteAt d 9
  let stripes := if st = 0 then 16 else st
  let hasIn := !(op == 3 && me != fld d 0x20 2)
  let mem := fld d 0x10 8
  let fields := err (bits (byteAt d 3) 7 1 != 0 || bits (byteAt d 8) 7 2 != 0 || !zeroRange d 0x22 30) 0x0206 ++
    err (decide (3 < op) || (decide (op < 2) && decide (2 < byteAt d 2)) || !([0, 1, 2, 4, 8, 16].contains st) ||
      decide (60000 < fld d 0xA 2) || outside 1 (2 ^ 30) e || mem % 64 != 0 || outside 2 4096 p || decide (p ≤ me) ||
      (op == 3 && decide (p ≤ fld d 0x20 2)) || (!hasIn && fld d 4 2 != 0xFFFF)) 0x0504
  let tens := (if hasIn then s.fabTensor x cmd 4 else []) ++ s.fabTensor x cmd 6
  let tin := cmd.tensorD 4
  let tout := cmd.tensorD 6
  let form := err ((hasIn && !tin.wide) || !tout.wide || (hasIn && (!sameMarks tin tout || (decide (2 ≤ op) && tin.fmt != tout.fmt))))
    0x050A
  let nIn := if op = 2 then chunkLen e p me else e
  let nOut := if op = 1 then chunkLen e p me else e
  let rin := if hasIn then runRegions tin core nIn false else []
  let rout := runRegions tout core nOut true
  let wire := if op < 2 then (if bit (byteAt d 3) 0 then 2 else 4) else if tout.fmt == .bf16 || bit (byteAt d 3) 0 then 2 else 4
  s.fabVerdict x fields tens form (rin ++ rout ++ [rangeRegion false (mem, 4 * p)])
    (err (anyOverlap rout rin && !(sameRegion tin tout && nIn == nOut)) 0x050A) (estColl op e p me stripes wire)

/-- SEND and RECV (R362). -/
def State.checkSendRecv (s : State) (x : Fin 16) (cmd : Cmd) : Verdict :=
  let d := cmd.desc
  let rows := fld d 0x10 4
  let core := bits (byteAt d 4) 1 0
  let t := cmd.tensorD 2
  let w := t.fullCols - t.col0
  let b := rows * t.rowBytes w
  let fields := err (byteAt d 1 != 0 || bits (byteAt d 4) 7 2 != 0 || byteAt d 5 != 0 || bits (fld d 8 4) 31 24 != 0 ||
      !zeroRange d 0x14 44) 0x0206 ++
    err (outside 1 1048576 rows || decide (60000 < fld d 6 2)) 0x0504
  (s.fabVerdict x fields (s.fabTensor x cmd 2) (err (decide (268435456 < b)) 0x0504)
    [t.region core rows w (cmd.op == 0x42)] [] (64 + ceilDiv b 1008)).naming cmd

/-- SHARD_GATHER (14). -/
def State.checkShard (s : State) (x : Fin 16) (cmd : Cmd) : Verdict :=
  let d := cmd.desc
  let sb := fld d 0x10 4
  let p := fld d 0x14 2
  let core := bits (byteAt d 4) 1 0
  let t := cmd.tensorD 2
  let w := t.fullCols - t.col0
  let rows := ceilDiv (p * sb) (max (t.rowBytes w) 1)
  let vers := fld d 0x28 8
  let fields := err (bits (byteAt d 1) 7 1 != 0 || bits (byteAt d 4) 7 2 != 0 || byteAt d 5 != 0 ||
      bits (fld d 0x20 4) 31 18 != 0 || !zeroRange d 0x30 16) 0x0206 ++
    err (decide (60000 < fld d 6 2) || fld d 8 8 % 64 != 0 || sb % 64 != 0 || outside 64 16777216 sb || outside 1 4096 p ||
      decide (p ≤ fld d 0x16 2) || fld d 0x18 8 % 64 != 0) 0x0504
  let outs := [t.region core rows w true] ++
    (if vers = 0 then [] else [{ rangeRegion false (vers, 4 * p) with write := true }])
  (s.fabVerdict x fields (s.fabTensor x cmd 2) [] (outs ++ [rangeRegion false (fld d 0x18 8, 4 * p)]) []
    (64 + ceilDiv ((p - 1) * sb) 1008)).naming cmd

/-! ## Memory commands (11), and those of any queue -/

/-- MIGRATE, PIN and UNPIN (R285). -/
def State.checkPages (s : State) (x : Fin 16) (cmd : Cmd) : Verdict :=
  let d := cmd.desc
  let mig := cmd.op == 0x50
  let first := fld d 4 4
  let count := fld d 8 4
  let bad := bits (byteAt d 1) 7 2 != 0 || bits (byteAt d 2) 7 4 != 0 || (mig && bits (byteAt d 1) 1 0 == 3) ||
    (mig && bits (byteAt d 1) 1 0 == 0 && decide (11 < bits (byteAt d 2) 3 0)) || byteAt d 3 != 0 ||
    outside 1 (if mig then 16384 else 1048576) count || decide (16777216 < first + count) || !zeroRange d 0xC 52
  let owned := (pageRange first count).all (fun q => match s.homeOf q with | some e => e.owner == x | none => false)
  .plain (if bad then [0x031A] else err (!owned) 0x0232)

/-- LAYER_PLAN (R289). -/
def State.checkPlan (s : State) (x : Fin 16) (cmd : Cmd) : Verdict :=
  let d := cmd.desc
  let n := fld d 2 2
  let table := fld d 8 8
  let bad := decide (1 < byteAt d 1) || outside 1 4096 n || decide (n ≤ fld d 6 2) || table % 64 != 0 || !zeroRange d 0x10 48
  let r := rangeRegion false (table, 64 * n)
  if bad then .refuse [0x031A]
  else if byteAt d 1 = 1 then .plain []
  else { reasons := err (!s.ownsRegion x r) 0x0232, est := 0, regions := [r], quants := [], recs := [] }

/-- FENCE (13, Table 13.6). -/
def checkFence (cmd : Cmd) : Verdict :=
  let d := cmd.desc
  let boundary := bit (byteAt d 3) 0
  .plain (err (decide (1 < byteAt d 1) || bits (byteAt d 3) 7 1 != 0 || decide (60000 < fld d 8 2) || !zeroRange d 0xA 54 ||
    (boundary && (byteAt d 1 != 0 || decide (3 < cmd.queue) || cmd.eval))) 0x0220)

/-- SPAN_OPEN and SPAN_CLOSE (16): reserved bytes. -/
def checkSpanDesc (cmd : Cmd) : Verdict := .plain (err (byteAt cmd.desc 1 != 0 || !zeroRange cmd.desc 4 60) 0x0206)

/-- HINT (18, R450). -/
def State.checkHint (s : State) (cmd : Cmd) : Verdict :=
  let d := cmd.desc
  let cores := bits (byteAt d 2) 3 0
  .plain (err (bits (byteAt d 1) 7 2 != 0 || bits (byteAt d 2) 7 4 != 0 || byteAt d 3 != 0 || !zeroRange d 8 56 ||
    decide (1000000 < fld d 4 4) || (cores == 0 && decide (3 < cmd.queue)) ||
    (List.finRange 4).any (fun c => bit cores c.val && !(s.core c).inService)) 0x0708)

/-- CENSUS (03, R81). -/
def State.checkCensus (s : State) (x : Fin 16) (cmd : Cmd) : Verdict :=
  let d := cmd.desc
  let n := fld d 4 2
  let copy := bit (byteAt d 1) 1
  let dest := fld d 0x10 8
  let a := err (bits (byteAt d 1) 7 2 != 0 || !zeroRange d 6 2 || !zeroRange d 0xC 4 || !zeroRange d 0x18 40) 0x0206 ++
    err (n == 0 || decide (65535 < fld d 2 2 + n) || (copy && (dest % 64 != 0 || decide (2 ^ 41 < dest + 64 * n)))) 0x0212
  if !a.isEmpty then .refuse a
  else if !copy then .plain []
  else
    let r : Region := { rangeRegion false (dest, 64 * n) with write := true }
    { reasons := s.regionReasons x r, est := 0, regions := [r], quants := [], recs := [] }

/-! ## One command of a list -/

/-- An opcode of Table 12.6. -/
def opcodeOk (op : Nat) : Bool :=
  (decide (0x10 ≤ op) && decide (op ≤ 0x13)) || (decide (0x20 ≤ op) && decide (op ≤ 0x25)) || op == 0x30 || op == 0x31 ||
    (decide (0x40 ≤ op) && decide (op ≤ 0x43)) || (decide (0x50 ≤ op) && decide (op ≤ 0x53)) ||
    (decide (0x60 ≤ op) && decide (op ≤ 0x67))

/-- The queues that Table 12.6 allows. -/
def queueOk (op q : Nat) : Bool :=
  if op < 0x40 then decide (q < 4) else if op < 0x50 then q == 4 else if op < 0x60 then q == 5 else decide (q < 6)

/-- The checks of a command's own chapter. -/
def State.checkCmd (s : State) (x : Fin 16) (cmd : Cmd) : Verdict :=
  match cmd.op with
  | 0x10 => s.checkMm x cmd
  | 0x11 => s.checkMmb x cmd
  | 0x12 => s.checkAttend x cmd
  | 0x13 => s.checkAttendB x cmd
  | 0x20 => s.checkVec x cmd
  | 0x21 => s.checkNorm x cmd
  | 0x22 => s.checkNormB x cmd
  | 0x23 => s.checkQuant x cmd
  | 0x24 => s.checkGather x cmd
  | 0x25 => s.checkCopy x cmd
  | 0x30 => s.checkUpdate x cmd
  | 0x31 => s.checkPrecond x cmd
  | 0x40 => s.checkColl x cmd
  | 0x43 => s.checkShard x cmd
  | 0x51 => s.checkPlan x cmd
  | 0x60 => checkFence cmd
  | 0x61 => s.checkAcquire x cmd
  | 0x62 => s.checkAcquire x cmd
  | 0x63 => checkSpanDesc cmd
  | 0x64 => checkSpanDesc cmd
  | 0x65 => s.checkHint cmd
  | 0x66 => s.checkCensus x cmd
  | 0x67 => .plain (err (!zeroRange cmd.desc 1 63) 0x0206)
  | op => if op < 0x50 then s.checkSendRecv x cmd else s.checkPages x cmd

/-- The evaluation class refuses these (R340). -/
def evalBad (cmd : Cmd) : Bool :=
  cmd.eval && (cmd.op == 0x30 || cmd.op == 0x31 || (cmd.op == 0x60 && bit (byteAt cmd.desc 3) 0) ||
    (cmd.op == 0x66 && bit (byteAt cmd.desc 1) 0))

/-- Commands of a context queued and running on a queue (R306). -/
def State.queueLoad (s : State) (x : Fin 16) (q : Nat) : Nat :=
  let k := s.ctx x
  if q < 4 then
    let c : Fin 4 := ix 4 q
    k.cores[c].main.length + k.cores[c].eval.length +
      (match (s.core c).running with | some r => b2n (r.x == x) | none => 0)
  else if q = 4 then k.fabric.length + k.fabricRun.length
  else k.memory.length + k.memoryRun.length

/-- A span that is open at a point of a list (R393 to R396): its queue and class, its number, the estimates so far, and
the regions written and read. -/
structure ListSpan where
  queue : Nat
  eval : Bool
  id : Nat
  est : Nat
  writes : List Region
  inputs : List Region
  deriving DecidableEq, Repr

/-- The commands allowed in a span (R394). -/
def spanAllows (cmd : Cmd) : Bool :=
  (decide (0x10 ≤ cmd.op) && decide (cmd.op ≤ 0x13)) ||
    (decide (0x20 ≤ cmd.op) && decide (cmd.op ≤ 0x25) && !(cmd.op == 0x24 && bit (byteAt cmd.desc 1) 0)) ||
    cmd.op == 0x65 || cmd.op == 0x67 || (cmd.op == 0x60 && byteAt cmd.desc 1 == 0)

/-- A SPAN_CLOSE of the same queue and class follows in the list; that its number differs shows at the close. -/
def closesLater (q : Nat) (ev : Bool) (rest : List Cmd) : Bool :=
  rest.any (fun c => c.queue == q && c.eval == ev && c.op == 0x64)

/-- The span rules for a command, with its estimate and regions: reasons, and the spans open after it. -/
def spanStep (open' : List ListSpan) (rest : List Cmd) (cmd : Cmd) (v : Verdict) : List Nat × List ListSpan :=
  let mine := fun (sp : ListSpan) => sp.queue == cmd.queue && sp.eval == cmd.eval
  let others := open'.filter (fun sp => !mine sp)
  let id := fld cmd.desc 2 2
  match open'.find? mine with
  | none =>
    if cmd.op = 0x63 then
      (err (decide (3 < cmd.queue) || !closesLater cmd.queue cmd.eval rest) 0x0601, ⟨cmd.queue, cmd.eval, id, 0, [], []⟩ :: others)
    else (err (cmd.op == 0x64) 0x0601, open')
  | some sp =>
    if cmd.op = 0x64 then (err (id != sp.id) 0x0601, others)
    else if cmd.op = 0x63 then ([0x0601], open')
    else if cmd.op = 0x30 ∨ cmd.op = 0x31 then ([0x0405], open')
    else if !spanAllows cmd then ([0x0602], open')
    else
      let ins := spanInputs sp.writes v.regions
      let ws := v.regions.filter (·.write)
      let sp' : ListSpan := { sp with est := sp.est + v.est, writes := sp.writes ++ ws, inputs := sp.inputs ++ ins }
      (err (anyOverlap ws sp'.inputs || anyOverlap ins sp.writes) 0x0603 ++ err (decide (estLimit < sp'.est)) 0x0604
      , sp' :: others)

/-- The reasons of the route byte and the opcode (R305, R342, R340, R306), given the commands of the list already accepted
for the same queue. -/
def State.routeReasons (s : State) (x : Fin 16) (route : Nat) (cmd : Cmd) (before : Nat) : List Nat :=
  let q := bits route 2 0
  if !opcodeOk cmd.op then [0x0205]
  else if bits route 7 5 ≠ 0 ∨ 5 < q ∨ (cmd.eval ∧ 3 < q) ∨ !queueOk cmd.op q then [0x0207]
  else err (decide (q < 4) && !(s.core (ix 4 q)).inService) 0x0224 ++ err (evalBad cmd) 0x0222 ++
    err (decide (4096 < s.queueLoad x q + before + 1)) 0x0208

/-- Validates a list in order: the first failure with its index, or the accepted commands. -/
def State.validate (s : State) (x : Fin 16) (routes : List Nat) : List Cmd → List ListSpan → List Cmd → Nat →
    (List Nat × Nat) ⊕ List Cmd
  | [], _, acc, _ => .inr acc
  | cmd :: rest, spans, acc, i =>
    let rr := s.routeReasons x ((routes[i]?).getD 0) cmd (acc.filter (fun c => c.queue == cmd.queue)).length
    if !rr.isEmpty then .inl (rr, i)
    else
      let v := s.checkCmd x cmd
      let (sr, spans') := spanStep spans rest cmd v
      if !(v.reasons ++ sr).isEmpty then .inl (v.reasons ++ sr, i)
      else State.validate s x routes rest spans' (acc ++ [v.finish cmd])
        (i + 1)

/-- The commands of a SUBMIT as its packet spells them (R304, R305). -/
def submitCmds (p : Pkt) : List Cmd :=
  let n := fld p.hdr 0x18 2
  let nt := fld p.hdr 0x1A 2
  let tens := chunks 32 ((p.pay.drop (64 * n)).take (32 * nt))
  (List.range n).map (fun i =>
    let route := byteAt p.hdr (0x40 + i)
    { seq := p.seq, tag := p.tag, index := i, queue := bits route 2 0, eval := bit route 3
      notify := bit route 4, desc := (p.pay.drop (64 * i)).take 64, tens := tens, est := 0, regions := [], quants := [], recs := [] })

/-- Appends an accepted command to its queue (R328). -/
def Ctx.enqueue (k : Ctx) (c : Cmd) : Ctx :=
  if c.queue < 4 then
    { k with cores := vmod k.cores c.coreIx (fun q => if c.eval then { q with eval := q.eval ++ [c] } else { q with main := q.main ++ [c] }) }
  else if c.queue = 4 then { k with fabric := k.fabric ++ [c] }
  else { k with memory := k.memory ++ [c] }

/-- SUBMIT (R304 to R306): a list that is accepted is queued as a whole, and the packet finishes. -/
def doSubmit (x : Fin 16) (i : Fin 8) (s : State) : State :=
  match s.packetAt x i 1 none with
  | none => s
  | some p =>
    if (s.ctx x).dying then s.refusePacket x p 0x0110 0
    else
      let routes := (List.range (fld p.hdr 0x18 2)).map (fun j => byteAt p.hdr (0x40 + j))
      match s.validate x routes (submitCmds p) [] [] 0 with
      | .inl (rs, j) =>
        let (n, s1) := s.occasion
        s1.refusePacket x p ((rs[if rs.length ≤ 1 then 0 else Config.choice n % rs.length]?).getD 0) j
      | .inr cmds =>
        let acct : ListAcct := ⟨p.seq, p.tag, cmds.length, bit (byteAt p.hdr 0x1C) 0⟩
        let s1 := s.modCtx x (fun k => cmds.foldl Ctx.enqueue { k with lists := k.lists ++ [acct] })
        s1.donePacket x p

end Sys2Proof.Machine
end

