-- ==== Sys2Proof/Machine/Fabric.lean ====
section
/-! DEFINITION. Fabric commands and the frames that serve them (14, R356 to R367; 15, R380). -/

namespace Sys2Proof.Machine

open Sys2Proof

/-! ## Elements of a region, and their form on the wire (14, R361) -/

/-- Bytes of an element of a wide format. -/
def wideBytes (t : Tensor) : Nat := if t.fmt == .bf16 then 2 else 4

/-- Pieces of an element run as (row address, elements). -/
def elemPieces (t : Tensor) (e n : Nat) : List (Nat × Nat) :=
  let w := max (t.fullCols - t.col0) 1
  (pieces w (n / w + 2) e n).map (fun q => (t.rowAddr (q.1 / w) + q.1 % w * wideBytes t, q.2))

/-- Reads elements e to e + n - 1 of a region. -/
def State.readElems (s : State) (x : Fin 16) (c : Fin 4) (t : Tensor) (e n : Nat) : List PV :=
  (elemPieces t e n).flatMap (fun q => decodeRow t.fmt fpOne q.2 (s.rread x t.space c q.1 (q.2 * wideBytes t)))

/-- What the stacks and the deep tier find as elements e to e + n - 1 of a region are read (10, R247). -/
def State.touchElems (s : State) (t : Tensor) (e n : Nat) : State :=
  if t.space = 0 then s
  else (elemPieces t e n).foldl (fun s q => s.touchRange q.1 (q.2 * wideBytes t) none) s

/-- Writes elements from e on; FP32 values are rounded once where the region is BF16 (R37, R361). -/
def State.writeElems (s : State) (x : Fin 16) (c : Fin 4) (t : Tensor) (e : Nat) (vs : List PV) : State :=
  ((elemPieces t e vs.length).foldl (fun (r : State × List PV) q =>
    let now := r.2.take q.2
    let bs := now.flatMap (fun v => if t.fmt == .bf16 then pvBytes 2 (toBf16 v.v).toNat v.p else pvBytes 4 v.v.toNat v.p)
    (r.1.rwrite x t.space c q.1 bs, r.2.drop q.2)) (s, vs)).1

/-- Values as they travel: FP32 bits, or BF16 bits. -/
def wireBytes (two : Bool) (vs : List PV) : List Byte :=
  vs.flatMap (fun v => if two then leBytes 2 (toBf16 v.v).toNat else leBytes 4 v.v.toNat)

/-- Values as they arrive. -/
def wireValues (two : Bool) (bs : List Byte) (poison : Bool) : List PV :=
  if two then (chunks 2 bs).map (fun c => ⟨ofBf16 (BitVec.ofNat 16 (leNat c)), poison⟩)
  else (chunks 4 bs).map (fun c => ⟨BitVec.ofNat 32 (leNat c), poison⟩)

/-- Zero bytes up to the next multiple of 64. -/
def pad64 (bs : List Byte) : List Byte := bs ++ zeros ((64 - bs.length % 64) % 64)

/-! ## Progress of commands -/

def State.fabOf (s : State) (run : Nat) : Option Fab := s.fabric.fabs.find? (fun f => f.run == run)

def State.modFabOf (s : State) (run : Nat) (g : Fab → Fab) : State :=
  s.modFabric (fun b => { b with fabs := b.fabs.map (fun f => if f.run = run then g f else f) })

def State.dropFab (s : State) (run : Nat) : State :=
  s.modFabric (fun b => { b with fabs := b.fabs.filter (fun f => f.run != run)
                                 services := b.services.filter (fun v => v.own != some run) })

/-- The dispatched fabric commands of a context with their progress, in dispatch order. -/
def State.fabRuns (s : State) (x : Fin 16) : List (Run × Fab) :=
  (s.ctx x).fabricRun.filterMap (fun r => (s.fabOf r.id).map (fun f => (r, f)))

/-- Ends a fabric command with a failure that poisons nothing by itself. -/
def State.fabFail (s : State) (r : Run) (reason : Nat) : State := (s.failClean r reason).dropFab r.id

/-- Poison of the module's own reached a send: the command will fail with 0x0508 and a sink record is made (R358; 17,
R420, R421). -/
def State.sendSink (s : State) (r : Run) : State :=
  match s.fabOf r.id with
  | none => s
  | some f =>
    if f.bad = 0x0508 then s
    else (s.modFabOf r.id (fun f => { f with bad := 0x0508 })).detect ((s.faultNow 2 0x0508 0x0C).ofCmd r.x r.cmd)

/-- A POISON frame arrived for a command (R358). -/
def State.gotPoison (s : State) (r : Run) (poison : Bool) : State :=
  if poison then s.modFabOf r.id (fun f => { f with bad := if f.bad = 0 then 0x050B else f.bad }) else s

/-- Takes a piece of an awaited part: bytes fewer, the piece noted, and the SEQ of a LAST frame. -/
def Fab.take (g : Fab) (step stripe off n : Nat) (f : Frame) : Fab :=
  { g with parts := g.parts.map (fun p => if p.step = step && p.stripe == stripe then { p with left := p.left - n } else p)
           got := (step, stripe, off) :: g.got
           lasts := if f.last then (f.src, f.seq) :: g.lasts else g.lasts }

/-- A part is still awaited and a piece of it is new. -/
def Fab.wants (g : Fab) (step stripe off : Nat) : Bool :=
  g.parts.any (fun p => p.step == step && p.stripe == stripe && decide (0 < p.left)) && !g.got.contains (step, stripe, off)

/-! ## COLL (Table 14.4, R359 to R361) -/

/-- Fields of a COLL. -/
structure CollArgs where
  op : Nat
  red : Nat
  wire16 : Bool
  core : Fin 4
  stripes : Nat
  e : Nat
  p : Nat
  me : Nat
  tag : W32
  root : Nat
  tin : Tensor
  tout : Tensor
  deriving DecidableEq, Repr

def collArgs (cmd : Cmd) : CollArgs :=
  let d := cmd.desc
  { op := byteAt d 1, red := byteAt d 2, wire16 := bit (byteAt d 3) 0, core := ix 4 (byteAt d 8)
    stripes := if byteAt d 9 = 0 then 16 else byteAt d 9, e := fld d 0xC 4, p := fld d 0x18 2, me := fld d 0x1A 2
    tag := cmd.word 0x1C, root := fld d 0x20 2, tin := cmd.tensorD 4, tout := cmd.tensorD 6 }

/-- The nodes of a member table. -/
def State.memberNodes (s : State) (addr p : Nat) : List Nat :=
  (chunks 4 ((s.uread addr (4 * p)).map (·.b))).map (fun c => leNat c % 2 ^ 24)

/-- Elements travel as BF16: WIRE_BF16, or an all-gather or broadcast of BF16 tensors. -/
def CollArgs.two (a : CollArgs) : Bool := a.wire16 || (decide (2 ≤ a.op) && a.tout.fmt == .bf16)

def CollArgs.bytes (a : CollArgs) : Nat := if a.two then 2 else 4

/-- First element of a chunk. -/
def CollArgs.chunkAt (a : CollArgs) (i : Nat) : Nat := i * a.e / a.p

/-- First element of a stripe within its chunk, and its elements. -/
def CollArgs.stripeAt (a : CollArgs) (chunk s : Nat) : Nat := s * chunkLen a.e a.p chunk / a.stripes

def CollArgs.stripeLen (a : CollArgs) (chunk s : Nat) : Nat := a.stripeAt chunk (s + 1) - a.stripeAt chunk s

/-- The element of TIN at which a chunk begins. -/
def CollArgs.inAt (a : CollArgs) (chunk : Nat) : Nat := if a.op = 2 then 0 else a.chunkAt chunk

def CollArgs.outAt (a : CollArgs) (chunk : Nat) : Nat := if a.op = 1 then 0 else a.chunkAt chunk

/-- The chunk that arrives in a ring step (R360). A BROADCAST numbers its steps by chunk: DESIGN CHOICE (log 72). -/
def CollArgs.arrives (a : CollArgs) (step : Nat) : Nat :=
  if a.op = 3 then step
  else if a.op = 2 then (a.me + a.p - 1 - step) % a.p
  else if step < a.p - 1 then (a.me + 2 * a.p - 2 - step) % a.p
  else (a.me + 2 * a.p - 2 - step) % a.p

/-- Ring steps in which frames arrive. -/
def CollArgs.steps (a : CollArgs) : Nat :=
  if a.op = 3 then (if a.me = a.root then 0 else a.p) else ringSteps a.op a.p

/-- The parts that a member awaits. -/
def CollArgs.parts (a : CollArgs) : List Part :=
  (List.range a.steps).flatMap (fun k => (List.range a.stripes).filterMap (fun s =>
    let n := a.stripeLen (a.arrives k) s * a.bytes
    if n = 0 then none else some ⟨k, s, ceilDiv n 64 * 64⟩))

/-- One combination of a left fold (R361). -/
def CollArgs.combine (a : CollArgs) (x y : PV) : PV :=
  ⟨if a.red = 0 then fpAdd x.v y.v else if a.red = 1 then fpMax x.v y.v else fpMin x.v y.v, x.p || y.p⟩

/-- A value as WIRE_BF16 rounds it. -/
def CollArgs.onWire (a : CollArgs) (v : PV) : PV := if a.wire16 then ⟨bf16r v.v, v.p⟩ else v

/-- The port of a stripe (R359). -/
def stripePort (s : Nat) : Fin 16 := ix 16 (4 * (s % 4) + s / 4)

/-- Sends elements of a stripe in a ring step to the next member, in frames of at most PAY_MAX bytes. `clean` says that
what arrived for them was not poisoned, so that poison among them is the module's own. -/
def State.sendElems (s : State) (r : Run) (a : CollArgs) (job next step stripe off len : Nat) (clean : Bool)
    (vs : List PV) : State :=
  let per := s.payMax / a.bytes
  (chunks per vs).zipIdx.foldl (fun s c =>
    let bad := c.1.any (·.p)
    let at' := off + c.2 * per
    let body := pad64 (wireBytes a.two c.1)
    let f := s.frame 1 0 job next (if bad then zeros body.length else body)
    let s1 := s.enqueue (some r.x) (some r.id) (some (stripePort stripe)) { f with
      stripe := stripe, msg := a.tag, poison := bad, last := decide (at' + c.1.length = len)
      offset := BitVec.ofNat 64 (step * 2 ^ 40 + at' * a.bytes) }
    if bad && clean then s1.sendSink r else s1) s

/-- Writes elements of a chunk to TOUT. -/
def State.collOut (s : State) (r : Run) (a : CollArgs) (chunk e : Nat) (vs : List PV) : State :=
  (s.writeElems r.x a.core a.tout (a.outAt chunk + e) vs).notePoison r (vs.any (·.p))

/-- Sends a whole chunk of TIN in a ring step, stripe by stripe, and writes it to TOUT when it is final there. -/
def State.collSend (s : State) (r : Run) (a : CollArgs) (job next step chunk : Nat) (final : Bool) : State :=
  (List.range a.stripes).foldl (fun s st =>
    let n := a.stripeLen chunk st
    if n = 0 then s
    else
      let at' := a.stripeAt chunk st
      let s := s.touchElems a.tin (a.inAt chunk + at') n
      let vs := (s.readElems r.x a.core a.tin (a.inAt chunk + at') n).map a.onWire
      let s1 := if final then s.collOut r a chunk at' vs else s
      s1.sendElems r a job next step st 0 n true vs) s

/-- The first sends of a member (R360). -/
def State.collStart (s : State) (r : Run) (a : CollArgs) (job next : Nat) : State :=
  if a.op < 2 then s.collSend r a job next 0 ((a.me + a.p - 1) % a.p) false
  else if a.op = 2 then s.collSend r a job next 0 a.me true
  else if a.me = a.root then (List.range a.p).foldl (fun s j => s.collSend r a job next j j true) s
  else s

/-- What a member does with elements that arrived in a ring step (R360, R361). -/
def State.collStep (s : State) (r : Run) (a : CollArgs) (job next step stripe off : Nat) (poison : Bool) (vs : List PV) :
    State :=
  let c := a.arrives step
  let len := a.stripeLen c stripe
  let at' := a.stripeAt c stripe + off
  if a.op < 2 && decide (step < a.p - 1) then
    let s := s.touchElems a.tin (a.inAt c + at') vs.length
    let own := s.readElems r.x a.core a.tin (a.inAt c + at') vs.length
    let sum := (vs.zip own).map (fun p => a.combine p.1 p.2)
    if step < a.p - 2 then s.sendElems r a job next (step + 1) stripe off len (!poison) (sum.map a.onWire)
    else
      let fin := if a.op = 0 then sum.map a.onWire else sum
      let s1 := s.collOut r a c at' fin
      if a.op = 0 then s1.sendElems r a job next (step + 1) stripe off len (!poison) fin else s1
  else
    let s1 := s.collOut r a c at' vs
    let onward := if a.op = 3 then decide ((a.me + 1) % a.p ≠ a.root) else decide (step + 1 < a.steps)
    if onward then s1.sendElems r a job next (if a.op = 3 then step else step + 1) stripe off len (!poison) vs else s1

/-- Gives a DATA frame of channel 0 to a command. -/
def State.collTake (s : State) (r : Run) (f : Frame) : State :=
  let a := collArgs r.cmd
  let nodes := s.memberNodes (fld r.cmd.desc 0x10 8) a.p
  let next := (nodes[(a.me + 1) % a.p]?).getD 0
  let step := f.offset.toNat / 2 ^ 40
  let byte := f.offset.toNat % 2 ^ 40
  let off := byte / a.bytes
  let len := a.stripeLen (a.arrives step) f.stripe
  let vs := (wireValues a.two f.payload f.poison).take (len - off)
  let s1 := (s.modFabOf r.id (fun g => g.take step f.stripe byte f.payload.length f)).gotPoison r f.poison
  s1.collStep r a f.job next step f.stripe off f.poison vs

/-- A COLL takes frames of the TAG and from the peer of a frame. -/
def State.collMeets (s : State) (f : Frame) (cmd : Cmd) : Bool :=
  let a := collArgs cmd
  let prev := ((s.memberNodes (fld cmd.desc 0x10 8) a.p)[(a.me + a.p - 1) % a.p]?).getD 0
  cmd.op == 0x40 && a.tag == f.msg && prev == f.src

/-- The dispatched COLLs that await a frame, in dispatch order. -/
def State.collsFor (s : State) (x : Fin 16) (f : Frame) : List Run :=
  ((s.fabRuns x).filter (fun p => s.collMeets f p.1.cmd &&
    p.2.wants (f.offset.toNat / 2 ^ 40) f.stripe (f.offset.toNat % 2 ^ 40))).map (·.1)

/-- The command that a frame goes to, of those that it may be for (R355): at once where there is one, and else, once every frame of
the flow before it has been accepted, the first. `more` says that a command not yet dispatched may be meant. DEDUCED (log 74). -/
def State.place (s : State) (f : Frame) (rs : List Run) (more : Bool) : Option Run :=
  match rs with
  | [] => none
  | r :: rest => if (rest.isEmpty && !more) || s.inOrder f.src f.job f.channel f.seq then some r else none

/-! ## SEND and RECV (Table 14.5, R362, R363) -/

/-- Region, row bytes, rows and message bytes of a SEND or RECV. -/
structure MsgArgs where
  t : Tensor
  core : Fin 4
  rowBytes : Nat
  rows : Nat
  peer : Nat
  tag : W32
  deriving DecidableEq, Repr

def msgArgs (cmd : Cmd) : MsgArgs :=
  let t := cmd.tensorD 2
  { t := t, core := ix 4 (byteAt cmd.desc 4), rowBytes := t.rowBytes (t.fullCols - t.col0), rows := fld cmd.desc 0x10 4
    peer := fld cmd.desc 8 4 % 2 ^ 24, tag := cmd.word 0xC }

def MsgArgs.bytes (m : MsgArgs) : Nat := m.rows * m.rowBytes

/-- Pieces of a byte run of a message: address and length. -/
def msgPieces (m : MsgArgs) (off n : Nat) : List (Nat × Nat) :=
  let w := max m.rowBytes 1
  (pieces w (n / w + 2) off n).map (fun q => (m.t.rowAddr (q.1 / w) + q.1 % w, q.2))

/-- Sends a message or shard as DATA frames (R350, R358): the flag says that poison was sent. -/
def State.sendBytes (s : State) (x : Fin 16) (owner channel job peer : Nat) (msg word : W32) (bs : List PByte) : State × Bool :=
  let cs := chunks s.payMax bs
  cs.zipIdx.foldl (fun (r : State × Bool) c =>
    let bad := c.1.any (·.p)
    let body := pad64 (c.1.map (·.b))
    let f := r.1.frame 1 channel job peer (if bad then zeros body.length else body)
    (r.1.enqueue (some x) (some owner) none { f with
      msg := msg, word := word, poison := bad, last := c.2 + 1 == cs.length
      offset := BitVec.ofNat 64 (c.2 * s.payMax) }, r.2 || bad)) (s, false)

/-- Sends the RTS of a SEND (R362). -/
def State.sendRts (s : State) (r : Run) (job : Nat) : State :=
  let m := msgArgs r.cmd
  (s.enqueue (some r.x) (some r.id) none { (s.frame 3 1 job m.peer []) with
    msg := m.tag, offset := BitVec.ofNat 64 m.bytes }).modFabOf r.id (fun g => { g with phase := 0, retry := none })

/-- Sends the data of a SEND (R362). -/
def State.sendData (s : State) (r : Run) (job : Nat) : State :=
  let m := msgArgs r.cmd
  let s := if m.t.space = 0 then s else (msgPieces m 0 m.bytes).foldl (fun s q => s.touchRange q.1 q.2 none) s
  let bs := (msgPieces m 0 m.bytes).flatMap (fun q => s.rread r.x m.t.space m.core q.1 q.2)
  let (s1, bad) := s.sendBytes r.x r.id 1 job m.peer m.tag 0 bs
  let s2 := s1.modFabOf r.id (fun g => { g with phase := 2 })
  if bad then s2.sendSink r else s2

/-- Sends a CTS (R362, R364). -/
def State.sendCts (s : State) (x : Fin 16) (channel job peer : Nat) (msg : W32) (status : Nat) : State :=
  s.enqueue (some x) none none { (s.frame 4 channel job peer []) with msg := msg, word := BitVec.ofNat 32 status }

/-- Matches the RTSs that stand in SEQ order with the RECVs in dispatch order (R362). -/
def State.matchRts (s : State) (x : Fin 16) (job : Nat) : State :=
  (s.fabRuns x).foldl (fun s p =>
    let m := msgArgs p.1.cmd
    if p.1.cmd.op != 0x42 || p.2.phase != 0 then s
    else match s.fabric.rts.find? (fun t => t.x == x && t.peer == m.peer && t.tag == m.tag) with
      | none => s
      | some t =>
        if !s.inOrder t.peer job 1 t.seq then s
        else
          let s1 := s.modFabric (fun b => { b with rts := b.rts.erase t })
          if t.bytes = m.bytes then
            (s1.sendCts x 1 job m.peer m.tag 0).modFabOf p.1.id (fun g => { g with
              phase := 1, parts := [⟨0, 0, ceilDiv m.bytes 64 * 64⟩] })
          else (s1.sendCts x 1 job m.peer m.tag 2).fabFail p.1 0x0505) s

/-- Inserts an RTS by SEQ among those of its flow. -/
def insertRts (t : Rts) : List Rts → List Rts
  | [] => [t]
  | u :: r => if u.peer = t.peer ∧ u.x = t.x ∧ 2 ^ 31 ≤ dist32 t.seq u.seq then t :: u :: r else u :: insertRts t r

/-- The dispatched RECVs that await a DATA frame, in dispatch order. -/
def State.recvsFor (s : State) (x : Fin 16) (f : Frame) : List Run :=
  ((s.fabRuns x).filter (fun p =>
    let m := msgArgs p.1.cmd
    p.1.cmd.op == 0x42 && p.2.phase == 1 && m.tag == f.msg && m.peer == f.src &&
      p.2.wants 0 0 (f.offset.toNat % 2 ^ 40))).map (·.1)

/-- The dispatched SENDs that await a CTS, in dispatch order. -/
def State.sendsFor (s : State) (x : Fin 16) (f : Frame) : List Run :=
  ((s.fabRuns x).filter (fun q => q.1.cmd.op == 0x41 && q.2.phase == 0 && q.2.retry.isNone &&
    (msgArgs q.1.cmd).peer == f.src && (msgArgs q.1.cmd).tag == f.msg)).map (·.1)

/-- Writes bytes of a message to its region. -/
def State.writeMsg (s : State) (x : Fin 16) (m : MsgArgs) (off : Nat) (bs : List PByte) : State :=
  ((msgPieces m off bs.length).foldl (fun (r : State × List PByte) q =>
    (r.1.rwrite x m.t.space m.core q.1 (r.2.take q.2), r.2.drop q.2)) (s, bs)).1

/-- Gives a DATA frame of channel 1 to its RECV (R355, R358). -/
def State.recvTake (s : State) (r : Run) (f : Frame) : State :=
  let m := msgArgs r.cmd
  let off := f.offset.toNat % 2 ^ 40
  let bs := (f.payload.take (m.bytes - off)).map (fun b => (⟨b, f.poison⟩ : PByte))
  let s1 := (s.modFabOf r.id (fun g => g.take 0 0 off f.payload.length f)).gotPoison r f.poison
  (s1.writeMsg r.x m off bs).notePoison r f.poison

/-- Gives a CTS of channel 1 to its SEND (R362). -/
def State.ctsTake (s : State) (r : Run) (f : Frame) : State :=
  if f.word.toNat = 0 then s.sendData r f.job
  else if f.word.toNat = 1 then s.modFabOf r.id (fun g => { g with retry := some s.pilot })
  else if f.word.toNat = 2 then s.fabFail r 0x0505
  else s.fabFail r 0x0507

/-! ## Frames on their way to a command (R355) -/

/-- Inserts a frame by SEQ among those of its flow. -/
def insertEarly (f : Frame) : List Frame → List Frame
  | [] => [f]
  | u :: r =>
    if u.src = f.src ∧ u.job = f.job ∧ u.channel = f.channel ∧ 2 ^ 31 ≤ dist32 f.seq u.seq then f :: u :: r
    else u :: insertEarly f r

/-- Keeps a frame until its command can be told. -/
def State.keep (s : State) (f : Frame) : State := s.modFabric (fun b => { b with early := insertEarly f b.early })

def State.unkeep (s : State) (f : Frame) : State := s.modFabric (fun b => { b with early := b.early.erase f })

/-- Gives one kept frame to its command if that can be told. A frame of a message that no command awaits has no effect. -/
def State.drainOne (s : State) (x : Fin 16) (f : Frame) : State :=
  let give := fun (rs : List Run) (take : State → Run → State) =>
    if rs.isEmpty then s.unkeep f
    else match s.place f rs false with
      | some r => take (s.unkeep f) r
      | none => s
  if f.channel = 0 then
    match s.place f (s.collsFor x f) ((s.ctx x).fabric.any (s.collMeets f)) with
    | some r => (s.unkeep f).collTake r f
    | none => s
  else if f.kind = 4 then give (s.sendsFor x f) (fun s r => s.ctsTake r f)
  else give (s.recvsFor x f) (fun s r => s.recvTake r f)

/-- Gives the kept frames of a job to their commands, in SEQ order. -/
def State.drain (s : State) (x : Fin 16) (job : Nat) : State :=
  s.fabric.early.foldl (fun s f => if f.job = job then s.drainOne x f else s) s

/-! ## SHARD_GATHER (Table 14.6, R364, R365) -/

/-- Fields of a SHARD_GATHER. -/
structure ShardArgs where
  vcheck : Bool
  t : Tensor
  core : Fin 4
  src : Nat
  bytes : Nat
  p : Nat
  me : Nat
  members : Nat
  group : Nat
  expect : W32
  versOut : Nat
  deriving DecidableEq, Repr

def shardArgs (cmd : Cmd) : ShardArgs :=
  let d := cmd.desc
  { vcheck := bit (byteAt d 1) 0, t := cmd.tensorD 2, core := ix 4 (byteAt d 4), src := fld d 8 8, bytes := fld d 0x10 4
    p := fld d 0x14 2, me := fld d 0x16 2, members := fld d 0x18 8, group := bits (fld d 0x20 4) 17 0
    expect := cmd.word 0x24, versOut := fld d 0x28 8 }

/-- TOUT of a gather as a message region. -/
def ShardArgs.msg (a : ShardArgs) : MsgArgs :=
  { t := a.t, core := a.core, rowBytes := a.t.rowBytes (a.t.fullCols - a.t.col0), rows := 0, peer := 0, tag := 0 }

/-- The message number of a gather on the wire. The manual gives a shard request no layout: it travels as an RTS on channel
2 with SRC and GROUP in its payload, and its answers carry its number. DESIGN CHOICE (log 77). -/
def shardMsg (run : Nat) : W32 := BitVec.ofNat 32 run

/-- Requests every other owner's shard, and waits on the own group as an owner (R364). -/
def State.shardStart (s : State) (r : Run) (job : Nat) (nodes : List Nat) : State :=
  let a := shardArgs r.cmd
  let s1 := s.modFabOf r.id (fun g => { g with parts := (List.range a.p).map (fun i => ⟨i, 0, a.bytes⟩) })
  let s2 := nodes.zipIdx.foldl (fun s n =>
    if n.2 = a.me then s
    else s.enqueue (some r.x) (some r.id) none { (s.frame 3 2 job n.1 (pad64 (leBytes 8 a.src ++ leBytes 4 a.group))) with
      msg := shardMsg r.id, offset := BitVec.ofNat 64 a.bytes }) s1
  { s2 with
    hub := { s2.hub with nextRun := s2.hub.nextRun + 1 }
    fabric := { s2.fabric with services := s2.fabric.services ++ [
      { id := s2.hub.nextRun, x := r.x, job := job, peer := 0, msg := 0, src := a.src, bytes := a.bytes, group := a.group
        started := false, own := some r.id }] } }

/-- Bytes of owner i's shard arrive (R364, R365). -/
def State.shardTake (s : State) (r : Run) (i off : Nat) (version : W32) (bs : List PByte) (f : Option Frame) : State :=
  let a := shardArgs r.cmd
  let s1 := s.modFabOf r.id (fun g =>
    let g1 := match f with
      | some f => g.take i 0 off bs.length f
      | none => { g with parts := g.parts.map (fun (p : Part) => if p.step = i then { p with left := 0 } else p) }
    { g1 with versions := ainsert i version g1.versions })
  (s1.writeMsg r.x a.msg (i * a.bytes + off) bs).notePoison r (bs.any (·.p))

/-- The gather that awaits a DATA or CTS frame of channel 2, with the owner's index. -/
def State.shardFor (s : State) (x : Fin 16) (f : Frame) : Option (Run × Nat) :=
  (s.fabRuns x).findSome? (fun p =>
    let a := shardArgs p.1.cmd
    if p.1.cmd.op == 0x43 && shardMsg p.1.id == f.msg then
      ((s.memberNodes a.members a.p).zipIdx.find? (fun n => n.1 == f.src && n.2 != a.me &&
        (f.kind != 1 || p.2.wants n.2 0 (f.offset.toNat % 2 ^ 40)))).map (fun n => (p.1, n.2))
    else none)

/-- All shards are there: versions are written and compared (R365). -/
def State.shardEnd (s : State) (r : Run) (g : Fab) : State :=
  let a := shardArgs r.cmd
  let vs := (List.range a.p).map (fun i => (alookup i g.versions).getD 0)
  let s1 := if a.versOut = 0 then s
    else s.uwrite a.versOut ((vs.flatMap (fun v => leBytes 4 v.toNat)).map (fun b => ⟨b, false⟩))
  let differ := vs.any (fun v => v != (vs.head?.getD 0)) || (a.vcheck && vs.any (· != a.expect))
  if differ then
    let s2 := match r.cmd.regions.head? with | some t => s1.poisonRegion r.x a.core t | none => s1
    s2.modRun r.id (fun r => { r with out := { r.out with reason := 0x0506, failed := true, poisoned := true } })
  else s1

/-! ## Completion and waits -/

/-- A fabric command that has everything it needs ends its work; COMMAND_COMPLETE then ends it (R355, R362, R365). -/
def State.settleFab (s : State) (job channel : Nat) (r : Run) (g : Fab) : State :=
  let ordered := g.lasts.all (fun l => s.inOrder l.1 job channel l.2)
  let arrived := g.parts.all (fun p => p.left == 0)
  let done := if r.cmd.op = 0x41 then g.phase == 2 && s.allAcked r.id
    else if r.cmd.op = 0x42 then g.phase == 1 && arrived && ordered
    else arrived && ordered && s.allSent r.id
  if !done then s
  else
    let s1 := if r.cmd.op = 0x43 then s.shardEnd r g else s
    let s2 := if g.bad = 0 then s1
      else s1.modRun r.id (fun r => { r with out := { r.out with
        reason := if r.out.failed then r.out.reason else g.bad, failed := true, poisoned := true } })
    (s2.modRun r.id (fun r => { r with busy := false })).dropFab r.id

/-- The channel of a fabric command. -/
def fabChannel (op : Nat) : Nat := if op = 0x40 then 0 else if op = 0x43 then 2 else 1

/-- Settles every fabric command of a context. -/
def State.settle (s : State) (x : Fin 16) (job : Nat) : State :=
  (s.fabRuns x).foldl (fun s p =>
    match s.fabOf p.1.id with
    | some g => s.settleFab job (fabChannel p.1.cmd.op) p.1 g
    | none => s) s

/-- What a frame that a job's flow has taken in lets go on: kept frames go to their commands, RTSs meet RECVs, and commands end. -/
def State.progress (s : State) (x : Fin 16) (job : Nat) : State := ((s.drain x job).matchRts x job).settle x job

/-- A dispatched fabric command is in a peer wait (R357): it has sent what it can, and no busy RTS of it stands back. -/
def State.inPeerWait (s : State) (r : Run) (g : Fab) : Bool := r.busy && s.sentAll r.id && g.retry.isNone

/-- The peer that a command awaits: of a COLL the predecessor, or, once all operands are there, the successor that has not acknowledged
enough (log 154). -/
def State.awaits (s : State) (r : Run) (g : Fab) : Nat :=
  if r.cmd.op = 0x40 then
    let a := collArgs r.cmd
    let i := if g.parts.all (fun p => p.left == 0) then a.me + 1 else a.me + a.p - 1
    ((s.memberNodes (fld r.cmd.desc 0x10 8) a.p)[i % a.p]?).getD 0
  else if r.cmd.op = 0x43 then
    let a := shardArgs r.cmd
    let i := ((g.parts.find? (fun p => decide (0 < p.left))).map (·.step)).getD 0
    ((s.memberNodes a.members a.p)[i]?).getD 0
  else (msgArgs r.cmd).peer

/-- The latest frame of a peer carried THROTTLED (R357). -/
def State.peerThrottled (s : State) (node : Nat) : Bool := (alookup node s.fabric.peers).getD false

/-- A pilot cycle of peer waits counts towards PEER_WAIT_MS unless the awaited peer is throttled (R357). -/
def State.tickFabric (s : State) : State :=
  let runs := s.hub.ctxs.toList.flatMap (fun k => k.fabricRun)
  s.modFabric (fun b => { b with fabs := b.fabs.map (fun g =>
    match runs.find? (fun r => r.id == g.run) with
    | some r => if s.inPeerWait r g && !s.peerThrottled (s.awaits r g) then { g with waits := g.waits + 1 } else g
    | none => g) })

/-- PEER_WAIT_MS of a command in pilot cycles. -/
def peerLimit (cmd : Cmd) : Nat :=
  let ms := fld cmd.desc (if cmd.op = 0x40 then 0xA else 6) 2
  (if ms = 0 then 2000 else ms) * 50000

/-- PEER_WAIT_TIMEOUT (R357): command i of a fabric queue fails with 0x0503 and its outputs are poisoned. -/
def doPeerWaitTimeout (x : Fin 16) (i : Nat) (s : State) : State :=
  match (s.ctx x).fabricRun[i]? with
  | none => s
  | some r =>
    match s.fabOf r.id with
    | none => s
    | some g =>
      if s.inPeerWait r g && decide (peerLimit r.cmd ≤ g.waits) && g.heard != some s.pilot
      then (s.failRun r 0x0503).dropFab r.id else s

/-- Notes for the commands that await a frame's sender that they heard from it now (R357). -/
def State.noteHeard (s : State) (f : Frame) : State :=
  let runs := s.hub.ctxs.toList.flatMap (fun k => k.fabricRun)
  s.modFabric (fun b => { b with fabs := b.fabs.map (fun g =>
    match runs.find? (fun r => r.id == g.run) with
    | some r => if s.awaits r g = f.src then { g with heard := some s.pilot } else g
    | none => g) })

/-- A flow frame of the fabric that a port takes in: the flag says that it is new. -/
def State.takeIn (s : State) (p : Fin 16) (f : Frame) : State × Bool :=
  match s.receive p f with
  | (s1, true) => (s1.noteHeard f, true)
  | (s1, false) => (s1, false)

/-! ## Dispatch -/

/-- Idle mode holds a SHARD_GATHER at the head while an earlier command waits on a peer (R366). -/
def State.idleHeld (s : State) (x : Fin 16) : Bool :=
  let idle := s.roles.record.isSome && decide (s.role 0x12 1 < s.role 0x11 1)
  idle && (s.fabRuns x).any (fun p => s.inPeerWait p.1 p.2)

/-- The nodes that a fabric command names. -/
def State.namedNodes (s : State) (r : Run) : List Nat :=
  if r.cmd.op = 0x40 then let a := collArgs r.cmd; s.memberNodes (fld r.cmd.desc 0x10 8) a.p
  else if r.cmd.op = 0x43 then let a := shardArgs r.cmd; s.memberNodes a.members a.p
  else [(msgArgs r.cmd).peer]

/-- A member table that R359 refuses at execution: entry ME is not the own node, or two entries are equal. -/
def State.tableBad (s : State) (r : Run) (nodes : List Nat) : Bool :=
  r.cmd.op == 0x40 && (nodes[(collArgs r.cmd).me]? != s.node || !decide nodes.Nodup)

/-- A checkpoint transfer whose region lies outside its area (15, R380). -/
def State.ckptBad (s : State) (r : Run) : Bool :=
  let m := msgArgs r.cmd
  if (r.cmd.op == 0x41 || r.cmd.op == 0x42) && m.tag.getLsbD 31 then
    match s.jobOf r.x, r.cmd.regions.head? with
    | some j, some g =>
      let first := if r.cmd.op = 0x41 then j.ckptFirst else j.mirrorFirst
      !(g.space == 1 && decide (first * 131072 ≤ g.base) && decide (g.stop ≤ (first + j.ckptPages) * 131072))
    | _, _ => true
  else false

/-- The reason with which a fabric command fails at dispatch, or 0. A context without a job has no peer (R357). -/
def State.fabReason (s : State) (r : Run) : Nat :=
  let nodes := s.namedNodes r
  if !s.anyPort then 0x0501
  else if s.ckptBad r then 0x0522
  else if s.tableBad r nodes then 0x050D
  else if (s.jobOf r.x).isNone || !nodes.all s.knownNode then 0x0502
  else 0

/-- Dispatches a fabric command, which fails at once or begins. -/
def State.startFab (s : State) (x : Fin 16) (op : Nat) (begin' : State → Run → Nat → State) : State :=
  match s.dispatchFabric x (fun m => m.op == op) with
  | none => s
  | some (s1, r) =>
    let reason := s1.fabReason r
    if reason ≠ 0 then (s1.failClean r reason).finishNow (.fabric x) r
    else
      let job := ((s1.jobOf x).map (·.job)).getD 0
      let s2 := (s1.modRun r.id (fun r => { r with busy := true })).modFabric (fun b => { b with fabs := b.fabs ++ [
        { run := r.id, x := x, waits := 0, phase := 0, retry := none, parts := [], got := [], lasts := [], versions := []
          bad := 0, heard := none }] })
      (begin' s2 r job).settle x job

/-- COLL (R357 to R361): early frames of its ring are taken up at its dispatch. -/
def doColl (x : Fin 16) (s : State) : State :=
  s.startFab x 0x40 (fun s r job =>
    let a := collArgs r.cmd
    let nodes := s.memberNodes (fld r.cmd.desc 0x10 8) a.p
    ((s.modFabOf r.id (fun g => { g with parts := a.parts })).collStart r a job ((nodes[(a.me + 1) % a.p]?).getD 0)).drain x job)

/-- SEND (R362, R363). -/
def doSend (x : Fin 16) (s : State) : State := s.startFab x 0x41 (fun s r job => s.sendRts r job)

/-- RECV (R362, R363). -/
def doRecv (x : Fin 16) (s : State) : State := s.startFab x 0x42 (fun s _ job => s.matchRts x job)

/-- SHARD_GATHER (R364 to R366). -/
def doShardGather (x : Fin 16) (s : State) : State :=
  if s.idleHeld x then s
  else s.startFab x 0x43 (fun s r job =>
    let a := shardArgs r.cmd
    s.shardStart r job (s.memberNodes a.members a.p))

/-! ## Frames -/

/-- DATA_FRAME (R352, R355, R358, R360, R361, R365). A frame of a collective that this member has not dispatched waits for
it; any other DATA frame that no command awaits has no effect beyond its acknowledgement. Of two messages with one TAG, the frames go
to the first in SEQ order. -/
def doDataFrame (p : Fin 16) (f : Frame) (s : State) : State :=
  if f.kind ≠ 1 then s
  else match s.takeIn p f with
    | (s1, false) => s1
    | (s1, true) =>
      match s1.jobCtx f.job with
      | none => s1
      | some x =>
        let s2 :=
          if f.channel < 2 then s1.keep f
          else match s1.shardFor x f with
            | some (r, i) => (s1.gotPoison r f.poison).shardTake r i (f.offset.toNat % 2 ^ 40) f.word
                (f.payload.map (fun b => ⟨b, f.poison⟩)) (some f)
            | none => s1
        s2.progress x f.job

/-- RTS_FRAME (R362): held, matched to a RECV, or answered busy when 256 are held. -/
def doRtsFrame (p : Fin 16) (f : Frame) (s : State) : State :=
  if f.kind ≠ 3 ∨ f.channel ≠ 1 then s
  else match s.takeIn p f with
    | (s1, false) => s1
    | (s1, true) =>
      match s1.jobCtx f.job with
      | none => s1
      | some x =>
        let t : Rts := { peer := f.src, x := x, seq := f.seq, tag := f.msg, bytes := f.offset.toNat }
        let s2 := (s1.modFabric (fun b => { b with rts := insertRts t b.rts })).matchRts x f.job
        let s3 := if 256 < s2.fabric.rts.length && s2.fabric.rts.contains t
          then (s2.modFabric (fun b => { b with rts := b.rts.erase t })).sendCts x 1 f.job f.src f.msg 1 else s2
        s3.progress x f.job

/-- CTS_FRAME (R362, R364). -/
def doCtsFrame (p : Fin 16) (f : Frame) (s : State) : State :=
  if f.kind ≠ 4 then s
  else match s.takeIn p f with
    | (s1, false) => s1
    | (s1, true) =>
      match s1.jobCtx f.job with
      | none => s1
      | some x =>
        let s2 :=
          if f.channel = 2 then
            match s1.shardFor x f with
            | some (r, _) => if f.word.toNat = 3 then s1.fabFail r 0x0507 else s1
            | none => s1
          else if f.channel = 1 then s1.keep f
          else s1
        s2.progress x f.job

/-- RTS_RETRY (R362): 5,000 pilot cycles after a busy answer the RTS is sent again. -/
def doRtsRetry (x : Fin 16) (i : Nat) (s : State) : State :=
  match (s.ctx x).fabricRun[i]? with
  | none => s
  | some r =>
    match s.fabOf r.id, s.jobOf x with
    | some { retry := some t, .. }, some j => if t + 5000 ≤ s.pilot then s.sendRts r j.job else s
    | _, _ => s

/-- An owner refuses a shard request (R364). -/
def State.shardRefused (s : State) (x : Fin 16) (src bytes group : Nat) : Bool :=
  decide (2 ^ 41 < src + bytes) || !s.owns x src bytes || (s.almEntry x group).isNone

/-- SHARD_REQUEST (R364). -/
def doShardRequest (p : Fin 16) (f : Frame) (s : State) : State :=
  if f.kind ≠ 3 ∨ f.channel ≠ 2 then s
  else match s.takeIn p f with
    | (s1, false) => s1
    | (s1, true) =>
      match s1.jobCtx f.job with
      | none => s1
      | some x =>
        let src := fld f.payload 0 8
        let n := f.offset.toNat
        let g := bits (fld f.payload 8 4) 17 0
        if s1.shardRefused x src n g then s1.sendCts x 2 f.job f.src f.msg 3
        else { s1 with
          hub := { s1.hub with nextRun := s1.hub.nextRun + 1 }
          fabric := { s1.fabric with services := s1.fabric.services ++ [
            { id := s1.hub.nextRun, x := x, job := f.job, peer := f.src, msg := f.msg, src := src, bytes := n, group := g
              started := false, own := none }] } }

/-- Adds to the release counter of a group (09, R231). -/
def State.addRefs (s : State) (x : Fin 16) (g : Nat) (up : Bool) : State :=
  match s.almEntry x g with
  | none => s
  | some e => s.putAlm x g 0x54 (leBytes 2 (if up then almRefs e + 1 else almRefs e - 1))

/-- SHARD_SERVE (R364): once the group is free its release counter rises and the shard is read and sent. -/
def doShardServe (i : Nat) (s : State) : State :=
  match s.fabric.services[i]? with
  | none => s
  | some v =>
    let drop := fun (s : State) => s.modFabric (fun b => { b with services := b.services.filter (fun w => w.id != v.id) })
    let run := v.own.bind s.findRun
    if v.started || !s.maySend then s
    else if s.shardRefused v.x v.src v.bytes v.group then
      match run with
      | some r => (drop s).fabFail r 0x0507
      | none => (drop s).sendCts v.x 2 v.job v.peer v.msg 3
    else match s.almEntry v.x v.group with
      | none => s
      | some e =>
        if almPending e || almUpdating e || decide (65535 ≤ almRefs e) then s
        else
          let s := s.touchRange v.src v.bytes none
          let bs := s.uread v.src v.bytes
          let ver : W32 := BitVec.ofNat 32 (almVersion e)
          match run with
          | some r => ((drop s).shardTake r (shardArgs r.cmd).me 0 ver bs none).settle v.x v.job
          | none =>
            let s1 := (s.addRefs v.x v.group true).modFabric (fun b => { b with services := b.services.map (fun w =>
              if w.id = v.id then { w with started := true } else w) })
            let (s2, bad) := s1.sendBytes v.x v.id 2 v.job v.peer v.msg ver bs
            if bad then s2.detect { s2.faultNow 2 0x0508 0x0C with ctx := some v.x } else s2

/-- Services whose last frame is acknowledged lower the release counter and end (R364). -/
def State.endServices (s : State) : State :=
  s.fabric.services.foldl (fun s v =>
    if v.started && s.allAcked v.id then
      (s.addRefs v.x v.group false).modFabric (fun b => { b with services := b.services.filter (fun w => w.id != v.id) })
    else s) s

/-- Later frames of a flow that an ACK reports received. -/
def laterSacked (frames : List OutFrame) (o : OutFrame) : Nat :=
  (frames.filter (fun q => q.sacked && decide (0 < dist32 q.frame.seq o.frame.seq) &&
    decide (dist32 q.frame.seq o.frame.seq < 2 ^ 31))).length

/-- Sends a frame of a flow again, with RETX set (R353). -/
def State.resend (s : State) (t : TxFlow) (o : OutFrame) : State :=
  match s.transmit o.port { o.frame with retx := true } with
  | none => s
  | some s1 => s1.modTx t.peer t.job t.channel (·.markSent o.frame.seq s.pilot)

/-- Fast retransmission (R353, R354): a frame that three later ones have overtaken is sent again, once, and CWND halves. -/
def State.fastResend (s : State) (t : TxFlow) : State :=
  let due := t.frames.filter (fun o => o.sent.isSome && !o.sacked && !o.fast && decide (3 ≤ laterSacked t.frames o))
  due.foldl (fun s o =>
    (s.resend t o).modTx t.peer t.job t.channel (fun u => { u with
      cwnd := max 8 (u.cwnd / 2)
      frames := u.frames.map (fun q => if q.frame.seq = o.frame.seq then { q with fast := true } else q) })) s

/-- ACK_FRAME (R353, R354, R362, R364). -/
def doAckFrame (p : Fin 16) (f : Frame) (s : State) : State :=
  if f.kind ≠ 2 then s
  else match s.hear p f with
    | (s0, false) => s0
    | (s0, true) =>
      let s1 := s0.noteHeard f
      match s1.txFlow f.src f.job f.channel with
      | none => s1
      | some t =>
        let acked := fun (o : OutFrame) => decide (2 ^ 31 ≤ dist32 o.frame.seq f.msg) && o.sent.isSome
        let sacked := fun (o : OutFrame) =>
          let d := dist32 o.frame.seq (f.msg + 1)
          decide (d < 64) && f.offset.getLsbD d
        let advanced := t.frames.any acked
        let t1 := { t with
          credit := min 1024 (max 16 f.word.toNat)
          cwnd := if advanced then min 1024 (t.cwnd + 1) else t.cwnd
          frames := (t.frames.filter (fun o => !acked o)).map (fun o => if sacked o then { o with sacked := true } else o) }
        let s2 := s1.modTx f.src f.job f.channel (fun _ => t1)
        let s3 := (if s2.maySend then s2.fastResend t1 else s2).pump f.src f.job f.channel
        let s4 := s3.endServices
        match s4.jobCtx f.job with
        | some x => s4.settle x f.job
        | none => s4

/-- The commands that use a flow towards a peer (R353). -/
def State.usesFlow (s : State) (r : Run) (peer channel : Nat) : Bool :=
  fabChannel r.cmd.op == channel &&
    (if r.cmd.op = 0x40 then
      let a := collArgs r.cmd
      (s.memberNodes (fld r.cmd.desc 0x10 8) a.p)[(a.me + 1) % a.p]? == some peer
    else (s.namedNodes r).contains peer)

/-- A flow fails (R353): every dispatched command that uses it fails with 0x0502, and the next frame begins it anew. -/
def State.failFlow (s : State) (t : TxFlow) : State :=
  let s1 := s.modTx t.peer t.job t.channel (fun u => { u with frames := [], next := 0, start := true })
  let gone := s1.fabric.services.filter (fun v => v.own.isNone && v.job == t.job && v.peer == t.peer && t.channel == 2)
  let s2 := gone.foldl (fun s v =>
    (if v.started then s.addRefs v.x v.group false else s).modFabric (fun b => { b with
      services := b.services.filter (fun w => w.id != v.id) })) s1
  match t.x with
  | none => s2
  | some x => (s2.fabRuns x).foldl (fun s p => if s.usesFlow p.1 t.peer t.channel then s.fabFail p.1 0x0502 else s) s2

/-- RETX_TIMEOUT (R353, R354): the time doubles with each timeout of a frame, and the 8th fails the flow. -/
def doRetxTimeout (peer job channel : Nat) (seq : W32) (s : State) : State :=
  match s.txFlow peer job channel with
  | none => s
  | some t =>
    match t.frames.find? (fun o => o.frame.seq == seq) with
    | some { sent := some at', timeouts := n, frame := fr, sacked := k, fast := fs, owner := ow, port := pt } =>
      if s.pilot < at' + s.linkCfg.retxUs * 50 * 2 ^ n ∨ !s.maySend then s
      else if 7 ≤ n then s.failFlow t
      else
        let o : OutFrame := { frame := fr, sent := some at', timeouts := n + 1, sacked := k, fast := fs, owner := ow, port := pt }
        ((s.modTx peer job channel (fun u => { u with
          cwnd := max 8 (u.cwnd / 2)
          frames := u.frames.map (fun q => if q.frame.seq = seq then { q with timeouts := n + 1, sent := some s.pilot } else q) })
          ).resend t o)
    | _ => s

end Sys2Proof.Machine
end

