-- ==== Sys2Proof/Machine/Clocks.lean ====
section
/-! DEFINITION. Reference sources, the monitor, switching between sources, CLK_CTRL, and the ports that carry the recovered
clock (19, R459 to R467; 14, R347). -/

namespace Sys2Proof.Machine

open Sys2Proof

def State.modClock (s : State) (f : Clock → Clock) : State := { s with clock := f s.clock }

def State.modSource (s : State) (i : Fin 3) (f : Source → Source) : State :=
  s.modClock (fun k => { k with sources := vmod k.sources i f })

/-! ## Selection (R459) -/

/-- The port of REF_LANE, counted as 4 × die + port. -/
def State.refPort (s : State) : Fin 16 := ix 16 (s.clock.refLane / 4)

/-- The recovered clock is enabled (Table 19.1). -/
def State.recEnabled (s : State) : Bool := s.clock.linkRefEn && s.portUp s.refPort

/-- The first source in the order of Table 19.1 that is enabled and not failed; a recovered clock also waits for the good
windows of R467 and Table 19.6. -/
def State.selectSource (s : State) : Fin 3 :=
  let k := s.clock
  if s.recEnabled && !k.sources[0].failed && !k.lanePending then 0
  else if k.xtalPassed && !k.sources[1].failed then 1
  else 2

/-! ## Failure and switch (R464, R465) -/

/-- Marks a source failed and enters its record, whose DETAIL names the source. -/
def State.markFailed (s : State) (i : Fin 3) : State :=
  let s1 := s.modSource i (fun q => { q with failed := true, failRun := 0, goodRun := 0 })
  s1.detect { s1.faultNow 0 0x0709 0x0A with unitKind := 9, unit := 31, detail := [BitVec.ofNat 8 i.val] }

/-- The port of the recovered clock has left service, which fails the source (R461). -/
def State.refLost (before s : State) : Bool :=
  before.recEnabled && !s.portUp s.refPort && !s.clock.sources[0].failed

/-- Every port leaves service and none trains (R460). -/
def State.portsOut (s : State) : State :=
  { s with links := s.links.map (fun l => { l with
      ports := l.ports.map (fun p => { p with inService := false, training := false }) }) }

/-- Ports of enabled link dies that are neither in service nor retired train (R460, Table 19.3). -/
def State.portsTrain (s : State) : State :=
  { s with links := Vector.ofFn (fun l => let k := s.links[l]
      if s.blks[ix 36 (32 + l.val)].enabled then
        { k with ports := k.ports.map (fun p => { p with training := p.training || (!p.inService && !p.retired) }) }
      else k) }

/-- The pause of R465 begins, with the flush of the write-combining buffers (Table 19.3). -/
def State.startPause (s : State) : State :=
  s.flushAll.modClock (fun k => { k with pauseFrom := some s.pilot })

/-- Switches to a source (R465). Between the recovered source and the crystal no work pauses; a switch into or out of the
internal source pauses the fast domains, flushes the buffers and changes the fast clocks, and one that falls due in such a
pause waits for its end (R466). -/
def State.switchTo (s : State) (i : Fin 3) : State :=
  if i = s.clock.source then s
  else if s.clock.pauseFrom.isSome then s.modClock (fun k => { k with owedSwitch := true })
  else
    let from' := s.clock.source
    let s1 := (s.modSource i (fun q => { q with switches := satAdd q.switches 1 })).modClock (fun k => { k with
      source := i, limited := i == 2, holdover := false })
    if i = 2 then
      let s2 := s1.portsOut
      (if s.refLost s2 then s2.markFailed 0 else s2).startPause
    else if from' = 2 then s1.startPause
    else s1

/-- Moves to the source that R459 selects. -/
def State.reselect (s : State) : State := s.switchTo s.selectSource

/-- Sets CLOCK_NMI, which raises a non-maskable event (R464; 17, R431). -/
def State.clockNmi (s : State) : State := (s.modFaults (fun t => t.setCause 2 s.pilot)).nonMaskable

/-- Sources that fail in one pilot cycle (R464): a record for each, and one switch with one non-maskable event when the
active one is among them. -/
def State.sourcesFail (s : State) (is : List (Fin 3)) : State :=
  let s1 := is.foldl State.markFailed s
  if is.contains s.clock.source then s1.reselect.clockNmi else s1

/-- What follows a change that may have taken the recovered clock's port out of service. -/
def State.afterPorts (before s : State) : State := if before.refLost s then s.sourcesFail [0] else s

/-! ## Ports (14, R347; 16, Table 16.5) -/

/-- PORT_IN_SERVICE (R347, R460): a port of an enabled die whose lanes have trained; none while the internal source is
active. -/
def doPortInService (p : Fin 16) (s : State) : State :=
  let k := (s.links[dieOfPort p]).ports[ix 4 (p.val % 4)]
  if !s.blks[ix 36 (32 + p.val / 4)].enabled || k.retired || s.clock.source == 2 then s
  else (s.modPort p (fun k => { k with inService := true, training := false })).pumpAll

/-- PORT_ALIGNMENT_LOSS (R347, R461; 16, Table 16.5): the port leaves service and trains again; a lane that the FEC names
records a transient. -/
def doPortAlignmentLoss (p : Fin 16) (lane : Option (Fin 4)) (s : State) : State :=
  let k := (s.links[dieOfPort p]).ports[ix 4 (p.val % 4)]
  if !k.inService then s
  else
    let s1 := s.modPort p (fun k => { k with inService := false, training := true })
    let s2 := match lane with
      | some n => s1.transient 6 (linkLaneUnit (p.val / 4) (4 * (p.val % 4) + n.val)) s.faults.minute.toNat 1
      | none => s1
    s.afterPorts s2

/-- LANE_SYMBOL_ERROR_RATIO (16, R407): a lane whose FEC symbol error ratio exceeded 10^-5 over a second. -/
def doLaneSymbolErrorRatio (die : Fin 4) (lane : Fin 16) (s : State) : State :=
  s.afterPorts (s.transient 6 (linkLaneUnit die.val lane.val) s.faults.minute.toNat 1)

/-! ## The monitor (R461 to R466) -/

/-- A window's count is in range (Table 19.2): the recovered source, then the crystal. -/
def inRange (i : Fin 3) (n : Nat) : Bool :=
  if i = 0 then decide (156172 ≤ n) && decide (n ≤ 156328) else decide (99950 ≤ n) && decide (n ≤ 100050)

/-- A source after one of its windows. -/
def Source.window (q : Source) (good : Bool) : Source :=
  if good then { q with failRun := 0, goodRun := q.goodRun + 1 }
  else { q with failRun := if q.failed then 0 else q.failRun + 1, goodRun := 0, failedWindows := satAdd q.failedWindows 1 }

/-- A source that has been good for 64 windows is failed no more, and becomes active again if it comes earlier (R466). -/
def State.sourceReturns (s : State) (i : Fin 3) : State :=
  let q := s.clock.sources[i]
  if q.failed && decide (64 ≤ q.goodRun) && s.clock.returnEn then
    let s1 := (s.modSource i (fun q => { q with failed := false })).modClock (fun k => { k with
      lanePending := k.lanePending && i != 0 })
    if s1.selectSource = i ∧ i < s.clock.source then (s1.reselect).event 0 0x070B [] else s1
  else s

/-- A recovered clock that has not failed is taken after 4 good windows (R467, Table 19.6). -/
def State.laneTaken (s : State) : State :=
  if s.clock.lanePending && !s.clock.sources[0].failed && decide (4 ≤ s.clock.sources[0].goodRun) then
    (s.modClock (fun k => { k with lanePending := false })).reselect
  else s

/-- MONITOR_WINDOW (R461 to R466): a window of the recovered source, of the crystal, or of both. A window that fails for
both counts against the crystal alone, which times the recovered source while it has not failed (R463). -/
def doMonitorWindow (rec xtal : Option Nat) (s : State) : State :=
  let k := s.clock
  let r := if s.recEnabled then rec.map (inRange 0) else none
  let x := if k.xtalPassed then xtal.map (inRange 1) else none
  let r := if x = some false ∧ r = some false ∧ !k.sources[1].failed then none else r
  let put := fun (s : State) (i : Fin 3) (w : Option Bool) =>
    match w with
    | some g =>
      let s1 := s.modSource i (·.window g)
      if g && s.clock.source == i then s1.modClock (fun k => { k with holdover := false }) else s1
    | none => s
  let s1 := put (put s 0 r) 1 x
  let failing := ([0, 1] : List (Fin 3)).filter (fun (i : Fin 3) =>
    let q : Source := s1.clock.sources[i]
    !q.failed && decide (4 ≤ q.failRun))
  let s2 := s1.sourcesFail failing
  ((s2.sourceReturns 0).sourceReturns 1).laneTaken

/-- SWITCH_PAUSE_END (R465, R466): work resumes, ports may train again out of the internal source, and a switch that fell due
begins. -/
def doSwitchPauseEnd (s : State) : State :=
  match s.clock.pauseFrom with
  | none => s
  | some _ =>
    let s1 := s.modClock (fun k => { k with pauseFrom := none, owedSwitch := false })
    let s2 := if s.clock.source = 2 then s1 else s1.portsTrain
    (if s.clock.owedSwitch then s2.reselect else s2).pumpAll

/-- OSCILLATOR_CALIBRATE (R462): the frequency of the internal oscillator in hertz, measured every 60 s while the crystal
has not failed. -/
def doOscillatorCalibrate (hz : Nat) (s : State) : State :=
  if !s.clock.xtalPassed || s.clock.sources[1].failed || decide (s.pilot < s.clock.calAt + 3000000000) then s
  else s.modClock (fun k => { k with calibrated := hz, calAt := s.pilot })

/-- HOLDOVER (R465): the signal of the active reference is lost. -/
def doHoldover (s : State) : State := if s.clock.source = 2 then s else s.modClock (fun k => { k with holdover := true })

/-! ## CLK_CTRL (R467, Table 19.8) -/

/-- IDLE_US is 0 or lies from 10 to 1,000. -/
def idleOk (n : Nat) : Bool := n == 0 || (decide (10 ≤ n) && decide (n ≤ 1000))

/-- CLK_CTRL_WRITE. A change of REF_LANE, or of LINK_REF_EN, leaves the recovered source for the next in order with no
record; it is taken again after 4 good windows. An IDLE_US out of range is dropped and counted for H1 (21, R499). -/
def doClkCtrlWrite (v : W32) (s : State) : State :=
  let n := v.toNat
  let idle := bits n 25 16
  let changed := bits n 13 8 != s.clock.refLane || bit n 1 != s.clock.linkRefEn
  let s1 := s.modClock (fun k => { k with
    returnEn := bit n 0, linkRefEn := bit n 1, refLane := bits n 13 8, idleUs := if idleOk idle then idle else k.idleUs
    lanePending := k.lanePending || changed })
  let s2 := if changed then s1.modSource 0 (fun q => { q with failRun := 0, goodRun := 0 }) else s1
  let s3 := if changed && s.clock.source == 0 then s2.reselect else s2
  if idleOk idle then s3 else s3.dropWrite 1

end Sys2Proof.Machine
end

