-- ==== Sys2Proof/Machine/Faults.lean ====
section
/-! DEFINITION. Fault ring, fault handler, export of fault records, the module-on minute and the in-field test (16, R405,
R407 to R414; 17, R416 to R437). -/

namespace Sys2Proof.Machine

open Sys2Proof

/-! ## The ring (R426 to R428) -/

def RingState.code : RingState → Nat
  | .queued => 1
  | .handling => 2
  | .done => 3

/-- The 64 bytes of an entry (Table 17.5). -/
def RingEntry.encode (e : RingEntry) : List Byte :=
  let f := e.fault
  let byte := fun (n : Nat) => [BitVec.ofNat 8 n]
  let ctx := match f.ctx with | some x => x.val | none => 16
  leBytes 4 e.rseq.toNat ++ leBytes 4 f.minute ++ leBytes 8 f.pilot ++
    byte (f.severity + 4 * b2n f.span.isSome) ++
    byte (e.state.code + 4 * b2n e.preempted + 8 * b2n e.hostSeen + 16 * b2n e.mgrSent + 32 * b2n e.afterOverflow) ++
    leBytes 2 f.reason ++ byte f.source ++ byte ctx ++ leBytes 2 (f.span.getD 0) ++ byte f.unitKind ++ zeros 3 ++
    leBytes 4 f.unit ++ leBytes 8 f.addr ++ byte f.addrKind ++ byte f.queue ++ leBytes 2 f.index ++
    leBytes 4 f.seq.toNat ++ leBytes 4 e.count.toNat ++ fitTo 12 f.detail

/-- QUEUED or HANDLING. -/
def RingEntry.isOpen (e : RingEntry) : Bool := e.state == .queued || e.state == .handling

/-- RING_FILL (Table 17.9). -/
def Faults.fill (f : Faults) : Nat := (f.ring.filter (fun e => e.2.isOpen)).length

/-- The entry at a ring sequence number, if its position still holds it. -/
def Faults.entry (f : Faults) (rseq : W32) : Option RingEntry :=
  match alookup (rseq.toNat % 4096) f.ring with
  | some e => if e.rseq = rseq then some e else none
  | none => none

/-- Replaces an entry by a function of it. -/
def State.modRing (s : State) (rseq : W32) (g : RingEntry → RingEntry) : State :=
  s.modFaults (fun t => { t with ring := t.ring.map (fun e => if e.2.rseq = rseq then (e.1, g e.2) else e) })

/-! ## Export (R436) -/

/-- A GUID in the byte order of UEFI: PRESUMED (log 14), the manual writes its text form. -/
def guid (a b c d : Nat) : List Byte := leBytes 4 a ++ leBytes 2 b ++ leBytes 2 c ++ (leBytes 8 d).reverse

/-- "MSK-VL8-864L", the FRU text. -/
def fruText : List Byte := [0x4D, 0x53, 0x4B, 0x2D, 0x56, 0x4C, 0x38, 0x2D, 0x38, 0x36, 0x34, 0x4C]

/-- The Skaden fault section (Table 17.8). -/
def State.faultSection (s : State) (e : RingEntry) : List Byte :=
  let job := match e.fault.ctx with
    | some x => match s.jobOf x with | some j => j.job | none => 0xFFFF
    | none => 0xFFFF
  leBytes 2 1 ++ zeros 2 ++ leBytes 4 (s.node.getD 0) ++ leBytes 4 (s.role 8 4) ++ leBytes 2 job ++ leBytes 2 0x00A1 ++
    leBytes 4 s.sec.banks[s.sec.running].version.toNat ++ zeros 12 ++ e.encode

/-- A CPER record (Table 17.7). -/
def State.cper (s : State) (e : RingEntry) : List Byte :=
  let sev := if e.fault.severity = 0 then 2 else if e.fault.severity = 3 then 1 else 0
  let fields : List (Nat × List Byte) :=
    [(0x000, leBytes 4 0x52455043), (0x004, leBytes 2 0x0101), (0x006, leBytes 4 0xFFFFFFFF), (0x00A, leBytes 2 1),
     (0x00C, leBytes 4 sev), (0x014, leBytes 4 296),
     (0x040, guid 0x7c1e5a20 0x4d9b 0x4b86 0xa3f10e62d4c8b517), (0x050, guid 0x2b8f0c61 0x95e4 0x4a37 0x8d2c61f0a3b94e08),
     (0x060, leBytes 8 (s.node.getD 0 * 2 ^ 32 + e.rseq.toNat)), (0x080, leBytes 4 200), (0x084, leBytes 4 96),
     (0x088, leBytes 2 0x0100), (0x08A, leBytes 1 2), (0x08C, leBytes 4 1),
     (0x090, guid 0x5e07d3a9 0x1c42 0x4f6b 0xb8e09a4d27c1f356), (0x0B0, leBytes 4 sev), (0x0B4, fruText),
     (0x0C8, s.faultSection e)]
  fields.foldl (fun r f => putBytes r f.1 f.2) (zeros 296)

/-- Where a module reports to: members to their group manager, a group manager to the top manager (15, R385). -/
def State.reportTo (s : State) : Option (Nat × Nat) :=
  match s.node with
  | none => none
  | some n =>
    if s.roles.role = 1 then (if s.roles.top = n then none else some (s.roles.top, s.roles.installEpoch))
    else if s.roles.role = 2 ∨ s.roles.manager = n then none
    else some (s.roles.manager, s.roles.groupEpoch)

/-! ## Recording (R427, R430) -/

/-- Enters the fatal state by hardware, with one FAULT_REPORT if a port is in service (R425). -/
def State.fatalNow (s : State) (e : RingEntry) : State :=
  if s.faults.fatal then s
  else
    let s1 := match s.reportTo with
      | some (dst, epoch) =>
        if s.anyPort then (s.sendLast dst 0x0B epoch (s.cper e)).modRing e.rseq (fun e => { e with mgrSent := true }) else s
      | none => s
    s1.enterFatal e.fault.reason e.rseq

/-- A ring entry of a fault that has just been written. -/
def ringEntry (rseq : W32) (f : FaultRec) (after : Bool) : RingEntry :=
  { rseq := rseq, fault := f, state := .queued, preempted := false, hostSeen := false, mgrSent := false
    afterOverflow := after, count := 1 }

/-- A fault finds its position busy (R430). -/
def State.loseFault (s : State) (f : FaultRec) : State :=
  let first := !s.faults.overflow
  let s1 := s.modFaults (fun t => { (if first then t.setCause 0 s.pilot else t) with
    lost := vmod t.lost (ix 4 f.severity) (fun n => satAdd n 1), overflow := true
    killLatch := match f.ctx with
      | some x => if f.severity = 2 then ainsert x.val f.reason t.killLatch else t.killLatch
      | none => t.killLatch })
  let s2 := if first then s1.nonMaskable else s1
  if f.severity = 3 then s2.fatalNow (ringEntry s.faults.rseqNext f false) else s2

/-- Only corrected faults of one SOURCE, unit and REASON coalesce (R427). -/
def FaultRec.joins (f g : FaultRec) : Bool :=
  f.severity == 0 && g.severity == 0 && f.source == g.source && f.unitKind == g.unitKind && f.unit == g.unit &&
    f.reason == g.reason

/-- Puts a fault in the ring (R427, R430). -/
def State.recordFault (s : State) (f : FaultRec) : State :=
  let s := s.modFaults (fun t => { t with counts := vmod t.counts (ix 4 f.severity) (fun n => satAdd n 1) })
  let t := s.faults
  let rseq := t.rseqNext
  match t.ring.find? (fun e => e.2.state == .queued && f.joins e.2.fault) with
  | some e => s.modRing e.2.rseq (fun e => { e with count := satAdd e.count 1 })
  | none =>
    let busy := match alookup (rseq.toNat % 4096) t.ring with | some e => e.isOpen | none => false
    if busy then s.loseFault f
    else
      let e := ringEntry rseq f t.overflow
      let s1 := s.modFaults (fun t => { t with
        ring := ainsert (rseq.toNat % 4096) e t.ring, rseqNext := rseq + 1, overflow := false })
      if f.severity = 3 then s1.fatalNow e else s1

/-! ## Detection (R405, R417, R424) -/

/-- Detects an uncorrectable fault, which may be one of an open span; a second one fails the span at once (R405). -/
def State.detectIn (s : State) (core : Option (Fin 4)) (f : FaultRec) : State :=
  match core with
  | none => s.detect f
  | some c => (s.detectSpan (some c) f).endFaulty c

/-- Flips bits of the stored code word of a sector (10, R243). -/
def StackS.flip (st : StackS) (sector : Nat) (err : Pattern) : StackS :=
  { st with errs := ainsert sector (st.errsOf sector ++ err) st.errs }

/-- An error in the unified range, found by a read: the code decides (10, R245 to R247; 11, R276). In a stack the flipped bits stay
until the sector is written. -/
def State.unifiedFault (s : State) (a : Nat) (err : Pattern) (reader : Option (Fin 4)) : State :=
  let a := a / 64 * 64
  match s.homeOf (a / 131072) with
  | none => s
  | some e =>
    let name := fun (f : FaultRec) => s.byReader reader { f with ctx := some e.owner }
    match e.home with
    | .deep =>
      match s.poisonDeep a with
      | none => s
      | some (ch, g, marked, s1) =>
        match decodeGranule (err ++ if marked then maskAt 128 else []) with
        | .clean => s
        | .corrected _ => s.countDeep ch true
        | .poisoned => s.countDeep ch false
        | .uncorrectable =>
          if marked then s.countDeep ch false
          else (s1.countDeep ch false).detectIn (s.spanOfUnified (a / 256 * 256) 256)
            (name { s.faultNow 1 0x0621 0x06 with unitKind := 8, unit := ch, addrKind := 4, addr := g })
    | h =>
      match s.nearPieces h (a % 131072) 64 with
      | (n, sa, _) :: _ =>
        let core := s.spanOfUnified a 64
        let s1 := (s.modStack n (fun t => t.flip (sa / 64) (err.filter (fun e => decide (e.1 < 36))))).touchSector n sa core name
        match core with | some c => s1.endFaulty c | none => s1
      | [] => s

/-- An error of a scratchpad row (07, R183). -/
def State.rowFault (s : State) (c : Fin 4) (row : Nat) (fixed : Bool) : State :=
  let f := fun (sev reason : Nat) => { s.faultNow sev reason 0x04 with
    unitKind := 7, unit := c.val, addrKind := 3, addr := 1024 * row }
  if fixed then (s.modFeed c (fun t => { t with ce := satAdd t.ce 1 })).detect (f 0 (Config.correctedReason % 65536))
  else (s.modFeed c (fun t => { t with ue := satAdd t.ue 1, poison := setInsert row t.poison })).detectIn
    (s.spanOfRow c row) (f 1 0x0622)

/-- The parity bit that a producer forms: the XOR of a word's 32 bits (16, R387). -/
def parityBit (w : W32) : Bool := (List.range 32).foldl (fun b i => b ^^ w.getLsbD i) false

/-- A stage that checks a word finds that its parity bit does not match it (16, R387). -/
def wordMismatch (w : PathWord) : Bool := parityBit w.word != w.parity

/-- PARITY_ERR of a die, numbered as in Table 17.5. -/
def State.countParity (s : State) (die : Nat) : State :=
  if die < 8 then s.modArr (ix 8 die) (fun t => { t with parity := satAdd t.parity 1 })
  else if die < 12 then s.modFeed (ix 4 (die - 8)) (fun t => { t with parity := satAdd t.parity 1 })
  else if die < 24 then s.modStack (ix 12 (die - 12)) (fun t => { t with parity := satAdd t.parity 1 })
  else if die < 28 then s.modLink (ix 4 (die - 24)) (fun t => { t with parity := satAdd t.parity 1 })
  else if die < 30 then s.modTiers (fun t => { t with parity := vmod t.parity (ix 2 (die - 28)) (fun n => satAdd n 1) })
  else if die = 30 then { s with hub := { s.hub with parity := satAdd s.hub.parity 1 } }
  else s

/-- The record of a parity mismatch (16, R388). -/
def State.parityRec (s : State) (die kind addr : Nat) : FaultRec :=
  { s.faultNow 1 0x0623 0x08 with unitKind := 9, unit := die, addrKind := kind, addr := addr }

/-- A core, if it has an open span. -/
def State.openSpan (s : State) (c : Fin 4) : Option (Fin 4) := if (s.core c).span.isSome then some c else none

/-- A parity mismatch on bytes that go to the unified range: the unit they are written into is poisoned (R388). -/
def State.parityUnified (s : State) (a die : Nat) : State :=
  let a := a / 64 * 64
  match s.homeOf (a / 131072) with
  | none => s
  | some e =>
    let s1 := s.countParity die
    let s2 := match e.home with
      | .deep => match s1.poisonDeep a with | some q => q.2.2.2 | none => s1
      | h => match s1.nearPieces h (a % 131072) 64 with
        | (n, sa, _) :: _ => s1.modStack n (fun t => { t with poison := setInsert (sa / 64) t.poison })
        | [] => s1
    s2.detectIn (s.spanOfUnified a 64) { s.parityRec die 1 a with ctx := some e.owner }

/-- An error reaches the firmware's part of S0 (R424; 10, R255): the code decides (10, R245). -/
def State.reservedError (s : State) (a : Nat) (err : Pattern) : State :=
  let a := a / 64 * 64
  if 0x80000000 ≤ a then s
  else (s.modStack 0 (fun t => t.flip (a / 64) err)).touchSector 0 a none id

/-- What the detectors do with a fault of the environment. -/
def State.envFault (s : State) (f : EnvFault) : State :=
  match f with
  | .unified a err reader => s.unifiedFault a err reader
  | .reserved a err => s.reservedError a err
  | .scratchpad c row fixed => if row < 196608 then s.rowFault c row fixed else s
  | .parityUnified a die w => if wordMismatch w then s.parityUnified a die.val else s
  | .parityScratchpad c row die w =>
    if row < 196608 ∧ wordMismatch w then
      ((s.countParity die.val).modFeed c (fun t => { t with poison := setInsert row t.poison })).detectIn (s.spanOfRow c row)
        (s.parityRec die.val 3 (1024 * row))
    else s
  | .parityRows a rows w =>
    if !wordMismatch w then s
    else ((s.countParity a.val).modArr a (fun t => t.poisonRows rows)).detectIn
      (s.openSpan (coreOfArray a)) (s.parityRec a.val 0 0)
  | .parityBank a b w =>
    if !wordMismatch w then s
    else ((s.countParity a.val).modArr a (fun t => t.poisonBank b)).detectIn
      (s.openSpan (coreOfArray a)) (s.parityRec a.val 0 0)
  | .driftStore p =>
    let s1 := s.detect { s.faultNow 0 0x0616 0x0A with unitKind := 9, unit := 31 }
    match s.moveOf p, s.homeOf p with
    | some m, some e => if m.aborted then s1 else s1.abortMove p m e
    | _, _ => s1
  | .deepDirectory d => s.detect { s.faultNow 0 0x0616 0x06 with unitKind := 9, unit := 28 + d.val }
  | .hubSram => s.detect { s.faultNow 3 0x0617 0x09 with unitKind := 9, unit := 30 }
  | .slotSram x i => { s with hub := { s.hub with badSlots := s.hub.badSlots.filter (· != (x, i)) ++ [(x, i)] } }
  | .ringEntry pos =>
    let s1 := s.modFaults (fun t => { t with ring := t.ring.map (fun e =>
      if e.1 = pos then (e.1, { e.2 with fault := { e.2.fault with reason := 0x0616 } }) else e) })
    s1.detect { s.faultNow 0 0x0616 0x0A with unitKind := 9, unit := 31 }

/-- The records that flushes owe for sectors found uncorrectable are detected (10, R262). -/
def State.collectFound (s : State) : State :=
  (List.finRange 12).foldl (fun s n =>
    ((s.stack n).found.foldl (fun s k => s.detect (s.sectorFault n (64 * k))) s).modStack n (fun t => { t with found := [] })) s

/-- FAULT_RECORD (R427, R430): the oldest detected fault enters the ring, after a fault of the environment if one is
given. -/
def doFaultRecord (f : Option EnvFault) (s : State) : State :=
  let s0 := s.collectFound
  let s1 := match f with | some f => s0.envFault f | none => s0
  match s1.faults.detected with
  | [] => s1
  | r :: rest => (s1.modFaults (fun t => { t with detected := rest })).recordFault r

/-! ## The handler (R428, R429, R432 to R435) -/

/-- The oldest entry of the highest severity among some. -/
def Faults.foremost (f : Faults) (es : List RingEntry) : Option RingEntry :=
  es.foldl (fun b e =>
    match b with
    | none => some e
    | some b =>
      if b.fault.severity < e.fault.severity ∨
          (b.fault.severity = e.fault.severity ∧ dist32 f.rseqNext b.rseq < dist32 f.rseqNext e.rseq) then some e
      else some b) none

/-- Kills the contexts in the kill latch (R430). Their faults have no entry: the RSEQ of the CONTEXT entry is a value the
manual does not state. -/
def State.killLatched (s : State) : State :=
  let s1 := s.faults.killLatch.foldl (fun s e =>
    let (n, s1) := s.occasion
    s1.kill (ix 16 e.1) e.2 (Config.freeWord n)) s
  s1.modFaults (fun t => { t with killLatch := [] })

/-- Handling of an entry begins: the kill of an uncontained fault is issued (R429). -/
def State.beginHandling (s : State) (e : RingEntry) : State :=
  let s1 := (s.modRing e.rseq (fun e => { e with state := .handling })).modFaults (fun t => { t with handling := some e.rseq })
  match e.fault.ctx with
  | some x => if e.fault.severity = 2 then s1.kill x e.fault.reason e.rseq else s1
  | none => s1

/-- The events of an entry (R435). A context that the entry has killed is KILLED by then (R429, DEDUCED, log 41). -/
def State.faultEvents (s : State) (e : RingEntry) : State :=
  let d := detail [(0, 4, e.rseq.toNat), (4, 1, e.fault.severity), (5, 1, e.fault.source), (6, 2, e.fault.reason)]
  if e.fault.severity = 0 then s
  else
    let s1 := s.event 0 0x0610 d
    match e.fault.ctx with
    | some x => if x != 0 && (s.ctx x).state == .active && !(s.ctx x).dying then s1.event x 0x0610 d else s1
    | none => s1

/-- FAULT_REPORT of an uncontained or fatal entry (15, R385). In the fatal state only the one of R425 is sent. -/
def State.reportFault (s : State) (e : RingEntry) : State :=
  match s.reportTo with
  | some (dst, epoch) =>
    if e.fault.severity < 2 || s.faults.fatal then s
    else (s.sendCtrl dst 0x0B epoch (s.cper e)).modRing e.rseq (fun e => { e with mgrSent := true })
  | none => s

/-- Handling of an entry ends (R429). -/
def State.finishHandling (s : State) (e : RingEntry) : State :=
  let f := e.fault
  let s1 := if f.transient then s.transient f.unitKind f.unit f.minute e.count.toNat else s
  (((s1.faultEvents e).reportFault e).modRing e.rseq (fun e => { e with state := .done })).modFaults
    (fun t => { t with handling := none })

/-- FAULT_HANDLE (R428, R429): the handler ends the entry in HANDLING, or takes the foremost entry that waits; one of
higher severity than the entry in HANDLING suspends it. -/
def doFaultHandle (finish : Bool) (s : State) : State :=
  match finish, s.faults.handling.bind s.faults.entry with
  | true, some e => s.finishHandling e
  | true, none => s
  | false, cur =>
    let s1 := s.killLatched
    let waiting := (s1.faults.ring.map (·.2)).filter (fun e => e.isOpen && some e.rseq != s1.faults.handling)
    match s1.faults.foremost waiting, cur with
    | none, _ => s1
    | some e, none => s1.beginHandling e
    | some e, some k =>
      if k.fault.severity < e.fault.severity then
        (s1.modRing k.rseq (fun k => { k with preempted := true })).beginHandling e
      else s1

/-- A write of 1 clears a cause bit unless hardware set the bit in the same pilot cycle (00, R11). -/
def State.clearsCause (s : State) (v : W32) (i : Fin 3) : Bool := v.getLsbD (i.val + 1) && s.faults.nmiAt[i] != s.pilot

/-- FAULT_STATUS_WRITE (R431, Table 17.9; 00, R11): a 1 clears its cause bit. -/
def doFaultStatusWrite (v : W32) (s : State) : State :=
  s.modFaults (fun t => { t with
    nmiOverflow := t.nmiOverflow && !s.clearsCause v 0, nmiFatal := t.nmiFatal && !s.clearsCause v 1
    nmiClock := t.nmiClock && !s.clearsCause v 2 })

/-! ## Module-on minutes (16, R408, R414) -/

/-- Suspicions older than 43,200 minutes end; the SUSPECT mark of an array with none left is cleared (R414). -/
def State.endSuspicion (s : State) (a : Fin 8) : State :=
  let now := s.faults.minute.toNat
  let left := (s.arr a).suspects.filter (fun p => decide (now ≤ p.2 + 43200))
  if left.length = (s.arr a).suspects.length then s
  else
    let s1 := s.modArr a (fun t => { t with suspects := left })
    if left.isEmpty then (s1.writeHist { s1.histOf 3 a.val with suspect := false }).1 else s1

/-- MINUTE_TICK (R408): a minute of 3,000,000,000 pilot cycles has passed. -/
def doMinuteTick (s : State) : State :=
  if s.pilot < s.faults.minuteAt + 3000000000 then s
  else (List.finRange 8).foldl State.endSuspicion
    (s.modFaults (fun t => { t with minute := t.minute + 1, minuteAt := s.pilot }))

/-! ## In-field test (16, R411 to R413; 13, R343) -/

def State.modIft (s : State) (c : Fin 4) (f : Ift → Ift) : State := s.modCore c (fun k => { k with ift := f k.ift })

/-- IFT_DUE (R412): PERIOD minutes have passed. -/
def doIftDue (c : Fin 4) (s : State) : State :=
  let t := (s.core c).ift
  if !s.clock.ready || decide (s.faults.minute.toNat < t.nextMinute) then s
  else s.modIft c (fun t => { t with due := true, nextMinute := t.nextMinute + t.period })

/-- IFT_RUN_NOW (Table 16.7). -/
def doIftRunNow (c : Fin 4) (s : State) : State := s.modIft c (fun t => { t with runNow := true, due := true })

/-- IFT_FORCE (R343): a due test that has waited 30 s takes the next boundary. -/
def doIftForce (c : Fin 4) (s : State) : State :=
  let t := (s.core c).ift
  if t.due && !t.running && decide (1500000000 ≤ t.waited) then s.modIft c (fun t => { t with forced := true }) else s

/-- IFT_RUN (R343, R411): a due test takes a command boundary with no open span, or any boundary once it is forced; cold
arrays ask for a ramp (18, R452), and a look-ahead load is abandoned (04, R103). -/
def doIftRun (c : Fin 4) (s : State) : State :=
  let k := s.core c
  if !k.ift.due || k.ift.running || k.running.isSome || !s.fastUp || (k.span.isSome && !k.ift.forced) then s
  else
    let cold := [0, 1].any (fun b => (s.arr (arrayOf c (ix 2 b))).cold)
    let s1 := (s.dropShadows c).modIft c (fun t => { t with
      runNow := false, due := false, forced := false, waited := 0, running := true, ran := 0, runs := satAdd t.runs 1 })
    if cold && !s.power.rampReqs.any (fun r => r.core == c) then
      { s1 with power := { s1.power with rampReqs := s1.power.rampReqs ++ [⟨c, s.arrayTime⟩] } }
    else s1

/-- One failure of a test (R413): its record, and what it does to its unit at once. -/
def State.iftFail (s : State) (c : Fin 4) (f : IftFail) : State :=
  let note := fun (s : State) (kind unit : Nat) => s.detect { s.faultNow 0 0x0627 0x01 with unitKind := kind, unit := unit }
  match f with
  | .site b n again =>
    let u := siteUnit (arrayOf c b).val n
    let s1 := note s 1 u
    if again then (s1.makePermanent 1 u).modIft c (fun t => { t with fails := satAdd t.fails 1 })
    else s1.transient 1 u s.faults.minute.toNat 1
  | .witness b again =>
    let a := (arrayOf c b).val
    let s1 := note s 2 a
    if again then s1.makePermanent 2 a else s1
  | .bank b => note s 3 (arrayOf c b).val

/-- Permanent units of the history. -/
def State.permanents (s : State) : Nat := (s.faults.history.filter (·.permanent)).length

/-- IFT_END (R411 to R413): after 4,200,000 array cycles, and 140,000 for each site tested again, the test releases its
core; an open span fails when the test made a unit permanent. -/
def doIftEnd (c : Fin 4) (fs : List IftFail) (s : State) : State :=
  let k := s.core c
  let again := (fs.filter (fun f => match f with | .site _ _ _ => true | _ => false)).length
  if !k.ift.running || s.power.rampReqs.any (fun r => r.core == c) ||
      decide (k.ift.ran < 4200000 + 140000 * again) then s
  else
    let issued := fun (s : State) (b : Fin 2) => s.modArr (arrayOf c b) (fun t => { t with lastIssue := s.arrayTime })
    let s1 := fs.foldl (fun s f => s.iftFail c f) (issued (issued s 0) 1)
    let s2 := s1.modIft c (fun t => { t with running := false, ran := 0 })
    if s.permanents < s2.permanents then s2.failSpan c 0x060F else s2

end Sys2Proof.Machine
end

