-- ==== Sys2Proof/Machine/Power.lean ====
section
/-! DEFINITION. Rails, barometer, power cap, recalibration, temperatures, ramps, hints and clock domains (18, R441 to
R458). -/

namespace Sys2Proof.Machine

open Sys2Proof

/-! ## Rails (R441 to R446) -/

/-- I_LIM of a rail in milliamperes (Table 18.1). -/
def railLimit (r : Nat) : Nat :=
  if r < 8 then 320000 else if r < 12 then 260000 else if r = 12 then 380000 else if r = 13 then 220000
  else if r = 14 then 90000 else if r = 15 then 60000 else 2000

/-- A rail that a duty relieves. -/
def railThrottled (r : Nat) : Bool := decide (r ≤ 12)

def State.modPower (s : State) (f : Power → Power) : State := { s with power := f s.power }

def State.modRail (s : State) (r : Fin 17) (f : Rail → Rail) : State :=
  s.modPower (fun p => { p with rails := vmod p.rails r f })

/-- The least duty of the rails that throttle an array (Table 18.1). -/
def State.railDuty (s : State) (a : Fin 8) : Nat :=
  let d := fun (r : Fin 17) => s.power.rails[r].duty
  min (d (ix 17 a.val)) (min (d (ix 17 (8 + a.val / 2))) (d 12))

/-- The duty in force of an array (R444). -/
def State.arrayDuty (s : State) (a : Fin 8) : Nat :=
  min (s.railDuty a) (min s.power.capDuty (s.core (coreOfArray a)).thermalDuty)

/-- A power cap or current limit holds an array below full duty (15, R386). -/
def State.powerShort (s : State) : Bool :=
  decide (s.power.capDuty < 64) || (List.finRange 8).any (fun a => decide (s.railDuty a < 64))

/-- Puts every array's duty in force; THROTTLED holds for the period in which one was below 64 (14, R367). -/
def State.setDuties (s : State) : State :=
  let s1 := (List.finRange 8).foldl (fun t a => t.modArr a (fun k => { k with duty := s.arrayDuty a })) s
  s1.modPower (fun p => { p with
    throttled := p.throttled || (List.finRange 8).any (fun a => decide (s.arrayDuty a < 64))
    short := p.short || s.powerShort })

/-- The end of a window of a rail at a current and a limit, in milliamperes (R445, R446); the flag says that 0x0704 is
due. -/
def Rail.window (k : Rail) (throttled : Bool) (i lim : Nat) : Rail × Bool :=
  let overLim := decide (lim < i)
  if throttled then
    if overLim then ({ k with overLim := true, duty := max 1 (k.duty - 4), since := 0 }, false)
    else if 20 * i < 19 * lim ∧ 16 ≤ k.since + 1 then
      ({ k with overLim := false, duty := min 64 (k.duty + 1), since := 0 }, false)
    else ({ k with overLim := false, since := k.since + 1 }, false)
  else
    let run := if overLim then k.overRun + 1 else 0
    let low := if i < lim then k.lowRun + 1 else 0
    let posted := k.posted && decide (low < 1000)
    let due := decide (10 ≤ run) && !posted
    ({ k with overLim := overLim, overRun := run, lowRun := low, posted := posted || due }, due)

/-- Ends a window of a rail; an untreated excess of ten windows posts 0x0704 and enters a corrected record (R446). -/
def State.railWindow (s : State) (r : Fin 17) (i lim : Nat) : State :=
  let (k, due) := s.power.rails[r].window (railThrottled r.val) i lim
  let s1 := s.modRail r (fun _ => k)
  if due then (s1.unitEvent 0x0704 r.val).detect (s1.faultNow 0 0x0704 0x0A) else s1

/-- The dies that a rail supplies, as in Table 17.5 (Table 18.1). -/
def railDies (r : Nat) : List Nat :=
  if r < 12 then [r] else if r = 12 then (List.range 12).map (12 + ·) else if r = 13 then [24, 25, 26, 27]
  else if r = 14 then [28, 29] else if r = 15 then [30, 31] else [31]

/-- The estimated current of a rail in milliamperes (R442): its static current, and the counts of its dies' activity counters by
their weights. `counts` holds 64 counts for each die. -/
def State.estimate (s : State) (counts : List (List Nat)) (r : Fin 17) : Nat :=
  let k := s.power.rails[r]
  let options := (alookup 3 s.sec.records).getD []
  let hottest := (railDies r.val).foldl (fun m d => max m s.power.temps[ix 32 d]) 0
  (railDies r.val).foldl (fun n d =>
      ((counts[d]?).getD []).zipIdx.foldl (fun n c => n + Config.railWeight options k.calib r.val d c.2 * c.1) n)
    (Config.railStatic options k.calib r.val k.setMv hottest)

/-- BAROMETER_WINDOW (R442, R445): the activity counters of every die are read, and the current of each rail is estimated. -/
def doBarometerWindow (counts : List (List Nat)) (s : State) : State :=
  if 2 ≤ s.power.windows then s
  else
    let s1 := (List.finRange 17).foldl (fun (t : State) r =>
      let i := s.estimate counts r
      let s' := t.modRail r (fun k => { k with estPrev := k.est, est := i })
      if t.power.rails[r].measOnly then s' else s'.railWindow r i (railLimit r.val)) s
    (s1.modPower (fun p => { p with windows := p.windows + 1 })).setDuties

/-- The sum over the rails of set point times both window currents, in microwatts (R442, R443). -/
def Power.sumDraw (p : Power) : Nat :=
  p.rails.toList.foldl (fun n k =>
    n + k.setMv * (if k.measOnly then k.meas + k.measPrev else k.est + k.estPrev)) 0

/-- The estimated input power exceeds a number of watts (R443): p > w, with η = 0.920 and P_BOARD = 60 W. -/
def drawAbove (draw w : Nat) : Bool := decide (1840000 * (w - 60) < draw)

def drawBelow (draw w : Nat) : Bool := decide (draw < 1840000 * (w - 60))

/-- The estimated input power of the last period in whole watts. -/
def Power.watts (p : Power) : Nat := p.draw / 1840000 + 60

/-- The cap duty at the end of a period (R448). -/
def Power.stepCap (p : Power) : Power :=
  let d := p.draw
  if drawAbove d 3800 then { p with capDuty := max 1 (p.capDuty - 8), capSince := 0 }
  else if drawAbove d p.effCap then { p with capDuty := max 1 (p.capDuty - 1), capSince := 0 }
  else if drawBelow d (p.effCap - 32) ∧ 16 ≤ p.capSince + 1 then { p with capDuty := min 64 (p.capDuty + 1), capSince := 0 }
  else { p with capSince := p.capSince + 1 }

/-- The values of RAIL_STATUS (Table 18.6), and the return of a rail whose fit has passed (R454). -/
def Rail.period (k : Rail) : Rail :=
  { k with statEst := (k.est + k.estPrev) / 2000, statMeas := (k.meas + k.measPrev) / 2000
           measOnly := k.measOnly && !k.restore, restore := false
           fitNo := if k.restore then 0 else k.fitNo, fitWin := if k.restore then 0 else k.fitWin }

/-- Throttle counters of an array (Table 18.7). -/
def State.countThrottle (s : State) (a : Fin 8) : State :=
  let add := fun (x : W64) (b : Bool) => satAdd x (b2n b)
  let r := decide (s.railDuty a < 64)
  let c := decide (s.power.capDuty < 64)
  let t := decide ((s.core (coreOfArray a)).thermalDuty < 64)
  s.modArr a (fun k => { k with
    railThrottle := add k.railThrottle r, capThrottle := add k.capThrottle c, thermThrottle := add k.thermThrottle t })

/-- BAROMETER_PERIOD (R443, R447 to R449): power of the two windows, the cap duty, and the caps of the next period. -/
def doBarometerPeriod (s : State) : State :=
  if s.power.windows < 2 then s
  else
    let p := s.power
    let draw := p.sumDraw
    let above := drawAbove draw p.effCap
    let run := if above && p.capDuty == 1 then p.capRun + 1 else 0
    let posted := p.capPosted && !drawBelow draw p.effCap
    let due := decide (16 ≤ run) && !posted
    let restored := (List.finRange 17).filter (fun r => p.rails[r].restore)
    let s1 := (List.finRange 8).foldl State.countThrottle s
    let p1 := ({ p with draw := draw }).stepCap
    let s2 := s1.modPower (fun q => { q with
      rails := p.rails.map Rail.period, draw := draw, capDuty := p1.capDuty, capSince := p1.capSince, capRun := run
      capPosted := posted || due, windows := 0, throttled := false, short := false
      periods := p.periods + 1, shortPeriods := p.shortPeriods + b2n p.short
      peak := satAdd p.peak (b2n (drawAbove draw 3800)), effCap := min p.hostCap (min p.mgrCap p.bmcCap) })
    let s3 := if due then s2.event 0 0x0705 [] else s2
    (restored.foldl (fun s r => s.unitEvent 0x0702 r.val) s3).setDuties

/-! ## Estimate and measurement (R453, R454) -/

/-- RAIL_MEASUREMENT (R453): the measured current of a window, in milliamperes. -/
def doRailMeasurement (r : Fin 17) (i : Nat) (s : State) : State :=
  let s1 := s.modRail r (fun k => { k with measPrev := k.meas, meas := i })
  let k := s1.power.rails[r]
  let lim := railLimit r.val
  if k.measOnly then
    ((s1.railWindow r i (92 * lim / 100)).modRail r (fun k => { k with fitWin := k.fitWin + 1 })).setDuties
  else
    let diff := if k.est ≤ i then i - k.est else k.est - i
    let run := if 3 * lim < 25 * diff then k.driftRun + 1 else 0
    if 500 ≤ run then
      (s1.modRail r (fun k => { k with
        driftRun := 0, drifts := satAdd k.drifts 1, measOnly := true, fitNo := 1, fitWin := 0, restore := false })).unitEvent
        0x0701 r.val
    else s1.modRail r (fun k => { k with driftRun := run })

/-- A fit passes when no window differs by more than 0.06 of I_LIM (R454). -/
def fitPasses (r worst : Nat) : Bool := decide (50 * worst ≤ 3 * railLimit r)

/-- RECALIBRATION_FIT (R454): after 4,096 windows the fit passes and its weights are held in a working copy, named by the pilot cycle;
or another fit begins; the third failure is final. -/
def doRecalibrationFit (r : Fin 17) (worst : Nat) (s : State) : State :=
  let k := s.power.rails[r]
  if !k.measOnly || k.fixed || k.restore || decide (k.fitWin < 4096) then s
  else if fitPasses r.val worst then s.modRail r (fun k => { k with restore := true, calib := s.pilot + 1 })
  else if 3 ≤ k.fitNo then (s.modRail r (fun k => { k with fixed := true })).unitEvent 0x0703 r.val
  else s.modRail r (fun k => { k with fitNo := k.fitNo + 1, fitWin := 0 })

/-! ## Temperatures (R457, R458) -/

/-- Throttle and trip point of a die in quarter degrees (Table 18.4). -/
def throttlePoint (die : Nat) : Nat := if 12 ≤ die ∧ die < 24 then 360 else 400

def tripPoint (die : Nat) : Nat := if 12 ≤ die ∧ die < 24 then 420 else 460

/-- The module trips (R458; 22, R515): THERMTRIP_N, the fatal state at once, and the rails other than VDD_AON off. -/
def State.trip (s : State) (die : Nat) : State :=
  if s.power.thermtrip then s
  else
    let s1 := s.modPower (fun p => { p with thermtrip := true })
    let s2 := s1.recordFault { s1.faultNow 3 0x0707 0x0A with unitKind := 9, unit := die }
    { s2 with board := { s2.board with pwrGood := false, railsOn := false } }

/-- TEMPERATURE_READ (R457, R458): the sensors of a die in quarter degrees. Two readings in a row at the trip point trip
the module; one followed by a lower one posts 0x0706, as does a link, deep-memory or hub die that reaches its throttle
point. -/
def doTemperatureRead (die : Fin 32) (ts : List Nat) (s : State) : State :=
  let d := die.val
  let hottest := ts.foldl max 0
  let now := (ts.zipIdx.filter (fun t => decide (tripPoint d ≤ t.1))).map (fun t => 4 * d + t.2 % 4)
  let before := s.power.atTrip.filter (fun i => i / 4 == d)
  let hot := decide (24 ≤ d) && decide (throttlePoint d ≤ hottest)
  let s1 := s.modPower (fun p => { p with
    temps := p.temps.set die hottest, atTrip := p.atTrip.filter (fun i => i / 4 != d) ++ now
    hot := if hot then setInsert d p.hot else setErase d p.hot })
  let s2 := if before.any (fun i => !now.contains i) then s1.unitEvent 0x0706 d else s1
  let s3 := if hot && !s.power.hot.contains d then s2.unitEvent 0x0706 d else s2
  if before.any now.contains then s3.trip d else s3

/-- The dies whose readings set the thermal duty of a core: its arrays, its feed die and its stacks. -/
def coreDies (c : Fin 4) : List Nat :=
  [2 * c.val, 2 * c.val + 1, 8 + c.val, 12 + 3 * c.val, 13 + 3 * c.val, 14 + 3 * c.val]

/-- The thermal duty of one core (R457), each die against its own throttle point. -/
def State.thermalStep (s : State) (c : Fin 4) : State :=
  let t := fun (d : Nat) => s.power.temps[ix 32 d]
  let duty := (s.core c).thermalDuty
  if (coreDies c).any (fun d => decide (throttlePoint d ≤ t d)) then
    let s1 := s.modCore c (fun k => { k with thermalDuty := max 1 (k.thermalDuty - 4) })
    if duty = 64 then s1.unitEvent 0x0706 c.val else s1
  else if (coreDies c).all (fun d => decide (t d < throttlePoint d - 12)) then
    s.modCore c (fun k => { k with thermalDuty := min 64 (k.thermalDuty + 1) })
  else s

/-- THERMAL_DUTY_UPDATE (R457). -/
def doThermalDutyUpdate (s : State) : State := ((List.finRange 4).foldl State.thermalStep s).setDuties

/-- THERMAL_TRIP (R458): the comparator of a die that carries one. -/
def doThermalTrip (die : Fin 32) (s : State) : State :=
  if 12 ≤ die.val ∧ die.val < 24 then s else s.trip die.val

/-! ## Ramps and hints (R107, R108, R451, R452) -/

/-- The level of a core (R451). -/
def State.level (s : State) (c : Fin 4) : Nat :=
  (List.finRange 16).foldl (fun l x => max l (match (s.cc x c).hint with | some h => h.level | none => 0)) 0

/-- The next ramp to grant: the oldest request, and among those of one cycle the highest level, then the lowest core. -/
def State.nextRamp (s : State) : Option RampReq :=
  s.power.rampReqs.foldl (fun b r =>
    match b with
    | none => some r
    | some q =>
      if r.at' < q.at' ∨ (r.at' = q.at' ∧ (s.level q.core < s.level r.core ∨
          (s.level q.core = s.level r.core ∧ r.core < q.core))) then some r else some q) none

/-- RAMP_GRANT (R452): the next request is granted once its first row is ready to issue, 64 array cycles after the last grant at
the earliest. -/
def doRampGrant (s : State) : State :=
  let spaced := match s.power.lastRamp with
    | some t => decide (64 ≤ s.arrayTime - t)
    | none => true
  match s.nextRamp with
  | none => s
  | some r =>
    if !spaced || decide (s.arrayTime < r.at') then s
    else
      let warm := fun (s : State) (b : Fin 2) => s.modArr (arrayOf r.core b) (fun t => { t with cold := false, lastIssue := s.arrayTime })
      let s1 := s.modPower (fun p => { p with
        rampReqs := p.rampReqs.filter (fun q => q.core != r.core), lastRamp := some s.arrayTime })
      (warm (warm s1 0) 1).modCore r.core (fun k => { k with
        staggerWait := satAdd k.staggerWait (s.arrayTime - r.at') })

/-- HINT_EXPIRE (R451): the hint of a context on a core ends when its duration has passed. -/
def doHintExpire (x : Fin 16) (c : Fin 4) (s : State) : State :=
  match (s.cc x c).hint with
  | some h =>
    match h.expires with
    | some t => if t ≤ s.pilot then s.modCC x c (fun k => { k with hint := none }) else s
    | none => s
  | none => s

/-- The set point that a level asks of an array rail, in millivolts (Table 18.1). -/
def levelMv (level : Nat) : Nat := if level = 2 then 765 else if level = 3 then 780 else 750

/-! ## Clock domains (R455, R456, Table 18.3): cores 0 to 3, memory 4, deep 5 and 6, links 7 to 10 -/

/-- A core has a queued or running command of any context. -/
def State.coreBusy (s : State) (c : Fin 4) : Bool :=
  (s.core c).running.isSome ||
    (List.finRange 16).any (fun x => let k := s.cc x c; !k.main.isEmpty || !k.eval.isEmpty)

/-- Ports of a link die that are in service or training. -/
def State.linkBusy (s : State) (l : Fin 4) : Bool := (s.links[l]).ports.toList.any (fun p => p.inService || p.training)

/-- A context exists. -/
def State.anyContext (s : State) : Bool := s.hub.ctxs.toList.any (fun k => k.state != .none)

/-- The drift engine or a deep access has work on a deep-memory die; a page has blocks on both (11, R274). -/
def State.deepBusy (s : State) (d : Nat) : Bool :=
  !s.tiers.moves.isEmpty || s.tiers.deepWaits.any (fun w => deepChannel w.page w.block / 8 == d)

/-- A domain is in use (Table 18.3). -/
def State.inUse (s : State) (d : Fin 11) : Bool :=
  if d.val < 4 then
    let c := ix 4 d.val
    s.coreBusy c || decide (1 ≤ s.level c) || (s.core c).ift.due || (s.core c).ift.running
  else if d.val = 4 then s.anyContext
  else if d.val ≤ 6 then s.deepBusy (d.val - 5)
  else s.linkBusy (ix 4 (d.val - 7))

/-- A domain may be asked to start: it is in use, or pages lie deep that an access may reach. -/
def State.wanted (s : State) (d : Fin 11) : Bool :=
  s.inUse d || ((d.val == 5 || d.val == 6) && s.tiers.map.any (fun e => e.2.home == Home.deep))

/-- Starts of core domains begin at least 100 pilot cycles apart; of those that ask together the lowest core is first
(R456). -/
def State.startSpaced (s : State) (d : Fin 11) : Bool :=
  decide (4 ≤ d.val) || (List.range 4).all (fun i =>
    let k := s.power.domains[ix 11 i]
    (k.starts == 0 || decide (k.since + 100 ≤ s.pilot) || k.st == .stopped) &&
      !(decide (i < d.val) && k.st == .stopped && s.wanted (ix 11 i)))

def State.modDomain (s : State) (d : Fin 11) (f : Domain → Domain) : State :=
  s.modPower (fun p => { p with domains := vmod p.domains d f })

/-- The memory and H0 clocks run: stage 4 has ended and no module reset holds (19, Table 19.6). -/
def State.clocksOn (s : State) : Bool := decide (5 ≤ s.clock.stage) && s.clock.resetting.isNone && !s.clock.resetHeld

/-- CLOCK_START (R455, R456). -/
def doClockStart (d : Fin 11) (s : State) : State :=
  if s.power.domains[d].st != .stopped || !s.clocksOn || !s.wanted d || !s.startSpaced d then s
  else s.modDomain d (fun k => { k with st := .starting, since := s.pilot, idle := 0, starts := satAdd k.starts 1 })

/-- CLOCK_START_DONE (R456): after 400 pilot cycles the domain runs. -/
def doClockStartDone (d : Fin 11) (s : State) : State :=
  let k := s.power.domains[d]
  if k.st == .starting && decide (k.since + 400 ≤ s.pilot) then s.modDomain d (fun k => { k with st := .running, idle := 0 })
  else s

/-- A domain may stop (Table 18.3): idle for IDLE_US, and for a link die no port in service or training. -/
def State.mayStop (s : State) (d : Fin 11) : Bool :=
  let us := s.clock.idleUs
  !s.inUse d && (decide (7 ≤ d.val) || (us != 0 && decide (50 * us ≤ s.power.domains[d].idle)))

/-- CLOCK_STOP (R455): the domain stops. The arrays of a stopped core are cold when it restarts (R109). -/
def doClockStop (d : Fin 11) (s : State) : State :=
  if s.power.domains[d].st != .running || !s.mayStop d then s
  else
    let s1 := s.modDomain d (fun k => { k with st := .stopped, since := s.pilot, idle := 0 })
    if d.val < 4 then
      let c := ix 4 d.val
      [0, 1].foldl (fun s b => s.modArr (arrayOf c (ix 2 b)) (fun t => { t with cold := true })) s1
    else s1

/-! ## Caps (R447) -/

/-- A cap lies within its range. -/
def capOk (w : Nat) : Bool := decide (1600 ≤ w) && decide (w ≤ 3200)

/-- PWR_CAP_WRITE (R447, Table 18.5). -/
def doPwrCapWrite (v : W32) (s : State) : State :=
  let w := bits v.toNat 11 0
  if capOk w then s.modPower (fun p => { p with hostCap := w }) else s.dropWrite 1

/-- BMC_CAP_WRITE (R447). -/
def doBmcCapWrite (v : W32) (s : State) : State :=
  let w := bits v.toNat 11 0
  if capOk w then s.modPower (fun p => { p with bmcCap := w }) else s.dropWrite 1

end Sys2Proof.Machine
end

