-- ==== Sys2Proof/Machine/Records.lean ====
section
/-! DEFINITION. Signed records and ownership: SET_ROLE with an owner record or an owner release (20, R476 to R480, R484). -/

namespace Sys2Proof.Machine

open Sys2Proof

/-! ## Layout (Tables 20.2 and 20.3) -/

def recKind (r : List Byte) : Nat := byteAt r 4
def recSigner (r : List Byte) : Nat := byteAt r 5
def recGen (r : List Byte) : Nat := fld r 0x14 4
def recBody (r : List Byte) : List Byte := (r.drop 64).take (fld r 8 4)
def recSigned (r : List Byte) : List Byte := r.take (64 + fld r 8 4)
def recKeyId (r : List Byte) : List Byte := (r.drop (64 + fld r 8 4)).take 64
def recSignature (r : List Byte) : List Byte := (r.drop (128 + fld r 8 4)).take 512

/-- A record is a header, a body and a trailer of the lengths given, with its fixed fields. -/
def recFormed (r : List Byte) : Bool :=
  let n := fld r 8 4
  let k := recKind r
  fld r 0 4 == 0x43524B53 && decide (1 ≤ k) && decide (k ≤ 8) && decide (recSigner r ≤ 3) && fld r 6 2 == 1 &&
    decide (16 ≤ n) && decide (n ≤ 33554432) && r.length == 640 + n && zeroRange r 0x12 2 && zeroRange r 0x38 8 &&
    (k == 1 || k == 2 || fld r 0xC 4 == 0)

/-- The signers of a kind (Table 20.4). -/
def kindSigners (k : Nat) : List Nat :=
  match k with
  | 2 => [0]
  | 4 => [1, 2]
  | 5 => [1, 2]
  | 6 => [3]
  | 7 => [1, 3]
  | 8 => [3]
  | _ => [1]

/-- A kind that must be bound. -/
def kindBound (k : Nat) : Bool := decide (3 ≤ k)

/-- BINDING agrees with the kind and the module. -/
def State.bindingOk (s : State) (r : List Byte) : Bool :=
  let b := (r.drop 0x18).take 32
  if kindBound (recKind r) then b == s.deviceId.take 32 else b.all (· == 0)

/-- A signature by a key (R476). -/
def signedBy (r : List Byte) (modulus : Nat) : Bool :=
  recKeyId r == keyId modulus && pssVerify modulus (recSigned r) (recSignature r)

/-- A signature that H1 has made itself (R480). -/
def selfSigned (r : List Byte) (modulus : Nat) : Bool :=
  recSigner r == 2 && recKeyId r == keyId modulus && recSignature r == fitTo 512 (Config.identitySign (recSigned r))

/-- The current owner's public modulus: it begins the body of the owner record (Table 20.4), little-endian by R4 (00). -/
def ownerModulus (r : List Byte) : Nat := leNat ((recBody r).take 512)

/-- The key that a signer number stands for on this module. -/
def State.signerKey (s : State) (signer : Nat) : Option Nat :=
  match signer with
  | 1 => some s.sec.vendorKey
  | 2 => some s.sec.identityKey
  | 3 => if s.sec.ownerKey.isSome then (alookup 6 s.sec.records).map ownerModulus else none
  | _ => none

/-- GEN is not older than the stored one, and equal only for the current copy (R480). -/
def State.genOk (s : State) (r : List Byte) : Bool :=
  match alookup (recKind r) s.sec.gens with
  | none => true
  | some g => decide (g < recGen r) || (g == recGen r && alookup (recKind r) s.sec.records == some r)

/-- The checks of R478 that need no key: the reason of the first that fails, or 0. -/
def State.headerReason (s : State) (r : List Byte) (kinds : List Nat) : Nat :=
  if !recFormed r || !kinds.contains (recKind r) then 0x0802
  else if 0x00A1 < fld r 0x10 2 then 0x0803
  else if !s.bindingOk r then 0x0802
  else if !(kindSigners (recKind r)).contains (recSigner r) then 0x0805
  else 0

/-- The checks of R478 and R480 on a record of one of some kinds: the reason of the first that fails, or 0. -/
def State.recordReason (s : State) (r : List Byte) (kinds : List Nat) : Nat :=
  let h := s.headerReason r kinds
  if h ≠ 0 then h
  else match s.signerKey (recSigner r) with
    | none => 0x0801
    | some k => if !(signedBy r k || selfSigned r k) then 0x0801 else if !s.genOk r then 0x0804 else 0

/-- A stored record takes its place as the current copy of its kind (R479, R480). -/
def Sec.keep (t : Sec) (r : List Byte) : Sec :=
  { t with records := ainsert (recKind r) r t.records
           gens := ainsert (recKind r) (max (recGen r) ((alookup (recKind r) t.gens).getD 0)) t.gens }

/-! ## Ownership (R484) -/

/-- An owner record is refused for its signer: it must be signed by the key it enrols, or by the current owner. -/
def State.ownerReason (s : State) (r : List Byte) : Nat :=
  let h := s.headerReason r [6]
  if h ≠ 0 then h
  else if (recBody r).length ≠ 576 then 0x0802
  else
    let key := if s.sec.ownerKey.isSome then (s.signerKey 3).getD 0 else ownerModulus r
    if recKeyId r != keyId key then 0x0807
    else if !signedBy r key then 0x0801
    else if !s.genOk r then 0x0804
    else 0

/-- OWNER_RECORD (R484): SET_ROLE with KIND 0x06. Its owner is enrolled when its pointer page has verified. -/
def doOwnerRecord (x : Fin 16) (i : Fin 8) (s : State) : State :=
  match s.packetAt x i 4 (some 0x0C) with
  | none => s
  | some p =>
    if recKind p.pay ≠ 6 then s
    else
      let reason := s.ownerReason p.pay
      if reason ≠ 0 then s.refusePacket x p reason 0 else (s.queueRec 6 p.pay none).donePacket x p

/-- OWNER_RELEASE (R484): SET_ROLE with KIND 0x07. The owner is removed when its pointer page has verified. -/
def doOwnerRelease (x : Fin 16) (i : Fin 8) (s : State) : State :=
  match s.packetAt x i 4 (some 0x0C) with
  | none => s
  | some p =>
    if recKind p.pay ≠ 7 then s
    else
      let h := s.headerReason p.pay [7]
      let reason := if h ≠ 0 then h
        else if s.sec.ownerKey != some (recBody p.pay) then 0x0807
        else s.recordReason p.pay [7]
      if reason ≠ 0 then s.refusePacket x p reason 0 else (s.queueRec 7 p.pay none).donePacket x p

end Sys2Proof.Machine
end

