-- ==== Sys2Proof/Machine/Roles.lean ====
section
/-! DEFINITION. Installation roles: role records, control messages, bring-up, heartbeats, takeovers, reports and caps (15,
R369 to R386; 20, R491). Message bodies are little-endian in the order of Table 15.5; what the rules need beyond that
table follows its fields (DESIGN CHOICE, log 78). -/

namespace Sys2Proof.Machine

open Sys2Proof

def State.modRoles (s : State) (f : Roles → Roles) : State := { s with roles := f s.roles }

/-! ## The role record (R370 to R373) -/

/-- The roles of a record that takes effect, on a module that became ready at a time. -/
def Roles.ofRecord (r : List Byte) (readyAt : Option Nat) : Roles :=
  { Roles.standalone with record := some r, role := byteAt r 2, index := fld r 0x14 2, manager := fld r 0x1C 4
                          top := fld r 0x24 4, readyAt := readyAt }

/-- A manager or deputy holds MEMBERS, and the top manager and top deputy hold GROUP_LIST (Table 15.2). -/
def holdsMembers (r : List Byte) : Bool := let role := byteAt r 2; role == 1 || role == 2 || fld r 0x20 4 == fld r 4 4 % 2 ^ 24
def holdsGroups (r : List Byte) : Bool := byteAt r 2 == 2 || fld r 0x28 4 == fld r 4 4 % 2 ^ 24

/-- The number of MEMBERS entries. -/
def memberCount (r : List Byte) : Nat := fld r 0x16 2 + fld r 0x18 2

def memberNodeAt (r : List Byte) (i : Nat) : Nat := fld r (0x140 + 4 * i) 4

/-- Offset of GROUP_LIST. -/
def groupListAt (r : List Byte) : Nat := 0x140 + (if holdsMembers r then 4 * memberCount r else 0)

/-- Manager and deputy nodes of GROUP_LIST. -/
def groupNodes (r : List Byte) : List (Nat × Nat) :=
  if holdsGroups r then (List.range (byteAt r 0x11)).map (fun g =>
    (fld r (groupListAt r + 8 * g) 4, fld r (groupListAt r + 8 * g + 4) 4)) else []

/-- A node field is below NODES, or unused: all ones (DESIGN CHOICE, log 96). -/
def nodeOk (r : List Byte) (n : Nat) : Bool := decide (n < fld r 0xC 4) || n == 0xFFFFFFFF

/-- Job entries agree with Table 15.3 and R372; reserved bits are clear in unused entries too. -/
def jobsOk (r : List Byte) : Bool :=
  let es := (List.range 16).map (fun i => (r.drop (0x40 + 16 * i)).take 16)
  let used := es.filter (fun e => fld e 0 2 != 0xFFFF)
  es.all (fun e => bits (byteAt e 2) 7 4 == 0 && byteAt e 3 == 0) &&
  used.all (fun e => (used.filter (fun f => fld f 0 2 == fld e 0 2)).length == 1 &&
    (used.filter (fun f => byteAt f 2 == byteAt e 2)).length == 1)

/-- The ranges of Table 15.2 and the rules of R369, R372 and R386: the top manager is of group 0, and the report table lies in the
unified range (log 155). -/
def roleFieldsOk (r : List Byte) : Bool :=
  let role := byteAt r 2
  let flags := byteAt r 3
  let mgr := role == 1 || role == 2
  let index := fld r 0x14 2
  let workers := fld r 0x16 2
  let watts := fld r 0x34 4
  let nodes := fld r 0xC 4
  decide (0x140 ≤ r.length) && fld r 0 2 == 1 && decide (role ≤ 3) && bits flags 7 2 == 0 && (!bit flags 0 || mgr) &&
    byteAt r 7 == 0 && fld r 8 4 != 0 && decide (2 ≤ nodes) && decide (nodes ≤ 16777215) &&
    decide (1 ≤ byteAt r 0x11) && decide (byteAt r 0x11 ≤ 128) && decide (byteAt r 0x10 < byteAt r 0x11) &&
    decide (byteAt r 0x12 ≤ 128) && decide (1 ≤ byteAt r 0x13) && decide (byteAt r 0x13 ≤ 128) &&
    decide (1 ≤ workers) && decide (workers ≤ 512) && decide (fld r 0x18 2 ≤ 64) &&
    (if role == 0 || (mgr && !bit flags 0) then decide (index < workers) else index == 0xFFFF) &&
    decide (fld r 4 4 < nodes) && [0x1C, 0x20, 0x24, 0x28, 0x2C].all (fun o => nodeOk r (fld r o 4)) &&
    bits (fld r 0x30 4) 31 20 == 0 && (watts == 0 || decide (1600 * memberCount r ≤ watts)) &&
    fld r 0x38 8 % 4096 == 0 && (fld r 0x38 8 == 0 || decide (fld r 0x38 8 + 577 * 256 ≤ 2 ^ 41)) &&
    (role != 2 || byteAt r 0x10 == 0) && jobsOk r &&
    (!holdsMembers r || (decide (groupListAt r ≤ r.length) &&
      (List.range (memberCount r)).all (fun i => nodeOk r (memberNodeAt r i)))) &&
    (!holdsGroups r || (decide (groupListAt r + 8 * byteAt r 0x11 ≤ r.length) &&
      (groupNodes r).all (fun g => nodeOk r g.1 && nodeOk r g.2)))

/-- MAC_PREFIX is that of a locally administered unicast address (R371). -/
def macOk (r : List Byte) : Bool := let p := fld r 0x30 4; bit p 13 && !bit p 12

/-- The record but for JOBS. -/
def withoutJobs (r : List Byte) : List Byte := r.take 0x40 ++ r.drop 0x140

/-- New job entries take effect: running fabric commands of a context that has lost its job fail (R373). -/
def State.applyJobs (s : State) (r : List Byte) : State :=
  let s1 := s.modRoles (fun t => { t with record := some r })
  (List.finRange 16).foldl (fun s x =>
    if (s.jobOf x).map (·.job) == (s1.jobOf x).map (·.job) then s
    else (s.fabRuns x).foldl (fun s q => s.fabFail q.1 0x0502) s) s |>.modRoles (fun t => { t with record := some r })

/-- An accepted role record takes effect now, or at the next module start (R373). -/
def State.applyRole (s : State) (r : List Byte) : State :=
  match s.roles.record with
  | none => s.modRoles (fun _ => Roles.ofRecord r (if s.clock.ready then some s.pilot else none))
  | some old => if withoutJobs old == withoutJobs r then s.applyJobs r else s

/-- SET_ROLE (R370 to R373; 20, R484): any KIND but an owner record or release. -/
def doSetRole (x : Fin 16) (i : Fin 8) (s : State) : State :=
  match s.packetAt x i 4 (some 0x0C) with
  | none => s
  | some p =>
    let r := p.pay
    if recKind r = 6 ∨ recKind r = 7 then s
    else
      let sec := s.recordReason r [8]
      let reason := if sec ≠ 0 then sec
        else if !roleFieldsOk (recBody r) then 0x0520
        else if !macOk (recBody r) then 0x0521 else 0
      if reason ≠ 0 then s.refusePacket x p reason 0
      else ((s.applyRole (recBody r)).queueRec 8 r none).donePacket x p

/-! ## Sending (R374) -/

/-- The module runs the services of its group, or those of the installation. -/
def Roles.servesGroup (r : Roles) : Bool := r.role == 1 || r.role == 2
def Roles.servesAll (r : Roles) : Bool := r.role == 2

/-- A message of the own group, and one of the installation. -/
def State.sendGroup (s : State) (dst msg : Nat) (body : List Byte) : State := s.sendCtrl dst msg s.roles.groupEpoch body
def State.sendTop (s : State) (dst msg : Nat) (body : List Byte) : State := s.sendCtrl dst msg s.roles.installEpoch body

/-- Arrays in service as a bit mask, and ports in service. -/
def State.arrayMask (s : State) : Nat :=
  (List.finRange 8).foldl (fun n a => n + b2n ((s.arr a).inService && (s.core (coreOfArray a)).inService) * 2 ^ a.val) 0
def State.portMask (s : State) : Nat := (List.finRange 16).foldl (fun n p => n + b2n (s.portUp p) * 2 ^ p.val) 0

/-- HELLO: arrays and ports in service and FORMAT of the role record. -/
def State.helloBody (s : State) : List Byte := leBytes 1 s.arrayMask ++ leBytes 2 s.portMask ++ leBytes 2 (s.role 0 2)

def State.sendHello (s : State) (dst : Nat) : State := s.sendGroup dst 0x01 s.helloBody

/-- Present members but for the own module. -/
def State.others (s : State) : List Member := s.roles.members.filter (fun m => m.present && s.node != some m.node)

/-- Spares that are present, have no index, and are not being given one. -/
def Roles.freeSpares (r : Roles) : List Member :=
  r.members.filter (fun m => m.present && m.sparePos.isSome && m.index.isNone && r.takeovers.all (fun t => t.spare != some m.node))

/-- The free spare of the lowest position. -/
def Roles.lowestSpare (r : Roles) : Option Member :=
  r.freeSpares.foldl (fun b m =>
    match b with
    | none => some m
    | some q => if m.sparePos.getD 0 < q.sparePos.getD 0 then some m else some q) none

def State.modMember (s : State) (node : Nat) (f : Member → Member) : State :=
  s.modRoles (fun r => { r with members := r.members.map (fun m => if m.node = node then f m else m) })

/-- Members present with an index. -/
def Roles.served (r : Roles) : List Member := r.members.filter (fun m => m.present && m.index.isSome)

/-- GROUP_READY: indices present, nodes marked absent and spares left. -/
def State.readyBody (s : State) : List Byte :=
  let r := s.roles
  let absent := r.members.filter (fun m => !m.present && decide (m.listed < s.role 0x16 2))
  leBytes 2 r.served.length ++ leBytes 2 absent.length ++ (absent.map (fun m => leBytes 4 m.node)).flatten ++
    leBytes 2 r.freeSpares.length

/-! ## Receiving (R374, R377) -/

/-- What a control message says: sender, header fields and body. -/
structure Ctrl where
  src : Nat
  epoch : Nat
  group : Nat
  role : Nat
  body : List Byte
  deriving DecidableEq, Repr

/-- A message of the installation: GROUP_READY, INSTALL_READY, or one between groups. -/
def State.isTop (s : State) (msg : Nat) (c : Ctrl) : Bool := msg == 3 || msg == 4 || c.group != s.role 0x10 1

/-- Answers the sender of an older epoch with NOTICE. -/
def State.notice (s : State) (dst : Nat) (top : Bool) : State :=
  if top then s.sendTop dst 0x0E (leBytes 2 s.roles.installEpoch ++ leBytes 4 s.roles.top)
  else s.sendGroup dst 0x0E (leBytes 2 s.roles.groupEpoch ++ leBytes 4 s.roles.manager)

/-- Gives up the services of a group: the module becomes an ordinary worker of its own index (R377). -/
def Roles.stepDown (r : Roles) : Roles :=
  let i := match r.record with | some b => fld b 0x14 2 | none => 0xFFFF
  { r with role := if i = 0xFFFF then 3 else 0, index := i, formed := false, closed := false, members := [], groups := []
           takeovers := [], chargeAt := none, topChargeAt := none }

/-- A holder that hears a newer epoch gives up its services (R377). NOTICE and TAKE_CHARGE name whom it follows and are treated as
such. -/
def State.yieldTo (s : State) (msg : Nat) (top : Bool) (c : Ctrl) : State :=
  if msg = 0x0E ∨ msg = 0x06 then s
  else if top then
    if s.roles.installEpoch < c.epoch ∧ s.roles.servesAll then
      s.modRoles (fun r => { r with role := 1, topChargeAt := none, top := if c.role = 2 then c.src else r.top })
    else s
  else if s.roles.groupEpoch < c.epoch ∧ s.roles.servesGroup then s.modRoles (fun r => { r.stepDown with welcomed := false })
  else s

/-- Takes in a control message of one MSG: its flow first, then the checks of R374. -/
def State.takeCtrl (s : State) (p : Fin 16) (f : Frame) (msg : Nat) : State × Option Ctrl :=
  if f.kind != 5 || f.channel != 3 || byteAt f.payload 0 != msg then (s, none)
  else match s.receive p f with
    | (s1, false) => (s1, none)
    | (s1, true) =>
      let h := f.payload
      let c : Ctrl := { src := f.src, epoch := fld h 2 2, group := byteAt h 8, role := byteAt h 9
                        body := (h.drop 16).take (fld h 12 4) }
      let top := s.isTop msg c
      if fld h 4 4 ≠ s.role 8 4 then (s1.discardFrame p, none)
      else if c.epoch < (if top then s.roles.installEpoch else s.roles.groupEpoch) then
        ((s1.discardFrame p).notice f.src top, none)
      else (s1.yieldTo msg top c, some c)

/-! ## Checkpoints (R380, R381) -/

/-- Every index of the own group holds a step of a job (R381). -/
def State.ckptComplete (s : State) (job step : Nat) : Bool :=
  (List.range (s.role 0x16 2)).all (fun i => s.roles.ckpts.any (fun c => c.job == job && c.index == i && c.step == step))

/-- Completed steps that the restore steps have not passed. -/
def liveSteps (restore l : List (Nat × Nat)) : List (Nat × Nat) :=
  l.filter (fun e => decide ((alookup e.1 restore).getD 0 ≤ e.2))

/-- Completed steps common to all groups. -/
def commonSteps : List (List (Nat × Nat)) → List (Nat × Nat)
  | [] => []
  | g :: rest => g.filter (fun e => rest.all (·.contains e))

/-- Restore steps once some steps are complete in every present group: a newer step takes the place of an older (R381). -/
def newestSteps (old l : List (Nat × Nat)) : List (Nat × Nat) :=
  l.foldl (fun m e => match alookup e.1 m with
    | some k => if k < e.2 then ainsert e.1 e.2 m else m
    | none => ainsert e.1 e.2 m) old

/-- The top manager takes the newest step of each job that is complete in every present group as the restore step (R381). -/
def State.updateRestore (s : State) : State :=
  let r := s.roles
  if !r.servesAll then s
  else
    let now := r.groups.map (fun g => if g.group = s.role 0x10 1 then r.steps else g.steps)
    let restore := newestSteps r.restore (commonSteps now)
    s.modRoles (fun r => { r with restore := restore, steps := liveSteps restore r.steps
                                  groups := r.groups.map (fun g => { g with steps := liveSteps restore g.steps }) })

/-- Notes in a manager's checkpoint index that a node holds the shard of an owner; a step that every index holds is complete for the
group (R381). -/
def State.noteCkpt (s : State) (owner job step holder : Nat) : State :=
  match s.roles.members.find? (fun m => m.node == owner) with
  | some { index := some i, .. } =>
    let old := s.roles.ckpts.find? (fun c => c.job == job && c.index == i)
    let newer := match old with | some c => decide (c.step ≤ step) | none => true
    if newer then
      let s1 := s.modRoles (fun r => { r with ckpts := r.ckpts.filter (fun c => !(c.job == job && c.index == i)) ++ [⟨job, i, step, holder⟩] })
      if s1.ckptComplete job step && !s1.roles.steps.contains (job, step) then
        (s1.modRoles (fun r => { r with steps := r.steps ++ [(job, step)] })).updateRestore
      else s1
    else s
  | _ => s

/-- A checkpoint RECV has completed without poison: CKPT_HELD (R380). -/
def State.ckptHeld (s : State) (r : Run) : State :=
  let m := msgArgs r.cmd
  let job := ((s.jobOf r.x).map (·.job)).getD 0xFFFF
  if r.cmd.op = 0x42 && m.tag.getLsbD 31 && !r.out.failed && !r.out.poisoned then
    let step := m.tag.toNat % 2 ^ 31
    if s.node == some s.roles.manager then s.noteCkpt m.peer job step (s.node.getD 0)
    else s.sendCtrl s.roles.manager 0x0A s.roles.groupEpoch (leBytes 4 m.peer ++ leBytes 2 job ++ leBytes 4 step)
  else s

/-- COMMAND_COMPLETE (R330, R337): a RECV of a checkpoint that completes without poison is reported held (15, R380). -/
def doCommandEnd (q : QRef) (i charge : Nat) (s : State) : State :=
  let t := doCommandComplete q i charge s
  match q with
  | .fabric x =>
    match (s.ctx x).fabricRun[i]? with
    | some r => if (t.ctx x).fabricRun.any (fun k => k.id == r.id) then t else t.ckptHeld r
    | none => t
  | _ => t

/-! ## Bring-up (R375 to R378, R383) -/

/-- MEMBERS as the lists of a manager that begins its services; its own module is present. -/
def State.listMembers (s : State) : List Member :=
  match s.roles.record with
  | none => []
  | some r => (List.range (memberCount r)).map (fun i =>
      let w := fld r 0x16 2
      { node := memberNodeAt r i, listed := i, index := if i < w then some i else none
        sparePos := if i < w then none else some (i - w), present := s.node == some (memberNodeAt r i), failed := false
        beat := s.pilot, beats := [], cap := 3200, faults := [0, 0, 0, 0], slow := [], slowRun := 0, slowPosted := false })

/-- Whether the module is the deputy of its group, or the top deputy. -/
def State.isDeputy (s : State) : Bool := s.node == some (s.role 0x20 4)
def State.isTopDeputy (s : State) : Bool := s.node == some (s.role 0x28 4)

/-- MANAGER_READY (R375): the later of module ready and 75 s after MOD_PWR_GOOD. A group manager begins its services. -/
def doManagerReady (s : State) : State :=
  let r := s.roles
  let late := match s.board.goodAt with | some t => decide (t + 3750000000 ≤ s.pilot) | none => false
  if r.record.isNone || r.readyAt.isNone || r.managerReadyAt.isSome || !late ||
      !(r.servesGroup || s.isDeputy || s.isTopDeputy) then s
  else s.modRoles (fun r => { r with
    managerReadyAt := some s.pilot, welcomed := r.welcomed || r.servesGroup
    members := if r.servesGroup then s.listMembers else r.members })

/-- HELLO_REPEAT (R376, Table 15.6): a module without WELCOME sends HELLO every second; a worker that has had none for
120 s sends it to its deputy as well. -/
def doHelloRepeat (s : State) : State :=
  let r := s.roles
  let due := match r.helloAt with | some t => decide (t + 50000000 ≤ s.pilot) | none => true
  match r.readyAt with
  | none => s
  | some t =>
    if r.record.isNone || r.welcomed || r.servesGroup || !due then s
    else
      let s1 := (s.modRoles (fun r => { r with helloAt := some s.pilot })).sendHello r.manager
      if r.role = 0 ∧ t + 6000000000 ≤ s.pilot ∧ s.role 0x20 4 ≠ r.manager then s1.sendHello (s.role 0x20 4) else s1

/-- WELCOME to a node with an index, or as a spare. -/
def State.welcome (s : State) (node : Nat) (index : Option Nat) : State :=
  s.sendGroup node 0x02 (leBytes 2 (index.getD 0xFFFF) ++ leBytes 2 s.roles.groupEpoch)

/-- The divisor d of R383 (Table 15.7). -/
def spareDivisor (total : Nat) : Nat := if total ≤ 4096 then 64 else if total ≤ 16384 then 48 else 32

/-- Posts 0x0526 when a registered group's spares fall below its share, and again for each further spare lost (R383). -/
def State.checkSpares (s : State) (group : Nat) : State :=
  let w := s.role 0x16 2
  let need := ceilDiv w (spareDivisor (w * s.role 0x11 1))
  match s.roles.groups.find? (fun g => g.group == group) with
  | none => s
  | some g =>
    let low := g.posted.getD need
    let posted := if need ≤ g.spares then none else some (min low g.spares)
    let s1 := s.modRoles (fun r => { r with groups := r.groups.map (fun h => if h.group = group then { h with posted := posted } else h) })
    (List.range (low - g.spares)).foldl (fun s _ => s.event 0 0x0526 (detail [(0, 4, group)])) s1

/-- The holder of the installation keeps the count of its own group's spares (R383). -/
def State.ownSpares (s : State) : State :=
  let own := s.role 0x10 1
  if !s.roles.servesAll then s
  else (s.modRoles (fun r => { r with groups := r.groups.map (fun g =>
    if g.group = own then { g with present := r.served.length, spares := r.freeSpares.length } else g) })).checkSpares own

/-- The caps of a group at INSTALL_READY (R386). -/
def State.firstCaps (s : State) : State :=
  let w := s.role 0x34 4
  let here := s.roles.members.filter (·.present)
  if w = 0 ∨ here.isEmpty then s
  else
    let cap := min 3200 (w / here.length)
    here.foldl (fun s m =>
      let s1 := s.modMember m.node (fun m => { m with cap := cap })
      if s.node == some m.node then s1.modPower (fun p => { p with mgrCap := cap })
      else s1.sendGroup m.node 0x0D (leBytes 4 cap)) s

/-- A module that joins after INSTALL_READY gets a cap that the budget leaves; where that is less than 1,600 W, every present member
gets an equal share again (R386; log 99). -/
def State.joinCap (s : State) (node : Nat) : State :=
  let w := s.role 0x34 4
  let rest := (s.roles.members.filter (fun m => m.present && m.node != node)).foldl (fun n m => n + m.cap) 0
  if w = 0 ∨ !s.roles.installReady then s
  else if rest + 1600 ≤ w then
    let cap := min 3200 (w - rest)
    (s.modMember node (fun m => { m with cap := cap })).sendGroup node 0x0D (leBytes 4 cap)
  else s.firstCaps

/-- HELLO (R376; R379): the holder of the group answers a listed node. After the group has formed, a module that was
absent or failed joins as a spare. A manager that turns to this top deputy is noted. -/
def doHello (p : Fin 16) (f : Frame) (s : State) : State :=
  match s.takeCtrl p f 0x01 with
  | (s1, none) => s1
  | (s1, some c) =>
    let r := s1.roles
    let s2 := if s1.isTopDeputy && c.role == 1 then s1.modRoles (fun r => { r with asked := true }) else s1
    match r.members.find? (fun m => m.node == c.src) with
    | none => s2
    | some m =>
      if !r.servesGroup || r.managerReadyAt.isNone then s2
      else if !r.formed then
        (s2.modMember c.src (fun m => { m with present := true, beat := s.pilot })).welcome c.src m.index
      else if m.present && !m.failed then s2.welcome c.src m.index
      else
        let pos := match m.sparePos with | some i => i | none => s1.role 0x18 2 + m.listed
        (s2.modMember c.src (fun m => { m with
          present := true, failed := false, index := none, sparePos := some pos, beat := s.pilot })).welcome c.src none
          |>.joinCap c.src |>.ownSpares

/-- WELCOME (R376, R377): index or spare status from the holder of the newest epoch. -/
def doWelcome (p : Fin 16) (f : Frame) (s : State) : State :=
  match s.takeCtrl p f 0x02 with
  | (s1, none) => s1
  | (s1, some c) =>
    if s1.roles.servesGroup then s1
    else
      let i := fld c.body 0 2
      s1.modRoles (fun r => { r with
        welcomed := true, index := i, role := if i = 0xFFFF then 3 else 0, manager := c.src
        groupEpoch := max r.groupEpoch (fld c.body 2 2) })

/-- Registers a group with the holder of the installation (R378). -/
def State.registerGroup (s : State) (g : GroupReg) : State :=
  let old := s.roles.groups.find? (fun h => h.group == g.group)
  if s.roles.closed && old.isNone then s
  else
    let g' := match old with | some h => { g with posted := h.posted, steps := h.steps ++ g.steps } | none => { g with posted := none }
    ((s.modRoles (fun r => { r with groups := r.groups.filter (fun h => h.group != g.group) ++ [g'] })).checkSpares g.group).updateRestore

/-- Sends GROUP_READY, or registers the own group when this module holds the installation. -/
def State.sendReady (s : State) : State :=
  let r := s.roles
  if r.servesAll then s.registerGroup
    { group := s.role 0x10 1, node := s.node.getD 0, present := r.served.length
      absent := (r.members.filter (fun m => !m.present && decide (m.listed < s.role 0x16 2))).length
      spares := r.freeSpares.length, posted := none, beat := s.pilot, steps := r.steps }
  else s.sendTop r.top 0x03 s.readyBody

/-- Gives one absent index to the lowest spare, or leaves it vacant (R376). -/
def State.fillIndex (s : State) (i : Nat) : State :=
  match s.roles.lowestSpare with
  | none => s
  | some m => (s.modMember m.node (fun m => { m with index := some i, sparePos := none })).welcome m.node (some i)

/-- GROUP_FORM (R376, R377): every listed worker has sent HELLO, or 30 s have passed; a HELLO in the pilot cycle in which the window
closes still counts. -/
def doGroupForm (s : State) : State :=
  let r := s.roles
  let w := s.role 0x16 2
  let workers := r.members.filter (fun m => decide (m.listed < w))
  match r.managerReadyAt with
  | none => s
  | some t =>
    let from' := r.chargeAt.getD t
    if !r.servesGroup || r.formed || !(workers.all (·.present) || decide (from' + 1500000000 < s.pilot)) then s
    else
      let absent := (workers.filter (fun m => !m.present)).filterMap (·.index)
      let s1 := s.modRoles (fun r => { r with
        formed := true, members := r.members.map (fun m => if m.present then m else { m with index := none }) })
      let s2 := (absent.foldl State.fillIndex s1).sendReady
      if s2.roles.installReady then s2.firstCaps else s2

/-- GROUP_READY (R378). -/
def doGroupReady (p : Fin 16) (f : Frame) (s : State) : State :=
  match s.takeCtrl p f 0x03 with
  | (s1, none) => s1
  | (s1, some c) =>
    if !s1.roles.servesAll then s1
    else
      let n := fld c.body 2 2
      s1.registerGroup { group := c.group, node := c.src, present := fld c.body 0 2, absent := n
                         spares := fld c.body (4 + 4 * n) 2, posted := none, beat := s.pilot, steps := [] }

/-- INSTALL_READY takes effect, and a group manager forwards it to its members (R378, R384). -/
def State.installNow (s : State) (body : List Byte) : State :=
  let s1 := s.modRoles (fun r => { r with
    installReady := true, installEpoch := max r.installEpoch (fld body 0 2), offset := fld body 4 2 })
  if s1.roles.servesGroup then (s1.others.foldl (fun s m => s.sendTop m.node 0x04 body) s1).firstCaps else s1

/-- INSTALL_READY (R378). -/
def doInstallReady (p : Fin 16) (f : Frame) (s : State) : State :=
  match s.takeCtrl p f 0x04 with
  | (s1, none) => s1
  | (s1, some c) => if s1.roles.servesAll then s1 else s1.installNow c.body

/-- The evaluation offset of a group (R384). -/
def State.evalOffset (s : State) (g : Nat) : Nat :=
  if s.role 0x1A 2 = 0 then 0 else (g / max 1 (s.role 0x13 1)) % s.role 0x1A 2

/-- REGISTRATION_CLOSE (R378): every group has registered, or the holder's window has passed. -/
def doRegistrationClose (s : State) : State :=
  let r := s.roles
  let n := s.role 0x11 1
  match r.managerReadyAt with
  | none => s
  | some t =>
    let overLim := match r.topChargeAt with
      | some u => decide (u + 4000000000 ≤ s.pilot)
      | none => decide (t + 4500000000 ≤ s.pilot)
    if !r.servesAll || r.closed || !(decide (n ≤ r.groups.length) || overLim) then s
    else
      let body := fun (g : Nat) => leBytes 2 r.installEpoch ++ leBytes 2 r.groups.length ++ leBytes 2 (s.evalOffset g)
      let listed := match r.record with | some b => (groupNodes b).map Prod.fst | none => []
      let s1 := s.modRoles (fun r => { r with closed := true })
      (List.range n).foldl (fun s g =>
        if g = s.role 0x10 1 then s.installNow (body g)
        else match r.groups.find? (fun h => h.group == g), listed[g]? with
          | some h, _ => s.sendTop h.node 0x04 (body g)
          | none, some m => s.sendTop m 0x04 (body g)
          | none, none => s) s1

/-! ## Deputies and epochs (R377, R379) -/

/-- Follows another holder of the group and sends it HELLO. -/
def State.follow (s : State) (epoch node : Nat) : State :=
  let s1 := s.modRoles (fun r =>
    let r := if r.servesGroup then r.stepDown else r
    { r with groupEpoch := epoch, manager := node, welcomed := false, helloAt := some s.pilot })
  s1.sendHello node

/-- Follows another holder of the installation; a formed group registers with it at once. -/
def State.followTop (s : State) (epoch node : Nat) : State :=
  let s1 := s.modRoles (fun r => { r with
    role := if r.role = 2 then 1 else r.role, installEpoch := epoch, top := node, topChargeAt := none, managerBeat := some s.pilot })
  if s1.roles.formed && s1.roles.role == 1 then s1.sendReady else s1

/-- DEPUTY_TAKE_CHARGE (R377, R379): of the group, with no WELCOME 10 s after manager-ready; of the installation, with no
answer from the top manager by then, or when a manager has turned to it and it too has heard nothing for 2 s. -/
def doDeputyTakeCharge (top : Bool) (s : State) : State :=
  let r := s.roles
  let own := s.node.getD 0
  match r.managerReadyAt with
  | none => s
  | some t =>
    if top then
      let silent := match r.managerBeat with
        | none => decide (t + 500000000 ≤ s.pilot)
        | some b => r.asked && decide (b + 100000000 ≤ s.pilot)
      if !s.isTopDeputy || r.role != 1 || !silent then s
      else
        let e := r.installEpoch + 1
        let s1 := s.modRoles (fun r => { r with
          role := 2, installEpoch := e, top := own, topChargeAt := some s.pilot, closed := false, groups := [], asked := false })
        let s2 := if r.formed then s1.sendReady else s1
        let ms := match r.record with | some b => (groupNodes b).map Prod.fst | none => []
        (ms.filter (· != own)).foldl (fun s m => s.sendTop m 0x06 (leBytes 2 e)) s2
    else if !s.isDeputy || r.servesGroup || r.welcomed || decide (s.pilot < t + 500000000) then s
    else
      let e := r.groupEpoch + 1
      let s1 := s.modRoles (fun r => { r with
        role := 1, groupEpoch := e, manager := own, chargeAt := some s.pilot, welcomed := true, formed := false
        members := s.listMembers })
      let s2 := (s1.roles.members.filter (fun m => m.node != own)).foldl (fun s m => s.sendGroup m.node 0x06 (leBytes 2 e)) s1
      s2.sendTop s2.roles.top 0x06 (leBytes 2 e)

/-- TAKE_CHARGE (R377). -/
def doTakeCharge (p : Fin 16) (f : Frame) (s : State) : State :=
  match s.takeCtrl p f 0x06 with
  | (s1, none) => s1
  | (s1, some c) =>
    let e := fld c.body 0 2
    if c.group = s1.role 0x10 1 then
      if s1.roles.groupEpoch < e then s1.follow e c.src else s1
    else if s1.roles.installEpoch < c.epoch then
      if s1.roles.servesGroup then s1.followTop c.epoch c.src else s1
    else s1.modRoles (fun r => { r with groups := r.groups.map (fun g => if g.group = c.group then { g with node := c.src } else g) })

/-- NOTICE (R377): the sender of an older epoch follows the node that it names; a manager does so for a newer epoch only. -/
def doNotice (p : Fin 16) (f : Frame) (s : State) : State :=
  match s.takeCtrl p f 0x0E with
  | (s1, none) => s1
  | (s1, some c) =>
    let e := fld c.body 0 2
    let node := fld c.body 2 4
    if s1.node == some node then s1
    else if c.group = s1.role 0x10 1 then
      if s1.roles.servesGroup && decide (e ≤ s1.roles.groupEpoch) then s1 else s1.follow e node
    else if s1.roles.servesGroup then s1.followTop e node else s1

/-- The pilot cycle from which a manager has heard nothing of its own manager: its latest heartbeat, or manager-ready (R379). -/
def Roles.silentSince (r : Roles) : Option Nat := match r.managerBeat with | some t => some t | none => r.managerReadyAt

/-- MANAGER_HEARTBEAT_LOSS (R379): a manager that has had no heartbeat from its own manager for 2 s turns to the deputy with HELLO,
which it repeats every second as R376 says; the top deputy turns to itself. -/
def doManagerHeartbeatLoss (s : State) : State :=
  let r := s.roles
  let due := match r.helloAt with | some t => decide (t + 50000000 ≤ s.pilot) | none => true
  match r.silentSince with
  | some t =>
    if r.role != 1 || decide (s.pilot < t + 100000000) || !due then s
    else (s.modRoles (fun r => { r with helloAt := some s.pilot, asked := r.asked || s.isTopDeputy })).sendTop (s.role 0x28 4) 0x01
      s.helloBody
  | none => s

/-! ## Takeovers (R382) -/

/-- The job that the takeover of an index names: one of which the checkpoint index holds a shard of that index, else the first of the
own record (log 102). -/
def State.mainJob (s : State) (index : Nat) : Nat :=
  match s.roles.ckpts.find? (fun c => c.index == index), s.jobEntries with
  | some c, _ => c.job
  | none, j :: _ => j.job
  | none, [] => 0xFFFF

/-- Tells every member, and the own context 0, how a takeover ended. -/
def State.tellRoster (s : State) (index node job step reason : Nat) : State :=
  let body := leBytes 2 index ++ leBytes 4 node ++ leBytes 2 s.roles.groupEpoch ++ leBytes 2 job ++ leBytes 4 step ++ leBytes 2 reason
  (s.others.foldl (fun s m => s.sendGroup m.node 0x07 body) s).event 0 reason
    (detail [(0, 2, job), (2, 2, index), (4, 4, node), (8, 4, step)])

/-- The node that holds the mirror of an index, unless it has failed. -/
def Roles.holder (r : Roles) (job index : Nat) : Nat :=
  match r.ckpts.find? (fun c => c.job == job && c.index == index) with
  | some c => if r.members.any (fun m => m.node == c.holder && m.failed) then 0xFFFFFFFF else c.holder
  | none => 0xFFFFFFFF

/-- The restore step of a job (R381); all ones when there is none. -/
def Roles.restoreStep (r : Roles) (job : Nat) : Nat := (alookup job r.restore).getD 0xFFFFFFFF

/-- Starts the oldest takeover unless one runs; without a spare the index stays vacant. The count is fuel. -/
def State.runTakeovers : Nat → State → State
  | 0, s => s
  | n + 1, s =>
    match s.roles.takeovers with
    | [] => s
    | t :: rest =>
      if t.spare.isSome then s
      else
        let job := s.mainJob t.index
        let step := s.roles.restoreStep job
        match s.roles.lowestSpare with
        | none => State.runTakeovers n ((s.modRoles (fun r => { r with takeovers := rest })).tellRoster t.index 0xFFFFFFFF job step 0x0525)
        | some m =>
          let s1 := s.modRoles (fun r => { r with
            groupEpoch := r.groupEpoch + 1, takeovers := { t with spare := some m.node } :: rest })
          s1.sendGroup m.node 0x08 (leBytes 2 t.index ++ leBytes 4 t.failed ++ leBytes 2 job ++ leBytes 4 step ++
            leBytes 4 (s.roles.holder job t.index))

/-- Fails a member: its index is to be taken over (R379, R382). -/
def State.failMember (s : State) (node : Nat) : State :=
  match s.roles.members.find? (fun m => m.node == node && m.present && !m.failed) with
  | none => s
  | some m =>
    let s1 := s.modMember node (fun m => { m with failed := true, present := false, index := none })
    let new : List Takeover := match m.index with | some i => [⟨i, node, none⟩] | none => []
    let free := fun (t : Takeover) => if t.spare = some node then { t with spare := none } else t
    let s2 := s1.modRoles (fun r => { r with takeovers := r.takeovers.map free ++ new })
    (State.runTakeovers (s2.roles.takeovers.length + 1) s2).ownSpares

/-- MEMBER_FAIL (R379): no heartbeat has arrived from a member for 2 s. -/
def doMemberFail (node : Nat) (s : State) : State :=
  let silent := s.roles.members.any (fun m => m.node == node && decide (m.beat + 100000000 ≤ s.pilot))
  if s.roles.servesGroup && s.roles.formed && silent && s.node != some node then s.failMember node else s

/-- TAKEOVER (R382): a spare takes an index. `shard` is what it read over BXT from the mirror of the node that holds it,
if it could. -/
def doTakeover (p : Fin 16) (f : Frame) (shard : Option (List Byte)) (s : State) : State :=
  match s.takeCtrl p f 0x08 with
  | (s1, none) => s1
  | (s1, some c) =>
    let index := fld c.body 0 2
    let job := fld c.body 6 2
    let step := fld c.body 8 4
    let done := fun (s : State) (reason : Nat) => s.sendGroup c.src 0x09
      (leBytes 2 index ++ leBytes 2 job ++ leBytes 4 step ++ leBytes 2 reason)
    let s2 := s1.modRoles (fun r => { r with groupEpoch := max r.groupEpoch c.epoch })
    if s2.roles.role ≠ 3 then s2
    else match shard, s2.jobs.find? (fun j => j.job == job) with
      | some bs, some j =>
        let n := j.ckptPages * 131072
        if fld c.body 12 4 = 0xFFFFFFFF || bs.length != n || !s2.owns j.x (j.ckptFirst * 131072) n then done s2 0x0524
        else done ((s2.uwrite (j.ckptFirst * 131072) (bs.map (fun b => ⟨b, false⟩))).modRoles (fun r => { r with
          role := 0, index := index })) 0
      | _, _ => done s2 0x0524

/-- TAKEOVER_DONE (R382). -/
def doTakeoverDone (p : Fin 16) (f : Frame) (s : State) : State :=
  match s.takeCtrl p f 0x09 with
  | (s1, none) => s1
  | (s1, some c) =>
    match s1.roles.takeovers with
    | [] => s1
    | t :: rest =>
      if !s1.roles.servesGroup || t.spare != some c.src || t.index != fld c.body 0 2 then s1
      else
        let reason := fld c.body 8 2
        let s2 := s1.modRoles (fun r => { r with takeovers := rest })
        let s3 := if reason = 0 then s2.modMember c.src (fun m => { m with index := some t.index, sparePos := none }) else s2
        let s4 := if reason = 0 then s3.tellRoster t.index c.src (fld c.body 2 2) (fld c.body 4 4) 0x0523
          else s3.tellRoster t.index 0xFFFFFFFF (fld c.body 2 2) (fld c.body 4 4) 0x0524
        (State.runTakeovers (rest.length + 1) s4).ownSpares

/-- ROSTER_UPDATE (R382): a member posts the outcome of a takeover to its context 0. -/
def doRosterUpdate (p : Fin 16) (f : Frame) (s : State) : State :=
  match s.takeCtrl p f 0x07 with
  | (s1, none) => s1
  | (s1, some c) =>
    let b := c.body
    (s1.modRoles (fun r => { r with groupEpoch := max r.groupEpoch (fld b 6 2) })).event 0 (fld b 14 2)
      (detail [(0, 2, fld b 8 2), (2, 2, fld b 0 2), (4, 4, fld b 2 4), (8, 4, fld b 10 4)])

/-- CKPT_HELD (R381). -/
def doCkptHeld (p : Fin 16) (f : Frame) (s : State) : State :=
  match s.takeCtrl p f 0x0A with
  | (s1, none) => s1
  | (s1, some c) =>
    if s1.roles.servesGroup then s1.noteCkpt (fld c.body 0 4) (fld c.body 4 2) (fld c.body 6 4) c.src else s1

/-! ## Heartbeats (R379, R381) -/

/-- Both arrays of a core that holds work of a job context have left service (R379). -/
def State.lostCore (s : State) : Bool :=
  (List.finRange 4).any (fun c =>
    [0, 1].all (fun b => !(s.arr (arrayOf c (ix 2 b))).inService) &&
      s.jobs.any (fun j => let k := s.cc j.x c; decide (0 < k.resSize) || !k.main.isEmpty || !k.eval.isEmpty))

/-- Bytes of a checkpoint index entry in a heartbeat. -/
def ckptBytes (job index step holder : Nat) : List Byte := leBytes 2 job ++ leBytes 2 index ++ leBytes 4 step ++ leBytes 4 holder

/-- The body of a HEARTBEAT: power and cap in watts, fault counts by severity, whether a core of a job has gone, spares left,
the number of checkpoint entries, the barometer periods since the last heartbeat and those of them throttled for power, and the
entries. -/
def State.beatBody (s : State) (entries : List (List Byte)) : List Byte :=
  leBytes 2 s.power.watts ++ leBytes 2 s.power.effCap ++ (s.faults.counts.toList.map (fun n => leBytes 4 n.toNat)).flatten ++
    leBytes 2 (b2n s.lostCore) ++ leBytes 2 s.roles.freeSpares.length ++ leBytes 2 entries.length ++
    leBytes 4 s.power.periods ++ leBytes 4 s.power.shortPeriods ++ entries.flatten

/-- What a heartbeat says of a member's power. -/
def beatOf (b : List Byte) : Beat := { watts := fld b 0 2, periods := fld b 26 4, short := fld b 30 4 }

/-- Fault counts of a heartbeat, by severity. -/
def beatFaults (b : List Byte) : List Nat := (List.range 4).map (fun i => fld b (4 + 4 * i) 4)

/-- A member's heartbeat is noted: its time, its power, of the last second, and its fault counts (R379, R385, R386). -/
def State.noteBeat (s : State) (node : Nat) (b : List Byte) : State :=
  s.modMember node (fun m => { m with beat := s.pilot, beats := (beatOf b :: m.beats).take 10, faults := beatFaults b })

/-- A heartbeat goes out: its time is kept and the counts of throttled periods begin again. A manager notes its own. -/
def State.sentBeat (s : State) : State :=
  let s1 := (s.modRoles (fun r => { r with beatAt := some s.pilot })).modPower (fun p => { p with periods := 0, shortPeriods := 0 })
  if s.roles.servesGroup then s1.noteBeat (s.node.getD 0) (s.beatBody []) else s1

/-- The checkpoint entries of a HEARTBEAT: (job, index, step, holder). -/
def beatEntries (b : List Byte) : List (Nat × Nat × Nat × Nat) :=
  (List.range (fld b 24 2)).map (fun i =>
    let e := (b.drop (34 + 12 * i)).take 12
    (fld e 0 2, fld e 2 2, fld e 4 4, fld e 8 4))

def stepEntries (l : List (Nat × Nat)) : List (List Byte) := l.map (fun e => ckptBytes e.1 0xFFFF e.2 0)

/-- HEARTBEAT_SEND (R379, R381, R385): a member reports to its manager; a group manager to the top manager, and to its
deputy with the checkpoint index. Every second a FAULT_REPORT carries the counts of corrected and deferred records. -/
def doHeartbeatSend (s : State) : State :=
  let r := s.roles
  let due := match r.beatAt with | some t => decide (t + 5000000 ≤ s.pilot) | none => true
  if r.record.isNone || r.readyAt.isNone || !r.welcomed || !due then s
  else
    let s1 := s.sentBeat
    let body := s.beatBody
    let toDeputy := fun (s : State) =>
      let es := r.ckpts.map (fun c => ckptBytes c.job c.index c.step c.holder)
      (if es.isEmpty then [[]] else chunks 600 es).foldl (fun (s : State) g => s.sendGroup (s.role 0x20 4) 0x05 (body g)) s
    let s2 := if r.role = 1 then toDeputy (s1.sendTop r.top 0x05 (s.beatBody (stepEntries r.steps)))
      else if r.role = 2 then toDeputy s1
      else s1.sendGroup r.manager 0x05 (s.beatBody [])
    let second := match r.countsAt with | some t => decide (t + 50000000 ≤ s.pilot) | none => true
    match s.reportTo with
    | some (dst, epoch) =>
      if second then
        (s2.sendCtrl dst 0x0B epoch (leBytes 4 s.faults.counts[0].toNat ++ leBytes 4 s.faults.counts[1].toNat)).modRoles
          (fun r => { r with countsAt := some s.pilot })
      else s2
    | none => s2

/-- A manager of another group has sent a heartbeat: the top manager answers with the restore steps. -/
def State.groupBeat (s : State) (c : Ctrl) : State :=
  let steps := (beatEntries c.body).map (fun e => (e.1, e.2.2.1))
  let s1 := (s.modRoles (fun r => { r with groups := r.groups.map (fun g =>
    if g.group = c.group then { g with node := c.src, beat := s.pilot, spares := fld c.body 22 2
                                       steps := g.steps ++ steps.filter (fun e => !g.steps.contains e) } else g) })).checkSpares c.group
  let s2 := s1.updateRestore
  s2.sendTop c.src 0x05 (s2.beatBody (stepEntries s2.roles.restore))

/-- A member's heartbeat at its manager (R379). -/
def State.memberBeat (s : State) (c : Ctrl) (m : Member) : State :=
  if m.failed || !m.present then s.notice c.src false
  else
    let s1 := s.noteBeat c.src c.body
    if fld c.body 20 2 = 0 then s1 else s1.failMember c.src

/-- HEARTBEAT (R379, R381). -/
def doHeartbeat (p : Fin 16) (f : Frame) (s : State) : State :=
  match s.takeCtrl p f 0x05 with
  | (s1, none) => s1
  | (s1, some c) =>
    let r := s1.roles
    let own := c.group == s1.role 0x10 1
    if !own && r.servesAll then s1.groupBeat c
    else if !own && c.src == r.top then
      let restore := (beatEntries c.body).map (fun e => (e.1, e.2.2.1))
      s1.modRoles (fun r => { r with managerBeat := some s.pilot, asked := false, restore := restore, steps := liveSteps restore r.steps })
    else if own && r.servesGroup then
      match r.members.find? (fun m => m.node == c.src) with
      | some m => s1.memberBeat c m
      | none => s1
    else if own && c.src == r.manager then
      s1.modRoles (fun r => { r with ckpts := (beatEntries c.body).foldl (fun l e =>
        l.filter (fun k => !(k.job == e.1 && k.index == e.2.1)) ++ [⟨e.1, e.2.1, e.2.2.1, e.2.2.2⟩]) r.ckpts })
    else s1

/-! ## Reports and caps (R385, R386) -/

/-- FAULT_REPORT (R385): a manager notes counts, forwards uncontained and fatal records, and fails a member whose record is
fatal (R379). -/
def doFaultReport (p : Fin 16) (f : Frame) (s : State) : State :=
  match s.takeCtrl p f 0x0B with
  | (s1, none) => s1
  | (s1, some c) =>
    if !s1.roles.servesGroup then s1
    else if c.body.length < 296 then
      s1.modMember c.src (fun m => { m with faults := fld c.body 0 4 :: fld c.body 4 4 :: m.faults.drop 2 })
    else
      let sev := byteAt c.body 0xF8 % 4
      let s2 := if s1.roles.role = 1 && decide (2 ≤ sev) then s1.sendTop s1.roles.top 0x0B c.body else s1
      if sev = 3 then s2.failMember c.src else s2

/-- ACTUAL, SOLO and SCHED_WAIT of each core, summed over the contexts, and the seven lull counters. -/
def State.slowBody (s : State) : List Byte :=
  let sum := fun (c : Fin 4) (g : CtxCore → W64) => (List.finRange 16).foldl (fun n x => n + (g (s.cc x c)).toNat) 0
  ((List.finRange 4).map (fun c =>
    leBytes 8 (sum c (·.actual)) ++ leBytes 8 (sum c (·.solo)) ++ leBytes 8 (sum c (·.schedWait)))).flatten ++
  ((List.range 7).map (fun i => leBytes 8 ((List.finRange 16).foldl (fun n x =>
    n + (((s.ctx x).lulls.toList[i]?).getD 0).toNat) 0))).flatten

/-- The values of a SLOW_REPORT. -/
def slowValues (b : List Byte) : List Nat := (List.range 19).map (fun i => fld b (8 * i) 8)

/-- A slow-down ratio, ACTUAL ÷ SOLO summed over the cores, in units of 2^-32; none while SOLO is 0. -/
def slowRatio (v : List Nat) : Option Nat :=
  let at' := fun (i : Nat) => (v[i]?).getD 0
  let solo := at' 1 + at' 4 + at' 7 + at' 10
  if solo = 0 then none else some ((at' 0 + at' 3 + at' 6 + at' 9) * 2 ^ 32 / solo)

/-- The median of some ratios: the mean of the middle two of an even number. -/
def medianOf (l : List Nat) : Nat :=
  let sorted := l.mergeSort (· ≤ ·)
  let n := sorted.length
  (((sorted[(n - 1) / 2]?).getD 0) + ((sorted[n / 2]?).getD 0)) / 2

/-- Takes in a SLOW_REPORT of a member: the third in a row above 1.25 times the median posts 0x0527 once (R385). -/
def State.noteSlow (s : State) (node : Nat) (v : List Nat) : State :=
  let s1 := s.modMember node (fun m => { m with slow := v })
  let median := medianOf ((s1.roles.members.filter (·.present)).filterMap (fun m => slowRatio m.slow))
  let slow := match slowRatio v with | some r => decide (5 * median < 4 * r) | none => false
  match s1.roles.members.find? (fun m => m.node == node) with
  | none => s1
  | some m =>
    let run := if slow then m.slowRun + 1 else 0
    let due := decide (3 ≤ run) && !m.slowPosted
    let s2 := s1.modMember node (fun m => { m with slowRun := run, slowPosted := slow && (m.slowPosted || due) })
    if due then s2.event 0 0x0527 (detail [(0, 4, node)]) else s2

/-- SLOW_REPORT (R385). -/
def doSlowReport (p : Fin 16) (f : Frame) (s : State) : State :=
  match s.takeCtrl p f 0x0C with
  | (s1, none) => s1
  | (s1, some c) => if s1.roles.servesGroup then s1.noteSlow c.src (slowValues c.body) else s1

/-- The 256-byte entry of an index in the report table: SLOW_REPORT, fault counts and heartbeat state. -/
def Member.tableEntry (m : Member) (now : Nat) : List Byte :=
  fitTo 256 (((List.range 19).map (fun i => leBytes 8 ((m.slow[i]?).getD 0))).flatten ++
    ((List.range 4).map (fun i => leBytes 4 ((m.faults[i]?).getD 0))).flatten ++
    leBytes 4 m.node ++ leBytes 8 (now - m.beat) ++ leBytes 2 (match m.beats with | b :: _ => b.watts | [] => 0) ++
    leBytes 2 m.cap ++ leBytes 1 (b2n m.present + 2 * b2n m.failed))

/-- Writes the report table at MGR_TABLE (R385): one entry per index, all zero for a vacant one. The group summary at entry 576 has no layout: its bytes are free. -/
def State.writeTable (s : State) : State :=
  let a := s.role 0x38 8
  if a = 0 ∨ (s.ctx 0).state != .active then s
  else
    let put := fun (s : State) (i : Nat) (bs : List Byte) =>
      if a + 256 * i + 256 ≤ 2 ^ 41 && s.owns 0 (a + 256 * i) 256 then s.uwrite (a + 256 * i) (bs.map (fun b => ⟨b, false⟩)) else s
    let entry := fun (i : Nat) => match s.roles.members.find? (fun m => m.index == some i) with
      | some m => m.tableEntry s.pilot
      | none => zeros 256
    let s1 := (List.range (s.role 0x16 2)).foldl (fun s i => put s i (entry i)) s
    let (n, s2) := s1.occasion
    put s2 576 (fitTo 256 (Config.freeBytes n 256))

/-- SLOW_REPORT_SEND (R385): every 10 s a member sends SLOW_REPORT, and a manager writes its report table. -/
def doSlowReportSend (s : State) : State :=
  let r := s.roles
  let due := match r.slowAt with | some t => decide (t + 500000000 ≤ s.pilot) | none => true
  if r.record.isNone || r.readyAt.isNone || !r.welcomed || !due then s
  else
    let s1 := s.modRoles (fun r => { r with slowAt := some s.pilot })
    if r.servesGroup then (s1.noteSlow (s.node.getD 0) (slowValues s.slowBody)).writeTable
    else s1.sendGroup r.manager 0x0C s.slowBody

/-- CAP_SET (R386, R447): a cap from the own group manager. -/
def doCapSet (p : Fin 16) (f : Frame) (s : State) : State :=
  match s.takeCtrl p f 0x0D with
  | (s1, none) => s1
  | (s1, some c) =>
    let w := fld c.body 0 4
    if c.src ≠ s1.roles.manager then s1
    else if capOk w then s1.modPower (fun p => { p with mgrCap := w })
    else s1.dropWrite 1

/-- A member ran throttled for power in more than 5% of its barometer periods of the last second, and one whose mean draw was below
90% of its cap (R386). -/
def Member.isShort (m : Member) : Bool :=
  decide (m.beats.foldl (fun n b => n + b.periods) 0 < 20 * m.beats.foldl (fun n b => n + b.short) 0)
def Member.isSlack (m : Member) : Bool :=
  !m.beats.isEmpty && decide (10 * (m.beats.foldl (fun n b => n + b.watts) 0) < 9 * m.cap * m.beats.length)

/-- Puts a new cap in a member's entry, and sends it if it changed. -/
def State.setCap (s : State) (old : Nat) (m : Member) : State :=
  let s1 := s.modMember m.node (fun k => { k with cap := m.cap })
  if m.cap = old then s1
  else if s.node == some m.node then s1.modPower (fun p => { p with mgrCap := m.cap })
  else s1.sendGroup m.node 0x0D (leBytes 4 m.cap)

/-- CAP_REVIEW (R386): 32 W go from each slack member, and what is freed is divided among the short ones. -/
def doCapReview (s : State) : State :=
  let r := s.roles
  let due := match r.reviewAt with | some t => decide (t + 50000000 ≤ s.pilot) | none => true
  if !r.servesGroup || !r.formed || !r.installReady || s.role 0x34 4 = 0 || !due then s
  else
    let here := r.members.filter (·.present)
    let lower := fun (m : Member) => if m.isSlack then max 1600 (m.cap - 32) else m.cap
    let freed := here.foldl (fun n m => n + (m.cap - lower m)) 0
    let short := here.filter (·.isShort)
    let first := short.foldl (fun n m => min n (m.index.getD 0xFFFF)) 0xFFFF
    let share := fun (m : Member) => if !m.isShort || short.isEmpty then 0
      else freed / short.length + (if m.index.getD 0xFFFF = first then freed % short.length else 0)
    here.foldl (fun s m => s.setCap m.cap { m with cap := min 3200 (lower m + share m) })
      (s.modRoles (fun r => { r with reviewAt := some s.pilot }))

/-- MEMBER_ATTESTATION (20, R491): a failed attestation posts 0x080B and changes nothing else. -/
def doMemberAttestation (node : Nat) (ok : Bool) (s : State) : State :=
  if s.roles.servesGroup && !ok then s.event 0 0x080B (detail [(0, 4, node)]) else s

end Sys2Proof.Machine
end

