-- ==== Sys2Proof/Machine/Sec.lean ====
section
/-! DEFINITION. Firmware update and the SPDM responder (20, R485 to R491). The manual names the SPDM 1.2 messages without
laying them out: their layouts are those of the DMTF specification (PRESUMED, log 15). -/

namespace Sys2Proof.Machine

open Sys2Proof

def State.modSec (s : State) (f : Sec → Sec) : State := { s with sec := f s.sec }

/-! ## Firmware update (R485 to R488) -/

/-- The bank that an update writes. -/
def Sec.spare (t : Sec) : Fin 2 := if t.running = 0 then 1 else 0

def pieceOp (b : List Byte) : Nat := byteAt b 0
def pieceOffset (b : List Byte) : Nat := fld b 4 4
def pieceTotal (b : List Byte) : Nat := fld b 8 4
def pieceData (b : List Byte) : List Byte := b.drop 64

/-- A piece is refused with 0x080F (R487). -/
def pieceMalformed (b : List Byte) : Bool :=
  decide (2 < pieceOp b) || !zeroRange b 1 3 || !zeroRange b 0xC 0x34 ||
    (if pieceOp b = 0 then
      pieceTotal b == 0 || decide (33554432 < pieceTotal b) || decide (65472 < (pieceData b).length) ||
        decide (pieceTotal b < pieceOffset b + (pieceData b).length)
    else decide (64 < b.length))

/-- The FW_UPDATE packet of a slot with one of some OPs. Reserved OPs go with OP 0. -/
def State.firmwareAt (s : State) (x : Fin 16) (i : Fin 8) (op : Nat) : Option Pkt :=
  (s.packetAt x i 4 (some 0x0E)).bind (fun p =>
    if pieceOp p.pay = op ∨ (op = 0 ∧ 2 < pieceOp p.pay) then some p else none)

/-- FW_UPDATE_WRITE (R485 to R487): the piece waits in the store queue, and its packet with it. -/
def doFwUpdateWrite (x : Fin 16) (i : Fin 8) (s : State) : State :=
  match s.firmwareAt x i 0 with
  | none => s
  | some p =>
    let b := p.pay
    let first := pieceOffset b == 0
    if pieceMalformed b then s.refusePacket x p 0x080F 0
    else if !first && !(pieceOffset b == s.sec.partialImage.length && pieceTotal b == s.sec.partialTotal) then
      s.refusePacket x p 0x0808 0
    else
      let s1 := if first then s.modSec (fun t => { t with partialTotal := pieceTotal b, partialImage := [] }) else s
      (s1.queueRec 0x21 (pieceData b) (some (x, i, p.seq))).acceptPacket x p

/-- The image of a complete stream: its manifest record, then the H1 firmware and the lamplighter image (R485). -/
def imageOf (bs : List Byte) : Image :=
  let m := recBody bs
  { version := BitVec.ofNat 32 (fld m 0 4), svn := fld bs 0xC 4, floor := fld m 4 4, h1 := (m.drop 0x10).take 64
    ll := (m.drop 0x50).take 64 }

/-- The checks of R478 and R481 on a complete image: the reason of the first that fails, or 0. -/
def State.imageReason (s : State) (bs : List Byte) : Nat :=
  let rec' := bs.take (640 + fld bs 8 4)
  let m := recBody bs
  let h1 := fld m 8 4
  let ll := fld m 12 4
  let rest := bs.drop rec'.length
  let head := s.recordReason rec' [1]
  if head ≠ 0 then head
  else if m.length ≠ 0x90 then 0x0802
  else if fld bs 0xC 4 < s.sec.floor then 0x0804
  else if rest.length ≠ h1 + ll then 0x0809
  else if sha512 (rest.take h1) ≠ (m.drop 0x10).take 64 ∨ sha512 (rest.drop h1) ≠ (m.drop 0x50).take 64 then 0x0809
  else 0

/-- FW_UPDATE_ACTIVATE (R486): a complete image that passes its checks waits for its pointer page. -/
def doFwUpdateActivate (x : Fin 16) (i : Fin 8) (s : State) : State :=
  match s.firmwareAt x i 1 with
  | none => s
  | some p =>
    let t := s.sec
    if pieceMalformed p.pay then s.refusePacket x p 0x080F 0
    else if t.partialTotal = 0 ∨ t.partialImage.length ≠ t.partialTotal then s.refusePacket x p 0x080C 0
    else
      let reason := s.imageReason t.partialImage
      let s1 := s.modSec (fun t => { t with partialTotal := 0, partialImage := [] })
      if reason ≠ 0 then s1.refusePacket x p reason 0
      else ((s1.modSec (fun u => { u with staged := true, image := some (imageOf t.partialImage, recGen t.partialImage) })).queueRec
        0x22 [] (some (x, i, p.seq))).acceptPacket x p

/-- FW_UPDATE_ABANDON (R487). -/
def doFwUpdateAbandon (x : Fin 16) (i : Fin 8) (s : State) : State :=
  match s.firmwareAt x i 2 with
  | none => s
  | some p =>
    if pieceMalformed p.pay then s.refusePacket x p 0x080F 0
    else
      let drop := fun (s : State) => s.modSec (fun t => { t with partialTotal := 0, partialImage := [] })
      if s.sec.hubResetAt.isSome then s.donePacket x p
      else if s.sec.pendingModule then ((drop s).queueRec 0x23 [] (some (x, i, p.seq))).acceptPacket x p
      else ((drop s).modSec (fun t => { t with staged := false, image := none })).donePacket x p

/-- The packet that a store record carries finishes (R485), if its slot still holds it. -/
def State.finishStored (s : State) (r : StoreRec) : State :=
  match r.packet with
  | none => s
  | some (x, i, seq) =>
    let m := (s.ctx x).slots[i]
    if m.state == .accepted && m.seq == seq then s.donePacket x (m.pkt i) else s

/-- The pointer page of an activated image verifies (R486): the bank becomes current, and a hub reset follows in 1 ms when
the H1 firmware is the running one. -/
def State.activateImage (s : State) : State :=
  match s.sec.image with
  | none => s
  | some (img, gen) =>
    let b := s.sec.spare
    let same := img.h1 == (s.sec.banks[s.sec.running]).h1
    s.modSec (fun t => { t with
      banks := t.banks.set b img, boot := b, image := none, pendingModule := !same
      gens := ainsert 1 (max gen ((alookup 1 t.gens).getD 0)) t.gens
      hubResetAt := if same then some (s.pilot + 50000) else t.hubResetAt })

/-- The current bank's image runs from here on (R486). -/
def Sec.runBoot (t : Sec) : Sec :=
  { t with running := t.boot, staged := false, pendingModule := false, image := none, hubResetAt := none }

/-- The SVN floor rises to the FLOOR of the running image (R488). -/
def Sec.raiseFloor (t : Sec) : Sec := { t with floor := max t.floor (t.banks[t.running]).floor }

/-! ## SPDM responder (R489 to R491) -/

/-- Request codes of the seven requests that the device supports. -/
def spdmCodes : List Nat := [0x84, 0xE1, 0xE3, 0x81, 0x82, 0x83, 0xE0]

/-- A message header: version, code and two parameters. -/
def spdmHead (version code p1 p2 : Nat) : List Byte := leBytes 1 version ++ leBytes 1 code ++ leBytes 1 p1 ++ leBytes 1 p2

/-- ERROR with a code: 0x01 InvalidRequest, 0x03 Busy, 0x04 UnexpectedRequest, 0x07 UnsupportedRequest. -/
def spdmError (code : Nat) : List Byte := spdmHead 0x12 0x7F code 0

/-- The requester of a message, its bytes, and whether it came over BXT. -/
structure SpdmMsg where
  who : Nat
  bytes : List Byte
  bxt : Bool
  deriving DecidableEq, Repr

/-- Sends a response to its requester. -/
def State.spdmAnswer (s : State) (m : SpdmMsg) (bs : List Byte) : State :=
  let s1 := s.modSec (fun t => { t with spdmOut := t.spdmOut ++ [(m.who, bs)] })
  if m.bxt then s1.enqueue none none none (s1.frame 6 3 0xFFFF (m.who - 1) (pad64 bs)) else s1

/-- Gives a BXT requester one of the 16 places: its own, a free one, or that of a requester idle for 10 s (R491). -/
def Sec.spdmPlace (t : Sec) (who now : Nat) : Option Sec :=
  if t.spdm.any (fun q => q.who == who) then
    some { t with spdm := t.spdm.map (fun q => if q.who = who then { q with last := now } else q) }
  else
    let new : Spdm := { who := who, stage := 0, last := now }
    let full := decide (16 ≤ (t.spdm.filter (fun q => q.who != 0)).length)
    if who = 0 ∨ !full then some { t with spdm := t.spdm ++ [new] }
    else match t.spdm.find? (fun q => q.who != 0 && decide (q.last + 500000000 ≤ now)) with
      | some old => some { t with spdm := t.spdm.filter (fun q => q.who != old.who) ++ [new] }
      | none => none

/-- How far a requester's negotiation has come. -/
def Sec.spdmStage (t : Sec) (who : Nat) : Nat := match t.spdm.find? (fun q => q.who == who) with | some q => q.stage | none => 0

def Sec.setStage (t : Sec) (who stage : Nat) : Sec :=
  { t with spdm := t.spdm.map (fun q => if q.who = who then { q with stage := stage } else q) }

/-- Takes in a request: the DOE mailbox answers while H0 runs, and an ATTEST frame passes its flow first. -/
def State.spdmTake (s : State) (r : SpdmReq) : State × Option SpdmMsg :=
  match r with
  | .doe msg => (s, if s.hubUp then some { who := 0, bytes := msg, bxt := false } else none)
  | .bxt p f =>
    if f.kind != 6 || f.channel != 3 then (s, none)
    else match s.receive p f with
      | (s1, false) => (s1, none)
      | (s1, true) => (s1, some { who := f.src + 1, bytes := f.payload, bxt := true })

/-- Serves a request of one code that needs a negotiation stage; others are left alone but for codes the device does not
support, which receive ERROR UnsupportedRequest. -/
def State.spdm (s : State) (r : SpdmReq) (code need : Nat) (f : State → SpdmMsg → State) : State :=
  let m := match r with | .doe msg => msg | .bxt _ fr => fr.payload
  let c := byteAt m 1
  if c != code && spdmCodes.contains c then s
  else match s.spdmTake r with
    | (s1, none) => s1
    | (s1, some q) =>
      match s1.sec.spdmPlace q.who s.pilot with
      | none => s1.spdmAnswer q (spdmError 3)
      | some t =>
        let s2 := s1.modSec (fun _ => t)
        if c ≠ code then s2.spdmAnswer q (spdmError 7)
        else if t.spdmStage q.who < need then s2.spdmAnswer q (spdmError 4)
        else f s2 q

/-- GET_VERSION: version 1.2; the negotiation begins anew. -/
def doGetVersion (r : SpdmReq) (s : State) : State :=
  s.spdm r 0x84 0 (fun s q => (s.modSec (fun t => t.setStage q.who 1)).spdmAnswer q
    (spdmHead 0x10 0x04 0 0 ++ leBytes 1 0 ++ leBytes 1 1 ++ leBytes 2 0x1200))

/-- GET_CAPABILITIES: CTExponent 16; certificates, challenge and signed measurements. The transfer sizes are free. -/
def doGetCapabilities (r : SpdmReq) (s : State) : State :=
  s.spdm r 0xE1 1 (fun s q =>
    let (n, s1) := s.occasion
    (s1.modSec (fun t => t.setStage q.who 2)).spdmAnswer q
      (spdmHead 0x12 0x61 0 0 ++ leBytes 1 0 ++ leBytes 1 16 ++ leBytes 2 0 ++ leBytes 4 0x16 ++
        leBytes 4 (Config.freeWord n).toNat ++ leBytes 4 (Config.freeWord n).toNat))

/-- NEGOTIATE_ALGORITHMS: RSA-PSS with 4,096 bits and SHA-512, where the requester offers them. -/
def doNegotiateAlgorithms (r : SpdmReq) (s : State) : State :=
  s.spdm r 0xE3 2 (fun s q =>
    let asym := Nat.land (fld q.bytes 8 4) 0x40
    let hash := Nat.land (fld q.bytes 12 4) 0x04
    (s.modSec (fun t => t.setStage q.who 3)).spdmAnswer q
      (spdmHead 0x12 0x63 0 0 ++ leBytes 2 36 ++ leBytes 1 1 ++ leBytes 1 0 ++ leBytes 4 0x08 ++ leBytes 4 asym ++
        leBytes 4 hash ++ zeros 12 ++ leBytes 1 0 ++ leBytes 1 0 ++ leBytes 2 0))

/-- GET_DIGESTS: the digest of the chain in slot 0. -/
def doGetDigests (r : SpdmReq) (s : State) : State :=
  s.spdm r 0x81 3 (fun s q => s.spdmAnswer q (spdmHead 0x12 0x01 0 1 ++ sha512 Config.certChain))

/-- GET_CERTIFICATE: a portion of the chain in slot 0; over BXT at most 4,096 bytes. -/
def doGetCertificate (r : SpdmReq) (s : State) : State :=
  s.spdm r 0x82 3 (fun s q =>
    let off := fld q.bytes 4 2
    let len := fld q.bytes 6 2
    if byteAt q.bytes 2 % 16 ≠ 0 ∨ (q.bxt ∧ 4096 < len) ∨ Config.certChain.length < off then s.spdmAnswer q (spdmError 1)
    else
      let part := (Config.certChain.drop off).take len
      s.spdmAnswer q (spdmHead 0x12 0x02 0 0 ++ leBytes 2 part.length ++
        leBytes 2 (Config.certChain.length - off - part.length) ++ part))

/-- Index 9: STEPPING, SVN floor and running SVN. -/
def State.svnBlock (s : State) : List Byte :=
  leBytes 2 0x00A1 ++ leBytes 4 s.sec.floor ++ leBytes 4 (s.sec.banks[s.sec.running]).svn

/-- The digest of the current record of a kind, or 64 zero bytes. -/
def Sec.recordDigest (t : Sec) (kind : Nat) : List Byte :=
  match alookup kind t.records with | some r => sha512 r | none => zeros 64

/-- The value of a measurement index (Table 20.7), and its type in the DMTF format. -/
def State.measurement (s : State) (i : Nat) : Nat × List Byte :=
  let img := s.sec.banks[s.sec.running]
  match i with
  | 1 => (0x00, Config.bootRomHash)
  | 2 => (0x01, img.h1)
  | 3 => (0x01, img.ll)
  | 4 => (0x02, s.sec.recordDigest 3)
  | 5 => (0x02, s.sec.recordDigest 4)
  | 6 => (0x02, s.sec.recordDigest 5)
  | 7 => (0x03, s.sec.recordDigest 6)
  | 8 => (0x03, s.sec.recordDigest 8)
  | _ => (0x83, s.svnBlock)

/-- A measurement block in the DMTF format. -/
def State.measurementBlock (s : State) (i : Nat) : List Byte :=
  let (t, v) := s.measurement i
  leBytes 1 i ++ leBytes 1 1 ++ leBytes 2 (v.length + 3) ++ leBytes 1 t ++ leBytes 2 v.length ++ v

/-- CHALLENGE (R491): nonce and signature are values of the signing engine, which the manual does not fix. -/
def doChallenge (r : SpdmReq) (s : State) : State :=
  s.spdm r 0x83 3 (fun s q =>
    if byteAt q.bytes 2 ≠ 0 then s.spdmAnswer q (spdmError 1)
    else
      let (n, s0) := s.occasion
      let (m, s1) := s0.occasion
      let summary := if byteAt q.bytes 3 = 0 then [] else
        sha512 (((List.range 9).map (fun i => s.measurementBlock (i + 1))).flatten)
      s1.spdmAnswer q (spdmHead 0x12 0x03 0 1 ++ sha512 Config.certChain ++ fitTo 32 (Config.freeBytes n 32) ++ summary ++
        leBytes 2 0 ++ fitTo 512 (Config.freeBytes m 512)))

/-- GET_MEASUREMENTS (R490). -/
def doGetMeasurements (r : SpdmReq) (s : State) : State :=
  s.spdm r 0xE0 3 (fun s q =>
    let i := byteAt q.bytes 3
    let signed := bit (byteAt q.bytes 2) 0
    if 9 < i ∧ i ≠ 0xFF then s.spdmAnswer q (spdmError 1)
    else
      let (n, s0) := s.occasion
      let (m, s1) := s0.occasion
      let is := if i = 0 then [] else if i = 0xFF then (List.range 9).map (· + 1) else [i]
      let rec' := (is.map s.measurementBlock).flatten
      s1.spdmAnswer q (spdmHead 0x12 0x60 (if i = 0 then 9 else 0) 0 ++ leBytes 1 is.length ++ leBytes 3 rec'.length ++
        rec' ++ fitTo 32 (Config.freeBytes n 32) ++ leBytes 2 0 ++
        (if signed then fitTo 512 (Config.freeBytes m 512) else [])))

end Sys2Proof.Machine
end

