-- ==== Sys2Proof/Machine/Status.lean ====
section
/-! DEFINITION. What a reader sees: status registers and counters of the module and block windows (21), and the structures
that QUERY returns (11, R269, R281; 12, R313, R325; 13, R344; 17, R437). -/

namespace Sys2Proof.Machine

open Sys2Proof

/-- A structure of n bytes with its fields at their offsets. -/
def layout (n : Nat) (fs : List (Nat × List Byte)) : List Byte := fs.foldl (fun d f => putBytes d f.1 f.2) (zeros n)

/-- A number whose bit i is set where the i-th flag is. -/
def mask (bs : List Bool) : Nat := bs.zipIdx.foldl (fun n b => n + b2n b.1 * 2 ^ b.2) 0

/-! ## Context status (Table 13.4) -/

def CtxState.code : CtxState → Nat
  | .none => 0
  | .active => 1
  | .destroying => 2
  | .killed => 3

/-- Commands of a class of a context that run on a core. -/
def State.runningOn (s : State) (x : Fin 16) (c : Fin 4) (ev : Bool) : Nat :=
  match (s.core c).running with
  | some r => b2n (r.x == x && r.cmd.eval == ev)
  | none => 0

/-- The 64 bytes of a core block of Table 13.4. -/
def CtxCore.status (k : CtxCore) : List Byte :=
  leBytes 4 k.budget ++ leBytes 4 k.remaining ++ leBytes 8 k.debt ++ leBytes 8 k.actual.toNat ++ leBytes 8 k.solo.toNat ++
    leBytes 8 k.schedWait.toNat ++ leBytes 8 k.testWait.toNat ++ leBytes 8 k.evalCycles.toNat ++ leBytes 4 k.skips.toNat ++
    zeros 4

/-- QUERY 0x01 (R344). -/
def State.contextStatus (s : State) (x : Fin 16) : List Byte :=
  let k := s.ctx x
  let depth := (List.finRange 4).map (fun c => (s.cc x c).main.length + s.runningOn x c false) ++
    [k.fabric.length + k.fabricRun.length, k.memory.length + k.memoryRun.length]
  layout 1536 ([
    (0x000, [BitVec.ofNat 8 k.state.code]), (0x002, leBytes 2 k.lastReason), (0x004, leBytes 4 k.seqExpect.toNat),
    (0x008, depth.flatMap (leBytes 2)),
    (0x014, (List.finRange 4).flatMap (fun c => leBytes 2 ((s.cc x c).eval.length + s.runningOn x c true))),
    (0x020, k.tokens.toList.flatMap (fun t => leBytes 4 t.toNat)),
    (0x420, k.cores.toList.flatMap CtxCore.status),
    (0x520, k.lulls.toList.flatMap (fun t => leBytes 8 t.toNat))])

/-! ## Slots (Table 12.19), tiers (Table 11.4), home map (Table 11.1) -/

def TokState.code : TokState → Nat
  | .empty => 0
  | .filling => 1
  | .full => 2
  | .draining => 3

/-- The 8 bytes of a slot; none for one beyond COUNT. -/
def slotStatus : Option TokSlot → List Byte
  | none => 0xFF#8 :: zeros 7
  | some t =>
    let tok := fun (n : Nat) => if t.raw then 0 else n
    [BitVec.ofNat 8 (tok t.state.code), BitVec.ofNat 8 (b2n t.raw), BitVec.ofNat 8 t.readers, BitVec.ofNat 8 (tok t.claims)] ++
      leBytes 4 (tok t.fills.toNat)

/-- QUERY 0x03 (R325). -/
def State.slotsStatus (s : State) (x : Fin 16) (c : Fin 4) : List Byte :=
  let q := s.cc x c
  let t := q.table
  let f := s.feed c
  let counters := [q.rawCollide.toNat, q.starveWait.toNat, q.overrunEvents.toNat, f.bankDefer.toNat, f.cacheHit.toNat,
    f.cacheMiss.toNat, f.ce.toNat, f.ue.toNat]
  layout 592 [
    (0x000, leBytes 1 t.slots.length), (0x002, leBytes 2 (if t.starveUs = 0 then 1000 else t.starveUs)),
    (0x004, leBytes 2 (if t.overrunMs = 0 then 100 else t.overrunMs)),
    (0x010, (List.range 64).flatMap (fun i => slotStatus t.slots[i]?)), (0x210, counters.flatMap (leBytes 8))]

/-- QUERY 0x04: the counters of Table 11.4 in its order, those of stacks and channels by index. -/
def State.tierStatus (s : State) (x : Fin 16) : List Byte :=
  ([s.nearUse x, s.deepUse x, s.deepBytes x] ++ (List.finRange 12).map s.freeFrames ++ [s.freeSlots] ++
    (List.range 16).map s.freeGranules ++ [(s.ctx x).moves.toNat, (s.ctx x).aborts.toNat]).flatMap (leBytes 8)

/-- Kind, stack and location of a home. -/
def Home.fields : Home → Nat × Nat × Nat
  | .placed n f => (0, n.val, f)
  | .spread k => (1, 0, k)
  | .deep => (2, 0, 0)

/-- The 16 bytes of a home-map entry. -/
def HomeEntry.encode (e : HomeEntry) : List Byte :=
  let (kind, _, loc) := e.home.fields
  let (dkind, dstack, dloc) := match e.dest with | some d => d.fields | none => (0, 0, 0)
  [BitVec.ofNat 8 ((if e.dest.isSome then 2 else 1) + 4 * kind + 16 * dkind + 64 * b2n e.pinned), BitVec.ofNat 8 e.owner.val,
    BitVec.ofNat 8 (e.prefStack + 16 * e.prefKind), BitVec.ofNat 8 (dstack + 16 * e.aborts)] ++
    leBytes 4 loc ++ leBytes 4 dloc ++ leBytes 4 e.switches.toNat

/-- The entry of a page as a context may see it (R313). -/
def State.homeStatus (s : State) (x : Fin 16) (p : Nat) : List Byte :=
  match s.homeOf p with
  | some e => if e.owner = x then e.encode else zeros 16
  | none => zeros 16

/-- An almanac entry as it stands. -/
def State.almanacStatus (s : State) (x : Fin 16) (i : Nat) : List Byte :=
  match (s.ctx x).almanac with
  | some a => (alookup i a.entries).getD (zeros 256)
  | none => zeros 256

/-! ## Module window (Tables 17.9, 18.5, 19.8, 20.8, 21.8 and 21.9) -/

def State.nodeInfo (s : State) : Nat :=
  s.node.getD 0 + 2 ^ 24 * b2n s.roles.record.isNone + 2 ^ 25 * (s.roles.role % 4)

/-- FW_VERSION: the running lamplighter firmware. -/
def State.fwVersion (s : State) : Nat := (s.sec.banks[s.sec.running]).version.toNat

def State.modStatus (s : State) : Nat :=
  mask ((s.arrays.toList.map (·.inService)) ++ s.cores.toList.map (·.inService) ++
    s.links.toList.flatMap (fun l => l.ports.toList.map (·.inService)) ++ [s.clock.ready, s.faults.fatal])

def State.modStatus2 (s : State) : Nat :=
  mask ((List.range 12).map (fun i => s.blks[ix 36 (18 + i)].enabled) ++
    (List.range 2).map (fun i => s.blks[ix 36 (30 + i)].enabled) ++ [false, false] ++
    s.hub.ctxs.toList.map (fun k => k.state != .none))

def State.faultStatus (s : State) : Nat :=
  let f := s.faults
  b2n f.fatal + f.causes + 16 * b2n f.holdupLow + 65536 * f.fill

def State.holdupStatus (s : State) : Nat := s.faults.vMv % 65536 + 65536 * (s.faults.cUf % 65536)

def State.pwrCap (s : State) : Nat := s.power.hostCap + 4096 * s.power.mgrCap

def State.pwrStatus (s : State) : Nat :=
  let p := s.power
  p.effCap + 4096 * p.capDuty + 2 ^ 19 * b2n (decide (p.capDuty < 64)) +
    2 ^ 20 * b2n (p.rails.toList.any (fun r => decide (r.duty < 64))) +
    2 ^ 21 * b2n (s.cores.toList.any (fun k => decide (k.thermalDuty < 64))) + 2 ^ 22 * b2n (p.rails.toList.any (·.measOnly))

def State.clkCtrl (s : State) : Nat :=
  b2n s.clock.returnEn + 2 * b2n s.clock.linkRefEn + 256 * s.clock.refLane + 65536 * s.clock.idleUs

def State.clkStatus (s : State) : Nat :=
  let k := s.clock
  k.source.val + 4 * b2n k.limited + 8 * b2n k.sources[0].failed + 16 * b2n k.sources[1].failed +
    32 * (k.sources[k.source].failRun % 4) + 256 * k.oscDly

/-- A module reset has been asked for and has not run. -/
def State.moduleAsked (s : State) : Bool := match s.clock.resetting with | some (.module, _) => true | _ => false

def State.startStatus (s : State) : Nat :=
  b2n s.clock.ready + 2 * s.clock.lastReset + 16 * s.clock.stage + 65536 * s.clock.startReason

def State.secStatus (s : State) : Nat :=
  let t := s.sec
  b2n t.identityOk + 2 * b2n t.ownerKey.isSome + 4 * t.running.val + 8 * b2n t.staged + 16 * b2n t.pendingModule +
    256 * (t.floor % 256) + 65536 * ((t.banks[t.running]).svn % 256)

def State.coreStatus (s : State) (c : Fin 4) : Nat :=
  let k := s.core c
  b2n k.inService + 2 * b2n k.quarantined + 4 * b2n k.singleArray + 8 * b2n (s.power.domains[coreDomain c].st == .running) +
    16 * s.level c + 64 * b2n k.span.isSome + 128 * k.current.val + 2048 * b2n k.running.isNone + 4096 * k.thermalDuty

/-- Groups of an array with SPARE_USED set. -/
def ArrayS.sparesUsed (t : ArrayS) : Nat := (((t.map.drop 0x10).take 128).filter (fun b => b.getLsbD 7)).length

def State.arrayStatus (s : State) (a : Fin 8) : Nat :=
  let t := s.arr a
  b2n t.inService + 2 * b2n t.degraded + 4 * b2n t.witnessFlagged + 8 * b2n t.cold + 16 * t.duty + 2048 * t.sparesUsed

def FeedS.areas (f : FeedS) : Nat := f.t + 65536 * f.c

/-- QUERY 0x07 (R325). -/
def State.moduleStatus (s : State) : List Byte :=
  let w := fun (o n : Nat) => (o, leBytes 4 n)
  layout 256 ([w 0 0x010800A1, w 4 s.fwVersion, w 8 s.nodeInfo, w 0xC (s.role 8 4), (0x40, s.deviceId), w 0x80 s.modStatus,
    w 0x84 s.modStatus2, w 0x88 s.faultStatus, w 0x8C s.pwrStatus, w 0x90 s.clkStatus, w 0x94 s.startStatus, w 0x98 s.secStatus] ++
    (List.finRange 4).map (fun c => w (0xA0 + 4 * c.val) (s.coreStatus c)) ++
    (List.finRange 8).map (fun a => w (0xB0 + 4 * a.val) (s.arrayStatus a)) ++
    (List.finRange 4).map (fun c => w (0xD0 + 4 * c.val) (s.feed c).areas))

/-- QUERY 0x08 (R437): an entry at a pitch of 320 bytes, zeros where its position holds another. -/
def State.ringStatus (s : State) (rseq : W32) : List Byte :=
  match s.faults.entry rseq with
  | some e => s.cper e ++ zeros 24
  | none => zeros 320

/-- The context bank of Table 21.10 (R502). -/
def State.ctxBank (s : State) (x : Fin 16) : List Byte :=
  layout 512 [(0, ((s.contextStatus x).drop 0x420).take 0x138), (0x140, leBytes 4 (s.nearUse x)), (0x144, leBytes 4 (s.deepUse x)),
    (0x148, leBytes 8 (s.deepBytes x)), (0x150, leBytes 8 (s.ctx x).moves.toNat), (0x158, leBytes 8 (s.ctx x).aborts.toNat)]

/-! ## Windows (R492, R498, R503) -/

/-- A register: its offset, its width in bytes, and its value. -/
abbrev Reg := Nat × Nat × Nat

def r32 (o v : Nat) : Reg := (o, 4, v)
def r64 (o v : Nat) : Reg := (o, 8, v)

/-- Bytes as registers of four bytes. -/
def bytesRegs (o : Nat) (bs : List Byte) : List Reg := (chunks 4 bs).zipIdx.map (fun c => r32 (o + 4 * c.2) (leNat c.1))

/-- 64-bit registers of a context bank: offsets within it. -/
def bankWide (o : Nat) : Bool :=
  if o < 0x100 then decide (8 ≤ o % 64) && decide (o % 64 < 0x38) else decide (o < 0x138) || (decide (0x148 ≤ o) && decide (o < 0x160))

/-- The register of a context bank that holds an offset. -/
def State.bankReg (s : State) (x : Fin 16) (o : Nat) : Reg :=
  let n := if bankWide o then 8 else 4
  let at' := o / n * n
  (0x2000 + 0x200 * x.val + at', n, fld (s.ctxBank x) at' n)

/-- The registers of the module window but the context banks (Table 21.8). -/
def State.modRegs (s : State) : List Reg :=
  [r32 0x0 0x010800A1, r32 0x4 s.fwVersion, r32 0x8 s.nodeInfo] ++ bytesRegs 0x40 s.deviceId ++
  [r32 0x80 s.modStatus, r32 0x84 s.modStatus2, r32 0x88 s.board.hostDropped.toNat, r64 0x90 poisonMask, r32 0x98 s.freeSlots,
   r32 0x100 s.faultStatus, r32 0x104 s.holdupStatus, r32 0x110 s.pwrCap, r32 0x114 s.pwrStatus, r32 0x120 s.clkCtrl,
   r32 0x124 s.clkStatus, r32 0x130 (b2n s.moduleAsked), r32 0x134 s.startStatus, r32 0x140 s.secStatus]

/-- Block type and instance (Tables 21.2 and 21.3). -/
def blockId (b : Fin 36) : Nat × Nat :=
  let i := b.val
  if i < 2 then (i + 1, 0) else if i < 6 then (3, i - 2) else if i < 10 then (4, i - 6) else if i < 18 then (5, i - 10)
  else if i < 30 then (6, i - 18) else if i < 32 then (7, i - 30) else (8, i - 32)

/-- ENABLED of a block (R498). -/
def State.blkEnabled (s : State) (b : Fin 36) : Bool :=
  if b.val < 2 then true else if b.val < 6 then (s.core (ix 4 (b.val - 2))).inService else s.blks[b].enabled

/-- BLK_STATUS (Table 21.4). -/
def State.blkStatus (s : State) (b : Fin 36) : Nat :=
  let k := s.blks[b]
  b2n (s.blkEnabled b) + 2 * b2n k.updatePending + 4 * b2n k.checking + 65536 * k.reason

/-- The control register of a block as it reads: shadow values of RWS fields (00, R10; Tables 10.7, 14.2, 16.7, 21.7). -/
def State.ctrlReg (s : State) (b : Fin 36) : Nat :=
  let e := b2n s.blks[b].enable
  let (kind, n) := blockId b
  match kind with
  | 3 =>
    let t := (s.core (ix 4 n)).ift
    b2n t.runNow + 2 * b2n t.due + 4 * b2n t.forced + 256 * t.periodNext
  | 6 =>
    let t := s.stack (ix 12 n)
    e + 2 * t.ctrl.loopback + 16 * b2n t.ctrl.eraseEn + 256 * t.shadow.wcbAge + 1024 * t.shadow.wcbHigh + 16384 * t.shadow.scrubH
  | 7 => e + 256 * s.tiers.deepLowNext[ix 2 n]
  | 8 =>
    let k := s.links[ix 4 n]
    e + 16 * k.payMax + 64 * b2n k.vlanEn + 256 * k.vlanId + 2 ^ 20 * k.vlanPcp
  | 4 => e
  | 5 => e
  | _ => 0

/-- RAIL_STATUS (Table 18.6). -/
def Rail.status (k : Rail) : Nat :=
  k.statEst % 4096 + 4096 * (k.statMeas % 4096) + 2 ^ 24 * b2n k.measOnly + 2 ^ 25 * b2n k.overLim + 2 ^ 26 * b2n k.fixed

/-- Registers at a stride. -/
def regs32 (o stride : Nat) (vs : List Nat) : List Reg := vs.zipIdx.map (fun v => r32 (o + stride * v.2) v.1)

def regs64 (o stride : Nat) (vs : List Nat) : List Reg := vs.zipIdx.map (fun v => r64 (o + stride * v.2) v.1)

/-- The registers of the H1 window (Table 21.11). -/
def State.h1Regs (s : State) : List Reg :=
  let p := s.power
  let k := s.clock
  let f := s.faults
  regs32 0x200 4 (p.rails.toList.map Rail.status) ++ regs32 0x280 4 (p.rails.toList.map (·.drifts.toNat)) ++
    regs32 0x300 4 (p.domains.toList.map (·.starts.toNat)) ++ [r64 0x340 p.peak.toNat] ++
    regs32 0x360 4 (k.sources.toList.map (·.switches.toNat)) ++ regs32 0x370 4 (k.sources.toList.map (·.failedWindows.toNat)) ++
    [r32 0x380 f.rseqNext.toNat] ++ regs32 0x384 4 (f.lost.toList.map (·.toNat)) ++
    [r64 0x3A0 f.storeBatches.toNat, r64 0x3A8 f.storeDeferrals.toNat, r32 0x3B0 f.histFull.toNat]

/-- The registers of a core window. -/
def State.coreRegs (s : State) (c : Fin 4) : List Reg :=
  let k := s.core c
  [r32 0x104 (s.coreStatus c), r32 0x200 k.ift.runs.toNat, r32 0x204 k.ift.fails.toNat, r64 0x208 k.staggerWait.toNat] ++
    (List.finRange 16).flatMap (fun x =>
      [r64 (0x1000 + 16 * x.val) (s.cc x c).replays.toNat, r64 (0x1008 + 16 * x.val) (s.cc x c).replayCycles.toNat])

/-- The registers of a feed window. -/
def State.feedRegs (s : State) (c : Fin 4) : List Reg :=
  let f := s.feed c
  [r32 0x108 f.areas, r64 0x200 f.bankDefer.toNat, r64 0x208 f.cacheHit.toNat, r64 0x210 f.cacheMiss.toNat, r32 0x218 f.ce.toNat,
    r32 0x21C f.ue.toNat, r32 0x220 f.parity.toNat] ++
    regs64 0x240 8 [f.census.total.toNat, f.census.zero.toNat, f.census.sat.toNat, f.census.nf.toNat] ++
    (List.finRange 16).flatMap (fun x =>
      let q := s.cc x c
      [r32 (0x1000 + 32 * x.val) q.rawCollide.toNat, r32 (0x1004 + 32 * x.val) q.overrunEvents.toNat,
        r64 (0x1008 + 32 * x.val) q.starveWait.toNat])

/-- The registers of an array window (R504 for the map). -/
def State.arrayRegs (s : State) (a : Fin 8) : List Reg :=
  let t := s.arr a
  [r32 0x104 (s.arrayStatus a), r64 0x200 t.checks.toNat, r64 0x208 t.skip.toNat, r32 0x210 t.disagree.toNat,
    r32 0x214 t.parity.toNat] ++ regs64 0x218 8 [t.railThrottle.toNat, t.capThrottle.toNat, t.thermThrottle.toNat] ++
    bytesRegs 0x400 t.map

/-- The registers of a stack window but LANE_ERR. -/
def State.stackRegs (s : State) (n : Fin 12) : List Reg :=
  let t := s.stack n
  [r64 0x200 t.ce.toNat, r32 0x208 t.ue.toNat, r32 0x20C (s.freeFrames n), r64 0x210 t.fullFlush.toNat,
    r64 0x218 t.rmwFlush.toNat, r32 0x220 t.parity.toNat] ++ bytesRegs 0x400 t.map

/-- The registers of a deep window. -/
def State.deepRegs (s : State) (d : Fin 2) : List Reg :=
  let ch := fun (c : Nat) => 8 * d.val + c
  regs32 0x200 4 ((List.range 8).map (fun c => s.freeGranules (ch c))) ++
    [r64 0x220 ((List.range 8).foldl (fun n c => n + s.tiers.deepCe[ix 16 (ch c)].toNat) 0),
     r32 0x228 ((List.range 8).foldl (fun n c => n + s.tiers.deepUe[ix 16 (ch c)].toNat) 0), r32 0x22C s.tiers.parity[d].toNat]

/-- The registers of a link window. -/
def State.linkRegs (s : State) (l : Fin 4) : List Reg :=
  let k := s.links[l]
  let flags := fun (f : Port → Bool) => mask (k.ports.toList.map f)
  [r32 0x104 (k.etype + 65536 * k.retxUs),
    r32 0x108 (flags (·.inService) + 16 * flags (·.training) + 256 * flags (·.retired)),
    r64 0x200 k.rxDiscard.toNat, r64 0x208 k.rxDup.toNat, r32 0x210 k.parity.toNat]

/-- The registers of a block window after its header. -/
def State.blkRegs (s : State) (b : Fin 36) : List Reg :=
  let (kind, n) := blockId b
  match kind with
  | 1 => [r64 0x200 s.clock.beats.toNat, r32 0x208 s.hub.parity.toNat, r32 0x20C s.board.pcieStatus.toNat]
  | 2 => s.h1Regs
  | 3 => s.coreRegs (ix 4 n)
  | 4 => s.feedRegs (ix 4 n)
  | 5 => s.arrayRegs (ix 8 n)
  | 6 => s.stackRegs (ix 12 n)
  | 7 => s.deepRegs (ix 2 n)
  | _ => s.linkRegs (ix 4 n)

/-- The header of a block window (Table 21.3). -/
def State.headRegs (s : State) (b : Fin 36) : List Reg :=
  let (kind, n) := blockId b
  [r32 0x0 (kind + 256 * n), r32 0x4 (s.blkStatus b), r32 0x8 s.blks[b].rweDropped.toNat, r32 0x100 (s.ctrlReg b)]

/-- The windows that the physical function reads registers in: 0 the module window, i + 1 block window i. -/
def windowOf (bar : Nat) : Option (Nat × Nat) :=
  if bar < 0x100000 then none
  else if bar < 0x2600000 then some ((bar - 0x100000) / 0x100000, bar % 0x100000)
  else none

/-- The register of a window that holds an offset; none where the window is reserved. -/
def State.regAt (s : State) (w off : Nat) : Option Reg :=
  let hit := fun (r : Reg) => decide (r.1 ≤ off) && decide (off < r.1 + r.2.1)
  if w = 0 then
    if 0x2000 ≤ off ∧ off < 0x4000 then some (s.bankReg (ix 16 ((off - 0x2000) / 0x200)) (off % 0x200))
    else s.modRegs.find? hit
  else
    let b := ix 36 (w - 1)
    if (blockId b).1 = 6 ∧ 0x1000 ≤ off ∧ off < 0x1000 + 4 * 38 * 32 then
      let i := (off - 0x1000) / 4
      some (r32 (0x1000 + 4 * i) (match alookup i (s.stack (ix 12 (blockId b).2)).laneErr with | some v => v.toNat | none => 0))
    else (s.headRegs b ++ s.blkRegs b).find? hit

/-- One byte of a window, as registers stand; reserved bytes read as zero (00, R5). -/
def State.regByte (s : State) (w off : Nat) : Byte :=
  match s.regAt w off with
  | some r => BitVec.ofNat 8 (r.2.2 / 256 ^ (off - r.1))
  | none => 0

/-- The control page of a context's mailbox window (Table 12.4). -/
def State.controlRegs (s : State) (x : Fin 16) : List Reg :=
  let k := s.ctx x
  [r32 0x0 (mask (k.slots.toList.map (fun m => m.state == .free)) + 256 * k.state.code + 65536 * k.lastReason),
   r32 0x4 k.seqExpect.toNat, r32 0x8 k.lastRefused.toNat, r32 0x10 k.cqHead.toNat, r32 0x14 k.cqTail.toNat,
   r32 0x18 k.waiting, r32 0x20 k.lateWrites.toNat, r32 0x24 k.sealRefused.toNat, r32 0x28 k.eventsDropped.toNat]

/-- One byte of a mailbox window (Table 12.3): a slot's contents in every state, the control page, or a reserved byte. -/
def State.mailboxByte (s : State) (x : Fin 16) (off : Nat) : Byte :=
  if off < 0x90000 then (((s.ctx x).slots[ix 8 (off / 0x12000)]).bytes.read (off % 0x12000) 1).headD 0
  else
    let o := off - 0x90000
    match (s.controlRegs x).find? (fun r => decide (r.1 ≤ o) && decide (o < r.1 + r.2.1)) with
    | some r => BitVec.ofNat 8 (r.2.2 / 256 ^ (o - r.1))
    | none => 0

/-- The latch of a window (R495). -/
def State.latchOf (s : State) (w : Nat) : Option Latch := s.board.latches.find? (fun l => l.window == w)

/-- A read of n bytes of a window (R494, R495): a 4-byte read of a counter's high half returns the latch if the last low
half read was of the same counter. -/
def State.windowRead (s : State) (w off n : Nat) : List Byte :=
  let live := (List.range n).map (fun i => s.regByte w (off + i))
  match s.regAt w off, s.latchOf w with
  | some r, some l => if n = 4 ∧ r.2.1 = 8 ∧ off = r.1 + 4 ∧ l.offset = r.1 then leBytes 4 l.high.toNat else live
  | _, _ => live

end Sys2Proof.Machine
end

