-- ==== Sys2Proof/Machine/Query.lean ====
section
/-! DEFINITION. QUERY packets (12, R313, R325; 13, R344; 17, R437). -/

namespace Sys2Proof.Machine

open Sys2Proof

/-- Bytes that carry no poison. -/
def cleanBytes (bs : List Byte) : List PByte := bs.map (fun b => ⟨b, false⟩)

/-- A QUERY of one subtype whose result has n bytes (R308, R309, R313): the taken packet is refused, stops with the kill of its
context (17, R432), or returns its result, after which `after` holds. -/
def State.query (s : State) (x : Fin 16) (i : Fin 8) (sub n : Nat) (bad : Bool) (data : List PByte) (after : State → State) : State :=
  match s.packetAt x i 5 (some sub) with
  | none => s
  | some p =>
    if (s.ctx x).dying then s.finishPacket x p (s.ctx x).killReason true false []
    else if bad ∨ 16777216 < n then s.refusePacket x p 0x0204 0
    else if !hostRoom (fld p.hdr 0x20 8) (fld p.hdr 0x28 8) n then s.refusePacket x p 0x020B 0
    else (after s).endTransfer x p (fld p.hdr 0x20 8) data

/-- The header fields of the QUERY in a slot: TARGET, FIRST, COUNT and CORE. -/
def State.queryFields (s : State) (x : Fin 16) (i : Fin 8) : Fin 16 × Nat × Nat × Fin 4 :=
  let p := (s.ctx x).slots[i].pkt i
  (p.target, fld p.hdr 0x18 4, fld p.hdr 0x1C 4, ix 4 (bits (byteAt p.hdr 0x30) 1 0))

/-- A QUERY of COUNT items of a size, none of which is formed for a result that is refused. -/
def State.queryRange (s : State) (x : Fin 16) (i : Fin 8) (sub size : Nat) (item : Fin 16 → Nat → List Byte) : State :=
  let (t, first, count, _) := s.queryFields x i
  let n := if size * count ≤ 16777216 then count else 0
  s.query x i sub (size * count) false (cleanBytes ((List.range n).flatMap (fun j => item t (first + j)))) id

/-- QUERY_CONTEXT_STATUS (R344). -/
def doQueryContextStatus (x : Fin 16) (i : Fin 8) (s : State) : State :=
  s.query x i 0x01 1536 false (cleanBytes (s.contextStatus (s.queryFields x i).1)) id

/-- QUERY_SCALE_RECORDS (R313). Records beyond the table read as zero. -/
def doQueryScaleRecords (x : Fin 16) (i : Fin 8) (s : State) : State :=
  s.queryRange x i 0x02 256 (fun t j => if j < 65535 then (s.scaleRec t j).encode else zeros 256)

/-- QUERY_SLOTS (R325). -/
def doQuerySlots (x : Fin 16) (i : Fin 8) (s : State) : State :=
  let q := s.queryFields x i
  s.query x i 0x03 592 false (cleanBytes (s.slotsStatus q.1 q.2.2.2)) id

/-- QUERY_TIER_COUNTERS (R313; 11, R281). -/
def doQueryTierCounters (x : Fin 16) (i : Fin 8) (s : State) : State :=
  s.query x i 0x04 272 false (cleanBytes (s.tierStatus (s.queryFields x i).1)) id

/-- QUERY_HOME_MAP (R313). -/
def doQueryHomeMap (x : Fin 16) (i : Fin 8) (s : State) : State := s.queryRange x i 0x05 16 (fun t p => s.homeStatus t p)

/-- An almanac entry as a QUERY reads it: poison of its sectors in the unified range goes with its bytes (R309). -/
def State.almanacRead (s : State) (t : Fin 16) (j : Nat) : List PByte :=
  match (s.ctx t).almanac with
  | some a => ((s.almanacStatus t j).zip (s.uread (a.base + 256 * j) 256)).map (fun b => ⟨b.1, b.2.p && (alookup j a.entries).isSome⟩)
  | none => cleanBytes (s.almanacStatus t j)

/-- QUERY_ALMANAC (R309, R313; 09, R214): a poison sink for the sectors of the entries it returns. -/
def doQueryAlmanac (x : Fin 16) (i : Fin 8) (s : State) : State :=
  let (t, first, count, _) := s.queryFields x i
  let n := if 256 * count ≤ 16777216 then count else 0
  let bs := (List.range n).flatMap (fun j => s.almanacRead t (first + j))
  s.query x i 0x06 (256 * count) false bs (fun s =>
    match (s.ctx t).almanac with
    | some a => if bs.any (·.p) then s.touchRange (a.base + 256 * first) (256 * n) none else s
    | none => s)

/-- QUERY_MODULE (R325). -/
def doQueryModule (x : Fin 16) (i : Fin 8) (s : State) : State := s.query x i 0x07 256 false (cleanBytes s.moduleStatus) id

/-- QUERY_FAULT_RING (R437): the entries returned are marked HOST_SEEN; COUNT above 4,096 is refused. -/
def doQueryFaultRing (x : Fin 16) (i : Fin 8) (s : State) : State :=
  let (_, first, count, _) := s.queryFields x i
  let seqs := (List.range (min count 4096)).map (fun j => BitVec.ofNat 32 (first + j))
  s.query x i 0x08 (320 * count) (decide (4096 < count)) (cleanBytes (seqs.flatMap s.ringStatus))
    (fun s => seqs.foldl (fun s r => s.modRing r (fun e => { e with hostSeen := true })) s)

end Sys2Proof.Machine
end

