-- ==== Sys2Proof/Machine/Blocks.lean ====
section
/-! DEFINITION. Register writes: blocks and their enable check, access types, counter reads, the management bus and the test
port (12, R322, R323; 21, R492 to R504; 22, R516 to R519). -/

namespace Sys2Proof.Machine

open Sys2Proof

def State.modBlk (s : State) (b : Fin 36) (f : Blk → Blk) : State := { s with blks := vmod s.blks b f }

def State.modBoard (s : State) (f : Board → Board) : State := { s with board := f s.board }

/-- A host write that is dropped (R494, R497, R517). -/
def State.dropHost (s : State) : State := s.modBoard (fun k => { k with hostDropped := satAdd k.hostDropped 1 })

/-! ## The check of R323 -/

/-- A stack lane map part fails R257: its sixteen channels, then its header count. -/
def stackMapBad (m : List Byte) : Bool :=
  let f := fun (o : Nat) => byteAt m o
  let used := fun (o : Nat) => bit (f o) 7
  let lane := fun (o : Nat) => bits (f o) 5 0
  let pcs := (List.range 32).map (fun i => 0x10 + 16 * (i / 2) + 4 * (i % 2))
  let cas := (List.range 16).map (fun c => 0x10 + 16 * c + 8)
  let named := fun (o : Nat) => ([o, o + 1, o + 2, o + 3].filter used).map lane
  let twice := fun (l : List Nat) => l.any (fun v => decide (1 < (l.filter (· == v)).length))
  let free := fun (o : Nat) => !bit (f o) 7 && !bit (f o) 6
  let both := fun (o : Nat) => bit (f o) 7 && bit (f o) 6
  pcs.any (fun o => [o, o + 1, o + 2, o + 3].any (fun i => decide (35 < lane i)) || twice (named o) || both o || both (o + 1) ||
    ((used (o + 2) || used (o + 3)) && (free o || free (o + 1)))) ||
    cas.any both || fld m 1 2 != mapCount m

/-- A lane repair map part fails R85. -/
def laneMapBad (m : List Byte) : Bool :=
  let es := (m.drop 0x10).take 128
  es.any (fun e => e.getLsbD 7 && e.getLsbD 6) || byteAt m 1 != (es.filter (fun e => e.getLsbD 7)).length

/-- The fields that every enabled link die shares (14, R349). -/
def LinkS.shared (k : LinkS) : Nat × Bool × Nat × Nat × Nat × Nat :=
  (k.payMax, k.vlanEn, k.vlanId, k.vlanPcp, k.etype, k.retxUs)

/-- The link registers refuse to be enabled (14, R349). -/
def State.linkBad (s : State) (l : Fin 4) : Bool :=
  let k := s.links[l]
  decide (k.etype < 0x0600) || decide (k.retxUs < 8) || decide (4096 < k.retxUs) ||
    (List.finRange 4).any (fun m => m != l && s.blks[ix 36 (32 + m.val)].enabled && (s.links[m]).shared != k.shared)

/-- The lowest reason for which a block refuses to enable, or 0 (R323, R501; 10, R257, R264). -/
def State.checkReason (s : State) (b : Fin 36) : Nat :=
  let (kind, n) := blockId b
  let on := fun (i : Nat) => s.blks[ix 36 i].enabled
  match kind with
  | 4 => if on (18 + 3 * n) && on (19 + 3 * n) && on (20 + 3 * n) then 0 else 0x0103
  | 5 => if laneMapBad (s.arr (ix 8 n)).map then 0x0102 else if !on (6 + n / 2) then 0x0103 else 0
  | 6 =>
    let t := s.stack (ix 12 n)
    if 3 < t.ctrl.loopback then 0x0101 else if stackMapBad t.map then 0x0303 else if t.ctrl.loopback ≠ 0 then 0x0304 else 0
  | 8 => if s.linkBad (ix 4 n) then 0x0101 else 0
  | _ => 0

/-! ## Enable and disable (R322, R497, R499, R501) -/

/-- What follows when a block becomes enabled: an array that is not degraded is in service, and the ports of a link die train
unless the internal source is active (19, R460). -/
def State.onEnabled (s : State) (b : Fin 36) : State :=
  let (kind, n) := blockId b
  match kind with
  | 5 => s.modArr (ix 8 n) (fun t => { t with inService := !t.degraded })
  | 8 => if s.clock.source = 2 then s else s.portsTrain
  | _ => s

/-- What follows when a block is disabled: an array leaves service, and so do the ports of a link die. -/
def State.onDisabled (s : State) (b : Fin 36) : State :=
  let (kind, n) := blockId b
  match kind with
  | 5 => s.modArr (ix 8 n) (fun t => { t with inService := false })
  | 8 => s.afterPorts (s.modLink (ix 4 n) (fun k => { k with
      ports := k.ports.map (fun p => { p with inService := false, training := false }) }))
  | _ => s

/-- A block with an ENABLE field (R498). -/
def hasEnable (b : Fin 36) : Bool := decide (6 ≤ b.val)

/-- A block is running for R10 to R14 (R499). -/
def State.blkRunning (s : State) (b : Fin 36) : Bool := s.blkEnabled b || s.blks[b].checking

/-- An enabled block depends on this one (Table 21.6). -/
def State.neededBy (s : State) (b : Fin 36) : Bool :=
  let (kind, n) := blockId b
  match kind with
  | 4 => s.blks[ix 36 (10 + 2 * n)].enabled || s.blks[ix 36 (11 + 2 * n)].enabled
  | 6 => s.blks[ix 36 (6 + n / 3)].enabled
  | _ => false

/-- A core runs no command and no test, so that RWS values take effect at once (Table 21.5). -/
def State.coreIdle (s : State) (c : Fin 4) : Bool := (s.core c).running.isNone && !(s.core c).ift.running

/-- Pending RWS values of a block take effect together (00, R12, R13). -/
def State.applyRws (s : State) (b : Fin 36) : State :=
  let (kind, n) := blockId b
  let s1 := s.modBlk b (fun k => { k with updatePending := false })
  match kind with
  | 3 => s1.coreRws (ix 4 n)
  | 6 => s1.modStack (ix 12 n) (fun t => { t with
      ctrl := { t.ctrl with wcbAge := t.shadow.wcbAge, wcbHigh := t.shadow.wcbHigh, scrubH := t.shadow.scrubH } })
  | 7 => s1.modTiers (fun t => { t with deepLow := vmod t.deepLow (ix 2 n) (fun _ => t.deepLowNext[ix 2 n]) })
  | _ => s1

/-- The outcome of a check (R322). A block that is refused no longer runs, and pending RWS values take effect (00, R13). -/
def State.endCheck (s : State) (b : Fin 36) : State :=
  let r := s.checkReason b
  let s1 := s.modBlk b (fun k => { k with checking := false, enabled := r == 0, reason := r })
  if r = 0 then s1.onEnabled b else s1.applyRws b

/-- A write of ENABLE; the flag says that the write is dropped under R501. The host's are ignored while a context exists
(R497). -/
def State.writeEnable (s : State) (b : Fin 36) (e host : Bool) : State × Bool :=
  let k := s.blks[b]
  if !hasEnable b || e == k.enable then (s, false)
  else if host && s.anyContext then (s.dropHost, false)
  else if e then
    (s.modBlk b (fun k => { k with enable := true, checking := !k.enabled }), false)
  else if k.enabled && s.neededBy b then (s, true)
  else
    let s1 := s.modBlk b (fun k => { k with enable := false, enabled := false, checking := false })
    (if k.enabled then (s1.applyRws b).onDisabled b else s1.applyRws b, false)

/-- The other fields of a block's control register written as they stand (R499): while the block runs, its RWE fields are dropped
(stacks and link dies have some) and its RWS fields (stacks and deep memory) go to the shadow. -/
def State.writeBack (s : State) (b : Fin 36) : State × Bool :=
  let kind := (blockId b).1
  if !s.blkRunning b then (s, false)
  else (if kind == 6 || kind == 7 then s.modBlk b (fun k => { k with updatePending := true }) else s, kind == 6 || kind == 8)

/-- A write of ENABLE that leaves the other fields as they stand; what is dropped counts once (R499). -/
def State.enableOnly (s : State) (b : Fin 36) (e host : Bool) : State :=
  let (s1, dropped) := s.writeBack b
  let (s2, kept) := s1.writeEnable b e host
  if dropped || kept then s2.dropWrite b.val else s2

/-- BLOCK_ENABLE (R322): a write of 1 to ENABLE that changes nothing else, of the host or of the lamplighter firmware. -/
def doBlockEnable (b : Fin 36) (host : Bool) (s : State) : State := if hasEnable b then s.enableOnly b true host else s

/-- BLOCK_DISABLE (R499, R501): a write of 0 to ENABLE that changes nothing else. -/
def doBlockDisable (b : Fin 36) (host : Bool) (s : State) : State := if hasEnable b then s.enableOnly b false host else s

/-- ENABLE_CHECK_DONE (R322). -/
def doEnableCheckDone (b : Fin 36) (s : State) : State := if s.blks[b].checking then s.endCheck b else s

/-- RWS_APPLY (00, R12; R500): pending values take effect at the block's boundary. -/
def doRwsApply (b : Fin 36) (s : State) : State :=
  let (kind, n) := blockId b
  if !s.blks[b].updatePending || (kind == 3 && !s.coreIdle (ix 4 n)) then s else s.applyRws b

/-! ## Register writes (00, R10 to R14; R494, R499) -/

/-- The fields of a stack's SC_CTRL but ENABLE; the flag says that an RWE field or a value is dropped. -/
def State.writeSc (s : State) (n : Fin 12) (run : Bool) (v : Nat) : State × Bool :=
  let scrub := bits v 21 14
  let ok := decide (1 ≤ scrub) && decide (scrub ≤ 168)
  let high := if bits v 13 10 = 0 then 12 else bits v 13 10
  let sh := fun (c : ScCtrl) => { c with wcbAge := bits v 9 8, wcbHigh := high, scrubH := if ok then scrub else c.scrubH }
  if run then (s.modStack n (fun t => { t with shadow := sh t.shadow }), true)
  else
    let set := fun (c : ScCtrl) => { sh c with loopback := bits v 3 1, eraseEn := bit v 4 }
    (s.modStack n (fun t => { t with ctrl := set t.ctrl, shadow := set t.shadow }), !ok)

/-- The fields of a block's control register but ENABLE (Tables 10.7, 14.2, 16.7, 21.7): the state, whether something is
dropped, and whether the register has RWS fields. A write of an RWS field whose value its table refuses counts as a write of the
field for UPDATE_PENDING (00, R12), although nothing lands in the shadow (DESIGN CHOICE, log 115). -/
def State.writeFields (s : State) (b : Fin 36) (v : Nat) : State × Bool × Bool :=
  let (kind, n) := blockId b
  let run := s.blkRunning b
  match kind with
  | 3 =>
    let p := bits v 19 8
    let s1 := if bit v 0 then doIftRunNow (ix 4 n) s else s.modIft (ix 4 n) (fun t => { t with runNow := false })
    if 15 ≤ p then (s1.modIft (ix 4 n) (fun t => { t with periodNext := p }), false, true) else (s1, true, true)
  | 6 => let r := s.writeSc (ix 12 n) run v; (r.1, r.2, true)
  | 7 =>
    let d := bits v 13 8
    if d = 0 then (s, true, true)
    else (s.modTiers (fun t => { t with deepLowNext := vmod t.deepLowNext (ix 2 n) (fun _ => d) }), false, true)
  | 8 =>
    if run then (s, true, false)
    else (s.modLink (ix 4 n) (fun k => { k with
      payMax := bits v 5 4, vlanEn := bit v 6, vlanId := bits v 19 8, vlanPcp := bits v 22 20 }), false, false)
  | _ => (s, false, false)

/-- After a write of RWS fields: at once where the block does not run or its core is idle, else pending (00, R12, R13; R500). -/
def State.rwsWritten (s : State) (b : Fin 36) : State :=
  let (kind, n) := blockId b
  if !s.blkRunning b || (kind == 3 && s.coreIdle (ix 4 n)) then s.applyRws b
  else s.modBlk b (fun k => { k with updatePending := true })

/-- A write of BXT_CFG (14, Table 14.2), all of RWE fields; the flag says that they are dropped. -/
def State.writeBxt (s : State) (l : Fin 4) (run : Bool) (v : Nat) : State × Bool :=
  if run then (s, true) else (s.modLink l (fun k => { k with etype := bits v 15 0, retxUs := bits v 28 16 }), false)

/-- One write of a block's control register, of the register above it, or of both (R499): each field follows its access type as the
block stood when the write arrived, ENABLE comes last, and what is dropped counts once. -/
def State.writeBlock (s : State) (b : Fin 36) (ctrl bxt : Option Nat) : State :=
  let run := s.blkRunning b
  let (s1, d1, rws) := match ctrl with
    | some v => s.writeFields b v
    | none => (s, false, false)
  let (s2, d2) := match bxt with
    | some v => s1.writeBxt (ix 4 (blockId b).2) run v
    | none => (s1, false)
  let s3 := if rws then s2.rwsWritten b else s2
  let (s4, kept) := match ctrl with
    | some v => s3.writeEnable b (bit v 0) true
    | none => (s3, false)
  if d1 || d2 || kept then s4.dropWrite b.val else s4

/-- A module reset is asked for by the host or the management bus (19, R470, R471; 22, R514, R518): ignored while THERMTRIP_N is
asserted, while MOD_PWR_GOOD is low, or while another module reset is in progress. -/
def State.askModule (s : State) (code : Nat) : State :=
  if s.power.thermtrip || !s.board.pwrGood || s.clock.resetHeld || s.moduleAsked then s
  else s.modClock (fun k => { k with resetting := some (.module, s.pilot), resetDone := false, lastReset := code })

/-- A hub reset is asked for (19, R471): ignored in the fatal state, while another reset is in progress, and before the
lamplighter runs. -/
def State.askHub (s : State) : State :=
  if s.faults.fatal || !s.board.pwrGood || s.clock.resetHeld || s.clock.perstHeld || s.clock.resetting.isSome ||
      decide (s.clock.stage < 5) then s
  else s.modClock (fun k => { k with resetting := some (.hub, s.pilot), resetDone := false, lastReset := 4 })

/-- RESET_CTRL_WRITE (19, Table 19.8). -/
def doResetCtrlWrite (v : W32) (s : State) : State :=
  if v.getLsbD 0 && bits v.toNat 31 16 == 0x5D1A then s.askModule 3 else s.dropHost

/-- A 4-byte write in the module window. -/
def State.writeModule (s : State) (off : Nat) (v : W32) : State :=
  if off = 0x100 then doFaultStatusWrite v s
  else if off = 0x110 then doPwrCapWrite v s
  else if off = 0x120 then doClkCtrlWrite v s
  else if off = 0x130 then doResetCtrlWrite v s
  else s

/-- One write of 4 or 8 bytes in a register window of the physical function, given as its words. Every other field is RO (R494). -/
def State.writeWords (s : State) (bar : Nat) (ws : List W32) : State :=
  match windowOf bar with
  | none => s
  | some (w, off) =>
    if w = 0 then ws.zipIdx.foldl (fun s v => s.writeModule (off + 4 * v.2) v.1) s
    else
      let b := ix 36 (w - 1)
      let at' := fun (o : Nat) => if off ≤ o then (ws[(o - off) / 4]?).map (·.toNat) else none
      s.writeBlock b (if 2 < (blockId b).1 then at' 0x100 else none) (if (blockId b).1 = 8 then at' 0x104 else none)

/-- REGISTER_WRITE (R494): 4 bytes aligned to 4 or 8 aligned to 8 in the register windows; any other write is dropped and
counted. -/
def doRegisterWrite (bar : Nat) (bs : List Byte) (s : State) : State :=
  if bar < 0x100000 ∨ 0x4000000 ≤ bar then s
  else if (bs.length = 4 ∨ bs.length = 8) ∧ bar % bs.length = 0 then
    s.writeWords bar ((chunks 4 bs).map (fun c => BitVec.ofNat 32 (leNat c)))
  else s.dropHost

/-! ## Reads -/

/-- A read that R494 allows: 1, 2, 4 or 8 bytes, naturally aligned. -/
def readOk (bar n : Nat) : Bool := (n == 1 || n == 2 || n == 4 || n == 8) && bar % n == 0

/-- A read in a register window: a 4-byte read of a 64-bit counter's low half copies the high half into the window's latch. -/
def State.readWindow (s : State) (w off n : Nat) : State :=
  let s1 := s.modBoard (fun k => { k with readOut := s.windowRead w off n })
  match s.regAt w off with
  | some (start, 8, v) =>
    if n = 4 ∧ off = start then
      s1.modBoard (fun k => { k with
        latches := k.latches.filter (fun l => l.window != w) ++ [⟨w, start, BitVec.ofNat 32 (v / 2 ^ 32)⟩] })
    else s1
  | _ => s1

/-- COUNTER_LOW_HALF_READ (R494, R495): a read of n bytes by a function at an offset of its BAR0; `readOut` is the data of the
last read. Only the physical function has register windows; its reserved area reads as zero (00, R5). -/
def doCounterLowHalfRead (x : Fin 16) (bar n : Nat) (s : State) : State :=
  if !readOk bar n then s
  else if bar < 0x100000 then
    s.modBoard (fun k => { k with readOut := (List.range n).map (fun i => s.mailboxByte x (bar + i)) })
  else match windowOf bar with
    | some (w, off) => if x = 0 then s.readWindow w off n else s
    | none => if x = 0 then s.modBoard (fun k => { k with readOut := zeros n }) else s

/-! ## Management bus (22, R516 to R518) -/

/-- The provisional ID (R516). -/
def State.provisionalId (s : State) : Nat :=
  0x0A35 * 2 ^ 33 + 0x0108 * 65536 + s.board.slotId * 1024 + fld s.deviceId 0 2 % 1024

/-- The static address for SETDASA (R516). -/
def State.staticAddr (s : State) : Nat := 0x30 + s.board.slotId % 8

/-- I3C_ADDRESS_ASSIGNMENT (R516): by ENTDAA, or by SETDASA to the static address that it names. A module that has a dynamic
address takes no other. -/
def doI3cAddressAssignment (static : Option Nat) (addr : Nat) (s : State) : State :=
  let mine := match static with | none => true | some a => a == s.staticAddr
  if s.board.i3cAddr.isSome || !mine || decide (127 < addr) then s else s.modBoard (fun k => { k with i3cAddr := some addr })

/-- Everything outside the pilot-light domain at its reset values: what a module reset or the loss of power leaves of it (19, R469,
R470). What the outside has already received stays. -/
def State.railsLost (s : State) : State :=
  let r := State.reset
  { s with
    hub := { r.hub with hostWrites := s.hub.hostWrites, msixSent := s.hub.msixSent, nextRun := s.hub.nextRun }
    cores := r.cores, arrays := r.arrays, feeds := r.feeds, hbm := r.hbm, tiers := r.tiers, blks := r.blks, links := r.links
    fabric := { r.fabric with sent := s.fabric.sent }, roles := r.roles }

/-- A register of the I3C space as a word (Table 22.4). Registers of blocks without power read as their reset values. -/
def State.i3cWord (s : State) (off : Nat) : List Byte :=
  let t := if s.board.railsOn then s else s.railsLost
  if off < 0x1000 then t.windowRead 0 off 4
  else if off = 0x1000 then leBytes 4 s.power.bmcCap
  else if off = 0x1004 then leBytes 4 (b2n s.moduleAsked + 2 * b2n (match s.clock.resetting with | some (.hub, _) => true | _ => false))
  else if off = 0x1008 then leBytes 2 s.board.vinMv ++ leBytes 2 s.board.iinCa
  else if off = 0x100C then leBytes 4 (s.board.slotId + 64 * s.clock.oscDly)
  else if 0x1010 ≤ off ∧ off < 0x1090 then leBytes 4 s.power.temps[ix 32 ((off - 0x1010) / 4)]
  else if 0x100000 ≤ off ∧ off < 0x140000 then
    let p := (off - 0x100000) / 64
    match alookup p s.faults.ring with
    | some e => (e.encode.drop (off % 64)).take 4
    | none => zeros 4
  else zeros 4

/-- BMC_RESET (R518): MODULE set, or HUB alone, with the key. -/
def bmcReset (v : W32) : Option ResetKind :=
  if bits v.toNat 31 16 ≠ 0x5D1A then none
  else if v.getLsbD 0 then some .module
  else if v.getLsbD 1 then some .hub
  else none

/-- BMC_MODULE_RESET and BMC_HUB_RESET (R518): a write of BMC_RESET; one without the key or without a reset is dropped. -/
def State.writeBmcReset (s : State) (v : W32) : State :=
  match bmcReset v with
  | some .module => s.askModule 2
  | some .hub => s.askHub
  | none => s.dropHost

def doBmcModuleReset (v : W32) (s : State) : State := if bmcReset v = some .hub then s else s.writeBmcReset v

def doBmcHubReset (v : W32) (s : State) : State := if bmcReset v = some .module then s else s.writeBmcReset v

/-- A 4-byte write in the I3C space: the W1C bits of FAULT_STATUS and the registers of Table 22.4. Other registers of the
module window are only read there. -/
def State.i3cStore (s : State) (off : Nat) (v : W32) : State :=
  if off = 0x100 then doFaultStatusWrite v s
  else if off = 0x1000 then doBmcCapWrite v s
  else if off = 0x1004 then s.writeBmcReset v
  else s

/-- I3C_PRIVATE_WRITE (R517): a register offset of 4 bytes, then data of 4 bytes aligned to 4 or none; any other write is
dropped and counted. -/
def doI3cPrivateWrite (bs : List Byte) (s : State) : State :=
  if s.board.i3cAddr.isNone then s
  else if bs.length < 4 then s.dropHost
  else
    let off := fld bs 0 4
    let s1 := s.modBoard (fun k => { k with i3cOffset := off })
    if bs.length = 4 then s1
    else if bs.length = 8 ∧ off % 4 = 0 then s1.i3cStore off (BitVec.ofNat 32 (fld bs 4 4))
    else s1.dropHost

/-- I3C_PRIVATE_READ (R517): words from the current offset on, which advances. -/
def doI3cPrivateRead (words : Nat) (s : State) : State :=
  if s.board.i3cAddr.isNone || s.board.i3cOffset % 4 != 0 then s
  else
    let off := s.board.i3cOffset
    s.modBoard (fun k => { k with
      i3cOut := (List.range words).flatMap (fun i => s.i3cWord (off + 4 * i)), i3cOffset := off + 4 * words })

/-- The PCIe link trains (12, Table 12.1; 22, Table 22.2): which generation and width is the host's side as much as the
device's, and free here. FLIT mode goes with generation 6. -/
def State.trainLink (s : State) : State :=
  let (n, s0) := s.occasion
  let (m, s1) := s0.occasion
  let g := 4 + Config.choice n % 3
  let w := if Config.choice m % 2 = 0 then 16 else 8
  s1.modBoard (fun k => { k with pcieStatus := BitVec.ofNat 32 (g + 8 * w + 256 * b2n (g == 6)) })

/-! ## Test port (22, R519) -/

/-- JTAG_INSTRUCTION (R519): EXTEST is executed as BYPASS unless MOD_RESET_N is asserted. What the boundary-scan register
captures is free: the manual does not lay it out. -/
def doJtagInstruction (j : JtagOp) (s : State) : State :=
  let j' := if j = .extest ∧ !s.clock.resetHeld then .bypass else j
  match j' with
  | .bypass => s.modBoard (fun k => { k with jtagIr := 0, jtagOut := 0 })
  | .idcode => s.modBoard (fun k => { k with jtagIr := 1, jtagOut := 0x10108ABD })
  | .samplePreload => let (n, s1) := s.occasion; s1.modBoard (fun k => { k with jtagIr := 2, jtagOut := Config.freeWord n })
  | .extest => let (n, s1) := s.occasion; s1.modBoard (fun k => { k with jtagIr := 3, jtagOut := Config.freeWord n })

end Sys2Proof.Machine
end

