-- ==== Sys2Proof/Machine/Store.lean ====
section
/-! DEFINITION. Batches of the module store and the hold-up bank (17, R438 to R440). -/

namespace Sys2Proof.Machine

open Sys2Proof

/-! ## What a stored record makes current -/

/-- A fault history entry from its 32 bytes (16, Table 16.6); TIMES holds as many as COUNT counts. -/
def HistEntry.decode (bs : List Byte) : HistEntry :=
  let count := fld bs 8 4
  { kind := byteAt bs 0, unit := fld bs 4 4, permanent := bit (byteAt bs 1) 0, suspect := bit (byteAt bs 1) 1
    count := BitVec.ofNat 32 count, times := (List.range (min count 3)).map (fun i => fld bs (12 + 4 * i) 4)
    since := fld bs 24 4 }

/-- Changed history entries reach the store (16, R408, R410); entries that the history has given up leave it. -/
def State.keepHist (s : State) (bs : List Byte) : State :=
  let new := (chunks 32 bs).map HistEntry.decode
  let held := fun (e : HistEntry) => s.faults.history.any (fun f => f.kind = e.kind && f.unit == e.unit)
  s.modSec (fun t => { t with hist := (new.foldl (fun l e => putHist e l) t.hist).filter held, minute := s.faults.minute })

/-- A record's pointer page verifies (R438; 20, R479, R480, R484 to R487). -/
def State.storeOne (s : State) (r : StoreRec) : State :=
  match r.kind with
  | 0x20 => s.keepHist r.bytes
  | 0x21 => s.modSec (fun t => if t.partialTotal = 0 then t else { t with partialImage := t.partialImage ++ r.bytes })
  | 0x22 => s.activateImage
  | 0x23 => s.modSec (fun t => { t with boot := t.running, pendingModule := false, staged := false, image := none })
  | 6 => s.modSec (fun t => { t.keep r.bytes with ownerKey := some (keyId (ownerModulus r.bytes)) })
  | 7 => s.modSec (fun t => { t.keep r.bytes with ownerKey := none, records := (aerase 6 (aerase 8 (t.keep r.bytes).records)) })
  | _ => s.modSec (fun t => t.keep r.bytes)

/-! ## Batches (R438, R439) -/

/-- The stored energy starts a batch of p pages (R439): E ≥ 1.25 × N, both sides in units of 5 pJ, with the bank voltage in
millivolts and its capacitance in units of 10 µF. -/
def energyFits (c v p : Nat) : Bool := decide (37500000000 + 3000000000 * p ≤ c * (v * v - 49000000))

/-- How many records of a queue start after p pages: the largest prefix within the energy and within 64 pages, each record
with its pointer page. -/
def prefixFits (c v : Nat) : Nat → List StoreRec → Nat
  | _, [] => 0
  | p, r :: rest =>
    let q := p + r.pages + 1
    if q ≤ 64 && energyFits c v q then 1 + prefixFits c v q rest else 0

/-- H1 may try a batch: the queue holds records, no batch runs, the input has returned, no measurement runs, and a deferred
queue has waited a second (R439, R440). -/
def State.batchDue (s : State) : Bool :=
  let f := s.faults
  !f.storeQueue.isEmpty && f.storeBatch.isEmpty && !s.board.inputLost && decide (f.measureEnd ≤ s.pilot) &&
    (f.deferredAt.isNone || decide (f.triedAt + 50000000 ≤ s.pilot))

/-- STORE_BATCH (R439): at a measured bank voltage in millivolts, the largest prefix starts, or the queue is deferred. -/
def doStoreBatch (vMv : Nat) (s : State) : State :=
  if !s.batchDue then s
  else
    let n := prefixFits s.faults.cUf vMv 0 s.faults.storeQueue
    if n = 0 then
      let s1 := s.modFaults (fun f => { f with
        vMv := vMv, storeDeferrals := satAdd f.storeDeferrals 1, deferredAt := some (f.deferredAt.getD s.pilot)
        triedAt := s.pilot, deferralPosted := true })
      if s.faults.deferralPosted then s1 else s1.event 0 0x0619 []
    else s.modFaults (fun f => { f with
      vMv := vMv, storeBatch := f.storeQueue.take n, storeQueue := f.storeQueue.drop n
      storeBatches := satAdd f.storeBatches 1, deferredAt := none, deferralPosted := false, holdupLow := false })

/-- STORE_BATCH_DONE (R438, R440; 22, R510, R512): the batch's records are current and their packets finish; VDD_AON turns off
when it had only waited for the batch. -/
def doStoreBatchDone (s : State) : State :=
  let b := s.faults.storeBatch
  if b.isEmpty then s
  else
    let s1 := b.foldl (fun s r => (s.storeOne r).finishStored r) (s.modFaults (fun f => { f with storeBatch := [] }))
    if s.board.pwrGood || s.power.thermtrip then s1 else s1.modBoard (fun k => { k with aonOn := false })

/-- HOLDUP_LOW (R439): the queue has been deferred for 60 s. -/
def doHoldupLow (s : State) : State :=
  match s.faults.deferredAt with
  | none => s
  | some t =>
    if s.pilot < t + 3000000000 || s.faults.holdupLow then s
    else (s.modFaults (fun f => { f with holdupLow := true })).event 0 0x061A []

/-- The capacitance that a voltage step in millivolts gives, in units of 10 µF (R440). -/
def State.measureBank (s : State) (dv : Nat) : State :=
  s.modFaults (fun f => { f with
    cUf := 200000 / dv, measureEnd := s.pilot + 50000, measuredMinute := f.minute.toNat })

/-- CAPACITANCE_MEASURE (R440): every 1,440 module-on minutes; no batch starts for 1 ms. -/
def doCapacitanceMeasure (dv : Nat) (s : State) : State :=
  if dv = 0 || decide (s.faults.minute.toNat < s.faults.measuredMinute + 1440) then s else s.measureBank dv

end Sys2Proof.Machine
end

