-- ==== Sys2Proof/Machine/Resets.lean ====
section
/-! DEFINITION. Resets, heartbeats of the lamplighter, and power (19, R470 to R472; 22, R510 to R515). -/

namespace Sys2Proof.Machine

open Sys2Proof

/-! ## What a restart leaves of the pilot-light domain (Table 19.5) -/

/-- The security state when a start begins: the module store and the replay-protected area stay. -/
def Sec.restarted (t : Sec) : Sec :=
  { t with identityOk := false, staged := false, partialTotal := 0, partialImage := [], image := none, hubResetAt := none
           startEvents := [], spdm := [] }

/-- Faults and history when a start begins: the stored history, at a minute. -/
def State.restartedFaults (s : State) (minute : W32) (minuteAt : Nat) : Faults :=
  { Faults.fresh with history := s.sec.hist, minute := minute, minuteAt := minuteAt }

/-- The board when a start begins: pins and straps stay, registers and the dynamic address do not. -/
def Board.restarted (b : Board) : Board :=
  { b with i3cAddr := none, i3cOffset := 0, hostDropped := 0, latches := [], pcieStatus := 0 }

/-! ## Module reset (R470, R471, R473) -/

/-- MODULE_RESET (R471): the buffers are flushed, everything outside the kept items of Table 19.5 is reinitialised, and the
start runs again from its stage 2. The crystal, the calibration, OSC_DLY, the minute counter, THERMTRIP_N, LAST_RESET and the
module store are kept. -/
def doModuleReset (s : State) : State :=
  if !s.moduleAsked then s
  else
    let s1 := s.flushAll.railsLost
    let k := s.clock
    { s1 with
      faults := s.restartedFaults s.faults.minute s.faults.minuteAt
      power := { Power.fresh with thermtrip := s.power.thermtrip }
      clock := { Clock.fresh with
        calibrated := k.calibrated, calAt := k.calAt, oscDly := k.oscDly, lastReset := k.lastReset, perstHeld := k.perstHeld
        stage := 2, stageAt := s.pilot, resetAt := s.pilot, warm := true }
      sec := s.sec.restarted
      board := s.board.restarted }

/-- MOD_RESET_N (22, R514): an assertion, low for 250 pilot cycles or longer, holds a module reset, which runs from the
deassertion. It is ignored while MOD_PWR_GOOD is low, while THERMTRIP_N is asserted, and while a module reset is in progress. -/
def doModResetN (low : Bool) (s : State) : State :=
  if !s.board.pwrGood || s.power.thermtrip || s.moduleAsked then s
  else if low then s.modClock (fun k => { k with resetHeld := true })
  else if s.clock.resetHeld then (s.modClock (fun k => { k with resetHeld := false, resetting := none })).askModule 1
  else s

/-! ## Hub reset (R470, R471) -/

/-- A hub reset reinitialises H0: mailboxes and PCIe interface with all contexts, and the lamplighter with its role services.
Stacks, arrays and ports stay as they are. An activated image runs from here on (20, R486). -/
def State.hubWiped (s : State) : State :=
  let s1 := (List.finRange 16).foldl (fun s x => (s.wipeCtx x).resetFunction x) s.flushAll
  let s2 := { s1 with hub := { s1.hub with vfEnable := false, maxPayload := 128, turn := 15, badSlots := [] } }
  let due := s.sec.hubResetAt.isSome
  let s3 := s2.modSec (fun t => let u := if due then t.runBoot else t; { u with spdm := u.spdm.filter (fun q => q.who != 0) })
  let s4 := s3.modRoles (fun r => match r.record with | some b => Roles.ofRecord b none | none => r)
  (s4.modClock (fun k => { k with resetDone := true, lastBeat := s.pilot })).modBoard (fun b => { b with pcieStatus := 0 })

/-- A hub reset has been asked for and waits to run. -/
def State.hubAsked (s : State) : Bool :=
  !s.clock.resetDone && (match s.clock.resetting with | some (.hub, _) => true | _ => false)

/-- HUB_RESET (R470, R471): as asked for over the management bus, or 1 ms after an activate (20, R486). -/
def doHubReset (s : State) : State :=
  let due := match s.sec.hubResetAt with | some t => decide (t ≤ s.pilot) | none => false
  let s1 := if s.hubAsked || !due then s else s.askHub
  if s1.hubAsked then s1.hubWiped else s

/-- LL_HEARTBEAT (R472): counted; the first after a hub reset ends the reset, and the SVN floor rises (20, R488). -/
def doLlHeartbeat (s : State) : State :=
  if s.clock.stage < 5 ∨ s.moduleAsked ∨ s.hubAsked then s
  else
    let s1 := s.modClock (fun k => { k with beats := satAdd k.beats 1, lastBeat := s.pilot })
    if s.clock.resetDone then
      let s2 := (s1.modClock (fun k => { k with resetting := none, resetDone := false })).modSec Sec.raiseFloor
      let s3 := s2.modRoles (fun r => { r with readyAt := if s.clock.ready then some s.pilot else none })
      if s.clock.perstHeld then s3 else s3.trainLink
    else s1

/-- LL_HEARTBEAT_LOSS (R472): 50,000,000 pilot cycles without a heartbeat while the lamplighter should run. -/
def doLlHeartbeatLoss (s : State) : State :=
  if s.clock.stage < 5 || s.clock.resetting.isSome || s.clock.resetHeld || s.faults.fatal ||
      decide (s.pilot < s.clock.lastBeat + 50000000) then s
  else s.recordFault { s.faultNow 3 0x070D 0x0A with unitKind := 9, unit := 30 }

/-! ## PCIe resets (R470; 22, R514) -/

/-- The PCIe interface and all functions return to their reset values, and every context is destroyed as R294 describes. -/
def State.pcieReset (s : State) : State :=
  let s1 := (doFunctionLevelReset 0 s).modSec (fun t => { t with spdm := t.spdm.filter (fun q => q.who != 0) })
  (s1.modClock (fun k => { k with lastReset := 5 })).modBoard (fun b => { b with pcieStatus := 0 })

/-- PERST_N (22, R514): an assertion, low for 250 pilot cycles or longer, resets and holds the PCIe interface alone; the link
trains after the deassertion. During another reset only the level is noted. -/
def doPerstN (low : Bool) (s : State) : State :=
  if low == s.clock.perstHeld then s
  else if low then
    let s1 := s.modClock (fun k => { k with perstHeld := true })
    if s.clock.resetting.isSome || s.clock.resetHeld then s1 else s1.pcieReset
  else
    let s1 := s.modClock (fun k => { k with perstHeld := false })
    if s1.hubUp then s1.trainLink else s1

/-- HOT_RESET (R470): a hot reset or link down; the link trains again. -/
def doHotReset (s : State) : State := if s.hubUp then s.pcieReset.trainLink else s

/-! ## Power (22, R510 to R512, R515) -/

/-- The rails other than VDD_AON are off: contexts, memory and the state of every block on them are lost. VDD_AON follows when no
store batch is in progress, unless it stays on. -/
def State.powerDown (s : State) (keepAon : Bool) : State :=
  let s1 := s.railsLost
  { s1 with
    clock := { Clock.fresh with oscDly := s.clock.oscDly, lastReset := s.clock.lastReset, perstHeld := s.clock.perstHeld
                                calibrated := s.clock.calibrated, calAt := s.clock.calAt, resetAt := s.clock.resetAt }
    power := { Power.fresh with thermtrip := s.power.thermtrip }
    board := { s.board with pwrGood := false, railsOn := false, goodAt := none, pcieStatus := 0
                            aonOn := keepAon || !s.faults.storeBatch.isEmpty } }

/-- POWER_ON_RESET (R470, R468): the rising edge of MOD_PWR_GOOD latches the straps OSC_DLY and SLOT_ID and starts the module;
the module store stays. -/
def doPowerOnReset (osc : Fin 4) (slot : Fin 64) (s : State) : State :=
  if !s.board.pwrGood || s.board.goodAt.isSome then s
  else
    let s1 := s.railsLost
    { s1 with
      faults := s.restartedFaults s.sec.minute s.pilot
      power := Power.fresh
      clock := { Clock.fresh with oscDly := osc.val, perstHeld := s.clock.perstHeld, stageAt := s.pilot, resetAt := s.pilot }
      sec := s.sec.restarted
      board := { s.board.restarted with goodAt := some s.pilot, slotId := slot.val } }

/-- MOD_PWR_EN_ASSERT (R511, R512, R515): the rails come up in order, and MOD_PWR_GOOD rises with every rail in regulation and
the hold-up bank at 10.0 V or more. It is ignored until VIN has been in range for 10 ms, within 1.0 s of a deassertion, and
while THERMTRIP_N is asserted. -/
def doModPwrEnAssert (bankMv : Nat) (s : State) : State :=
  let early := match s.board.enOffAt with | some t => decide (s.pilot < t + 50000000) | none => false
  if s.board.pwrEn || !s.board.vinOk || s.power.thermtrip || early || decide (bankMv < 10000) then s
  else s.modBoard (fun k => { k with
    pwrEn := true, railsOn := true, aonOn := true, pwrGood := true, goodAt := none, enOffAt := none })

/-- MOD_PWR_EN_DEASSERT (R512, R515): MOD_PWR_GOOD falls, the rails turn off in reverse order, and THERMTRIP_N is released. -/
def doModPwrEnDeassert (s : State) : State :=
  if !s.board.pwrEn && s.board.enOffAt.isSome then s
  else
    let s1 := s.modPower (fun p => { p with thermtrip := false })
    (s1.powerDown false).modBoard (fun k => { k with pwrEn := false, enOffAt := some s.pilot })

/-- VIN_UNDERVOLTAGE (R510): VIN below 45.0 V for 50 µs, in millivolts. VDD_AON goes too, and THERMTRIP_N with it (R515); from
then on MOD_PWR_EN counts as asserted only when it is honoured again. -/
def doVinUndervoltage (mv : Nat) (s : State) : State :=
  if 45000 ≤ mv then s
  else
    ((s.modPower (fun p => { p with thermtrip := false })).powerDown false).modBoard (fun k => { k with vinOk := false, inputLost := true, vinMv := mv, pwrEn := false })

/-- VIN_OVERVOLTAGE (R510, R515): VIN above 58.5 V for 10 µs; VDD_AON stays on and THERMTRIP_N is asserted. -/
def doVinOvervoltage (mv : Nat) (s : State) : State :=
  if mv ≤ 58500 then s
  else
    let s1 := s.modPower (fun p => { p with thermtrip := true })
    (if s.board.railsOn then s1.powerDown true else s1).modBoard (fun k => { k with vinMv := mv })

/-- VIN_RETURN (R510): VIN has stayed above 47.0 V for 10 ms, so MOD_PWR_EN is honoured and store batches may start. -/
def doVinReturn (mv : Nat) (s : State) : State :=
  if mv ≤ 47000 then s else s.modBoard (fun k => { k with vinOk := true, inputLost := false, vinMv := mv })

end Sys2Proof.Machine
end

