-- ==== Sys2Proof/Machine/Start.lean ====
section
/-! DEFINITION. The stages of a module start (19, R468, R473 to R475; 20, R481, R483; 10, R258). -/

namespace Sys2Proof.Machine

open Sys2Proof

/-- The stage in progress ends and the next begins. -/
def State.nextStage (s : State) : State := s.modClock (fun k => { k with stage := k.stage + 1, stageAt := s.pilot })

/-- The start stops with a reason (R475). -/
def State.stopStart (s : State) (reason : Nat) : State :=
  s.modClock (fun k => { k with startStopped := true, startReason := reason })

/-- Events for context 0 that wait until the module is ready and context 0 exists (20, R481; R468). -/
def State.startEvent (s : State) (reason : Nat) : State :=
  s.modSec (fun t => { t with startEvents := t.startEvents ++ [reason] })

/-! ## Stage 2: verification (20, R479, R481 to R483) -/

/-- The code with which a bank fails the first four checks of R481, or 0: what the environment finds, and the SVN floor. -/
def Sec.bankReason (t : Sec) (b : Fin 2) (found : Nat) : Nat :=
  if found = 0x080D then found else if (t.banks[b]).svn < t.floor then 0x0804 else found

/-- The records of the module as supplied join those that it has stored. -/
def Sec.supplied (t : Sec) (rs : List (List Byte)) : Sec :=
  rs.foldl (fun t r => if (alookup (recKind r) t.records).isSome then t else { t with records := ainsert (recKind r) r t.records }) t

/-- The current record of a kind, if it verifies (R479). -/
def State.verified (s : State) (kind : Nat) : Option (List Byte) :=
  (alookup kind s.sec.records).bind (fun r => if s.recordReason r [kind] = 0 then some r else none)

/-- Part i of a map record, n bytes each. -/
def mapPart (r : List Byte) (i n : Nat) : List Byte := ((recBody r).drop (n * i)).take n

/-- The maps of the records come into force (04, R84; 10, R256). -/
def State.loadMaps (s : State) (lanes hbm : List Byte) : State :=
  { s with arrays := Vector.ofFn (fun a => { s.arrays[a] with map := mapPart lanes a.val 144 })
           hbm := Vector.ofFn (fun n => { s.hbm[n] with map := mapPart hbm n.val 272 }) }

/-- The role record comes into force, or the module is standalone; one that fails is reported once the module is ready. -/
def State.loadRole (s : State) : State :=
  match alookup 8 s.sec.records with
  | none => s
  | some r =>
    let reason := s.recordReason r [8]
    if reason = 0 then s.modRoles (fun _ => Roles.ofRecord (recBody r) none) else s.startEvent reason

/-- The end of stage 2 (R481). -/
def State.endVerify (s : State) (active other : Nat) (areaOk identityOk : Bool) (rs : List (List Byte)) : State :=
  let t := s.sec
  let spare : Fin 2 := if t.boot = 0 then 1 else 0
  let r0 := t.bankReason t.boot active
  let r1 := t.bankReason spare other
  if r0 ≠ 0 ∧ r1 ≠ 0 then s.stopStart r0
  else
    let s1 := s.modSec (fun t => ({ t with boot := if r0 = 0 then t.boot else spare }).runBoot)
    let s2 := if r0 = 0 then s1 else s1.startEvent 0x080E
    if !areaOk then (s2.stopStart 0x080A).recordFault { s2.faultNow 3 0x080A 0x0A with unitKind := 9, unit := 31 }
    else if !identityOk then s2.stopStart 0x0806
    else
      let s3 := s2.modSec (fun t => { t.supplied rs with identityOk := true })
      match s3.verified 3, s3.verified 4, s3.verified 5 with
      | some _, some lanes, some hbm => ((s3.loadMaps lanes hbm).loadRole).nextStage
      | _, _, _ => s3.stopStart 0x0802

/-! ## Stage 3: the crystal (R468) -/

/-- Four counts pass the start check. -/
def crystalPasses (counts : List Nat) : Bool :=
  counts.length == 4 && counts.all (fun n => decide (98000 ≤ n) && decide (n ≤ 102000)) &&
    counts.all (fun n => counts.all (fun m => decide (n ≤ m + 5)))

/-- The settle delay of the strap OSC_DLY in pilot cycles: 2, 8, 32 or 128 ms (R468). -/
def settleDelay (oscDly : Nat) : Nat := 100000 * 4 ^ oscDly

/-- The settle delay of a power-on start and the 4 windows of 50,000 pilot cycles have passed (R468). -/
def State.crystalCounted (s : State) : Bool :=
  decide (s.clock.stageAt + (if s.clock.warm then 0 else settleDelay s.clock.oscDly) + 200000 ≤ s.pilot)

/-- The end of stage 3, once the crystal has been counted. -/
def State.endCrystal (s : State) (counts : List Nat) (hz : Nat) : State :=
  if !s.crystalCounted then s
  else
  let ok := crystalPasses counts
  let s1 := s.modClock (fun k => { k with xtalPassed := ok, calibrated := hz, calAt := s.pilot })
  (if ok then s1 else (s1.modSource 1 (fun q => { q with failed := true })).startEvent 0x070A).nextStage

/-! ## Stage 4: clocks -/

/-- The end of stage 4: the PLLs lock to the source that R459 selects, H0 and the lamplighter run, and the PCIe link trains. -/
def State.endClocks (s : State) : State :=
  let src := s.selectSource
  let s1 := (s.modClock (fun k => { k with source := src, limited := src == 2, lastBeat := s.pilot })).nextStage
  if s1.clock.perstHeld then s1 else s1.trainLink

/-! ## Stage 5: training (10, R258; 17, R440) -/

def setByte (m : List Byte) (o v : Nat) : List Byte := putBytes m o [BitVec.ofNat 8 v]

/-- A spare field is neither used nor bad. -/
def spareFree (m : List Byte) (o : Nat) : Bool := !bit (byteAt m o) 7 && !bit (byteAt m o) 6

/-- Gives a failing lane the first unused, good spare of its pseudo-channel, else erases it (R258); none when a third lane
would be erased, or when ERASE_EN forbids it. -/
def repairLane (m : List Byte) (channel pc lane : Nat) (eraseEn : Bool) : Option (List Byte) :=
  let o := 0x10 + 16 * channel + 4 * pc
  let erased := fun (e : Nat) => bit (byteAt m e) 7
  if (erased (o + 2) && bits (byteAt m (o + 2)) 5 0 == lane) || (erased (o + 3) && bits (byteAt m (o + 3)) 5 0 == lane) then some m
  else if spareFree m o then some (setByte m o (128 + lane))
  else if spareFree m (o + 1) then some (setByte m (o + 1) (128 + lane))
  else if !eraseEn then none
  else if !erased (o + 2) then some (setByte m (o + 2) (128 + lane))
  else if !erased (o + 3) then some (setByte m (o + 3) (128 + lane))
  else none

/-- Gives a failing command and address lane its channel's spare; none when it finds none. -/
def repairCa (m : List Byte) (channel lane : Nat) : Option (List Byte) :=
  let o := 0x10 + 16 * channel + 8
  if spareFree m o then some (setByte m o (128 + lane)) else none

/-- Lanes erased in service take a spare that is free (R259). -/
def promoteLanes (m : List Byte) : List Byte :=
  (List.range 32).foldl (fun m i =>
    let o := 0x10 + 16 * (i / 2) + 4 * (i % 2)
    [o + 2, o + 3].foldl (fun m e =>
      if !bit (byteAt m e) 7 then m
      else if spareFree m o then setByte (setByte m o (byteAt m e)) e 0
      else if spareFree m (o + 1) then setByte (setByte m (o + 1) (byteAt m e)) e 0
      else m) m) m

/-- The map of a stack after training; none when the stack fails. -/
def trainedMap (m : List Byte) (eraseEn : Bool) (lanes : List (Fin 16 × Option (Fin 2) × Nat)) : Option (List Byte) :=
  (lanes.foldl (fun (r : Option (List Byte)) l =>
    r.bind (fun m => match l.2.1 with
      | some pc => repairLane m l.1.val pc.val l.2.2 eraseEn
      | none => repairCa m l.1.val l.2.2)) (some (promoteLanes m))).map (recount m)

/-- Firmware enables a block, and its check ends (12, R322; 21, R497). -/
def State.firmwareEnable (s : State) (i : Nat) : State :=
  let b := ix 36 i
  (s.modBlk b (fun k => { k with enable := true })).endCheck b

/-- One stack's training; the flag says that it failed. -/
def State.trainStack (s : State) (n : Fin 12) (lanes : List (Fin 16 × Option (Fin 2) × Nat)) : State × Bool :=
  let t := s.stack n
  match trainedMap t.map t.ctrl.eraseEn lanes with
  | some m => ((s.modStack n (fun t => { t with map := m })).firmwareEnable (18 + n.val), false)
  | none => (s, true)

/-- The end of stage 5: the stacks and deep channels are trained and enabled, and the bank is measured. A stack that fails stops
the start with 0x0305. -/
def State.endTraining (s : State) (lanes : List (Fin 12 × Fin 16 × Option (Fin 2) × Nat)) (dv : Nat) : State :=
  let r := (List.finRange 12).foldl (fun (r : State × Bool) n =>
    let q := r.1.trainStack n ((lanes.filter (fun l => l.1 == n)).map (fun l => l.2))
    (q.1, r.2 || q.2)) (s, false)
  let s1 := ((r.1.firmwareEnable 30).firmwareEnable 31).measureBank dv
  let s2 := if s1.stackMapBody = s.stackMapBody then s1 else s1.queueMap 5 s1.stackMapBody
  if r.2 then s2.stopStart 0x0305 else s2.nextStage

/-! ## Stage 7: self-test (R474) -/

/-- Repairs that the self-test owes take effect before stage 7 ends (04, R110, R111). -/
def State.repairArray (s : State) (a : Fin 8) : State :=
  let n := ((s.core (coreOfArray a)).remaps.filter (fun p => p.1 == a)).length
  doArrayDegrade a ((List.range n).foldl (fun s _ => doLaneRemap a s) s)

/-- A core's service after the self-test: none without an array in service, single-array mode with one (04, R112, R113). -/
def State.placeCore (s : State) (c : Fin 4) : State :=
  let up := [0, 1].map (fun b => (s.arr (arrayOf c (ix 2 b))).inService)
  s.modCore c (fun k => { k with inService := up.any id, singleArray := up.any id && !up.all id, leaving := false })

/-- The end of stage 7: the failing sites are recorded and repaired, feed dies, arrays and link dies are enabled, and the ports
train. -/
def State.endSelfTest (s : State) (fails : List (Fin 8 × Nat × Bool)) : State :=
  let s1 := fails.foldl (fun s f => s.iftFail (coreOfArray f.1) (.site (ix 2 f.1.val) f.2.1 f.2.2)) s
  let s2 := (List.finRange 8).foldl State.repairArray s1
  let s3 := ((List.range 12).map (6 + ·)).foldl State.firmwareEnable s2
  let s4 := (List.finRange 4).foldl State.placeCore s3
  (((List.range 4).map (32 + ·)).foldl State.firmwareEnable s4).nextStage

/-! ## Stages 8 and 9 -/

/-- The link window closes: every port is in service, or 10 s have passed. -/
def State.windowClosed (s : State) : Bool :=
  (List.finRange 16).all s.portUp || decide (s.clock.stageAt + 500000000 ≤ s.pilot)

/-- The module is ready (R473): role services start, the SVN floor rises (20, R488), and the in-field tests take their first
minutes (16, R412). -/
def State.becomeReady (s : State) : State :=
  let now := s.faults.minute.toNat
  let s1 := (s.modClock (fun k => { k with ready := true, startReason := 0 })).modSec Sec.raiseFloor
  let s2 := (List.finRange 4).foldl (fun s c => s.modIft c (fun t => { t with nextMinute := now + t.period * (c.val + 1) / 4 })) s1
  s2.modRoles (fun r => { r with readyAt := some s.pilot })

/-- A start may go on: power, no reset, not stopped, not ready. -/
def State.starting (s : State) : Bool :=
  s.board.pwrGood && s.board.goodAt.isSome && s.clock.resetting.isNone && !s.clock.resetHeld && !s.clock.startStopped &&
    !s.clock.ready && !s.faults.fatal

/-- START_STAGE (R473): the stage in progress ends. -/
def doStartStage (o : StageEnd) (s : State) : State :=
  if !s.starting then s
  else match s.clock.stage, o with
    | 1, .plain => s.nextStage
    | 2, .verified a b areaOk identityOk rs => s.endVerify a b areaOk identityOk rs
    | 3, .crystal counts hz => s.endCrystal counts hz
    | 4, .plain => s.endClocks
    | 5, .trained lanes dv => s.endTraining lanes dv
    | 6, .plain => s.nextStage
    | 7, .selfTest fails => s.endSelfTest fails
    | 8, .plain => if s.windowClosed then s.nextStage else s
    | 9, .plain => s.becomeReady
    | _, _ => s

/-- The latest end of a stage in pilot cycles from the start (Table 19.6); after a module reset, stage 3 has no settle delay
(R473). -/
def stageLatest (powerOn : Bool) (stage : Nat) : Nat :=
  let t := match stage with
    | 1 => 50000
    | 2 => 200050000
    | 3 => 206650000
    | 4 => 256650000
    | 5 => 1456650000
    | 6 => 1556650000
    | 7 => 3056650000
    | 8 => 3556650000
    | _ => 3561650000
  if powerOn || decide (stage < 3) then t else t - 6400000

/-- START_STAGE_TIMEOUT (R475): a stage has passed its latest time. -/
def doStartStageTimeout (s : State) : State :=
  if s.starting && decide (s.clock.resetAt + stageLatest (!s.clock.warm) s.clock.stage < s.pilot) then s.stopStart 0x070C
  else s

end Sys2Proof.Machine
end

