-- ==== Sys2Proof/Machine/Tick.lean ====
section
/-! DEFINITION. The pilot cycle that passes while no command waits: waits, watchdogs, lull counters, buffer ages, set points and
idle clocks (07, R181; 10, R261; 13, R341 to R345; 14, R357, R368; 16, R399; 18, R451, R455; 19, R465). -/

namespace Sys2Proof.Machine

open Sys2Proof

/-! ## Waits of queue heads -/

/-- The head of a queue waits for its own condition: it is otherwise clear, and FENCE WAIT, ACQUIRE or UPDATE is not over. -/
def State.ownWait (s : State) (x : Fin 16) (c : Option (Fin 4)) (ev : Bool) (cmd : Cmd) : Bool :=
  s.clearAhead x c ev cmd && !s.waitOver x c cmd

/-- The head of a queue waits only for slot states (R181). -/
def State.slotWait (s : State) (x : Fin 16) (c : Option (Fin 4)) (ev : Bool) (cmd : Cmd) : Bool :=
  s.clearAhead x c ev cmd && s.waitOver x c cmd && !s.claimsFree x c cmd

/-- Counts the wait of a context's head on a core. Test time counts in no starve watchdog (R343). -/
def State.countHead (s : State) (x : Fin 16) (c : Fin 4) (k : CtxCore) : CtxCore :=
  match k.head with
  | none => k
  | some (cmd, ev) =>
    let own := b2n (s.ownWait x (some c) ev cmd)
    let slots := if (s.core c).ift.running then 0 else b2n (s.slotWait x (some c) ev cmd)
    let k1 := { k with starveWait := satAdd k.starveWait slots }
    if ev then { k1 with evalWait := k.evalWait + own, evalStarve := k.evalStarve + slots }
    else { k1 with wait := k.wait + own, starve := k.starve + slots }

/-- The feed die whose slot a head waits for. -/
def State.waitedDie (s : State) (x : Fin 16) (cmd : Cmd) : Option (Fin 4) :=
  ((s.claimsOf x cmd).find? (fun k => !s.canClaim x k)).map (·.die)

/-- Counts the waits of the heads of a context's fabric and memory queues. STARVE_WAIT counts for the die of the slot waited for
(07, Table 7.8). -/
def State.countQueues (s : State) (x : Fin 16) (k : Ctx) : Ctx :=
  let own := fun (q : List Cmd) => match q with | [] => 0 | cmd :: _ => b2n (s.ownWait x none false cmd)
  let waits := match k.fabric with | [] => false | cmd :: _ => s.slotWait x none false cmd
  let die := if waits then k.fabric.head?.bind (s.waitedDie x) else none
  { k with fabricWait := k.fabricWait + own k.fabric, fabricStarve := k.fabricStarve + b2n waits
           memoryWait := k.memoryWait + own k.memory
           cores := Vector.ofFn (fun c => if die = some c
             then { k.cores[c] with starveWait := satAdd k.cores[c].starveWait 1 } else k.cores[c]) }

/-! ## Scheduling counters and lulls (R343, R345, R368) -/

/-- An eligible head of the context stands on a core. -/
def State.readyHead (s : State) (x : Fin 16) (c : Fin 4) : Bool :=
  match (s.cc x c).head with
  | some (cmd, ev) => s.eligible x (some c) ev cmd
  | none => false

/-- SCHED_WAIT and TEST_WAIT of a pilot cycle. -/
def State.countSched (s : State) (x : Fin 16) (c : Fin 4) (k : CtxCore) : CtxCore :=
  if !s.readyHead x c then k
  else if (s.core c).ift.running then { k with testWait := satAdd k.testWait s.cyclesPerPilot }
  else match (s.core c).running with
    | some r => if r.x = x then k else { k with schedWait := satAdd k.schedWait s.cyclesPerPilot }
    | none => k

/-- The fabric commands in a peer wait that hold the token or a slot that a head waits on: the token's SIGNAL stands behind
them in the fabric queue, or the slot is claimed by one. -/
def State.heldByPeer (s : State) (x : Fin 16) (cmd : Cmd) : List (Run × Fab) :=
  let waits := (s.fabRuns x).filter (fun p => s.inPeerWait p.1 p.2)
  if cmd.op = 0x60 then
    if (s.ctx x).fabric.any (fun m => m.op == 0x60 && byteAt m.desc 1 == 0 && byteAt m.desc 2 == byteAt cmd.desc 2)
    then waits else []
  else
    let short := (s.claimsOf x cmd).filter (fun k => !s.canClaim x k)
    waits.filter (fun p => p.1.claims.any (fun q => short.any (fun k => k.die == q.die && k.slot == q.slot)))

/-- A context waits on a page in motion, on deep space, or on pages queued for the drift engine. -/
def State.pagesWait (s : State) (x : Fin 16) : Bool :=
  !s.writesLanded x || s.tiers.reqs.any (fun r => r.x == x) || s.tiers.moves.any (fun m => m.x == x)

/-- The cause of a waiting head, as a position in Table 14.7 (R368): 1 throttled peer, 0 late peer, 2 migration, 3 host data,
4 fence; none for a wait that the table does not name. -/
def State.waitCause (s : State) (x : Fin 16) (c : Fin 4) (cmd : Cmd) : Option (Fin 7) :=
  let own := !s.waitOver x (some c) cmd || !s.claimsFree x (some c) cmd
  let peers := if own then s.heldByPeer x cmd else []
  if peers.any (fun p => s.peerThrottled (s.awaits p.1 p.2)) then some 1
  else if !peers.isEmpty then some 0
  else if own && s.pagesWait x then some 2
  else if ((s.ctx x).openPackets cmd.seq).any (fun p => cmd.regions.any p.conflicts) then some 3
  else if own then some 4
  else none

/-- Of the array cycles of a pilot cycle, those that a duty of d sixty-fourths withholds; the pilot cycle spreads the rest. -/
def withheld (cycles d p : Nat) : Nat := cycles * (64 - d) * (p + 1) / 64 - cycles * (64 - d) * p / 64

/-- Adds to one lull counter. -/
def Ctx.lull (k : Ctx) (i : Fin 7) (n : Nat) : Ctx := { k with lulls := vmod k.lulls i (fun v => satAdd v n) }

/-- The lull cycles of a context on a core (R368; 18, R444): those that the duty of the issuing arrays withholds, but none while the core
waits for its ramp. -/
def State.countLull (s : State) (x : Fin 16) (c : Fin 4) (k : Ctx) : Ctx :=
  if (s.core c).ift.running then k
  else match (s.core c).running with
    | some r =>
      if r.x ≠ x then k
      else
        let d := (s.core c).issuing.foldl (fun m a => min m (s.arr a).duty) 64
        let n := if s.power.rampReqs.any (fun q => q.core == c) then 0 else withheld s.cyclesPerPilot d s.pilot
        let k1 := if n = 0 then k else k.lull (if (s.core c).thermalDuty = d then 6 else 5) n
        if s.landed r then k1 else k1.lull 2 (s.cyclesPerPilot - n)
    | none =>
      match (s.cc x c).head with
      | some (cmd, _) =>
        match s.waitCause x c cmd with
        | some i => k.lull i s.cyclesPerPilot
        | none => k
      | none => k

/-- A context after one pilot cycle. -/
def State.tickCtx (s : State) (x : Fin 16) : Ctx :=
  let k := s.countQueues x (s.ctx x)
  let k1 := { k with cores := Vector.ofFn (fun c => s.countSched x c (s.countHead x c k.cores[c])) }
  (List.finRange 4).foldl (fun k c => s.countLull x c k) k1

/-! ## Watchdogs (R341, R399) -/

/-- A dispatched command is in a wait with its own limit. -/
def State.ownLimit (s : State) (r : Run) : Bool :=
  !s.landed r || s.tiers.reqs.any (fun q => q.run == some r.id) || s.tiers.moves.any (fun m => m.runs.contains r.id) ||
    (match s.fabOf r.id with | some g => s.inPeerWait r g | none => false)

/-- Counts the watchdog of a dispatched command. -/
def State.countRun (s : State) (r : Run) : Run := if s.ownLimit r then r else { r with count := r.count + 1 }

/-- Counts the watchdogs of the commands in a context's fabric and memory queues. -/
def State.countRuns (s : State) (k : Ctx) : Ctx :=
  { k with fabricRun := k.fabricRun.map s.countRun, memoryRun := k.memoryRun.map s.countRun }

/-- A span waits for slot claims, which its limit leaves out. -/
def State.spanSlotWait (s : State) (c : Fin 4) (sp : Span) : Bool :=
  (s.core c).running.isNone &&
    (match (s.cc sp.x c).head with
      | some (cmd, ev) => s.slotWait sp.x (some c) ev cmd
      | none => false)

/-- A core after one pilot cycle: its watchdog, its span and its test. -/
def State.tickCore (s : State) (c : Fin 4) : CoreS :=
  let k := s.core c
  { k with
    running := if k.ift.running then k.running else k.running.map s.countRun
    span := k.span.map (fun sp => if k.ift.running || s.spanSlotWait c sp then sp else { sp with count := sp.count + 1 })
    ift := { k.ift with waited := k.ift.waited + b2n (k.ift.due && !k.ift.running)
                        ran := if k.ift.running then k.ift.ran + s.cyclesPerPilot else k.ift.ran } }

/-- Open entries of the write-combining buffers age (10, R261). -/
def State.ageWcb (s : State) : State :=
  let n := s.cyclesPerPilot
  { s with hbm := s.hbm.map (fun (t : StackS) => { t with wcb := t.wcb.map (fun e => { e with age := e.age + n }) }) }

/-- While a core runs a command, the requests that bank arbitration refuses on its feed die and the same-row collisions in the rows of
the command's context depend on array cycles that the model does not follow: both counts grow by a free value (07, R163, R180; log
137). -/
def State.countBanks (s : State) (c : Fin 4) : State :=
  match (s.core c).running with
  | none => s
  | some r =>
    let (n, s1) := s.occasion
    let (m, s2) := s1.occasion
    (s2.modFeed c (fun f => { f with bankDefer := satAdd f.bankDefer (Config.choice n) })).modCC r.x c
      (fun k => { k with rawCollide := satAdd k.rawCollide (Config.choice m) })

/-- A disabled stack controller in loop-back mode 1, 2 or 3 counts the bit errors of its 38 lanes on each of 32 pseudo-channels
(10, R264). How many a lane shows in a pilot cycle, of at most 256 bits, is free (log 60). -/
def State.countLanes (s : State) (n : Fin 12) : State :=
  let mode := (s.stack n).ctrl.loopback
  if s.blkEnabled (ix 36 (18 + n.val)) || mode == 0 || decide (3 < mode) then s
  else
    let (k, s1) := s.occasion
    let found := fun (i : Nat) => (Config.freeByte k i).toNat + (Config.freeByte k (1216 + i)).toNat % 2
    s1.modStack n (fun t => { t with
      laneErr := (List.range 1216).map (fun i => (i, satAdd ((alookup i t.laneErr).getD 0) (found i))) })

/-- H1 counts the symbols that reads of a stack have corrected (16, R407): one position of one pseudo-channel corrected in 64 reads
within 50,000 pilot cycles is a transient of its lane, and its count starts anew. -/
def State.countFixes (s : State) (n : Fin 12) : State :=
  let t := s.stack n
  let all := t.fixTimes.filter (fun f => decide (s.pilot < f.2 + 50000)) ++ t.fixes.map (fun k => (k, s.pilot))
  let due := t.fixes.eraseDups.filter (fun k => decide (64 ≤ (all.filter (fun f => f.1 == k)).length))
  let s1 := s.modStack n (fun t => { t with fixes := [], fixTimes := all.filter (fun f => !due.contains f.1) })
  due.foldl (fun s k => s.transient 5 (stackLaneUnit n.val (k / 72) (k / 36 % 2) (k % 36)) s.faults.minute.toNat 1) s1

/-- What a pilot cycle does while the fast domains run. -/
def State.tickFast (s : State) : State :=
  let t := { s with arrayTime := s.arrayTime + s.cyclesPerPilot, cores := Vector.ofFn s.tickCore
                    hub := { s.hub with ctxs := Vector.ofFn (fun x => s.countRuns (s.tickCtx x)) } }
  ((List.finRange 12).foldl State.countLanes ((List.finRange 4).foldl State.countBanks t.ageWcb)).tickFabric

/-! ## Set points, clocks and the input sensor -/

/-- A set point moves 1 mV per 50 pilot cycles up, and 1 mV per 100 down, counted from the pilot cycle in which it turns (R451). -/
def Rail.slewTo (k : Rail) (target : Nat) : Rail :=
  if k.setMv = target then { k with slew := 0 }
  else
    let up := decide (k.setMv < target)
    let n := if k.rising == up then k.slew + 1 else 1
    if (if up then 50 else 100) ≤ n then { k with setMv := if up then k.setMv + 1 else k.setMv - 1, slew := 0, rising := up }
    else { k with slew := n, rising := up }

/-- Set points of the array rails, and idle time of the clock domains (R451, R455). -/
def State.tickPower (s : State) : State :=
  s.modPower (fun p => { p with
    rails := Vector.ofFn (fun r =>
      if r.val < 8 then p.rails[r].slewTo (levelMv (s.level (ix 4 (r.val / 2)))) else p.rails[r])
    domains := Vector.ofFn (fun d => { p.domains[d] with
      idle := if s.inUse d then 0 else p.domains[d].idle + 1 }) })

/-- IN_STATUS takes new values each 1 ms (22, Table 22.4); the manual fixes neither. -/
def State.tickInput (s : State) : State :=
  if s.pilot % 50000 ≠ 0 then s
  else
    let (n, s1) := s.occasion
    let (m, s2) := s1.occasion
    { s2 with board := { s2.board with vinMv := (Config.freeWord n).toNat % 65536, iinCa := (Config.freeWord m).toNat % 65536 } }

/-- One pilot cycle. Nothing but the time advances while the always-on rail is off; a pause or a reset stops what runs in the
fast domains. -/
def doTick (s : State) : State :=
  let t := { s with pilot := s.pilot + 1 }
  if !s.board.aonOn then t
  else
    let t1 := if s.fastUp && s.board.railsOn then t.tickFast else t
    ((List.finRange 12).foldl State.countFixes t1.tickPower).tickInput

end Sys2Proof.Machine
end

