-- ==== Sys2Proof/Machine/Gate.lean ====
section
/-! DEFINITION. Where a command finds the logic that it acts on: power and resets (19, Tables 19.5 and 19.6; 22, R510 to R512).
A command to logic that is unpowered, held in reset or not yet started finds nothing there and changes nothing. -/

namespace Sys2Proof.Machine

open Sys2Proof

/-- What a command answers. -/
abbrev Result := Host.Outcome State Fault Refusal

/-- H1 and its firmware run: the always-on rail is on and no module reset is held or waits to run. -/
def State.h1Up (s : State) : Bool := s.board.aonOn && !s.clock.resetHeld && !s.moduleAsked

/-- The dies other than H1 have power, and H1 runs. -/
def State.diesUp (s : State) : Bool := s.h1Up && s.board.railsOn

/-- The lamplighter runs: stage 4 of the start has ended and no reset holds it. -/
def State.lampUp (s : State) : Bool := s.diesUp && s.clock.resetting.isNone && decide (5 ≤ s.clock.stage)

/-- A command to the host interface of the hub. -/
def inHub (f : State → State) (s : State) : Result := .next (if s.hubUp then f s else s)

/-- A command to the role services of the lamplighter. -/
def inLamp (f : State → State) (s : State) : Result := .next (if s.lampUp then f s else s)

/-- A command to the cores, arrays, memories, tiers and links. -/
def inDies (f : State → State) (s : State) : Result := .next (if s.diesUp then f s else s)

/-- A command to H1. -/
def inH1 (f : State → State) (s : State) : Result := .next (if s.h1Up then f s else s)

/-- A command to the pins and the logic on the always-on rail. -/
def inAon (f : State → State) (s : State) : Result := .next (if s.board.aonOn then f s else s)

/-- An event of the board and its power. -/
def onBoard (f : State → State) (s : State) : Result := .next (f s)

end Sys2Proof.Machine
end

