-- ==== Sys2Proof/Machine/ClockCommands.lean ====
section
/-! DEFINITION. The meanings of the commands of one family: reference clocks, resets, start and power pins (19, 22). -/

namespace Sys2Proof.Machine

open Sys2Proof

/-- MONITOR_WINDOW (R461). -/
def execMonitorWindow (rec : Option Nat) (xtal : Option Nat) (s : State) : Result := inH1 (doMonitorWindow rec xtal) s

/-- SWITCH_PAUSE_END (R465). -/
def execSwitchPauseEnd (s : State) : Result := inH1 doSwitchPauseEnd s

/-- OSCILLATOR_CALIBRATE (R462). -/
def execOscillatorCalibrate (hz : Nat) (s : State) : Result := inH1 (doOscillatorCalibrate hz) s

/-- CLK_CTRL_WRITE (R467). -/
def execClkCtrlWrite (v : W32) (s : State) : Result := inHub (doClkCtrlWrite v) s

/-- POWER_ON_RESET (R470). -/
def execPowerOnReset (osc : Fin 4) (slot : Fin 64) (s : State) : Result := inAon (doPowerOnReset osc slot) s

/-- MOD_RESET_N (R514). -/
def execModResetN (low : Bool) (s : State) : Result := inAon (doModResetN low) s

/-- MODULE_RESET (R471). -/
def execModuleReset (s : State) : Result := inAon doModuleReset s

/-- HUB_RESET (R470). -/
def execHubReset (s : State) : Result := inH1 doHubReset s

/-- PERST_N (R470). -/
def execPerstN (low : Bool) (s : State) : Result := inAon (doPerstN low) s

/-- RESET_CTRL_WRITE (R470). -/
def execResetCtrlWrite (v : W32) (s : State) : Result := inHub (doResetCtrlWrite v) s

/-- BMC_MODULE_RESET (R518). -/
def execBmcModuleReset (v : W32) (s : State) : Result := inH1 (doBmcModuleReset v) s

/-- BMC_HUB_RESET (R518). -/
def execBmcHubReset (v : W32) (s : State) : Result := inH1 (doBmcHubReset v) s

/-- START_STAGE (R473). -/
def execStartStage (o : StageEnd) (s : State) : Result := inH1 (doStartStage o) s

/-- START_STAGE_TIMEOUT (R475). -/
def execStartStageTimeout (s : State) : Result := inH1 doStartStageTimeout s

/-- LL_HEARTBEAT (R472). -/
def execLlHeartbeat (s : State) : Result := inDies doLlHeartbeat s

/-- LL_HEARTBEAT_LOSS (R472). -/
def execLlHeartbeatLoss (s : State) : Result := inH1 doLlHeartbeatLoss s

/-- MOD_PWR_EN_ASSERT (R511). -/
def execModPwrEnAssert (bankMv : Nat) (s : State) : Result := onBoard (doModPwrEnAssert bankMv) s

/-- MOD_PWR_EN_DEASSERT (R512). -/
def execModPwrEnDeassert (s : State) : Result := onBoard doModPwrEnDeassert s

/-- VIN_UNDERVOLTAGE (R510). -/
def execVinUndervoltage (mv : Nat) (s : State) : Result := onBoard (doVinUndervoltage mv) s

/-- VIN_OVERVOLTAGE (R510). -/
def execVinOvervoltage (mv : Nat) (s : State) : Result := onBoard (doVinOvervoltage mv) s

/-- VIN_RETURN (R510). -/
def execVinReturn (mv : Nat) (s : State) : Result := onBoard (doVinReturn mv) s

/-- HOLDOVER (R465). -/
def execHoldover (s : State) : Result := inH1 doHoldover s

/-- HOT_RESET (R470). -/
def execHotReset (s : State) : Result := inHub doHotReset s

end Sys2Proof.Machine
end

