-- ==== Sys2Proof/Machine/Arrays.lean ====
section
/-! DEFINITION. What happens on the arrays beside the commands that run on them: look-ahead loads, swaps and cold arrays (04, R86 to
R107). -/

namespace Sys2Proof.Machine

open Sys2Proof

/-- The sides of a product that an array runs: its own, or in single-array mode both in turn (R112). -/
def State.sidesOn (s : State) (a : Fin 8) : List Nat := [0, 1].filter (fun side => s.arrayFor (coreOfArray a) side == a)

/-- The tiles of an MM on an array, in the order of their loads: column block, side and number of the tile (R90, R118). -/
def State.mmLoadsOn (s : State) (a : Fin 8) (m : MMArgs) (loads : Nat) : List (Nat × Nat × Nat) :=
  (List.range m.blocks).flatMap (fun b => (List.range m.groups).flatMap (fun _ =>
    ((s.sidesOn a).filter (fun side => !(m.cols b side).isEmpty)).flatMap (fun side => (List.range loads).map (fun j => (b, side, j)))))

/-- The key tiles of the first query block of an attention command on an array: the side of each pass; the tiles after them hold
what the command forms itself (R128, R204). -/
def State.keyLoadsOn (s : State) (a : Fin 8) (m : AttendArgs) (keys : Nat) : List Nat :=
  (List.range (ceilDiv (min m.qb m.m) 512)).flatMap (fun _ => (s.sidesOn a).filter (fun side => decide (4096 * side < keys)))

/-- The first key block that an attention command uses: first key and length. -/
def firstKeys (m : AttendArgs) : Option (Nat × Nat) :=
  (blocksOf m.nk m.kb).find? (fun b => !blockSkipped m 0 (min m.qb m.m) b.1)

/-- Tile i of a queued array command on an array, as its load brings it (R87, R88, R103): none where the command loads no such tile,
or forms it itself. -/
def State.nextTile (s : State) (x : Fin 16) (a : Fin 8) (cmd : Cmd) (i : Nat) : Option Bank :=
  let c := coreOfArray a
  if cmd.op = 0x10 then
    let m := mmArgs cmd
    let w := cmd.tensorD 6
    ((s.mmLoadsOn a m (mmLoads m (cmd.tensorD 4).fmt w.fmt))[i]?).map (fun t => s.mmTile x c m w .ready t.1 t.2.1 t.2.2)
  else if cmd.op = 0x11 then
    let m := mmbArgs cmd
    let loads := mmbLoads m ⟨true, 0, 0⟩
    let sides := (s.sidesOn a).filter (fun side => !(sideCols m.k 0 side).isEmpty)
    ((sides.flatMap (fun side => (List.range loads).map (fun j => (side, j))))[i]?).map (fun t =>
      s.twbTile x c m (cmd.tensorD 8) .ready 0 t.1 t.2)
  else
    let m := if cmd.op = 0x12 then attendArgs cmd else attendBArgs cmd
    match firstKeys m with
    | none => none
    | some (k0, n) => ((s.keyLoadsOn a m n)[i]?).map (fun side =>
        let ks := (s.headRows x c (cmd.tensorD 4) m.hkv 0 k0 n).map (·.map PV.exact)
        Bank.tile .ready .bf16 (((ks.drop (4096 * side)).take 4096).map exactBytes))

/-- The next command of the core's context, if its tiles may be loaded ahead (R103). -/
def State.aheadCmd (s : State) (c : Fin 4) : Option (Cmd × Bool) :=
  match (s.cc (s.core c).current c).head with
  | some (cmd, ev) =>
    if 0x10 ≤ cmd.op && cmd.op ≤ 0x13 && !(cmd.op == 0x10 && (cmd.tensorD 6).space == 1) && !(s.core c).reload &&
        (match (s.core c).span with | some sp => !sp.replayDue | none => true)
    then some (cmd, ev) else none
  | none => none

/-- The next command of the running command's queue, if its first tile may be loaded ahead: the running command is an array command
of the same queue, and its rows issue (R103). -/
def State.lookaheadCmd (s : State) (c : Fin 4) : Option Cmd :=
  match (s.core c).running, s.aheadCmd c with
  | some r, some (cmd, ev) =>
    if ev == r.cmd.eval && 0x10 ≤ r.cmd.op && r.cmd.op ≤ 0x13 && !r.out.failed && s.power.rampReqs.all (fun q => q.core != c)
    then some cmd else none
  | _, _ => none

/-- LOOKAHEAD_LOAD (R93, R103): the load of the next command's first tile begins in the shadow bank of each array that loads one. -/
def doLookaheadLoad (c : Fin 4) (s : State) : State :=
  match s.lookaheadCmd c with
  | none => s
  | some cmd => [0, 1].foldl (fun s b =>
      let a := arrayOf c b
      let t := s.arr a
      if t.inService && t.ahead == 0 && t.banks[ix 2 (t.activeBank.val + 1)].state == .empty &&
          (s.nextTile (s.core c).current a cmd 0).isSome then
        s.modArr a (fun t => { t with banks := vmod t.banks (ix 2 (t.activeBank.val + 1)) (fun _ => { Bank.blank with state := .loading }) })
      else s) s

/-- BANK_LOAD_DONE (R87, R88): the load into the shadow bank ends with its witness and magnitude columns complete. A parity mismatch
met during the load stays with the tile (R388). A load whose command has gone is dropped. -/
def doBankLoadDone (a : Fin 8) (s : State) : State :=
  let c := coreOfArray a
  let t := s.arr a
  let sh : Fin 2 := ix 2 (t.activeBank.val + 1)
  if t.banks[sh].state != .loading then s
  else match (s.aheadCmd c).bind (fun m => s.nextTile (s.core c).current a m.1 t.ahead) with
    | some b => s.modArr a (fun t => { t with banks := vmod t.banks sh (fun k => { b with poison := b.poison || k.poison }) })
    | none => s.modArr a ArrayS.dropShadow

/-- BANK_SWAP (R86, R89): once the last row of the current K-tile has issued, the shadow bank, fully loaded, becomes active and the
old active bank the shadow, into which the load of the next tile begins if there is one. Rows of the tile so made active issue only
when its command is dispatched, so that no second swap comes before. -/
def doBankSwap (a : Fin 8) (s : State) : State :=
  let c := coreOfArray a
  let t := s.arr a
  let sh : Fin 2 := ix 2 (t.activeBank.val + 1)
  if t.banks[sh].state != .ready || t.ahead != 0 || (s.core c).ift.running || s.power.rampReqs.any (fun q => q.core == c) then s
  else
    let more := ((s.aheadCmd c).bind (fun m => s.nextTile (s.core c).current a m.1 1)).isSome
    s.modArr a (fun t => { t with
      activeBank := sh, ahead := 1
      banks := vmod (vmod t.banks sh (fun k => { k with state := .active })) t.activeBank (fun _ =>
        if more then { Bank.blank with state := .loading } else Bank.blank) })

/-- ARRAY_COLD (R107): an array that has issued no row for 1,024 array cycles becomes cold. A running array command counts as issuing
rows until it ends (DESIGN CHOICE, log 130). -/
def doArrayCold (a : Fin 8) (s : State) : State :=
  let t := s.arr a
  let k := s.core (coreOfArray a)
  if !t.cold && !k.issuing.contains a && !k.ift.running && decide (1024 ≤ s.arrayTime - t.lastIssue) then
    s.modArr a (fun t => { t with cold := true })
  else s

end Sys2Proof.Machine
end

