-- ==== Sys2Proof/Machine/CoreCommands.lean ====
section
/-! DEFINITION. The meanings of the commands of one family: commands of the queues, arrays, spans, watchdogs, tiers and near memory (04 to 11, 13, 16). -/

namespace Sys2Proof.Machine

open Sys2Proof

/-- MM (R118). -/
def execMm (c : Fin 4) (hold : Bool) (ups : List Upset) (s : State) : Result := inDies (doMm c hold ups) s

/-- MMB (R190). -/
def execMmb (c : Fin 4) (ups : List Upset) (s : State) : Result := inDies (doMmb c ups) s

/-- ATTEND (R128). -/
def execAttend (c : Fin 4) (ups : List Upset) (s : State) : Result := inDies (doAttend c ups) s

/-- ATTEND_B (R204). -/
def execAttendB (c : Fin 4) (ups : List Upset) (s : State) : Result := inDies (doAttendB c ups) s

/-- VEC (R147). -/
def execVec (c : Fin 4) (s : State) : Result := inDies (doVec c) s

/-- NORM (R150). -/
def execNorm (c : Fin 4) (s : State) : Result := inDies (doNorm c) s

/-- NORM_B (R200). -/
def execNormB (c : Fin 4) (s : State) : Result := inDies (doNormB c) s

/-- QUANT (R151). -/
def execQuant (c : Fin 4) (s : State) : Result := inDies (doQuant c) s

/-- GATHER_E (R153). -/
def execGatherE (c : Fin 4) (s : State) : Result := inDies (doGatherE c) s

/-- COPY (R156). -/
def execCopy (c : Fin 4) (s : State) : Result := inDies (doCopy c) s

/-- UPDATE (R218). -/
def execUpdate (c : Fin 4) (x : Fin 16) (bad : List (Nat × Bool)) (s : State) : Result := inDies (doUpdate c x bad) s

/-- PRECOND (R237). -/
def execPrecond (c : Fin 4) (s : State) : Result := inDies (doPrecond c) s

/-- COLL (R360). -/
def execColl (x : Fin 16) (s : State) : Result := inDies (doColl x) s

/-- SEND (R362). -/
def execSend (x : Fin 16) (s : State) : Result := inDies (doSend x) s

/-- RECV (R362). -/
def execRecv (x : Fin 16) (s : State) : Result := inDies (doRecv x) s

/-- SHARD_GATHER (R364). -/
def execShardGather (x : Fin 16) (s : State) : Result := inDies (doShardGather x) s

/-- MIGRATE (R286). -/
def execMigrate (x : Fin 16) (s : State) : Result := inDies (doMigrate x) s

/-- LAYER_PLAN_START (R290). -/
def execLayerPlanStart (x : Fin 16) (s : State) : Result := inDies (doLayerPlanStart x) s

/-- LAYER_PLAN_STOP (R289). -/
def execLayerPlanStop (x : Fin 16) (s : State) : Result := inDies (doLayerPlanStop x) s

/-- PIN (R287). -/
def execPin (x : Fin 16) (s : State) : Result := inDies (doPin x) s

/-- UNPIN (R287). -/
def execUnpin (x : Fin 16) (s : State) : Result := inDies (doUnpin x) s

/-- FENCE_SIGNAL (R331). -/
def execFenceSignal (q : QRef) (s : State) : Result := inDies (doFenceSignal q) s

/-- FENCE_WAIT (R332). -/
def execFenceWait (q : QRef) (s : State) : Result := inDies (doFenceWait q) s

/-- ACQUIRE (R231). -/
def execAcquire (q : QRef) (s : State) : Result := inDies (doAcquire q) s

/-- RELEASE (R232). -/
def execRelease (q : QRef) (s : State) : Result := inDies (doRelease q) s

/-- SPAN_OPEN (R397). -/
def execSpanOpen (c : Fin 4) (s : State) : Result := inDies (doSpanOpen c) s

/-- SPAN_CLOSE (R398). -/
def execSpanClose (c : Fin 4) (s : State) : Result := inDies (doSpanClose c) s

/-- HINT (R451). -/
def execHint (q : QRef) (s : State) : Result := inDies (doHint q) s

/-- CENSUS (R81). -/
def execCensus (q : QRef) (s : State) : Result := inDies (doCensus q) s

/-- NOP (R306). -/
def execNop (q : QRef) (s : State) : Result := inDies (doNop q) s

/-- COMMAND_COMPLETE (R330). -/
def execCommandComplete (q : QRef) (i : Nat) (charge : Nat) (s : State) : Result := inDies (doCommandEnd q i charge) s

/-- LOOKAHEAD_LOAD (R103). -/
def execLookaheadLoad (c : Fin 4) (s : State) : Result := inDies (doLookaheadLoad c) s

/-- BANK_LOAD_DONE (R87). -/
def execBankLoadDone (a : Fin 8) (s : State) : Result := inDies (doBankLoadDone a) s

/-- BANK_SWAP (R89). -/
def execBankSwap (a : Fin 8) (s : State) : Result := inDies (doBankSwap a) s

/-- ROW_DRAIN (R96). -/
def execRowDrain (a : Fin 8) (ups : List (Nat × W32)) (s : State) : Result := inDies (doRowDrain a ups) s

/-- SPAN_REPLAY (R401). -/
def execSpanReplay (c : Fin 4) (s : State) : Result := inDies (doSpanReplay c) s

/-- REPLAY_DECISION (R402). -/
def execReplayDecision (c : Fin 4) (rows : List SelfTestRow) (s : State) : Result := inDies (doReplayDecision c rows) s

/-- LANE_REMAP (R110). -/
def execLaneRemap (a : Fin 8) (s : State) : Result := inDies (doLaneRemap a) s

/-- ARRAY_DEGRADE (R111). -/
def execArrayDegrade (a : Fin 8) (s : State) : Result := inDies (doArrayDegrade a) s

/-- CORE_OUT_OF_SERVICE (R342). -/
def execCoreOutOfService (c : Fin 4) (s : State) : Result := inDies (doCoreOutOfService c) s

/-- STARVE_TIMEOUT (R181). -/
def execStarveTimeout (q : QRef) (x : Fin 16) (s : State) : Result := inDies (doStarveTimeout q x) s

/-- OVERRUN_TIMEOUT (R182). -/
def execOverrunTimeout (x : Fin 16) (die : Fin 4) (i : Nat) (s : State) : Result := inDies (doOverrunTimeout x die i) s

/-- COMMAND_WATCHDOG (R341). -/
def execCommandWatchdog (q : QRef) (i : Nat) (s : State) : Result := inDies (doCommandWatchdog q i) s

/-- SPAN_TIMEOUT (R399). -/
def execSpanTimeout (c : Fin 4) (s : State) : Result := inDies (doSpanTimeout c) s

/-- FENCE_WAIT_TIMEOUT (R333). -/
def execFenceWaitTimeout (q : QRef) (x : Fin 16) (s : State) : Result := inDies (doFenceWaitTimeout q x) s

/-- ACQUIRE_TIMEOUT (R231). -/
def execAcquireTimeout (q : QRef) (x : Fin 16) (s : State) : Result := inDies (doAcquireTimeout q x) s

/-- UPDATE_WAIT_TIMEOUT (R233). -/
def execUpdateWaitTimeout (c : Fin 4) (x : Fin 16) (s : State) : Result := inDies (doUpdateWaitTimeout c x) s

/-- PEER_WAIT_TIMEOUT (R357). -/
def execPeerWaitTimeout (x : Fin 16) (i : Nat) (s : State) : Result := inDies (doPeerWaitTimeout x i) s

/-- DEEP_SPACE_TIMEOUT (R280). -/
def execDeepSpaceTimeout (i : Nat) (s : State) : Result := inDies (doDeepSpaceTimeout i) s

/-- PAGE_MOVE (R282). -/
def execPageMove (x : Fin 16) (s : State) : Result := inDies (doPageMove x) s

/-- PAGE_SWITCH (R282). -/
def execPageSwitch (page : Nat) (s : State) : Result := inDies (doPageSwitch page) s

/-- MOVE_TIMEOUT (R283). -/
def execMoveTimeout (page : Nat) (s : State) : Result := inDies (doMoveTimeout page) s

/-- MOVE_RETRY (R283). -/
def execMoveRetry (page : Nat) (s : State) : Result := inDies (doMoveRetry page) s

/-- SCRUB_READ (R248). -/
def execScrubRead (n : Fin 12) (sector : Nat) (err : List (Nat × W16)) (s : State) : Result := inDies (doScrubRead n sector err) s

/-- WCB_AGE_FLUSH (R261). -/
def execWcbAgeFlush (n : Fin 12) (sector : Nat) (s : State) : Result := inDies (doWcbAgeFlush n sector) s

/-- WCB_HIGH_FLUSH (R261). -/
def execWcbHighFlush (n : Fin 12) (s : State) : Result := inDies (doWcbHighFlush n) s

/-- ARRAY_COLD (R107). -/
def execArrayCold (a : Fin 8) (s : State) : Result := inDies (doArrayCold a) s

/-- COMPACTION (R280). -/
def execCompaction (ch : Fin 16) (s : State) : Result := inDies (doCompaction ch) s

end Sys2Proof.Machine
end

