-- ==== Sys2Proof/Machine/FaultCommands.lean ====
section
/-! DEFINITION. The meanings of the commands of one family: faults, history, module store and in-field tests (16, 17). -/

namespace Sys2Proof.Machine

open Sys2Proof

/-- FAULT_RECORD (R427). -/
def execFaultRecord (f : Option EnvFault) (s : State) : Result := inH1 (doFaultRecord f) s

/-- FAULT_HANDLE (R429). -/
def execFaultHandle (finish : Bool) (s : State) : Result := inH1 (doFaultHandle finish) s

/-- FAULT_STATUS_WRITE (R431). -/
def execFaultStatusWrite (v : W32) (s : State) : Result := inH1 (doFaultStatusWrite v) s

/-- MINUTE_TICK (R408). -/
def execMinuteTick (s : State) : Result := inAon doMinuteTick s

/-- STORE_BATCH (R439). -/
def execStoreBatch (vMv : Nat) (s : State) : Result := inH1 (doStoreBatch vMv) s

/-- STORE_BATCH_DONE (R438). -/
def execStoreBatchDone (s : State) : Result := inH1 doStoreBatchDone s

/-- HOLDUP_LOW (R439). -/
def execHoldupLow (s : State) : Result := inH1 doHoldupLow s

/-- CAPACITANCE_MEASURE (R440). -/
def execCapacitanceMeasure (dv : Nat) (s : State) : Result := inH1 (doCapacitanceMeasure dv) s

/-- IFT_DUE (R412). -/
def execIftDue (c : Fin 4) (s : State) : Result := inH1 (doIftDue c) s

/-- IFT_RUN (R411). -/
def execIftRun (c : Fin 4) (s : State) : Result := inDies (doIftRun c) s

/-- IFT_FORCE (R343). -/
def execIftForce (c : Fin 4) (s : State) : Result := inH1 (doIftForce c) s

/-- IFT_RUN_NOW (R412). -/
def execIftRunNow (c : Fin 4) (s : State) : Result := inH1 (doIftRunNow c) s

/-- IFT_END (R412). -/
def execIftEnd (c : Fin 4) (fs : List IftFail) (s : State) : Result := inDies (doIftEnd c fs) s

end Sys2Proof.Machine
end

