-- ==== Sys2Proof/Machine/Control.lean ====
section
/-! DEFINITION. CONTROL packets of contexts, windows, areas, tables and pages (12, R310 to R312; 03, R56 to R58; 07, R164
to R174; 09, R213, R214; 10, R251; 11, R272 to R275; 13, R336). -/

namespace Sys2Proof.Machine

open Sys2Proof

/-- Ends a CONTROL packet: it is refused with a reason, or has its effect and finishes. -/
def State.control (s : State) (x : Fin 16) (p : Pkt) (reason : Nat) (f : State → State) : State :=
  if reason ≠ 0 then s.refusePacket x p reason 0 else (f s).donePacket x p

/-- The first reason whose condition holds, or 0. -/
def firstReason : List (Bool × Nat) → Nat
  | [] => 0
  | (b, r) :: l => if b then r else firstReason l

/-- The state in which a context can be the TARGET of the physical function's settings. -/
def State.live (s : State) (x : Fin 16) : Bool := (s.ctx x).state == .active

/-! ## CREATE and DESTROY (12, R311, R312) -/

/-- A power of two from 64 to 65,536. -/
def ringSizeOk (n : Nat) : Bool := (List.range 11).any (fun k => n == 2 ^ (k + 6))

/-- The fields of CREATE are valid (R311). -/
def createOk (h : List Byte) : Bool :=
  fld h 0x18 8 % 4096 == 0 && ringSizeOk (fld h 0x20 4) && (List.range 9).all (fun i => decide (byteAt h (0x30 + i) ≤ 63))

/-- Every stack controller is enabled (10, R264). -/
def State.stacksOn (s : State) : Bool :=
  (List.range 12).all (fun i => s.blks[ix 36 (18 + i)].enabled)

/-- A new context with what its function keeps (R311, Table 13.1). -/
def newCtx (k : Ctx) (h : List Byte) : Ctx :=
  { Ctx.blank with
    state := .active, lastReason := k.lastReason, lastRefused := k.lastRefused, seqExpect := k.seqExpect
    lateWrites := k.lateWrites, sealRefused := k.sealRefused, eventsDropped := k.eventsDropped, slots := k.slots
    ringAddr := BitVec.ofNat 64 (fld h 0x18 8), ringEntries := fld h 0x20 4, jobSeed := BitVec.ofNat 64 (fld h 0x28 8)
    vecMap := (List.range 9).map (fun i => byteAt h (0x30 + i)) }

/-- The events of the start reach context 0 when it first exists (19, R468; 20, R481). -/
def State.postStartEvents (s : State) : State :=
  let t := { s with sec := { s.sec with startEvents := [] } }
  s.sec.startEvents.foldl (fun s r => s.event 0 r []) t

/-- CREATE (R311; 17, R425). -/
def doCreate (x : Fin 16) (i : Fin 8) (s : State) : State :=
  match s.packetAt x i 4 (some 0x01) with
  | none => s
  | some p =>
    let reason := firstReason [(!createOk p.hdr, 0x0106), (!s.stacksOn || !s.clock.ready, 0x0306), (s.faults.fatal, 0x0618)]
    let s1 := s.control x p reason (fun s => s.modCtx x (fun k => newCtx k p.hdr))
    if x = 0 && reason == 0 then s1.postStartEvents else s1

/-- DESTROY (R312): the context becomes DESTROYING; DESTROY_FINISH ends it. A context that is being killed is destroyed
by another function only after its kill. -/
def doDestroy (x : Fin 16) (i : Fin 8) (s : State) : State :=
  match s.packetAt x i 4 (some 0x02) with
  | none => s
  | some p =>
    let t := p.target
    let k := s.ctx t
    if k.dying && t != x then s
    else if k.state != .active && k.state != .killed then s.refusePacket x p 0x0110 0
    else
      let s1 := (s.acceptPacket x p).modCtx t (fun k => { k with dying := false
                                                                 killReason := if k.state = .killed then k.killReason else 0 })
      s1.beginDestroy t (some (x, p.seq, p.tag, p.slot.val))

/-! ## Settings of the physical function -/

/-- Near pages of all contexts (11, R275). -/
def nearTotal : Nat := 7061504

/-- SET_QUOTA (11, R274, R275). -/
def doSetQuota (x : Fin 16) (i : Fin 8) (s : State) : State :=
  match s.packetAt x i 4 (some 0x03) with
  | none => s
  | some p =>
    let t := p.target
    let near := fld p.hdr 0x18 4
    let deep := fld p.hdr 0x1C 4
    let others := (List.finRange 16).foldl (fun n y => if y = t then n else n + (s.ctx y).nearQ) 0
    let reason := firstReason [(!s.live t, 0x0110), (decide (near < s.nearUse t) || decide (deep < s.deepUse t) ||
      decide (nearTotal < others + near) || decide (16777216 < deep), 0x0317)]
    s.control x p reason (fun s => s.modCtx t (fun k => { k with nearQ := near, deepQ := deep }))

/-- The bounds of the resident pool of a feed die for given T and C in MiB (07, Table 7.1). -/
def poolEnd (t c : Nat) : Nat := 0x0C000000 - (t + c) * 2 ^ 20

/-- A sub-window lies in the resident pool that T and C leave. -/
def inPool (base size t c : Nat) : Bool := size == 0 || (decide (0x00800000 ≤ base) && decide (base + size ≤ poolEnd t c))

/-- The commands of a context queued or running on a core. -/
def State.busyOn (s : State) (x : Fin 16) (c : Fin 4) : Bool :=
  !(s.cc x c).main.isEmpty || !(s.cc x c).eval.isEmpty ||
    (match (s.core c).running with | some r => r.x == x | none => false) ||
    (match (s.core c).span with | some sp => sp.x == x | none => false)

/-- A slot is FILLING or DRAINING. -/
def TokSlot.moving (t : TokSlot) : Bool := t.state == .filling || t.state == .draining

/-- SET_WINDOW is refused (07, R165). -/
def State.windowBad (s : State) (t : Fin 16) (c : Fin 4) (base size : Nat) : Bool :=
  let f := s.feed c
  base % 2 ^ 20 != 0 || size % 2 ^ 20 != 0 || !inPool base size f.t f.c ||
    (match f.areasPending with | some (t', c', _) => !inPool base size t' c' | none => false) ||
    (List.finRange 16).any (fun y =>
      let k := s.cc y c
      y != t && decide (0 < size) && decide (0 < k.resSize) && decide (base < k.resBase + k.resSize) &&
        decide (k.resBase < base + size)) ||
    s.busyOn t c || (s.cc t c).table.slots.any (·.moving)

/-- SET_WINDOW (07, R164, R165, R168): the old and the new sub-window are filled with zero bytes. -/
def doSetWindow (x : Fin 16) (i : Fin 8) (s : State) : State :=
  match s.packetAt x i 4 (some 0x04) with
  | none => s
  | some p =>
    let t := p.target
    let c : Fin 4 := ix 4 (byteAt p.hdr 0x18)
    let base := fld p.hdr 0x1C 4
    let size := fld p.hdr 0x20 4
    s.control x p (firstReason [(!s.live t, 0x0110), (s.windowBad t c base size, 0x010A)]) (fun s =>
      let k := s.cc t c
      (s.modFeed c (fun f => (f.zeroFill k.resBase k.resSize).zeroFill base size)).modCC t c (fun k =>
        { k with resBase := base, resSize := size }))

/-- SET_AREAS is refused (07, R172). -/
def State.areasBad (s : State) (c : Fin 4) (t cc : Nat) : Bool :=
  !([0, 16, 32, 64].contains cc) || decide (t < 16) || decide (176 < t) || t % 16 != 0 || decide (176 < t + cc) ||
    (List.finRange 16).any (fun y => !inPool (s.cc y c).resBase (s.cc y c).resSize t cc)

/-- SET_AREAS (07, R172): the change is pending; a later request replaces it. -/
def doSetAreas (x : Fin 16) (i : Fin 8) (s : State) : State :=
  match s.packetAt x i 4 (some 0x05) with
  | none => s
  | some p =>
    let c : Fin 4 := ix 4 (byteAt p.hdr 0x18)
    let t := fld p.hdr 0x1A 2
    let cc := fld p.hdr 0x1C 2
    if s.areasBad c t cc then s.refusePacket x p 0x010B 0
    else (s.acceptPacket x p).modFeed c (fun f => { f with areasPending := some (t, cc, x.val, i.val) })

/-- An accepted command uses a transient offset at or beyond a size (07, R172). -/
def State.usesBeyond (s : State) (c : Fin 4) (t : Nat) : Bool :=
  (List.finRange 16).any (fun x => (s.openCmds x).any (fun cmd => cmd.regions.any (fun r =>
    r.space == 0 && r.core == c.val && r.scratch && decide ((s.cc x c).resSize + t * 2 ^ 20 < r.stop))))

/-- AREAS_APPLY (07, R172): at a command boundary of the core the pending areas take effect, the cache partition is
invalidated and the packet completes. -/
def doAreasApply (c : Fin 4) (s : State) : State :=
  match (s.feed c).areasPending with
  | none => s
  | some (t, cc, x, i) =>
    if (s.core c).running.isSome || s.usesBeyond c t then s
    else
      let s1 := s.modFeed c (fun f => { f with t := t, c := cc, areasPending := none, cache := [] })
      match s1.acceptedAt (ix 16 x) (ix 8 i) 0x05 with
      | some p => s1.donePacket (ix 16 x) p
      | none => s1

/-- SET_SPREAD (10, R251): it is accepted only while no context exists. -/
def doSetSpread (x : Fin 16) (i : Fin 8) (s : State) : State :=
  match s.packetAt x i 4 (some 0x06) with
  | none => s
  | some p =>
    let v := byteAt p.hdr 0x18
    let exists' := (List.finRange 16).any (fun y => (s.ctx y).state != .none)
    s.control x p (firstReason [(decide (70 < v), 0x0301), (exists', 0x0302)])
      (fun s => s.modTiers (fun t => { t with spreadGib := v }))

/-- SET_SCHED (13, R336). -/
def doSetSched (x : Fin 16) (i : Fin 8) (s : State) : State :=
  match s.packetAt x i 4 (some 0x0D) with
  | none => s
  | some p =>
    let t := p.target
    let b := fun (c : Nat) => fld p.hdr (0x18 + 4 * c) 4
    let bad := (List.range 4).any (fun c => b c != 0 && outside 140000 28000000 (b c))
    s.control x p (firstReason [(!s.live t, 0x0110), (bad, 0x0225)]) (fun s =>
      (List.finRange 4).foldl (fun s c => s.modCC t c (fun k =>
        { k with budget := if b c.val = 0 then 2800000 else b c.val })) s)

/-! ## Scale tables (03, R56 to R58) -/

/-- A range of the unified range lies in it and belongs to the context. -/
def State.imageOwned (s : State) (x : Fin 16) (a n : Nat) : Bool := decide (a + n ≤ 2 ^ 41) && s.owns x a n

/-- The software fields of a record are valid (R58). -/
def recordOk (bs : List Byte) : Bool :=
  let m : W32 := BitVec.ofNat 32 (fld bs 0x14 4)
  let f := bits (byteAt bs 0x19) 3 0
  decide (bits (byteAt bs 0x18) 4 0 ≤ 16) && fpFinite m && fpLe (0x3F800000#32) m && fpLe m (0x47800000#32) &&
    validScale (BitVec.ofNat 32 (fld bs 0x10 4)) && decide (2 ≤ f) && decide (f ≤ 6)

/-- The image of a LOAD_SCALE: from the payload, or from SRC. -/
def State.scaleImage (s : State) (x : Fin 16) (p : Pkt) : List PByte :=
  let src := fld p.hdr 0x20 8
  let n := 256 * fld p.hdr 0x1A 2
  if src = 0 then (p.pay.take n).map (fun b => ⟨b, false⟩) else s.rread x 1 0 src n

/-- The reason to refuse a LOAD_SCALE, or 0 (R58). -/
def State.scaleReason (s : State) (x : Fin 16) (p : Pkt) : Nat :=
  let first := fld p.hdr 0x18 2
  let n := fld p.hdr 0x1A 2
  let src := fld p.hdr 0x20 8
  firstReason [(n == 0 || decide (65535 < first + n) || (src == 0 && decide (256 < n)) || src % 64 != 0, 0x0210),
    (p.pay.length != (if src = 0 then 256 * n else 0), 0x0204),
    (src != 0 && !s.imageOwned x src (256 * n), 0x0232),
    ((s.scaleImage x p).any (·.p) || !(chunks 256 ((s.scaleImage x p).map (·.b))).all recordOk, 0x0210)]

/-- What the memory finds as the image of a scale load is read (10, R247). -/
def State.touchScale (s : State) (x : Fin 16) (p : Pkt) : State :=
  let src := fld p.hdr 0x20 8
  if src = 0 || !s.imageOwned x src (256 * fld p.hdr 0x1A 2) then s else s.touchRange src (256 * fld p.hdr 0x1A 2) none

/-- LOAD_SCALE (R56, R58): checked, it waits for LOAD_SCALE_APPLY. -/
def doLoadScale (x : Fin 16) (i : Fin 8) (s : State) : State :=
  match s.packetAt x i 4 (some 0x07) with
  | none => s
  | some p =>
    let r := s.scaleReason x p
    if r ≠ 0 then (s.touchScale x p).refusePacket x p r 0 else (s.touchScale x p).acceptPacket x p

/-- A command names a record of a range. -/
def State.namesRecord (s : State) (x : Fin 16) (first n : Nat) (c : Cmd) : Bool :=
  let hit := fun (i : Nat) => decide (first ≤ i) && decide (i < first + n)
  c.recs.any hit || (s.momentQuants x c).any (fun q => hit q.1) ||
    (c.op == 0x66 && decide (fld c.desc 2 2 < first + n) && decide (first < fld c.desc 2 2 + fld c.desc 4 2))

/-- LOAD_SCALE_APPLY (12, R310; R58): once no command of the context that is still open names a record of the range, the
records are replaced. The image is checked again as it is read. -/
def doLoadScaleApply (x : Fin 16) (i : Fin 8) (s : State) : State :=
  match s.acceptedAt x i 0x07 with
  | none => s
  | some p =>
    let first := fld p.hdr 0x18 2
    let n := fld p.hdr 0x1A 2
    if (s.openCmds x).any (s.namesRecord x first n) then s
    else s.control x p (s.scaleReason x p) (fun s =>
      let stamp := (s.ctx x).loads + 1
      let s1 := s.modCtx x (fun k => { k with loads := stamp })
      ((chunks 256 ((s.scaleImage x p).map (·.b))).zipIdx).foldl (fun s c =>
        s.setScaleRec x (first + c.2) (ScaleRec.load c.1 stamp)) s1)

/-! ## Slot tables (07, R173, R174) -/

/-- A slot descriptor (Table 7.4). -/
def tokSlot (bs : List Byte) : TokSlot :=
  { offset := fld bs 0 4, rows := fld bs 4 4, raw := bit (byteAt bs 8) 0, readers := byteAt bs 9, state := .empty
    claims := 0, finished := 0, fills := 0, since := 0, posted := false }

/-- The table that a payload spells (Table 7.3). -/
def slotTable (pay : List Byte) : SlotTable :=
  { starveUs := fld pay 2 2, overrunMs := fld pay 4 2
    slots := (chunks 16 ((pay.drop 16).take (16 * byteAt pay 0))).map tokSlot }

/-- A slot descriptor breaks R174. -/
def slotBad (resSize : Nat) (bs : List Byte) : Bool :=
  let t := tokSlot bs
  t.offset % 1024 != 0 || outside 1 65536 t.rows || decide (resSize < t.offset + 1024 * t.rows) ||
    bits (byteAt bs 8) 7 1 != 0 || !zeroRange bs 0xA 6 || (if t.raw then t.readers != 0 else outside 1 15 t.readers)

/-- Two slots share a row. -/
def slotsOverlap : List TokSlot → Bool
  | [] => false
  | t :: r => r.any (fun u => decide (t.offset < u.offset + 1024 * u.rows) && decide (u.offset < t.offset + 1024 * t.rows)) ||
      slotsOverlap r

/-- A slot table load is refused (R174). -/
def State.slotsBad (s : State) (x : Fin 16) (c : Fin 4) (pay : List Byte) : Bool :=
  let old := (s.cc x c).table
  let starve := fld pay 2 2
  let overrun := fld pay 4 2
  decide (64 < byteAt pay 0) || byteAt pay 1 != 0 || !zeroRange pay 6 10 || (starve != 0 && outside 100 7000 starve) ||
    (overrun != 0 && outside 1 1000 overrun) ||
    (chunks 16 (pay.drop 16)).any (slotBad (s.cc x c).resSize) || slotsOverlap (slotTable pay).slots ||
    old.slots.any (·.moving) ||
    (s.openCmds x).any (fun cmd => cmd.regions.any (fun r =>
      r.space == 0 && r.core == c.val && (slotOf old r).isSome))

/-- The length of a slot table's payload. -/
def slotsLength (pay : List Byte) : Bool :=
  decide (16 ≤ pay.length) && (decide (64 < byteAt pay 0) || pay.length == 16 + 16 * byteAt pay 0)

/-- LOAD_SLOTS (R173, R174): checked, it waits for SLOT_TABLE_APPLY. -/
def doLoadSlots (x : Fin 16) (i : Fin 8) (s : State) : State :=
  match s.packetAt x i 4 (some 0x08) with
  | none => s
  | some p =>
    let c : Fin 4 := ix 4 (byteAt p.hdr 0x18)
    let r := firstReason [(!slotsLength p.pay, 0x0204), (s.slotsBad x c p.pay, 0x0109)]
    if r ≠ 0 then s.refusePacket x p r 0 else s.acceptPacket x p

/-- SLOT_TABLE_APPLY (R173): between commands of the core the table takes effect, every slot EMPTY. -/
def doSlotTableApply (x : Fin 16) (i : Fin 8) (s : State) : State :=
  match s.acceptedAt x i 0x08 with
  | none => s
  | some p =>
    let c : Fin 4 := ix 4 (byteAt p.hdr 0x18)
    if (s.core c).running.isSome then s
    else (s.modCC x c (fun k => { k with table := slotTable p.pay })).donePacket x p

/-! ## Almanacs (09, R213, R214) -/

/-- An FP32 field that is not negative and finite; a zero of either sign is not negative. -/
def plainRate (v : W32) : Bool := fpFinite v && (fpIsZero v || !fpSign v)

/-- The word of an entry. -/
def almWord (e : List Byte) (off : Nat) : W32 := BitVec.ofNat 32 (fld e off 4)

/-- The points of curve 4: steps strictly rising, rates plain. -/
def pointsOk (e : List Byte) (n : Nat) : Bool :=
  (List.range n).all (fun j => plainRate (almWord e (0x84 + 8 * j)) &&
    (j == 0 || decide (fld e (0x80 + 8 * (j - 1)) 4 < fld e (0x80 + 8 * j) 4)))

/-- The software fields of an almanac entry are valid (R214). -/
def almEntryOk (e : List Byte) : Bool :=
  let w := fld e 0x24 4
  let t := fld e 0x28 4
  let curve := bits (byteAt e 0x2C) 2 0
  let rule := bits (byteAt e 0x2D) 1 0
  let npts := bits (byteAt e 0x2F) 4 0
  let beta := fun (v : W32) => plainRate v && fpLe v (0x3F7FFFFF#32)
  let pre := almWord e 0x1C
  beta (almWord e 8) && beta (almWord e 0xC) && validScale (almWord e 0x10) &&
    validScale pre && fpLe pre (0x71800000#32) &&
    [0, 4, 0x14, 0x18].all (fun o => plainRate (almWord e o)) &&
    decide (w ≤ t) && !((curve == 1 || curve == 2) && w == t) && !(curve == 3 && w == 0) &&
    (curve != 4 || (decide (1 ≤ npts) && decide (npts ≤ 16) && pointsOk e npts)) &&
    decide (curve ≤ 4) && rule != 3 && bits (byteAt e 0x2C) 7 3 == 0 && bits (byteAt e 0x2D) 7 2 == 0 &&
    bits (byteAt e 0x2E) 7 2 == 0 && bits (byteAt e 0x2F) 7 5 == 0 && zeroRange e 0x3C 4 && zeroRange e 0x56 2 &&
    bits (fld e 0x58 4) 31 4 == 0 && zeroRange e 0x6C 0x14 &&
    (rule != 2 || fld e 0x34 4 % 128 == 0) && !outside 1 1048576 (fld e 0x34 4) &&
    fld e 0x38 4 % 128 == 0 && !outside 128 1048576 (fld e 0x38 4) && fld e 0x40 8 % 64 == 0 &&
    (rule != 2 || fld e 0x48 8 % 64 == 0)

/-- The entries that a load replaces or removes, by index. -/
def Ctx.almReplaced (k : Ctx) (base first n : Nat) : List (Nat × List Byte) :=
  match k.almanac with
  | none => []
  | some a => if a.base = base then a.entries.filter (fun e => decide (first ≤ e.1) && decide (e.1 < first + n)) else a.entries

/-- An entry is busy (R214). -/
def almBusy (e : List Byte) : Bool := almPending e || almUpdating e || decide (almRefs e ≠ 0)

/-- The reason to refuse a LOAD_ALMANAC, or 0 (R214). -/
def State.almanacReason (s : State) (x : Fin 16) (p : Pkt) : Nat :=
  let base := fld p.hdr 0x18 8
  let first := fld p.hdr 0x20 4
  let n := fld p.hdr 0x24 4
  let a := base + 256 * first
  let img := s.uread a (256 * n)
  firstReason [(n == 0 || decide (262144 < first + n) || base % 64 != 0, 0x0404), (!s.imageOwned x a (256 * n), 0x0232),
    (img.any (·.p) || !(chunks 256 (img.map (·.b))).all almEntryOk, 0x0404),
    (((s.ctx x).almReplaced base first n).any (fun e => almBusy e.2), 0x0408)]

/-- What the memory finds as the image of an almanac load is read (10, R247). -/
def State.touchAlmanac (s : State) (x : Fin 16) (p : Pkt) : State :=
  let a := fld p.hdr 0x18 8 + 256 * fld p.hdr 0x20 4
  if s.imageOwned x a (256 * fld p.hdr 0x24 4) then s.touchRange a (256 * fld p.hdr 0x24 4) none else s

/-- LOAD_ALMANAC (R213, R214): checked, it waits for ALMANAC_APPLY. -/
def doLoadAlmanac (x : Fin 16) (i : Fin 8) (s : State) : State :=
  match s.packetAt x i 4 (some 0x09) with
  | none => s
  | some p =>
    let r := s.almanacReason x p
    if r ≠ 0 then (s.touchAlmanac x p).refusePacket x p r 0 else (s.touchAlmanac x p).acceptPacket x p

/-- The group that a command names, if it names one: UPDATE, an MMB with VCHECK, SHARD_GATHER, PRECOND, ACQUIRE, RELEASE. -/
def Cmd.group (c : Cmd) : Option Nat :=
  if c.op = 0x30 then some (groupAt c.desc 8)
  else if c.op = 0x11 then (if bit (byteAt c.desc 1) 4 then some (groupAt c.desc 0x34) else none)
  else if c.op = 0x43 then some (groupAt c.desc 0x20)
  else if c.op = 0x31 ∨ c.op = 0x61 ∨ c.op = 0x62 then some (groupAt c.desc 4) else none

/-- The commands of a context that are running. -/
def State.runningCmds (s : State) (x : Fin 16) : List Cmd :=
  (s.cores.toList.filterMap (·.running)).filterMap (fun r => if r.x = x then some r.cmd else none) ++
    ((s.ctx x).fabricRun ++ (s.ctx x).memoryRun).map (·.cmd)

/-- Skip counts of loaded entries are kept by index (R214). -/
def Ctx.keepSkips (k : Ctx) : Ctx :=
  match k.almanac with
  | none => k
  | some a => { k with skipped := a.entries.foldl (fun l e => ainsert e.1 ((e.2.drop 0x64).take 8) l) k.skipped }

/-- An entry as a load leaves it: REFS, STATUS, STEP_HELD and GS_HELD clear, skip counts kept or 0 (R214). -/
def Ctx.freshEntry (k : Ctx) (i : Nat) (bs : List Byte) : List Byte :=
  putBytes bs 0x54 (zeros 16 ++ (alookup i k.skipped).getD (zeros 8))

/-- ALMANAC_APPLY (R213): once no running command names an entry that goes, the load takes effect. -/
def doAlmanacApply (x : Fin 16) (i : Fin 8) (s : State) : State :=
  match s.acceptedAt x i 0x09 with
  | none => s
  | some p =>
    let base := fld p.hdr 0x18 8
    let first := fld p.hdr 0x20 4
    let n := fld p.hdr 0x24 4
    let gone := ((s.ctx x).almReplaced base first n).map (·.1)
    if (s.runningCmds x).any (fun c => match c.group with | some g => gone.contains g | none => false) then s
    else s.control x p (s.almanacReason x p) (fun s =>
      let s1 := s.modCtx x Ctx.keepSkips
      let img := chunks 256 ((s1.uread (base + 256 * first) (256 * n)).map (·.b))
      let new := img.zipIdx.map (fun e => (first + e.2, (s1.ctx x).freshEntry (first + e.2) e.1))
      let old := match (s1.ctx x).almanac with
        | some a => if a.base = base then a.entries else []
        | none => []
      let s2 := s1.modCtx x (fun k => { k with almanac := some ⟨base, new.foldl (fun l e => ainsert e.1 e.2 l) old⟩ })
      new.foldl (fun s e => s.uwrite (base + 256 * e.1 + 0x54) (((e.2.drop 0x54).take 0x18).map (fun b => ⟨b, false⟩))) s2)

/-! ## MAP and UNMAP (11, R272, R273) -/

/-- The reason to refuse a MAP, or 0. -/
def State.mapReason (s : State) (x : Fin 16) (first n kind stack : Nat) : Nat :=
  let room := if kind = 0 then s.freeFrames (ix 12 stack) else s.freeSlots
  firstReason [(decide (2 < kind) || (kind == 0 && decide (11 < stack)) || outside 1 1048576 n ||
      decide (16777216 < first + n), 0x031D),
    ((pageRange first n).any (fun q => (s.homeOf q).isSome), 0x0310),
    (if kind = 2 then decide ((s.ctx x).deepQ < s.deepUse x + n) else decide ((s.ctx x).nearQ < s.nearUse x + n), 0x0312),
    (decide (kind < 2) && decide (room < n), 0x0313)]

/-- MAP (R272). -/
def doMap (x : Fin 16) (i : Fin 8) (s : State) : State :=
  match s.packetAt x i 4 (some 0x0A) with
  | none => s
  | some p =>
    let first := fld p.hdr 0x18 4
    let n := fld p.hdr 0x1C 4
    let kind := byteAt p.hdr 0x20
    let stack := byteAt p.hdr 0x21
    s.control x p (s.mapReason x first n kind stack) (fun s =>
      (pageRange first n).foldl (fun s q => s.mapPage x q kind (ix 12 stack)) s)

/-- An open command names a page of a range (R273). -/
def Cmd.namesPages (c : Cmd) (first n : Nat) : Bool :=
  c.regions.any (fun g => g.space == 1 && (g.units 131072).any (fun q => decide (first ≤ q) && decide (q < first + n))) ||
    ((c.op == 0x50 || c.op == 0x52 || c.op == 0x53) && decide (fld c.desc 4 4 < first + n) &&
      decide (first < fld c.desc 4 4 + fld c.desc 8 4))

/-- The reason to refuse an UNMAP, or 0. -/
def State.unmapReason (s : State) (x : Fin 16) (first n : Nat) : Nat :=
  firstReason [(n == 0 || decide (16777216 < first + n), 0x031D),
    ((pageRange first n).any (fun q => match s.homeOf q with | some e => e.owner != x || e.pinned | none => true) ||
      (s.openCmds x).any (·.namesPages first n), 0x0311)]

/-- UNMAP of a packet that was taken, or that has waited: it waits while a page of the range is MOVING. -/
def State.unmapNow (s : State) (x : Fin 16) (p : Pkt) : State :=
  let first := fld p.hdr 0x18 4
  let n := fld p.hdr 0x1C 4
  let reason := s.unmapReason x first n
  if reason ≠ 0 then s.refusePacket x p reason 0
  else if (pageRange first n).any s.moving then s.acceptPacket x p
  else ((pageRange first n).foldl (fun s q => s.freePage q) s).donePacket x p

/-- UNMAP (R273). -/
def doUnmap (x : Fin 16) (i : Fin 8) (s : State) : State :=
  match s.packetAt x i 4 (some 0x0B), s.acceptedAt x i 0x0B with
  | some p, _ => s.unmapNow x p
  | none, some p => s.unmapNow x p
  | none, none => s

end Sys2Proof.Machine
end

