-- ==== Sys2Proof/Machine/HostCommands.lean ====
section
/-! DEFINITION. The meanings of the commands of one family: mailbox packets, CONTROL and QUERY, completion rings (12). -/

namespace Sys2Proof.Machine

open Sys2Proof

/-- SLOT_WRITE (R296). -/
def execSlotWrite (x : Fin 16) (i : Fin 8) (off : Nat) (bs : List Byte) (s : State) : Result := inHub (doSlotWrite x i off bs) s

/-- SEAL (R299). -/
def execSeal (x : Fin 16) (i : Fin 8) (seq : W32) (crc : W32) (sramBad : Bool) (s : State) : Result := inHub (doSeal x i seq crc sramBad) s

/-- PACKET_TAKE (R314). -/
def execPacketTake (x : Fin 16) (s : State) : Result := inHub (doPacketTake x) s

/-- HELD_PACKET_RELEASE (R315). -/
def execHeldPacketRelease (x : Fin 16) (i : Fin 8) (s : State) : Result := inHub (doHeldPacketRelease x i) s

/-- SUBMIT (R306). -/
def execSubmit (x : Fin 16) (i : Fin 8) (s : State) : Result := inHub (doSubmit x i) s

/-- FEED (R307). -/
def execFeed (x : Fin 16) (i : Fin 8) (s : State) : Result := inHub (doFeed x i) s

/-- FETCH (R308). -/
def execFetch (x : Fin 16) (i : Fin 8) (s : State) : Result := inHub (doFetch x i) s

/-- CREATE (R311). -/
def execCreate (x : Fin 16) (i : Fin 8) (s : State) : Result := inHub (doCreate x i) s

/-- DESTROY (R312). -/
def execDestroy (x : Fin 16) (i : Fin 8) (s : State) : Result := inHub (doDestroy x i) s

/-- DESTROY_FINISH (R312). -/
def execDestroyFinish (x : Fin 16) (s : State) : Result := inHub (doDestroyFinish x) s

/-- SET_QUOTA (R275). -/
def execSetQuota (x : Fin 16) (i : Fin 8) (s : State) : Result := inHub (doSetQuota x i) s

/-- SET_WINDOW (R165). -/
def execSetWindow (x : Fin 16) (i : Fin 8) (s : State) : Result := inHub (doSetWindow x i) s

/-- SET_AREAS (R172). -/
def execSetAreas (x : Fin 16) (i : Fin 8) (s : State) : Result := inHub (doSetAreas x i) s

/-- AREAS_APPLY (R172). -/
def execAreasApply (c : Fin 4) (s : State) : Result := inHub (doAreasApply c) s

/-- SET_SPREAD (R251). -/
def execSetSpread (x : Fin 16) (i : Fin 8) (s : State) : Result := inHub (doSetSpread x i) s

/-- LOAD_SCALE (R58). -/
def execLoadScale (x : Fin 16) (i : Fin 8) (s : State) : Result := inHub (doLoadScale x i) s

/-- LOAD_SCALE_APPLY (R58). -/
def execLoadScaleApply (x : Fin 16) (i : Fin 8) (s : State) : Result := inHub (doLoadScaleApply x i) s

/-- LOAD_SLOTS (R174). -/
def execLoadSlots (x : Fin 16) (i : Fin 8) (s : State) : Result := inHub (doLoadSlots x i) s

/-- SLOT_TABLE_APPLY (R173). -/
def execSlotTableApply (x : Fin 16) (i : Fin 8) (s : State) : Result := inHub (doSlotTableApply x i) s

/-- LOAD_ALMANAC (R214). -/
def execLoadAlmanac (x : Fin 16) (i : Fin 8) (s : State) : Result := inHub (doLoadAlmanac x i) s

/-- ALMANAC_APPLY (R213). -/
def execAlmanacApply (x : Fin 16) (i : Fin 8) (s : State) : Result := inHub (doAlmanacApply x i) s

/-- MAP (R272). -/
def execMap (x : Fin 16) (i : Fin 8) (s : State) : Result := inHub (doMap x i) s

/-- UNMAP (R273). -/
def execUnmap (x : Fin 16) (i : Fin 8) (s : State) : Result := inHub (doUnmap x i) s

/-- SET_ROLE (R372). -/
def execSetRole (x : Fin 16) (i : Fin 8) (s : State) : Result := inHub (doSetRole x i) s

/-- OWNER_RECORD (R484). -/
def execOwnerRecord (x : Fin 16) (i : Fin 8) (s : State) : Result := inHub (doOwnerRecord x i) s

/-- OWNER_RELEASE (R484). -/
def execOwnerRelease (x : Fin 16) (i : Fin 8) (s : State) : Result := inHub (doOwnerRelease x i) s

/-- SET_SCHED (R336). -/
def execSetSched (x : Fin 16) (i : Fin 8) (s : State) : Result := inHub (doSetSched x i) s

/-- FW_UPDATE_WRITE (R486). -/
def execFwUpdateWrite (x : Fin 16) (i : Fin 8) (s : State) : Result := inHub (doFwUpdateWrite x i) s

/-- FW_UPDATE_ACTIVATE (R486). -/
def execFwUpdateActivate (x : Fin 16) (i : Fin 8) (s : State) : Result := inHub (doFwUpdateActivate x i) s

/-- FW_UPDATE_ABANDON (R487). -/
def execFwUpdateAbandon (x : Fin 16) (i : Fin 8) (s : State) : Result := inHub (doFwUpdateAbandon x i) s

/-- QUERY_CONTEXT_STATUS (R344). -/
def execQueryContextStatus (x : Fin 16) (i : Fin 8) (s : State) : Result := inHub (doQueryContextStatus x i) s

/-- QUERY_SCALE_RECORDS (R313). -/
def execQueryScaleRecords (x : Fin 16) (i : Fin 8) (s : State) : Result := inHub (doQueryScaleRecords x i) s

/-- QUERY_SLOTS (R325). -/
def execQuerySlots (x : Fin 16) (i : Fin 8) (s : State) : Result := inHub (doQuerySlots x i) s

/-- QUERY_TIER_COUNTERS (R313). -/
def execQueryTierCounters (x : Fin 16) (i : Fin 8) (s : State) : Result := inHub (doQueryTierCounters x i) s

/-- QUERY_HOME_MAP (R313). -/
def execQueryHomeMap (x : Fin 16) (i : Fin 8) (s : State) : Result := inHub (doQueryHomeMap x i) s

/-- QUERY_ALMANAC (R313). -/
def execQueryAlmanac (x : Fin 16) (i : Fin 8) (s : State) : Result := inHub (doQueryAlmanac x i) s

/-- QUERY_MODULE (R325). -/
def execQueryModule (x : Fin 16) (i : Fin 8) (s : State) : Result := inHub (doQueryModule x i) s

/-- QUERY_FAULT_RING (R437). -/
def execQueryFaultRing (x : Fin 16) (i : Fin 8) (s : State) : Result := inHub (doQueryFaultRing x i) s

/-- CQ_HEAD_WRITE (R316). -/
def execCqHeadWrite (x : Fin 16) (v : W32) (s : State) : Result := inHub (doCqHeadWrite x v) s

/-- BACKLOG_DRAIN (R318). -/
def execBacklogDrain (x : Fin 16) (s : State) : Result := inHub (doBacklogDrain x) s

/-- COMPLETION_ENTRY (R319). -/
def execCompletionEntry (x : Fin 16) (s : State) : Result := inHub (doCompletionEntry x) s

/-- FUNCTION_LEVEL_RESET (R294). -/
def execFunctionLevelReset (x : Fin 16) (s : State) : Result := inHub (doFunctionLevelReset x) s

end Sys2Proof.Machine
end

