-- ==== Sys2Proof/Machine/LinkCommands.lean ====
section
/-! DEFINITION. The meanings of the commands of one family: ports and BXT frames (14). -/

namespace Sys2Proof.Machine

open Sys2Proof

/-- PORT_IN_SERVICE (R347). -/
def execPortInService (p : Fin 16) (s : State) : Result := inDies (doPortInService p) s

/-- PORT_ALIGNMENT_LOSS (R347). -/
def execPortAlignmentLoss (p : Fin 16) (lane : Option (Fin 4)) (s : State) : Result := inDies (doPortAlignmentLoss p lane) s

/-- DATA_FRAME (R355). -/
def execDataFrame (p : Fin 16) (f : Frame) (s : State) : Result := inDies (doDataFrame p f) s

/-- ACK_FRAME (R353). -/
def execAckFrame (p : Fin 16) (f : Frame) (s : State) : Result := inDies (doAckFrame p f) s

/-- RTS_FRAME (R362). -/
def execRtsFrame (p : Fin 16) (f : Frame) (s : State) : Result := inDies (doRtsFrame p f) s

/-- CTS_FRAME (R362). -/
def execCtsFrame (p : Fin 16) (f : Frame) (s : State) : Result := inDies (doCtsFrame p f) s

/-- SHARD_REQUEST (R364). -/
def execShardRequest (p : Fin 16) (f : Frame) (s : State) : Result := inDies (doShardRequest p f) s

/-- SHARD_SERVE (R364). -/
def execShardServe (i : Nat) (s : State) : Result := inDies (doShardServe i) s

/-- ACK_TIMER (R353). -/
def execAckTimer (peer : Nat) (job : Nat) (channel : Nat) (s : State) : Result := inDies (doAckTimer peer job channel) s

/-- RETX_TIMEOUT (R353). -/
def execRetxTimeout (peer : Nat) (job : Nat) (channel : Nat) (seq : W32) (s : State) : Result := inDies (doRetxTimeout peer job channel seq) s

/-- RTS_RETRY (R362). -/
def execRtsRetry (x : Fin 16) (i : Nat) (s : State) : Result := inDies (doRtsRetry x i) s

/-- RX_DISCARD (R348). -/
def execRxDiscard (p : Fin 16) (f : Option Frame) (s : State) : Result := inDies (doRxDiscard p f) s

/-- LANE_SYMBOL_ERROR_RATIO (R407). -/
def execLaneSymbolErrorRatio (die : Fin 4) (lane : Fin 16) (s : State) : Result := inDies (doLaneSymbolErrorRatio die lane) s

end Sys2Proof.Machine
end

