-- ==== Sys2Proof/Machine/PowerCommands.lean ====
section
/-! DEFINITION. The meanings of the commands of one family: power, temperature and clock domains (18). -/

namespace Sys2Proof.Machine

open Sys2Proof

/-- BAROMETER_WINDOW (R442). -/
def execBarometerWindow (counts : List (List Nat)) (s : State) : Result := inH1 (doBarometerWindow counts) s

/-- BAROMETER_PERIOD (R448). -/
def execBarometerPeriod (s : State) : Result := inH1 doBarometerPeriod s

/-- RAIL_MEASUREMENT (R453). -/
def execRailMeasurement (r : Fin 17) (i : Nat) (s : State) : Result := inH1 (doRailMeasurement r i) s

/-- RECALIBRATION_FIT (R454). -/
def execRecalibrationFit (r : Fin 17) (worst : Nat) (s : State) : Result := inH1 (doRecalibrationFit r worst) s

/-- TEMPERATURE_READ (R457). -/
def execTemperatureRead (die : Fin 32) (ts : List Nat) (s : State) : Result := inH1 (doTemperatureRead die ts) s

/-- THERMAL_DUTY_UPDATE (R457). -/
def execThermalDutyUpdate (s : State) : Result := inH1 doThermalDutyUpdate s

/-- THERMAL_TRIP (R458). -/
def execThermalTrip (die : Fin 32) (s : State) : Result := inH1 (doThermalTrip die) s

/-- RAMP_GRANT (R452). -/
def execRampGrant (s : State) : Result := inH1 doRampGrant s

/-- HINT_EXPIRE (R451). -/
def execHintExpire (x : Fin 16) (c : Fin 4) (s : State) : Result := inH1 (doHintExpire x c) s

/-- CLOCK_START (R456). -/
def execClockStart (d : Fin 11) (s : State) : Result := inH1 (doClockStart d) s

/-- CLOCK_START_DONE (R456). -/
def execClockStartDone (d : Fin 11) (s : State) : Result := inH1 (doClockStartDone d) s

/-- CLOCK_STOP (R455). -/
def execClockStop (d : Fin 11) (s : State) : Result := inH1 (doClockStop d) s

/-- PWR_CAP_WRITE (R447). -/
def execPwrCapWrite (v : W32) (s : State) : Result := inHub (doPwrCapWrite v) s

/-- BMC_CAP_WRITE (R447). -/
def execBmcCapWrite (v : W32) (s : State) : Result := inH1 (doBmcCapWrite v) s

end Sys2Proof.Machine
end

