-- ==== Sys2Proof/Machine/RegisterCommands.lean ====
section
/-! DEFINITION. The meanings of the commands of one family: block registers, management bus and test port (21, 22). -/

namespace Sys2Proof.Machine

open Sys2Proof

/-- BLOCK_ENABLE (R322). -/
def execBlockEnable (b : Fin 36) (host : Bool) (s : State) : Result := inDies (doBlockEnable b host) s

/-- BLOCK_DISABLE (R499). -/
def execBlockDisable (b : Fin 36) (host : Bool) (s : State) : Result := inDies (doBlockDisable b host) s

/-- ENABLE_CHECK_DONE (R322). -/
def execEnableCheckDone (b : Fin 36) (s : State) : Result := inDies (doEnableCheckDone b) s

/-- RWS_APPLY (R12). -/
def execRwsApply (b : Fin 36) (s : State) : Result := inDies (doRwsApply b) s

/-- REGISTER_WRITE (R494). -/
def execRegisterWrite (bar : Nat) (bs : List Byte) (s : State) : Result := inHub (doRegisterWrite bar bs) s

/-- COUNTER_LOW_HALF_READ (R495). -/
def execCounterLowHalfRead (x : Fin 16) (bar : Nat) (n : Nat) (s : State) : Result := inHub (doCounterLowHalfRead x bar n) s

/-- I3C_PRIVATE_WRITE (R517). -/
def execI3cPrivateWrite (bs : List Byte) (s : State) : Result := inH1 (doI3cPrivateWrite bs) s

/-- I3C_PRIVATE_READ (R517). -/
def execI3cPrivateRead (words : Nat) (s : State) : Result := inH1 (doI3cPrivateRead words) s

/-- I3C_ADDRESS_ASSIGNMENT (R516). -/
def execI3cAddressAssignment (static : Option Nat) (addr : Nat) (s : State) : Result := inH1 (doI3cAddressAssignment static addr) s

/-- JTAG_INSTRUCTION (R519). -/
def execJtagInstruction (j : JtagOp) (s : State) : Result := inAon (doJtagInstruction j) s

end Sys2Proof.Machine
end

