-- ==== Sys2Proof/Machine/RoleCommands.lean ====
section
/-! DEFINITION. The meanings of the commands of one family: roles (15). -/

namespace Sys2Proof.Machine

open Sys2Proof

/-- HELLO (R376). -/
def execHello (p : Fin 16) (f : Frame) (s : State) : Result := inLamp (doHello p f) s

/-- WELCOME (R376). -/
def execWelcome (p : Fin 16) (f : Frame) (s : State) : Result := inLamp (doWelcome p f) s

/-- GROUP_READY (R378). -/
def execGroupReady (p : Fin 16) (f : Frame) (s : State) : Result := inLamp (doGroupReady p f) s

/-- INSTALL_READY (R378). -/
def execInstallReady (p : Fin 16) (f : Frame) (s : State) : Result := inLamp (doInstallReady p f) s

/-- HEARTBEAT (R379). -/
def execHeartbeat (p : Fin 16) (f : Frame) (s : State) : Result := inLamp (doHeartbeat p f) s

/-- TAKE_CHARGE (R377). -/
def execTakeCharge (p : Fin 16) (f : Frame) (s : State) : Result := inLamp (doTakeCharge p f) s

/-- ROSTER_UPDATE (R382). -/
def execRosterUpdate (p : Fin 16) (f : Frame) (s : State) : Result := inLamp (doRosterUpdate p f) s

/-- TAKEOVER (R382). -/
def execTakeover (p : Fin 16) (f : Frame) (shard : Option (List Byte)) (s : State) : Result := inLamp (doTakeover p f shard) s

/-- TAKEOVER_DONE (R382). -/
def execTakeoverDone (p : Fin 16) (f : Frame) (s : State) : Result := inLamp (doTakeoverDone p f) s

/-- CKPT_HELD (R381). -/
def execCkptHeld (p : Fin 16) (f : Frame) (s : State) : Result := inLamp (doCkptHeld p f) s

/-- FAULT_REPORT (R385). -/
def execFaultReport (p : Fin 16) (f : Frame) (s : State) : Result := inLamp (doFaultReport p f) s

/-- SLOW_REPORT (R385). -/
def execSlowReport (p : Fin 16) (f : Frame) (s : State) : Result := inLamp (doSlowReport p f) s

/-- CAP_SET (R386). -/
def execCapSet (p : Fin 16) (f : Frame) (s : State) : Result := inLamp (doCapSet p f) s

/-- NOTICE (R377). -/
def execNotice (p : Fin 16) (f : Frame) (s : State) : Result := inLamp (doNotice p f) s

/-- HELLO_REPEAT (R376). -/
def execHelloRepeat (s : State) : Result := inLamp doHelloRepeat s

/-- GROUP_FORM (R376). -/
def execGroupForm (s : State) : Result := inLamp doGroupForm s

/-- DEPUTY_TAKE_CHARGE (R377). -/
def execDeputyTakeCharge (top : Bool) (s : State) : Result := inLamp (doDeputyTakeCharge top) s

/-- REGISTRATION_CLOSE (R378). -/
def execRegistrationClose (s : State) : Result := inLamp doRegistrationClose s

/-- HEARTBEAT_SEND (R379). -/
def execHeartbeatSend (s : State) : Result := inLamp doHeartbeatSend s

/-- MEMBER_FAIL (R379). -/
def execMemberFail (node : Nat) (s : State) : Result := inLamp (doMemberFail node) s

/-- CAP_REVIEW (R386). -/
def execCapReview (s : State) : Result := inLamp doCapReview s

/-- SLOW_REPORT_SEND (R385). -/
def execSlowReportSend (s : State) : Result := inLamp doSlowReportSend s

/-- MANAGER_HEARTBEAT_LOSS (R379). -/
def execManagerHeartbeatLoss (s : State) : Result := inLamp doManagerHeartbeatLoss s

/-- MEMBER_ATTESTATION (R491). -/
def execMemberAttestation (node : Nat) (ok : Bool) (s : State) : Result := inLamp (doMemberAttestation node ok) s

/-- MANAGER_READY (R375). -/
def execManagerReady (s : State) : Result := inLamp doManagerReady s

end Sys2Proof.Machine
end

