-- ==== Sys2Proof/Machine/SecurityCommands.lean ====
section
/-! DEFINITION. The meanings of the commands of one family: attestation (20). -/

namespace Sys2Proof.Machine

open Sys2Proof

/-- GET_VERSION (R489). -/
def execGetVersion (r : SpdmReq) (s : State) : Result := inDies (doGetVersion r) s

/-- GET_CAPABILITIES (R489). -/
def execGetCapabilities (r : SpdmReq) (s : State) : Result := inDies (doGetCapabilities r) s

/-- NEGOTIATE_ALGORITHMS (R489). -/
def execNegotiateAlgorithms (r : SpdmReq) (s : State) : Result := inDies (doNegotiateAlgorithms r) s

/-- GET_DIGESTS (R489). -/
def execGetDigests (r : SpdmReq) (s : State) : Result := inDies (doGetDigests r) s

/-- GET_CERTIFICATE (R489). -/
def execGetCertificate (r : SpdmReq) (s : State) : Result := inDies (doGetCertificate r) s

/-- CHALLENGE (R491). -/
def execChallenge (r : SpdmReq) (s : State) : Result := inDies (doChallenge r) s

/-- GET_MEASUREMENTS (R490). -/
def execGetMeasurements (r : SpdmReq) (s : State) : Result := inDies (doGetMeasurements r) s

end Sys2Proof.Machine
end

