-- ==== Sys2Proof/Machine/Dispatch.lean ====
section
/-! DEFINITION. The meaning of every command: one arm per constructor. -/

namespace Sys2Proof.Machine

open Sys2Proof

/-- The effect of a command on everything but the queue of waiting commands. -/
def exec (i : Instr) (s : State) : Host.Outcome State Fault Refusal :=
  match i with
  | .slotWrite x j off bs => Sys2Proof.Machine.execSlotWrite x j off bs s
  | .sealWrite x j seq crc sramBad => Sys2Proof.Machine.execSeal x j seq crc sramBad s
  | .packetTake x => Sys2Proof.Machine.execPacketTake x s
  | .heldPacketRelease x j => Sys2Proof.Machine.execHeldPacketRelease x j s
  | .submit x j => Sys2Proof.Machine.execSubmit x j s
  | .feed x j => Sys2Proof.Machine.execFeed x j s
  | .fetch x j => Sys2Proof.Machine.execFetch x j s
  | .create x j => Sys2Proof.Machine.execCreate x j s
  | .destroy x j => Sys2Proof.Machine.execDestroy x j s
  | .destroyFinish x => Sys2Proof.Machine.execDestroyFinish x s
  | .setQuota x j => Sys2Proof.Machine.execSetQuota x j s
  | .setWindow x j => Sys2Proof.Machine.execSetWindow x j s
  | .setAreas x j => Sys2Proof.Machine.execSetAreas x j s
  | .areasApply c => Sys2Proof.Machine.execAreasApply c s
  | .setSpread x j => Sys2Proof.Machine.execSetSpread x j s
  | .loadScale x j => Sys2Proof.Machine.execLoadScale x j s
  | .loadScaleApply x j => Sys2Proof.Machine.execLoadScaleApply x j s
  | .loadSlots x j => Sys2Proof.Machine.execLoadSlots x j s
  | .slotTableApply x j => Sys2Proof.Machine.execSlotTableApply x j s
  | .loadAlmanac x j => Sys2Proof.Machine.execLoadAlmanac x j s
  | .almanacApply x j => Sys2Proof.Machine.execAlmanacApply x j s
  | .map x j => Sys2Proof.Machine.execMap x j s
  | .unmap x j => Sys2Proof.Machine.execUnmap x j s
  | .setRole x j => Sys2Proof.Machine.execSetRole x j s
  | .ownerRecord x j => Sys2Proof.Machine.execOwnerRecord x j s
  | .ownerRelease x j => Sys2Proof.Machine.execOwnerRelease x j s
  | .setSched x j => Sys2Proof.Machine.execSetSched x j s
  | .fwUpdateWrite x j => Sys2Proof.Machine.execFwUpdateWrite x j s
  | .fwUpdateActivate x j => Sys2Proof.Machine.execFwUpdateActivate x j s
  | .fwUpdateAbandon x j => Sys2Proof.Machine.execFwUpdateAbandon x j s
  | .queryContextStatus x j => Sys2Proof.Machine.execQueryContextStatus x j s
  | .queryScaleRecords x j => Sys2Proof.Machine.execQueryScaleRecords x j s
  | .querySlots x j => Sys2Proof.Machine.execQuerySlots x j s
  | .queryTierCounters x j => Sys2Proof.Machine.execQueryTierCounters x j s
  | .queryHomeMap x j => Sys2Proof.Machine.execQueryHomeMap x j s
  | .queryAlmanac x j => Sys2Proof.Machine.execQueryAlmanac x j s
  | .queryModule x j => Sys2Proof.Machine.execQueryModule x j s
  | .queryFaultRing x j => Sys2Proof.Machine.execQueryFaultRing x j s
  | .cqHeadWrite x v => Sys2Proof.Machine.execCqHeadWrite x v s
  | .backlogDrain x => Sys2Proof.Machine.execBacklogDrain x s
  | .completionEntry x => Sys2Proof.Machine.execCompletionEntry x s
  | .functionLevelReset x => Sys2Proof.Machine.execFunctionLevelReset x s
  | .mm c hold ups => Sys2Proof.Machine.execMm c hold ups s
  | .mmb c ups => Sys2Proof.Machine.execMmb c ups s
  | .attend c ups => Sys2Proof.Machine.execAttend c ups s
  | .attendB c ups => Sys2Proof.Machine.execAttendB c ups s
  | .vec c => Sys2Proof.Machine.execVec c s
  | .norm c => Sys2Proof.Machine.execNorm c s
  | .normB c => Sys2Proof.Machine.execNormB c s
  | .quant c => Sys2Proof.Machine.execQuant c s
  | .gatherE c => Sys2Proof.Machine.execGatherE c s
  | .copy c => Sys2Proof.Machine.execCopy c s
  | .update c x bad => Sys2Proof.Machine.execUpdate c x bad s
  | .precond c => Sys2Proof.Machine.execPrecond c s
  | .coll x => Sys2Proof.Machine.execColl x s
  | .send x => Sys2Proof.Machine.execSend x s
  | .recv x => Sys2Proof.Machine.execRecv x s
  | .shardGather x => Sys2Proof.Machine.execShardGather x s
  | .migrate x => Sys2Proof.Machine.execMigrate x s
  | .layerPlanStart x => Sys2Proof.Machine.execLayerPlanStart x s
  | .layerPlanStop x => Sys2Proof.Machine.execLayerPlanStop x s
  | .pin x => Sys2Proof.Machine.execPin x s
  | .unpin x => Sys2Proof.Machine.execUnpin x s
  | .fenceSignal q => Sys2Proof.Machine.execFenceSignal q s
  | .fenceWait q => Sys2Proof.Machine.execFenceWait q s
  | .acquire q => Sys2Proof.Machine.execAcquire q s
  | .release q => Sys2Proof.Machine.execRelease q s
  | .spanOpen c => Sys2Proof.Machine.execSpanOpen c s
  | .spanClose c => Sys2Proof.Machine.execSpanClose c s
  | .hint q => Sys2Proof.Machine.execHint q s
  | .census q => Sys2Proof.Machine.execCensus q s
  | .nop q => Sys2Proof.Machine.execNop q s
  | .commandComplete q j charge => Sys2Proof.Machine.execCommandComplete q j charge s
  | .lookaheadLoad c => Sys2Proof.Machine.execLookaheadLoad c s
  | .bankLoadDone a => Sys2Proof.Machine.execBankLoadDone a s
  | .bankSwap a => Sys2Proof.Machine.execBankSwap a s
  | .rowDrain a ups => Sys2Proof.Machine.execRowDrain a ups s
  | .spanReplay c => Sys2Proof.Machine.execSpanReplay c s
  | .replayDecision c rows => Sys2Proof.Machine.execReplayDecision c rows s
  | .laneRemap a => Sys2Proof.Machine.execLaneRemap a s
  | .arrayDegrade a => Sys2Proof.Machine.execArrayDegrade a s
  | .coreOutOfService c => Sys2Proof.Machine.execCoreOutOfService c s
  | .starveTimeout q x => Sys2Proof.Machine.execStarveTimeout q x s
  | .overrunTimeout x die j => Sys2Proof.Machine.execOverrunTimeout x die j s
  | .commandWatchdog q j => Sys2Proof.Machine.execCommandWatchdog q j s
  | .spanTimeout c => Sys2Proof.Machine.execSpanTimeout c s
  | .fenceWaitTimeout q x => Sys2Proof.Machine.execFenceWaitTimeout q x s
  | .acquireTimeout q x => Sys2Proof.Machine.execAcquireTimeout q x s
  | .updateWaitTimeout c x => Sys2Proof.Machine.execUpdateWaitTimeout c x s
  | .peerWaitTimeout x j => Sys2Proof.Machine.execPeerWaitTimeout x j s
  | .deepSpaceTimeout j => Sys2Proof.Machine.execDeepSpaceTimeout j s
  | .pageMove x => Sys2Proof.Machine.execPageMove x s
  | .pageSwitch page => Sys2Proof.Machine.execPageSwitch page s
  | .moveTimeout page => Sys2Proof.Machine.execMoveTimeout page s
  | .moveRetry page => Sys2Proof.Machine.execMoveRetry page s
  | .scrubRead n sector err => Sys2Proof.Machine.execScrubRead n sector err s
  | .wcbAgeFlush n sector => Sys2Proof.Machine.execWcbAgeFlush n sector s
  | .wcbHighFlush n => Sys2Proof.Machine.execWcbHighFlush n s
  | .faultRecord f => Sys2Proof.Machine.execFaultRecord f s
  | .faultHandle finish => Sys2Proof.Machine.execFaultHandle finish s
  | .faultStatusWrite v => Sys2Proof.Machine.execFaultStatusWrite v s
  | .minuteTick => Sys2Proof.Machine.execMinuteTick s
  | .storeBatch vMv => Sys2Proof.Machine.execStoreBatch vMv s
  | .storeBatchDone => Sys2Proof.Machine.execStoreBatchDone s
  | .holdupLow => Sys2Proof.Machine.execHoldupLow s
  | .capacitanceMeasure dv => Sys2Proof.Machine.execCapacitanceMeasure dv s
  | .iftDue c => Sys2Proof.Machine.execIftDue c s
  | .iftRun c => Sys2Proof.Machine.execIftRun c s
  | .iftForce c => Sys2Proof.Machine.execIftForce c s
  | .iftRunNow c => Sys2Proof.Machine.execIftRunNow c s
  | .portInService p => Sys2Proof.Machine.execPortInService p s
  | .portAlignmentLoss p lane => Sys2Proof.Machine.execPortAlignmentLoss p lane s
  | .dataFrame p f => Sys2Proof.Machine.execDataFrame p f s
  | .ackFrame p f => Sys2Proof.Machine.execAckFrame p f s
  | .rtsFrame p f => Sys2Proof.Machine.execRtsFrame p f s
  | .ctsFrame p f => Sys2Proof.Machine.execCtsFrame p f s
  | .shardRequest p f => Sys2Proof.Machine.execShardRequest p f s
  | .shardServe j => Sys2Proof.Machine.execShardServe j s
  | .ackTimer peer job channel => Sys2Proof.Machine.execAckTimer peer job channel s
  | .retxTimeout peer job channel seq => Sys2Proof.Machine.execRetxTimeout peer job channel seq s
  | .rtsRetry x j => Sys2Proof.Machine.execRtsRetry x j s
  | .hello p f => Sys2Proof.Machine.execHello p f s
  | .welcome p f => Sys2Proof.Machine.execWelcome p f s
  | .groupReady p f => Sys2Proof.Machine.execGroupReady p f s
  | .installReady p f => Sys2Proof.Machine.execInstallReady p f s
  | .heartbeat p f => Sys2Proof.Machine.execHeartbeat p f s
  | .takeCharge p f => Sys2Proof.Machine.execTakeCharge p f s
  | .rosterUpdate p f => Sys2Proof.Machine.execRosterUpdate p f s
  | .takeover p f shard => Sys2Proof.Machine.execTakeover p f shard s
  | .takeoverDone p f => Sys2Proof.Machine.execTakeoverDone p f s
  | .ckptHeld p f => Sys2Proof.Machine.execCkptHeld p f s
  | .faultReport p f => Sys2Proof.Machine.execFaultReport p f s
  | .slowReport p f => Sys2Proof.Machine.execSlowReport p f s
  | .capSet p f => Sys2Proof.Machine.execCapSet p f s
  | .notice p f => Sys2Proof.Machine.execNotice p f s
  | .helloRepeat => Sys2Proof.Machine.execHelloRepeat s
  | .groupForm => Sys2Proof.Machine.execGroupForm s
  | .deputyTakeCharge top => Sys2Proof.Machine.execDeputyTakeCharge top s
  | .registrationClose => Sys2Proof.Machine.execRegistrationClose s
  | .heartbeatSend => Sys2Proof.Machine.execHeartbeatSend s
  | .memberFail node => Sys2Proof.Machine.execMemberFail node s
  | .capReview => Sys2Proof.Machine.execCapReview s
  | .slowReportSend => Sys2Proof.Machine.execSlowReportSend s
  | .getVersion r => Sys2Proof.Machine.execGetVersion r s
  | .getCapabilities r => Sys2Proof.Machine.execGetCapabilities r s
  | .negotiateAlgorithms r => Sys2Proof.Machine.execNegotiateAlgorithms r s
  | .getDigests r => Sys2Proof.Machine.execGetDigests r s
  | .getCertificate r => Sys2Proof.Machine.execGetCertificate r s
  | .challenge r => Sys2Proof.Machine.execChallenge r s
  | .getMeasurements r => Sys2Proof.Machine.execGetMeasurements r s
  | .barometerWindow counts => Sys2Proof.Machine.execBarometerWindow counts s
  | .barometerPeriod => Sys2Proof.Machine.execBarometerPeriod s
  | .railMeasurement r j => Sys2Proof.Machine.execRailMeasurement r j s
  | .recalibrationFit r worst => Sys2Proof.Machine.execRecalibrationFit r worst s
  | .temperatureRead die ts => Sys2Proof.Machine.execTemperatureRead die ts s
  | .thermalDutyUpdate => Sys2Proof.Machine.execThermalDutyUpdate s
  | .thermalTrip die => Sys2Proof.Machine.execThermalTrip die s
  | .rampGrant => Sys2Proof.Machine.execRampGrant s
  | .hintExpire x c => Sys2Proof.Machine.execHintExpire x c s
  | .clockStart d => Sys2Proof.Machine.execClockStart d s
  | .clockStartDone d => Sys2Proof.Machine.execClockStartDone d s
  | .clockStop d => Sys2Proof.Machine.execClockStop d s
  | .pwrCapWrite v => Sys2Proof.Machine.execPwrCapWrite v s
  | .bmcCapWrite v => Sys2Proof.Machine.execBmcCapWrite v s
  | .monitorWindow rec xtal => Sys2Proof.Machine.execMonitorWindow rec xtal s
  | .switchPauseEnd => Sys2Proof.Machine.execSwitchPauseEnd s
  | .oscillatorCalibrate hz => Sys2Proof.Machine.execOscillatorCalibrate hz s
  | .clkCtrlWrite v => Sys2Proof.Machine.execClkCtrlWrite v s
  | .powerOnReset osc slot => Sys2Proof.Machine.execPowerOnReset osc slot s
  | .modResetN low => Sys2Proof.Machine.execModResetN low s
  | .moduleReset => Sys2Proof.Machine.execModuleReset s
  | .hubReset => Sys2Proof.Machine.execHubReset s
  | .perstN low => Sys2Proof.Machine.execPerstN low s
  | .resetCtrlWrite v => Sys2Proof.Machine.execResetCtrlWrite v s
  | .bmcModuleReset v => Sys2Proof.Machine.execBmcModuleReset v s
  | .bmcHubReset v => Sys2Proof.Machine.execBmcHubReset v s
  | .startStage o => Sys2Proof.Machine.execStartStage o s
  | .startStageTimeout => Sys2Proof.Machine.execStartStageTimeout s
  | .llHeartbeat => Sys2Proof.Machine.execLlHeartbeat s
  | .llHeartbeatLoss => Sys2Proof.Machine.execLlHeartbeatLoss s
  | .modPwrEnAssert bankMv => Sys2Proof.Machine.execModPwrEnAssert bankMv s
  | .modPwrEnDeassert => Sys2Proof.Machine.execModPwrEnDeassert s
  | .vinUndervoltage mv => Sys2Proof.Machine.execVinUndervoltage mv s
  | .vinOvervoltage mv => Sys2Proof.Machine.execVinOvervoltage mv s
  | .blockEnable b host => Sys2Proof.Machine.execBlockEnable b host s
  | .blockDisable b host => Sys2Proof.Machine.execBlockDisable b host s
  | .enableCheckDone b => Sys2Proof.Machine.execEnableCheckDone b s
  | .rwsApply b => Sys2Proof.Machine.execRwsApply b s
  | .registerWrite bar bs => Sys2Proof.Machine.execRegisterWrite bar bs s
  | .counterLowHalfRead x bar n => Sys2Proof.Machine.execCounterLowHalfRead x bar n s
  | .i3cPrivateWrite bs => Sys2Proof.Machine.execI3cPrivateWrite bs s
  | .i3cPrivateRead words => Sys2Proof.Machine.execI3cPrivateRead words s
  | .i3cAddressAssignment static addr => Sys2Proof.Machine.execI3cAddressAssignment static addr s
  | .jtagInstruction j => Sys2Proof.Machine.execJtagInstruction j s
  | .arrayCold a => Sys2Proof.Machine.execArrayCold a s
  | .compaction ch => Sys2Proof.Machine.execCompaction ch s
  | .vinReturn mv => Sys2Proof.Machine.execVinReturn mv s
  | .rxDiscard p f => Sys2Proof.Machine.execRxDiscard p f s
  | .laneSymbolErrorRatio die lane => Sys2Proof.Machine.execLaneSymbolErrorRatio die lane s
  | .iftEnd c fs => Sys2Proof.Machine.execIftEnd c fs s
  | .managerHeartbeatLoss => Sys2Proof.Machine.execManagerHeartbeatLoss s
  | .memberAttestation node ok => Sys2Proof.Machine.execMemberAttestation node ok s
  | .managerReady => Sys2Proof.Machine.execManagerReady s
  | .holdover => Sys2Proof.Machine.execHoldover s
  | .hotReset => Sys2Proof.Machine.execHotReset s

end Sys2Proof.Machine
end

