-- ==== Sys2Proof/Safety.lean ====
section
/-! DEFINITION. The terms in which claims speak of the machine: what a command leaves alone, contexts that run, packets that
finish, and the settings that no command may take out of their ranges. -/

namespace Sys2Proof.Machine

open Sys2Proof

/-! ## What may differ between two states -/

/-- Only context x differs. -/
def OnlyCtx (x : Fin 16) (s t : State) : Prop :=
  t = { s with hub := { s.hub with ctxs := t.hub.ctxs } } ∧ ∀ y, y ≠ x → t.ctx y = s.ctx y

/-- Only the host side of the hub differs, and of its contexts only x. -/
def OnlyHost (x : Fin 16) (s t : State) : Prop :=
  t = { s with hub := { s.hub with ctxs := t.hub.ctxs, hostWrites := t.hub.hostWrites, msix := t.hub.msix
                                   msixSent := t.hub.msixSent } } ∧ ∀ y, y ≠ x → t.ctx y = s.ctx y

/-- Only context x and feed die c differ. -/
def OnlyCtxFeed (x : Fin 16) (c : Fin 4) (s t : State) : Prop :=
  t = { s with hub := { s.hub with ctxs := t.hub.ctxs }, feeds := t.feeds } ∧ (∀ y, y ≠ x → t.ctx y = s.ctx y) ∧
    ∀ d, d ≠ c → t.feed d = s.feed d

/-- Only core c differs. -/
def OnlyCore (c : Fin 4) (s t : State) : Prop := t = { s with cores := t.cores } ∧ ∀ d, d ≠ c → t.core d = s.core d

/-- Only array a differs. -/
def OnlyArray (a : Fin 8) (s t : State) : Prop := t = { s with arrays := t.arrays } ∧ ∀ b, b ≠ a → t.arr b = s.arr b

/-- Only stack n differs. -/
def OnlyStack (n : Fin 12) (s t : State) : Prop := t = { s with hbm := t.hbm } ∧ ∀ m, m ≠ n → t.stack m = s.stack m

/-- Only block b's header differs. -/
def OnlyBlk (b : Fin 36) (s t : State) : Prop := t = { s with blks := t.blks } ∧ ∀ k, k ≠ b → t.blks[k] = s.blks[k]

/-- Every memory is in its canonical form: stacks, scratchpads and deep tier. -/
def State.memOk (s : State) : Prop :=
  (∀ n, (s.stack n).mem.wf = true) ∧ (∀ c, (s.feed c).spad.wf = true) ∧ s.tiers.deepMem.wf = true

/-! ## Contexts and packets -/

/-- The context is ACTIVE and is not being killed. -/
abbrev Live (s : State) (x : Fin 16) : Prop := (s.ctx x).state = .active ∧ (s.ctx x).dying = false

/-- What the end of a packet leaves of its context: the slot FREE and a PACKET entry (12, R296, R317). -/
def Ctx.ended (k : Ctx) (p : Pkt) (e : Entry) : Ctx :=
  { k with slots := vmod k.slots p.slot (fun m => { m with state := .free }), formed := k.formed ++ [e] }

/-- The PACKET entry of a packet that ends with no reason. -/
def okEntry (p : Pkt) : Entry := packetEntry p 0 false false []

/-- An EVENT entry that names a unit waits for the ring of context x, if that is ACTIVE (12, R317); nothing else differs. -/
def OnlyPost (x : Fin 16) (reason unit : Nat) (s t : State) : Prop :=
  OnlyCtx x s t ∧ ((s.ctx x).state = .active → t.ctx x = { s.ctx x with
      formed := (s.ctx x).formed ++ [{ Entry.blank 4 reason with detail := detail [(0, 4, unit)] }] }) ∧
    ((s.ctx x).state = .none ∨ (s.ctx x).state = .killed → t = s)

/-- The host writes that return n bytes with no poison: each chunk of 65,536 bytes and its trailer (12, R308, R309). -/
def chunkWrites (x : Fin 16) (p : Pkt) (host : Nat) (bs : List Byte) : List HostWrite :=
  let cs := chunks 65536 bs
  cs.zipIdx.flatMap (fun c =>
    [⟨x.val, host + 69632 * c.2, c.1⟩,
     ⟨x.val, host + 69632 * c.2 + 65536, trailer p c.2 c.1 0 (c.2 + 1 == cs.length) false⟩])

/-- A QUERY has returned its result and ended (12, R308, R309, R313). -/
def Returned (s t : State) (x : Fin 16) (p : Pkt) (bs : List Byte) : Prop :=
  OnlyHost x s t ∧ t.hub.hostWrites = s.hub.hostWrites ++ chunkWrites x p (fld p.hdr 0x20 8) bs ∧
    t.ctx x = (s.ctx x).ended p (okEntry p) ∧ t.hub.msix = s.hub.msix ∧ t.hub.msixSent = s.hub.msixSent

/-! ## Blocks -/

/-- What a write that leaves the fields of a block's control register as they stand does to its header (00, R12, R14; 21, R499): while
the block runs, the RWS fields of a stack or a deep-memory die become pending, and the RWE fields of a stack or a link die are dropped,
which counts once. -/
def State.rewritten (s : State) (b : Fin 36) : Blk :=
  let k := s.blks[b]
  if s.blkRunning b then { k with
    updatePending := k.updatePending || (decide (18 ≤ b.val) && decide (b.val < 32))
    rweDropped := if (18 ≤ b.val ∧ b.val < 30) ∨ 32 ≤ b.val then satAdd k.rweDropped 1 else k.rweDropped }
  else k

/-- The pending values of block b are in force (00, R12). -/
def Applied (b : Fin 36) (s t : State) : Prop :=
  (∀ c : Fin 4, b.val = 2 + c.val → (t.core c).ift.period = (s.core c).ift.periodNext) ∧
  (∀ n : Fin 12, b.val = 18 + n.val → (t.stack n).ctrl = { (s.stack n).ctrl with
    wcbAge := (s.stack n).shadow.wcbAge, wcbHigh := (s.stack n).shadow.wcbHigh, scrubH := (s.stack n).shadow.scrubH }) ∧
  ∀ d : Fin 2, b.val = 30 + d.val → t.tiers.deepLow[d] = s.tiers.deepLowNext[d]

/-! ## Work of the cores and queues -/

/-- Only what commands at work may touch differs: contexts, cores, arrays, memories and tiers but for their settings, ramp requests,
faults that wait for their place in the ring, and the free values used. -/
def OnlyWork (s t : State) : Prop :=
  t = { s with
    hub := { s.hub with ctxs := t.hub.ctxs, nextRun := t.hub.nextRun }, cores := t.cores, arrays := t.arrays
    feeds := t.feeds, hbm := t.hbm
    tiers := { t.tiers with spreadGib := s.tiers.spreadGib, deepLow := s.tiers.deepLow, deepLowNext := s.tiers.deepLowNext }
    power := { s.power with rampReqs := t.power.rampReqs }
    faults := { s.faults with detected := t.faults.detected }, freeCtr := t.freeCtr }

/-- A command of a queue has left it and runs no more. -/
def Finished (s t : State) (q : QRef) (r : Run) : Prop :=
  match q with
  | .core c => (t.core c).running = none ∧ ∃ ev, (s.cc r.x c).head = some (r.cmd, ev) ∧
      (t.cc r.x c).main = (if ev then (s.cc r.x c).main else (s.cc r.x c).main.tail) ∧
      (t.cc r.x c).eval = (if ev then (s.cc r.x c).eval.tail else (s.cc r.x c).eval)
  | .fabric x => r.x = x ∧ (s.ctx x).fabric.head? = some r.cmd ∧ (t.ctx x).fabric = (s.ctx x).fabric.tail ∧
      (t.ctx x).fabricRun = (s.ctx x).fabricRun
  | .memory x => r.x = x ∧ (s.ctx x).memory.head? = some r.cmd ∧ (t.ctx x).memory = (s.ctx x).memory.tail ∧
      (t.ctx x).memoryRun = (s.ctx x).memoryRun

/-- The COMMAND entry of a command that ended so waits for the ring of its context. -/
def Reported (t : State) (x : Fin 16) (cmd : Cmd) (d : Done) : Prop := commandEntry cmd d ∈ (t.ctx x).formed

/-- Every tensor of a command lies in the window of core c. -/
abbrev InWindow (c : Fin 4) (cmd : Cmd) : Prop :=
  (∀ bs ∈ cmd.tens, (Tensor.decode bs).space = 0) ∧ ∀ g ∈ cmd.regions, g.space = 0 ∧ ix 4 g.core = c

/-- A stack whose memory is canonical and whose buffer holds at most one entry of each sector. -/
abbrev StackS.tidy (st : StackS) : Prop := st.mem.wf = true ∧ (st.wcb.map (·.sector)).Nodup

/-- How a command ends that fails with a reason. -/
def Done.fails (reason : Nat) (poisoned : Bool) : Done := { reason := reason, failed := true, poisoned := poisoned, detail := [] }

/-- Every run has a number below the next. -/
def RunsNumbered (s : State) : Prop :=
  (∀ c k, (s.core c).running = some k → k.id < s.hub.nextRun) ∧
    (∀ x, ∀ k ∈ (s.ctx x).fabricRun ++ (s.ctx x).memoryRun, k.id < s.hub.nextRun) ∧
    ∀ g ∈ s.fabric.fabs, g.run < s.hub.nextRun

/-! ## Frames on their way -/

/-- A frame with a property waits in, or was sent in, the flow to a node for a job on a channel and is not acknowledged. -/
def Sends (t : State) (peer job channel : Nat) (p : Frame → Prop) : Prop :=
  ∃ u, t.txFlow peer job channel = some u ∧ ∃ o ∈ u.frames, p o.frame

/-- A control message with a body goes to a node (15, R374). -/
def Told (t : State) (node msg : Nat) (body : List Byte) : Prop :=
  Sends t node 0xFFFF 3 (fun f => f.kind = 5 ∧ ∃ pre pad, f.payload = pre ++ body ++ pad ∧ pre.length = 16 ∧ byteAt pre 0 = msg)

/-! ## Settings -/

/-- The settings that commands can change within a range only, and the sources and stages that go together: the caps of the host,
of the baseboard and in force (18, R447), IDLE_US (19, Table 19.8), SPREAD_GIB (10, R251), the active source with the limit of
R465, and MODULE_READY with the stage (19, R473). -/
structure Settings where
  hostCap : Nat
  bmcCap : Nat
  effCap : Nat
  idleUs : Nat
  spreadGib : Nat
  source : Fin 3
  limited : Bool
  ready : Bool
  stage : Nat
  deriving DecidableEq, Repr

def State.settings (s : State) : Settings :=
  { hostCap := s.power.hostCap, bmcCap := s.power.bmcCap, effCap := s.power.effCap, idleUs := s.clock.idleUs
    spreadGib := s.tiers.spreadGib, source := s.clock.source, limited := s.clock.limited, ready := s.clock.ready
    stage := s.clock.stage }

/-- Every setting lies in the range that the manual gives it; the device is limited exactly under the internal source, and ready
in the last stage only. -/
def Settings.legal (k : Settings) : Bool :=
  [k.hostCap, k.bmcCap].all (fun w => decide (1600 ≤ w) && decide (w ≤ 3200)) && decide (k.effCap ≤ 3200) &&
    (k.idleUs == 0 || (decide (10 ≤ k.idleUs) && decide (k.idleUs ≤ 1000))) && decide (k.spreadGib ≤ 70) &&
    (k.limited == (k.source == 2)) && (!k.ready || k.stage == 9)

end Sys2Proof.Machine
end

