-- ==== Sys2Proof/Certificates/Slice0/Obligations.lean ====
section
/-! DEFINITION. The statements for the provers. Each says which rules of the manual it states. -/

open Sys2Proof Sys2Proof.Machine

/-! ## Steps -/

/-- A step takes the command at the front of the queue and answers what exec answers for it with the queue's rest. -/
def Obligations.StepRunsTheFrontCommand : Prop :=
  ∀ (c : Instr) (s : State) (rest : List Instr), step { s with pending := c :: rest } = exec c { s with pending := rest }

/-! ## Mailbox packets (12) -/

/-- R296. A host write into a FREE slot lands, up to the seal word; a write into any other slot is dropped and counted. -/
def Obligations.SlotWriteLandsOrIsCounted : Prop :=
  ∀ (s : State) (x : Fin 16) (i : Fin 8) (off : Nat) (bs : List Byte), s.hubUp = true →
    ((s.ctx x).slots[i].state = .free → off + bs.length ≤ 0x12000 → (0x2000 ≤ off ∨ off + bs.length ≤ 0x1FFC) →
      ∃ t, exec (.slotWrite x i off bs) s = .next t ∧ OnlyCtx x s t ∧ (t.ctx x).slots[i].state = .free ∧
        (∃ m, t.ctx x = { s.ctx x with slots := (s.ctx x).slots.set i m }) ∧
        ∀ a, (t.ctx x).slots[i].bytes.get a =
          if off ≤ a ∧ a < off + bs.length then (bs[a - off]?).getD 0 else (s.ctx x).slots[i].bytes.get a) ∧
    ((s.ctx x).slots[i].state ≠ .free →
      ∃ t, exec (.slotWrite x i off bs) s = .next t ∧ OnlyCtx x s t ∧
        t.ctx x = { s.ctx x with lateWrites := satAdd (s.ctx x).lateWrites 1 })

/-- R299. A write of the seal word seals a slot whose packet passes the checks, with its SEQ and CRC in the seal word; one whose
slot SRAM is bad is refused with 0x0209, counted, and its slot stays FREE. -/
def Obligations.SealChecksThePacket : Prop :=
  ∀ (s : State) (x : Fin 16) (i : Fin 8) (seq crc : W32) (h : List Byte) (hl pl : Nat) (b : Mem), s.hubUp = true →
    (s.ctx x).slots[i].state = .free → (s.ctx x).slots[i].bytes.wf = true →
    b = (s.ctx x).slots[i].bytes.write 0x1FF8 (leBytes 4 seq.toNat ++ leBytes 4 crc.toNat) →
    h = b.read 0 64 → hl = fld h 2 2 → pl = fld h 4 4 →
    (hl % 64 = 0 → 64 ≤ hl → hl ≤ 8128 → pl ≤ 65536 → crc32c (b.read 0 hl ++ b.read 0x2000 pl) = crc →
      dist32 seq (s.ctx x).seqExpect < 8 → (s.ctx x).holdsSeq seq = false → (x, i) ∉ s.hub.badSlots →
      ∃ t, exec (.sealWrite x i seq crc false) s = .next t ∧ OnlyCtx x s t ∧
        t.ctx x = { s.ctx x with slots := (s.ctx x).slots.set i ⟨.sealed, b⟩ }) ∧
    (∀ bad : Bool, bad = true ∨ (x, i) ∈ s.hub.badSlots →
      ∃ t, exec (.sealWrite x i seq crc bad) s = .next t ∧
      OnlyCtx x { s with hub := { s.hub with badSlots := s.hub.badSlots.filter (· != (x, i)) } } t ∧
      (t.ctx x).slots[i] = ⟨.free, b⟩ ∧ (t.ctx x).lastReason = 0x0209 ∧ (t.ctx x).lastRefused = seq ∧
      (t.ctx x).sealRefused = satAdd (s.ctx x).sealRefused 1 ∧ (t.ctx x).seqExpect = (s.ctx x).seqExpect)

/-- R314. Packet E of a context, once sealed, is taken in the context's turn, and E advances by one; one that its context does not
accept is refused with the reason of R303, and E advances too. -/
def Obligations.PacketTakeFollowsTheSequence : Prop :=
  ∀ (s u : State) (x : Fin 16) (i : Fin 8) (p : Pkt), s.hubUp = true → (s.ctx x).dying = false →
    (s.ctx x).waiting < 4032 → s.itsTurn x = true → u = { s with hub := { s.hub with turn := x } } → (∀ j : Fin 8, (s.ctx x).slots[j].state.isTaken = false) →
    (s.ctx x).slots[i].state = .sealed → (s.ctx x).slots[i].seq = (s.ctx x).seqExpect →
    (∀ j : Fin 8, j ≠ i → (s.ctx x).slots[j].state = .sealed → (s.ctx x).slots[j].seq ≠ (s.ctx x).seqExpect) →
    p = (s.ctx x).slots[i].pkt i →
    (takeReason (s.ctx x).state x p = 0 →
      ∃ t, exec (.packetTake x) s = .next t ∧ OnlyCtx x u t ∧
        t.ctx x = { s.ctx x with seqExpect := (s.ctx x).seqExpect + 1
                                 slots := vmod (s.ctx x).slots i (fun m => { m with state := .taken }) }) ∧
    (1 ≤ p.type → p.type ≤ 5 → (s.ctx x).state = .none → ¬(p.type = 4 ∧ p.sub = 1) →
      ∃ t, exec (.packetTake x) s = .next t ∧ OnlyCtx x u t ∧ (t.ctx x).seqExpect = (s.ctx x).seqExpect + 1 ∧
        (t.ctx x).lastReason = 0x0110 ∧ (t.ctx x).lastRefused = p.seq ∧ (t.ctx x).slots[i].state = .free)

/-- R306. A command list that passes every check is queued as a whole, each command on the queue of its route, and the packet
finishes. -/
def Obligations.SubmitQueuesAnAcceptedList : Prop :=
  ∀ (s : State) (x : Fin 16) (i : Fin 8) (p : Pkt) (cmds : List Cmd), s.packetAt x i 1 none = some p → Live s x →
    s.validate x ((List.range (fld p.hdr 0x18 2)).map (fun j => byteAt p.hdr (0x40 + j))) (submitCmds p) [] [] 0 = .inr cmds →
    ∃ t, exec (.submit x i) s = .next t ∧ OnlyCtx x s t ∧
      (t.ctx x).fabric = (s.ctx x).fabric ++ cmds.filter (fun c => c.queue == 4) ∧
      (t.ctx x).memory = (s.ctx x).memory ++ cmds.filter (fun c => decide (4 < c.queue)) ∧
      (∀ c : Fin 4, (t.ctx x).cores[c].main =
          (s.ctx x).cores[c].main ++ cmds.filter (fun m => m.queue == c.val && !m.eval)) ∧
      (∀ c : Fin 4, (t.ctx x).cores[c].eval =
          (s.ctx x).cores[c].eval ++ cmds.filter (fun m => m.queue == c.val && m.eval)) ∧
      (t.ctx x).lists = (s.ctx x).lists ++ [⟨p.seq, p.tag, cmds.length, bit (byteAt p.hdr 0x1C) 0⟩] ∧
      (t.ctx x).slots[p.slot].state = .free ∧ (t.ctx x).formed = (s.ctx x).formed ++ [okEntry p]

/-- R307, R315. A FEED into a resident sub-window, taken or held, that conflicts with nothing writes its payload there and
finishes; every other byte of the scratchpad stays. -/
def Obligations.FeedWritesAWindow : Prop :=
  ∀ (s : State) (x : Fin 16) (i : Fin 8) (p : Pkt) (c : Fin 4) (w : Nat), Live s x →
    bits (byteAt p.hdr 0x1E) 0 0 = 0 → c.val = bits (byteAt p.hdr 0x1E) 2 1 → w = fld p.hdr 0x18 6 →
    p.pay.length = fld p.hdr 4 4 → p.type = 2 → w % 64 = 0 → p.pay.length % 64 = 0 → 64 ≤ p.pay.length →
    w + p.pay.length ≤ (s.cc x c).resSize → s.transferWaits x p = false →
    ∀ cmd : Instr, (cmd = .feed x i ∧ s.packetAt x i 2 none = some p) ∨
        (cmd = .heldPacketRelease x i ∧ s.hubUp = true ∧ (s.ctx x).slots[i].state = .held ∧ (s.ctx x).slots[i].pkt i = p) →
      ∃ t, exec cmd s = .next t ∧ OnlyCtxFeed x c s t ∧ t.ctx x = (s.ctx x).ended p (okEntry p) ∧
        ∀ a, (t.feed c).spad.get a =
          if (s.cc x c).resBase + w ≤ a ∧ a < (s.cc x c).resBase + w + p.pay.length
          then (p.pay[a - ((s.cc x c).resBase + w)]?).getD 0 else (s.feed c).spad.get a

/-- R307, R261. After a FEED into a placed page that is not moving, its range of the unified range reads as the payload, with no
poison, whatever stood there and whatever the write-combining buffer held. -/
def Obligations.FeedIsReadBackFromAPlacedPage : Prop :=
  ∀ (s : State) (x : Fin 16) (i : Fin 8) (p : Pkt) (a : Nat) (e : HomeEntry) (n : Fin 12) (f : Nat), Live s x →
    s.packetAt x i 2 none = some p → bits (byteAt p.hdr 0x1E) 0 0 = 1 → a = fld p.hdr 0x18 6 →
    s.transferReason x p p.pay.length true = 0 → s.transferWaits x p = false →
    a % 131072 + p.pay.length ≤ 131072 → s.homeOf (a / 131072) = some e → e.home = .placed n f → e.dest = none →
    (s.stack n).dead = [] → (s.stack n).mem.wf = true →
    ∃ t, exec (.feed x i) s = .next t ∧ t.uread a p.pay.length = p.pay.map (fun b => ⟨b, false⟩) ∧
      t.ctx x = (s.ctx x).ended p (okEntry p) ∧ ∀ m, m ≠ n → t.stack m = s.stack m

/-- R308, R309, R315. A FETCH, taken or held, that conflicts with nothing and meets no poison writes its range to host memory in
chunks, each followed by its trailer, and finishes; its reads leave what their decoders count. -/
def Obligations.FetchReturnsChunksAndTrailers : Prop :=
  ∀ (s u : State) (x : Fin 16) (i : Fin 8) (p : Pkt) (bs : List PByte), Live s x → p.type = 3 →
    u = (if bits (byteAt p.hdr 0x1E) 0 0 = 1 then s.touchRange (fld p.hdr 0x18 6) (fld p.hdr 0x20 4) none else s) →
    bs = u.rread x (bits (byteAt p.hdr 0x1E) 0 0) (ix 4 (bits (byteAt p.hdr 0x1E) 2 1)) (fld p.hdr 0x18 6) (fld p.hdr 0x20 4) →
    bs.any (·.p) = false → fld p.hdr 0x20 4 ≤ 16777216 → s.transferReason x p (fld p.hdr 0x20 4) false = 0 →
    hostRoom (fld p.hdr 0x28 8) (fld p.hdr 0x30 8) (fld p.hdr 0x20 4) = true → s.transferWaits x p = false →
    ∀ cmd : Instr, (cmd = .fetch x i ∧ s.packetAt x i 3 none = some p) ∨
        (cmd = .heldPacketRelease x i ∧ s.hubUp = true ∧ (s.ctx x).slots[i].state = .held ∧ (s.ctx x).slots[i].pkt i = p) →
      ∃ t, exec cmd s = .next t ∧ OnlyHost x u t ∧ t.ctx x = (s.ctx x).ended p (okEntry p) ∧
        t.hub.hostWrites = s.hub.hostWrites ++ chunkWrites x p (fld p.hdr 0x28 8) (bs.map (·.b)) ∧
        t.hub.msix = s.hub.msix ∧ t.hub.msixSent = s.hub.msixSent

/-- R311. A valid CREATE on a module that is ready makes its context ACTIVE with its ring, job seed and vector map; its
sequence number goes on and its counters start at 0. -/
def Obligations.CreateMakesAContext : Prop :=
  ∀ (s : State) (x : Fin 16) (i : Fin 8) (p : Pkt), s.packetAt x i 4 (some 0x01) = some p → createOk p.hdr = true →
    s.stacksOn = true → s.clock.ready = true → s.faults.fatal = false →
    ∃ t, exec (.create x i) s = .next t ∧ (∀ y, y ≠ x → t.ctx y = s.ctx y) ∧
      t = { s with hub := { s.hub with ctxs := t.hub.ctxs }
                   sec := { s.sec with startEvents := if x = 0 then [] else s.sec.startEvents } } ∧
      (t.ctx x).state = .active ∧ (t.ctx x).ringAddr = BitVec.ofNat 64 (fld p.hdr 0x18 8) ∧
      (t.ctx x).ringEntries = fld p.hdr 0x20 4 ∧ (t.ctx x).jobSeed = BitVec.ofNat 64 (fld p.hdr 0x28 8) ∧
      (∀ k < 9, (t.ctx x).vecMap[k]? = some (byteAt p.hdr (0x30 + k))) ∧ (t.ctx x).seqExpect = (s.ctx x).seqExpect ∧
      (t.ctx x).cqHead = 0 ∧ (t.ctx x).cqTail = 0 ∧ (∀ k : Fin 256, (t.ctx x).tokens[k] = 0) ∧ (t.ctx x).scales = [] ∧
      (t.ctx x).slots[p.slot].state = .free ∧
      (t.ctx x).formed = okEntry p ::
        (if x = 0 then s.sec.startEvents.map (fun r => { Entry.blank 4 r with detail := [] }) else [])

/-- R312. DESTROY makes its context DESTROYING and discards its queued commands while the running ones go on; once none runs,
DESTROY_FINISH writes the completion with the count of discarded commands and the CONTEXT entry, frees every page and makes the
context NONE with E 1. -/
def Obligations.DestroyDiscardsThenReleases : Prop :=
  (∀ (s : State) (x : Fin 16) (i : Fin 8) (p : Pkt), s.packetAt x i 4 (some 0x02) = some p → Live s p.target →
    ∃ t, exec (.destroy x i) s = .next t ∧ (t.ctx p.target).state = .destroying ∧
      (t.ctx p.target).discarded = (s.ctx p.target).queued ∧ (t.ctx p.target).queued = 0 ∧
      (∀ c, (t.core c).running = (s.core c).running) ∧ (t.ctx p.target).fabricRun = (s.ctx p.target).fabricRun ∧
      (t.ctx p.target).memoryRun = (s.ctx p.target).memoryRun ∧ (t.ctx x).slots[p.slot].state = .accepted ∧
      (s.ctx p.target).formed <+: (t.ctx p.target).formed ∧
      (∀ y, y ≠ x → y ≠ p.target → t.ctx y = { s.ctx y with formed := (t.ctx y).formed }) ∧
      ((∀ m ∈ s.tiers.moves, m.x ≠ p.target) → ∀ y, (t.ctx y).formed = (s.ctx y).formed)) ∧
  (∀ (s : State) (x : Fin 16) (seq : W32) (tag : W64) (i : Fin 8), s.hubUp = true → (s.ctx x).state = .destroying →
    (s.ctx x).dying = false → (s.ctx x).silent = false → (s.ctx x).killReason = 0 → s.noneRunning x = true →
    (s.ctx x).destroyTag = some (x.val, seq, tag, i.val) → (s.tiers.map.map (·.1)).Nodup →
    ∃ t, exec (.destroyFinish x) s = .next t ∧ (t.ctx x).state = .none ∧ (t.ctx x).seqExpect = 1 ∧
      ((s.ctx x).formed ++
        [packetEntry { slot := i, seq := seq, tag := tag, hdr := [], pay := [] } 0 false false
          (detail [(8, 4, (s.ctx x).discarded)]), Entry.blank 5 0]) <+: (t.ctx x).formed ∧
      (∀ e ∈ t.tiers.map, e.2.owner ≠ x) ∧ (∀ e ∈ s.tiers.map, e.2.owner ≠ x → e ∈ t.tiers.map) ∧
      (∀ c : Fin 4, (t.cc x c).resSize = 0) ∧ ∀ j : Fin 8, (t.ctx x).slots[j].state = .free)

/-- R275, R336, R251. SET_QUOTA, SET_SCHED and SET_SPREAD, when their values are within their limits, set the quotas and the
budgets of their context and SPREAD_GIB, and finish; a budget of 0 selects 2,800,000, and one outside 140,000 to 28,000,000 is
refused with 0x0225. A slice that starts has the budget less the debt that remains. SPREAD_GIB is 36 after reset and after a module
reset; only the physical function sets it, above 70 is refused with 0x0301 and any value with 0x0302 while a context exists. -/
def Obligations.SettingPacketsSetTheirValues : Prop :=
  (∀ (s : State) (x : Fin 16) (i : Fin 8) (p : Pkt), s.packetAt x i 4 (some 0x03) = some p → Live s x →
    (s.ctx p.target).state = .active → s.nearUse p.target ≤ fld p.hdr 0x18 4 → s.deepUse p.target ≤ fld p.hdr 0x1C 4 →
    fld p.hdr 0x1C 4 ≤ 16777216 →
    (((List.finRange 16).filter (fun y => y ≠ p.target)).map (fun y => (s.ctx y).nearQ)).sum + fld p.hdr 0x18 4 ≤ nearTotal →
    exec (.setQuota x i) s = .next
      ((s.modCtx p.target (fun k => { k with nearQ := fld p.hdr 0x18 4, deepQ := fld p.hdr 0x1C 4 })).modCtx x
        (fun k => k.ended p (okEntry p)))) ∧
  (∀ (s : State) (x : Fin 16) (i : Fin 8) (p : Pkt), s.packetAt x i 4 (some 0x0D) = some p → Live s x →
    (s.ctx p.target).state = .active →
    (∀ c < 4, fld p.hdr (0x18 + 4 * c) 4 = 0 ∨
      (140000 ≤ fld p.hdr (0x18 + 4 * c) 4 ∧ fld p.hdr (0x18 + 4 * c) 4 ≤ 28000000)) →
    ∃ t, exec (.setSched x i) s = .next t ∧ t = { s with hub := { s.hub with ctxs := t.hub.ctxs } } ∧
      (∀ y, y ≠ x → y ≠ p.target → t.ctx y = s.ctx y) ∧ (t.ctx x).formed = (s.ctx x).formed ++ [okEntry p] ∧
      (t.ctx x).slots[p.slot].state = .free ∧
      ∀ c : Fin 4, t.cc p.target c = { s.cc p.target c with
        budget := if fld p.hdr (0x18 + 4 * c.val) 4 = 0 then 2800000 else fld p.hdr (0x18 + 4 * c.val) 4 }) ∧
  (∀ (s : State) (x : Fin 16) (i : Fin 8) (p : Pkt), s.packetAt x i 4 (some 0x0D) = some p → Live s x →
    (s.ctx p.target).state = .active →
    (∃ c < 4, fld p.hdr (0x18 + 4 * c) 4 ≠ 0 ∧
      (fld p.hdr (0x18 + 4 * c) 4 < 140000 ∨ 28000000 < fld p.hdr (0x18 + 4 * c) 4)) →
    ∃ t, exec (.setSched x i) s = .next t ∧ OnlyCtx x s t ∧ (t.ctx x).slots[p.slot].state = .free ∧
      (t.ctx x).lastReason = 0x0225 ∧ (t.ctx x).lastRefused = p.seq ∧
      ∀ c, (t.cc p.target c).budget = (s.cc p.target c).budget) ∧
  (∀ (s t : State) (c : Fin 4) (x : Fin 16), s.schedule c = (t, some x) → (s.core c).span = none →
    x ≠ (s.core c).current ∨ (s.cc x c).remaining = 0 → 0 < (s.cc x c).budget →
    (t.cc x c).remaining = (s.cc x c).budget - (s.cc x c).debt % (s.cc x c).budget) ∧
  (State.reset.tiers.spreadGib = 36 ∧ ∀ s : State, s.board.aonOn = true → s.moduleAsked = true →
    ∃ t, exec .moduleReset s = .next t ∧ t.tiers.spreadGib = 36) ∧
  (∀ (st : CtxState) (x : Fin 16) (p : Pkt), p.type = 4 → p.sub = 0x06 → x ≠ 0 → takeReason st x p ≠ 0) ∧
  (∀ (s : State) (x : Fin 16) (i : Fin 8) (p : Pkt) (v : Nat), s.packetAt x i 4 (some 0x06) = some p →
    (s.ctx x).dying = false → v = byteAt p.hdr 0x18 →
    (v ≤ 70 → (∀ y, (s.ctx y).state = .none) →
      exec (.setSpread x i) s = .next ({ s with tiers := { s.tiers with spreadGib := v } }.modCtx x
        (fun k => { k with slots := vmod k.slots p.slot (fun m => { m with state := .free }) }))) ∧
    (70 < v ∨ (∃ y, (s.ctx y).state ≠ .none) →
      ∃ t, exec (.setSpread x i) s = .next t ∧ OnlyCtx x s t ∧ (t.ctx x).slots[p.slot].state = .free ∧
        (t.ctx x).lastReason = (if 70 < v then 0x0301 else 0x0302) ∧ (t.ctx x).lastRefused = p.seq))

/-- R165, R168, R172. SET_WINDOW gives its context the sub-window, whose bytes then read as zero; SET_AREAS makes the new areas
pending; AREAS_APPLY puts them in force between commands and empties the cache partition. -/
def Obligations.WindowsAndAreasTakeEffect : Prop :=
  (∀ (s : State) (x : Fin 16) (i : Fin 8) (p : Pkt) (c : Fin 4) (base size : Nat), s.packetAt x i 4 (some 0x04) = some p →
    Live s x → (s.ctx p.target).state = .active → c = ix 4 (byteAt p.hdr 0x18) → base = fld p.hdr 0x1C 4 →
    size = fld p.hdr 0x20 4 → s.windowBad p.target c base size = false →
    ∃ t, exec (.setWindow x i) s = .next t ∧
      t = { s with hub := { s.hub with ctxs := t.hub.ctxs }, feeds := t.feeds } ∧ (∀ d, d ≠ c → t.feed d = s.feed d) ∧
      (t.cc p.target c).resBase = base ∧ (t.cc p.target c).resSize = size ∧
      (t.ctx x).formed = (s.ctx x).formed ++ [okEntry p] ∧
      ∀ a, (t.feed c).spad.get a =
        if (base ≤ a ∧ a < base + size) ∨ ((s.cc p.target c).resBase ≤ a ∧
            a < (s.cc p.target c).resBase + (s.cc p.target c).resSize) then 0 else (s.feed c).spad.get a) ∧
  (∀ (s : State) (x : Fin 16) (i : Fin 8) (p : Pkt) (c : Fin 4), s.packetAt x i 4 (some 0x05) = some p →
    c = ix 4 (byteAt p.hdr 0x18) → s.areasBad c (fld p.hdr 0x1A 2) (fld p.hdr 0x1C 2) = false →
    ∃ t, exec (.setAreas x i) s = .next t ∧ OnlyCtxFeed x c s t ∧
      t.feed c = { s.feed c with areasPending := some (fld p.hdr 0x1A 2, fld p.hdr 0x1C 2, x.val, i.val) } ∧
      t.ctx x = { s.ctx x with slots := vmod (s.ctx x).slots p.slot (fun m => { m with state := .accepted }) }) ∧
  (∀ (s : State) (c : Fin 4) (ti ca : Nat) (x : Fin 16) (i : Fin 8) (p : Pkt), s.hubUp = true → Live s x →
    (s.feed c).areasPending = some (ti, ca, x.val, i.val) → (s.core c).running = none → s.usesBeyond c ti = false →
    s.acceptedAt x i 0x05 = some p →
    ∃ t, exec (.areasApply c) s = .next t ∧ OnlyCtxFeed x c s t ∧ t.ctx x = (s.ctx x).ended p (okEntry p) ∧
      t.feed c = { s.feed c with t := ti, c := ca, areasPending := none, cache := [] })

/-- R58, R173, R213. LOAD_SCALE, LOAD_SLOTS and LOAD_ALMANAC whose images are valid are accepted and wait. An accepted load takes
effect once nothing names what it replaces: every scale record of the range is the
one loaded, every slot of the table is EMPTY with the fields of its descriptor, and the almanac holds its entries at its
base. -/
def Obligations.TableLoadsApply : Prop :=
  (∀ (s u : State) (x : Fin 16) (i : Fin 8) (p : Pkt) (sub : Nat) (cmd : Instr), s.packetAt x i 4 (some sub) = some p →
    (cmd = .loadScale x i ∧ sub = 0x07 ∧ s.scaleReason x p = 0 ∧ u = s.touchScale x p) ∨
      (cmd = .loadSlots x i ∧ sub = 0x08 ∧ slotsLength p.pay = true ∧ s.slotsBad x (ix 4 (byteAt p.hdr 0x18)) p.pay = false ∧
        u = s) ∨
      (cmd = .loadAlmanac x i ∧ sub = 0x09 ∧ s.almanacReason x p = 0 ∧ u = s.touchAlmanac x p) →
    exec cmd s = .next (u.modCtx x (fun k => { k with
      slots := vmod k.slots p.slot (fun m => { m with state := .accepted }) }))) ∧
  (∀ (s : State) (x : Fin 16) (i : Fin 8) (p : Pkt), s.acceptedAt x i 0x07 = some p → Live s x →
    (s.openCmds x).any (s.namesRecord x (fld p.hdr 0x18 2) (fld p.hdr 0x1A 2)) = false → s.scaleReason x p = 0 →
    (s.scaleImage x p).length = 256 * fld p.hdr 0x1A 2 →
    ∃ t, exec (.loadScaleApply x i) s = .next t ∧ OnlyCtx x s t ∧ (t.ctx x).formed = (s.ctx x).formed ++ [okEntry p] ∧
      (∀ j < fld p.hdr 0x1A 2, t.scaleRec x (fld p.hdr 0x18 2 + j) =
        ScaleRec.load ((((s.scaleImage x p).map (·.b)).drop (256 * j)).take 256) ((s.ctx x).loads + 1)) ∧
      ∀ j, j < fld p.hdr 0x18 2 ∨ fld p.hdr 0x18 2 + fld p.hdr 0x1A 2 ≤ j → t.scaleRec x j = s.scaleRec x j) ∧
  (∀ (s : State) (x : Fin 16) (i : Fin 8) (p : Pkt) (c : Fin 4), s.acceptedAt x i 0x08 = some p → Live s x →
    c = ix 4 (byteAt p.hdr 0x18) → (s.core c).running = none →
    ∃ t, exec (.slotTableApply x i) s = .next t ∧ OnlyCtx x s t ∧ (t.cc x c).table = slotTable p.pay ∧
      (∀ k ∈ (t.cc x c).table.slots, k.state = .empty ∧ k.claims = 0) ∧ (∀ d, d ≠ c → t.cc x d = s.cc x d) ∧
      (t.ctx x).formed = (s.ctx x).formed ++ [okEntry p]) ∧
  (∀ (s : State) (x : Fin 16) (i : Fin 8) (p : Pkt), s.acceptedAt x i 0x09 = some p → Live s x →
    (∀ c ∈ s.runningCmds x, ∀ g, c.group = some g →
      g ∉ ((s.ctx x).almReplaced (fld p.hdr 0x18 8) (fld p.hdr 0x20 4) (fld p.hdr 0x24 4)).map (·.1)) →
    s.almanacReason x p = 0 →
    (s.uread (fld p.hdr 0x18 8 + 256 * fld p.hdr 0x20 4) (256 * fld p.hdr 0x24 4)).length = 256 * fld p.hdr 0x24 4 →
    ∃ t al, exec (.almanacApply x i) s = .next t ∧ (t.ctx x).almanac = some al ∧ al.base = fld p.hdr 0x18 8 ∧
      (∀ j < fld p.hdr 0x24 4, (alookup (fld p.hdr 0x20 4 + j) al.entries).isSome = true) ∧
      (t.ctx x).slots[p.slot].state = .free)

/-- R272, R273. MAP gives every page of a free range to its context, RESIDENT at a home of the kind asked for; UNMAP frees every
page of a range that is not moving. Other pages keep their entries. -/
def Obligations.MapAndUnmapChangeTheHomeMap : Prop :=
  (∀ (s : State) (x : Fin 16) (i : Fin 8) (p : Pkt) (first n kind : Nat), s.packetAt x i 4 (some 0x0A) = some p → Live s x →
    first = fld p.hdr 0x18 4 → n = fld p.hdr 0x1C 4 → kind = byteAt p.hdr 0x20 →
    s.mapReason x first n kind (byteAt p.hdr 0x21) = 0 →
    ∃ t, exec (.map x i) s = .next t ∧ (t.ctx x).slots[p.slot].state = .free ∧
      (∀ q, first ≤ q → q < first + n → ∃ e, t.homeOf q = some e ∧ e.owner = x ∧ e.dest = none ∧ e.pinned = false ∧
        (kind = 0 → ∃ f, e.home = .placed (ix 12 (byteAt p.hdr 0x21)) f) ∧ (kind = 1 → ∃ k, e.home = .spread k) ∧
        (kind = 2 → e.home = .deep)) ∧
      ∀ q, q < first ∨ first + n ≤ q → t.homeOf q = s.homeOf q) ∧
  (∀ (s : State) (x : Fin 16) (i : Fin 8) (p : Pkt) (first n : Nat), s.packetAt x i 4 (some 0x0B) = some p → Live s x →
    first = fld p.hdr 0x18 4 → n = fld p.hdr 0x1C 4 → s.unmapReason x first n = 0 →
    (∀ q, first ≤ q → q < first + n → s.moving q = false) →
    ∃ t, exec (.unmap x i) s = .next t ∧ (t.ctx x).slots[p.slot].state = .free ∧
      (∀ q, first ≤ q → q < first + n → t.homeOf q = none) ∧
      ∀ q, q < first ∨ first + n ≤ q → t.homeOf q = s.homeOf q)

/-- R325, R344, R437. Each QUERY whose result fits and meets no poison returns it to the host in chunks with their trailers and finishes; QUERY 0x08
marks the entries that it returns HOST_SEEN. -/
def Obligations.QueriesReturnTheirResults : Prop :=
  ∀ (s : State) (x : Fin 16) (i : Fin 8) (p : Pkt), Live s x → p = (s.ctx x).slots[i].pkt i →
    (∀ (cmd : Instr) (sub n : Nat) (bs : List Byte), s.packetAt x i 5 (some sub) = some p → n ≤ 16777216 →
      hostRoom (fld p.hdr 0x20 8) (fld p.hdr 0x28 8) n = true →
      (cmd = .queryContextStatus x i ∧ sub = 0x01 ∧ n = 1536 ∧ bs = s.contextStatus p.target) ∨
        (cmd = .queryScaleRecords x i ∧ sub = 0x02 ∧ n = 256 * fld p.hdr 0x1C 4 ∧ bs = (List.range (fld p.hdr 0x1C 4)).flatMap
          (fun j => if fld p.hdr 0x18 4 + j < 65535 then (s.scaleRec p.target (fld p.hdr 0x18 4 + j)).encode else zeros 256)) ∨
        (cmd = .querySlots x i ∧ sub = 0x03 ∧ n = 592 ∧
          bs = s.slotsStatus p.target (ix 4 (bits (byteAt p.hdr 0x30) 1 0))) ∨
        (cmd = .queryTierCounters x i ∧ sub = 0x04 ∧ n = 272 ∧ bs = s.tierStatus p.target) ∨
        (cmd = .queryHomeMap x i ∧ sub = 0x05 ∧ n = 16 * fld p.hdr 0x1C 4 ∧ bs = (List.range (fld p.hdr 0x1C 4)).flatMap
          (fun j => s.homeStatus p.target (fld p.hdr 0x18 4 + j))) ∨
        (cmd = .queryAlmanac x i ∧ sub = 0x06 ∧ n = 256 * fld p.hdr 0x1C 4 ∧ bs = (List.range (fld p.hdr 0x1C 4)).flatMap
          (fun j => s.almanacStatus p.target (fld p.hdr 0x18 4 + j)) ∧ ∀ j < fld p.hdr 0x1C 4,
            (s.almanacStatus p.target (fld p.hdr 0x18 4 + j)).length = 256 ∧
              (s.almanacRead p.target (fld p.hdr 0x18 4 + j)).any (·.p) = false) ∨
        (cmd = .queryModule x i ∧ sub = 0x07 ∧ n = 256 ∧ bs = s.moduleStatus) →
      ∃ t, exec cmd s = .next t ∧ Returned s t x p bs) ∧
    (s.packetAt x i 5 (some 0x08) = some p → fld p.hdr 0x1C 4 ≤ 4096 →
      hostRoom (fld p.hdr 0x20 8) (fld p.hdr 0x28 8) (320 * fld p.hdr 0x1C 4) = true →
      ∃ t, exec (.queryFaultRing x i) s = .next t ∧ t = { s with hub := t.hub, faults := t.faults } ∧
        t.hub.hostWrites = s.hub.hostWrites ++ chunkWrites x p (fld p.hdr 0x20 8)
          ((List.range (fld p.hdr 0x1C 4)).flatMap (fun j => s.ringStatus (BitVec.ofNat 32 (fld p.hdr 0x18 4 + j)))) ∧
        t.ctx x = (s.ctx x).ended p (okEntry p) ∧
        t.faults = { s.faults with ring := s.faults.ring.map (fun e =>
          if ∃ j < fld p.hdr 0x1C 4, e.2.rseq = BitVec.ofNat 32 (fld p.hdr 0x18 4 + j)
          then (e.1, { e.2 with hostSeen := true }) else e) })

/-- R316, R318, R319. A CQ_HEAD write moves the head of the ring; a formed entry, and a waiting one, is written at the tail of a
ring with room, with the PHASE of its pass, and its MSI-X message goes out on the vector of its class. -/
def Obligations.CompletionEntriesReachTheRing : Prop :=
  ∀ (s : State) (x : Fin 16), s.hubUp = true →
    (∀ v, exec (.cqHeadWrite x v) s = .next (s.modCtx x (fun k => { k with cqHead := v }))) ∧
    (∀ (e : Entry) (rest : List Entry) (cmd : Instr), (s.ctx x).ringRoom = true → (s.ctx x).owedOverflow = false →
      (cmd = .completionEntry x ∧ (s.ctx x).formed = e :: rest ∧ (s.ctx x).backlog = []) ∨
        (cmd = .backlogDrain x ∧ (s.ctx x).backlog = e :: rest) →
      ∃ t, exec cmd s = .next t ∧ OnlyHost x s t ∧ (t.ctx x).cqTail = (s.ctx x).cqTail + 1 ∧
        (cmd = .completionEntry x → t.ctx x = { s.ctx x with cqTail := (t.ctx x).cqTail, formed := rest }) ∧
        (cmd = .backlogDrain x → t.ctx x = { s.ctx x with cqTail := (t.ctx x).cqTail, backlog := rest }) ∧
        t.hub.hostWrites = s.hub.hostWrites ++ [⟨x.val, (s.ctx x).ringAddr.toNat +
          64 * ((s.ctx x).cqTail.toNat % (s.ctx x).ringEntries), e.encode (s.ctx x).cqTail.toNat (s.ctx x).ringEntries⟩] ∧
        (let v := ((s.ctx x).vecMap[e.cls]?).getD 0
         if v ∈ s.hub.msix[x].masked then t.hub.msixSent = s.hub.msixSent ∧ t.hub.msix[x].pend = setInsert v s.hub.msix[x].pend
         else t.hub.msixSent = s.hub.msixSent ++ [(x.val, v)] ∧ t.hub.msix = s.hub.msix))

/-! ## Records, ownership, firmware and attestation (15, 20) -/

/-- R372, R484. A role record, an owner record and an owner release that pass their checks wait in the queue of the module store,
their packets finish, and nothing else of the security state changes; a module with no role record takes the role of the
record. -/
def Obligations.RecordsWaitForTheStore : Prop :=
  ∀ (s : State) (x : Fin 16) (i : Fin 8) (p : Pkt), s.packetAt x i 4 (some 0x0C) = some p → Live s x →
    (recKind p.pay = 8 → s.recordReason p.pay [8] = 0 → roleFieldsOk (recBody p.pay) = true → macOk (recBody p.pay) = true →
      s.roles.record = none →
      exec (.setRole x i) s = .next
        ({ s with roles := Roles.ofRecord (recBody p.pay) (if s.clock.ready then some s.pilot else none)
                  faults := { s.faults with storeQueue := s.faults.storeQueue ++
                    [({ kind := 8, pages := recordPages p.pay.length, bytes := p.pay, packet := none } : StoreRec)] } }.modCtx x (fun k => k.ended p (okEntry p)))) ∧
    (∀ (cmd : Instr) (kind : Nat), (cmd = .ownerRecord x i ∧ kind = 6 ∧ s.ownerReason p.pay = 0) ∨
        (cmd = .ownerRelease x i ∧ kind = 7 ∧ s.sec.ownerKey = some (recBody p.pay) ∧ s.recordReason p.pay [7] = 0) →
      recKind p.pay = kind →
      exec cmd s = .next
        ({ s with faults := { s.faults with storeQueue := s.faults.storeQueue ++
            [({ kind := kind, pages := recordPages p.pay.length, bytes := p.pay, packet := none } : StoreRec)] } }.modCtx x (fun k => k.ended p (okEntry p))))

/-- R485, R486, R487. A piece of an image waits in the queue of the module store; an activate of a complete image that verifies
makes it staged and waits for its pointer page; an abandon discards what is staged. -/
def Obligations.FirmwareUpdatesGoThroughTheStore : Prop :=
  ∀ (s : State) (x : Fin 16) (i : Fin 8) (p : Pkt), Live s x → pieceMalformed p.pay = false →
    (s.firmwareAt x i 0 = some p →
      (pieceOffset p.pay = 0 ∨
        (pieceOffset p.pay = s.sec.partialImage.length ∧ pieceTotal p.pay = s.sec.partialTotal)) →
      ∃ t, exec (.fwUpdateWrite x i) s = .next t ∧ (t.ctx x).slots[p.slot].state = .accepted ∧
        t = { s with hub := t.hub, faults := t.faults, sec := t.sec } ∧
        t.faults = { s.faults with storeQueue := s.faults.storeQueue ++
          [⟨0x21, recordPages (pieceData p.pay).length, pieceData p.pay, some (x, i, p.seq)⟩] } ∧
        t.sec = (if pieceOffset p.pay = 0 then { s.sec with partialTotal := pieceTotal p.pay, partialImage := [] } else s.sec)) ∧
    (s.firmwareAt x i 1 = some p → s.sec.partialTotal ≠ 0 → s.sec.partialImage.length = s.sec.partialTotal →
      s.imageReason s.sec.partialImage = 0 →
      ∃ t, exec (.fwUpdateActivate x i) s = .next t ∧ (t.ctx x).slots[p.slot].state = .accepted ∧
        t = { s with hub := t.hub, faults := t.faults, sec := t.sec } ∧ t.sec.staged = true ∧ t.sec.boot = s.sec.boot ∧
        t.sec.image = some (imageOf s.sec.partialImage, recGen s.sec.partialImage) ∧ t.sec.banks = s.sec.banks ∧
        t.faults = { s.faults with storeQueue := s.faults.storeQueue ++ [⟨0x22, recordPages 0, [], some (x, i, p.seq)⟩] }) ∧
    (s.firmwareAt x i 2 = some p → s.sec.hubResetAt = none → s.sec.pendingModule = false →
      exec (.fwUpdateAbandon x i) s = .next
        ({ s with sec := { s.sec with partialTotal := 0, partialImage := [], staged := false, image := none } }.modCtx x
          (fun k => k.ended p (okEntry p))))

/-- R489. A request over the DOE mailbox or in an ATTEST frame that reaches the responder in its place of the negotiation is
answered with the response of its code: version 1.2, CTExponent 16, RSA-PSS with SHA-512 where it is offered, the digest of the
chain, and a portion of the chain. -/
def Obligations.TheResponderNegotiates : Prop :=
  ∀ (s s1 : State) (r : SpdmReq) (m : List Byte) (q : SpdmMsg) (t : Sec), s.diesUp = true →
    (match r with | .doe b => m = b | .bxt _ f => m = f.payload) → s.spdmTake r = (s1, some q) → q.bytes = m →
    s1.sec.spdmPlace q.who s.pilot = some t →
    (byteAt m 1 = 0x84 → exec (.getVersion r) s = .next (({ s1 with sec := t.setStage q.who 1 }).spdmAnswer q
      (spdmHead 0x10 0x04 0 0 ++ leBytes 1 0 ++ leBytes 1 1 ++ leBytes 2 0x1200))) ∧
    (byteAt m 1 = 0xE1 → 1 ≤ t.spdmStage q.who → ∃ size, exec (.getCapabilities r) s = .next
      (({ s1 with freeCtr := s1.freeCtr + 1, sec := t.setStage q.who 2 }).spdmAnswer q
        (spdmHead 0x12 0x61 0 0 ++ leBytes 1 0 ++ leBytes 1 16 ++ leBytes 2 0 ++ leBytes 4 0x16 ++
          leBytes 4 size ++ leBytes 4 size))) ∧
    (byteAt m 1 = 0xE3 → 2 ≤ t.spdmStage q.who → ∃ body, exec (.negotiateAlgorithms r) s = .next
      (({ s1 with sec := t.setStage q.who 3 }).spdmAnswer q body) ∧ body.length = 36 ∧ byteAt body 1 = 0x63 ∧
        fld body 12 4 = Nat.land (fld m 8 4) 0x40 ∧ fld body 16 4 = Nat.land (fld m 12 4) 0x04) ∧
    (byteAt m 1 = 0x81 → 3 ≤ t.spdmStage q.who → exec (.getDigests r) s = .next
      (({ s1 with sec := t }).spdmAnswer q (spdmHead 0x12 0x01 0 1 ++ sha512 Config.certChain))) ∧
    (byteAt m 1 = 0x82 → 3 ≤ t.spdmStage q.who → byteAt m 2 % 16 = 0 → (q.bxt = true → fld m 6 2 ≤ 4096) →
      fld m 4 2 ≤ Config.certChain.length → ∃ part, part = (Config.certChain.drop (fld m 4 2)).take (fld m 6 2) ∧
        exec (.getCertificate r) s = .next (({ s1 with sec := t }).spdmAnswer q
          (spdmHead 0x12 0x02 0 0 ++ leBytes 2 part.length ++
            leBytes 2 (Config.certChain.length - fld m 4 2 - part.length) ++ part)))

/-- R490, R491. After the negotiation a CHALLENGE of slot 0 and a GET_MEASUREMENTS are answered: the digest of the chain, a nonce
and a signature that no rule fixes, and the measurement blocks asked for. -/
def Obligations.TheResponderAttests : Prop :=
  ∀ (s s1 : State) (r : SpdmReq) (m : List Byte) (q : SpdmMsg) (t : Sec), s.diesUp = true →
    (match r with | .doe b => m = b | .bxt _ f => m = f.payload) → s.spdmTake r = (s1, some q) → q.bytes = m →
    s1.sec.spdmPlace q.who s.pilot = some t → 3 ≤ t.spdmStage q.who →
    (byteAt m 1 = 0x83 → byteAt m 2 = 0 → ∃ b, exec (.challenge r) s = .next
        (({ s1 with freeCtr := s1.freeCtr + 2, sec := t }).spdmAnswer q b) ∧ byteAt b 1 = 0x03 ∧
        (b.drop 4).take (sha512 Config.certChain).length = sha512 Config.certChain) ∧
    (byteAt m 1 = 0xE0 → byteAt m 3 ≤ 9 → ∃ b nonce, exec (.getMeasurements r) s = .next
        (({ s1 with freeCtr := s1.freeCtr + 2, sec := t }).spdmAnswer q b) ∧
      (byteAt m 3 = 0 → bit (byteAt m 2) 0 = false →
        b = spdmHead 0x12 0x60 9 0 ++ leBytes 1 0 ++ leBytes 3 0 ++ fitTo 32 nonce ++ leBytes 2 0) ∧
      (byteAt m 3 ≠ 0 → bit (byteAt m 2) 0 = false → b = spdmHead 0x12 0x60 0 0 ++ leBytes 1 1 ++
        leBytes 3 (s1.measurementBlock (byteAt m 3)).length ++ s1.measurementBlock (byteAt m 3) ++ fitTo 32 nonce ++
        leBytes 2 0))

/-! ## Faults, module store and in-field tests (16, 17) -/

/-- R427. A detected fault that joins no QUEUED entry enters the ring at RSEQ_NEXT as QUEUED with COUNT 1; a corrected one of the
same source, unit and reason as a QUEUED entry adds one to its COUNT instead. -/
def Obligations.FaultsEnterTheRing : Prop :=
  ∀ (s : State) (r : FaultRec) (rest : List FaultRec), s.h1Up = true → s.faults.detected = r :: rest → r.severity < 3 →
    ((∀ e ∈ s.faults.ring, e.2.state = .queued → r.joins e.2.fault = false) →
      (∀ e, alookup (s.faults.rseqNext.toNat % 4096) s.faults.ring = some e → e.isOpen = false) →
      exec (.faultRecord none) s = .next { s with faults := { s.faults with
        detected := rest, counts := vmod s.faults.counts (ix 4 r.severity) (fun n => satAdd n 1)
        ring := ainsert (s.faults.rseqNext.toNat % 4096) (ringEntry s.faults.rseqNext r s.faults.overflow) s.faults.ring
        rseqNext := s.faults.rseqNext + 1, overflow := false } }) ∧
    (∀ k e, s.faults.ring = [(k, e)] → e.state = .queued → r.joins e.fault = true →
      exec (.faultRecord none) s = .next { s with faults := { s.faults with
        detected := rest, counts := vmod s.faults.counts (ix 4 r.severity) (fun n => satAdd n 1)
        ring := [(k, { e with count := satAdd e.count 1 })] } })

/-- R428, R429. A free handler takes the foremost entry that waits, and an uncontained one kills its context; a deferred entry of
no context that is in HANDLING ends as DONE, with EVENT 0x0610 for context 0. -/
def Obligations.TheHandlerTakesAndEndsEntries : Prop :=
  (∀ (s : State) (e : RingEntry), s.h1Up = true → s.faults.handling = none → s.faults.killLatch = [] →
    s.faults.foremost ((s.faults.ring.map (·.2)).filter (·.isOpen)) = some e →
    ∃ t, exec (.faultHandle false) s = .next t ∧ t.faults.handling = some e.rseq ∧
      t.faults.ring = s.faults.ring.map (fun r => if r.2.rseq = e.rseq then (r.1, { r.2 with state := .handling }) else r) ∧
      (e.fault.severity ≠ 2 → t = { s with faults := t.faults }) ∧
      (∀ x, e.fault.severity = 2 → e.fault.ctx = some x → Live s x → (t.ctx x).queued = 0 ∧ t.noneRunning x = true ∧
        ((t.ctx x).state = .killed ∨ (t.ctx x).dying = true))) ∧
  (∀ (s : State) (e : RingEntry), s.h1Up = true → s.faults.handling = some e.rseq → s.faults.entry e.rseq = some e →
    e.fault.severity = 1 → e.fault.transient = false → e.fault.ctx = none →
    exec (.faultHandle true) s = .next
      (({ s with faults := { s.faults with handling := none, ring := s.faults.ring.map (fun (r : Nat × RingEntry) =>
          if r.2.rseq = e.rseq then (r.1, { r.2 with state := .done }) else r) } }).event 0 0x0610
        (detail [(0, 4, e.rseq.toNat), (4, 1, 1), (5, 1, e.fault.source), (6, 2, e.fault.reason)])))

/-- R408, R431. A write of FAULT_STATUS clears the cause bits that it writes as 1; after 3,000,000,000 pilot cycles the minute
counter advances and suspicions older than 43,200 minutes end. -/
def Obligations.CauseBitsAndMinutes : Prop :=
  (∀ (s : State) (v : W32), s.h1Up = true → exec (.faultStatusWrite v) s = .next { s with faults := { s.faults with
    nmiOverflow := s.faults.nmiOverflow && (!v.getLsbD 1 || s.faults.nmiAt[(0 : Fin 3)] == s.pilot)
    nmiFatal := s.faults.nmiFatal && (!v.getLsbD 2 || s.faults.nmiAt[(1 : Fin 3)] == s.pilot)
    nmiClock := s.faults.nmiClock && (!v.getLsbD 3 || s.faults.nmiAt[(2 : Fin 3)] == s.pilot) } }) ∧
  (∀ (s : State), s.board.aonOn = true → s.faults.minuteAt + 3000000000 ≤ s.pilot →
    ∃ t, exec .minuteTick s = .next t ∧ t.faults.minute = s.faults.minute + 1 ∧ t.faults.minuteAt = s.pilot ∧
      ∀ a, (t.arr a).suspects =
        (s.arr a).suspects.filter (fun p => decide ((s.faults.minute + 1).toNat ≤ p.2 + 43200)))

/-- R438, R439, R440. A batch that the stored energy allows starts with the largest such prefix of the queue; one that it does not
allow is deferred, with 0x0619 once, and after 60 s with 0x061A; a finished batch makes its record current; a measurement sets
the capacitance. -/
def Obligations.TheModuleStoreWritesInBatches : Prop :=
  ∀ (s : State), s.h1Up = true →
    (∀ v n, s.batchDue = true → n = prefixFits s.faults.cUf v 0 s.faults.storeQueue → n ≠ 0 →
      exec (.storeBatch v) s = .next { s with faults := { s.faults with
        vMv := v, storeBatch := s.faults.storeQueue.take n, storeQueue := s.faults.storeQueue.drop n
        storeBatches := satAdd s.faults.storeBatches 1, deferredAt := none, deferralPosted := false, holdupLow := false } }) ∧
    (∀ v, s.batchDue = true → prefixFits s.faults.cUf v 0 s.faults.storeQueue = 0 → s.faults.deferralPosted = false →
      exec (.storeBatch v) s = .next (({ s with faults := { s.faults with
        vMv := v, storeDeferrals := satAdd s.faults.storeDeferrals 1
        deferredAt := some (s.faults.deferredAt.getD s.pilot), triedAt := s.pilot, deferralPosted := true } }).event 0 0x0619 [])) ∧
    (∀ r, s.faults.storeBatch = [r] → r.packet = none → s.board.pwrGood = true →
      ∃ t, exec .storeBatchDone s = .next t ∧ t = { s with faults := { s.faults with storeBatch := [] }, sec := t.sec } ∧
        (r.kind = 6 → recKind r.bytes = 6 → t.sec.ownerKey = some (keyId (ownerModulus r.bytes)) ∧
          alookup 6 t.sec.records = some r.bytes) ∧
        (r.kind = 7 → t.sec.ownerKey = none ∧ alookup 6 t.sec.records = none ∧ alookup 8 t.sec.records = none) ∧
        (r.kind = 4 ∨ r.kind = 5 ∨ r.kind = 8 → recKind r.bytes = r.kind → alookup r.kind t.sec.records = some r.bytes ∧
          t.sec.ownerKey = s.sec.ownerKey)) ∧
    (∀ a, s.faults.deferredAt = some a → a + 3000000000 ≤ s.pilot → s.faults.holdupLow = false →
      exec .holdupLow s = .next (({ s with faults := { s.faults with holdupLow := true } }).event 0 0x061A [])) ∧
    (∀ dv, dv ≠ 0 → s.faults.measuredMinute + 1440 ≤ s.faults.minute.toNat →
      exec (.capacitanceMeasure dv) s = .next { s with faults := { s.faults with
        cUf := 200000 / dv, measureEnd := s.pilot + 50000, measuredMinute := s.faults.minute.toNat } })

/-- R343, R411, R412. A test falls due with its minute or at once by RUN_NOW, is forced after 30 s, claims the command boundary from
every command of its core, starts there and counts in RUNS, and ends after its array cycles; until its end only the core's test, its
look-ahead loads and, with cold arrays, a ramp request change. -/
def Obligations.InFieldTestsRunTheirCourse : Prop :=
  ∀ (s : State) (c : Fin 4) (k : Ift), k = (s.core c).ift →
    (s.h1Up = true → s.clock.ready = true → k.nextMinute ≤ s.faults.minute.toNat → ∃ t, exec (.iftDue c) s = .next t ∧
      OnlyCore c s t ∧ t.core c = { s.core c with ift := { k with due := true, nextMinute := k.nextMinute + k.period } }) ∧
    (s.h1Up = true → ∃ t, exec (.iftRunNow c) s = .next t ∧ OnlyCore c s t ∧
      t.core c = { s.core c with ift := { k with due := true, runNow := true } }) ∧
    (s.h1Up = true → k.due = true → k.running = false → 1500000000 ≤ k.waited → ∃ t, exec (.iftForce c) s = .next t ∧
      OnlyCore c s t ∧ t.core c = { s.core c with ift := { k with forced := true } }) ∧
    (s.diesUp = true → k.due = true → k.running = false → (s.core c).running = none → s.fastUp = true →
      ((s.core c).span = none ∨ k.forced = true) → ∃ t, exec (.iftRun c) s = .next t ∧
        t = { s with cores := t.cores, arrays := t.arrays, power := { s.power with rampReqs := t.power.rampReqs } } ∧
        (∀ a, t.arr a = if coreOfArray a = c then (s.arr a).dropShadow else s.arr a) ∧
        (∀ d, d ≠ c → t.core d = s.core d) ∧ t.core c = { s.core c with ift := { k with
          runNow := false, due := false, forced := false, waited := 0, running := true, ran := 0, runs := satAdd k.runs 1 } } ∧
        t.power.rampReqs = (if ((s.arr (arrayOf c 0)).cold = true ∨ (s.arr (arrayOf c 1)).cold = true) ∧
          (∀ r ∈ s.power.rampReqs, r.core ≠ c) then s.power.rampReqs ++ [⟨c, s.arrayTime⟩] else s.power.rampReqs)) ∧
    (k.due = true → k.running = false → ((s.core c).span = none ∨ k.forced = true) → ∀ isOp, s.dispatchCore c isOp = none) ∧
    (s.diesUp = true → k.running = true → (∀ r ∈ s.power.rampReqs, r.core ≠ c) →
      4200000 ≤ k.ran → ∃ t, exec (.iftEnd c []) s = .next t ∧
        t = { s with cores := t.cores, arrays := t.arrays } ∧ (∀ d, d ≠ c → t.core d = s.core d) ∧
        t.core c = { s.core c with ift := { k with running := false, ran := 0 } } ∧
        ∀ a, t.arr a = if coreOfArray a = c then { s.arr a with lastIssue := s.arrayTime } else s.arr a) ∧
    (∀ fs : List IftFail, s.diesUp = true → k.running = true → (∀ r ∈ s.power.rampReqs, r.core ≠ c) →
      4200000 + 140000 * fs.length ≤ k.ran → ∃ t, exec (.iftEnd c fs) s = .next t ∧
        (t.core c).ift.running = false ∧ (t.core c).ift.runs = k.runs)

/-! ## Power, temperature and clock domains (18) -/

/-- R445, R448. At the end of a window the duty of a throttled rail steps down by 4 over its limit and up by 1 after 16 windows
below 19/20 of it; at the end of a period the cap duty steps by the power of its two windows, and the lowest cap comes into
force. -/
def Obligations.DutiesFollowCurrentAndPower : Prop :=
  (∀ (s : State) (counts : List (List Nat)) (r : Fin 17) (est : Nat), est = s.estimate counts r → s.h1Up = true → s.power.windows < 2 → r.val ≤ 12 →
    s.power.rails[r].measOnly = false →
    ∃ t, exec (.barometerWindow counts) s = .next t ∧ t.power.windows = s.power.windows + 1 ∧
      t.power.rails[r].est = est ∧ t.power.rails[r].estPrev = s.power.rails[r].est ∧
      t.power.rails[r].duty =
        (if railLimit r.val < est then max 1 (s.power.rails[r].duty - 4)
         else if 20 * est < 19 * railLimit r.val ∧ 16 ≤ s.power.rails[r].since + 1
         then min 64 (s.power.rails[r].duty + 1) else s.power.rails[r].duty) ∧
      ∀ a, (t.arr a).duty = t.arrayDuty a) ∧
  (∀ (s : State), s.h1Up = true → 2 ≤ s.power.windows →
    ∃ t, exec .barometerPeriod s = .next t ∧ t.power.windows = 0 ∧ t.power.draw = s.power.sumDraw ∧
      t.power.effCap = min s.power.hostCap (min s.power.mgrCap s.power.bmcCap) ∧
      t.power.capDuty = (if 1840000 * (3800 - 60) < s.power.sumDraw then max 1 (s.power.capDuty - 8)
        else if 1840000 * (s.power.effCap - 60) < s.power.sumDraw then max 1 (s.power.capDuty - 1)
        else if s.power.sumDraw < 1840000 * (s.power.effCap - 32 - 60) ∧ 16 ≤ s.power.capSince + 1
        then min 64 (s.power.capDuty + 1) else s.power.capDuty) ∧ ∀ a, (t.arr a).duty = t.arrayDuty a)

/-- R453, R454. A measurement within 12 % of the limit of the estimate ends the run of drifting windows and one further off
lengthens it; the 500th in a row makes the rail measured only, counts a drift and posts 0x0701. From then on every measured window
counts towards the fit and moves the duty of a throttled rail by 0.92 of its limit. The fit of 4,096 windows passes, with
every window within 6 % of the limit, and estimation is restored with 0x0702 at the end of the period; or it fails and another
begins; or it is the third, and measurement is final with 0x0703. Before 4,096 windows nothing changes. -/
def Obligations.DriftAndRecalibration : Prop :=
  ∀ (s : State) (r : Fin 17) (k : Rail), s.h1Up = true → k = s.power.rails[r] →
    (∀ i d, d = (if k.est ≤ i then i - k.est else k.est - i) → k.measOnly = false →
      (25 * d ≤ 3 * railLimit r.val →
        exec (.railMeasurement r i) s = .next (s.modRail r (fun k => { k with measPrev := k.meas, meas := i, driftRun := 0 }))) ∧
      (3 * railLimit r.val < 25 * d → k.driftRun + 1 < 500 →
        exec (.railMeasurement r i) s = .next (s.modRail r (fun k => { k with
          measPrev := k.meas, meas := i, driftRun := k.driftRun + 1 }))) ∧
      (3 * railLimit r.val < 25 * d → 500 ≤ k.driftRun + 1 →
        ∃ t, exec (.railMeasurement r i) s = .next t ∧ t.power.rails[r] = { k with
            measPrev := k.meas, meas := i, driftRun := 0, drifts := satAdd k.drifts 1, measOnly := true, fitNo := 1, fitWin := 0
            restore := false } ∧ (∀ q, q ≠ r → t.power.rails[q] = s.power.rails[q]) ∧ OnlyPost 0 0x0701 r.val { s with power := t.power } t)) ∧
    (∀ i, k.measOnly = true → ∃ t, exec (.railMeasurement r i) s = .next t ∧ t.power.rails[r].meas = i ∧
      t.power.rails[r].measPrev = k.meas ∧ t.power.rails[r].measOnly = true ∧ t.power.rails[r].fitWin = k.fitWin + 1 ∧
      (r.val ≤ 12 → t.power.rails[r].duty =
        (if 92 * railLimit r.val / 100 < i then max 1 (k.duty - 4)
         else if 20 * i < 19 * (92 * railLimit r.val / 100) ∧ 16 ≤ k.since + 1 then min 64 (k.duty + 1) else k.duty)) ∧
      (∀ q, q ≠ r → t.power.rails[q] = s.power.rails[q]) ∧ ∀ a, (t.arr a).duty = t.arrayDuty a) ∧
    (∀ w, k.measOnly = true → k.fixed = false → k.restore = false → 4096 ≤ k.fitWin →
      (50 * w ≤ 3 * railLimit r.val → exec (.recalibrationFit r w) s = .next (s.modRail r (fun k => { k with restore := true, calib := s.pilot + 1 }))) ∧
      (3 * railLimit r.val < 50 * w → k.fitNo < 3 →
        exec (.recalibrationFit r w) s = .next (s.modRail r (fun k => { k with fitNo := k.fitNo + 1, fitWin := 0 }))) ∧
      (3 * railLimit r.val < 50 * w → 3 ≤ k.fitNo → ∃ t, exec (.recalibrationFit r w) s = .next t ∧
        t.power = (s.modRail r (fun k => { k with fixed := true })).power ∧ OnlyPost 0 0x0703 r.val { s with power := t.power } t)) ∧
    (∀ w, k.measOnly = false ∨ k.fitWin < 4096 → exec (.recalibrationFit r w) s = .next s) ∧
    (k.restore = true → 2 ≤ s.power.windows → (s.ctx 0).state = .active →
      ∃ t, exec .barometerPeriod s = .next t ∧ t.power.rails[r].measOnly = false ∧ t.power.rails[r].restore = false ∧
        { Entry.blank 4 0x0702 with detail := detail [(0, 4, r.val)] } ∈ (t.ctx 0).formed)

/-- R457, R458. A reading is kept as the die's hottest sensor; every 100 µs the thermal duty of a core falls by 4 with a die at its
throttle point and rises by 1 with every die more than 3 °C below it; a die that reaches its trip point trips the module:
THERMTRIP_N, the fatal state and the rails off. -/
def Obligations.TemperaturesThrottleAndTrip : Prop :=
  (∀ (s : State) (d : Fin 32) (ts : List Nat), s.h1Up = true → (∀ v ∈ ts, v < throttlePoint d.val) →
    (∀ i ∈ s.power.atTrip, i / 4 ≠ d.val) → d.val ∉ s.power.hot →
    ∃ t, exec (.temperatureRead d ts) s = .next t ∧ t = { s with power := { s.power with temps := t.power.temps } } ∧
      t.power.temps[d] = ts.foldl max 0 ∧ ∀ e, e ≠ d → t.power.temps[e] = s.power.temps[e]) ∧
  (∀ (s : State) (c : Fin 4), s.h1Up = true →
    ∃ t, exec .thermalDutyUpdate s = .next t ∧
      (t.core c).thermalDuty = (if ∃ d ∈ coreDies c, throttlePoint d ≤ s.power.temps[ix 32 d]
        then max 1 ((s.core c).thermalDuty - 4)
        else if ∀ d ∈ coreDies c, s.power.temps[ix 32 d] < throttlePoint d - 12 then min 64 ((s.core c).thermalDuty + 1)
        else (s.core c).thermalDuty) ∧ ∀ a, (t.arr a).duty = t.arrayDuty a) ∧
  (∀ (s : State) (d : Fin 32), s.h1Up = true → ¬(12 ≤ d.val ∧ d.val < 24) → s.power.thermtrip = false →
    ∃ t, exec (.thermalTrip d) s = .next t ∧ t.power.thermtrip = true ∧ t.board.railsOn = false ∧ t.board.pwrGood = false ∧
      (s.faults.fatal = false → s.faults.ring = [] → t.faults.fatal = true))

/-- R451, R452. A ramp is granted to the oldest request once its first row is ready to issue, 64 array cycles after the last grant at
the earliest: both arrays of its core are warm and the wait is counted; a hint ends when its duration has passed. -/
def Obligations.RampsAreGrantedAndHintsEnd : Prop :=
  (∀ (s : State) (r : RampReq), s.h1Up = true → s.nextRamp = some r →
    r.at' ≤ s.arrayTime → (∀ g, s.power.lastRamp = some g → 64 ≤ s.arrayTime - g) →
    ∃ t, exec .rampGrant s = .next t ∧
      t = { s with power := { s.power with rampReqs := s.power.rampReqs.filter (fun q => q.core != r.core)
                                           lastRamp := some s.arrayTime }
                   arrays := t.arrays, cores := t.cores } ∧
      (∀ a, t.arr a = if coreOfArray a = r.core then { s.arr a with cold := false, lastIssue := s.arrayTime } else s.arr a) ∧
      (∀ d, d ≠ r.core → t.core d = s.core d) ∧
      t.core r.core = { s.core r.core with
        staggerWait := satAdd (s.core r.core).staggerWait (s.arrayTime - r.at') }) ∧
  (∀ (s : State) (x : Fin 16) (c : Fin 4) (h : Hint) (e : Nat), s.h1Up = true → (s.cc x c).hint = some h →
    h.expires = some e → e ≤ s.pilot → exec (.hintExpire x c) s = .next (s.modCC x c (fun k => { k with hint := none })))

/-- R455, R456. A stopped domain that is wanted starts, runs 400 pilot cycles later, and stops again once it is idle; no other
domain changes. A stopped core leaves its arrays cold. -/
def Obligations.ClockDomainsStartAndStop : Prop :=
  ∀ (s : State) (d : Fin 11), s.h1Up = true →
    (s.power.domains[d].st = .stopped → s.clocksOn = true → s.wanted d = true → s.startSpaced d = true →
      exec (.clockStart d) s = .next (s.modDomain d (fun k => ⟨.starting, s.pilot, 0, satAdd k.starts 1⟩))) ∧
    (s.power.domains[d].st = .starting → s.power.domains[d].since + 400 ≤ s.pilot →
      exec (.clockStartDone d) s = .next (s.modDomain d (fun k => { k with st := .running, idle := 0 }))) ∧
    (s.power.domains[d].st = .running → s.inUse d = false →
      (7 ≤ d.val ∨ (s.clock.idleUs ≠ 0 ∧ 50 * s.clock.idleUs ≤ s.power.domains[d].idle)) →
      ∃ t, exec (.clockStop d) s = .next t ∧
        t = { s.modDomain d (fun k => { k with st := .stopped, since := s.pilot, idle := 0 }) with arrays := t.arrays } ∧
        ∀ a, t.arr a = if (coreOfArray a).val = d.val then { s.arr a with cold := true } else s.arr a)

/-- R447. The caps of host, manager and baseboard are 3,200 W at reset and after a module reset. A cap from 1,600 to 3,200 W is
set by its writer; any other is dropped and its write counted on H1, and the cap stays. The next barometer period puts the least
in force. -/
def Obligations.CapsStayInTheirRange : Prop :=
  (State.reset.power.hostCap = 3200 ∧ State.reset.power.mgrCap = 3200 ∧ State.reset.power.bmcCap = 3200) ∧
  (∀ s : State, s.board.aonOn = true → s.moduleAsked = true →
    ∃ t, exec .moduleReset s = .next t ∧ t.power.hostCap = 3200 ∧ t.power.mgrCap = 3200 ∧ t.power.bmcCap = 3200) ∧
  (∀ (s u : State) (cmd : Instr) (w : Nat) (v : W32) (q : Power),
    (cmd = .pwrCapWrite v ∧ s.hubUp = true ∧ u = s ∧ w = bits v.toNat 11 0 ∧ q = { u.power with hostCap := w }) ∨
      (cmd = .bmcCapWrite v ∧ s.h1Up = true ∧ u = s ∧ w = bits v.toNat 11 0 ∧ q = { u.power with bmcCap := w }) ∨
      (∃ p f c, cmd = .capSet p f ∧ s.lampUp = true ∧ s.takeCtrl p f 0x0D = (u, some c) ∧ c.src = u.roles.manager ∧
        w = fld c.body 0 4 ∧ q = { u.power with mgrCap := w }) →
    (1600 ≤ w → w ≤ 3200 → exec cmd s = .next { u with power := q }) ∧
    (w < 1600 ∨ 3200 < w → ∃ t, exec cmd s = .next t ∧ OnlyBlk 1 u t ∧
      (cmd = .pwrCapWrite v ∨ cmd = .bmcCapWrite v → t.blks[(1 : Fin 36)] =
        { u.blks[(1 : Fin 36)] with rweDropped := satAdd u.blks[(1 : Fin 36)].rweDropped 1 }))) ∧
  (∀ s : State, s.h1Up = true → 2 ≤ s.power.windows →
    ∃ t, exec .barometerPeriod s = .next t ∧ t.power.hostCap = s.power.hostCap ∧ t.power.mgrCap = s.power.mgrCap ∧
      t.power.bmcCap = s.power.bmcCap ∧ t.power.effCap = min s.power.hostCap (min s.power.mgrCap s.power.bmcCap))

/-! ## Reference clocks, resets, start and power (19, 22) -/

/-- R461 to R466. While the recovered clock is out of use, a window of the crystal in range ends its run of failures, one out of
range lengthens it, and the fourth of the active crystal fails it: the internal source takes over, every port leaves service, the
fast clocks pause and CLOCK_NMI is set. A failed crystal is taken back after 64 good windows. -/
def Obligations.TheMonitorJudgesTheCrystal : Prop :=
  ∀ (s : State) (rec : Option Nat) (n : Nat), s.h1Up = true → s.clock.xtalPassed = true → s.recEnabled = false →
    s.clock.sources[(0 : Fin 3)].failed = false → s.clock.sources[(0 : Fin 3)].failRun < 4 → s.clock.lanePending = false →
    (99950 ≤ n → n ≤ 100050 → s.clock.sources[(1 : Fin 3)].failed = false →
      exec (.monitorWindow rec (some n)) s = .next
        ((s.modSource 1 (fun q => { q with failRun := 0, goodRun := q.goodRun + 1 })).modClock (fun k => { k with
          holdover := k.holdover && k.source != 1 }))) ∧
    (n < 99950 ∨ 100050 < n → s.clock.sources[(1 : Fin 3)].failed = false →
      s.clock.sources[(1 : Fin 3)].failRun + 1 < 4 →
      exec (.monitorWindow rec (some n)) s = .next (s.modSource 1 (fun q => { q with
        failRun := q.failRun + 1, goodRun := 0, failedWindows := satAdd q.failedWindows 1 }))) ∧
    (n < 99950 ∨ 100050 < n → s.clock.sources[(1 : Fin 3)].failed = false →
      s.clock.sources[(1 : Fin 3)].failRun = 3 → s.clock.source = 1 → s.clock.pauseFrom = none →
      ∃ t, exec (.monitorWindow rec (some n)) s = .next t ∧ t.clock.source = 2 ∧ t.clock.limited = true ∧
        t.clock.sources[(1 : Fin 3)].failed = true ∧ t.clock.pauseFrom = some s.pilot ∧ t.faults.nmiClock = true ∧
        ∀ p, t.portUp p = false) ∧
    (99950 ≤ n → n ≤ 100050 → s.clock.sources[(1 : Fin 3)].failed = true → s.clock.sources[(1 : Fin 3)].goodRun = 63 →
      s.clock.returnEn = true → s.clock.source = 2 → s.clock.pauseFrom = none →
      ∃ t, exec (.monitorWindow rec (some n)) s = .next t ∧ t.clock.source = 1 ∧ t.clock.limited = false ∧
        t.clock.sources[(1 : Fin 3)].failed = false ∧ t.clock.pauseFrom = some s.pilot)

/-- R462, R465, R467. A lost signal puts the fast PLLs in holdover; the calibration is renewed after 60 s; the end of a pause
lets work resume. A write of CLK_CTRL sets its fields, an IDLE_US out of range is dropped and counted, and a change of lane leaves
the recovered source for the crystal with no record. -/
def Obligations.ClocksFollowTheirCommands : Prop :=
  ∀ (s : State),
    (s.h1Up = true → exec .holdover s = .next
      (if s.clock.source = 2 then s else { s with clock := { s.clock with holdover := true } })) ∧
    (∀ hz, s.h1Up = true → s.clock.xtalPassed = true → s.clock.sources[(1 : Fin 3)].failed = false →
      s.clock.calAt + 3000000000 ≤ s.pilot →
      exec (.oscillatorCalibrate hz) s = .next { s with clock := { s.clock with calibrated := hz, calAt := s.pilot } }) ∧
    (∀ a, s.h1Up = true → s.clock.pauseFrom = some a → s.clock.owedSwitch = false →
      ∃ t, exec .switchPauseEnd s = .next t ∧
        t = { s with clock := { s.clock with pauseFrom := none }, links := t.links, fabric := t.fabric } ∧
        (s.clock.source = 2 → t.links = s.links)) ∧
    (∀ v : W32, s.hubUp = true → bits v.toNat 13 8 = s.clock.refLane → bit v.toNat 1 = s.clock.linkRefEn →
      (bits v.toNat 25 16 = 0 ∨ (10 ≤ bits v.toNat 25 16 ∧ bits v.toNat 25 16 ≤ 1000) →
        exec (.clkCtrlWrite v) s = .next { s with clock := { s.clock with
          returnEn := bit v.toNat 0, idleUs := bits v.toNat 25 16 } }) ∧
      (bits v.toNat 25 16 ≠ 0 → ¬(10 ≤ bits v.toNat 25 16 ∧ bits v.toNat 25 16 ≤ 1000) →
        ∃ t, exec (.clkCtrlWrite v) s = .next t ∧
          t = { s with clock := { s.clock with returnEn := bit v.toNat 0 }, blks := t.blks } ∧
          (∀ b : Fin 36, b ≠ 1 → t.blks[b] = s.blks[b]) ∧
          t.blks[(1 : Fin 36)] = { s.blks[(1 : Fin 36)] with rweDropped := satAdd s.blks[(1 : Fin 36)].rweDropped 1 })) ∧
    (∀ v : W32, s.hubUp = true → bits v.toNat 13 8 ≠ s.clock.refLane → idleOk (bits v.toNat 25 16) = true →
      s.clock.source = 0 → s.clock.pauseFrom = none → s.clock.xtalPassed = true →
      s.clock.sources[(1 : Fin 3)].failed = false →
      ∃ t, exec (.clkCtrlWrite v) s = .next t ∧ t = { s with clock := t.clock } ∧ t.clock.source = 1 ∧
        t.clock.lanePending = true ∧ t.clock.refLane = bits v.toNat 13 8 ∧ t.clock.idleUs = bits v.toNat 25 16 ∧
        t.clock.sources[(0 : Fin 3)].failed = s.clock.sources[(0 : Fin 3)].failed ∧ t.clock.pauseFrom = none)

/-- R470, R471, R514, R518. With MOD_PWR_GOOD high and THERMTRIP_N released, a write of RESET_CTRL or BMC_RESET with the key asks
for its reset, which LAST_RESET names; one without the key is dropped and counted. MOD_RESET_N holds a module reset, which runs
from its deassertion. -/
def Obligations.ResetsAreAskedFor : Prop :=
  ∀ (s : State) (v : W32), s.board.pwrGood = true → s.power.thermtrip = false →
    let asked := fun (k : ResetKind) (code : Nat) => { s with clock := { s.clock with
      resetting := some (k, s.pilot), resetDone := false, lastReset := code } }
    let dropped := { s with board := { s.board with hostDropped := satAdd s.board.hostDropped 1 } }
    let key := bits v.toNat 31 16 = 0x5D1A
    (s.hubUp = true → exec (.resetCtrlWrite v) s = .next (if v.getLsbD 0 = true ∧ key then asked .module 3 else dropped)) ∧
    (s.h1Up = true → v.getLsbD 0 = true → key → exec (.bmcModuleReset v) s = .next (asked .module 2)) ∧
    (s.h1Up = true → v.getLsbD 0 = false → v.getLsbD 1 = true → key → s.faults.fatal = false → s.clock.perstHeld = false →
      s.clock.resetting = none → 5 ≤ s.clock.stage → exec (.bmcHubReset v) s = .next (asked .hub 4)) ∧
    (s.h1Up = true → ¬key ∨ (v.getLsbD 0 = false ∧ v.getLsbD 1 = false) →
      exec (.bmcModuleReset v) s = .next dropped ∧ exec (.bmcHubReset v) s = .next dropped) ∧
    (s.board.aonOn = true → s.moduleAsked = false →
      exec (.modResetN true) s = .next { s with clock := { s.clock with resetHeld := true } } ∧
      (s.clock.resetHeld = true → exec (.modResetN false) s = .next { s with clock := { s.clock with
        resetHeld := false, resetting := some (.module, s.pilot), resetDone := false, lastReset := 1 } }))

/-- R294, R470, R514. A function-level reset of a virtual function returns it to its reset values and begins to destroy its context
with no entries; one of the physical function, a hot reset, and an assertion of PERST_N outside other resets do so for all
sixteen and clear VF Enable. The two resets of the interface set LAST_RESET to 5, and PERST_N holds it until its deassertion. -/
def Obligations.PcieResetsDestroyTheContexts : Prop :=
  ∀ (s : State),
    (∀ (cmd : Instr) (x : Fin 16), (cmd = .functionLevelReset x ∧ s.hubUp = true) ∨ (cmd = .hotReset ∧ x = 0 ∧ s.hubUp = true) ∨
        (cmd = .perstN true ∧ x = 0 ∧ s.board.aonOn = true ∧ s.clock.perstHeld = false ∧ s.clock.resetting = none ∧
          s.clock.resetHeld = false) →
      ∃ t, exec cmd s = .next t ∧ (x = 0 → t.hub.vfEnable = false) ∧ (x ≠ 0 → ∀ y, y ≠ x →
          t.ctx y = { s.ctx y with formed := (t.ctx y).formed } ∧ (s.ctx y).formed <+: (t.ctx y).formed) ∧
        t.clock = { s.clock with lastReset := (if cmd = .functionLevelReset x then s.clock.lastReset else 5)
                                 perstHeld := s.clock.perstHeld || decide (cmd = .perstN true) } ∧
        ∀ y, y = x ∨ x = 0 → (t.ctx y).seqExpect = 1 ∧ (t.ctx y).formed = [] ∧ (t.ctx y).backlog = [] ∧
          (t.ctx y).cqHead = 0 ∧ (t.ctx y).cqTail = 0 ∧ (∀ j : Fin 8, (t.ctx y).slots[j].state = .free) ∧
          t.hub.msix[y] = ⟨[], []⟩ ∧ (t.ctx y).state = (if (s.ctx y).state = .none then .none else .destroying) ∧
          ((s.ctx y).state ≠ .none → (t.ctx y).destroyTag =
            if (s.ctx y).state = .destroying ∧ x ≠ 0 then (s.ctx y).destroyTag.filter (·.1 != x.val) else none)) ∧
    (s.board.aonOn = true → s.clock.perstHeld = true →
      ∃ t, exec (.perstN false) s = .next t ∧
        t = { s with clock := { s.clock with perstHeld := false }, board := t.board, freeCtr := t.freeCtr } ∧
        t.board = { s.board with pcieStatus := t.board.pcieStatus } ∧
        (t.hubUp = true → 4 ≤ bits t.board.pcieStatus.toNat 2 0 ∧ bits t.board.pcieStatus.toNat 2 0 ≤ 6))

/-- R469, R471, R473, Table 19.5. A module reset, and a rising MOD_PWR_GOOD, reinitialise everything outside the pilot-light domain
and start the module again; a module reset keeps the calibration, OSC_DLY, the minute counter, THERMTRIP_N and the module store,
and runs from stage 2. -/
def Obligations.RestartsReinitialise : Prop :=
  ∀ (s : State) (cmd : Instr) (osc : Fin 4) (slot : Fin 64), s.board.aonOn = true →
    (cmd = .moduleReset ∧ s.moduleAsked = true) ∨
      (cmd = .powerOnReset osc slot ∧ s.board.pwrGood = true ∧ s.board.goodAt = none) →
    ∃ t, exec cmd s = .next t ∧
      t.cores = State.reset.cores ∧ t.arrays = State.reset.arrays ∧ t.feeds = State.reset.feeds ∧
      t.hbm = State.reset.hbm ∧ t.tiers = State.reset.tiers ∧ t.blks = State.reset.blks ∧ t.links = State.reset.links ∧
      t.roles = State.reset.roles ∧ (∀ x, t.ctx x = State.reset.ctx x) ∧ t.hub.hostWrites = s.hub.hostWrites ∧
      t.faults.ring = [] ∧ t.faults.fatal = false ∧ t.faults.history = s.sec.hist ∧ t.sec.records = s.sec.records ∧
      t.sec.gens = s.sec.gens ∧ t.sec.floor = s.sec.floor ∧ t.sec.banks = s.sec.banks ∧ t.board.i3cAddr = none ∧
      t.clock.ready = false ∧ t.clock.resetting = none ∧ t.clock.stageAt = s.pilot ∧
      (cmd = .moduleReset → t.clock.stage = 2 ∧ t.clock.lastReset = s.clock.lastReset ∧
        t.clock.calibrated = s.clock.calibrated ∧ t.clock.oscDly = s.clock.oscDly ∧ t.faults.minute = s.faults.minute ∧
        t.power.thermtrip = s.power.thermtrip ∧ t.board.slotId = s.board.slotId) ∧
      (cmd = .powerOnReset osc slot → t.clock.stage = 1 ∧ t.clock.lastReset = 0 ∧ t.clock.oscDly = osc.val ∧
        t.faults.minute = s.sec.minute ∧ t.board.slotId = slot.val ∧ t.board.goodAt = some s.pilot)

/-- R470 to R472. A hub reset leaves no context and waits for the lamplighter, whose first heartbeat ends it; every heartbeat is
counted, and a second without one is fatal with 0x070D. Ports and blocks stay. -/
def Obligations.HubResetsAndHeartbeats : Prop :=
  ∀ (s : State),
    (s.h1Up = true → s.sec.hubResetAt = none → (∃ a, s.clock.resetting = some (.hub, a)) → s.clock.resetDone = false →
      ∃ t, exec .hubReset s = .next t ∧ t.clock = { s.clock with resetDone := true, lastBeat := s.pilot } ∧
        (∀ x, t.ctx x = { Ctx.blank with seqExpect := 1 }) ∧ t.links = s.links ∧ t.blks = s.blks) ∧
    (s.diesUp = true → 5 ≤ s.clock.stage → s.clock.resetting = none → s.clock.resetDone = false →
      exec .llHeartbeat s = .next { s with clock := { s.clock with beats := satAdd s.clock.beats 1, lastBeat := s.pilot } }) ∧
    (s.diesUp = true → 5 ≤ s.clock.stage → s.clock.resetDone = true → s.clock.perstHeld = true →
      ∃ t, exec .llHeartbeat s = .next t ∧ t.clock = { s.clock with
        beats := satAdd s.clock.beats 1, lastBeat := s.pilot, resetting := none, resetDone := false } ∧ t.hub = s.hub) ∧
    (s.h1Up = true → 5 ≤ s.clock.stage → s.clock.resetting = none → s.faults.fatal = false → s.faults.ring = [] →
      s.clock.lastBeat + 50000000 ≤ s.pilot →
      ∃ t, exec .llHeartbeatLoss s = .next t ∧ t.faults.fatal = true ∧ t.faults.nmiFatal = true ∧
        ∃ e, t.faults.ring = [(s.faults.rseqNext.toNat % 4096, e)] ∧ e.fault.reason = 0x070D ∧ e.fault.severity = 3)

/-- R468, R473, R475. The plain stages of a start end at their word, the crystal check of stage 3, after the settle
delay of a power-on start and four windows of 50,000 pilot cycles, passes on four counts from 98,000 to 102,000 within 5 of each other, stage 8 ends with every port in service or after 10 s, and stage 9 makes the module ready; a
stage past its latest time, and a stage 2 whose banks both fail, stop the start with their reason. -/
def Obligations.TheStartRunsItsStages : Prop :=
  ∀ (s : State), s.h1Up = true → s.starting = true →
    let next := { s with clock := { s.clock with stage := s.clock.stage + 1, stageAt := s.pilot } }
    (s.clock.stage = 1 ∨ s.clock.stage = 6 ∨ (s.clock.stage = 8 ∧ s.windowClosed = true) →
      exec (.startStage .plain) s = .next next) ∧
    (∀ hz a b c d, s.clock.stage = 3 →
      s.clock.stageAt + (if s.clock.warm = true then 0 else 100000 * 4 ^ s.clock.oscDly) + 200000 ≤ s.pilot → (∀ n ∈ [a, b, c, d], 98000 ≤ n ∧ n ≤ 102000 ∧ ∀ m ∈ [a, b, c, d], n ≤ m + 5) →
      exec (.startStage (.crystal [a, b, c, d] hz)) s = .next { s with clock := { s.clock with
        xtalPassed := true, calibrated := hz, calAt := s.pilot, stage := 4, stageAt := s.pilot } }) ∧
    (s.clock.stage = 9 → ∃ t, exec (.startStage .plain) s = .next t ∧ t.hub = s.hub ∧ t.roles.readyAt = some s.pilot ∧
      t.clock = { s.clock with ready := true, startReason := 0 }) ∧
    (∀ other areaOk identityOk rs, s.clock.stage = 2 → other ≠ 0 →
      exec (.startStage (.verified 0x080D other areaOk identityOk rs)) s = .next { s with clock := { s.clock with
        startStopped := true, startReason := 0x080D } }) ∧
    (s.clock.resetAt + stageLatest (!s.clock.warm) s.clock.stage < s.pilot →
      exec .startStageTimeout s = .next { s with clock := { s.clock with startStopped := true, startReason := 0x070C } })

/-- R510 to R512, R515. MOD_PWR_EN brings the rails and MOD_PWR_GOOD up once VIN has been good, 1.0 s after a deassertion at the
earliest; its deassertion and VIN out of range take MOD_PWR_GOOD and the rails down, an overvoltage asserts THERMTRIP_N and the two
others release it; VIN above 47.0 V is good again. -/
def Obligations.PowerFollowsItsPins : Prop :=
  ∀ (s : State),
    (∀ bank, s.board.pwrEn = false → s.board.vinOk = true → s.power.thermtrip = false → 10000 ≤ bank →
      (∀ t, s.board.enOffAt = some t → t + 50000000 ≤ s.pilot) →
      exec (.modPwrEnAssert bank) s = .next { s with board := { s.board with
        pwrEn := true, railsOn := true, aonOn := true, pwrGood := true, goodAt := none, enOffAt := none } }) ∧
    (∀ (cmd : Instr) (mv : Nat), (cmd = .modPwrEnDeassert ∧ s.board.pwrEn = true) ∨
        (cmd = .vinUndervoltage mv ∧ mv < 45000) ∨
        (cmd = .vinOvervoltage mv ∧ 58500 < mv ∧ s.board.railsOn = true) →
      ∃ t, exec cmd s = .next t ∧ t.board.pwrGood = false ∧ t.board.railsOn = false ∧
        (t.power.thermtrip = true ↔ cmd = .vinOvervoltage mv) ∧ t.cores = State.reset.cores ∧ t.hbm = State.reset.hbm ∧
        (∀ x, t.ctx x = State.reset.ctx x) ∧ t.sec = s.sec ∧ t.faults = s.faults ∧ t.clock.ready = false ∧
        (cmd = .modPwrEnDeassert → t.board.pwrEn = false ∧ t.board.enOffAt = some s.pilot ∧ t.board.vinMv = s.board.vinMv) ∧
        (cmd = .vinUndervoltage mv → t.board.vinOk = false ∧ t.board.inputLost = true ∧ t.board.vinMv = mv) ∧
        (cmd = .vinOvervoltage mv → t.board.aonOn = true ∧ t.board.vinMv = mv ∧ t.board.vinOk = s.board.vinOk)) ∧
    (∀ mv, 47000 < mv → exec (.vinReturn mv) s = .next { s with board := { s.board with
      vinOk := true, inputLost := false, vinMv := mv } })

/-! ## Ports, blocks and registers (12, 14, 21, 22) -/

/-- R347, R407, R460, R461. A trained port of an enabled link die enters service outside the internal source, and one that loses
its alignment leaves service and trains again; a lane of too many symbol errors records a transient in the history. -/
def Obligations.PortsEnterAndLeaveService : Prop :=
  ∀ (s : State) (p : Fin 16), s.diesUp = true →
    (s.blks[ix 36 (32 + p.val / 4)].enabled = true → (s.links[dieOfPort p]).ports[ix 4 (p.val % 4)].retired = false →
      s.clock.source ≠ 2 →
      ∃ t, exec (.portInService p) s = .next t ∧ t.portUp p = true ∧
        t = { s.modPort p (fun k => { k with inService := true, training := false }) with fabric := t.fabric }) ∧
    ((s.links[dieOfPort p]).ports[ix 4 (p.val % 4)].inService = true → s.recEnabled = false →
      exec (.portAlignmentLoss p none) s = .next (s.modPort p (fun k => { k with inService := false, training := true }))) ∧
    (∀ (d : Fin 4) (lane : Fin 16) (u : Nat), u = d.val * 256 + lane.val → (s.histOf 6 u).times.length < 2 →
      (s.faults.history.any (fun f => f.kind = 6 && f.unit == u) = true ∨ s.faults.history.length < 65536) →
      ∃ t, exec (.laneSymbolErrorRatio d lane) s = .next t ∧ t = { s with faults := t.faults } ∧
        t.histOf 6 u = { s.histOf 6 u with
          count := satAdd (s.histOf 6 u).count 1, times := s.faults.minute.toNat :: (s.histOf 6 u).times } ∧
        t.faults.ring = s.faults.ring)

/-- R12, R13, R322, R323, R497, R499, R501. A write of 1 to ENABLE of a disabled block starts its check, which ends with ENABLED or with
a reason; a write of 0 stops a block that no enabled block needs, and one that is needed keeps running and counts a dropped write. A
write that repeats ENABLE changes no more than a write of the other fields as they stand does; a host write of ENABLE is ignored and
counted while a context exists; blocks without ENABLE answer with nothing. A block that stops and a boundary put the pending values
in force. -/
def Obligations.BlocksAreCheckedAndEnabled : Prop :=
  ∀ (s : State) (b : Fin 36) (k : Blk), s.diesUp = true → k = s.blks[b] →
    (b.val < 6 → ∀ host, exec (.blockEnable b host) s = .next s ∧ exec (.blockDisable b host) s = .next s) ∧
    (6 ≤ b.val → ∀ host, (host = true → s.anyContext = false) →
      (k.enable = false → ∃ t, exec (.blockEnable b host) s = .next t ∧ OnlyBlk b s t ∧
        t.blks[b] = { s.rewritten b with enable := true, checking := !k.enabled }) ∧
      (k.enable = true → ∃ t, exec (.blockEnable b host) s = .next t ∧ OnlyBlk b s t ∧ t.blks[b] = s.rewritten b) ∧
      (k.enable = false → ∃ t, exec (.blockDisable b host) s = .next t ∧ OnlyBlk b s t ∧ t.blks[b] = s.rewritten b) ∧
      (k.enable = true → k.enabled = true → s.neededBy b = true →
        ∃ t, exec (.blockDisable b host) s = .next t ∧ OnlyBlk b s t ∧
          t.blks[b] = { s.rewritten b with rweDropped := satAdd k.rweDropped 1 }) ∧
      (k.enable = true → k.enabled = false ∨ s.neededBy b = false →
        ∃ t, exec (.blockDisable b host) s = .next t ∧ (∀ j, j ≠ b → t.blks[j] = s.blks[j]) ∧
          t.blks[b] = { s.rewritten b with enable := false, enabled := false, checking := false, updatePending := false } ∧
          Applied b s t ∧ (k.enabled = true →
            (∀ a : Fin 8, b.val = 10 + a.val → (t.arr a).inService = false) ∧
            ∀ (l p : Fin 4), b.val = 32 + l.val → (t.links[l]).ports[p].inService = false ∧ (t.links[l]).ports[p].training = false))) ∧
    (6 ≤ b.val → s.anyContext = true → ∀ cmd : Instr,
      (cmd = .blockEnable b true ∧ k.enable = false) ∨ (cmd = .blockDisable b true ∧ k.enable = true) →
      ∃ t, exec cmd s = .next t ∧ t.blks[b] = s.rewritten b ∧
        OnlyBlk b { s with board := { s.board with hostDropped := satAdd s.board.hostDropped 1 } } t) ∧
    (k.checking = false → exec (.enableCheckDone b) s = .next s) ∧
    (k.checking = true → s.checkReason b ≠ 0 →
      ∃ t, exec (.enableCheckDone b) s = .next t ∧
        t = { s with blks := t.blks, cores := t.cores, hbm := t.hbm, tiers := t.tiers } ∧ (∀ j, j ≠ b → t.blks[j] = s.blks[j]) ∧
        t.blks[b] = { k with checking := false, enabled := false, reason := s.checkReason b, updatePending := false } ∧
        Applied b s t) ∧
    (k.checking = true → s.checkReason b = 0 →
      ∃ t, exec (.enableCheckDone b) s = .next t ∧ t = { s with blks := t.blks, arrays := t.arrays, links := t.links } ∧
        (∀ j, j ≠ b → t.blks[j] = s.blks[j]) ∧ t.blks[b] = { k with checking := false, enabled := true, reason := 0 } ∧
        (∀ a : Fin 8, b.val = 10 + a.val → (t.arr a).inService = !(s.arr a).degraded) ∧
        ∀ (l p : Fin 4), b.val = 32 + l.val → s.clock.source ≠ 2 → (s.links[l]).ports[p].inService = false →
          (s.links[l]).ports[p].retired = false → (t.links[l]).ports[p].training = true) ∧
    (k.updatePending = true → (∀ c : Fin 4, b.val = 2 + c.val → s.coreIdle c = true) →
      ∃ t, exec (.rwsApply b) s = .next t ∧ t = { s with blks := t.blks, cores := t.cores, hbm := t.hbm, tiers := t.tiers } ∧
        (∀ j, j ≠ b → t.blks[j] = s.blks[j]) ∧ t.blks[b] = { k with updatePending := false } ∧ Applied b s t ∧
        ∀ n : Fin 12, b.val ≠ 18 + n.val → t.stack n = s.stack n) ∧
    (k.updatePending = false ∨ (∃ c : Fin 4, b.val = 2 + c.val ∧ s.coreIdle c = false) → exec (.rwsApply b) s = .next s)

/-- R10, R5, R494, R495, R499, R516 to R519. A register write of 4 bytes has the effect of its register, one elsewhere none, one of 8
bytes on a link die that of both its registers, and one of a length that R494 does not allow is dropped and counted. A read that is
allowed answers the bytes of the window, zeros where it is reserved; one of the low half of a counter latches the high half, which a
read of that half then answers. A private write sets the offset and its register; a private read answers words from the offset and
advances it; a module takes a dynamic address once, by the static address of its slot or with none; IDCODE reads 0x10108ABD, and
EXTEST acts as BYPASS outside MOD_RESET_N. -/
def Obligations.RegistersAndBusesAnswer : Prop :=
  ∀ (s : State),
    (∀ (v : W32) (bar : Nat) (cmd : Instr), s.hubUp = true → s.h1Up = true →
      (bar = 0x100100 ∧ cmd = .faultStatusWrite v) ∨ (bar = 0x100110 ∧ cmd = .pwrCapWrite v) ∨
        (bar = 0x100120 ∧ cmd = .clkCtrlWrite v) ∨ (bar = 0x100130 ∧ cmd = .resetCtrlWrite v) →
      ∃ t, exec (.registerWrite bar (leBytes 4 v.toNat)) s = .next t ∧ exec cmd s = .next t) ∧
    (∀ (v : W32) (n : Fin 12) (b : Fin 36) (c : ScCtrl), s.hubUp = true → b.val = 18 + n.val → s.blkRunning b = false →
      bit v.toNat 0 = s.blks[b].enable → s.blks[b].updatePending = false → 1 ≤ bits v.toNat 21 14 → bits v.toNat 21 14 ≤ 168 →
      c = { loopback := bits v.toNat 3 1, eraseEn := bit v.toNat 4, wcbAge := bits v.toNat 9 8
            wcbHigh := (if bits v.toNat 13 10 = 0 then 12 else bits v.toNat 13 10), scrubH := bits v.toNat 21 14 } →
      ∃ t, exec (.registerWrite (0x200100 + 0x100000 * b.val) (leBytes 4 v.toNat)) s = .next t ∧ OnlyStack n s t ∧
        t.stack n = { s.stack n with ctrl := c, shadow := c }) ∧
    (∀ (v w : W32) (l : Fin 4) (b : Fin 36), s.hubUp = true → b.val = 32 + l.val → bit v.toNat 0 = s.blks[b].enable →
      (s.blkRunning b = false →
        exec (.registerWrite (0x200100 + 0x100000 * b.val) (leBytes 4 v.toNat ++ leBytes 4 w.toNat)) s = .next
          (s.modLink l (fun k => { k with
            payMax := bits v.toNat 5 4, vlanEn := bit v.toNat 6, vlanId := bits v.toNat 19 8, vlanPcp := bits v.toNat 22 20
            etype := bits w.toNat 15 0, retxUs := bits w.toNat 28 16 }))) ∧
      (s.blkRunning b = true →
        ∃ t, exec (.registerWrite (0x200100 + 0x100000 * b.val) (leBytes 4 v.toNat ++ leBytes 4 w.toNat)) s = .next t ∧
          OnlyBlk b s t ∧ t.blks[b] = { s.blks[b] with rweDropped := satAdd s.blks[b].rweDropped 1 })) ∧
    (∀ (v : W32) (bar w off : Nat), s.hubUp = true → windowOf bar = some (w, off) → bar % 4 = 0 →
      (w = 0 ∧ off ∉ [0x100, 0x110, 0x120, 0x130]) ∨ (w ≠ 0 ∧ off ≠ 0x100 ∧ off ≠ 0x104) →
      exec (.registerWrite bar (leBytes 4 v.toNat)) s = .next s) ∧
    (∀ (bar : Nat) (bs : List Byte), s.hubUp = true → 0x100000 ≤ bar → bar < 0x4000000 →
      (bs.length ≠ 4 ∧ bs.length ≠ 8) ∨ bar % bs.length ≠ 0 →
      exec (.registerWrite bar bs) s = .next
        { s with board := { s.board with hostDropped := satAdd s.board.hostDropped 1 } }) ∧
    (∀ (x : Fin 16) (bar n : Nat), s.hubUp = true →
      (readOk bar n = false → exec (.counterLowHalfRead x bar n) s = .next s) ∧
      (readOk bar n = true → bar < 0x100000 → exec (.counterLowHalfRead x bar n) s = .next { s with board := { s.board with
        readOut := (List.range n).map (fun i => s.mailboxByte x (bar + i)) } }) ∧
      (readOk bar n = true → 0x2600000 ≤ bar →
        exec (.counterLowHalfRead 0 bar n) s = .next { s with board := { s.board with readOut := zeros n } })) ∧
    (∀ (w off n bar : Nat), s.hubUp = true → windowOf bar = some (w, off) → readOk bar n = true →
      (∀ (start v : Nat), s.regAt w off = some (start, 8, v) → off = start → n = 4 →
        exec (.counterLowHalfRead 0 bar n) s = .next { s with board := { s.board with
          readOut := s.windowRead w off 4
          latches := s.board.latches.filter (fun l => l.window != w) ++ [⟨w, start, BitVec.ofNat 32 (v / 2 ^ 32)⟩] } }) ∧
      ((∀ (start v : Nat), s.regAt w off = some (start, 8, v) → n ≠ 4 ∨ off ≠ start) →
        exec (.counterLowHalfRead 0 bar n) s = .next { s with board := { s.board with readOut := s.windowRead w off n } }) ∧
      (∀ (start v : Nat) (l : Latch), s.regAt w off = some (start, 8, v) → off = start + 4 → n = 4 → s.latchOf w = some l →
        l.offset = start → s.windowRead w off n = leBytes 4 l.high.toNat)) ∧
    (∀ (off : W32) (a : Nat), s.h1Up = true → s.board.i3cAddr = some a →
      exec (.i3cPrivateWrite (leBytes 4 off.toNat)) s = .next { s with board := { s.board with i3cOffset := off.toNat } }) ∧
    (∀ (off v : W32) (a : Nat) (u : State), s.h1Up = true → s.board.i3cAddr = some a →
      u = { s with board := { s.board with i3cOffset := off.toNat } } →
      (∀ cmd : Instr, (off = 0x100 ∧ cmd = .faultStatusWrite v) ∨ (off = 0x1000 ∧ cmd = .bmcCapWrite v) ∨
          (off = 0x1004 ∧ bmcReset v ≠ some .hub ∧ cmd = .bmcModuleReset v) ∨
          (off = 0x1004 ∧ bmcReset v = some .hub ∧ cmd = .bmcHubReset v) →
        ∃ t, exec (.i3cPrivateWrite (leBytes 4 off.toNat ++ leBytes 4 v.toNat)) s = .next t ∧ exec cmd u = .next t) ∧
      (off.toNat % 4 = 0 → off ∉ [0x100, 0x1000, 0x1004] →
        exec (.i3cPrivateWrite (leBytes 4 off.toNat ++ leBytes 4 v.toNat)) s = .next u) ∧
      (off.toNat % 4 ≠ 0 → exec (.i3cPrivateWrite (leBytes 4 off.toNat ++ leBytes 4 v.toNat)) s = .next
        { u with board := { u.board with hostDropped := satAdd u.board.hostDropped 1 } })) ∧
    (∀ (bs : List Byte) (words : Nat), s.h1Up = true → s.board.i3cAddr = none →
      exec (.i3cPrivateWrite bs) s = .next s ∧ exec (.i3cPrivateRead words) s = .next s) ∧
    (∀ (words a : Nat), s.h1Up = true → s.board.i3cAddr = some a → s.board.i3cOffset % 4 = 0 →
      exec (.i3cPrivateRead words) s = .next { s with board := { s.board with
        i3cOut := (List.range words).flatMap (fun i => s.i3cWord (s.board.i3cOffset + 4 * i))
        i3cOffset := s.board.i3cOffset + 4 * words } }) ∧
    (∀ (st : Option Nat) (addr : Nat), s.h1Up = true → addr ≤ 127 →
      (s.board.i3cAddr = none → (st = none ∨ st = some (0x30 + s.board.slotId % 8)) →
        exec (.i3cAddressAssignment st addr) s = .next { s with board := { s.board with i3cAddr := some addr } }) ∧
      (s.board.i3cAddr ≠ none ∨ (st ≠ none ∧ st ≠ some (0x30 + s.board.slotId % 8)) →
        exec (.i3cAddressAssignment st addr) s = .next s)) ∧
    (s.board.aonOn = true →
      exec (.jtagInstruction .idcode) s = .next { s with board := { s.board with jtagIr := 1, jtagOut := 0x10108ABD } } ∧
      exec (.jtagInstruction .bypass) s = .next { s with board := { s.board with jtagIr := 0, jtagOut := 0 } } ∧
      (s.clock.resetHeld = false →
        exec (.jtagInstruction .extest) s = .next { s with board := { s.board with jtagIr := 0, jtagOut := 0 } }) ∧
      (s.clock.resetHeld = true → ∃ w, exec (.jtagInstruction .extest) s = .next { s with
        freeCtr := s.freeCtr + 1, board := { s.board with jtagIr := 3, jtagOut := w } }) ∧
      ∃ w, exec (.jtagInstruction .samplePreload) s = .next { s with
        freeCtr := s.freeCtr + 1, board := { s.board with jtagIr := 2, jtagOut := w } })

/-! ## Links and collectives (14) -/

/-- R348, R351 to R354. A frame that fails the checks is counted and dropped; one already accepted is counted as a duplicate and
leaves everything outside the fabric alone; an acknowledgement grants credit and takes the frames before it out of its flow. -/
def Obligations.FramesAreTakenInOnce : Prop :=
  ∀ (s : State) (p : Fin 16), s.diesUp = true → s.portUp p = true →
    let discarded := s.modLink (dieOfPort p) (fun k => { k with rxDiscard := satAdd k.rxDiscard 1 })
    exec (.rxDiscard p none) s = .next discarded ∧
    (∀ f : Frame, s.frameOk f = false → exec (.rxDiscard p (some f)) s = .next discarded ∧
      (f.kind = 1 → exec (.dataFrame p f) s = .next discarded) ∧ (f.kind = 2 → exec (.ackFrame p f) s = .next discarded)) ∧
    (∀ (f : Frame) (r : RxFlow), f.kind = 1 → s.frameOk f = true → f.start = false →
      s.rxFlow f.src f.job f.channel = some r → 2 ^ 31 ≤ dist32 f.seq r.expected ∨ f.seq.toNat ∈ r.seen →
      ∃ t, exec (.dataFrame p f) s = .next t ∧
        t = { s.modLink (dieOfPort p) (fun k => { k with rxDup := satAdd k.rxDup 1 }) with
          fabric := t.fabric, freeCtr := t.freeCtr }) ∧
    (∀ (f : Frame) (x : Fin 16) (r : RxFlow), f.kind = 1 → f.channel = 0 → s.frameOk f = true → f.start = false →
      s.jobCtx f.job = some x → (s.ctx x).fabricRun = [] → s.rxFlow f.src f.job 0 = some r → f.seq = r.expected →
      r.seen = [] → r.fresh < 15 → (∀ g ∈ s.fabric.early, g.job = f.job → g.channel = 0) →
      ∃ t, exec (.dataFrame p f) s = .next t ∧ t = { s with fabric := t.fabric } ∧
        t.fabric.early = insertEarly f s.fabric.early ∧
        ∃ q, t.rxFlow f.src f.job 0 = some q ∧ q.expected = r.expected + 1 ∧ q.fresh = r.fresh + 1) ∧
    (∀ (f : Frame) (u : TxFlow), f.kind = 2 → s.frameOk f = true → s.txFlow f.src f.job f.channel = some u →
      s.fabric.services = [] → (∀ x, s.jobCtx f.job = some x → (s.ctx x).fabricRun = []) →
      ∃ t v, exec (.ackFrame p f) s = .next t ∧ t = { s with fabric := t.fabric } ∧
        t.txFlow f.src f.job f.channel = some v ∧ v.credit = min 1024 (max 16 f.word.toNat) ∧ v.next = u.next ∧
        v.frames.map (·.frame) = (u.frames.filter (fun o =>
          !(decide (2 ^ 31 ≤ dist32 o.frame.seq f.msg) && o.sent.isSome))).map (·.frame))

/-- R362. A dispatched SEND sends an RTS with its TAG and length; a RECV waits, and answers an RTS of its TAG and length with an
accepting CTS; the accepted SEND sends its data. -/
def Obligations.MessagesMeet : Prop :=
  ∀ (s : State) (x : Fin 16), s.diesUp = true → RunsNumbered s →
    (∀ (s1 : State) (r : Run) (j : JobEntry), s.dispatchFabric x (fun m => m.op == 0x41) = some (s1, r) →
      s1.fabReason r = 0 → s1.jobOf x = some j →
      ∃ t, exec (.send x) s = .next t ∧ (t.ctx x).fabric = (s.ctx x).fabric.tail ∧
        Sends t (msgArgs r.cmd).peer j.job 1 (fun f => f.kind = 3 ∧ f.msg = (msgArgs r.cmd).tag ∧
          f.offset = BitVec.ofNat 64 (msgArgs r.cmd).bytes)) ∧
    (∀ (s1 : State) (r : Run), s.dispatchFabric x (fun m => m.op == 0x42) = some (s1, r) → s1.fabReason r = 0 →
      s.fabric.rts = [] →
      ∃ t, exec (.recv x) s = .next t ∧ (t.ctx x).fabric = (s.ctx x).fabric.tail ∧
        ∃ q ∈ (t.ctx x).fabricRun, q.cmd = r.cmd ∧ q.busy = true) ∧
    (∀ (p : Fin 16) (f : Frame) (r : Run) (g : Fab) (m : MsgArgs) (q : RxFlow), s.portUp p = true → f.kind = 3 →
      f.channel = 1 → s.frameOk f = true → f.start = false → s.jobCtx f.job = some x → s.fabRuns x = [(r, g)] →
      r.cmd.op = 0x42 → g.phase = 0 → m = msgArgs r.cmd → m.peer = f.src → m.tag = f.msg → m.bytes = f.offset.toNat →
      s.fabric.rts = [] → s.rxFlow f.src f.job 1 = some q → f.seq = q.expected → q.seen = [] → q.fresh < 15 →
      ∃ t, exec (.rtsFrame p f) s = .next t ∧ t.fabric.rts = [] ∧
        Sends t f.src f.job 1 (fun a => a.kind = 4 ∧ a.msg = f.msg ∧ a.word = 0)) ∧
    (∀ (p : Fin 16) (f : Frame) (r : Run) (g : Fab) (m : MsgArgs) (q : RxFlow), s.portUp p = true → f.kind = 4 →
      f.channel = 1 → s.frameOk f = true → f.start = false → s.jobCtx f.job = some x → s.fabRuns x = [(r, g)] →
      r.cmd.op = 0x41 → g.phase = 0 → g.retry = none → m = msgArgs r.cmd → m.peer = f.src → m.tag = f.msg → 0 < m.bytes →
      s.rxFlow f.src f.job 1 = some q → f.seq = q.expected → q.seen = [] → q.fresh < 15 →
      (∀ g ∈ s.fabric.early, g.job ≠ f.job) →
      (f.word = 0 → ∃ t, exec (.ctsFrame p f) s = .next t ∧
        Sends t f.src f.job 1 (fun a => a.kind = 1 ∧ a.msg = f.msg ∧ a.offset = 0)) ∧
      (f.word = 1 → ∃ t h, exec (.ctsFrame p f) s = .next t ∧ t.fabOf r.id = some h ∧ h.retry = some s.pilot ∧ t.hub = s.hub))

/-- R359, R360, R364. A dispatched reducing COLL sends the first ring step of every stripe to its successor; a SHARD_GATHER asks
every other owner for its shard; an owner refuses a range that is not its context's, or waits on the group; once the group is free
it sends the shard with the group's version. -/
def Obligations.CollectivesAndShardsBegin : Prop :=
  ∀ (s : State) (x : Fin 16), s.diesUp = true → RunsNumbered s →
    (∀ (s1 : State) (r : Run) (j : JobEntry) (a : CollArgs) (next st : Nat),
      s.dispatchFabric x (fun m => m.op == 0x40) = some (s1, r) → s1.fabReason r = 0 → s1.jobOf x = some j →
      a = collArgs r.cmd → a.op < 2 → (∀ f ∈ s.fabric.early, f.job ≠ j.job) →
      (s1.memberNodes (fld r.cmd.desc 0x10 8) a.p)[(a.me + 1) % a.p]? = some next →
      st < a.stripes → 0 < a.stripeLen ((a.me + a.p - 1) % a.p) st →
      ∃ t, exec (.coll x) s = .next t ∧ (t.ctx x).fabric = (s.ctx x).fabric.tail ∧
        Sends t next j.job 0 (fun f => f.kind = 1 ∧ f.stripe = st ∧ f.msg = a.tag ∧ f.offset = 0)) ∧
    (∀ (s1 : State) (r : Run) (j : JobEntry) (a : ShardArgs) (i node : Nat), s.idleHeld x = false →
      s.dispatchFabric x (fun m => m.op == 0x43) = some (s1, r) → s1.fabReason r = 0 → s1.jobOf x = some j →
      a = shardArgs r.cmd → i ≠ a.me → (s1.memberNodes a.members a.p)[i]? = some node →
      ∃ t, exec (.shardGather x) s = .next t ∧ (t.ctx x).fabric = (s.ctx x).fabric.tail ∧
        Sends t node j.job 2 (fun f => f.kind = 3 ∧ f.msg = shardMsg r.id ∧ f.offset = BitVec.ofNat 64 a.bytes)) ∧
    (∀ (p : Fin 16) (f : Frame) (q : RxFlow), s.portUp p = true → f.kind = 3 → f.channel = 2 → s.frameOk f = true →
      f.start = false → s.jobCtx f.job = some x → s.rxFlow f.src f.job 2 = some q → f.seq = q.expected → q.seen = [] →
      q.fresh < 15 →
      (s.shardRefused x (fld f.payload 0 8) f.offset.toNat (bits (fld f.payload 8 4) 17 0) = true →
        ∃ t, exec (.shardRequest p f) s = .next t ∧ t = { s with fabric := t.fabric } ∧
          Sends t f.src f.job 2 (fun a => a.kind = 4 ∧ a.msg = f.msg ∧ a.word = 3)) ∧
      (s.shardRefused x (fld f.payload 0 8) f.offset.toNat (bits (fld f.payload 8 4) 17 0) = false →
        ∃ t v, exec (.shardRequest p f) s = .next t ∧ t.fabric.services = s.fabric.services ++ [v] ∧ v.x = x ∧
          v.peer = f.src ∧ v.bytes = f.offset.toNat ∧ v.started = false)) ∧
    (∀ (v : Service) (e : List Byte), s.fabric.services = [v] → v.own = none → v.started = false → s.maySend = true →
      s.shardRefused v.x v.src v.bytes v.group = false → s.almEntry v.x v.group = some e → almPending e = false →
      almUpdating e = false → almRefs e < 65535 → 0 < v.bytes →
      ∃ t, exec (.shardServe 0) s = .next t ∧ t.fabric.services = [{ v with started := true }] ∧
        Sends t v.peer v.job 2 (fun f => f.kind = 1 ∧ f.msg = v.msg ∧ f.word = BitVec.ofNat 32 (almVersion e) ∧ f.offset = 0))

/-- R353, R354, R357, R362. An ACK goes out 200 pilot cycles after the first frame that it acknowledges; a frame that is not
acknowledged is sent again and halves CWND, and its 8th timeout fails the flow; a busy RTS is sent again after 5,000 pilot cycles;
a command whose peer waits reach its limit fails with 0x0503. -/
def Obligations.FabricTimersRunOut : Prop :=
  ∀ (s : State), s.diesUp = true →
    (∀ (peer job channel : Nat) (r : RxFlow) (a : Nat) (p : Fin 16), s.rxFlow peer job channel = some r → r.firstAt = some a →
      a + 200 ≤ s.pilot → s.maySend = true → s.nextPort = some p →
      ∃ t w, exec (.ackTimer peer job channel) s = .next t ∧ t = { s with fabric := t.fabric, freeCtr := s.freeCtr + 1 } ∧
        t.fabric.sent = s.fabric.sent ++ [w] ∧ w.port = p.val ∧ w.frame.kind = 2 ∧ w.frame.dst = peer ∧
        w.frame.msg = r.expected ∧ w.frame.offset = BitVec.ofNat 64 r.sack ∧
        t.rxFlow peer job channel = some { r with fresh := 0, firstAt := none }) ∧
    (∀ (peer job channel : Nat) (seq : W32) (u : TxFlow) (o : OutFrame) (a : Nat), s.txFlow peer job channel = some u →
      u.frames.find? (fun o => o.frame.seq == seq) = some o → o.sent = some a →
      a + s.linkCfg.retxUs * 50 * 2 ^ o.timeouts ≤ s.pilot → s.maySend = true →
      (o.timeouts < 7 → ∃ t v, exec (.retxTimeout peer job channel seq) s = .next t ∧ t = { s with fabric := t.fabric } ∧
        t.txFlow peer job channel = some v ∧ v.cwnd = max 8 (u.cwnd / 2) ∧
        ∃ q, v.frames.find? (fun o => o.frame.seq == seq) = some q ∧ q.timeouts = o.timeouts + 1 ∧ q.sent = some s.pilot) ∧
      (7 ≤ o.timeouts → ∃ t v, exec (.retxTimeout peer job channel seq) s = .next t ∧ t.txFlow peer job channel = some v ∧
        v.frames = [] ∧ v.start = true)) ∧
    (∀ (x : Fin 16) (i : Nat) (r : Run) (g : Fab) (j : JobEntry) (a : Nat), (s.ctx x).fabricRun[i]? = some r →
      s.fabOf r.id = some g → g.retry = some a → s.jobOf x = some j → a + 5000 ≤ s.pilot →
      ∃ t h, exec (.rtsRetry x i) s = .next t ∧ t = { s with fabric := t.fabric } ∧ t.fabOf r.id = some h ∧ h.retry = none ∧
        Sends t (msgArgs r.cmd).peer j.job 1 (fun f => f.kind = 3 ∧ f.msg = (msgArgs r.cmd).tag)) ∧
    (∀ (x : Fin 16) (i : Nat) (r : Run) (g : Fab), (s.ctx x).fabricRun[i]? = some r → s.fabOf r.id = some g →
      s.inPeerWait r g = true → peerLimit r.cmd ≤ g.waits → g.heard ≠ some s.pilot →
      ∃ t, exec (.peerWaitTimeout x i) s = .next t ∧ t.fabOf r.id = none ∧
        (t.ctx x).fabricRun[i]? = some { r with busy := false, out := { r.out with
          reason := 0x0503, failed := true, poisoned := true } })

/-! ## Installation roles (15) -/

/-- R375, R376. A listed module that says HELLO is marked present and welcomed with its index; WELCOME gives a member its index or
makes it a spare; a module without WELCOME repeats HELLO; a manager becomes manager-ready and lists its members; a group whose
workers are all present forms and is reported. -/
def Obligations.MembersJoinTheirGroup : Prop :=
  ∀ (s : State) (me : Nat), s.lampUp = true → s.node = some me →
    (∀ (p : Fin 16) (f : Frame) (s1 : State) (c : Ctrl) (m : Member), s.takeCtrl p f 0x01 = (s1, some c) →
      s1.roles.servesGroup = true → s1.roles.managerReadyAt.isSome = true → s1.roles.formed = false →
      s1.roles.members.find? (fun m => m.node == c.src) = some m → c.src ≠ me →
      ∃ t, exec (.hello p f) s = .next t ∧
        (∀ k ∈ t.roles.members, k.node = c.src → k.present = true ∧ k.beat = s.pilot) ∧
        Told t c.src 0x02 (leBytes 2 (m.index.getD 0xFFFF) ++ leBytes 2 s1.roles.groupEpoch)) ∧
    (∀ (p : Fin 16) (f : Frame) (s1 : State) (c : Ctrl), s.takeCtrl p f 0x02 = (s1, some c) → s1.roles.servesGroup = false →
      exec (.welcome p f) s = .next { s1 with roles := { s1.roles with
        welcomed := true, index := fld c.body 0 2, role := (if fld c.body 0 2 = 0xFFFF then 3 else 0), manager := c.src
        groupEpoch := max s1.roles.groupEpoch (fld c.body 2 2) } }) ∧
    (∀ a, s.roles.readyAt = some a → s.roles.welcomed = false → s.roles.servesGroup = false →
      (∀ b, s.roles.helloAt = some b → b + 50000000 ≤ s.pilot) → s.roles.manager ≠ me →
      ∃ t, exec .helloRepeat s = .next t ∧ t.roles = { s.roles with helloAt := some s.pilot } ∧
        t = { s with roles := t.roles, fabric := t.fabric } ∧ Told t s.roles.manager 0x01 s.helloBody) ∧
    (∀ g, s.roles.servesGroup = true → s.roles.readyAt.isSome = true → s.roles.managerReadyAt = none →
      s.board.goodAt = some g → g + 3750000000 ≤ s.pilot →
      exec .managerReady s = .next { s with roles := { s.roles with
        managerReadyAt := some s.pilot, welcomed := true, members := s.listMembers } }) ∧
    (∀ a, s.roles.role = 1 → s.roles.managerReadyAt = some a → s.roles.formed = false → s.roles.installReady = false → s.roles.top ≠ me →
      (∀ m ∈ s.roles.members, m.listed < s.role 0x16 2 → m.present = true) →
      ∃ t body, exec .groupForm s = .next t ∧ t = { s with roles := t.roles, fabric := t.fabric } ∧
        t.roles = { s.roles with formed := true, members := s.roles.members.map (fun m =>
          if m.present then m else { m with index := none }) } ∧ Told t s.roles.top 0x03 body)

/-- R377, R378, R384. GROUP_READY registers a group; INSTALL_READY takes effect with its evaluation offset; the holder of the
installation closes registration and tells every registered group; a deputy takes charge with a newer epoch, and those that hear
of it follow the holder of the newest. -/
def Obligations.TheInstallationComesUp : Prop :=
  ∀ (s : State) (me : Nat), s.lampUp = true → s.node = some me →
    (∀ (p : Fin 16) (f : Frame) (s1 : State) (c : Ctrl), s.takeCtrl p f 0x03 = (s1, some c) → s1.roles.servesAll = true →
      s1.roles.closed = false →
      ∃ t, exec (.groupReady p f) s = .next t ∧ ∃ g ∈ t.roles.groups, g.group = c.group ∧ g.node = c.src ∧
        g.present = fld c.body 0 2 ∧ g.absent = fld c.body 2 2 ∧ g.spares = fld c.body (4 + 4 * fld c.body 2 2) 2) ∧
    (∀ (p : Fin 16) (f : Frame) (s1 : State) (c : Ctrl), s.takeCtrl p f 0x04 = (s1, some c) → s1.roles.servesGroup = false →
      exec (.installReady p f) s = .next { s1 with roles := { s1.roles with
        installReady := true, installEpoch := max s1.roles.installEpoch (fld c.body 0 2), offset := fld c.body 4 2 } }) ∧
    (∀ a, s.roles.servesAll = true → s.roles.managerReadyAt = some a → s.roles.closed = false →
      s.role 0x11 1 ≤ s.roles.groups.length →
      ∃ t, exec .registrationClose s = .next t ∧ t.roles.closed = true ∧
        ∀ g h, g < s.role 0x11 1 → g ≠ s.role 0x10 1 → s.roles.groups.find? (fun k => k.group == g) = some h → h.node ≠ me →
          Told t h.node 0x04 (leBytes 2 s.roles.installEpoch ++ leBytes 2 s.roles.groups.length ++ leBytes 2 (s.evalOffset g))) ∧
    (∀ a, s.roles.managerReadyAt = some a → a + 500000000 ≤ s.pilot →
      (s.isDeputy = true → s.roles.servesGroup = false → s.roles.welcomed = false →
        ∃ t, exec (.deputyTakeCharge false) s = .next t ∧ t.roles = { s.roles with
          role := 1, groupEpoch := s.roles.groupEpoch + 1, manager := me, chargeAt := some s.pilot, welcomed := true
          formed := false, members := s.listMembers } ∧
          ∀ m ∈ s.listMembers, m.node ≠ me → Told t m.node 0x06 (leBytes 2 (s.roles.groupEpoch + 1))) ∧
      (s.isTopDeputy = true → s.roles.role = 1 → s.roles.managerBeat = none →
        ∃ t, exec (.deputyTakeCharge true) s = .next t ∧ t.roles.role = 2 ∧ t.roles.top = me ∧
          t.roles.installEpoch = s.roles.installEpoch + 1 ∧ t.roles.topChargeAt = some s.pilot)) ∧
    (∀ (p : Fin 16) (f : Frame) (s1 : State) (c : Ctrl) (cmd : Instr) (node : Nat),
      (cmd = .takeCharge p f ∧ s.takeCtrl p f 0x06 = (s1, some c) ∧ node = c.src ∧ s1.roles.groupEpoch < fld c.body 0 2) ∨
        (cmd = .notice p f ∧ s.takeCtrl p f 0x0E = (s1, some c) ∧ node = fld c.body 2 4) →
      c.group = s1.role 0x10 1 → s1.roles.servesGroup = false → node ≠ me →
      ∃ t, exec cmd s = .next t ∧ t.roles = { s1.roles with
        groupEpoch := fld c.body 0 2, manager := node, welcomed := false, helloAt := some s.pilot } ∧
        Told t node 0x01 s1.helloBody)

/-- R379, R385; 20, R491. A heartbeat of a present member is kept with its power and counts, a member reports every 100 ms, a silent
member is failed, a manager without heartbeats for 2 s turns to the top deputy, which notes it of itself; SLOW_REPORTs are sent and kept; a failed attestation posts
0x080B and changes nothing else. -/
def Obligations.ManagersHearTheirMembers : Prop :=
  ∀ (s : State) (me : Nat), s.lampUp = true → s.node = some me →
    (∀ (p : Fin 16) (f : Frame) (s1 : State) (c : Ctrl) (m : Member), s.takeCtrl p f 0x05 = (s1, some c) →
      c.group = s1.role 0x10 1 → s1.roles.servesGroup = true → s1.roles.members.find? (fun m => m.node == c.src) = some m →
      m.failed = false → m.present = true → fld c.body 20 2 = 0 →
      exec (.heartbeat p f) s = .next { s1 with roles := { s1.roles with members := s1.roles.members.map (fun m =>
        if m.node = c.src then { m with beat := s.pilot, beats := (beatOf c.body :: m.beats).take 10
                                        faults := beatFaults c.body } else m) } }) ∧
    (s.roles.role = 0 → s.roles.readyAt.isSome = true → s.roles.welcomed = true → s.roles.manager ≠ me →
      (∀ b, s.roles.beatAt = some b → b + 5000000 ≤ s.pilot) →
      ∃ t, exec .heartbeatSend s = .next t ∧ t.roles.beatAt = some s.pilot ∧ Told t s.roles.manager 0x05 (s.beatBody [])) ∧
    (∀ node m, s.roles.servesGroup = true → s.roles.formed = true → node ≠ me →
      s.roles.members.find? (fun m => m.node == node && m.present && !m.failed) = some m → m.beat + 100000000 ≤ s.pilot →
      ∃ t, exec (.memberFail node) s = .next t ∧
        ∀ k ∈ t.roles.members, k.node = node → k.failed = true ∧ k.present = false ∧ k.index = none) ∧
    (∀ b, s.roles.role = 1 → s.roles.silentSince = some b → b + 100000000 ≤ s.pilot →
      (∀ a, s.roles.helloAt = some a → a + 50000000 ≤ s.pilot) →
      ∃ t, exec .managerHeartbeatLoss s = .next t ∧
        t.roles = { s.roles with helloAt := some s.pilot, asked := s.roles.asked || decide (s.role 0x28 4 = me) } ∧
        (s.role 0x28 4 ≠ me → Told t (s.role 0x28 4) 0x01 s.helloBody)) ∧
    (∀ (p : Fin 16) (f : Frame) (s1 : State) (c : Ctrl), s.takeCtrl p f 0x0C = (s1, some c) → s1.roles.servesGroup = true →
      ∃ t, exec (.slowReport p f) s = .next t ∧ t = { s1 with roles := t.roles, hub := t.hub } ∧
        ∀ k ∈ t.roles.members, k.node = c.src → k.slow = slowValues c.body) ∧
    (s.roles.servesGroup = false → s.roles.readyAt.isSome = true → s.roles.welcomed = true → s.roles.manager ≠ me →
      (∀ b, s.roles.slowAt = some b → b + 500000000 ≤ s.pilot) →
      ∃ t, exec .slowReportSend s = .next t ∧ t.roles = { s.roles with slowAt := some s.pilot } ∧
        Told t s.roles.manager 0x0C s.slowBody) ∧
    (∀ node, exec (.memberAttestation node true) s = .next s ∧
      (s.roles.servesGroup = true →
        exec (.memberAttestation node false) s = .next (s.event 0 0x080B (detail [(0, 4, node)]))))

/-- R381, R382, R385, R386. A spare that has read the shard from the mirror stores it at the job's checkpoint pages, takes the index and
reports it done; one that cannot read it, or has no pages for it, reports 0x0524; a module that is no spare takes none. A takeover that
is done gives the spare its index, and one that failed leaves the index vacant; a ROSTER_UPDATE posts its outcome; a mirrored step enters the checkpoint index; counts of a FAULT_REPORT are kept; a member takes a
cap from its manager only; a review keeps every cap from 1,600 to 3,200 W. -/
def Obligations.TakeoversReportsAndCaps : Prop :=
  ∀ (s : State) (me : Nat), s.lampUp = true → s.node = some me →
    (∀ (p : Fin 16) (f : Frame) (s1 : State) (c : Ctrl), s.takeCtrl p f 0x08 = (s1, some c) → s1.roles.role = 3 → c.src ≠ me →
      ∃ t, exec (.takeover p f none) s = .next t ∧ t.roles = { s1.roles with groupEpoch := max s1.roles.groupEpoch c.epoch } ∧
        Told t c.src 0x09 (leBytes 2 (fld c.body 0 2) ++ leBytes 2 (fld c.body 6 2) ++ leBytes 4 (fld c.body 8 4) ++
          leBytes 2 0x0524)) ∧
    (∀ (p : Fin 16) (f : Frame) (s1 u : State) (c : Ctrl) (bs : List Byte) (j : JobEntry), s.takeCtrl p f 0x08 = (s1, some c) →
      s1.roles.role = 3 → c.src ≠ me → s1.jobs.find? (fun j => j.job == fld c.body 6 2) = some j →
      u = { s1 with roles := { s1.roles with groupEpoch := max s1.roles.groupEpoch c.epoch } } →
      (fld c.body 12 4 ≠ 0xFFFFFFFF → bs.length = j.ckptPages * 131072 →
        s1.owns j.x (j.ckptFirst * 131072) (j.ckptPages * 131072) = true →
        ∃ t, exec (.takeover p f (some bs)) s = .next t ∧
          t = { u.uwrite (j.ckptFirst * 131072) (cleanBytes bs) with roles := t.roles, fabric := t.fabric } ∧
          t.roles = { u.roles with role := 0, index := fld c.body 0 2 } ∧
          Told t c.src 0x09 (leBytes 2 (fld c.body 0 2) ++ leBytes 2 (fld c.body 6 2) ++ leBytes 4 (fld c.body 8 4) ++
            leBytes 2 0)) ∧
      (fld c.body 12 4 = 0xFFFFFFFF ∨ bs.length ≠ j.ckptPages * 131072 ∨
          s1.owns j.x (j.ckptFirst * 131072) (j.ckptPages * 131072) = false →
        ∃ t, exec (.takeover p f (some bs)) s = .next t ∧ t = { u with fabric := t.fabric } ∧
          Told t c.src 0x09 (leBytes 2 (fld c.body 0 2) ++ leBytes 2 (fld c.body 6 2) ++ leBytes 4 (fld c.body 8 4) ++
            leBytes 2 0x0524))) ∧
    (∀ (p : Fin 16) (f : Frame) (s1 : State) (c : Ctrl) (shard : Option (List Byte)), s.takeCtrl p f 0x08 = (s1, some c) →
      s1.roles.role ≠ 3 → exec (.takeover p f shard) s = .next
        { s1 with roles := { s1.roles with groupEpoch := max s1.roles.groupEpoch c.epoch } }) ∧
    (∀ (p : Fin 16) (f : Frame) (s1 : State) (c : Ctrl) (k : Takeover), s.takeCtrl p f 0x09 = (s1, some c) →
      s1.roles.servesGroup = true → s1.roles.takeovers = [k] → k.spare = some c.src → k.index = fld c.body 0 2 →
      ∃ t, exec (.takeoverDone p f) s = .next t ∧ t.roles = { s1.roles with
        takeovers := [], groups := t.roles.groups, members := s1.roles.members.map (fun m =>
          if m.node = c.src ∧ fld c.body 8 2 = 0 then { m with index := some k.index, sparePos := none } else m) } ∧
        (s1.roles.servesAll = false → t.roles.groups = s1.roles.groups) ∧
        ((s1.ctx 0).state = .active → ∃ e, (s1.ctx 0).formed ++ [e] <+: (t.ctx 0).formed ∧
          e.reason = if fld c.body 8 2 = 0 then 0x0523 else 0x0524)) ∧
    (∀ (p : Fin 16) (f : Frame) (s1 : State) (c : Ctrl), s.takeCtrl p f 0x07 = (s1, some c) →
      exec (.rosterUpdate p f) s = .next (({ s1 with roles := { s1.roles with
        groupEpoch := max s1.roles.groupEpoch (fld c.body 6 2) } }).event 0 (fld c.body 14 2) (detail
          [(0, 2, fld c.body 8 2), (2, 2, fld c.body 0 2), (4, 4, fld c.body 2 4), (8, 4, fld c.body 10 4)]))) ∧
    (∀ (p : Fin 16) (f : Frame) (s1 : State) (c : Ctrl) (m : Member) (i : Nat), s.takeCtrl p f 0x0A = (s1, some c) →
      s1.roles.servesGroup = true → s1.roles.members.find? (fun m => m.node == fld c.body 0 4) = some m → m.index = some i →
      (∀ k ∈ s1.roles.ckpts, ¬(k.job = fld c.body 4 2 ∧ k.index = i)) →
      ∃ t, exec (.ckptHeld p f) s = .next t ∧
        t.roles.ckpts = s1.roles.ckpts ++ [⟨fld c.body 4 2, i, fld c.body 6 4, c.src⟩] ∧ t = { s1 with roles := t.roles }) ∧
    (∀ (p : Fin 16) (f : Frame) (s1 : State) (c : Ctrl), s.takeCtrl p f 0x0B = (s1, some c) → s1.roles.servesGroup = true →
      c.body.length < 296 →
      exec (.faultReport p f) s = .next { s1 with roles := { s1.roles with members := s1.roles.members.map (fun m =>
        if m.node = c.src then { m with faults := fld c.body 0 4 :: fld c.body 4 4 :: m.faults.drop 2 } else m) } }) ∧
    (∀ (p : Fin 16) (f : Frame) (s1 : State) (c : Ctrl), s.takeCtrl p f 0x0D = (s1, some c) →
      1600 ≤ fld c.body 0 4 → fld c.body 0 4 ≤ 3200 →
      exec (.capSet p f) s = .next (if c.src = s1.roles.manager
        then { s1 with power := { s1.power with mgrCap := fld c.body 0 4 } } else s1)) ∧
    (s.roles.servesGroup = true → s.roles.formed = true → s.roles.installReady = true → s.role 0x34 4 ≠ 0 →
      (∀ b, s.roles.reviewAt = some b → b + 50000000 ≤ s.pilot) →
      (∀ m ∈ s.roles.members, 1600 ≤ m.cap ∧ m.cap ≤ 3200) →
      ∃ t, exec .capReview s = .next t ∧ t.roles.reviewAt = some s.pilot ∧
        ∀ m ∈ t.roles.members, 1600 ≤ m.cap ∧ m.cap ≤ 3200)

/-! ## Commands of the core, fabric and memory queues (05, 06, 08, 09, 13) -/

/-- R118, R128, R147, R150, R151, R153, R156, R190, R200, R204, R218, R237. An array, feed or update command that its core
dispatches runs there under its number while the command generation of its feed die advances; it touches the contexts' records and
the memories, and neither tokens nor packets; one whose tensors all lie in the window of its core leaves every stack, the tiers and
the other feed dies alone. -/
def Obligations.ComputeCommandsRun : Prop :=
  ∀ (s s1 : State) (c : Fin 4) (r : Run) (cmd : Instr) (op : Nat), s.diesUp = true →
    s.dispatchCore c (fun m => m.op == op) = some (s1, r) →
    (∃ hold ups, cmd = .mm c hold ups ∧ op = 0x10) ∨ (∃ ups, cmd = .mmb c ups ∧ op = 0x11) ∨
      (∃ ups, cmd = .attend c ups ∧ op = 0x12) ∨ (∃ ups, cmd = .attendB c ups ∧ op = 0x13) ∨ (cmd = .vec c ∧ op = 0x20) ∨
      (cmd = .norm c ∧ op = 0x21) ∨ (cmd = .normB c ∧ op = 0x22) ∨ (cmd = .quant c ∧ op = 0x23) ∨
      (cmd = .gatherE c ∧ op = 0x24) ∨ (cmd = .copy c ∧ op = 0x25) ∨ (cmd = .precond c ∧ op = 0x31) ∨
      (∃ bad, cmd = .update c r.x bad ∧ op = 0x30) →
    ∃ t k, exec cmd s = .next t ∧ OnlyWork s t ∧ (t.core c).running = some k ∧ k.cmd = r.cmd ∧ k.x = r.x ∧
      k.id = s.hub.nextRun ∧ t.hub.nextRun = s.hub.nextRun + 1 ∧ (t.feed c).gen = (s.feed c).gen + 1 ∧
      (∀ y, (t.ctx y).tokens = (s.ctx y).tokens ∧ (t.ctx y).slots = (s.ctx y).slots ∧ (t.ctx y).state = (s.ctx y).state ∧
        (t.ctx y).cqHead = (s.ctx y).cqHead ∧ (t.ctx y).cqTail = (s.ctx y).cqTail) ∧
      (InWindow c r.cmd → op < 0x30 → t.hbm = s.hbm ∧ t.tiers = { s.tiers with reqs := t.tiers.reqs } ∧
        ∀ d, d ≠ c → t.feed d = s.feed d)

/-- R156. A COPY without conversion into the resident window stores the bytes of each source row, as its reads found them at its
dispatch, in the destination row; every other byte of the scratchpad stays, and the stacks keep what the reads left. -/
def Obligations.CopyMovesBytes : Prop :=
  ∀ (s s1 u : State) (c : Fin 4) (r : Run) (ts td : Tensor) (rows cols n : Nat) (row : Nat → List PByte), s.diesUp = true →
    s.dispatchCore c (fun m => m.op == 0x25) = some (s1, r) → bit (byteAt r.cmd.desc 1) 0 = false → ts = r.cmd.tensorD 2 →
    td = r.cmd.tensorD 4 → cols = fld r.cmd.desc 0xC 4 → rows = ts.storedRows (fld r.cmd.desc 8 4) →
    u = s1.cacheReads r.x c r.cmd.regions → row = u.rowBytesOf r.x c ts cols → td.space = 0 → (∀ i < rows, (row i).length = n) → n ≤ td.pitch →
    td.base + rows * td.pitch ≤ (s.cc r.x c).resSize →
    ∃ t, exec (.copy c) s = .next t ∧ OnlyWork s t ∧ t.hbm = u.hbm ∧ (s.quiet = true → t.hbm = s.hbm) ∧ (∀ d, d ≠ c → t.feed d = s.feed d) ∧
      (∀ i < rows, ∀ j < n, (t.feed c).spad.get ((s.cc r.x c).resBase + td.rowAddr i + j) =
        (((row i)[j]?).map (·.b)).getD 0) ∧
      ∀ a, (∀ i < rows, a < (s.cc r.x c).resBase + td.rowAddr i ∨ (s.cc r.x c).resBase + td.rowAddr i + n ≤ a) →
        (t.feed c).spad.get a = (s.feed c).spad.get a

/-- R306, R317, R331, R332, R451, R81, R231, R232, R330. NOP, HINT, FENCE, ACQUIRE, RELEASE and CENSUS leave their queue and end at
their dispatch, with a COMMAND entry if they ask for one: a HINT sets the hints of the cores that it names, a FENCE SIGNAL adds one
to its token, a FENCE WAIT runs only when its token has come, an ACQUIRE takes and a RELEASE gives back a reference, a RELEASE of a
counter at zero fails with 0x0411 and leaves it at zero, a CENSUS rolls the records of its step and ends once what it copies has
landed. A running command whose work has ended completes; a RECV of a checkpoint is then reported held. -/
def Obligations.QueueCommandsFinishAtOnce : Prop :=
  (∀ (s s1 : State) (q : QRef) (r : Run) (cmd : Instr) (isOp : Cmd → Bool), s.diesUp = true → RunsNumbered s →
    s.dispatchQ q isOp = some (s1, r) →
    ((cmd = .nop q ∧ isOp = fun m => m.op == 0x67) ∨ (cmd = .hint q ∧ isOp = fun m => m.op == 0x65) ∨
        (cmd = .fenceSignal q ∧ isOp = isForm 0x60 0 ∧ s.queueIdle q = true) ∨ (cmd = .fenceWait q ∧ isOp = isForm 0x60 1) →
      ∃ t, exec cmd s = .next t ∧ Finished s t q r ∧ t = { s with
          hub := { s.hub with ctxs := t.hub.ctxs, nextRun := s.hub.nextRun + 1 }, cores := t.cores, arrays := t.arrays
          feeds := t.feeds } ∧
        (s1.inSpan q r = false → r.cmd.notify = true → Reported t r.x r.cmd Done.ok) ∧
        (∀ y, y ≠ r.x → t.ctx y = { s.ctx y with cores := (t.ctx y).cores }) ∧
        (t.ctx r.x).tokens = (if cmd = .fenceSignal q ∧ s1.inSpan q r = false
          then vmod (s.ctx r.x).tokens (ix 256 (byteAt r.cmd.desc 2)) (· + 1) else (s.ctx r.x).tokens) ∧
        (cmd = .hint q → (∀ c sp, q = .core c → s1.spanFor r.x c r.cmd.eval = some sp → sp.replay = false) →
          ∀ d, (t.cc r.x d).hint = if d ∈ hintCores r.cmd.queue r.cmd.desc
            then some { level := bits (byteAt r.cmd.desc 1) 1 0
                        expires := if fld r.cmd.desc 4 4 = 0 then none else some (s.pilot + 50 * fld r.cmd.desc 4 4) }
            else (s.cc r.x d).hint) ∧
        (cmd = .fenceWait q → s.fenceHolds r.x r.cmd.desc = true)) ∧
    (∀ (g : Nat) (e : List Byte), g = groupAt r.cmd.desc 4 → s.almEntry r.x g = some e →
      (cmd = .acquire q ∧ (isOp = fun m => m.op == 0x61) ∧ almFault e = false ∧ almVersion e = fld r.cmd.desc 8 4 ∧
          almRefs e < 65535) ∨
        (cmd = .release q ∧ (isOp = fun m => m.op == 0x62) ∧ 0 < almRefs e) →
      ∃ t f, exec cmd s = .next t ∧ OnlyWork s t ∧ Finished s t q r ∧ t.almEntry r.x g = some f ∧
        f = putBytes e 0x54 (leBytes 2 (if cmd = .acquire q then almRefs e + 1 else almRefs e - 1)) ∧
        (s1.inSpan q r = false → r.cmd.notify = true → Reported t r.x r.cmd Done.ok)) ∧
    (∀ (g : Nat) (e : List Byte), g = groupAt r.cmd.desc 4 → s.almEntry r.x g = some e → cmd = .release q →
      (isOp = fun m => m.op == 0x62) → almRefs e = 0 →
      ∃ t, exec cmd s = .next t ∧ OnlyWork s t ∧ Finished s t q r ∧ t.almEntry r.x g = some e ∧
        (s1.inSpan q r = false → Reported t r.x r.cmd (Done.fails 0x0411 false)) ∧
        ∀ c sp, q = .core c → s1.spanFor r.x c r.cmd.eval = some sp →
          ∃ u, (t.core c).span = some u ∧ u.done = sp.done ++ [(r.cmd, Done.fails 0x0411 false, 0)]) ∧
    (cmd = .census q → (isOp = fun m => m.op == 0x66) → s.queueIdle q = true →
      ∃ t, exec cmd s = .next t ∧ OnlyWork s t ∧
        ((∀ g ∈ r.cmd.regions, g.write = false) ∨ (∀ m ∈ s.tiers.moves, m.x ≠ r.x) ∧ s.tiers.deepWaits = [] ∧ t.tiers.deepWaits = [] →
          Finished s t q r ∧ (s1.inSpan q r = false → r.cmd.notify = true → Reported t r.x r.cmd Done.ok)) ∧
        ∀ j, t.scaleRec r.x j = if bit (byteAt r.cmd.desc 1) 0 = true ∧ fld r.cmd.desc 2 2 ≤ j ∧
            j < fld r.cmd.desc 2 2 + fld r.cmd.desc 4 2 ∧ (s.scaleRec r.x j).started = true ∧
            (s.scaleRec r.x j).sCur = r.cmd.word 8
          then (s.rollRec r.x j (r.cmd.word 8 + 1)).scaleRec r.x j else s.scaleRec r.x j)) ∧
  (∀ (s : State) (r : Run) (charge : Nat), s.diesUp = true → (s.ctx r.x).state = .active →
    (∀ c, (s.core c).running = some r → s.coreDone c r = true → r.cmd.op ≠ 0x30 →
      ∃ t, exec (.commandComplete (.core c) 0 charge) s = .next t ∧ OnlyWork s t ∧ (t.core c).running = none ∧
        (s.spanFor r.x c r.cmd.eval = none → r.cmd.notify = true ∨ r.out.failed = true ∨ r.out.reason ≠ 0 →
          Reported t r.x r.cmd r.out) ∧
        (s.spanFor r.x c r.cmd.eval = none → r.out.failed = false →
          (t.cc r.x c).actual = satAdd (s.cc r.x c).actual charge ∧ (t.cc r.x c).solo = satAdd (s.cc r.x c).solo r.cmd.est) ∧
        ∀ sp, s.spanFor r.x c r.cmd.eval = some sp → sp.faults < 2 →
          ∃ u, (t.core c).span = some u ∧ u.done = sp.done ++ [(r.cmd, r.out, charge)]) ∧
    (∀ (cmd : Instr) (i : Nat), r.busy = false → r.out.failed = true ∨ s.landed r = true →
      (cmd = .commandComplete (.fabric r.x) i charge ∧ (s.ctx r.x).fabricRun[i]? = some r) ∨
        (cmd = .commandComplete (.memory r.x) i charge ∧ (s.ctx r.x).memoryRun[i]? = some r ∧ s.pinWaits r.cmd = false) →
      ∃ t, exec cmd s = .next t ∧
        t = { s with hub := { s.hub with ctxs := t.hub.ctxs }, feeds := t.feeds, roles := t.roles, fabric := t.fabric } ∧
        (r.cmd.op ≠ 0x42 ∨ (msgArgs r.cmd).tag.getLsbD 31 = false ∨ cmd = .commandComplete (.memory r.x) i charge →
          t.roles = s.roles ∧ t.fabric = s.fabric) ∧
        (∀ k ∈ (t.ctx r.x).fabricRun ++ (t.ctx r.x).memoryRun, k.id ≠ r.id) ∧
        (r.cmd.notify = true ∨ r.out.failed = true ∨ r.out.reason ≠ 0 → Reported t r.x r.cmd r.out)))

/-- R181, R182, R231, R233, R280, R333, R341. A head command that waits past its limit for a slot, a token or a group leaves its
queue and fails with the reason of its limit; a slot that stands FULL past OVERRUN_MS posts 0x0108 once; a command that runs past
its watchdog fails with 0x0223; a deep write that waits past its time loses its block, and the commands that write it fail with
0x031B. -/
def Obligations.TimeoutsFail : Prop :=
  ∀ (s : State), s.diesUp = true →
    (∀ (q : QRef) (x y : Fin 16) (c : Option (Fin 4)) (ev : Bool) (cmd : Cmd) (n reason : Nat) (poison : Bool) (e : Instr),
      s.waiting q x = some (c, ev, cmd, n) → y = ctxOfQueue q x → (s.ctx y).state = .active →
      (∀ d, c = some d → s.spanFor y d ev = none) →
      (e = .starveTimeout q x ∧ reason = 0x0107 ∧ poison = true ∧ s.starving q x = true ∧
          s.starveLimit y cmd ≤ s.starveCount q x ev) ∨
        (e = .fenceWaitTimeout q x ∧ reason = 0x0221 ∧ poison = false ∧ isForm 0x60 1 cmd = true ∧
          s.fenceHolds y cmd.desc = false ∧ waitLimit (fld cmd.desc 8 2) 1000 ≤ n) ∨
        (e = .acquireTimeout q x ∧ reason = 0x0414 ∧ poison = false ∧ cmd.op = 0x61 ∧ s.acquireReady y cmd.desc = false ∧
          waitLimit (fld cmd.desc 2 2) 100 ≤ n) ∨
        (∃ d, q = .core d ∧ e = .updateWaitTimeout d x ∧ reason = 0x0412 ∧ poison = false ∧ cmd.op = 0x30 ∧
          s.updateReady x d cmd.desc = false ∧ waitLimit (fld cmd.desc 0x24 2) 100 ≤ n) →
      ∃ t, exec e s = .next t ∧ Reported t y cmd (Done.fails reason poison) ∧ t.cores = s.cores ∧
        (∀ z, (t.ctx z).tokens = (s.ctx z).tokens ∧ (z ≠ y → t.ctx z = { s.ctx z with formed := (t.ctx z).formed })) ∧
        (∀ d, c = some d → (t.cc y d).main = (if ev then (s.cc y d).main else (s.cc y d).main.tail) ∧
          (t.cc y d).eval = (if ev then (s.cc y d).eval.tail else (s.cc y d).eval)) ∧
        (q = .fabric y → (t.ctx y).fabric = (s.ctx y).fabric.tail) ∧ (q = .memory y → (t.ctx y).memory = (s.ctx y).memory.tail) ∧
        t.faults.detected = s.faults.detected ++ (if reason = 0x0107 then [(s.faultNow 1 0x0107 0x0B).ofCmd y cmd] else [])) ∧
    (∀ (x : Fin 16) (d : Fin 4) (i : Nat) (k : TokSlot), (s.cc x d).table.slots[i]? = some k → k.raw = false →
      k.state = .full ∨ k.state = .draining → k.posted = false → (s.ctx x).state = .active →
      (if (s.cc x d).table.overrunMs = 0 then 100 else (s.cc x d).table.overrunMs) * 50000 ≤ s.pilot - k.since →
      ∃ t, exec (.overrunTimeout x d i) s = .next t ∧ OnlyCtx x s t ∧
        (t.cc x d).table.slots[i]? = some { k with posted := true } ∧
        (t.cc x d).overrunEvents = satAdd (s.cc x d).overrunEvents 1 ∧
        (t.ctx x).formed = (s.ctx x).formed ++ [{ Entry.blank 4 0x0108 with detail := detail [(0, 1, d.val), (1, 1, i)] }]) ∧
    (∀ (q : QRef) (i : Nat) (r k : Run), s.watchdogLimit q ≤ r.count → r.out.failed = false →
      k = { r with busy := false, out := { r.out with reason := 0x0223, failed := true, poisoned := true } } →
      (∀ c, q = .core c → (s.core c).running = some r →
        ∃ t, exec (.commandWatchdog q i) s = .next t ∧ OnlyWork s t ∧ (t.core c).running = some k ∧ (t.core c).epi = [] ∧
          (∀ b, t.arr (arrayOf c b) = { (s.arr (arrayOf c b)).clear with lastIssue := (t.arr (arrayOf c b)).lastIssue }) ∧
          t.faults.detected = s.faults.detected ++ [(s.faultNow 1 0x0223 0x0B).ofCmd r.x r.cmd]) ∧
      (∀ x, q = .fabric x → (s.ctx x).fabricRun[i]? = some r →
        ∃ t, exec (.commandWatchdog q i) s = .next t ∧ OnlyWork s t ∧ (t.ctx x).fabricRun[i]? = some k) ∧
      (∀ x, q = .memory x → (s.ctx x).memoryRun[i]? = some r →
        ∃ t, exec (.commandWatchdog q i) s = .next t ∧ OnlyWork s t ∧ (t.ctx x).memoryRun[i]? = some k)) ∧
    (∀ (i : Nat) (w : DeepWait), s.tiers.deepWaits[i]? = some w → 50000 ≤ s.pilot - w.since → w.block < 32 →
      (s.deepDirOf w.page).length = 32 →
      ∃ t, exec (.deepSpaceTimeout i) s = .next t ∧ OnlyWork { s with fabric := t.fabric } t ∧
        (s.writersOf w.x w.page w.block = [] → t.tiers.deepWaits = s.tiers.deepWaits.eraseIdx i ∧
          (t.deepDirOf w.page)[w.block]? = some ⟨0, 0xFF⟩) ∧
        (∃ f ∈ t.faults.detected, f.reason = 0x031B ∧ f.severity = 1 ∧ f.ctx = some w.x) ∧
        ∀ c r, (s.core c).running = some r → r ∈ s.writersOf w.x w.page w.block →
          ∃ k, (t.core c).running = some k ∧ k.out.failed = true ∧ k.out.reason = 0x031B)

/-! ## Replay spans (16) -/

/-- R397, R398, R399, R401, R402, R406. SPAN_OPEN opens a span that holds the inputs of its commands; SPAN_CLOSE ends it, its
commands are reported and its signals take effect; SPAN_REPLAY puts its commands back in front of their queue, once; the decision
on captured rows lets the span go on or fails it with the reason of its most severe outcome; a span that stays open too long fails
with 0x0608. -/
def Obligations.SpansOpenCloseAndReplay : Prop :=
  ∀ (s : State) (c : Fin 4), s.diesUp = true →
    (∀ (s1 : State) (r : Run), s.dispatchCore c (fun m => m.op == 0x63) = some (s1, r) → (s.core c).span = none →
      ∃ t sp, exec (.spanOpen c) s = .next t ∧ OnlyWork s t ∧ (t.core c).running = none ∧ (t.core c).span = some sp ∧
        sp.x = r.x ∧ sp.id = fld r.cmd.desc 2 2 ∧ sp.eval = r.cmd.eval ∧ sp.cmds = [] ∧ sp.done = [] ∧ sp.replay = false ∧
        sp.inputs = spanInputsOf (spanBody ((s1.cc r.x c).queueOf r.cmd.eval)) ∧
        (∀ b, (t.arr (arrayOf c b)).captures = []) ∧ (r.cmd.notify = true → Reported t r.x r.cmd Done.ok)) ∧
    (∀ (s1 : State) (r : Run) (sp : Span), s.dispatchCore c (fun m => m.op == 0x64) = some (s1, r) →
      (s1.core c).span = some sp → sp.faults < 2 →
      ∃ t, exec (.spanClose c) s = .next t ∧ OnlyWork s t ∧ (t.core c).running = none ∧ (t.core c).span = none ∧
        (∀ d ∈ sp.done, d.1.notify = true ∨ d.2.1.failed = true ∨ d.2.1.reason ≠ 0 → Reported t r.x d.1 d.2.1) ∧
        (r.cmd.notify = true → Reported t r.x r.cmd Done.ok) ∧ (∀ b, (t.arr (arrayOf c b)).captures = []) ∧
        ∀ k : Fin 256, (t.ctx r.x).tokens[k] = (s.ctx r.x).tokens[k] +
          BitVec.ofNat 32 ((sp.done.filter (fun d => d.1.op == 0x60 && ix 256 (byteAt d.1.desc 2) == k)).length)) ∧
    (∀ (sp : Span), (s.core c).running = none → (s.core c).span = some sp →
      (sp.replayDue = true → s.fastUp = true →
        ∃ t, exec (.spanReplay c) s = .next t ∧
          t = { s with hub := { s.hub with ctxs := t.hub.ctxs }, cores := t.cores, arrays := t.arrays } ∧
          (t.core c).span = some { sp with cmds := [], done := [], contribs := [], claims := [], made := sp.claims.map (·.2.1)
                                           replay := true, usedReplay := true, replayDue := false } ∧
          (t.cc sp.x c).queueOf sp.eval = sp.cmds ++ (s.cc sp.x c).queueOf sp.eval ∧
          (t.cc sp.x c).queueOf (!sp.eval) = (s.cc sp.x c).queueOf (!sp.eval) ∧
          (t.cc sp.x c).replays = satAdd (s.cc sp.x c).replays 1 ∧ (t.ctx sp.x).formed = (s.ctx sp.x).formed ∧
          ∀ y, y ≠ sp.x → t.ctx y = s.ctx y) ∧
      (∀ (rows : List SelfTestRow) (caps : List Capture) (outs : List RowOutcome) (reason : Nat), sp.replay = true →
        (s.ctx sp.x).state = .active → caps = (s.arr (arrayOf c 0)).captures ++ (s.arr (arrayOf c 1)).captures → caps ≠ [] →
        outs = (s.arr (arrayOf c 0)).captures.map (·.outcome (selfTestPasses rows 0)) ++
          (s.arr (arrayOf c 1)).captures.map (·.outcome (selfTestPasses rows 1)) →
        (∀ k ∈ caps, k.replayed.isSome = true) →
        ((∀ b, (s.arr (arrayOf c b)).fresh = false) → (∀ o ∈ outs, o ≠ .suspect ∧ o ≠ .unresolved) →
          ∃ t, exec (.replayDecision c rows) s = .next t ∧ (t.core c).span = some sp ∧
            (∀ b, (t.arr (arrayOf c b)).captures = []) ∧
            ((∀ o ∈ outs, o ≠ .witnessFault) → ∀ y, (t.ctx y).formed = (s.ctx y).formed)) ∧
        ((.suspect ∈ outs ∧ reason = 0x0606) ∨
            (.suspect ∉ outs ∧ (∃ b, (s.arr (arrayOf c b)).fresh = true) ∧ reason = 0x0607) ∨
            (.suspect ∉ outs ∧ (∀ b, (s.arr (arrayOf c b)).fresh = false) ∧
              .unresolved ∈ outs ∧ reason = 0x0605) →
          ∃ t, exec (.replayDecision c rows) s = .next t ∧ (t.core c).span = none ∧
            (∀ d ∈ sp.done, Reported t sp.x d.1 (Done.fails reason true)) ∧
            (reason = 0x0606 → (t.core c).quarantined = true ∧ (t.core c).leaving = true)))) ∧
    (∀ (sp : Span), (s.core c).span = some sp → 400000 ≤ sp.count → (s.ctx sp.x).state = .active →
      ∃ t, exec (.spanTimeout c) s = .next t ∧ OnlyWork s t ∧ (t.core c).span = none ∧ (t.core c).running = none ∧
        (∀ d ∈ sp.done, Reported t sp.x d.1 (Done.fails 0x0608 true)) ∧
        ∀ r, (s.core c).running = some r → Reported t sp.x r.cmd (Done.fails 0x0608 true))

/-! ## Arrays (04) -/

/-- R86, R87, R89, R93, R96, R103, R107, R110 to R112, R342. The tiles of the next command load ahead into the EMPTY shadow banks of
the arrays that it uses, become ready and swap, and the next load begins; a final row is drained; a failing lane moves to its spare and an array leaves service, with their events; a core that leaves service
fails every command queued on it with 0x0224; an array that issues no row becomes cold. -/
def Obligations.ArraysLoadDrainAndLeave : Prop :=
  ∀ (s : State), s.diesUp = true →
    (∀ (c : Fin 4) (cmd : Cmd), s.lookaheadCmd c = some cmd →
      ∃ t, exec (.lookaheadLoad c) s = .next t ∧ t = { s with arrays := t.arrays } ∧ ∀ (a : Fin 8) (k : Fin 2),
        t.arr a = { s.arr a with banks := (t.arr a).banks } ∧ (t.arr a).banks[k] = if coreOfArray a = c ∧ (s.arr a).inService = true ∧ k ≠ (s.arr a).activeBank ∧
            (s.arr a).ahead = 0 ∧ (s.arr a).banks[k].state = .empty ∧ (s.nextTile (s.core c).current a cmd 0).isSome = true
          then { Bank.blank with state := .loading } else (s.arr a).banks[k]) ∧
    (∀ (a : Fin 8) (k : Fin 2), k ≠ (s.arr a).activeBank →
      ((s.arr a).banks[k].state = .loading → ∀ cmd ev b, s.aheadCmd (coreOfArray a) = some (cmd, ev) →
        s.nextTile (s.core (coreOfArray a)).current a cmd (s.arr a).ahead = some b →
        ∃ t, exec (.bankLoadDone a) s = .next t ∧ OnlyArray a s t ∧ (t.arr a).banks[k].state = .ready ∧
          (t.arr a).banks[k] = { b with poison := b.poison || (s.arr a).banks[k].poison } ∧ b.cols.length = 4096 ∧
          (t.arr a).banks[(s.arr a).activeBank] = (s.arr a).banks[(s.arr a).activeBank] ∧
          (t.arr a).activeBank = (s.arr a).activeBank ∧ (t.arr a).rows = (s.arr a).rows) ∧
      ((s.arr a).banks[k].state = .ready → (s.arr a).ahead = 0 → (s.core (coreOfArray a)).ift.running = false →
        (∀ q ∈ s.power.rampReqs, q.core ≠ coreOfArray a) →
        ∃ t, exec (.bankSwap a) s = .next t ∧ OnlyArray a s t ∧ (t.arr a).activeBank = k ∧ (t.arr a).ahead = 1 ∧
          (t.arr a).banks[k] = { (s.arr a).banks[k] with state := .active } ∧
          ((t.arr a).banks[(s.arr a).activeBank].state = if ((s.aheadCmd (coreOfArray a)).bind (fun m =>
              s.nextTile (s.core (coreOfArray a)).current a m.1 1)).isSome = true then BankState.loading else BankState.empty) ∧
          (t.arr a).rows = (s.arr a).rows)) ∧
    (∀ (a : Fin 8) (ups : List (Nat × W32)) (r : Run) (row : AccRow) (rest : List AccRow),
      (s.core (coreOfArray a)).running = some r → (s.arr a).rows = row :: rest →
      ∃ t k, exec (.rowDrain a ups) s = .next t ∧ OnlyWork s t ∧ (t.arr a).rows = rest ∧
        (t.core (coreOfArray a)).running = some k ∧ k.cmd = r.cmd ∧ k.id = r.id ∧
        (((mmArgs r.cmd).cols (row.acc / (mmArgs r.cmd).groups) 1).isEmpty = false →
          (∀ e ∈ (s.core (coreOfArray a)).epi, e.row ≠ row.acc % (mmArgs r.cmd).groups * (mmArgs r.cmd).r + row.row) →
          (t.core (coreOfArray a)).epi = (s.core (coreOfArray a)).epi ++
            [⟨row.side, row.acc % (mmArgs r.cmd).groups * (mmArgs r.cmd).r + row.row,
              (upsetLanes row ups).lanes.map (drainValue (drainScale (mmOpnds r).1 (mmOpnds r).2.1)), row.poison⟩])) ∧
    (∀ (a : Fin 8) (c : Fin 4), c = coreOfArray a → s.repairTime c = true →
      (∀ site, (s.core c).remaps.find? (fun p => p.1 == a) = some (a, site) →
        bit (byteAt (s.arr a).map (0x10 + site / 33)) 7 = false → bit (byteAt (s.arr a).map (0x10 + site / 33)) 6 = false →
        site < 4224 → (s.arr a).map.length = 144 →
        ∃ t, exec (.laneRemap a) s = .next t ∧ byteAt (t.arr a).map (0x10 + site / 33) = 128 + site % 33 ∧
          (t.core c).reload = true ∧ (t.core c).remaps = (s.core c).remaps.erase (a, site) ∧
          (∀ b, b ≠ a → t.arr b = if coreOfArray b = c then (s.arr b).dropShadow else s.arr b) ∧
          (t.arr a).banks = (s.arr a).dropShadow.banks ∧ (t.arr a).inService = (s.arr a).inService ∧
          ((s.ctx 0).state = .active → (t.ctx 0).formed = (s.ctx 0).formed ++
            [{ Entry.blank 4 0x0609 with detail := detail [(0, 4, siteUnit a.val site)] }])) ∧
      (a ∈ (s.core c).degrades →
        ∃ t, exec (.arrayDegrade a) s = .next t ∧ (t.arr a) = { s.arr a with degraded := true, inService := false } ∧
          (∀ b, b ≠ a → t.arr b = s.arr b) ∧
          ((∀ b, coreOfArray b = c → b ≠ a → (s.arr b).degraded = true) → (t.core c).leaving = true) ∧
          ((∃ b, coreOfArray b = c ∧ b ≠ a ∧ (s.arr b).degraded = false) → (t.core c).singleArray = true ∧
            (t.core c).leaving = (s.core c).leaving) ∧
          ((s.ctx 0).state = .active → (t.ctx 0).formed = (s.ctx 0).formed ++
            [{ Entry.blank 4 0x060A with detail := detail [(0, 4, a.val)] }]))) ∧
    (∀ (c : Fin 4), (s.core c).leaving = true → (s.core c).span = none →
      ∃ t, exec (.coreOutOfService c) s = .next t ∧ (t.core c).inService = false ∧ (t.core c).leaving = false ∧
        (t.core c).running = none ∧ (∀ d, d ≠ c → (t.core d).inService = (s.core d).inService) ∧
        ∀ x, (t.cc x c).main = [] ∧ (t.cc x c).eval = [] ∧
          ((s.ctx x).state = .active → ∀ cmd ∈ (s.cc x c).main ++ (s.cc x c).eval,
            Reported t x cmd (Done.fails 0x0224 false))) ∧
    (∀ (a : Fin 8), (s.arr a).cold = false → a ∉ (s.core (coreOfArray a)).issuing → (s.core (coreOfArray a)).ift.running = false →
      1024 ≤ s.arrayTime - (s.arr a).lastIssue →
      exec (.arrayCold a) s = .next (s.modArr a (fun t => { t with cold := true })))

/-! ## Near memory and tiers (10, 11) -/

/-- R245, R247, R248, R259, R261. A scrub that corrects a sector stores it repaired, counts it and notes its symbols; one that finds a sector
uncorrectable, as every sector of a pseudo-channel with a third failed lane is, marks it poisoned and records the fault; a clean one
changes nothing. A flush of the write-combining buffer, by age or by fill,
leaves what every read of the stack gives as it was. -/
def Obligations.ScrubsAndFlushes : Prop :=
  (∀ (s : State) (n : Fin 12) (sector : Nat) (err all : Pattern) (out : Decoded), s.diesUp = true →
    s.blks[ix 36 (18 + n.val)].enabled = true → 64 * sector < 0x1200000000 → all = (s.stack n).errsOf sector ++ err →
    out = (if (s.stack n).dead.contains (pseudoChannel (64 * sector)) then .uncorrectable
      else decodeSector ((s.stack n).erased (64 * sector))
        (all ++ if (s.stack n).poison.contains sector then maskPattern else [])) →
    (out = .clean → sector ∉ (s.stack n).poison → exec (.scrubRead n sector err) s = .next s) ∧
    (out = .poisoned → exec (.scrubRead n sector err) s = .next (s.modStack n (fun t => { t with ue := satAdd t.ue 1 }))) ∧
    (∀ p, out = .corrected p →
      ∃ t, exec (.scrubRead n sector err) s = .next t ∧ OnlyStack n s t ∧
        (t.stack n).ce = satAdd (s.stack n).ce 1 ∧ (t.stack n).ue = (s.stack n).ue ∧ sector ∉ (t.stack n).poison ∧
        (t.stack n).fixes = (s.stack n).fixes ++ (p.filter (fun e => e.2 ≠ 0 ∧ e.1 ∉ (s.stack n).erased (64 * sector))).map
          (fun e => 36 * pseudoChannel (64 * sector) + e.1) ∧
        (∀ k, k ≠ sector → (k ∈ (t.stack n).poison ↔ k ∈ (s.stack n).poison)) ∧
        ∀ a, (t.stack n).mem.get a = if 64 * sector ≤ a ∧ a < 64 * sector + 64
          then ((flipData (flipData ((s.stack n).mem.read (64 * sector) 64) all) p)[a - 64 * sector]?).getD 0
          else (s.stack n).mem.get a) ∧
    (out = .uncorrectable → inReserved n (64 * sector) = false →
      ∃ t, exec (.scrubRead n sector err) s = .next t ∧ sector ∈ (t.stack n).poison ∧
        (t.stack n).ue = satAdd (s.stack n).ue 1 ∧ (∀ m, m ≠ n → t.stack m = s.stack m) ∧
        t = { s with hbm := t.hbm, faults := { s.faults with detected := t.faults.detected } } ∧
        (sector ∉ (s.stack n).poison → t.faults.detected = s.faults.detected ++ [s.sectorFault n (64 * sector)]))) ∧
  (∀ (s : State) (n : Fin 12) (cmd : Instr) (k : Nat), s.diesUp = true → (s.stack n).tidy →
    (∃ e, cmd = .wcbAgeFlush n e.sector ∧ (s.stack n).wcb[k]? = some e ∧ wcbAge (s.stack n).ctrl.wcbAge ≤ e.age) ∨
      (cmd = .wcbHighFlush n ∧ k = (s.stack n).wcb.length + 1 - 32 * (s.stack n).ctrl.high) →
    ∃ t, exec cmd s = .next t ∧ OnlyStack n s t ∧ (∀ a m, (t.stack n).read a m = (s.stack n).read a m) ∧
      (t.stack n).wcb = (if cmd = .wcbHighFlush n then (s.stack n).wcb.drop k else (s.stack n).wcb.eraseIdx k))

/-- R280, R282, R283, R286, R287, R289, R290. MIGRATE asks for the moves of its pages when the quota takes them, else fails with
0x0314; the drift engine copies a page to a new home, which then reads as the old one does, and switches it; a move that takes too
long is aborted and made again, the 8th abort abandons the page; PIN and UNPIN set the flag of their range; a layer plan starts
with the largest window that fits, or fails with 0x0318 or 0x0319, and stops; compaction packs the blocks of a channel and leaves their contents. -/
def Obligations.PagesMoveBetweenTiers : Prop :=
  ∀ (s : State) (x : Fin 16), s.diesUp = true → RunsNumbered s →
    (∀ (s1 : State) (r : Run) (kind stack need use quota : Nat) (pages : List Nat),
      s.dispatchMemory x (fun m => m.op == 0x50) = some (s1, r) → kind = bits (byteAt r.cmd.desc 1) 1 0 →
      stack = bits (byteAt r.cmd.desc 2) 3 0 → pages = pageRange (fld r.cmd.desc 4 4) (fld r.cmd.desc 8 4) → pages ≠ [] →
      need = s.quotaNeed pages kind stack → use = (if kind = 2 then s.deepUse x else s.nearUse x) →
      quota = (if kind = 2 then (s.ctx x).deepQ else (s.ctx x).nearQ) →
      (need = 0 ∨ use + need ≤ quota → (∀ m ∈ s.tiers.migrates, m.run < s.hub.nextRun) →
        ∃ t, exec (.migrate x) s = .next t ∧ t = { s1 with hub := t.hub, tiers := { s.tiers with
            reqs := s.tiers.reqs ++ pages.map (fun p => ⟨p, x, kind, stack, some r.id, 0⟩)
            migrates := s.tiers.migrates ++ [⟨r.id, 0, 0, 0, 0, pages.length⟩] } } ∧
          (t.ctx x).memoryRun = (s.ctx x).memoryRun ++ [{ r with busy := true }]) ∧
      (need ≠ 0 → quota < use + need →
        ∃ t, exec (.migrate x) s = .next t ∧ t = { s1 with hub := t.hub } ∧ (t.ctx x).memoryRun = (s.ctx x).memoryRun ++
          [{ r with out := { r.out with reason := 0x0314, failed := true } }])) ∧
    (∀ (r : MoveReq) (e : HomeEntry), s.fastUp = true → s.nextReq x = some r → s.homeOf r.page = some e →
      s.moveOf r.page = none → e.home.isAt r.kind r.stack = false → e.pinned = false → r.kind < 2 →
      (s.allocHome r.kind (ix 12 r.stack)).isSome = true →
      (∀ n, (s.stack n).dead = [] ∧ (s.stack n).mem.wf = true) →
      ∃ t d m, exec (.pageMove x) s = .next t ∧ t.homeOf r.page = some { e with dest := some d, aborts := r.tried } ∧
        d.isAt r.kind (ix 12 r.stack).val = true ∧ d ∉ s.homesHeld ∧ t.moveOf r.page = some m ∧ m.copied = true ∧
        m.aborted = false ∧ m.since = s.pilot ∧ t.tiers.reqs = s.tiers.reqs.erase r ∧
        (r.kind = 0 → t.readHome d r.page 0 131072 = s.readHome e.home r.page 0 131072) ∧
        ∀ q, q ≠ r.page → t.homeOf q = s.homeOf q) ∧
    (∀ (p : Nat) (m : Move) (e : HomeEntry), s.moveOf p = some m → s.homeOf p = some e →
      (∀ d, e.dest = some d → m.aborted = false → m.copied = true → s.fastUp = true → s.pilot - m.since ≤ 100 →
        ∃ t e', exec (.pageSwitch p) s = .next t ∧ t.homeOf p = some e' ∧ e'.home = d ∧ e'.dest = none ∧ e'.aborts = 0 ∧
          e'.owner = e.owner ∧ e'.pinned = e.pinned ∧ e'.switches = e.switches + 1 ∧ t.moveOf p = none ∧
          (t.ctx e.owner).moves = satAdd (s.ctx e.owner).moves 1 ∧ ∀ q, q ≠ p → t.homeOf q = s.homeOf q) ∧
      (m.aborted = false → 100 ≤ s.pilot - m.since →
        ∃ t, exec (.moveTimeout p) s = .next t ∧
          t.homeOf p = some { e with dest := none, aborts := if 7 ≤ e.aborts then 0 else e.aborts + 1 } ∧
          (t.ctx e.owner).aborts = satAdd (s.ctx e.owner).aborts 1 ∧ (∀ q, q ≠ p → t.homeOf q = s.homeOf q) ∧
          t.moveOf p = if 7 ≤ e.aborts then none else some { m with aborted := true, copied := false, stalled := [] }) ∧
      (m.aborted = true → s.fastUp = true → s.displaced p m = false →
        (e.pinned = true → m.runs = [] →
          ∃ t, exec (.moveRetry p) s = .next t ∧ t = { s with tiers := t.tiers } ∧ t.moveOf p = none ∧
            t.homeOf p = some { e with aborts := 0 } ∧ ∀ q, q ≠ p → t.homeOf q = s.homeOf q) ∧
        (e.pinned = false → s.canBegin ⟨p, m.x, m.kind, m.stack, m.runs.head?, e.aborts⟩ e = true → m.kind < 2 → (s.allocHome m.kind (ix 12 m.stack)).isSome = true →
          ∃ t d k, exec (.moveRetry p) s = .next t ∧ t.homeOf p = some { e with dest := some d } ∧
            d.isAt m.kind (ix 12 m.stack).val = true ∧ t.moveOf p = some k ∧ k.copied = true ∧ k.aborted = false ∧
            k.runs = m.runs ∧ k.since = s.pilot))) ∧
    (∀ (s1 : State) (r : Run) (cmd : Instr) (op : Nat) (v : Bool), s.dispatchMemory x (fun m => m.op == op) = some (s1, r) →
      (cmd = .pin x ∧ op = 0x52 ∧ v = true) ∨ (cmd = .unpin x ∧ op = 0x53 ∧ v = false) →
      ∃ t, exec cmd s = .next t ∧ t = { s1 with tiers := { s.tiers with map := t.tiers.map } } ∧
        (t.ctx x).memoryRun = (s.ctx x).memoryRun ++ [r] ∧ ∀ q, t.homeOf q = (s.homeOf q).map (fun e =>
          if fld r.cmd.desc 4 4 ≤ q ∧ q < fld r.cmd.desc 4 4 + fld r.cmd.desc 8 4 then { e with pinned := v } else e)) ∧
    (∀ (s1 : State) (r : Run) (n w : Nat) (bs : List PByte) (rows : List (List Byte)) (p0 : Plan),
      s.dispatchMemory x (isForm 0x51 0) = some (s1, r) → n = fld r.cmd.desc 2 2 →
      bs = s.uread (fld r.cmd.desc 8 8) (64 * n) → rows = chunks 64 (bs.map (·.b)) →
      p0 = { table := rows.map planPos, n := 0, pos := fld r.cmd.desc 6 2, windowMode := false } →
      w = s.planWindow x p0 (if fld r.cmd.desc 4 2 = 0 then n else min (fld r.cmd.desc 4 2) n) →
      ((∀ k ∈ rows, s.planPosOk x k = true) → 3 ≤ w ∨ n ≤ w →
        ∃ t, exec (.layerPlanStart x) s = .next t ∧ Finished s t (.memory x) r ∧
          (t.ctx x).plan = some { p0 with n := w, windowMode := !decide (n ≤ w) } ∧ t.tiers.map = s.tiers.map ∧
          (bs.any (·.p) = false → t.hbm = s.hbm) ∧
          (r.cmd.notify = true → Reported t x r.cmd { Done.ok with detail := detail [(8, 4, w)] })) ∧
      ((∀ k ∈ rows, s.planPosOk x k = true) → w < 3 → w < n →
        ∃ t, exec (.layerPlanStart x) s = .next t ∧ Finished s t (.memory x) r ∧ (t.ctx x).plan = none ∧
          t.tiers.map = s.tiers.map ∧ Reported t x r.cmd { Done.ok with reason := 0x0319, failed := true }) ∧
      ((∃ k ∈ rows, s.planPosOk x k = false) →
        ∃ t, exec (.layerPlanStart x) s = .next t ∧ Finished s t (.memory x) r ∧ (t.ctx x).plan = (s.ctx x).plan ∧
          t.tiers.map = s.tiers.map ∧ (bs.any (·.p) = false → t.tiers = s.tiers ∧ t.hbm = s.hbm) ∧
          Reported t x r.cmd { Done.ok with reason := 0x0318, failed := true })) ∧
    (∀ (s1 : State) (r : Run), s.dispatchMemory x (isForm 0x51 1) = some (s1, r) →
      ∃ t, exec (.layerPlanStop x) s = .next t ∧ Finished s t (.memory x) r ∧ (t.ctx x).plan = none ∧
        t.tiers = { s.tiers with reqs := s.tiers.reqs.filter (fun r => r.x != x || r.run.isSome) } ∧
        (r.cmd.notify = true → Reported t x r.cmd Done.ok)) ∧
    (∀ (ch : Fin 16) (l : List (Nat × Nat × Nat × Nat)), s.tiers.deepWaits = [] → l = s.channelBlocks ch.val →
      (s.tiers.deepDir.map (·.1)).Nodup → (l.map (fun (b : Nat × Nat × Nat × Nat) => (b.1, b.2.1))).Nodup →
      ∃ t, exec (.compaction ch) s = .next t ∧ t = { s with tiers := { s.tiers with deepDir := t.tiers.deepDir } } ∧
        (∀ p j, t.deepBlock p j = s.deepBlock p j) ∧
        (∀ (i : Nat) (b : Nat × Nat × Nat × Nat), l[i]? = some b → (t.deepDirOf b.1)[b.2.1]? = some ⟨((l.take i).map (fun (b : Nat × Nat × Nat × Nat) => b.2.2.2)).sum, b.2.2.2⟩) ∧
        ∀ p j, (∀ b ∈ l, ¬(b.1 = p ∧ b.2.1 = j)) → (t.deepDirOf p)[j]? = (s.deepDirOf p)[j]?)

/-! ## The whole machine -/

/-- R251, R447, R465, R473; 19, Table 19.8. No step takes a setting out of its range: the caps of host and baseboard from 1,600 to
3,200 W, the cap in force at most 3,200 W, IDLE_US 0 or from 10 to 1,000, SPREAD_GIB at most 70; the device is limited exactly
while it runs on the internal source, and it is ready in the last stage of its start only. -/
def Obligations.SettingsStayLegal : Prop :=
  ∀ s t : State, step s = .next t → s.settings.legal = true → t.settings.legal = true

/-- The state after reset: stage 1 of the start on the internal source, every context NONE with E 1, no command, frame or fault
waiting, the caps 3,200 W and SPREAD_GIB 36, and every setting legal. -/
def Obligations.ResetState : Prop :=
  State.reset.settings.legal = true ∧ State.reset.pending = [] ∧ State.reset.clock.stage = 1 ∧
    State.reset.clock.ready = false ∧ State.reset.clock.source = 2 ∧ State.reset.clock.limited = true ∧
    State.reset.power.hostCap = 3200 ∧ State.reset.power.bmcCap = 3200 ∧ State.reset.tiers.spreadGib = 36 ∧
    State.reset.tiers.map = [] ∧ State.reset.faults.ring = [] ∧ State.reset.faults.fatal = false ∧
    State.reset.fabric.sent = [] ∧ State.reset.roles.record = none ∧
    (∀ x, (State.reset.ctx x).state = .none ∧ (State.reset.ctx x).seqExpect = 1 ∧ (State.reset.ctx x).formed = []) ∧
    (∀ c, (State.reset.core c).running = none ∧ (State.reset.core c).span = none) ∧
    ∀ n, (State.reset.stack n).mem = [] ∧ (State.reset.stack n).wcb = []
end

