-- ==== Sys2Proof/Laws/State.lean ====
section
/-! SUPPORT. What each update of the state leaves and what it gives: one lemma for a field and an update. -/

namespace Sys2Proof.Machine

open Sys2Proof

/-! ## Units -/

@[simp] theorem vmod_same {α : Type} {n : Nat} (v : Vector α n) (i : Fin n) (f : α → α) : (vmod v i f)[i] = f v[i] := by
  simp [vmod]

@[simp] theorem vmod_same_val {α : Type} {n : Nat} (v : Vector α n) (i : Fin n) (f : α → α) :
    (vmod v i f)[i.val] = f v[i.val] := by
  simp [vmod]

theorem vmod_other {α : Type} {n : Nat} (v : Vector α n) (i j : Fin n) (f : α → α) (h : j ≠ i) : (vmod v i f)[j] = v[j] := by
  have h1 : i.val ≠ j.val := fun e => h (Fin.ext e.symm)
  simp [vmod, h1]

/-! ## modCtx -/

@[simp] theorem State.modCtx_pending (s : State) (x : Fin 16) (f : Ctx → Ctx) : (s.modCtx x f).pending = s.pending := rfl
@[simp] theorem State.modCtx_pilot (s : State) (x : Fin 16) (f : Ctx → Ctx) : (s.modCtx x f).pilot = s.pilot := rfl
@[simp] theorem State.modCtx_arrayTime (s : State) (x : Fin 16) (f : Ctx → Ctx) : (s.modCtx x f).arrayTime = s.arrayTime := rfl
@[simp] theorem State.modCtx_freeCtr (s : State) (x : Fin 16) (f : Ctx → Ctx) : (s.modCtx x f).freeCtr = s.freeCtr := rfl
@[simp] theorem State.modCtx_cores (s : State) (x : Fin 16) (f : Ctx → Ctx) : (s.modCtx x f).cores = s.cores := rfl
@[simp] theorem State.modCtx_arrays (s : State) (x : Fin 16) (f : Ctx → Ctx) : (s.modCtx x f).arrays = s.arrays := rfl
@[simp] theorem State.modCtx_feeds (s : State) (x : Fin 16) (f : Ctx → Ctx) : (s.modCtx x f).feeds = s.feeds := rfl
@[simp] theorem State.modCtx_hbm (s : State) (x : Fin 16) (f : Ctx → Ctx) : (s.modCtx x f).hbm = s.hbm := rfl
@[simp] theorem State.modCtx_tiers (s : State) (x : Fin 16) (f : Ctx → Ctx) : (s.modCtx x f).tiers = s.tiers := rfl
@[simp] theorem State.modCtx_faults (s : State) (x : Fin 16) (f : Ctx → Ctx) : (s.modCtx x f).faults = s.faults := rfl
@[simp] theorem State.modCtx_blks (s : State) (x : Fin 16) (f : Ctx → Ctx) : (s.modCtx x f).blks = s.blks := rfl
@[simp] theorem State.modCtx_links (s : State) (x : Fin 16) (f : Ctx → Ctx) : (s.modCtx x f).links = s.links := rfl
@[simp] theorem State.modCtx_fabric (s : State) (x : Fin 16) (f : Ctx → Ctx) : (s.modCtx x f).fabric = s.fabric := rfl
@[simp] theorem State.modCtx_power (s : State) (x : Fin 16) (f : Ctx → Ctx) : (s.modCtx x f).power = s.power := rfl
@[simp] theorem State.modCtx_clock (s : State) (x : Fin 16) (f : Ctx → Ctx) : (s.modCtx x f).clock = s.clock := rfl
@[simp] theorem State.modCtx_roles (s : State) (x : Fin 16) (f : Ctx → Ctx) : (s.modCtx x f).roles = s.roles := rfl
@[simp] theorem State.modCtx_sec (s : State) (x : Fin 16) (f : Ctx → Ctx) : (s.modCtx x f).sec = s.sec := rfl
@[simp] theorem State.modCtx_board (s : State) (x : Fin 16) (f : Ctx → Ctx) : (s.modCtx x f).board = s.board := rfl
@[simp] theorem State.modCtx_core (s : State) (x : Fin 16) (f : Ctx → Ctx) (e : Fin 4) : (s.modCtx x f).core e = s.core e := rfl
@[simp] theorem State.modCtx_feed (s : State) (x : Fin 16) (f : Ctx → Ctx) (e : Fin 4) : (s.modCtx x f).feed e = s.feed e := rfl
@[simp] theorem State.modCtx_arr (s : State) (x : Fin 16) (f : Ctx → Ctx) (e : Fin 8) : (s.modCtx x f).arr e = s.arr e := rfl
@[simp] theorem State.modCtx_stack (s : State) (x : Fin 16) (f : Ctx → Ctx) (m : Fin 12) : (s.modCtx x f).stack m = s.stack m := rfl

/-! ## modCC -/

@[simp] theorem State.modCC_pending (s : State) (x : Fin 16) (c : Fin 4) (f : CtxCore → CtxCore) : (s.modCC x c f).pending = s.pending := rfl
@[simp] theorem State.modCC_pilot (s : State) (x : Fin 16) (c : Fin 4) (f : CtxCore → CtxCore) : (s.modCC x c f).pilot = s.pilot := rfl
@[simp] theorem State.modCC_arrayTime (s : State) (x : Fin 16) (c : Fin 4) (f : CtxCore → CtxCore) : (s.modCC x c f).arrayTime = s.arrayTime := rfl
@[simp] theorem State.modCC_freeCtr (s : State) (x : Fin 16) (c : Fin 4) (f : CtxCore → CtxCore) : (s.modCC x c f).freeCtr = s.freeCtr := rfl
@[simp] theorem State.modCC_cores (s : State) (x : Fin 16) (c : Fin 4) (f : CtxCore → CtxCore) : (s.modCC x c f).cores = s.cores := rfl
@[simp] theorem State.modCC_arrays (s : State) (x : Fin 16) (c : Fin 4) (f : CtxCore → CtxCore) : (s.modCC x c f).arrays = s.arrays := rfl
@[simp] theorem State.modCC_feeds (s : State) (x : Fin 16) (c : Fin 4) (f : CtxCore → CtxCore) : (s.modCC x c f).feeds = s.feeds := rfl
@[simp] theorem State.modCC_hbm (s : State) (x : Fin 16) (c : Fin 4) (f : CtxCore → CtxCore) : (s.modCC x c f).hbm = s.hbm := rfl
@[simp] theorem State.modCC_tiers (s : State) (x : Fin 16) (c : Fin 4) (f : CtxCore → CtxCore) : (s.modCC x c f).tiers = s.tiers := rfl
@[simp] theorem State.modCC_faults (s : State) (x : Fin 16) (c : Fin 4) (f : CtxCore → CtxCore) : (s.modCC x c f).faults = s.faults := rfl
@[simp] theorem State.modCC_blks (s : State) (x : Fin 16) (c : Fin 4) (f : CtxCore → CtxCore) : (s.modCC x c f).blks = s.blks := rfl
@[simp] theorem State.modCC_links (s : State) (x : Fin 16) (c : Fin 4) (f : CtxCore → CtxCore) : (s.modCC x c f).links = s.links := rfl
@[simp] theorem State.modCC_fabric (s : State) (x : Fin 16) (c : Fin 4) (f : CtxCore → CtxCore) : (s.modCC x c f).fabric = s.fabric := rfl
@[simp] theorem State.modCC_power (s : State) (x : Fin 16) (c : Fin 4) (f : CtxCore → CtxCore) : (s.modCC x c f).power = s.power := rfl
@[simp] theorem State.modCC_clock (s : State) (x : Fin 16) (c : Fin 4) (f : CtxCore → CtxCore) : (s.modCC x c f).clock = s.clock := rfl
@[simp] theorem State.modCC_roles (s : State) (x : Fin 16) (c : Fin 4) (f : CtxCore → CtxCore) : (s.modCC x c f).roles = s.roles := rfl
@[simp] theorem State.modCC_sec (s : State) (x : Fin 16) (c : Fin 4) (f : CtxCore → CtxCore) : (s.modCC x c f).sec = s.sec := rfl
@[simp] theorem State.modCC_board (s : State) (x : Fin 16) (c : Fin 4) (f : CtxCore → CtxCore) : (s.modCC x c f).board = s.board := rfl
@[simp] theorem State.modCC_core (s : State) (x : Fin 16) (c : Fin 4) (f : CtxCore → CtxCore) (e : Fin 4) : (s.modCC x c f).core e = s.core e := rfl
@[simp] theorem State.modCC_feed (s : State) (x : Fin 16) (c : Fin 4) (f : CtxCore → CtxCore) (e : Fin 4) : (s.modCC x c f).feed e = s.feed e := rfl
@[simp] theorem State.modCC_arr (s : State) (x : Fin 16) (c : Fin 4) (f : CtxCore → CtxCore) (e : Fin 8) : (s.modCC x c f).arr e = s.arr e := rfl
@[simp] theorem State.modCC_stack (s : State) (x : Fin 16) (c : Fin 4) (f : CtxCore → CtxCore) (m : Fin 12) : (s.modCC x c f).stack m = s.stack m := rfl

/-! ## modSlot -/

@[simp] theorem State.modSlot_pending (s : State) (x : Fin 16) (i : Fin 8) (f : MailSlot → MailSlot) : (s.modSlot x i f).pending = s.pending := rfl
@[simp] theorem State.modSlot_pilot (s : State) (x : Fin 16) (i : Fin 8) (f : MailSlot → MailSlot) : (s.modSlot x i f).pilot = s.pilot := rfl
@[simp] theorem State.modSlot_arrayTime (s : State) (x : Fin 16) (i : Fin 8) (f : MailSlot → MailSlot) : (s.modSlot x i f).arrayTime = s.arrayTime := rfl
@[simp] theorem State.modSlot_freeCtr (s : State) (x : Fin 16) (i : Fin 8) (f : MailSlot → MailSlot) : (s.modSlot x i f).freeCtr = s.freeCtr := rfl
@[simp] theorem State.modSlot_cores (s : State) (x : Fin 16) (i : Fin 8) (f : MailSlot → MailSlot) : (s.modSlot x i f).cores = s.cores := rfl
@[simp] theorem State.modSlot_arrays (s : State) (x : Fin 16) (i : Fin 8) (f : MailSlot → MailSlot) : (s.modSlot x i f).arrays = s.arrays := rfl
@[simp] theorem State.modSlot_feeds (s : State) (x : Fin 16) (i : Fin 8) (f : MailSlot → MailSlot) : (s.modSlot x i f).feeds = s.feeds := rfl
@[simp] theorem State.modSlot_hbm (s : State) (x : Fin 16) (i : Fin 8) (f : MailSlot → MailSlot) : (s.modSlot x i f).hbm = s.hbm := rfl
@[simp] theorem State.modSlot_tiers (s : State) (x : Fin 16) (i : Fin 8) (f : MailSlot → MailSlot) : (s.modSlot x i f).tiers = s.tiers := rfl
@[simp] theorem State.modSlot_faults (s : State) (x : Fin 16) (i : Fin 8) (f : MailSlot → MailSlot) : (s.modSlot x i f).faults = s.faults := rfl
@[simp] theorem State.modSlot_blks (s : State) (x : Fin 16) (i : Fin 8) (f : MailSlot → MailSlot) : (s.modSlot x i f).blks = s.blks := rfl
@[simp] theorem State.modSlot_links (s : State) (x : Fin 16) (i : Fin 8) (f : MailSlot → MailSlot) : (s.modSlot x i f).links = s.links := rfl
@[simp] theorem State.modSlot_fabric (s : State) (x : Fin 16) (i : Fin 8) (f : MailSlot → MailSlot) : (s.modSlot x i f).fabric = s.fabric := rfl
@[simp] theorem State.modSlot_power (s : State) (x : Fin 16) (i : Fin 8) (f : MailSlot → MailSlot) : (s.modSlot x i f).power = s.power := rfl
@[simp] theorem State.modSlot_clock (s : State) (x : Fin 16) (i : Fin 8) (f : MailSlot → MailSlot) : (s.modSlot x i f).clock = s.clock := rfl
@[simp] theorem State.modSlot_roles (s : State) (x : Fin 16) (i : Fin 8) (f : MailSlot → MailSlot) : (s.modSlot x i f).roles = s.roles := rfl
@[simp] theorem State.modSlot_sec (s : State) (x : Fin 16) (i : Fin 8) (f : MailSlot → MailSlot) : (s.modSlot x i f).sec = s.sec := rfl
@[simp] theorem State.modSlot_board (s : State) (x : Fin 16) (i : Fin 8) (f : MailSlot → MailSlot) : (s.modSlot x i f).board = s.board := rfl
@[simp] theorem State.modSlot_core (s : State) (x : Fin 16) (i : Fin 8) (f : MailSlot → MailSlot) (e : Fin 4) : (s.modSlot x i f).core e = s.core e := rfl
@[simp] theorem State.modSlot_feed (s : State) (x : Fin 16) (i : Fin 8) (f : MailSlot → MailSlot) (e : Fin 4) : (s.modSlot x i f).feed e = s.feed e := rfl
@[simp] theorem State.modSlot_arr (s : State) (x : Fin 16) (i : Fin 8) (f : MailSlot → MailSlot) (e : Fin 8) : (s.modSlot x i f).arr e = s.arr e := rfl
@[simp] theorem State.modSlot_stack (s : State) (x : Fin 16) (i : Fin 8) (f : MailSlot → MailSlot) (m : Fin 12) : (s.modSlot x i f).stack m = s.stack m := rfl

/-! ## modTok -/

@[simp] theorem State.modTok_pending (s : State) (x : Fin 16) (c : Fin 4) (i : Nat) (f : TokSlot → TokSlot) : (s.modTok x c i f).pending = s.pending := rfl
@[simp] theorem State.modTok_pilot (s : State) (x : Fin 16) (c : Fin 4) (i : Nat) (f : TokSlot → TokSlot) : (s.modTok x c i f).pilot = s.pilot := rfl
@[simp] theorem State.modTok_arrayTime (s : State) (x : Fin 16) (c : Fin 4) (i : Nat) (f : TokSlot → TokSlot) : (s.modTok x c i f).arrayTime = s.arrayTime := rfl
@[simp] theorem State.modTok_freeCtr (s : State) (x : Fin 16) (c : Fin 4) (i : Nat) (f : TokSlot → TokSlot) : (s.modTok x c i f).freeCtr = s.freeCtr := rfl
@[simp] theorem State.modTok_cores (s : State) (x : Fin 16) (c : Fin 4) (i : Nat) (f : TokSlot → TokSlot) : (s.modTok x c i f).cores = s.cores := rfl
@[simp] theorem State.modTok_arrays (s : State) (x : Fin 16) (c : Fin 4) (i : Nat) (f : TokSlot → TokSlot) : (s.modTok x c i f).arrays = s.arrays := rfl
@[simp] theorem State.modTok_feeds (s : State) (x : Fin 16) (c : Fin 4) (i : Nat) (f : TokSlot → TokSlot) : (s.modTok x c i f).feeds = s.feeds := rfl
@[simp] theorem State.modTok_hbm (s : State) (x : Fin 16) (c : Fin 4) (i : Nat) (f : TokSlot → TokSlot) : (s.modTok x c i f).hbm = s.hbm := rfl
@[simp] theorem State.modTok_tiers (s : State) (x : Fin 16) (c : Fin 4) (i : Nat) (f : TokSlot → TokSlot) : (s.modTok x c i f).tiers = s.tiers := rfl
@[simp] theorem State.modTok_faults (s : State) (x : Fin 16) (c : Fin 4) (i : Nat) (f : TokSlot → TokSlot) : (s.modTok x c i f).faults = s.faults := rfl
@[simp] theorem State.modTok_blks (s : State) (x : Fin 16) (c : Fin 4) (i : Nat) (f : TokSlot → TokSlot) : (s.modTok x c i f).blks = s.blks := rfl
@[simp] theorem State.modTok_links (s : State) (x : Fin 16) (c : Fin 4) (i : Nat) (f : TokSlot → TokSlot) : (s.modTok x c i f).links = s.links := rfl
@[simp] theorem State.modTok_fabric (s : State) (x : Fin 16) (c : Fin 4) (i : Nat) (f : TokSlot → TokSlot) : (s.modTok x c i f).fabric = s.fabric := rfl
@[simp] theorem State.modTok_power (s : State) (x : Fin 16) (c : Fin 4) (i : Nat) (f : TokSlot → TokSlot) : (s.modTok x c i f).power = s.power := rfl
@[simp] theorem State.modTok_clock (s : State) (x : Fin 16) (c : Fin 4) (i : Nat) (f : TokSlot → TokSlot) : (s.modTok x c i f).clock = s.clock := rfl
@[simp] theorem State.modTok_roles (s : State) (x : Fin 16) (c : Fin 4) (i : Nat) (f : TokSlot → TokSlot) : (s.modTok x c i f).roles = s.roles := rfl
@[simp] theorem State.modTok_sec (s : State) (x : Fin 16) (c : Fin 4) (i : Nat) (f : TokSlot → TokSlot) : (s.modTok x c i f).sec = s.sec := rfl
@[simp] theorem State.modTok_board (s : State) (x : Fin 16) (c : Fin 4) (i : Nat) (f : TokSlot → TokSlot) : (s.modTok x c i f).board = s.board := rfl
@[simp] theorem State.modTok_core (s : State) (x : Fin 16) (c : Fin 4) (i : Nat) (f : TokSlot → TokSlot) (e : Fin 4) : (s.modTok x c i f).core e = s.core e := rfl
@[simp] theorem State.modTok_feed (s : State) (x : Fin 16) (c : Fin 4) (i : Nat) (f : TokSlot → TokSlot) (e : Fin 4) : (s.modTok x c i f).feed e = s.feed e := rfl
@[simp] theorem State.modTok_arr (s : State) (x : Fin 16) (c : Fin 4) (i : Nat) (f : TokSlot → TokSlot) (e : Fin 8) : (s.modTok x c i f).arr e = s.arr e := rfl
@[simp] theorem State.modTok_stack (s : State) (x : Fin 16) (c : Fin 4) (i : Nat) (f : TokSlot → TokSlot) (m : Fin 12) : (s.modTok x c i f).stack m = s.stack m := rfl

/-! ## modCore -/

@[simp] theorem State.modCore_pending (s : State) (c : Fin 4) (f : CoreS → CoreS) : (s.modCore c f).pending = s.pending := rfl
@[simp] theorem State.modCore_pilot (s : State) (c : Fin 4) (f : CoreS → CoreS) : (s.modCore c f).pilot = s.pilot := rfl
@[simp] theorem State.modCore_arrayTime (s : State) (c : Fin 4) (f : CoreS → CoreS) : (s.modCore c f).arrayTime = s.arrayTime := rfl
@[simp] theorem State.modCore_freeCtr (s : State) (c : Fin 4) (f : CoreS → CoreS) : (s.modCore c f).freeCtr = s.freeCtr := rfl
@[simp] theorem State.modCore_hub (s : State) (c : Fin 4) (f : CoreS → CoreS) : (s.modCore c f).hub = s.hub := rfl
@[simp] theorem State.modCore_arrays (s : State) (c : Fin 4) (f : CoreS → CoreS) : (s.modCore c f).arrays = s.arrays := rfl
@[simp] theorem State.modCore_feeds (s : State) (c : Fin 4) (f : CoreS → CoreS) : (s.modCore c f).feeds = s.feeds := rfl
@[simp] theorem State.modCore_hbm (s : State) (c : Fin 4) (f : CoreS → CoreS) : (s.modCore c f).hbm = s.hbm := rfl
@[simp] theorem State.modCore_tiers (s : State) (c : Fin 4) (f : CoreS → CoreS) : (s.modCore c f).tiers = s.tiers := rfl
@[simp] theorem State.modCore_faults (s : State) (c : Fin 4) (f : CoreS → CoreS) : (s.modCore c f).faults = s.faults := rfl
@[simp] theorem State.modCore_blks (s : State) (c : Fin 4) (f : CoreS → CoreS) : (s.modCore c f).blks = s.blks := rfl
@[simp] theorem State.modCore_links (s : State) (c : Fin 4) (f : CoreS → CoreS) : (s.modCore c f).links = s.links := rfl
@[simp] theorem State.modCore_fabric (s : State) (c : Fin 4) (f : CoreS → CoreS) : (s.modCore c f).fabric = s.fabric := rfl
@[simp] theorem State.modCore_power (s : State) (c : Fin 4) (f : CoreS → CoreS) : (s.modCore c f).power = s.power := rfl
@[simp] theorem State.modCore_clock (s : State) (c : Fin 4) (f : CoreS → CoreS) : (s.modCore c f).clock = s.clock := rfl
@[simp] theorem State.modCore_roles (s : State) (c : Fin 4) (f : CoreS → CoreS) : (s.modCore c f).roles = s.roles := rfl
@[simp] theorem State.modCore_sec (s : State) (c : Fin 4) (f : CoreS → CoreS) : (s.modCore c f).sec = s.sec := rfl
@[simp] theorem State.modCore_board (s : State) (c : Fin 4) (f : CoreS → CoreS) : (s.modCore c f).board = s.board := rfl
@[simp] theorem State.modCore_ctx (s : State) (c : Fin 4) (f : CoreS → CoreS) (y : Fin 16) : (s.modCore c f).ctx y = s.ctx y := rfl
@[simp] theorem State.modCore_feed (s : State) (c : Fin 4) (f : CoreS → CoreS) (e : Fin 4) : (s.modCore c f).feed e = s.feed e := rfl
@[simp] theorem State.modCore_arr (s : State) (c : Fin 4) (f : CoreS → CoreS) (e : Fin 8) : (s.modCore c f).arr e = s.arr e := rfl
@[simp] theorem State.modCore_stack (s : State) (c : Fin 4) (f : CoreS → CoreS) (m : Fin 12) : (s.modCore c f).stack m = s.stack m := rfl
@[simp] theorem State.modCore_cc (s : State) (c : Fin 4) (f : CoreS → CoreS) (y : Fin 16) (e : Fin 4) : (s.modCore c f).cc y e = s.cc y e := rfl

/-! ## modIft -/

@[simp] theorem State.modIft_pending (s : State) (c : Fin 4) (f : Ift → Ift) : (s.modIft c f).pending = s.pending := rfl
@[simp] theorem State.modIft_pilot (s : State) (c : Fin 4) (f : Ift → Ift) : (s.modIft c f).pilot = s.pilot := rfl
@[simp] theorem State.modIft_arrayTime (s : State) (c : Fin 4) (f : Ift → Ift) : (s.modIft c f).arrayTime = s.arrayTime := rfl
@[simp] theorem State.modIft_freeCtr (s : State) (c : Fin 4) (f : Ift → Ift) : (s.modIft c f).freeCtr = s.freeCtr := rfl
@[simp] theorem State.modIft_hub (s : State) (c : Fin 4) (f : Ift → Ift) : (s.modIft c f).hub = s.hub := rfl
@[simp] theorem State.modIft_arrays (s : State) (c : Fin 4) (f : Ift → Ift) : (s.modIft c f).arrays = s.arrays := rfl
@[simp] theorem State.modIft_feeds (s : State) (c : Fin 4) (f : Ift → Ift) : (s.modIft c f).feeds = s.feeds := rfl
@[simp] theorem State.modIft_hbm (s : State) (c : Fin 4) (f : Ift → Ift) : (s.modIft c f).hbm = s.hbm := rfl
@[simp] theorem State.modIft_tiers (s : State) (c : Fin 4) (f : Ift → Ift) : (s.modIft c f).tiers = s.tiers := rfl
@[simp] theorem State.modIft_faults (s : State) (c : Fin 4) (f : Ift → Ift) : (s.modIft c f).faults = s.faults := rfl
@[simp] theorem State.modIft_blks (s : State) (c : Fin 4) (f : Ift → Ift) : (s.modIft c f).blks = s.blks := rfl
@[simp] theorem State.modIft_links (s : State) (c : Fin 4) (f : Ift → Ift) : (s.modIft c f).links = s.links := rfl
@[simp] theorem State.modIft_fabric (s : State) (c : Fin 4) (f : Ift → Ift) : (s.modIft c f).fabric = s.fabric := rfl
@[simp] theorem State.modIft_power (s : State) (c : Fin 4) (f : Ift → Ift) : (s.modIft c f).power = s.power := rfl
@[simp] theorem State.modIft_clock (s : State) (c : Fin 4) (f : Ift → Ift) : (s.modIft c f).clock = s.clock := rfl
@[simp] theorem State.modIft_roles (s : State) (c : Fin 4) (f : Ift → Ift) : (s.modIft c f).roles = s.roles := rfl
@[simp] theorem State.modIft_sec (s : State) (c : Fin 4) (f : Ift → Ift) : (s.modIft c f).sec = s.sec := rfl
@[simp] theorem State.modIft_board (s : State) (c : Fin 4) (f : Ift → Ift) : (s.modIft c f).board = s.board := rfl
@[simp] theorem State.modIft_ctx (s : State) (c : Fin 4) (f : Ift → Ift) (y : Fin 16) : (s.modIft c f).ctx y = s.ctx y := rfl
@[simp] theorem State.modIft_feed (s : State) (c : Fin 4) (f : Ift → Ift) (e : Fin 4) : (s.modIft c f).feed e = s.feed e := rfl
@[simp] theorem State.modIft_arr (s : State) (c : Fin 4) (f : Ift → Ift) (e : Fin 8) : (s.modIft c f).arr e = s.arr e := rfl
@[simp] theorem State.modIft_stack (s : State) (c : Fin 4) (f : Ift → Ift) (m : Fin 12) : (s.modIft c f).stack m = s.stack m := rfl
@[simp] theorem State.modIft_cc (s : State) (c : Fin 4) (f : Ift → Ift) (y : Fin 16) (e : Fin 4) : (s.modIft c f).cc y e = s.cc y e := rfl

/-! ## modFeed -/

@[simp] theorem State.modFeed_pending (s : State) (c : Fin 4) (f : FeedS → FeedS) : (s.modFeed c f).pending = s.pending := rfl
@[simp] theorem State.modFeed_pilot (s : State) (c : Fin 4) (f : FeedS → FeedS) : (s.modFeed c f).pilot = s.pilot := rfl
@[simp] theorem State.modFeed_arrayTime (s : State) (c : Fin 4) (f : FeedS → FeedS) : (s.modFeed c f).arrayTime = s.arrayTime := rfl
@[simp] theorem State.modFeed_freeCtr (s : State) (c : Fin 4) (f : FeedS → FeedS) : (s.modFeed c f).freeCtr = s.freeCtr := rfl
@[simp] theorem State.modFeed_hub (s : State) (c : Fin 4) (f : FeedS → FeedS) : (s.modFeed c f).hub = s.hub := rfl
@[simp] theorem State.modFeed_cores (s : State) (c : Fin 4) (f : FeedS → FeedS) : (s.modFeed c f).cores = s.cores := rfl
@[simp] theorem State.modFeed_arrays (s : State) (c : Fin 4) (f : FeedS → FeedS) : (s.modFeed c f).arrays = s.arrays := rfl
@[simp] theorem State.modFeed_hbm (s : State) (c : Fin 4) (f : FeedS → FeedS) : (s.modFeed c f).hbm = s.hbm := rfl
@[simp] theorem State.modFeed_tiers (s : State) (c : Fin 4) (f : FeedS → FeedS) : (s.modFeed c f).tiers = s.tiers := rfl
@[simp] theorem State.modFeed_faults (s : State) (c : Fin 4) (f : FeedS → FeedS) : (s.modFeed c f).faults = s.faults := rfl
@[simp] theorem State.modFeed_blks (s : State) (c : Fin 4) (f : FeedS → FeedS) : (s.modFeed c f).blks = s.blks := rfl
@[simp] theorem State.modFeed_links (s : State) (c : Fin 4) (f : FeedS → FeedS) : (s.modFeed c f).links = s.links := rfl
@[simp] theorem State.modFeed_fabric (s : State) (c : Fin 4) (f : FeedS → FeedS) : (s.modFeed c f).fabric = s.fabric := rfl
@[simp] theorem State.modFeed_power (s : State) (c : Fin 4) (f : FeedS → FeedS) : (s.modFeed c f).power = s.power := rfl
@[simp] theorem State.modFeed_clock (s : State) (c : Fin 4) (f : FeedS → FeedS) : (s.modFeed c f).clock = s.clock := rfl
@[simp] theorem State.modFeed_roles (s : State) (c : Fin 4) (f : FeedS → FeedS) : (s.modFeed c f).roles = s.roles := rfl
@[simp] theorem State.modFeed_sec (s : State) (c : Fin 4) (f : FeedS → FeedS) : (s.modFeed c f).sec = s.sec := rfl
@[simp] theorem State.modFeed_board (s : State) (c : Fin 4) (f : FeedS → FeedS) : (s.modFeed c f).board = s.board := rfl
@[simp] theorem State.modFeed_ctx (s : State) (c : Fin 4) (f : FeedS → FeedS) (y : Fin 16) : (s.modFeed c f).ctx y = s.ctx y := rfl
@[simp] theorem State.modFeed_core (s : State) (c : Fin 4) (f : FeedS → FeedS) (e : Fin 4) : (s.modFeed c f).core e = s.core e := rfl
@[simp] theorem State.modFeed_arr (s : State) (c : Fin 4) (f : FeedS → FeedS) (e : Fin 8) : (s.modFeed c f).arr e = s.arr e := rfl
@[simp] theorem State.modFeed_stack (s : State) (c : Fin 4) (f : FeedS → FeedS) (m : Fin 12) : (s.modFeed c f).stack m = s.stack m := rfl
@[simp] theorem State.modFeed_cc (s : State) (c : Fin 4) (f : FeedS → FeedS) (y : Fin 16) (e : Fin 4) : (s.modFeed c f).cc y e = s.cc y e := rfl

/-! ## modArr -/

@[simp] theorem State.modArr_pending (s : State) (a : Fin 8) (f : ArrayS → ArrayS) : (s.modArr a f).pending = s.pending := rfl
@[simp] theorem State.modArr_pilot (s : State) (a : Fin 8) (f : ArrayS → ArrayS) : (s.modArr a f).pilot = s.pilot := rfl
@[simp] theorem State.modArr_arrayTime (s : State) (a : Fin 8) (f : ArrayS → ArrayS) : (s.modArr a f).arrayTime = s.arrayTime := rfl
@[simp] theorem State.modArr_freeCtr (s : State) (a : Fin 8) (f : ArrayS → ArrayS) : (s.modArr a f).freeCtr = s.freeCtr := rfl
@[simp] theorem State.modArr_hub (s : State) (a : Fin 8) (f : ArrayS → ArrayS) : (s.modArr a f).hub = s.hub := rfl
@[simp] theorem State.modArr_cores (s : State) (a : Fin 8) (f : ArrayS → ArrayS) : (s.modArr a f).cores = s.cores := rfl
@[simp] theorem State.modArr_feeds (s : State) (a : Fin 8) (f : ArrayS → ArrayS) : (s.modArr a f).feeds = s.feeds := rfl
@[simp] theorem State.modArr_hbm (s : State) (a : Fin 8) (f : ArrayS → ArrayS) : (s.modArr a f).hbm = s.hbm := rfl
@[simp] theorem State.modArr_tiers (s : State) (a : Fin 8) (f : ArrayS → ArrayS) : (s.modArr a f).tiers = s.tiers := rfl
@[simp] theorem State.modArr_faults (s : State) (a : Fin 8) (f : ArrayS → ArrayS) : (s.modArr a f).faults = s.faults := rfl
@[simp] theorem State.modArr_blks (s : State) (a : Fin 8) (f : ArrayS → ArrayS) : (s.modArr a f).blks = s.blks := rfl
@[simp] theorem State.modArr_links (s : State) (a : Fin 8) (f : ArrayS → ArrayS) : (s.modArr a f).links = s.links := rfl
@[simp] theorem State.modArr_fabric (s : State) (a : Fin 8) (f : ArrayS → ArrayS) : (s.modArr a f).fabric = s.fabric := rfl
@[simp] theorem State.modArr_power (s : State) (a : Fin 8) (f : ArrayS → ArrayS) : (s.modArr a f).power = s.power := rfl
@[simp] theorem State.modArr_clock (s : State) (a : Fin 8) (f : ArrayS → ArrayS) : (s.modArr a f).clock = s.clock := rfl
@[simp] theorem State.modArr_roles (s : State) (a : Fin 8) (f : ArrayS → ArrayS) : (s.modArr a f).roles = s.roles := rfl
@[simp] theorem State.modArr_sec (s : State) (a : Fin 8) (f : ArrayS → ArrayS) : (s.modArr a f).sec = s.sec := rfl
@[simp] theorem State.modArr_board (s : State) (a : Fin 8) (f : ArrayS → ArrayS) : (s.modArr a f).board = s.board := rfl
@[simp] theorem State.modArr_ctx (s : State) (a : Fin 8) (f : ArrayS → ArrayS) (y : Fin 16) : (s.modArr a f).ctx y = s.ctx y := rfl
@[simp] theorem State.modArr_core (s : State) (a : Fin 8) (f : ArrayS → ArrayS) (e : Fin 4) : (s.modArr a f).core e = s.core e := rfl
@[simp] theorem State.modArr_feed (s : State) (a : Fin 8) (f : ArrayS → ArrayS) (e : Fin 4) : (s.modArr a f).feed e = s.feed e := rfl
@[simp] theorem State.modArr_stack (s : State) (a : Fin 8) (f : ArrayS → ArrayS) (m : Fin 12) : (s.modArr a f).stack m = s.stack m := rfl
@[simp] theorem State.modArr_cc (s : State) (a : Fin 8) (f : ArrayS → ArrayS) (y : Fin 16) (e : Fin 4) : (s.modArr a f).cc y e = s.cc y e := rfl

/-! ## modStack -/

@[simp] theorem State.modStack_pending (s : State) (n : Fin 12) (f : StackS → StackS) : (s.modStack n f).pending = s.pending := rfl
@[simp] theorem State.modStack_pilot (s : State) (n : Fin 12) (f : StackS → StackS) : (s.modStack n f).pilot = s.pilot := rfl
@[simp] theorem State.modStack_arrayTime (s : State) (n : Fin 12) (f : StackS → StackS) : (s.modStack n f).arrayTime = s.arrayTime := rfl
@[simp] theorem State.modStack_freeCtr (s : State) (n : Fin 12) (f : StackS → StackS) : (s.modStack n f).freeCtr = s.freeCtr := rfl
@[simp] theorem State.modStack_hub (s : State) (n : Fin 12) (f : StackS → StackS) : (s.modStack n f).hub = s.hub := rfl
@[simp] theorem State.modStack_cores (s : State) (n : Fin 12) (f : StackS → StackS) : (s.modStack n f).cores = s.cores := rfl
@[simp] theorem State.modStack_arrays (s : State) (n : Fin 12) (f : StackS → StackS) : (s.modStack n f).arrays = s.arrays := rfl
@[simp] theorem State.modStack_feeds (s : State) (n : Fin 12) (f : StackS → StackS) : (s.modStack n f).feeds = s.feeds := rfl
@[simp] theorem State.modStack_tiers (s : State) (n : Fin 12) (f : StackS → StackS) : (s.modStack n f).tiers = s.tiers := rfl
@[simp] theorem State.modStack_faults (s : State) (n : Fin 12) (f : StackS → StackS) : (s.modStack n f).faults = s.faults := rfl
@[simp] theorem State.modStack_blks (s : State) (n : Fin 12) (f : StackS → StackS) : (s.modStack n f).blks = s.blks := rfl
@[simp] theorem State.modStack_links (s : State) (n : Fin 12) (f : StackS → StackS) : (s.modStack n f).links = s.links := rfl
@[simp] theorem State.modStack_fabric (s : State) (n : Fin 12) (f : StackS → StackS) : (s.modStack n f).fabric = s.fabric := rfl
@[simp] theorem State.modStack_power (s : State) (n : Fin 12) (f : StackS → StackS) : (s.modStack n f).power = s.power := rfl
@[simp] theorem State.modStack_clock (s : State) (n : Fin 12) (f : StackS → StackS) : (s.modStack n f).clock = s.clock := rfl
@[simp] theorem State.modStack_roles (s : State) (n : Fin 12) (f : StackS → StackS) : (s.modStack n f).roles = s.roles := rfl
@[simp] theorem State.modStack_sec (s : State) (n : Fin 12) (f : StackS → StackS) : (s.modStack n f).sec = s.sec := rfl
@[simp] theorem State.modStack_board (s : State) (n : Fin 12) (f : StackS → StackS) : (s.modStack n f).board = s.board := rfl
@[simp] theorem State.modStack_ctx (s : State) (n : Fin 12) (f : StackS → StackS) (y : Fin 16) : (s.modStack n f).ctx y = s.ctx y := rfl
@[simp] theorem State.modStack_core (s : State) (n : Fin 12) (f : StackS → StackS) (e : Fin 4) : (s.modStack n f).core e = s.core e := rfl
@[simp] theorem State.modStack_feed (s : State) (n : Fin 12) (f : StackS → StackS) (e : Fin 4) : (s.modStack n f).feed e = s.feed e := rfl
@[simp] theorem State.modStack_arr (s : State) (n : Fin 12) (f : StackS → StackS) (e : Fin 8) : (s.modStack n f).arr e = s.arr e := rfl
@[simp] theorem State.modStack_cc (s : State) (n : Fin 12) (f : StackS → StackS) (y : Fin 16) (e : Fin 4) : (s.modStack n f).cc y e = s.cc y e := rfl

/-! ## modTiers -/

@[simp] theorem State.modTiers_pending (s : State) (f : Tiers → Tiers) : (s.modTiers f).pending = s.pending := rfl
@[simp] theorem State.modTiers_pilot (s : State) (f : Tiers → Tiers) : (s.modTiers f).pilot = s.pilot := rfl
@[simp] theorem State.modTiers_arrayTime (s : State) (f : Tiers → Tiers) : (s.modTiers f).arrayTime = s.arrayTime := rfl
@[simp] theorem State.modTiers_freeCtr (s : State) (f : Tiers → Tiers) : (s.modTiers f).freeCtr = s.freeCtr := rfl
@[simp] theorem State.modTiers_hub (s : State) (f : Tiers → Tiers) : (s.modTiers f).hub = s.hub := rfl
@[simp] theorem State.modTiers_cores (s : State) (f : Tiers → Tiers) : (s.modTiers f).cores = s.cores := rfl
@[simp] theorem State.modTiers_arrays (s : State) (f : Tiers → Tiers) : (s.modTiers f).arrays = s.arrays := rfl
@[simp] theorem State.modTiers_feeds (s : State) (f : Tiers → Tiers) : (s.modTiers f).feeds = s.feeds := rfl
@[simp] theorem State.modTiers_hbm (s : State) (f : Tiers → Tiers) : (s.modTiers f).hbm = s.hbm := rfl
@[simp] theorem State.modTiers_faults (s : State) (f : Tiers → Tiers) : (s.modTiers f).faults = s.faults := rfl
@[simp] theorem State.modTiers_blks (s : State) (f : Tiers → Tiers) : (s.modTiers f).blks = s.blks := rfl
@[simp] theorem State.modTiers_links (s : State) (f : Tiers → Tiers) : (s.modTiers f).links = s.links := rfl
@[simp] theorem State.modTiers_fabric (s : State) (f : Tiers → Tiers) : (s.modTiers f).fabric = s.fabric := rfl
@[simp] theorem State.modTiers_power (s : State) (f : Tiers → Tiers) : (s.modTiers f).power = s.power := rfl
@[simp] theorem State.modTiers_clock (s : State) (f : Tiers → Tiers) : (s.modTiers f).clock = s.clock := rfl
@[simp] theorem State.modTiers_roles (s : State) (f : Tiers → Tiers) : (s.modTiers f).roles = s.roles := rfl
@[simp] theorem State.modTiers_sec (s : State) (f : Tiers → Tiers) : (s.modTiers f).sec = s.sec := rfl
@[simp] theorem State.modTiers_board (s : State) (f : Tiers → Tiers) : (s.modTiers f).board = s.board := rfl
@[simp] theorem State.modTiers_ctx (s : State) (f : Tiers → Tiers) (y : Fin 16) : (s.modTiers f).ctx y = s.ctx y := rfl
@[simp] theorem State.modTiers_core (s : State) (f : Tiers → Tiers) (e : Fin 4) : (s.modTiers f).core e = s.core e := rfl
@[simp] theorem State.modTiers_feed (s : State) (f : Tiers → Tiers) (e : Fin 4) : (s.modTiers f).feed e = s.feed e := rfl
@[simp] theorem State.modTiers_arr (s : State) (f : Tiers → Tiers) (e : Fin 8) : (s.modTiers f).arr e = s.arr e := rfl
@[simp] theorem State.modTiers_stack (s : State) (f : Tiers → Tiers) (m : Fin 12) : (s.modTiers f).stack m = s.stack m := rfl
@[simp] theorem State.modTiers_cc (s : State) (f : Tiers → Tiers) (y : Fin 16) (e : Fin 4) : (s.modTiers f).cc y e = s.cc y e := rfl

/-! ## modAcct -/

@[simp] theorem State.modAcct_pending (s : State) (n : Nat) (f : MigrateAcct → MigrateAcct) : (s.modAcct n f).pending = s.pending := rfl
@[simp] theorem State.modAcct_pilot (s : State) (n : Nat) (f : MigrateAcct → MigrateAcct) : (s.modAcct n f).pilot = s.pilot := rfl
@[simp] theorem State.modAcct_arrayTime (s : State) (n : Nat) (f : MigrateAcct → MigrateAcct) : (s.modAcct n f).arrayTime = s.arrayTime := rfl
@[simp] theorem State.modAcct_freeCtr (s : State) (n : Nat) (f : MigrateAcct → MigrateAcct) : (s.modAcct n f).freeCtr = s.freeCtr := rfl
@[simp] theorem State.modAcct_hub (s : State) (n : Nat) (f : MigrateAcct → MigrateAcct) : (s.modAcct n f).hub = s.hub := rfl
@[simp] theorem State.modAcct_cores (s : State) (n : Nat) (f : MigrateAcct → MigrateAcct) : (s.modAcct n f).cores = s.cores := rfl
@[simp] theorem State.modAcct_arrays (s : State) (n : Nat) (f : MigrateAcct → MigrateAcct) : (s.modAcct n f).arrays = s.arrays := rfl
@[simp] theorem State.modAcct_feeds (s : State) (n : Nat) (f : MigrateAcct → MigrateAcct) : (s.modAcct n f).feeds = s.feeds := rfl
@[simp] theorem State.modAcct_hbm (s : State) (n : Nat) (f : MigrateAcct → MigrateAcct) : (s.modAcct n f).hbm = s.hbm := rfl
@[simp] theorem State.modAcct_faults (s : State) (n : Nat) (f : MigrateAcct → MigrateAcct) : (s.modAcct n f).faults = s.faults := rfl
@[simp] theorem State.modAcct_blks (s : State) (n : Nat) (f : MigrateAcct → MigrateAcct) : (s.modAcct n f).blks = s.blks := rfl
@[simp] theorem State.modAcct_links (s : State) (n : Nat) (f : MigrateAcct → MigrateAcct) : (s.modAcct n f).links = s.links := rfl
@[simp] theorem State.modAcct_fabric (s : State) (n : Nat) (f : MigrateAcct → MigrateAcct) : (s.modAcct n f).fabric = s.fabric := rfl
@[simp] theorem State.modAcct_power (s : State) (n : Nat) (f : MigrateAcct → MigrateAcct) : (s.modAcct n f).power = s.power := rfl
@[simp] theorem State.modAcct_clock (s : State) (n : Nat) (f : MigrateAcct → MigrateAcct) : (s.modAcct n f).clock = s.clock := rfl
@[simp] theorem State.modAcct_roles (s : State) (n : Nat) (f : MigrateAcct → MigrateAcct) : (s.modAcct n f).roles = s.roles := rfl
@[simp] theorem State.modAcct_sec (s : State) (n : Nat) (f : MigrateAcct → MigrateAcct) : (s.modAcct n f).sec = s.sec := rfl
@[simp] theorem State.modAcct_board (s : State) (n : Nat) (f : MigrateAcct → MigrateAcct) : (s.modAcct n f).board = s.board := rfl
@[simp] theorem State.modAcct_ctx (s : State) (n : Nat) (f : MigrateAcct → MigrateAcct) (y : Fin 16) : (s.modAcct n f).ctx y = s.ctx y := rfl
@[simp] theorem State.modAcct_core (s : State) (n : Nat) (f : MigrateAcct → MigrateAcct) (e : Fin 4) : (s.modAcct n f).core e = s.core e := rfl
@[simp] theorem State.modAcct_feed (s : State) (n : Nat) (f : MigrateAcct → MigrateAcct) (e : Fin 4) : (s.modAcct n f).feed e = s.feed e := rfl
@[simp] theorem State.modAcct_arr (s : State) (n : Nat) (f : MigrateAcct → MigrateAcct) (e : Fin 8) : (s.modAcct n f).arr e = s.arr e := rfl
@[simp] theorem State.modAcct_stack (s : State) (n : Nat) (f : MigrateAcct → MigrateAcct) (m : Fin 12) : (s.modAcct n f).stack m = s.stack m := rfl
@[simp] theorem State.modAcct_cc (s : State) (n : Nat) (f : MigrateAcct → MigrateAcct) (y : Fin 16) (e : Fin 4) : (s.modAcct n f).cc y e = s.cc y e := rfl

/-! ## modFaults -/

@[simp] theorem State.modFaults_pending (s : State) (f : Faults → Faults) : (s.modFaults f).pending = s.pending := rfl
@[simp] theorem State.modFaults_pilot (s : State) (f : Faults → Faults) : (s.modFaults f).pilot = s.pilot := rfl
@[simp] theorem State.modFaults_arrayTime (s : State) (f : Faults → Faults) : (s.modFaults f).arrayTime = s.arrayTime := rfl
@[simp] theorem State.modFaults_freeCtr (s : State) (f : Faults → Faults) : (s.modFaults f).freeCtr = s.freeCtr := rfl
@[simp] theorem State.modFaults_hub (s : State) (f : Faults → Faults) : (s.modFaults f).hub = s.hub := rfl
@[simp] theorem State.modFaults_cores (s : State) (f : Faults → Faults) : (s.modFaults f).cores = s.cores := rfl
@[simp] theorem State.modFaults_arrays (s : State) (f : Faults → Faults) : (s.modFaults f).arrays = s.arrays := rfl
@[simp] theorem State.modFaults_feeds (s : State) (f : Faults → Faults) : (s.modFaults f).feeds = s.feeds := rfl
@[simp] theorem State.modFaults_hbm (s : State) (f : Faults → Faults) : (s.modFaults f).hbm = s.hbm := rfl
@[simp] theorem State.modFaults_tiers (s : State) (f : Faults → Faults) : (s.modFaults f).tiers = s.tiers := rfl
@[simp] theorem State.modFaults_blks (s : State) (f : Faults → Faults) : (s.modFaults f).blks = s.blks := rfl
@[simp] theorem State.modFaults_links (s : State) (f : Faults → Faults) : (s.modFaults f).links = s.links := rfl
@[simp] theorem State.modFaults_fabric (s : State) (f : Faults → Faults) : (s.modFaults f).fabric = s.fabric := rfl
@[simp] theorem State.modFaults_power (s : State) (f : Faults → Faults) : (s.modFaults f).power = s.power := rfl
@[simp] theorem State.modFaults_clock (s : State) (f : Faults → Faults) : (s.modFaults f).clock = s.clock := rfl
@[simp] theorem State.modFaults_roles (s : State) (f : Faults → Faults) : (s.modFaults f).roles = s.roles := rfl
@[simp] theorem State.modFaults_sec (s : State) (f : Faults → Faults) : (s.modFaults f).sec = s.sec := rfl
@[simp] theorem State.modFaults_board (s : State) (f : Faults → Faults) : (s.modFaults f).board = s.board := rfl
@[simp] theorem State.modFaults_ctx (s : State) (f : Faults → Faults) (y : Fin 16) : (s.modFaults f).ctx y = s.ctx y := rfl
@[simp] theorem State.modFaults_core (s : State) (f : Faults → Faults) (e : Fin 4) : (s.modFaults f).core e = s.core e := rfl
@[simp] theorem State.modFaults_feed (s : State) (f : Faults → Faults) (e : Fin 4) : (s.modFaults f).feed e = s.feed e := rfl
@[simp] theorem State.modFaults_arr (s : State) (f : Faults → Faults) (e : Fin 8) : (s.modFaults f).arr e = s.arr e := rfl
@[simp] theorem State.modFaults_stack (s : State) (f : Faults → Faults) (m : Fin 12) : (s.modFaults f).stack m = s.stack m := rfl
@[simp] theorem State.modFaults_cc (s : State) (f : Faults → Faults) (y : Fin 16) (e : Fin 4) : (s.modFaults f).cc y e = s.cc y e := rfl

/-! ## detect -/

@[simp] theorem State.detect_pending (s : State) (f : FaultRec) : (s.detect f).pending = s.pending := rfl
@[simp] theorem State.detect_pilot (s : State) (f : FaultRec) : (s.detect f).pilot = s.pilot := rfl
@[simp] theorem State.detect_arrayTime (s : State) (f : FaultRec) : (s.detect f).arrayTime = s.arrayTime := rfl
@[simp] theorem State.detect_freeCtr (s : State) (f : FaultRec) : (s.detect f).freeCtr = s.freeCtr := rfl
@[simp] theorem State.detect_hub (s : State) (f : FaultRec) : (s.detect f).hub = s.hub := rfl
@[simp] theorem State.detect_cores (s : State) (f : FaultRec) : (s.detect f).cores = s.cores := rfl
@[simp] theorem State.detect_arrays (s : State) (f : FaultRec) : (s.detect f).arrays = s.arrays := rfl
@[simp] theorem State.detect_feeds (s : State) (f : FaultRec) : (s.detect f).feeds = s.feeds := rfl
@[simp] theorem State.detect_hbm (s : State) (f : FaultRec) : (s.detect f).hbm = s.hbm := rfl
@[simp] theorem State.detect_tiers (s : State) (f : FaultRec) : (s.detect f).tiers = s.tiers := rfl
@[simp] theorem State.detect_blks (s : State) (f : FaultRec) : (s.detect f).blks = s.blks := rfl
@[simp] theorem State.detect_links (s : State) (f : FaultRec) : (s.detect f).links = s.links := rfl
@[simp] theorem State.detect_fabric (s : State) (f : FaultRec) : (s.detect f).fabric = s.fabric := rfl
@[simp] theorem State.detect_power (s : State) (f : FaultRec) : (s.detect f).power = s.power := rfl
@[simp] theorem State.detect_clock (s : State) (f : FaultRec) : (s.detect f).clock = s.clock := rfl
@[simp] theorem State.detect_roles (s : State) (f : FaultRec) : (s.detect f).roles = s.roles := rfl
@[simp] theorem State.detect_sec (s : State) (f : FaultRec) : (s.detect f).sec = s.sec := rfl
@[simp] theorem State.detect_board (s : State) (f : FaultRec) : (s.detect f).board = s.board := rfl
@[simp] theorem State.detect_ctx (s : State) (f : FaultRec) (y : Fin 16) : (s.detect f).ctx y = s.ctx y := rfl
@[simp] theorem State.detect_core (s : State) (f : FaultRec) (e : Fin 4) : (s.detect f).core e = s.core e := rfl
@[simp] theorem State.detect_feed (s : State) (f : FaultRec) (e : Fin 4) : (s.detect f).feed e = s.feed e := rfl
@[simp] theorem State.detect_arr (s : State) (f : FaultRec) (e : Fin 8) : (s.detect f).arr e = s.arr e := rfl
@[simp] theorem State.detect_stack (s : State) (f : FaultRec) (m : Fin 12) : (s.detect f).stack m = s.stack m := rfl
@[simp] theorem State.detect_cc (s : State) (f : FaultRec) (y : Fin 16) (e : Fin 4) : (s.detect f).cc y e = s.cc y e := rfl

/-! ## modBlk -/

@[simp] theorem State.modBlk_pending (s : State) (b : Fin 36) (f : Blk → Blk) : (s.modBlk b f).pending = s.pending := rfl
@[simp] theorem State.modBlk_pilot (s : State) (b : Fin 36) (f : Blk → Blk) : (s.modBlk b f).pilot = s.pilot := rfl
@[simp] theorem State.modBlk_arrayTime (s : State) (b : Fin 36) (f : Blk → Blk) : (s.modBlk b f).arrayTime = s.arrayTime := rfl
@[simp] theorem State.modBlk_freeCtr (s : State) (b : Fin 36) (f : Blk → Blk) : (s.modBlk b f).freeCtr = s.freeCtr := rfl
@[simp] theorem State.modBlk_hub (s : State) (b : Fin 36) (f : Blk → Blk) : (s.modBlk b f).hub = s.hub := rfl
@[simp] theorem State.modBlk_cores (s : State) (b : Fin 36) (f : Blk → Blk) : (s.modBlk b f).cores = s.cores := rfl
@[simp] theorem State.modBlk_arrays (s : State) (b : Fin 36) (f : Blk → Blk) : (s.modBlk b f).arrays = s.arrays := rfl
@[simp] theorem State.modBlk_feeds (s : State) (b : Fin 36) (f : Blk → Blk) : (s.modBlk b f).feeds = s.feeds := rfl
@[simp] theorem State.modBlk_hbm (s : State) (b : Fin 36) (f : Blk → Blk) : (s.modBlk b f).hbm = s.hbm := rfl
@[simp] theorem State.modBlk_tiers (s : State) (b : Fin 36) (f : Blk → Blk) : (s.modBlk b f).tiers = s.tiers := rfl
@[simp] theorem State.modBlk_faults (s : State) (b : Fin 36) (f : Blk → Blk) : (s.modBlk b f).faults = s.faults := rfl
@[simp] theorem State.modBlk_links (s : State) (b : Fin 36) (f : Blk → Blk) : (s.modBlk b f).links = s.links := rfl
@[simp] theorem State.modBlk_fabric (s : State) (b : Fin 36) (f : Blk → Blk) : (s.modBlk b f).fabric = s.fabric := rfl
@[simp] theorem State.modBlk_power (s : State) (b : Fin 36) (f : Blk → Blk) : (s.modBlk b f).power = s.power := rfl
@[simp] theorem State.modBlk_clock (s : State) (b : Fin 36) (f : Blk → Blk) : (s.modBlk b f).clock = s.clock := rfl
@[simp] theorem State.modBlk_roles (s : State) (b : Fin 36) (f : Blk → Blk) : (s.modBlk b f).roles = s.roles := rfl
@[simp] theorem State.modBlk_sec (s : State) (b : Fin 36) (f : Blk → Blk) : (s.modBlk b f).sec = s.sec := rfl
@[simp] theorem State.modBlk_board (s : State) (b : Fin 36) (f : Blk → Blk) : (s.modBlk b f).board = s.board := rfl
@[simp] theorem State.modBlk_ctx (s : State) (b : Fin 36) (f : Blk → Blk) (y : Fin 16) : (s.modBlk b f).ctx y = s.ctx y := rfl
@[simp] theorem State.modBlk_core (s : State) (b : Fin 36) (f : Blk → Blk) (e : Fin 4) : (s.modBlk b f).core e = s.core e := rfl
@[simp] theorem State.modBlk_feed (s : State) (b : Fin 36) (f : Blk → Blk) (e : Fin 4) : (s.modBlk b f).feed e = s.feed e := rfl
@[simp] theorem State.modBlk_arr (s : State) (b : Fin 36) (f : Blk → Blk) (e : Fin 8) : (s.modBlk b f).arr e = s.arr e := rfl
@[simp] theorem State.modBlk_stack (s : State) (b : Fin 36) (f : Blk → Blk) (m : Fin 12) : (s.modBlk b f).stack m = s.stack m := rfl
@[simp] theorem State.modBlk_cc (s : State) (b : Fin 36) (f : Blk → Blk) (y : Fin 16) (e : Fin 4) : (s.modBlk b f).cc y e = s.cc y e := rfl

/-! ## dropWrite -/

@[simp] theorem State.dropWrite_pending (s : State) (n : Nat) : (s.dropWrite n).pending = s.pending := rfl
@[simp] theorem State.dropWrite_pilot (s : State) (n : Nat) : (s.dropWrite n).pilot = s.pilot := rfl
@[simp] theorem State.dropWrite_arrayTime (s : State) (n : Nat) : (s.dropWrite n).arrayTime = s.arrayTime := rfl
@[simp] theorem State.dropWrite_freeCtr (s : State) (n : Nat) : (s.dropWrite n).freeCtr = s.freeCtr := rfl
@[simp] theorem State.dropWrite_hub (s : State) (n : Nat) : (s.dropWrite n).hub = s.hub := rfl
@[simp] theorem State.dropWrite_cores (s : State) (n : Nat) : (s.dropWrite n).cores = s.cores := rfl
@[simp] theorem State.dropWrite_arrays (s : State) (n : Nat) : (s.dropWrite n).arrays = s.arrays := rfl
@[simp] theorem State.dropWrite_feeds (s : State) (n : Nat) : (s.dropWrite n).feeds = s.feeds := rfl
@[simp] theorem State.dropWrite_hbm (s : State) (n : Nat) : (s.dropWrite n).hbm = s.hbm := rfl
@[simp] theorem State.dropWrite_tiers (s : State) (n : Nat) : (s.dropWrite n).tiers = s.tiers := rfl
@[simp] theorem State.dropWrite_faults (s : State) (n : Nat) : (s.dropWrite n).faults = s.faults := rfl
@[simp] theorem State.dropWrite_links (s : State) (n : Nat) : (s.dropWrite n).links = s.links := rfl
@[simp] theorem State.dropWrite_fabric (s : State) (n : Nat) : (s.dropWrite n).fabric = s.fabric := rfl
@[simp] theorem State.dropWrite_power (s : State) (n : Nat) : (s.dropWrite n).power = s.power := rfl
@[simp] theorem State.dropWrite_clock (s : State) (n : Nat) : (s.dropWrite n).clock = s.clock := rfl
@[simp] theorem State.dropWrite_roles (s : State) (n : Nat) : (s.dropWrite n).roles = s.roles := rfl
@[simp] theorem State.dropWrite_sec (s : State) (n : Nat) : (s.dropWrite n).sec = s.sec := rfl
@[simp] theorem State.dropWrite_board (s : State) (n : Nat) : (s.dropWrite n).board = s.board := rfl
@[simp] theorem State.dropWrite_ctx (s : State) (n : Nat) (y : Fin 16) : (s.dropWrite n).ctx y = s.ctx y := rfl
@[simp] theorem State.dropWrite_core (s : State) (n : Nat) (e : Fin 4) : (s.dropWrite n).core e = s.core e := rfl
@[simp] theorem State.dropWrite_feed (s : State) (n : Nat) (e : Fin 4) : (s.dropWrite n).feed e = s.feed e := rfl
@[simp] theorem State.dropWrite_arr (s : State) (n : Nat) (e : Fin 8) : (s.dropWrite n).arr e = s.arr e := rfl
@[simp] theorem State.dropWrite_stack (s : State) (n : Nat) (m : Fin 12) : (s.dropWrite n).stack m = s.stack m := rfl
@[simp] theorem State.dropWrite_cc (s : State) (n : Nat) (y : Fin 16) (e : Fin 4) : (s.dropWrite n).cc y e = s.cc y e := rfl

/-! ## modLink -/

@[simp] theorem State.modLink_pending (s : State) (l : Fin 4) (f : LinkS → LinkS) : (s.modLink l f).pending = s.pending := rfl
@[simp] theorem State.modLink_pilot (s : State) (l : Fin 4) (f : LinkS → LinkS) : (s.modLink l f).pilot = s.pilot := rfl
@[simp] theorem State.modLink_arrayTime (s : State) (l : Fin 4) (f : LinkS → LinkS) : (s.modLink l f).arrayTime = s.arrayTime := rfl
@[simp] theorem State.modLink_freeCtr (s : State) (l : Fin 4) (f : LinkS → LinkS) : (s.modLink l f).freeCtr = s.freeCtr := rfl
@[simp] theorem State.modLink_hub (s : State) (l : Fin 4) (f : LinkS → LinkS) : (s.modLink l f).hub = s.hub := rfl
@[simp] theorem State.modLink_cores (s : State) (l : Fin 4) (f : LinkS → LinkS) : (s.modLink l f).cores = s.cores := rfl
@[simp] theorem State.modLink_arrays (s : State) (l : Fin 4) (f : LinkS → LinkS) : (s.modLink l f).arrays = s.arrays := rfl
@[simp] theorem State.modLink_feeds (s : State) (l : Fin 4) (f : LinkS → LinkS) : (s.modLink l f).feeds = s.feeds := rfl
@[simp] theorem State.modLink_hbm (s : State) (l : Fin 4) (f : LinkS → LinkS) : (s.modLink l f).hbm = s.hbm := rfl
@[simp] theorem State.modLink_tiers (s : State) (l : Fin 4) (f : LinkS → LinkS) : (s.modLink l f).tiers = s.tiers := rfl
@[simp] theorem State.modLink_faults (s : State) (l : Fin 4) (f : LinkS → LinkS) : (s.modLink l f).faults = s.faults := rfl
@[simp] theorem State.modLink_blks (s : State) (l : Fin 4) (f : LinkS → LinkS) : (s.modLink l f).blks = s.blks := rfl
@[simp] theorem State.modLink_fabric (s : State) (l : Fin 4) (f : LinkS → LinkS) : (s.modLink l f).fabric = s.fabric := rfl
@[simp] theorem State.modLink_power (s : State) (l : Fin 4) (f : LinkS → LinkS) : (s.modLink l f).power = s.power := rfl
@[simp] theorem State.modLink_clock (s : State) (l : Fin 4) (f : LinkS → LinkS) : (s.modLink l f).clock = s.clock := rfl
@[simp] theorem State.modLink_roles (s : State) (l : Fin 4) (f : LinkS → LinkS) : (s.modLink l f).roles = s.roles := rfl
@[simp] theorem State.modLink_sec (s : State) (l : Fin 4) (f : LinkS → LinkS) : (s.modLink l f).sec = s.sec := rfl
@[simp] theorem State.modLink_board (s : State) (l : Fin 4) (f : LinkS → LinkS) : (s.modLink l f).board = s.board := rfl
@[simp] theorem State.modLink_ctx (s : State) (l : Fin 4) (f : LinkS → LinkS) (y : Fin 16) : (s.modLink l f).ctx y = s.ctx y := rfl
@[simp] theorem State.modLink_core (s : State) (l : Fin 4) (f : LinkS → LinkS) (e : Fin 4) : (s.modLink l f).core e = s.core e := rfl
@[simp] theorem State.modLink_feed (s : State) (l : Fin 4) (f : LinkS → LinkS) (e : Fin 4) : (s.modLink l f).feed e = s.feed e := rfl
@[simp] theorem State.modLink_arr (s : State) (l : Fin 4) (f : LinkS → LinkS) (e : Fin 8) : (s.modLink l f).arr e = s.arr e := rfl
@[simp] theorem State.modLink_stack (s : State) (l : Fin 4) (f : LinkS → LinkS) (m : Fin 12) : (s.modLink l f).stack m = s.stack m := rfl
@[simp] theorem State.modLink_cc (s : State) (l : Fin 4) (f : LinkS → LinkS) (y : Fin 16) (e : Fin 4) : (s.modLink l f).cc y e = s.cc y e := rfl

/-! ## modFabric -/

@[simp] theorem State.modFabric_pending (s : State) (f : Fabric → Fabric) : (s.modFabric f).pending = s.pending := rfl
@[simp] theorem State.modFabric_pilot (s : State) (f : Fabric → Fabric) : (s.modFabric f).pilot = s.pilot := rfl
@[simp] theorem State.modFabric_arrayTime (s : State) (f : Fabric → Fabric) : (s.modFabric f).arrayTime = s.arrayTime := rfl
@[simp] theorem State.modFabric_freeCtr (s : State) (f : Fabric → Fabric) : (s.modFabric f).freeCtr = s.freeCtr := rfl
@[simp] theorem State.modFabric_hub (s : State) (f : Fabric → Fabric) : (s.modFabric f).hub = s.hub := rfl
@[simp] theorem State.modFabric_cores (s : State) (f : Fabric → Fabric) : (s.modFabric f).cores = s.cores := rfl
@[simp] theorem State.modFabric_arrays (s : State) (f : Fabric → Fabric) : (s.modFabric f).arrays = s.arrays := rfl
@[simp] theorem State.modFabric_feeds (s : State) (f : Fabric → Fabric) : (s.modFabric f).feeds = s.feeds := rfl
@[simp] theorem State.modFabric_hbm (s : State) (f : Fabric → Fabric) : (s.modFabric f).hbm = s.hbm := rfl
@[simp] theorem State.modFabric_tiers (s : State) (f : Fabric → Fabric) : (s.modFabric f).tiers = s.tiers := rfl
@[simp] theorem State.modFabric_faults (s : State) (f : Fabric → Fabric) : (s.modFabric f).faults = s.faults := rfl
@[simp] theorem State.modFabric_blks (s : State) (f : Fabric → Fabric) : (s.modFabric f).blks = s.blks := rfl
@[simp] theorem State.modFabric_links (s : State) (f : Fabric → Fabric) : (s.modFabric f).links = s.links := rfl
@[simp] theorem State.modFabric_power (s : State) (f : Fabric → Fabric) : (s.modFabric f).power = s.power := rfl
@[simp] theorem State.modFabric_clock (s : State) (f : Fabric → Fabric) : (s.modFabric f).clock = s.clock := rfl
@[simp] theorem State.modFabric_roles (s : State) (f : Fabric → Fabric) : (s.modFabric f).roles = s.roles := rfl
@[simp] theorem State.modFabric_sec (s : State) (f : Fabric → Fabric) : (s.modFabric f).sec = s.sec := rfl
@[simp] theorem State.modFabric_board (s : State) (f : Fabric → Fabric) : (s.modFabric f).board = s.board := rfl
@[simp] theorem State.modFabric_ctx (s : State) (f : Fabric → Fabric) (y : Fin 16) : (s.modFabric f).ctx y = s.ctx y := rfl
@[simp] theorem State.modFabric_core (s : State) (f : Fabric → Fabric) (e : Fin 4) : (s.modFabric f).core e = s.core e := rfl
@[simp] theorem State.modFabric_feed (s : State) (f : Fabric → Fabric) (e : Fin 4) : (s.modFabric f).feed e = s.feed e := rfl
@[simp] theorem State.modFabric_arr (s : State) (f : Fabric → Fabric) (e : Fin 8) : (s.modFabric f).arr e = s.arr e := rfl
@[simp] theorem State.modFabric_stack (s : State) (f : Fabric → Fabric) (m : Fin 12) : (s.modFabric f).stack m = s.stack m := rfl
@[simp] theorem State.modFabric_cc (s : State) (f : Fabric → Fabric) (y : Fin 16) (e : Fin 4) : (s.modFabric f).cc y e = s.cc y e := rfl

/-! ## modPower -/

@[simp] theorem State.modPower_pending (s : State) (f : Power → Power) : (s.modPower f).pending = s.pending := rfl
@[simp] theorem State.modPower_pilot (s : State) (f : Power → Power) : (s.modPower f).pilot = s.pilot := rfl
@[simp] theorem State.modPower_arrayTime (s : State) (f : Power → Power) : (s.modPower f).arrayTime = s.arrayTime := rfl
@[simp] theorem State.modPower_freeCtr (s : State) (f : Power → Power) : (s.modPower f).freeCtr = s.freeCtr := rfl
@[simp] theorem State.modPower_hub (s : State) (f : Power → Power) : (s.modPower f).hub = s.hub := rfl
@[simp] theorem State.modPower_cores (s : State) (f : Power → Power) : (s.modPower f).cores = s.cores := rfl
@[simp] theorem State.modPower_arrays (s : State) (f : Power → Power) : (s.modPower f).arrays = s.arrays := rfl
@[simp] theorem State.modPower_feeds (s : State) (f : Power → Power) : (s.modPower f).feeds = s.feeds := rfl
@[simp] theorem State.modPower_hbm (s : State) (f : Power → Power) : (s.modPower f).hbm = s.hbm := rfl
@[simp] theorem State.modPower_tiers (s : State) (f : Power → Power) : (s.modPower f).tiers = s.tiers := rfl
@[simp] theorem State.modPower_faults (s : State) (f : Power → Power) : (s.modPower f).faults = s.faults := rfl
@[simp] theorem State.modPower_blks (s : State) (f : Power → Power) : (s.modPower f).blks = s.blks := rfl
@[simp] theorem State.modPower_links (s : State) (f : Power → Power) : (s.modPower f).links = s.links := rfl
@[simp] theorem State.modPower_fabric (s : State) (f : Power → Power) : (s.modPower f).fabric = s.fabric := rfl
@[simp] theorem State.modPower_clock (s : State) (f : Power → Power) : (s.modPower f).clock = s.clock := rfl
@[simp] theorem State.modPower_roles (s : State) (f : Power → Power) : (s.modPower f).roles = s.roles := rfl
@[simp] theorem State.modPower_sec (s : State) (f : Power → Power) : (s.modPower f).sec = s.sec := rfl
@[simp] theorem State.modPower_board (s : State) (f : Power → Power) : (s.modPower f).board = s.board := rfl
@[simp] theorem State.modPower_ctx (s : State) (f : Power → Power) (y : Fin 16) : (s.modPower f).ctx y = s.ctx y := rfl
@[simp] theorem State.modPower_core (s : State) (f : Power → Power) (e : Fin 4) : (s.modPower f).core e = s.core e := rfl
@[simp] theorem State.modPower_feed (s : State) (f : Power → Power) (e : Fin 4) : (s.modPower f).feed e = s.feed e := rfl
@[simp] theorem State.modPower_arr (s : State) (f : Power → Power) (e : Fin 8) : (s.modPower f).arr e = s.arr e := rfl
@[simp] theorem State.modPower_stack (s : State) (f : Power → Power) (m : Fin 12) : (s.modPower f).stack m = s.stack m := rfl
@[simp] theorem State.modPower_cc (s : State) (f : Power → Power) (y : Fin 16) (e : Fin 4) : (s.modPower f).cc y e = s.cc y e := rfl

/-! ## modDomain -/

@[simp] theorem State.modDomain_pending (s : State) (d : Fin 11) (f : Domain → Domain) : (s.modDomain d f).pending = s.pending := rfl
@[simp] theorem State.modDomain_pilot (s : State) (d : Fin 11) (f : Domain → Domain) : (s.modDomain d f).pilot = s.pilot := rfl
@[simp] theorem State.modDomain_arrayTime (s : State) (d : Fin 11) (f : Domain → Domain) : (s.modDomain d f).arrayTime = s.arrayTime := rfl
@[simp] theorem State.modDomain_freeCtr (s : State) (d : Fin 11) (f : Domain → Domain) : (s.modDomain d f).freeCtr = s.freeCtr := rfl
@[simp] theorem State.modDomain_hub (s : State) (d : Fin 11) (f : Domain → Domain) : (s.modDomain d f).hub = s.hub := rfl
@[simp] theorem State.modDomain_cores (s : State) (d : Fin 11) (f : Domain → Domain) : (s.modDomain d f).cores = s.cores := rfl
@[simp] theorem State.modDomain_arrays (s : State) (d : Fin 11) (f : Domain → Domain) : (s.modDomain d f).arrays = s.arrays := rfl
@[simp] theorem State.modDomain_feeds (s : State) (d : Fin 11) (f : Domain → Domain) : (s.modDomain d f).feeds = s.feeds := rfl
@[simp] theorem State.modDomain_hbm (s : State) (d : Fin 11) (f : Domain → Domain) : (s.modDomain d f).hbm = s.hbm := rfl
@[simp] theorem State.modDomain_tiers (s : State) (d : Fin 11) (f : Domain → Domain) : (s.modDomain d f).tiers = s.tiers := rfl
@[simp] theorem State.modDomain_faults (s : State) (d : Fin 11) (f : Domain → Domain) : (s.modDomain d f).faults = s.faults := rfl
@[simp] theorem State.modDomain_blks (s : State) (d : Fin 11) (f : Domain → Domain) : (s.modDomain d f).blks = s.blks := rfl
@[simp] theorem State.modDomain_links (s : State) (d : Fin 11) (f : Domain → Domain) : (s.modDomain d f).links = s.links := rfl
@[simp] theorem State.modDomain_fabric (s : State) (d : Fin 11) (f : Domain → Domain) : (s.modDomain d f).fabric = s.fabric := rfl
@[simp] theorem State.modDomain_clock (s : State) (d : Fin 11) (f : Domain → Domain) : (s.modDomain d f).clock = s.clock := rfl
@[simp] theorem State.modDomain_roles (s : State) (d : Fin 11) (f : Domain → Domain) : (s.modDomain d f).roles = s.roles := rfl
@[simp] theorem State.modDomain_sec (s : State) (d : Fin 11) (f : Domain → Domain) : (s.modDomain d f).sec = s.sec := rfl
@[simp] theorem State.modDomain_board (s : State) (d : Fin 11) (f : Domain → Domain) : (s.modDomain d f).board = s.board := rfl
@[simp] theorem State.modDomain_ctx (s : State) (d : Fin 11) (f : Domain → Domain) (y : Fin 16) : (s.modDomain d f).ctx y = s.ctx y := rfl
@[simp] theorem State.modDomain_core (s : State) (d : Fin 11) (f : Domain → Domain) (e : Fin 4) : (s.modDomain d f).core e = s.core e := rfl
@[simp] theorem State.modDomain_feed (s : State) (d : Fin 11) (f : Domain → Domain) (e : Fin 4) : (s.modDomain d f).feed e = s.feed e := rfl
@[simp] theorem State.modDomain_arr (s : State) (d : Fin 11) (f : Domain → Domain) (e : Fin 8) : (s.modDomain d f).arr e = s.arr e := rfl
@[simp] theorem State.modDomain_stack (s : State) (d : Fin 11) (f : Domain → Domain) (m : Fin 12) : (s.modDomain d f).stack m = s.stack m := rfl
@[simp] theorem State.modDomain_cc (s : State) (d : Fin 11) (f : Domain → Domain) (y : Fin 16) (e : Fin 4) : (s.modDomain d f).cc y e = s.cc y e := rfl

/-! ## modRail -/

@[simp] theorem State.modRail_pending (s : State) (r : Fin 17) (f : Rail → Rail) : (s.modRail r f).pending = s.pending := rfl
@[simp] theorem State.modRail_pilot (s : State) (r : Fin 17) (f : Rail → Rail) : (s.modRail r f).pilot = s.pilot := rfl
@[simp] theorem State.modRail_arrayTime (s : State) (r : Fin 17) (f : Rail → Rail) : (s.modRail r f).arrayTime = s.arrayTime := rfl
@[simp] theorem State.modRail_freeCtr (s : State) (r : Fin 17) (f : Rail → Rail) : (s.modRail r f).freeCtr = s.freeCtr := rfl
@[simp] theorem State.modRail_hub (s : State) (r : Fin 17) (f : Rail → Rail) : (s.modRail r f).hub = s.hub := rfl
@[simp] theorem State.modRail_cores (s : State) (r : Fin 17) (f : Rail → Rail) : (s.modRail r f).cores = s.cores := rfl
@[simp] theorem State.modRail_arrays (s : State) (r : Fin 17) (f : Rail → Rail) : (s.modRail r f).arrays = s.arrays := rfl
@[simp] theorem State.modRail_feeds (s : State) (r : Fin 17) (f : Rail → Rail) : (s.modRail r f).feeds = s.feeds := rfl
@[simp] theorem State.modRail_hbm (s : State) (r : Fin 17) (f : Rail → Rail) : (s.modRail r f).hbm = s.hbm := rfl
@[simp] theorem State.modRail_tiers (s : State) (r : Fin 17) (f : Rail → Rail) : (s.modRail r f).tiers = s.tiers := rfl
@[simp] theorem State.modRail_faults (s : State) (r : Fin 17) (f : Rail → Rail) : (s.modRail r f).faults = s.faults := rfl
@[simp] theorem State.modRail_blks (s : State) (r : Fin 17) (f : Rail → Rail) : (s.modRail r f).blks = s.blks := rfl
@[simp] theorem State.modRail_links (s : State) (r : Fin 17) (f : Rail → Rail) : (s.modRail r f).links = s.links := rfl
@[simp] theorem State.modRail_fabric (s : State) (r : Fin 17) (f : Rail → Rail) : (s.modRail r f).fabric = s.fabric := rfl
@[simp] theorem State.modRail_clock (s : State) (r : Fin 17) (f : Rail → Rail) : (s.modRail r f).clock = s.clock := rfl
@[simp] theorem State.modRail_roles (s : State) (r : Fin 17) (f : Rail → Rail) : (s.modRail r f).roles = s.roles := rfl
@[simp] theorem State.modRail_sec (s : State) (r : Fin 17) (f : Rail → Rail) : (s.modRail r f).sec = s.sec := rfl
@[simp] theorem State.modRail_board (s : State) (r : Fin 17) (f : Rail → Rail) : (s.modRail r f).board = s.board := rfl
@[simp] theorem State.modRail_ctx (s : State) (r : Fin 17) (f : Rail → Rail) (y : Fin 16) : (s.modRail r f).ctx y = s.ctx y := rfl
@[simp] theorem State.modRail_core (s : State) (r : Fin 17) (f : Rail → Rail) (e : Fin 4) : (s.modRail r f).core e = s.core e := rfl
@[simp] theorem State.modRail_feed (s : State) (r : Fin 17) (f : Rail → Rail) (e : Fin 4) : (s.modRail r f).feed e = s.feed e := rfl
@[simp] theorem State.modRail_arr (s : State) (r : Fin 17) (f : Rail → Rail) (e : Fin 8) : (s.modRail r f).arr e = s.arr e := rfl
@[simp] theorem State.modRail_stack (s : State) (r : Fin 17) (f : Rail → Rail) (m : Fin 12) : (s.modRail r f).stack m = s.stack m := rfl
@[simp] theorem State.modRail_cc (s : State) (r : Fin 17) (f : Rail → Rail) (y : Fin 16) (e : Fin 4) : (s.modRail r f).cc y e = s.cc y e := rfl

/-! ## modClock -/

@[simp] theorem State.modClock_pending (s : State) (f : Clock → Clock) : (s.modClock f).pending = s.pending := rfl
@[simp] theorem State.modClock_pilot (s : State) (f : Clock → Clock) : (s.modClock f).pilot = s.pilot := rfl
@[simp] theorem State.modClock_arrayTime (s : State) (f : Clock → Clock) : (s.modClock f).arrayTime = s.arrayTime := rfl
@[simp] theorem State.modClock_freeCtr (s : State) (f : Clock → Clock) : (s.modClock f).freeCtr = s.freeCtr := rfl
@[simp] theorem State.modClock_hub (s : State) (f : Clock → Clock) : (s.modClock f).hub = s.hub := rfl
@[simp] theorem State.modClock_cores (s : State) (f : Clock → Clock) : (s.modClock f).cores = s.cores := rfl
@[simp] theorem State.modClock_arrays (s : State) (f : Clock → Clock) : (s.modClock f).arrays = s.arrays := rfl
@[simp] theorem State.modClock_feeds (s : State) (f : Clock → Clock) : (s.modClock f).feeds = s.feeds := rfl
@[simp] theorem State.modClock_hbm (s : State) (f : Clock → Clock) : (s.modClock f).hbm = s.hbm := rfl
@[simp] theorem State.modClock_tiers (s : State) (f : Clock → Clock) : (s.modClock f).tiers = s.tiers := rfl
@[simp] theorem State.modClock_faults (s : State) (f : Clock → Clock) : (s.modClock f).faults = s.faults := rfl
@[simp] theorem State.modClock_blks (s : State) (f : Clock → Clock) : (s.modClock f).blks = s.blks := rfl
@[simp] theorem State.modClock_links (s : State) (f : Clock → Clock) : (s.modClock f).links = s.links := rfl
@[simp] theorem State.modClock_fabric (s : State) (f : Clock → Clock) : (s.modClock f).fabric = s.fabric := rfl
@[simp] theorem State.modClock_power (s : State) (f : Clock → Clock) : (s.modClock f).power = s.power := rfl
@[simp] theorem State.modClock_roles (s : State) (f : Clock → Clock) : (s.modClock f).roles = s.roles := rfl
@[simp] theorem State.modClock_sec (s : State) (f : Clock → Clock) : (s.modClock f).sec = s.sec := rfl
@[simp] theorem State.modClock_board (s : State) (f : Clock → Clock) : (s.modClock f).board = s.board := rfl
@[simp] theorem State.modClock_ctx (s : State) (f : Clock → Clock) (y : Fin 16) : (s.modClock f).ctx y = s.ctx y := rfl
@[simp] theorem State.modClock_core (s : State) (f : Clock → Clock) (e : Fin 4) : (s.modClock f).core e = s.core e := rfl
@[simp] theorem State.modClock_feed (s : State) (f : Clock → Clock) (e : Fin 4) : (s.modClock f).feed e = s.feed e := rfl
@[simp] theorem State.modClock_arr (s : State) (f : Clock → Clock) (e : Fin 8) : (s.modClock f).arr e = s.arr e := rfl
@[simp] theorem State.modClock_stack (s : State) (f : Clock → Clock) (m : Fin 12) : (s.modClock f).stack m = s.stack m := rfl
@[simp] theorem State.modClock_cc (s : State) (f : Clock → Clock) (y : Fin 16) (e : Fin 4) : (s.modClock f).cc y e = s.cc y e := rfl

/-! ## modSource -/

@[simp] theorem State.modSource_pending (s : State) (i : Fin 3) (f : Source → Source) : (s.modSource i f).pending = s.pending := rfl
@[simp] theorem State.modSource_pilot (s : State) (i : Fin 3) (f : Source → Source) : (s.modSource i f).pilot = s.pilot := rfl
@[simp] theorem State.modSource_arrayTime (s : State) (i : Fin 3) (f : Source → Source) : (s.modSource i f).arrayTime = s.arrayTime := rfl
@[simp] theorem State.modSource_freeCtr (s : State) (i : Fin 3) (f : Source → Source) : (s.modSource i f).freeCtr = s.freeCtr := rfl
@[simp] theorem State.modSource_hub (s : State) (i : Fin 3) (f : Source → Source) : (s.modSource i f).hub = s.hub := rfl
@[simp] theorem State.modSource_cores (s : State) (i : Fin 3) (f : Source → Source) : (s.modSource i f).cores = s.cores := rfl
@[simp] theorem State.modSource_arrays (s : State) (i : Fin 3) (f : Source → Source) : (s.modSource i f).arrays = s.arrays := rfl
@[simp] theorem State.modSource_feeds (s : State) (i : Fin 3) (f : Source → Source) : (s.modSource i f).feeds = s.feeds := rfl
@[simp] theorem State.modSource_hbm (s : State) (i : Fin 3) (f : Source → Source) : (s.modSource i f).hbm = s.hbm := rfl
@[simp] theorem State.modSource_tiers (s : State) (i : Fin 3) (f : Source → Source) : (s.modSource i f).tiers = s.tiers := rfl
@[simp] theorem State.modSource_faults (s : State) (i : Fin 3) (f : Source → Source) : (s.modSource i f).faults = s.faults := rfl
@[simp] theorem State.modSource_blks (s : State) (i : Fin 3) (f : Source → Source) : (s.modSource i f).blks = s.blks := rfl
@[simp] theorem State.modSource_links (s : State) (i : Fin 3) (f : Source → Source) : (s.modSource i f).links = s.links := rfl
@[simp] theorem State.modSource_fabric (s : State) (i : Fin 3) (f : Source → Source) : (s.modSource i f).fabric = s.fabric := rfl
@[simp] theorem State.modSource_power (s : State) (i : Fin 3) (f : Source → Source) : (s.modSource i f).power = s.power := rfl
@[simp] theorem State.modSource_roles (s : State) (i : Fin 3) (f : Source → Source) : (s.modSource i f).roles = s.roles := rfl
@[simp] theorem State.modSource_sec (s : State) (i : Fin 3) (f : Source → Source) : (s.modSource i f).sec = s.sec := rfl
@[simp] theorem State.modSource_board (s : State) (i : Fin 3) (f : Source → Source) : (s.modSource i f).board = s.board := rfl
@[simp] theorem State.modSource_ctx (s : State) (i : Fin 3) (f : Source → Source) (y : Fin 16) : (s.modSource i f).ctx y = s.ctx y := rfl
@[simp] theorem State.modSource_core (s : State) (i : Fin 3) (f : Source → Source) (e : Fin 4) : (s.modSource i f).core e = s.core e := rfl
@[simp] theorem State.modSource_feed (s : State) (i : Fin 3) (f : Source → Source) (e : Fin 4) : (s.modSource i f).feed e = s.feed e := rfl
@[simp] theorem State.modSource_arr (s : State) (i : Fin 3) (f : Source → Source) (e : Fin 8) : (s.modSource i f).arr e = s.arr e := rfl
@[simp] theorem State.modSource_stack (s : State) (i : Fin 3) (f : Source → Source) (m : Fin 12) : (s.modSource i f).stack m = s.stack m := rfl
@[simp] theorem State.modSource_cc (s : State) (i : Fin 3) (f : Source → Source) (y : Fin 16) (e : Fin 4) : (s.modSource i f).cc y e = s.cc y e := rfl

/-! ## modRoles -/

@[simp] theorem State.modRoles_pending (s : State) (f : Roles → Roles) : (s.modRoles f).pending = s.pending := rfl
@[simp] theorem State.modRoles_pilot (s : State) (f : Roles → Roles) : (s.modRoles f).pilot = s.pilot := rfl
@[simp] theorem State.modRoles_arrayTime (s : State) (f : Roles → Roles) : (s.modRoles f).arrayTime = s.arrayTime := rfl
@[simp] theorem State.modRoles_freeCtr (s : State) (f : Roles → Roles) : (s.modRoles f).freeCtr = s.freeCtr := rfl
@[simp] theorem State.modRoles_hub (s : State) (f : Roles → Roles) : (s.modRoles f).hub = s.hub := rfl
@[simp] theorem State.modRoles_cores (s : State) (f : Roles → Roles) : (s.modRoles f).cores = s.cores := rfl
@[simp] theorem State.modRoles_arrays (s : State) (f : Roles → Roles) : (s.modRoles f).arrays = s.arrays := rfl
@[simp] theorem State.modRoles_feeds (s : State) (f : Roles → Roles) : (s.modRoles f).feeds = s.feeds := rfl
@[simp] theorem State.modRoles_hbm (s : State) (f : Roles → Roles) : (s.modRoles f).hbm = s.hbm := rfl
@[simp] theorem State.modRoles_tiers (s : State) (f : Roles → Roles) : (s.modRoles f).tiers = s.tiers := rfl
@[simp] theorem State.modRoles_faults (s : State) (f : Roles → Roles) : (s.modRoles f).faults = s.faults := rfl
@[simp] theorem State.modRoles_blks (s : State) (f : Roles → Roles) : (s.modRoles f).blks = s.blks := rfl
@[simp] theorem State.modRoles_links (s : State) (f : Roles → Roles) : (s.modRoles f).links = s.links := rfl
@[simp] theorem State.modRoles_fabric (s : State) (f : Roles → Roles) : (s.modRoles f).fabric = s.fabric := rfl
@[simp] theorem State.modRoles_power (s : State) (f : Roles → Roles) : (s.modRoles f).power = s.power := rfl
@[simp] theorem State.modRoles_clock (s : State) (f : Roles → Roles) : (s.modRoles f).clock = s.clock := rfl
@[simp] theorem State.modRoles_sec (s : State) (f : Roles → Roles) : (s.modRoles f).sec = s.sec := rfl
@[simp] theorem State.modRoles_board (s : State) (f : Roles → Roles) : (s.modRoles f).board = s.board := rfl
@[simp] theorem State.modRoles_ctx (s : State) (f : Roles → Roles) (y : Fin 16) : (s.modRoles f).ctx y = s.ctx y := rfl
@[simp] theorem State.modRoles_core (s : State) (f : Roles → Roles) (e : Fin 4) : (s.modRoles f).core e = s.core e := rfl
@[simp] theorem State.modRoles_feed (s : State) (f : Roles → Roles) (e : Fin 4) : (s.modRoles f).feed e = s.feed e := rfl
@[simp] theorem State.modRoles_arr (s : State) (f : Roles → Roles) (e : Fin 8) : (s.modRoles f).arr e = s.arr e := rfl
@[simp] theorem State.modRoles_stack (s : State) (f : Roles → Roles) (m : Fin 12) : (s.modRoles f).stack m = s.stack m := rfl
@[simp] theorem State.modRoles_cc (s : State) (f : Roles → Roles) (y : Fin 16) (e : Fin 4) : (s.modRoles f).cc y e = s.cc y e := rfl

/-! ## modSec -/

@[simp] theorem State.modSec_pending (s : State) (f : Sec → Sec) : (s.modSec f).pending = s.pending := rfl
@[simp] theorem State.modSec_pilot (s : State) (f : Sec → Sec) : (s.modSec f).pilot = s.pilot := rfl
@[simp] theorem State.modSec_arrayTime (s : State) (f : Sec → Sec) : (s.modSec f).arrayTime = s.arrayTime := rfl
@[simp] theorem State.modSec_freeCtr (s : State) (f : Sec → Sec) : (s.modSec f).freeCtr = s.freeCtr := rfl
@[simp] theorem State.modSec_hub (s : State) (f : Sec → Sec) : (s.modSec f).hub = s.hub := rfl
@[simp] theorem State.modSec_cores (s : State) (f : Sec → Sec) : (s.modSec f).cores = s.cores := rfl
@[simp] theorem State.modSec_arrays (s : State) (f : Sec → Sec) : (s.modSec f).arrays = s.arrays := rfl
@[simp] theorem State.modSec_feeds (s : State) (f : Sec → Sec) : (s.modSec f).feeds = s.feeds := rfl
@[simp] theorem State.modSec_hbm (s : State) (f : Sec → Sec) : (s.modSec f).hbm = s.hbm := rfl
@[simp] theorem State.modSec_tiers (s : State) (f : Sec → Sec) : (s.modSec f).tiers = s.tiers := rfl
@[simp] theorem State.modSec_faults (s : State) (f : Sec → Sec) : (s.modSec f).faults = s.faults := rfl
@[simp] theorem State.modSec_blks (s : State) (f : Sec → Sec) : (s.modSec f).blks = s.blks := rfl
@[simp] theorem State.modSec_links (s : State) (f : Sec → Sec) : (s.modSec f).links = s.links := rfl
@[simp] theorem State.modSec_fabric (s : State) (f : Sec → Sec) : (s.modSec f).fabric = s.fabric := rfl
@[simp] theorem State.modSec_power (s : State) (f : Sec → Sec) : (s.modSec f).power = s.power := rfl
@[simp] theorem State.modSec_clock (s : State) (f : Sec → Sec) : (s.modSec f).clock = s.clock := rfl
@[simp] theorem State.modSec_roles (s : State) (f : Sec → Sec) : (s.modSec f).roles = s.roles := rfl
@[simp] theorem State.modSec_board (s : State) (f : Sec → Sec) : (s.modSec f).board = s.board := rfl
@[simp] theorem State.modSec_ctx (s : State) (f : Sec → Sec) (y : Fin 16) : (s.modSec f).ctx y = s.ctx y := rfl
@[simp] theorem State.modSec_core (s : State) (f : Sec → Sec) (e : Fin 4) : (s.modSec f).core e = s.core e := rfl
@[simp] theorem State.modSec_feed (s : State) (f : Sec → Sec) (e : Fin 4) : (s.modSec f).feed e = s.feed e := rfl
@[simp] theorem State.modSec_arr (s : State) (f : Sec → Sec) (e : Fin 8) : (s.modSec f).arr e = s.arr e := rfl
@[simp] theorem State.modSec_stack (s : State) (f : Sec → Sec) (m : Fin 12) : (s.modSec f).stack m = s.stack m := rfl
@[simp] theorem State.modSec_cc (s : State) (f : Sec → Sec) (y : Fin 16) (e : Fin 4) : (s.modSec f).cc y e = s.cc y e := rfl

/-! ## modBoard -/

@[simp] theorem State.modBoard_pending (s : State) (f : Board → Board) : (s.modBoard f).pending = s.pending := rfl
@[simp] theorem State.modBoard_pilot (s : State) (f : Board → Board) : (s.modBoard f).pilot = s.pilot := rfl
@[simp] theorem State.modBoard_arrayTime (s : State) (f : Board → Board) : (s.modBoard f).arrayTime = s.arrayTime := rfl
@[simp] theorem State.modBoard_freeCtr (s : State) (f : Board → Board) : (s.modBoard f).freeCtr = s.freeCtr := rfl
@[simp] theorem State.modBoard_hub (s : State) (f : Board → Board) : (s.modBoard f).hub = s.hub := rfl
@[simp] theorem State.modBoard_cores (s : State) (f : Board → Board) : (s.modBoard f).cores = s.cores := rfl
@[simp] theorem State.modBoard_arrays (s : State) (f : Board → Board) : (s.modBoard f).arrays = s.arrays := rfl
@[simp] theorem State.modBoard_feeds (s : State) (f : Board → Board) : (s.modBoard f).feeds = s.feeds := rfl
@[simp] theorem State.modBoard_hbm (s : State) (f : Board → Board) : (s.modBoard f).hbm = s.hbm := rfl
@[simp] theorem State.modBoard_tiers (s : State) (f : Board → Board) : (s.modBoard f).tiers = s.tiers := rfl
@[simp] theorem State.modBoard_faults (s : State) (f : Board → Board) : (s.modBoard f).faults = s.faults := rfl
@[simp] theorem State.modBoard_blks (s : State) (f : Board → Board) : (s.modBoard f).blks = s.blks := rfl
@[simp] theorem State.modBoard_links (s : State) (f : Board → Board) : (s.modBoard f).links = s.links := rfl
@[simp] theorem State.modBoard_fabric (s : State) (f : Board → Board) : (s.modBoard f).fabric = s.fabric := rfl
@[simp] theorem State.modBoard_power (s : State) (f : Board → Board) : (s.modBoard f).power = s.power := rfl
@[simp] theorem State.modBoard_clock (s : State) (f : Board → Board) : (s.modBoard f).clock = s.clock := rfl
@[simp] theorem State.modBoard_roles (s : State) (f : Board → Board) : (s.modBoard f).roles = s.roles := rfl
@[simp] theorem State.modBoard_sec (s : State) (f : Board → Board) : (s.modBoard f).sec = s.sec := rfl
@[simp] theorem State.modBoard_ctx (s : State) (f : Board → Board) (y : Fin 16) : (s.modBoard f).ctx y = s.ctx y := rfl
@[simp] theorem State.modBoard_core (s : State) (f : Board → Board) (e : Fin 4) : (s.modBoard f).core e = s.core e := rfl
@[simp] theorem State.modBoard_feed (s : State) (f : Board → Board) (e : Fin 4) : (s.modBoard f).feed e = s.feed e := rfl
@[simp] theorem State.modBoard_arr (s : State) (f : Board → Board) (e : Fin 8) : (s.modBoard f).arr e = s.arr e := rfl
@[simp] theorem State.modBoard_stack (s : State) (f : Board → Board) (m : Fin 12) : (s.modBoard f).stack m = s.stack m := rfl
@[simp] theorem State.modBoard_cc (s : State) (f : Board → Board) (y : Fin 16) (e : Fin 4) : (s.modBoard f).cc y e = s.cc y e := rfl

/-! ## What an update of a unit gives -/

@[simp] theorem State.modCtx_same (s : State) (x : Fin 16) (f : Ctx → Ctx) : (s.modCtx x f).ctx x = f (s.ctx x) :=
  vmod_same _ _ _

theorem State.modCtx_other (s : State) (x w : Fin 16) (f : Ctx → Ctx) (h : w ≠ x) :
    (s.modCtx x f).ctx w = s.ctx w := vmod_other _ _ _ _ h

@[simp] theorem State.modCore_same (s : State) (c : Fin 4) (f : CoreS → CoreS) : (s.modCore c f).core c = f (s.core c) :=
  vmod_same _ _ _

theorem State.modCore_other (s : State) (c w : Fin 4) (f : CoreS → CoreS) (h : w ≠ c) :
    (s.modCore c f).core w = s.core w := vmod_other _ _ _ _ h

@[simp] theorem State.modFeed_same (s : State) (c : Fin 4) (f : FeedS → FeedS) : (s.modFeed c f).feed c = f (s.feed c) :=
  vmod_same _ _ _

theorem State.modFeed_other (s : State) (c w : Fin 4) (f : FeedS → FeedS) (h : w ≠ c) :
    (s.modFeed c f).feed w = s.feed w := vmod_other _ _ _ _ h

@[simp] theorem State.modArr_same (s : State) (a : Fin 8) (f : ArrayS → ArrayS) : (s.modArr a f).arr a = f (s.arr a) :=
  vmod_same _ _ _

theorem State.modArr_other (s : State) (a w : Fin 8) (f : ArrayS → ArrayS) (h : w ≠ a) :
    (s.modArr a f).arr w = s.arr w := vmod_other _ _ _ _ h

@[simp] theorem State.modStack_same (s : State) (n : Fin 12) (f : StackS → StackS) : (s.modStack n f).stack n = f (s.stack n) :=
  vmod_same _ _ _

theorem State.modStack_other (s : State) (n w : Fin 12) (f : StackS → StackS) (h : w ≠ n) :
    (s.modStack n f).stack w = s.stack w := vmod_other _ _ _ _ h

@[simp] theorem State.modTiers_tiers (s : State) (f : Tiers → Tiers) : (s.modTiers f).tiers = f s.tiers := rfl
@[simp] theorem State.modFaults_faults (s : State) (f : Faults → Faults) : (s.modFaults f).faults = f s.faults := rfl
@[simp] theorem State.modFabric_fabric (s : State) (f : Fabric → Fabric) : (s.modFabric f).fabric = f s.fabric := rfl
@[simp] theorem State.modPower_power (s : State) (f : Power → Power) : (s.modPower f).power = f s.power := rfl
@[simp] theorem State.modClock_clock (s : State) (f : Clock → Clock) : (s.modClock f).clock = f s.clock := rfl
@[simp] theorem State.modRoles_roles (s : State) (f : Roles → Roles) : (s.modRoles f).roles = f s.roles := rfl
@[simp] theorem State.modSec_sec (s : State) (f : Sec → Sec) : (s.modSec f).sec = f s.sec := rfl
@[simp] theorem State.modBoard_board (s : State) (f : Board → Board) : (s.modBoard f).board = f s.board := rfl
@[simp] theorem State.detect_faults (s : State) (f : FaultRec) :
    (s.detect f).faults = { s.faults with detected := s.faults.detected ++ [f] } := rfl

@[simp] theorem State.modCC_ctx_same (s : State) (x : Fin 16) (c : Fin 4) (f : CtxCore → CtxCore) :
    (s.modCC x c f).ctx x = { s.ctx x with cores := vmod (s.ctx x).cores c f } := State.modCtx_same _ _ _

theorem State.modCC_ctx_other (s : State) (x y : Fin 16) (c : Fin 4) (f : CtxCore → CtxCore) (h : y ≠ x) :
    (s.modCC x c f).ctx y = s.ctx y := State.modCtx_other _ _ _ _ h

@[simp] theorem State.modCC_same (s : State) (x : Fin 16) (c : Fin 4) (f : CtxCore → CtxCore) :
    (s.modCC x c f).cc x c = f (s.cc x c) := by
  simp [State.cc]

theorem State.modCC_other_core (s : State) (x y : Fin 16) (c d : Fin 4) (f : CtxCore → CtxCore) (h : d ≠ c) :
    (s.modCC x c f).cc y d = s.cc y d := by
  by_cases hy : y = x
  · subst hy
    have := vmod_other (s.ctx y).cores c d f h
    simpa [State.cc] using this
  · simp only [State.cc, State.modCC_ctx_other s x y c f hy]

theorem State.modCC_other_ctx (s : State) (x y : Fin 16) (c d : Fin 4) (f : CtxCore → CtxCore) (h : y ≠ x) :
    (s.modCC x c f).cc y d = s.cc y d := by
  simp only [State.cc, State.modCC_ctx_other s x y c f h]

@[simp] theorem State.modCtx_hub_nextRun (s : State) (x : Fin 16) (f : Ctx → Ctx) : (s.modCtx x f).hub.nextRun = s.hub.nextRun := rfl

@[simp] theorem State.modCC_hub_nextRun (s : State) (x : Fin 16) (c : Fin 4) (f : CtxCore → CtxCore) :
    (s.modCC x c f).hub.nextRun = s.hub.nextRun := rfl

/-! ## Two updates -/

/-- Two updates of one context are one. -/
theorem State.modCtx_modCtx (s : State) (x : Fin 16) (f g : Ctx → Ctx) :
    (s.modCtx x f).modCtx x g = s.modCtx x (fun k => g (f k)) := by
  simp [State.modCtx, vmod]

/-- An update that leaves a context as it is leaves the state. -/
theorem State.modCtx_id (s : State) (x : Fin 16) (f : Ctx → Ctx) (h : f (s.ctx x) = s.ctx x) : s.modCtx x f = s := by
  have h1 : vmod s.hub.ctxs x f = s.hub.ctxs := by
    unfold vmod
    rw [show f s.hub.ctxs[x] = s.hub.ctxs[x] from h]
    simp
  simp only [State.modCtx, h1]

end Sys2Proof.Machine
end

