-- ==== Sys2Proof/Laws/Gate.lean ====
section
/-! SUPPORT. What a command answers: always a next state, and that of its own effect where the logic it acts on is up. -/

namespace Sys2Proof.Machine

open Sys2Proof

@[simp] theorem inHub_up (f : State → State) (s : State) (h : s.hubUp = true) : inHub f s = .next (f s) := by simp [inHub, h]
@[simp] theorem inLamp_up (f : State → State) (s : State) (h : s.lampUp = true) : inLamp f s = .next (f s) := by simp [inLamp, h]
@[simp] theorem inDies_up (f : State → State) (s : State) (h : s.diesUp = true) : inDies f s = .next (f s) := by simp [inDies, h]
@[simp] theorem inH1_up (f : State → State) (s : State) (h : s.h1Up = true) : inH1 f s = .next (f s) := by simp [inH1, h]
@[simp] theorem inAon_up (f : State → State) (s : State) (h : s.board.aonOn = true) : inAon f s = .next (f s) := by simp [inAon, h]
@[simp] theorem onBoard_next (f : State → State) (s : State) : onBoard f s = .next (f s) := rfl

theorem inHub_down (f : State → State) (s : State) (h : s.hubUp = false) : inHub f s = .next s := by simp [inHub, h]
theorem inLamp_down (f : State → State) (s : State) (h : s.lampUp = false) : inLamp f s = .next s := by simp [inLamp, h]
theorem inDies_down (f : State → State) (s : State) (h : s.diesUp = false) : inDies f s = .next s := by simp [inDies, h]
theorem inH1_down (f : State → State) (s : State) (h : s.h1Up = false) : inH1 f s = .next s := by simp [inH1, h]
theorem inAon_down (f : State → State) (s : State) (h : s.board.aonOn = false) : inAon f s = .next s := by simp [inAon, h]

/-- Every command answers a next state: nothing faults and nothing is refused. -/
theorem exec_next (i : Instr) (s : State) : ∃ t, exec i s = .next t := by
  cases i <;> exact ⟨_, rfl⟩

/-- So does every step. -/
theorem step_next (s : State) : ∃ t, step s = .next t := by
  unfold step
  split
  · exact ⟨_, rfl⟩
  · exact exec_next _ _

end Sys2Proof.Machine
end

