-- ==== Sys2Proof/Laws/Mem.lean ====
section
/-! SUPPORT. The byte memories: reading after writing, and the canonical form. -/

namespace Sys2Proof.Machine

open Sys2Proof

/-! ## One byte -/

theorem Mem.get_append (m k : Mem) (a : Nat) (h : ∀ c ∈ m, c.1 ≠ a) : Mem.get (m ++ k) a = Mem.get k a := by
  induction m with
  | nil => rfl
  | cons c r ih =>
    obtain ⟨b, v⟩ := c
    have h1 : b ≠ a := h (b, v) (by simp)
    simp only [List.cons_append, Mem.get, if_neg h1]
    exact ih (fun c hc => h c (by simp [hc]))

theorem Mem.get_filter (m : Mem) (p : Nat → Bool) (a : Nat) :
    Mem.get (m.filter (fun c => p c.1)) a = if p a then Mem.get m a else Mem.blank := by
  induction m with
  | nil => simp [Mem.get]
  | cons c r ih =>
    obtain ⟨b, v⟩ := c
    by_cases hb : b = a
    · subst hb
      cases hp : p b <;> simp [List.filter, hp, Mem.get] at *
      exact ih
    · cases hp : p b <;> simp [List.filter, hp, Mem.get, hb] <;> exact ih

theorem Mem.get_absent (m : Mem) (a : Nat) (h : ∀ c ∈ m, c.1 ≠ a) : Mem.get m a = Mem.blank := by
  have := Mem.get_append m [] a h
  simpa [Mem.get] using this

theorem Mem.cells_range (bs : List Byte) (a : Nat) : ∀ c ∈ Mem.cells a bs, a ≤ c.1 ∧ c.1 < a + bs.length := by
  induction bs generalizing a with
  | nil => intro c h; simp [Mem.cells] at h
  | cons b bs ih =>
    intro c h
    simp only [Mem.cells] at h
    split at h
    · have := ih (a + 1) c h
      simp only [List.length_cons]; omega
    · rcases List.mem_cons.1 h with rfl | h
      · simp
      · have := ih (a + 1) c h
        simp only [List.length_cons]; omega

theorem Mem.get_cells (bs : List Byte) (a b : Nat) (k : Mem) (h1 : a ≤ b) (h2 : b < a + bs.length)
    (hk : ∀ c ∈ k, c.1 ≠ b) : Mem.get (Mem.cells a bs ++ k) b = (bs[b - a]?).getD 0 := by
  induction bs generalizing a with
  | nil => simp at h2; omega
  | cons v bs ih =>
    simp only [List.length_cons] at h2
    by_cases hb : a = b
    · subst hb
      simp only [Mem.cells]
      split
      · rename_i hv
        have : ∀ c ∈ Mem.cells (a + 1) bs ++ k, c.1 ≠ a := by
          intro c hc
          rcases List.mem_append.1 hc with hc | hc
          · have := (Mem.cells_range bs (a + 1) c hc).1; omega
          · exact hk c hc
        rw [Mem.get_absent _ _ this]
        simp [hv, Mem.blank]
      · simp [Mem.get]
    · have e : b - a = (b - (a + 1)) + 1 := by omega
      have := ih (a + 1) (by omega) (by omega)
      simp only [Mem.cells]
      split
      · rw [e]; simpa using this
      · rw [e]; simpa [Mem.get, hb] using this

/-- A read after a write: the bytes written in their range, the old bytes elsewhere. -/
theorem Mem.get_write (m : Mem) (a : Nat) (bs : List Byte) (b : Nat) :
    (m.write a bs).get b = if a ≤ b ∧ b < a + bs.length then (bs[b - a]?).getD 0 else m.get b := by
  unfold Mem.write
  by_cases hlo : b < a
  · have hcells : ∀ c ∈ Mem.cells a bs, c.1 ≠ b := fun c hc => by
      have := (Mem.cells_range bs a c hc).1; omega
    have : ∀ c ∈ Mem.cells a bs ++ m.filter (fun c => decide (a + bs.length ≤ c.1)), c.1 ≠ b := by
      intro c hc
      rcases List.mem_append.1 hc with hc | hc
      · exact hcells c hc
      · have := (List.mem_filter.1 hc).2
        simp at this; omega
    rw [List.append_assoc]
    have key : ∀ (l k : Mem), (∀ c ∈ k, c.1 ≠ b) → Mem.get (l ++ k) b = Mem.get l b := by
      intro l k hk
      induction l with
      | nil => simpa [Mem.get] using Mem.get_absent k b hk
      | cons c l ih => obtain ⟨x, v⟩ := c; simp only [List.cons_append, Mem.get, ih]
    rw [key _ _ this, Mem.get_filter m (fun x => decide (x < a)) b]
    have : ¬(a ≤ b ∧ b < a + bs.length) := by omega
    simp [hlo, this]
  · have h1 : ∀ c ∈ m.filter (fun c => decide (c.1 < a)), c.1 ≠ b := by
      intro c hc
      have := (List.mem_filter.1 hc).2
      simp at this; omega
    rw [List.append_assoc, Mem.get_append _ _ _ h1]
    by_cases hhi : b < a + bs.length
    · rw [Mem.get_cells bs a b _ (by omega) hhi]
      · simp [hhi]; omega
      · intro c hc
        have := (List.mem_filter.1 hc).2
        simp at this; omega
    · rw [Mem.get_append _ _ _ (fun c hc => by have := (Mem.cells_range bs a c hc).2; omega),
        Mem.get_filter m (fun x => decide (a + bs.length ≤ x)) b]
      have h2 : a + bs.length ≤ b := by omega
      have h3 : ¬(a ≤ b ∧ b < a + bs.length) := by omega
      simp [h2, h3]

/-- A read after an erasure: blank in its range, the old bytes elsewhere. -/
theorem Mem.get_erase (m : Mem) (a n b : Nat) :
    (m.erase a n).get b = if a ≤ b ∧ b < a + n then Mem.blank else m.get b := by
  unfold Mem.erase
  rw [Mem.get_filter m (fun x => decide (x < a) || decide (a + n ≤ x)) b]
  by_cases h : a ≤ b ∧ b < a + n
  · have h1 : ¬ b < a := by omega
    have h2 : ¬ a + n ≤ b := by omega
    simp [h, h1, h2]
  · have h1 : b < a ∨ a + n ≤ b := by omega
    rw [if_neg h]
    simp [h1]

/-! ## The canonical form -/

theorem Mem.wfFrom_iff (m : Mem) (lo : Nat) :
    Mem.wfFrom lo m = true ↔ m.Pairwise (fun c d => c.1 < d.1) ∧ ∀ c ∈ m, lo ≤ c.1 ∧ c.2 ≠ Mem.blank := by
  induction m generalizing lo with
  | nil => simp [Mem.wfFrom]
  | cons c r ih =>
    obtain ⟨k, v⟩ := c
    simp only [Mem.wfFrom, Bool.and_eq_true, decide_eq_true_eq, ih, List.pairwise_cons, List.mem_cons, forall_eq_or_imp]
    constructor
    · rintro ⟨⟨h1, h2⟩, h3, h4⟩
      exact ⟨⟨fun c hc => (h4 c hc).1, h3⟩, ⟨h1, h2⟩, fun c hc => ⟨by have := (h4 c hc).1; omega, (h4 c hc).2⟩⟩
    · rintro ⟨⟨h1, h2⟩, ⟨h3, h4⟩, h5⟩
      exact ⟨⟨h3, h4⟩, h2, fun c hc => ⟨h1 c hc, (h5 c hc).2⟩⟩

/-- The canonical form in words: addresses strictly rising, no blank entry. -/
theorem Mem.wf_iff (m : Mem) :
    m.wf = true ↔ m.Pairwise (fun c d => c.1 < d.1) ∧ ∀ c ∈ m, c.2 ≠ Mem.blank := by
  simp [Mem.wf, Mem.wfFrom_iff]

theorem Mem.cells_sorted (bs : List Byte) (a : Nat) :
    (Mem.cells a bs).Pairwise (fun c d => c.1 < d.1) ∧ ∀ c ∈ Mem.cells a bs, c.2 ≠ Mem.blank := by
  induction bs generalizing a with
  | nil => simp [Mem.cells]
  | cons b bs ih =>
    simp only [Mem.cells]
    split
    · exact ih (a + 1)
    · rename_i hb
      refine ⟨List.pairwise_cons.2 ⟨fun c hc => ?_, (ih (a + 1)).1⟩, ?_⟩
      · have := (Mem.cells_range bs (a + 1) c hc).1
        show a < c.1
        omega
      · intro c hc
        rcases List.mem_cons.1 hc with rfl | hc
        · exact hb
        · exact (ih (a + 1)).2 c hc

/-- A write keeps the canonical form. -/
theorem Mem.wf_write (m : Mem) (a : Nat) (bs : List Byte) (h : m.wf = true) : (m.write a bs).wf = true := by
  rw [Mem.wf_iff] at h ⊢
  obtain ⟨hs, hb⟩ := h
  obtain ⟨cs, cb⟩ := Mem.cells_sorted bs a
  unfold Mem.write
  refine ⟨List.pairwise_append.2 ⟨List.pairwise_append.2 ⟨hs.filter _, cs, ?_⟩, hs.filter _, ?_⟩, ?_⟩
  · intro c hc d hd
    have h1 := (List.mem_filter.1 hc).2
    have h2 := (Mem.cells_range bs a d hd).1
    simp at h1; omega
  · intro c hc d hd
    have h2 := (List.mem_filter.1 hd).2
    simp at h2
    rcases List.mem_append.1 hc with hc | hc
    · have h1 := (List.mem_filter.1 hc).2
      simp at h1; omega
    · have h1 := (Mem.cells_range bs a c hc).2; omega
  · intro c hc
    rcases List.mem_append.1 hc with hc | hc
    · rcases List.mem_append.1 hc with hc | hc
      · exact hb c (List.mem_filter.1 hc).1
      · exact cb c hc
    · exact hb c (List.mem_filter.1 hc).1

/-- An erasure keeps the canonical form. -/
theorem Mem.wf_erase (m : Mem) (a n : Nat) (h : m.wf = true) : (m.erase a n).wf = true := by
  rw [Mem.wf_iff] at h ⊢
  exact ⟨h.1.filter _, fun c hc => h.2 c (List.mem_filter.1 hc).1⟩

/-- Two canonical memories that read alike are equal. -/
theorem Mem.ext_get (m k : Mem) (hm : m.wf = true) (hk : k.wf = true) (h : ∀ a, m.get a = k.get a) : m = k := by
  rw [Mem.wf_iff] at hm hk
  have low : ∀ (l : Mem) (a : Nat), l.Pairwise (fun c d => c.1 < d.1) → (∀ c ∈ l, a < c.1) → Mem.get l a = Mem.blank :=
    fun l a _ hl => Mem.get_absent l a (fun c hc => by have := hl c hc; omega)
  induction m generalizing k with
  | nil =>
    cases k with
    | nil => rfl
    | cons d k =>
      have := h d.1
      simp only [Mem.get, if_true] at this
      exact absurd this.symm (hk.2 d (by simp))
  | cons c m ih =>
    cases k with
    | nil =>
      have := h c.1
      simp only [Mem.get, if_true] at this
      exact absurd this (hm.2 c (by simp))
    | cons d k =>
      obtain ⟨a, v⟩ := c
      obtain ⟨b, w⟩ := d
      have pm := List.pairwise_cons.1 hm.1
      have pk := List.pairwise_cons.1 hk.1
      have hv : v ≠ Mem.blank := hm.2 (a, v) (by simp)
      have hw : w ≠ Mem.blank := hk.2 (b, w) (by simp)
      have hab : a = b := by
        rcases Nat.lt_trichotomy a b with hlt | he | hlt
        · have := h a
          simp only [Mem.get, if_true] at this
          have hba : ¬ b = a := by omega
          rw [if_neg hba, low k a pk.2 (fun c hc => by have := pk.1 c hc; simp at this; omega)] at this
          exact absurd this hv
        · exact he
        · have := h b
          simp only [Mem.get, if_true] at this
          have hba : ¬ a = b := by omega
          rw [if_neg hba, low m b pm.2 (fun c hc => by have := pm.1 c hc; simp at this; omega)] at this
          exact absurd this.symm hw
      subst hab
      have hvw : v = w := by
        have := h a
        simpa [Mem.get] using this
      subst hvw
      congr 1
      refine ih k ⟨pm.2, fun c hc => hm.2 c (by simp [hc])⟩ ⟨pk.2, fun c hc => hk.2 c (by simp [hc])⟩ (fun x => ?_)
      by_cases hx : a = x
      · subst hx
        rw [low m a pm.2 pm.1, low k a pk.2 pk.1]
      · have := h x
        simpa [Mem.get, hx] using this

/-! ## Runs of bytes -/

@[simp] theorem Mem.runFrom_length (m : Mem) (a n : Nat) : (Mem.runFrom m a n).length = n := by
  induction n generalizing m a with
  | zero => cases m <;> rfl
  | succ n ih =>
    cases m with
    | nil => simp [Mem.runFrom, ih]
    | cons c r =>
      obtain ⟨k, v⟩ := c
      simp only [Mem.runFrom]
      split <;> simp [ih]

@[simp] theorem Mem.read_length (m : Mem) (a n : Nat) : (m.read a n).length = n := Mem.runFrom_length _ _ _

theorem Mem.runFrom_get (m : Mem) (a n : Nat) (hs : m.Pairwise (fun c d => c.1 < d.1)) (ha : ∀ c ∈ m, a ≤ c.1) :
    Mem.runFrom m a n = (List.range n).map (fun i => m.get (a + i)) := by
  induction n generalizing m a with
  | zero => cases m <;> rfl
  | succ n ih =>
    rw [List.range_succ_eq_map]
    cases m with
    | nil =>
      simp only [Mem.runFrom, List.map_cons, List.map_map, Mem.get]
      rw [ih [] (a + 1) hs (by simp)]
      simp [Mem.get, Function.comp_def]
    | cons c r =>
      obtain ⟨k, v⟩ := c
      have pr := List.pairwise_cons.1 hs
      have hk : a ≤ k := ha (k, v) (by simp)
      simp only [Mem.runFrom]
      split
      · rename_i he
        subst he
        rw [ih r (k + 1) pr.2 (fun c hc => by have := pr.1 c hc; simp at this; omega)]
        simp only [List.map_cons, List.map_map, Nat.add_zero, Mem.get, if_true]
        congr 1
        apply List.map_congr_left
        intro i _
        have h1 : ¬ k = k + (i + 1) := by omega
        have h2 : k + 1 + i = k + (i + 1) := by omega
        simp only [Function.comp_def, Nat.succ_eq_add_one, if_neg h1, h2]
      · rename_i he
        rw [ih ((k, v) :: r) (a + 1) hs (fun c hc => by
          rcases List.mem_cons.1 hc with rfl | hc
          · show a + 1 ≤ k; omega
          · have := pr.1 c hc; simp at this; omega)]
        have h0 : Mem.get ((k, v) :: r) (a + 0) = Mem.blank := Mem.get_absent _ _ (fun c hc => by
          rcases List.mem_cons.1 hc with rfl | hc
          · show k ≠ a + 0; omega
          · have := pr.1 c hc; simp at this; omega)
        simp only [List.map_cons, List.map_map, h0]
        congr 1
        apply List.map_congr_left
        intro i _
        have h2 : a + 1 + i = a + (i + 1) := by omega
        simp only [Function.comp_def, Nat.succ_eq_add_one, h2]

/-- A run read from a canonical memory is its bytes one by one. -/
theorem Mem.read_eq (m : Mem) (a n : Nat) (h : m.wf = true) : m.read a n = (List.range n).map (fun i => m.get (a + i)) := by
  rw [Mem.wf_iff] at h
  unfold Mem.read
  rw [Mem.runFrom_get _ _ _ (h.1.filter _) (fun c hc => by have := (List.mem_filter.1 hc).2; simp at this; omega)]
  apply List.map_congr_left
  intro i hi
  have hi := List.mem_range.1 hi
  rw [Mem.get_filter m (fun x => decide (a ≤ x) && decide (x < a + n)) (a + i)]
  have h1 : a + i < a + n := by omega
  simp [h1]

end Sys2Proof.Machine
end

