-- ==== Sys2Proof/Laws/Memory.lean ====
section
/-! SUPPORT. Every operation over the memories keeps them canonical, and the memories of reset are. -/

namespace Sys2Proof.Machine

open Sys2Proof

theorem memOk_reset : State.reset.memOk := by
  refine ⟨fun n => ?_, fun c => ?_, rfl⟩
  · revert n; decide
  · revert c; decide

/-! ## Stacks (10) -/

theorem StackS.wf_putSectors (st : StackS) (a : Nat) (bs : List PByte) (h : st.mem.wf = true) :
    (st.putSectors a bs).mem.wf = true := Mem.wf_write _ _ _ h

/-- What a read counts leaves memory as it stands. -/
@[simp] theorem StackS.noteRead_mem (st : StackS) (sector : Nat) (out : Decoded) : (st.noteRead sector out).mem = st.mem := by
  cases out <;> rfl

theorem StackS.wf_flushPartial (st : StackS) (e : WcbEntry) (h : st.mem.wf = true) : (st.flushPartial e).mem.wf = true :=
  Mem.wf_write _ _ _ (by rw [StackS.noteRead_mem]; exact h)

theorem StackS.wf_writeFull (st : StackS) (a : Nat) (bs : List PByte) (h : st.mem.wf = true) :
    (st.writeFull a bs).mem.wf = true := Mem.wf_write _ _ _ h

theorem StackS.wf_writePart (st : StackS) (a : Nat) (bs : List PByte) (h : st.mem.wf = true) :
    (st.writePart a bs).mem.wf = true := by
  unfold StackS.writePart
  dsimp only
  split
  · split
    · exact Mem.wf_write _ _ _ h
    · exact h
  · split
    · split
      · exact StackS.wf_flushPartial _ _ h
      · exact h
    · exact h

theorem StackS.wf_write (st : StackS) (a : Nat) (bs : List PByte) (h : st.mem.wf = true) : (st.write a bs).mem.wf = true := by
  unfold StackS.write
  dsimp only
  have h1 : (if min bs.length ((64 - a % 64) % 64) = 0 then st
      else st.writePart a (bs.take (min bs.length ((64 - a % 64) % 64)))).mem.wf = true := by
    split
    · exact h
    · exact StackS.wf_writePart _ _ _ h
  split
  · split
    · exact h1
    · exact StackS.wf_writeFull _ _ _ h1
  · apply StackS.wf_writePart
    split
    · exact h1
    · exact StackS.wf_writeFull _ _ _ h1

theorem StackS.wf_flushOldest (n : Nat) (st : StackS) (h : st.mem.wf = true) : (StackS.flushOldest n st).mem.wf = true := by
  induction n generalizing st with
  | zero => exact h
  | succ n ih =>
    unfold StackS.flushOldest
    split
    · exact h
    · exact ih _ (StackS.wf_flushPartial _ _ h)

theorem StackS.wf_flushRange (st : StackS) (a n : Nat) (h : st.mem.wf = true) : (st.flushRange a n).mem.wf = true := by
  unfold StackS.flushRange
  generalize st.wcb.filter _ = l
  induction l generalizing st with
  | nil => exact h
  | cons e l ih => exact ih _ (StackS.wf_flushPartial _ _ h)

/-! ## Feed dies (07) -/

theorem FeedS.wf_write (f : FeedS) (o : Nat) (bs : List PByte) (tr : Bool) (h : f.spad.wf = true) :
    (f.write o bs tr).spad.wf = true := by
  unfold FeedS.write
  apply Mem.wf_write
  split
  · generalize pieces 1024 _ o bs.length = l
    induction l generalizing f with
    | nil => exact h
    | cons q l ih =>
      refine ih _ ?_
      dsimp only
      split
      · exact h
      · exact Mem.wf_erase _ _ _ h
  · exact h

/-! ## The state -/

/-- What memOk says of a state depends on three fields. -/
theorem memOk_of_eq {s t : State} (h : s.memOk) (h1 : t.hbm = s.hbm) (h2 : ∀ c, (t.feed c).spad = (s.feed c).spad)
    (h3 : t.tiers.deepMem = s.tiers.deepMem) : t.memOk := by
  refine ⟨fun n => ?_, fun c => ?_, by rw [h3]; exact h.2.2⟩
  · have := h.1 n
    unfold State.stack at *
    rw [h1]; exact this
  · rw [h2]; exact h.2.1 c

theorem memOk_modStack (s : State) (n : Fin 12) (f : StackS → StackS) (h : s.memOk)
    (hf : ∀ st : StackS, st.mem.wf = true → (f st).mem.wf = true) : (s.modStack n f).memOk := by
  refine ⟨fun m => ?_, h.2.1, h.2.2⟩
  by_cases hm : m = n
  · subst hm
    rw [State.modStack_same]
    exact hf _ (h.1 m)
  · rw [State.modStack_other s n m f hm]
    exact h.1 m

theorem memOk_modFeed (s : State) (c : Fin 4) (f : FeedS → FeedS) (h : s.memOk)
    (hf : ∀ k : FeedS, k.spad.wf = true → (f k).spad.wf = true) : (s.modFeed c f).memOk := by
  refine ⟨h.1, fun d => ?_, h.2.2⟩
  by_cases hd : d = c
  · subst hd
    rw [State.modFeed_same]
    exact hf _ (h.2.1 d)
  · rw [State.modFeed_other s c d f hd]
    exact h.2.1 d

theorem memOk_post (s : State) (x : Fin 16) (e : Entry) (h : s.memOk) : (s.post x e).memOk := by
  unfold State.post
  split
  · exact h
  · split <;> exact h
  · exact h
  · exact h

theorem memOk_deepLowCheck (s : State) (ch : Fin 16) (n : Nat) (h : s.memOk) : (s.deepLowCheck ch n).memOk := by
  unfold State.deepLowCheck
  dsimp only
  have key : ∀ (l : List (Fin 16)) (s : State), s.memOk → (l.foldl (fun s x =>
      if s.tiers.map.any (fun e => e.2.owner == x && e.2.home == Home.deep)
      then s.event x 0x031C (detail [(0, 1, ch.val)]) else s) s).memOk := by
    intro l
    induction l with
    | nil => exact fun s h => h
    | cons x l ih =>
      intro s h
      refine ih _ ?_
      dsimp only
      split
      · exact memOk_post _ _ _ h
      · exact h
  split
  · exact key _ _ h
  · split <;> exact h

theorem memOk_placeBlock (s t : State) (p j : Nat) (bs : List PByte) (h : s.memOk) (ht : s.placeBlock p j bs = some t) :
    t.memOk := by
  have put : ∀ (u : State) (g n : Nat), u.memOk → (u.putDeep p j g n bs).memOk := fun u g n hu =>
    ⟨hu.1, hu.2.1, Mem.wf_write _ _ _ hu.2.2⟩
  unfold State.placeBlock at ht
  dsimp only at ht
  split at ht
  · cases ht
    exact memOk_deepLowCheck _ _ _ (put _ _ _ h)
  · split at ht
    · cases ht
    · cases ht
      exact memOk_deepLowCheck _ _ _ (put _ _ _ h)

theorem memOk_writeDeepBlock (s : State) (x : Fin 16) (p j off : Nat) (bs : List PByte) (h : s.memOk) :
    (s.writeDeepBlock x p j off bs).memOk := by
  unfold State.writeDeepBlock
  dsimp only
  split
  · exact h
  · split
    · rename_i t ht
      exact memOk_placeBlock s t p j _ h ht
    · split <;> exact h

theorem memOk_clearDeep (s : State) (p : Nat) (h : s.memOk) : (s.clearDeep p).memOk := by
  unfold State.clearDeep
  have key : ∀ (l : List Nat) (s : State), s.memOk → (l.foldl (fun s ch => s.deepLowOf ch) s).memOk := by
    intro l
    induction l with
    | nil => exact fun s h => h
    | cons c l ih => exact fun s h => ih _ (memOk_deepLowCheck _ _ _ h)
  exact key _ _ ⟨h.1, h.2.1, Mem.wf_erase _ _ _ h.2.2⟩

theorem memOk_writeHome (s : State) (x : Fin 16) (hm : Home) (p off : Nat) (bs : List PByte) (h : s.memOk) :
    (s.writeHome x hm p off bs).memOk := by
  have near : ∀ (l : List (Fin 12 × Nat × Nat)) (r : State × List PByte), r.1.memOk → (l.foldl (fun (r : State × List PByte) q =>
      (r.1.modStack q.1 (fun st => st.write q.2.1 (r.2.take q.2.2)), r.2.drop q.2.2)) r).1.memOk := by
    intro l
    induction l with
    | nil => exact fun r h => h
    | cons q l ih => exact fun r h => ih _ (memOk_modStack _ _ _ h (fun st hs => StackS.wf_write _ _ _ hs))
  unfold State.writeHome
  cases hm
  · exact near _ _ h
  · exact near _ _ h
  · have key : ∀ (l : List (Nat × Nat)) (s : State), s.memOk → (l.foldl (fun s q =>
        s.writeDeepBlock x p (q.1 / 4096) (q.1 % 4096) ((bs.drop (q.1 - off)).take q.2)) s).memOk := by
      intro l
      induction l with
      | nil => exact fun s h => h
      | cons q l ih => exact fun s h => ih _ (memOk_writeDeepBlock _ _ _ _ _ _ h)
    exact key _ _ h

theorem memOk_uwrite (s : State) (a : Nat) (bs : List PByte) (h : s.memOk) : (s.uwrite a bs).memOk := by
  unfold State.uwrite
  have h0 : (s.invalidate a bs.length).memOk := by
    refine memOk_of_eq h rfl (fun c => ?_) rfl
    simp [State.invalidate, State.feed]
  generalize s.invalidate a bs.length = s0 at h0
  generalize pieces 131072 _ a bs.length = l
  have key : ∀ (l : List (Nat × Nat)) (r : State × List PByte), r.1.memOk → (l.foldl (fun (r : State × List PByte) q =>
      let p := q.1 / 131072
      let now := r.2.take q.2
      let s1 := match r.1.homeOf p with
        | none => r.1
        | some e =>
          match e.dest with
          | some _ => r.1.modTiers (fun t => { t with moves := t.moves.map (fun m =>
              if m.page = p then { m with stalled := m.stalled ++ (chunks 64 now).zipIdx.map (fun c =>
                (q.1 % 131072 + 64 * c.2, c.1.map (·.b), c.1.any (·.p))) } else m) })
          | none => r.1.writeHome e.owner e.home p (q.1 % 131072) now
      (s1, r.2.drop q.2)) r).1.memOk := by
    intro l
    induction l with
    | nil => exact fun r h => h
    | cons q l ih =>
      intro r h
      refine ih _ ?_
      dsimp only
      split
      · exact h
      · split
        · exact h
        · exact memOk_writeHome _ _ _ _ _ _ h
  exact key l (s0, bs) h0

theorem memOk_wwrite (s : State) (x : Fin 16) (c : Fin 4) (w : Nat) (bs : List PByte) (h : s.memOk) :
    (s.wwrite x c w bs).memOk := by
  unfold State.wwrite
  split
  · exact memOk_modFeed _ _ _ h (fun k hk => FeedS.wf_write _ _ _ _ hk)
  · exact h

theorem memOk_rwrite (s : State) (x : Fin 16) (space : Nat) (c : Fin 4) (a : Nat) (bs : List PByte) (h : s.memOk) :
    (s.rwrite x space c a bs).memOk := by
  unfold State.rwrite
  split
  · exact memOk_wwrite _ _ _ _ _ h
  · exact memOk_uwrite _ _ _ h

theorem memOk_rwriteRuns (s : State) (x : Fin 16) (space : Nat) (c : Fin 4) (runs : List (Nat × List PByte)) (h : s.memOk) :
    (s.rwriteRuns x space c runs).memOk := by
  unfold State.rwriteRuns
  generalize coalesce runs = l
  induction l generalizing s with
  | nil => exact h
  | cons r l ih => exact ih _ (memOk_rwrite _ _ _ _ _ _ h)

theorem memOk_poisonRegion (s : State) (x : Fin 16) (c : Fin 4) (r : Region) (h : s.memOk) : (s.poisonRegion x c r).memOk := by
  unfold State.poisonRegion
  generalize List.range r.rows = l
  induction l generalizing s with
  | nil => exact h
  | cons i l ih => exact ih _ (memOk_rwrite _ _ _ _ _ _ h)

/-! ## What reads find (10, R247) -/

theorem memOk_detectSpan (s : State) (core : Option (Fin 4)) (f : FaultRec) (h : s.memOk) : (s.detectSpan core f).memOk := by
  unfold State.detectSpan
  split
  · exact h
  · split <;> exact h

theorem memOk_loseSector (s : State) (n : Fin 12) (a : Nat) (data : List Byte) (core : Option (Fin 4))
    (name : FaultRec → FaultRec) (h : s.memOk) : (s.loseSector n a data core name).memOk := by
  unfold State.loseSector
  dsimp only
  have h1 : (if inReserved n a && (name (s.sectorFault n a)).severity == 0 then
      s.modStack n (fun t => { t with
        mem := if 0x70000000 ≤ a then t.mem.erase a 64 else t.mem, errs := aerase (a / 64) t.errs, ue := satAdd t.ue 1 })
    else s.modStack n (fun t => t.poisonSector a data)).memOk := by
    split
    · refine memOk_modStack _ _ _ h (fun st hs => ?_)
      dsimp only
      split
      · exact Mem.wf_erase _ _ _ hs
      · exact hs
    · exact memOk_modStack _ _ _ h (fun st hs => StackS.wf_putSectors st a _ hs)
  split
  · exact h1
  · exact memOk_detectSpan _ _ _ h1

theorem memOk_touchSector (s : State) (n : Fin 12) (a : Nat) (core : Option (Fin 4)) (name : FaultRec → FaultRec) (h : s.memOk) :
    (s.touchSector n a core name).memOk := by
  unfold State.touchSector
  dsimp only
  split
  · exact h
  · exact memOk_modStack _ _ _ h (fun _ hs => hs)
  · exact memOk_modStack _ _ _ h (fun _ hs => hs)
  · exact memOk_loseSector _ _ _ _ _ _ h

theorem memOk_touch (s : State) (a : Nat) (reader : Option (Fin 4)) (h : s.memOk) : (s.touch a reader).memOk := by
  unfold State.touch
  dsimp only
  split
  · exact h
  · split
    · split
      · unfold State.countDeep
        exact memOk_of_eq h rfl (fun _ => rfl) (by simp only [State.modTiers]; split <;> rfl)
      · exact h
    · split
      · exact memOk_touchSector _ _ _ _ _ h
      · exact h

theorem memOk_touchRange (s : State) (a n : Nat) (reader : Option (Fin 4)) (h : s.memOk) : (s.touchRange a n reader).memOk := by
  unfold State.touchRange
  split
  · exact h
  · have key : ∀ (l : List Nat) (s : State), s.memOk → (l.foldl (fun s k => s.touch (64 * k) reader) s).memOk := by
      intro l
      induction l with
      | nil => exact fun s h => h
      | cons k l ih => exact fun s h => ih _ (memOk_touch _ _ _ h)
    exact key _ s h

end Sys2Proof.Machine
end

