-- ==== Sys2Proof/Laws/PerInstr.lean ====
section
/-! SUPPORT. Laws of every command as syntax: the table gives no row bits, so no word spells a command. -/

namespace Sys2Proof.Laws.WordFree

open Sys2Proof

/-- No word of the command table spells the command. -/
def Statement (i : Instr) : Prop := ∀ nbits w, decodeTableWord nbits w ≠ some i

theorem slotWrite : ∀ x j off bs, Statement (.slotWrite x j off bs) := by intros; intro _ _ h; cases h
theorem sealWrite : ∀ x j seq crc sramBad, Statement (.sealWrite x j seq crc sramBad) := by intros; intro _ _ h; cases h
theorem packetTake : ∀ x, Statement (.packetTake x) := by intros; intro _ _ h; cases h
theorem heldPacketRelease : ∀ x j, Statement (.heldPacketRelease x j) := by intros; intro _ _ h; cases h
theorem submit : ∀ x j, Statement (.submit x j) := by intros; intro _ _ h; cases h
theorem feed : ∀ x j, Statement (.feed x j) := by intros; intro _ _ h; cases h
theorem fetch : ∀ x j, Statement (.fetch x j) := by intros; intro _ _ h; cases h
theorem create : ∀ x j, Statement (.create x j) := by intros; intro _ _ h; cases h
theorem destroy : ∀ x j, Statement (.destroy x j) := by intros; intro _ _ h; cases h
theorem destroyFinish : ∀ x, Statement (.destroyFinish x) := by intros; intro _ _ h; cases h
theorem setQuota : ∀ x j, Statement (.setQuota x j) := by intros; intro _ _ h; cases h
theorem setWindow : ∀ x j, Statement (.setWindow x j) := by intros; intro _ _ h; cases h
theorem setAreas : ∀ x j, Statement (.setAreas x j) := by intros; intro _ _ h; cases h
theorem areasApply : ∀ c, Statement (.areasApply c) := by intros; intro _ _ h; cases h
theorem setSpread : ∀ x j, Statement (.setSpread x j) := by intros; intro _ _ h; cases h
theorem loadScale : ∀ x j, Statement (.loadScale x j) := by intros; intro _ _ h; cases h
theorem loadScaleApply : ∀ x j, Statement (.loadScaleApply x j) := by intros; intro _ _ h; cases h
theorem loadSlots : ∀ x j, Statement (.loadSlots x j) := by intros; intro _ _ h; cases h
theorem slotTableApply : ∀ x j, Statement (.slotTableApply x j) := by intros; intro _ _ h; cases h
theorem loadAlmanac : ∀ x j, Statement (.loadAlmanac x j) := by intros; intro _ _ h; cases h
theorem almanacApply : ∀ x j, Statement (.almanacApply x j) := by intros; intro _ _ h; cases h
theorem map : ∀ x j, Statement (.map x j) := by intros; intro _ _ h; cases h
theorem unmap : ∀ x j, Statement (.unmap x j) := by intros; intro _ _ h; cases h
theorem setRole : ∀ x j, Statement (.setRole x j) := by intros; intro _ _ h; cases h
theorem ownerRecord : ∀ x j, Statement (.ownerRecord x j) := by intros; intro _ _ h; cases h
theorem ownerRelease : ∀ x j, Statement (.ownerRelease x j) := by intros; intro _ _ h; cases h
theorem setSched : ∀ x j, Statement (.setSched x j) := by intros; intro _ _ h; cases h
theorem fwUpdateWrite : ∀ x j, Statement (.fwUpdateWrite x j) := by intros; intro _ _ h; cases h
theorem fwUpdateActivate : ∀ x j, Statement (.fwUpdateActivate x j) := by intros; intro _ _ h; cases h
theorem fwUpdateAbandon : ∀ x j, Statement (.fwUpdateAbandon x j) := by intros; intro _ _ h; cases h
theorem queryContextStatus : ∀ x j, Statement (.queryContextStatus x j) := by intros; intro _ _ h; cases h
theorem queryScaleRecords : ∀ x j, Statement (.queryScaleRecords x j) := by intros; intro _ _ h; cases h
theorem querySlots : ∀ x j, Statement (.querySlots x j) := by intros; intro _ _ h; cases h
theorem queryTierCounters : ∀ x j, Statement (.queryTierCounters x j) := by intros; intro _ _ h; cases h
theorem queryHomeMap : ∀ x j, Statement (.queryHomeMap x j) := by intros; intro _ _ h; cases h
theorem queryAlmanac : ∀ x j, Statement (.queryAlmanac x j) := by intros; intro _ _ h; cases h
theorem queryModule : ∀ x j, Statement (.queryModule x j) := by intros; intro _ _ h; cases h
theorem queryFaultRing : ∀ x j, Statement (.queryFaultRing x j) := by intros; intro _ _ h; cases h
theorem cqHeadWrite : ∀ x v, Statement (.cqHeadWrite x v) := by intros; intro _ _ h; cases h
theorem backlogDrain : ∀ x, Statement (.backlogDrain x) := by intros; intro _ _ h; cases h
theorem completionEntry : ∀ x, Statement (.completionEntry x) := by intros; intro _ _ h; cases h
theorem functionLevelReset : ∀ x, Statement (.functionLevelReset x) := by intros; intro _ _ h; cases h
theorem mm : ∀ c hold ups, Statement (.mm c hold ups) := by intros; intro _ _ h; cases h
theorem mmb : ∀ c ups, Statement (.mmb c ups) := by intros; intro _ _ h; cases h
theorem attend : ∀ c ups, Statement (.attend c ups) := by intros; intro _ _ h; cases h
theorem attendB : ∀ c ups, Statement (.attendB c ups) := by intros; intro _ _ h; cases h
theorem vec : ∀ c, Statement (.vec c) := by intros; intro _ _ h; cases h
theorem norm : ∀ c, Statement (.norm c) := by intros; intro _ _ h; cases h
theorem normB : ∀ c, Statement (.normB c) := by intros; intro _ _ h; cases h
theorem quant : ∀ c, Statement (.quant c) := by intros; intro _ _ h; cases h
theorem gatherE : ∀ c, Statement (.gatherE c) := by intros; intro _ _ h; cases h
theorem copy : ∀ c, Statement (.copy c) := by intros; intro _ _ h; cases h
theorem update : ∀ c x bad, Statement (.update c x bad) := by intros; intro _ _ h; cases h
theorem precond : ∀ c, Statement (.precond c) := by intros; intro _ _ h; cases h
theorem coll : ∀ x, Statement (.coll x) := by intros; intro _ _ h; cases h
theorem send : ∀ x, Statement (.send x) := by intros; intro _ _ h; cases h
theorem recv : ∀ x, Statement (.recv x) := by intros; intro _ _ h; cases h
theorem shardGather : ∀ x, Statement (.shardGather x) := by intros; intro _ _ h; cases h
theorem migrate : ∀ x, Statement (.migrate x) := by intros; intro _ _ h; cases h
theorem layerPlanStart : ∀ x, Statement (.layerPlanStart x) := by intros; intro _ _ h; cases h
theorem layerPlanStop : ∀ x, Statement (.layerPlanStop x) := by intros; intro _ _ h; cases h
theorem pin : ∀ x, Statement (.pin x) := by intros; intro _ _ h; cases h
theorem unpin : ∀ x, Statement (.unpin x) := by intros; intro _ _ h; cases h
theorem fenceSignal : ∀ q, Statement (.fenceSignal q) := by intros; intro _ _ h; cases h
theorem fenceWait : ∀ q, Statement (.fenceWait q) := by intros; intro _ _ h; cases h
theorem acquire : ∀ q, Statement (.acquire q) := by intros; intro _ _ h; cases h
theorem release : ∀ q, Statement (.release q) := by intros; intro _ _ h; cases h
theorem spanOpen : ∀ c, Statement (.spanOpen c) := by intros; intro _ _ h; cases h
theorem spanClose : ∀ c, Statement (.spanClose c) := by intros; intro _ _ h; cases h
theorem hint : ∀ q, Statement (.hint q) := by intros; intro _ _ h; cases h
theorem census : ∀ q, Statement (.census q) := by intros; intro _ _ h; cases h
theorem nop : ∀ q, Statement (.nop q) := by intros; intro _ _ h; cases h
theorem commandComplete : ∀ q j charge, Statement (.commandComplete q j charge) := by intros; intro _ _ h; cases h
theorem lookaheadLoad : ∀ c, Statement (.lookaheadLoad c) := by intros; intro _ _ h; cases h
theorem bankLoadDone : ∀ a, Statement (.bankLoadDone a) := by intros; intro _ _ h; cases h
theorem bankSwap : ∀ a, Statement (.bankSwap a) := by intros; intro _ _ h; cases h
theorem rowDrain : ∀ a ups, Statement (.rowDrain a ups) := by intros; intro _ _ h; cases h
theorem spanReplay : ∀ c, Statement (.spanReplay c) := by intros; intro _ _ h; cases h
theorem replayDecision : ∀ c rows, Statement (.replayDecision c rows) := by intros; intro _ _ h; cases h
theorem laneRemap : ∀ a, Statement (.laneRemap a) := by intros; intro _ _ h; cases h
theorem arrayDegrade : ∀ a, Statement (.arrayDegrade a) := by intros; intro _ _ h; cases h
theorem coreOutOfService : ∀ c, Statement (.coreOutOfService c) := by intros; intro _ _ h; cases h
theorem starveTimeout : ∀ q x, Statement (.starveTimeout q x) := by intros; intro _ _ h; cases h
theorem overrunTimeout : ∀ x die j, Statement (.overrunTimeout x die j) := by intros; intro _ _ h; cases h
theorem commandWatchdog : ∀ q j, Statement (.commandWatchdog q j) := by intros; intro _ _ h; cases h
theorem spanTimeout : ∀ c, Statement (.spanTimeout c) := by intros; intro _ _ h; cases h
theorem fenceWaitTimeout : ∀ q x, Statement (.fenceWaitTimeout q x) := by intros; intro _ _ h; cases h
theorem acquireTimeout : ∀ q x, Statement (.acquireTimeout q x) := by intros; intro _ _ h; cases h
theorem updateWaitTimeout : ∀ c x, Statement (.updateWaitTimeout c x) := by intros; intro _ _ h; cases h
theorem peerWaitTimeout : ∀ x j, Statement (.peerWaitTimeout x j) := by intros; intro _ _ h; cases h
theorem deepSpaceTimeout : ∀ j, Statement (.deepSpaceTimeout j) := by intros; intro _ _ h; cases h
theorem pageMove : ∀ x, Statement (.pageMove x) := by intros; intro _ _ h; cases h
theorem pageSwitch : ∀ page, Statement (.pageSwitch page) := by intros; intro _ _ h; cases h
theorem moveTimeout : ∀ page, Statement (.moveTimeout page) := by intros; intro _ _ h; cases h
theorem moveRetry : ∀ page, Statement (.moveRetry page) := by intros; intro _ _ h; cases h
theorem scrubRead : ∀ n sector err, Statement (.scrubRead n sector err) := by intros; intro _ _ h; cases h
theorem wcbAgeFlush : ∀ n sector, Statement (.wcbAgeFlush n sector) := by intros; intro _ _ h; cases h
theorem wcbHighFlush : ∀ n, Statement (.wcbHighFlush n) := by intros; intro _ _ h; cases h
theorem faultRecord : ∀ f, Statement (.faultRecord f) := by intros; intro _ _ h; cases h
theorem faultHandle : ∀ finish, Statement (.faultHandle finish) := by intros; intro _ _ h; cases h
theorem faultStatusWrite : ∀ v, Statement (.faultStatusWrite v) := by intros; intro _ _ h; cases h
theorem minuteTick : Statement .minuteTick := by intro _ _ h; cases h
theorem storeBatch : ∀ vMv, Statement (.storeBatch vMv) := by intros; intro _ _ h; cases h
theorem storeBatchDone : Statement .storeBatchDone := by intro _ _ h; cases h
theorem holdupLow : Statement .holdupLow := by intro _ _ h; cases h
theorem capacitanceMeasure : ∀ dv, Statement (.capacitanceMeasure dv) := by intros; intro _ _ h; cases h
theorem iftDue : ∀ c, Statement (.iftDue c) := by intros; intro _ _ h; cases h
theorem iftRun : ∀ c, Statement (.iftRun c) := by intros; intro _ _ h; cases h
theorem iftForce : ∀ c, Statement (.iftForce c) := by intros; intro _ _ h; cases h
theorem iftRunNow : ∀ c, Statement (.iftRunNow c) := by intros; intro _ _ h; cases h
theorem portInService : ∀ p, Statement (.portInService p) := by intros; intro _ _ h; cases h
theorem portAlignmentLoss : ∀ p lane, Statement (.portAlignmentLoss p lane) := by intros; intro _ _ h; cases h
theorem dataFrame : ∀ p f, Statement (.dataFrame p f) := by intros; intro _ _ h; cases h
theorem ackFrame : ∀ p f, Statement (.ackFrame p f) := by intros; intro _ _ h; cases h
theorem rtsFrame : ∀ p f, Statement (.rtsFrame p f) := by intros; intro _ _ h; cases h
theorem ctsFrame : ∀ p f, Statement (.ctsFrame p f) := by intros; intro _ _ h; cases h
theorem shardRequest : ∀ p f, Statement (.shardRequest p f) := by intros; intro _ _ h; cases h
theorem shardServe : ∀ j, Statement (.shardServe j) := by intros; intro _ _ h; cases h
theorem ackTimer : ∀ peer job channel, Statement (.ackTimer peer job channel) := by intros; intro _ _ h; cases h
theorem retxTimeout : ∀ peer job channel seq, Statement (.retxTimeout peer job channel seq) := by intros; intro _ _ h; cases h
theorem rtsRetry : ∀ x j, Statement (.rtsRetry x j) := by intros; intro _ _ h; cases h
theorem hello : ∀ p f, Statement (.hello p f) := by intros; intro _ _ h; cases h
theorem welcome : ∀ p f, Statement (.welcome p f) := by intros; intro _ _ h; cases h
theorem groupReady : ∀ p f, Statement (.groupReady p f) := by intros; intro _ _ h; cases h
theorem installReady : ∀ p f, Statement (.installReady p f) := by intros; intro _ _ h; cases h
theorem heartbeat : ∀ p f, Statement (.heartbeat p f) := by intros; intro _ _ h; cases h
theorem takeCharge : ∀ p f, Statement (.takeCharge p f) := by intros; intro _ _ h; cases h
theorem rosterUpdate : ∀ p f, Statement (.rosterUpdate p f) := by intros; intro _ _ h; cases h
theorem takeover : ∀ p f shard, Statement (.takeover p f shard) := by intros; intro _ _ h; cases h
theorem takeoverDone : ∀ p f, Statement (.takeoverDone p f) := by intros; intro _ _ h; cases h
theorem ckptHeld : ∀ p f, Statement (.ckptHeld p f) := by intros; intro _ _ h; cases h
theorem faultReport : ∀ p f, Statement (.faultReport p f) := by intros; intro _ _ h; cases h
theorem slowReport : ∀ p f, Statement (.slowReport p f) := by intros; intro _ _ h; cases h
theorem capSet : ∀ p f, Statement (.capSet p f) := by intros; intro _ _ h; cases h
theorem notice : ∀ p f, Statement (.notice p f) := by intros; intro _ _ h; cases h
theorem helloRepeat : Statement .helloRepeat := by intro _ _ h; cases h
theorem groupForm : Statement .groupForm := by intro _ _ h; cases h
theorem deputyTakeCharge : ∀ top, Statement (.deputyTakeCharge top) := by intros; intro _ _ h; cases h
theorem registrationClose : Statement .registrationClose := by intro _ _ h; cases h
theorem heartbeatSend : Statement .heartbeatSend := by intro _ _ h; cases h
theorem memberFail : ∀ node, Statement (.memberFail node) := by intros; intro _ _ h; cases h
theorem capReview : Statement .capReview := by intro _ _ h; cases h
theorem slowReportSend : Statement .slowReportSend := by intro _ _ h; cases h
theorem getVersion : ∀ r, Statement (.getVersion r) := by intros; intro _ _ h; cases h
theorem getCapabilities : ∀ r, Statement (.getCapabilities r) := by intros; intro _ _ h; cases h
theorem negotiateAlgorithms : ∀ r, Statement (.negotiateAlgorithms r) := by intros; intro _ _ h; cases h
theorem getDigests : ∀ r, Statement (.getDigests r) := by intros; intro _ _ h; cases h
theorem getCertificate : ∀ r, Statement (.getCertificate r) := by intros; intro _ _ h; cases h
theorem challenge : ∀ r, Statement (.challenge r) := by intros; intro _ _ h; cases h
theorem getMeasurements : ∀ r, Statement (.getMeasurements r) := by intros; intro _ _ h; cases h
theorem barometerWindow : ∀ counts, Statement (.barometerWindow counts) := by intros; intro _ _ h; cases h
theorem barometerPeriod : Statement .barometerPeriod := by intro _ _ h; cases h
theorem railMeasurement : ∀ r j, Statement (.railMeasurement r j) := by intros; intro _ _ h; cases h
theorem recalibrationFit : ∀ r worst, Statement (.recalibrationFit r worst) := by intros; intro _ _ h; cases h
theorem temperatureRead : ∀ die ts, Statement (.temperatureRead die ts) := by intros; intro _ _ h; cases h
theorem thermalDutyUpdate : Statement .thermalDutyUpdate := by intro _ _ h; cases h
theorem thermalTrip : ∀ die, Statement (.thermalTrip die) := by intros; intro _ _ h; cases h
theorem rampGrant : Statement .rampGrant := by intro _ _ h; cases h
theorem hintExpire : ∀ x c, Statement (.hintExpire x c) := by intros; intro _ _ h; cases h
theorem clockStart : ∀ d, Statement (.clockStart d) := by intros; intro _ _ h; cases h
theorem clockStartDone : ∀ d, Statement (.clockStartDone d) := by intros; intro _ _ h; cases h
theorem clockStop : ∀ d, Statement (.clockStop d) := by intros; intro _ _ h; cases h
theorem pwrCapWrite : ∀ v, Statement (.pwrCapWrite v) := by intros; intro _ _ h; cases h
theorem bmcCapWrite : ∀ v, Statement (.bmcCapWrite v) := by intros; intro _ _ h; cases h
theorem monitorWindow : ∀ rec xtal, Statement (.monitorWindow rec xtal) := by intros; intro _ _ h; cases h
theorem switchPauseEnd : Statement .switchPauseEnd := by intro _ _ h; cases h
theorem oscillatorCalibrate : ∀ hz, Statement (.oscillatorCalibrate hz) := by intros; intro _ _ h; cases h
theorem clkCtrlWrite : ∀ v, Statement (.clkCtrlWrite v) := by intros; intro _ _ h; cases h
theorem powerOnReset : ∀ osc slot, Statement (.powerOnReset osc slot) := by intros; intro _ _ h; cases h
theorem modResetN : ∀ low, Statement (.modResetN low) := by intros; intro _ _ h; cases h
theorem moduleReset : Statement .moduleReset := by intro _ _ h; cases h
theorem hubReset : Statement .hubReset := by intro _ _ h; cases h
theorem perstN : ∀ low, Statement (.perstN low) := by intros; intro _ _ h; cases h
theorem resetCtrlWrite : ∀ v, Statement (.resetCtrlWrite v) := by intros; intro _ _ h; cases h
theorem bmcModuleReset : ∀ v, Statement (.bmcModuleReset v) := by intros; intro _ _ h; cases h
theorem bmcHubReset : ∀ v, Statement (.bmcHubReset v) := by intros; intro _ _ h; cases h
theorem startStage : ∀ o, Statement (.startStage o) := by intros; intro _ _ h; cases h
theorem startStageTimeout : Statement .startStageTimeout := by intro _ _ h; cases h
theorem llHeartbeat : Statement .llHeartbeat := by intro _ _ h; cases h
theorem llHeartbeatLoss : Statement .llHeartbeatLoss := by intro _ _ h; cases h
theorem modPwrEnAssert : ∀ bankMv, Statement (.modPwrEnAssert bankMv) := by intros; intro _ _ h; cases h
theorem modPwrEnDeassert : Statement .modPwrEnDeassert := by intro _ _ h; cases h
theorem vinUndervoltage : ∀ mv, Statement (.vinUndervoltage mv) := by intros; intro _ _ h; cases h
theorem vinOvervoltage : ∀ mv, Statement (.vinOvervoltage mv) := by intros; intro _ _ h; cases h
theorem blockEnable : ∀ b host, Statement (.blockEnable b host) := by intros; intro _ _ h; cases h
theorem blockDisable : ∀ b host, Statement (.blockDisable b host) := by intros; intro _ _ h; cases h
theorem enableCheckDone : ∀ b, Statement (.enableCheckDone b) := by intros; intro _ _ h; cases h
theorem rwsApply : ∀ b, Statement (.rwsApply b) := by intros; intro _ _ h; cases h
theorem registerWrite : ∀ bar bs, Statement (.registerWrite bar bs) := by intros; intro _ _ h; cases h
theorem counterLowHalfRead : ∀ x bar n, Statement (.counterLowHalfRead x bar n) := by intros; intro _ _ h; cases h
theorem i3cPrivateWrite : ∀ bs, Statement (.i3cPrivateWrite bs) := by intros; intro _ _ h; cases h
theorem i3cPrivateRead : ∀ words, Statement (.i3cPrivateRead words) := by intros; intro _ _ h; cases h
theorem i3cAddressAssignment : ∀ static addr, Statement (.i3cAddressAssignment static addr) := by intros; intro _ _ h; cases h
theorem jtagInstruction : ∀ j, Statement (.jtagInstruction j) := by intros; intro _ _ h; cases h
theorem arrayCold : ∀ a, Statement (.arrayCold a) := by intros; intro _ _ h; cases h
theorem compaction : ∀ ch, Statement (.compaction ch) := by intros; intro _ _ h; cases h
theorem vinReturn : ∀ mv, Statement (.vinReturn mv) := by intros; intro _ _ h; cases h
theorem rxDiscard : ∀ p f, Statement (.rxDiscard p f) := by intros; intro _ _ h; cases h
theorem laneSymbolErrorRatio : ∀ die lane, Statement (.laneSymbolErrorRatio die lane) := by intros; intro _ _ h; cases h
theorem iftEnd : ∀ c fs, Statement (.iftEnd c fs) := by intros; intro _ _ h; cases h
theorem managerHeartbeatLoss : Statement .managerHeartbeatLoss := by intro _ _ h; cases h
theorem memberAttestation : ∀ node ok, Statement (.memberAttestation node ok) := by intros; intro _ _ h; cases h
theorem managerReady : Statement .managerReady := by intro _ _ h; cases h
theorem holdover : Statement .holdover := by intro _ _ h; cases h
theorem hotReset : Statement .hotReset := by intro _ _ h; cases h

end Sys2Proof.Laws.WordFree
end

