-- ==== Sys2Proof/Laws/Work.lean ====
section
/-! SUPPORT. What the shared operations of commands at work can touch: each keeps to the frame OnlyWork. -/

namespace Sys2Proof.Machine

open Sys2Proof

/-! ## The frame -/

theorem OnlyWork.refl (s : State) : OnlyWork s s := rfl

/-- The frame, field by field. -/
theorem onlyWork_iff (s t : State) : OnlyWork s t ↔
    t.pending = s.pending ∧ (t.pilot = s.pilot ∧ t.arrayTime = s.arrayTime) ∧ t.hub = { s.hub with ctxs := t.hub.ctxs, nextRun := t.hub.nextRun } ∧
      (t.tiers.spreadGib = s.tiers.spreadGib ∧ t.tiers.deepLow = s.tiers.deepLow ∧
        t.tiers.deepLowNext = s.tiers.deepLowNext) ∧
      t.faults = { s.faults with detected := t.faults.detected } ∧ t.blks = s.blks ∧ t.links = s.links ∧
      t.fabric = s.fabric ∧ t.power = { s.power with rampReqs := t.power.rampReqs } ∧ t.clock = s.clock ∧
      t.roles = s.roles ∧ t.sec = s.sec ∧ t.board = s.board := by
  constructor
  · intro h
    unfold OnlyWork at h
    exact ⟨(congrArg State.pending h :), ⟨(congrArg State.pilot h :), (congrArg State.arrayTime h :)⟩, (congrArg State.hub h :),
      ⟨(congrArg (·.tiers.spreadGib) h :), (congrArg (·.tiers.deepLow) h :), (congrArg (·.tiers.deepLowNext) h :)⟩,
      (congrArg State.faults h :), (congrArg State.blks h :), (congrArg State.links h :), (congrArg State.fabric h :),
      (congrArg State.power h :), (congrArg State.clock h :), (congrArg State.roles h :), (congrArg State.sec h :),
      (congrArg State.board h :)⟩
  · rintro ⟨h1, ⟨h2, h0⟩, h3, ⟨ha, hb, hc⟩, h4, h5, h6, h7, h8, h9, h10, h11, h12⟩
    unfold OnlyWork
    rw [← h1, ← h2, ← h0, ← h3, ← ha, ← hb, ← hc, ← h4, ← h5, ← h6, ← h7, ← h8, ← h9, ← h10, ← h11, ← h12]

theorem OnlyWork.trans {s t u : State} (h : OnlyWork s t) (k : OnlyWork t u) : OnlyWork s u := by
  rw [onlyWork_iff] at *
  obtain ⟨h1, h2, h3, ⟨ha, hb, hc⟩, h4, h5, h6, h7, h8, h9, h10, h11, h12⟩ := h
  obtain ⟨k1, k2, k3, ⟨ka, kb, kc⟩, k4, k5, k6, k7, k8, k9, k10, k11, k12⟩ := k
  refine ⟨k1.trans h1, ⟨k2.1.trans h2.1, k2.2.trans h2.2⟩, ?_, ⟨ka.trans ha, kb.trans hb, kc.trans hc⟩, ?_, k5.trans h5, k6.trans h6,
    k7.trans h7, ?_, k9.trans h9, k10.trans h10, k11.trans h11, k12.trans h12⟩
  · rw [h3] at k3; exact k3
  · rw [h4] at k4; exact k4
  · rw [h8] at k8; exact k8

/-- Work leaves every setting. -/
theorem OnlyWork.settings {s t : State} (h : OnlyWork s t) : t.settings = s.settings := by
  rw [onlyWork_iff] at h
  obtain ⟨-, -, -, ⟨ha, -, -⟩, -, -, -, -, h8, h9, -, -, -⟩ := h
  simp only [State.settings, ha, h9]
  rw [h8]

/-- A fold whose every step keeps to the frame keeps to it. -/
theorem onlyWork_foldl {α : Type} (f : State → α → State) (h : ∀ s a, OnlyWork s (f s a)) (l : List α) (s : State) :
    OnlyWork s (l.foldl f s) := by
  induction l generalizing s with
  | nil => exact OnlyWork.refl s
  | cons a l ih => exact (h s a).trans (ih (f s a))

/-- The same for a fold that carries a state and more. -/
theorem onlyWork_foldl_pair {α β : Type} (f : State × β → α → State × β) (h : ∀ r a, OnlyWork r.1 (f r a).1) (l : List α)
    (r : State × β) : OnlyWork r.1 (l.foldl f r).1 := by
  induction l generalizing r with
  | nil => exact OnlyWork.refl r.1
  | cons a l ih => exact (h r a).trans (ih (f r a))

/-! ## Updates -/

theorem onlyWork_modCtx (s : State) (x : Fin 16) (f : Ctx → Ctx) : OnlyWork s (s.modCtx x f) := rfl
theorem onlyWork_modCC (s : State) (x : Fin 16) (c : Fin 4) (f : CtxCore → CtxCore) : OnlyWork s (s.modCC x c f) := rfl
theorem onlyWork_modTok (s : State) (x : Fin 16) (c : Fin 4) (i : Nat) (f : TokSlot → TokSlot) :
    OnlyWork s (s.modTok x c i f) := rfl
theorem onlyWork_modCore (s : State) (c : Fin 4) (f : CoreS → CoreS) : OnlyWork s (s.modCore c f) := rfl
theorem onlyWork_modFeed (s : State) (c : Fin 4) (f : FeedS → FeedS) : OnlyWork s (s.modFeed c f) := rfl
theorem onlyWork_modArr (s : State) (a : Fin 8) (f : ArrayS → ArrayS) : OnlyWork s (s.modArr a f) := rfl
theorem onlyWork_modStack (s : State) (n : Fin 12) (f : StackS → StackS) : OnlyWork s (s.modStack n f) := rfl
theorem onlyWork_modTiers (s : State) (f : Tiers → Tiers) (h : ∀ k, (f k).spreadGib = k.spreadGib ∧
    (f k).deepLow = k.deepLow ∧ (f k).deepLowNext = k.deepLowNext) : OnlyWork s (s.modTiers f) :=
  (onlyWork_iff _ _).2 ⟨rfl, ⟨rfl, rfl⟩, rfl, h s.tiers, rfl, rfl, rfl, rfl, rfl, rfl, rfl, rfl, rfl⟩
theorem onlyWork_modAcct (s : State) (n : Nat) (f : MigrateAcct → MigrateAcct) : OnlyWork s (s.modAcct n f) := rfl
theorem onlyWork_detect (s : State) (f : FaultRec) : OnlyWork s (s.detect f) := rfl
theorem onlyWork_occasion (s : State) : OnlyWork s s.occasion.2 := rfl
theorem onlyWork_modRun (s : State) (id : Nat) (f : Run → Run) : OnlyWork s (s.modRun id f) := rfl
theorem onlyWork_invalidate (s : State) (a n : Nat) : OnlyWork s (s.invalidate a n) := rfl
theorem onlyWork_failClean (s : State) (r : Run) (reason : Nat) : OnlyWork s (s.failClean r reason) := rfl
theorem onlyWork_setStatusOut (s : State) (r : Run) (reason : Nat) : OnlyWork s (s.setStatusOut r reason) := rfl
theorem onlyWork_setScaleRec (s : State) (x : Fin 16) (i : Nat) (r : ScaleRec) : OnlyWork s (s.setScaleRec x i r) := rfl

/-! ## Entries and events -/

/-- What forming an entry can do: it joins the entries of its context, or nothing happens. -/
theorem post_cases (s : State) (x : Fin 16) (e : Entry) :
    s.post x e = s.modCtx x (fun k => { k with formed := k.formed ++ [e] }) ∨ s.post x e = s := by
  unfold State.post
  split
  · exact .inl rfl
  · split
    · exact .inl rfl
    · exact .inr rfl
  · exact .inr rfl
  · exact .inr rfl

/-- An entry of an ACTIVE context joins the entries that wait for its ring. -/
theorem post_active (s : State) (x : Fin 16) (e : Entry) (h : (s.ctx x).state = .active) :
    s.post x e = s.modCtx x (fun k => { k with formed := k.formed ++ [e] }) := by
  simp [State.post, h]

theorem onlyWork_post (s : State) (x : Fin 16) (e : Entry) : OnlyWork s (s.post x e) := by
  rcases post_cases s x e with h | h <;> rw [h] <;> rfl

theorem onlyWork_event (s : State) (x : Fin 16) (reason : Nat) (d : List Byte) : OnlyWork s (s.event x reason d) :=
  onlyWork_post _ _ _

/-! ## Memories -/

theorem onlyWork_deepLowCheck (s : State) (ch : Fin 16) (n : Nat) : OnlyWork s (s.deepLowCheck ch n) := by
  unfold State.deepLowCheck
  dsimp only
  split
  · refine (onlyWork_modTiers s _ (by intro; exact ⟨rfl, rfl, rfl⟩)).trans (onlyWork_foldl _ ?_ _ _)
    intro s x
    split
    · exact onlyWork_event _ _ _ _
    · exact OnlyWork.refl _
  · split
    · exact OnlyWork.refl _
    · rfl

theorem onlyWork_deepLowOf (s : State) (ch : Nat) : OnlyWork s (s.deepLowOf ch) := onlyWork_deepLowCheck _ _ _

theorem onlyWork_placeBlock (s t : State) (p j : Nat) (bs : List PByte) (h : s.placeBlock p j bs = some t) : OnlyWork s t := by
  unfold State.placeBlock at h
  dsimp only at h
  split at h
  · cases h
    exact OnlyWork.trans (t := s.putDeep p j 0 0 bs) rfl (onlyWork_deepLowOf _ _)
  · split at h
    · cases h
    · cases h
      exact OnlyWork.trans (by rfl) (onlyWork_deepLowOf _ _)

theorem onlyWork_writeDeepBlock (s : State) (x : Fin 16) (p j off : Nat) (bs : List PByte) :
    OnlyWork s (s.writeDeepBlock x p j off bs) := by
  unfold State.writeDeepBlock
  dsimp only
  split
  · rfl
  · split
    · rename_i t h
      exact onlyWork_placeBlock s t p j _ h
    · split
      · exact OnlyWork.refl _
      · rfl

theorem onlyWork_clearDeep (s : State) (p : Nat) : OnlyWork s (s.clearDeep p) := by
  unfold State.clearDeep
  exact (onlyWork_modTiers s _ (by intro; exact ⟨rfl, rfl, rfl⟩)).trans (onlyWork_foldl _ (fun s ch => onlyWork_deepLowOf s ch) _ _)

theorem onlyWork_writeDeep (s : State) (x : Fin 16) (p off : Nat) (bs : List PByte) : OnlyWork s (s.writeDeep x p off bs) :=
  onlyWork_foldl _ (fun s _ => onlyWork_writeDeepBlock s _ _ _ _ _) _ _

theorem onlyWork_writeHome (s : State) (x : Fin 16) (h : Home) (p off : Nat) (bs : List PByte) :
    OnlyWork s (s.writeHome x h p off bs) := by
  unfold State.writeHome
  cases h
  · exact onlyWork_foldl_pair _ (fun r _ => onlyWork_modStack r.1 _ _) _ (s, bs)
  · exact onlyWork_foldl_pair _ (fun r _ => onlyWork_modStack r.1 _ _) _ (s, bs)
  · exact onlyWork_writeDeep s x p off bs

/-- A write of the unified range touches stacks, tiers, caches, free values and the entries of 0x031C only. -/
theorem onlyWork_uwrite (s : State) (a : Nat) (bs : List PByte) : OnlyWork s (s.uwrite a bs) := by
  unfold State.uwrite
  refine (onlyWork_invalidate s a bs.length).trans (onlyWork_foldl_pair _ ?_ _ (_, bs))
  intro r q
  dsimp only
  split
  · exact OnlyWork.refl _
  · split
    · exact onlyWork_modTiers _ _ (by intro; exact ⟨rfl, rfl, rfl⟩)
    · exact onlyWork_writeHome _ _ _ _ _ _

theorem onlyWork_wwrite (s : State) (x : Fin 16) (c : Fin 4) (w : Nat) (bs : List PByte) : OnlyWork s (s.wwrite x c w bs) := by
  unfold State.wwrite
  split <;> rfl

theorem onlyWork_rwrite (s : State) (x : Fin 16) (space : Nat) (c : Fin 4) (a : Nat) (bs : List PByte) :
    OnlyWork s (s.rwrite x space c a bs) := by
  unfold State.rwrite
  split
  · exact onlyWork_wwrite _ _ _ _ _
  · exact onlyWork_uwrite _ _ _

theorem onlyWork_rwriteRuns (s : State) (x : Fin 16) (space : Nat) (c : Fin 4) (runs : List (Nat × List PByte)) :
    OnlyWork s (s.rwriteRuns x space c runs) :=
  onlyWork_foldl _ (fun s _ => onlyWork_rwrite s _ _ _ _ _) _ _

theorem onlyWork_poisonRegion (s : State) (x : Fin 16) (c : Fin 4) (r : Region) : OnlyWork s (s.poisonRegion x c r) :=
  onlyWork_foldl _ (fun s _ => onlyWork_rwrite s _ _ _ _ _) _ _

/-! ## What reads find (10, R247; 11, R276) -/

theorem onlyWork_detectSpan (s : State) (core : Option (Fin 4)) (f : FaultRec) : OnlyWork s (s.detectSpan core f) := by
  unfold State.detectSpan
  split
  · rfl
  · split <;> rfl

theorem onlyWork_loseSector (s : State) (n : Fin 12) (a : Nat) (data : List Byte) (core : Option (Fin 4))
    (name : FaultRec → FaultRec) : OnlyWork s (s.loseSector n a data core name) := by
  unfold State.loseSector
  dsimp only
  have h : OnlyWork s (if inReserved n a && (name (s.sectorFault n a)).severity == 0 then
      s.modStack n (fun t => { t with
        mem := if 0x70000000 ≤ a then t.mem.erase a 64 else t.mem, errs := aerase (a / 64) t.errs, ue := satAdd t.ue 1 })
    else s.modStack n (fun t => t.poisonSector a data)) := by
    split <;> rfl
  split
  · exact h
  · exact h.trans (onlyWork_detectSpan _ _ _)

theorem onlyWork_touchSector (s : State) (n : Fin 12) (a : Nat) (core : Option (Fin 4)) (name : FaultRec → FaultRec) :
    OnlyWork s (s.touchSector n a core name) := by
  unfold State.touchSector
  dsimp only
  split
  · exact OnlyWork.refl _
  · rfl
  · rfl
  · exact onlyWork_loseSector _ _ _ _ _ _

theorem onlyWork_countDeep (s : State) (ch : Nat) (fixed : Bool) : OnlyWork s (s.countDeep ch fixed) := by
  unfold State.countDeep
  exact onlyWork_modTiers _ _ (by intro k; split <;> exact ⟨rfl, rfl, rfl⟩)

/-- A read counts what its decoder finds, marks what is lost and enters its record, and nothing else. -/
theorem onlyWork_touch (s : State) (a : Nat) (reader : Option (Fin 4)) : OnlyWork s (s.touch a reader) := by
  unfold State.touch
  dsimp only
  split
  · exact OnlyWork.refl _
  · split
    · split
      · exact onlyWork_countDeep _ _ _
      · exact OnlyWork.refl _
    · split
      · exact onlyWork_touchSector _ _ _ _ _
      · exact OnlyWork.refl _

theorem onlyWork_touchRange (s : State) (a n : Nat) (reader : Option (Fin 4)) : OnlyWork s (s.touchRange a n reader) := by
  unfold State.touchRange
  split
  · exact OnlyWork.refl _
  · exact onlyWork_foldl _ (fun s k => onlyWork_touch s _ _) _ _

/-- A read of memory in which nothing is marked, unreadable or in error changes nothing. -/
theorem touchRange_quiet (s : State) (a n : Nat) (reader : Option (Fin 4)) (h : s.quiet = true) :
    s.touchRange a n reader = s := by
  simp [State.touchRange, h]

/-! ## Scales and contributions -/

theorem onlyWork_rollRec (s : State) (x : Fin 16) (i : Nat) (step : W32) : OnlyWork s (s.rollRec x i step) := by
  unfold State.rollRec
  dsimp only
  split
  · rfl
  · exact OnlyWork.trans (by rfl) (onlyWork_post _ _ _)

theorem onlyWork_contributeNow (s : State) (x : Fin 16) (c : Contribution) : OnlyWork s (s.contributeNow x c) := by
  unfold State.contributeNow
  dsimp only
  split
  · exact OnlyWork.trans (by rfl) (onlyWork_post _ _ _)
  · rfl

theorem onlyWork_contribute (s : State) (x : Fin 16) (c : Contribution) : OnlyWork s (s.contribute x c) := by
  unfold State.contribute
  dsimp only
  split
  · exact OnlyWork.refl _
  · split
    · exact onlyWork_contributeNow _ _ _
    · split
      · exact OnlyWork.trans (by rfl) (onlyWork_post _ _ _)
      · rfl
    · exact (onlyWork_rollRec s x _ _).trans (onlyWork_contributeNow _ _ _)
    · exact OnlyWork.refl _

theorem onlyWork_applyContribs (s : State) (x : Fin 16) (c : Fin 4) (cs : List Contribution) :
    OnlyWork s (s.applyContribs x c cs) :=
  OnlyWork.trans (t := s.dieCensus c cs) rfl (onlyWork_foldl _ (fun s b => onlyWork_contribute s x b) _ _)

theorem onlyWork_contributeAll (s : State) (x : Fin 16) (c : Fin 4) (cs : List Contribution) :
    OnlyWork s (s.contributeAll x c cs) := by
  unfold State.contributeAll
  split
  · split
    · rfl
    · exact onlyWork_applyContribs _ _ _ _
  · exact onlyWork_applyContribs _ _ _ _

theorem onlyWork_quantScale (s : State) (x : Fin 16) (i : Nat) (e step : W32) : OnlyWork s (s.quantScale x i e step).1 := by
  unfold State.quantScale
  split
  · exact OnlyWork.refl _
  · dsimp only
    split
    · rfl
    · split
      · exact OnlyWork.refl _
      · exact onlyWork_rollRec _ _ _ _
      · exact OnlyWork.refl _
      · exact OnlyWork.refl _

/-! ## Groups -/

theorem onlyWork_putAlm (s : State) (x : Fin 16) (g off : Nat) (bs : List Byte) : OnlyWork s (s.putAlm x g off bs) := by
  unfold State.putAlm
  split
  · exact OnlyWork.refl _
  · split
    · exact OnlyWork.refl _
    · exact (onlyWork_modCtx s x _).trans (onlyWork_uwrite _ _ _)

theorem onlyWork_setStatus (s : State) (x : Fin 16) (g i : Nat) (v : Bool) : OnlyWork s (s.setStatus x g i v) := by
  unfold State.setStatus
  split
  · exact OnlyWork.refl _
  · exact onlyWork_putAlm _ _ _ _ _

/-! ## Queues and runs (13) -/

theorem onlyWork_failRun (s : State) (r : Run) (reason : Nat) : OnlyWork s (s.failRun r reason) :=
  OnlyWork.trans (onlyWork_foldl _ (fun s _ => onlyWork_poisonRegion s _ _ _) _ _) (onlyWork_modRun _ _ _)

theorem onlyWork_notePoison (s : State) (r : Run) (p : Bool) : OnlyWork s (s.notePoison r p) := by
  unfold State.notePoison
  split <;> rfl

theorem onlyWork_poisonSlot (s : State) (x : Fin 16) (c : Fin 4) (i : Nat) : OnlyWork s (s.poisonSlot x c i) := by
  unfold State.poisonSlot
  split
  · rfl
  · split <;> rfl

theorem onlyWork_claim (s : State) (x : Fin 16) (k : Claim) : OnlyWork s (s.claim x k) := rfl

theorem onlyWork_release (s : State) (x : Fin 16) (k : Claim) (failed : Bool) : OnlyWork s (s.release x k failed) := by
  unfold State.release
  dsimp only
  split
  · exact (onlyWork_modTok s x _ _ _).trans (onlyWork_poisonSlot _ _ _ _)
  · rfl

theorem onlyWork_listDone (s : State) (x : Fin 16) (c : Cmd) : OnlyWork s (s.listDone x c) := by
  unfold State.listDone
  split
  · rfl
  · split
    · dsimp only
      split
      · exact (onlyWork_modCtx s x _).trans (onlyWork_post _ _ _)
      · rfl
    · rfl

theorem onlyWork_report (s : State) (x : Fin 16) (c : Cmd) (d : Done) : OnlyWork s (s.report x c d) := by
  unfold State.report
  dsimp only
  split
  · exact (onlyWork_post s x _).trans (onlyWork_listDone _ _ _)
  · exact onlyWork_listDone _ _ _

theorem onlyWork_signal (s : State) (x : Fin 16) (q : Nat) (c : Cmd) : OnlyWork s (s.signal x q c) := by
  unfold State.signal
  dsimp only
  split <;> rfl

theorem onlyWork_emptyBoundary (s : State) (x : Fin 16) (c : Fin 4) (ev : Bool) : OnlyWork s (s.emptyBoundary x c ev) := by
  unfold State.emptyBoundary
  split <;> rfl

theorem onlyWork_schedPass (c : Fin 4) (xs : List (Fin 16)) (s : State) (r : State × Option (Fin 16) × Bool) :
    OnlyWork r.1 (State.schedPass s c xs r).1 := by
  induction xs generalizing s r with
  | nil => exact OnlyWork.refl _
  | cons x xs ih =>
    obtain ⟨st, found, skipped⟩ := r
    unfold State.schedPass
    cases found with
    | some y => exact OnlyWork.refl _
    | none =>
      dsimp only
      split
      · exact ih s (st, none, skipped)
      · split
        · exact (onlyWork_modCC st x c _).trans (ih s (_, none, true))
        · exact onlyWork_modCC st x c _

theorem onlyWork_schedLoop (c : Fin 4) (order : List (Fin 16)) (n : Nat) (s : State) :
    OnlyWork s (State.schedLoop c order n s).1 := by
  induction n generalizing s with
  | zero => exact OnlyWork.refl _
  | succ n ih =>
    have h := onlyWork_schedPass c order s (s, none, false)
    simp only [State.schedLoop]
    split
    · rename_i h1
      rw [h1] at h
      exact h
    · rename_i h1
      rw [h1] at h
      split
      · exact h.trans (ih _)
      · exact h

theorem onlyWork_dropShadows (s : State) (c : Fin 4) : OnlyWork s (s.dropShadows c) := rfl

/-- The scheduler changes slices, debts and the current context of its core, and abandons the look-ahead of a context that it leaves. -/
theorem onlyWork_schedule (s : State) (c : Fin 4) : OnlyWork s (s.schedule c).1 := by
  unfold State.schedule
  dsimp only
  split
  · exact OnlyWork.refl _
  · split
    · exact OnlyWork.refl _
    split
    · exact OnlyWork.refl _
    · have h := (onlyWork_modCC s (s.core c).current c (fun k => { k with remaining := 0 })).trans
        (onlyWork_schedLoop c (contextsAfter (s.core c).current)
          ((contextsAfter (s.core c).current).foldl (fun n x => n + (s.cc x c).debt / ((s.cc x c).budget + 1) + 2) 1) _)
      split
      · rename_i h1
        rw [h1] at h
        refine h.trans (OnlyWork.trans ?_ (onlyWork_modCore _ _ _))
        split
        · exact OnlyWork.refl _
        · exact onlyWork_dropShadows _ _
      · rename_i h1
        rw [h1] at h
        exact h

theorem onlyWork_askMove (s : State) (r : MoveReq) : OnlyWork s (s.askMove r) := rfl

theorem onlyWork_planMoves (s : State) (x : Fin 16) (old new : List Nat) : OnlyWork s (s.planMoves x old new) := by
  unfold State.planMoves
  refine OnlyWork.trans (onlyWork_foldl _ (fun s _ => onlyWork_askMove s _) _ _) (onlyWork_foldl _ ?_ _ _)
  intro s p
  unfold State.askNear
  split
  · exact onlyWork_askMove _ _
  · exact OnlyWork.refl _

theorem onlyWork_layerAdvance (s : State) (x : Fin 16) (c : Cmd) : OnlyWork s (s.layerAdvance x c) := by
  unfold State.layerAdvance
  split
  · dsimp only
    split
    · exact OnlyWork.refl _
    · split
      · exact (onlyWork_modCtx s x _).trans (onlyWork_planMoves _ _ _ _)
      · exact OnlyWork.refl _
  · exact OnlyWork.refl _

/-- A dispatch to a core keeps to the frame. -/
theorem onlyWork_startRun (s : State) (x : Fin 16) (c : Fin 4) (ev : Bool) (cmd : Cmd) :
    OnlyWork s (s.startRun x c ev cmd).1 := by
  unfold State.startRun
  dsimp only
  refine OnlyWork.trans ?_ (onlyWork_layerAdvance _ _ _)
  refine OnlyWork.trans (t := s.popHead x c ev) rfl ?_
  exact OnlyWork.trans (onlyWork_foldl _ (fun s k => onlyWork_claim s x k) _ _) rfl

/-- What a dispatch to a core gives: a run with the next number, which now runs there. -/
theorem onlyWork_dispatchCore (s s1 : State) (c : Fin 4) (isOp : Cmd → Bool) (r : Run)
    (h : s.dispatchCore c isOp = some (s1, r)) : OnlyWork s s1 := by
  unfold State.dispatchCore at h
  split at h
  · cases h
  · split at h
    · cases h
    · rename_i u x hs
      have hu := onlyWork_schedule s c
      rw [hs] at hu
      split at h
      · cases h
      · rename_i cmd ev _
        split at h
        · cases h
          exact hu.trans (onlyWork_startRun u x c ev cmd)
        · cases h

theorem onlyWork_finishRun (s : State) (r : Run) : OnlyWork s (s.finishRun r) :=
  (onlyWork_modCtx s r.x _).trans
    (OnlyWork.trans (onlyWork_foldl _ (fun s k => onlyWork_release s r.x k _) _ _) (onlyWork_report _ _ _ _))

theorem onlyWork_endUpdate (s : State) (r : Run) : OnlyWork s (s.endUpdate r) := by
  unfold State.endUpdate
  split
  · exact onlyWork_setStatus _ _ _ _ _
  · exact OnlyWork.refl _

theorem onlyWork_scrambleArea (s : State) (x : Fin 16) (c : Fin 4) (off size : Nat) (p : Bool) :
    OnlyWork s (s.scrambleArea x c off size p) := by
  unfold State.scrambleArea
  split
  · exact (onlyWork_occasion s).trans (onlyWork_wwrite _ _ _ _ _)
  · exact OnlyWork.refl _

theorem onlyWork_leaveWork (s : State) (c : Fin 4) (r : Run) : OnlyWork s (s.leaveWork c r) := by
  unfold State.leaveWork
  split
  · exact onlyWork_scrambleArea _ _ _ _ _ _
  · exact OnlyWork.refl _

theorem onlyWork_stopIssue (s : State) (c : Fin 4) : OnlyWork s (s.stopIssue c) :=
  OnlyWork.trans (onlyWork_foldl _ (fun s a => onlyWork_modArr s a _) _ _) rfl

/-- What comes before a command of a core leaves it: its group, its work area and its arrays. -/
theorem onlyWork_leaves (s : State) (c : Fin 4) (r : Run) : OnlyWork s (((s.endUpdate r).leaveWork c r).stopIssue c) :=
  ((onlyWork_endUpdate s r).trans (onlyWork_leaveWork _ c r)).trans (onlyWork_stopIssue _ c)

theorem onlyWork_finishCore (s : State) (c : Fin 4) (charge : Nat) : OnlyWork s (s.finishCore c charge) := by
  unfold State.finishCore
  split
  · exact OnlyWork.refl _
  · dsimp only
    rename_i r _
    refine (onlyWork_leaves s c r).trans ?_
    generalize ((s.endUpdate r).leaveWork c r).stopIssue c = u
    split
    · split <;> rfl
    · refine OnlyWork.trans ?_ ((onlyWork_report _ _ _ _).trans (onlyWork_emptyBoundary _ _ _ _))
      exact OnlyWork.trans (OnlyWork.trans (by rfl) (onlyWork_foldl _ (fun s k => onlyWork_release s _ k _) _ _)) (onlyWork_modCC _ _ _ _)

theorem onlyWork_finishNow (s : State) (q : QRef) (r : Run) : OnlyWork s (s.finishNow q r) := by
  unfold State.finishNow
  split
  · exact (onlyWork_finishCore _ _ _).trans (onlyWork_schedule _ _)
  · split
    · exact onlyWork_finishRun _ _
    · exact OnlyWork.refl _

end Sys2Proof.Machine
end

