-- ==== Sys2Proof/WellFormed.lean ====
section
/-! DEFINITION. Which commands the outside can send: operands within the ranges that the manual gives them. -/

namespace Sys2Proof

/-- An upset names a side, a row within reach and one of 4,096 lanes (04, R85), and flips something. -/
def Upset.wf (u : Upset) : Bool := decide (u.side < 2) && decide (u.lane < 4096) && u.mask != 0

/-- The fields of a frame fit Table 14.3. -/
def Frame.wf (f : Frame) : Bool :=
  decide (f.version < 16) && decide (f.kind < 16) && decide (f.src < 2 ^ 24) && decide (f.dst < 2 ^ 24) &&
    decide (f.job < 65536) && decide (f.channel < 256) && decide (f.stripe < 256) && decide (f.payload.length < 65536)

/-- An error pattern of a code of `count` symbols names each symbol once (10, R243; 11, R276). -/
def symbolsOk (count : Nat) (err : Pattern) : Bool := err.all (fun e => decide (e.1 < count)) && decide (err.map (·.1)).Nodup

/-- A fault of the environment names a place that exists. -/
def EnvFault.wf : EnvFault → Bool
  | .unified a err _ => decide (a < 2 ^ 41) && symbolsOk 132 err
  | .reserved a err => decide (a < 0x80000000) && symbolsOk 36 err
  | .scratchpad _ row _ => decide (row < 196608)
  | .parityUnified a _ _ => decide (a < 2 ^ 41)
  | .parityScratchpad _ row _ _ => decide (row < 196608)
  | .parityRows _ _ _ => true
  | .parityBank _ _ _ => true
  | .driftStore page => decide (page < 2 ^ 24)
  | .deepDirectory _ => true
  | .hubSram => true
  | .slotSram _ _ => true
  | .ringEntry pos => decide (pos < 4096)

/-- A tested site is one of the 4,224 of an array (04, Table 1.1). -/
def IftFail.wf : IftFail → Bool
  | .site _ n _ => decide (n < 4224)
  | .witness _ _ => true
  | .bank _ => true

/-- What an end of a start stage brings. -/
def StageEnd.wf : StageEnd → Bool
  | .plain => true
  | .verified active other _ _ _ => decide (active < 65536) && decide (other < 65536)
  | .crystal counts _ => decide (counts.length = 4)
  | .trained lanes _ => lanes.all (fun l => decide (l.2.2.2 < 36))
  | .selfTest fails => fails.all (fun f => decide (f.2.1 < 4224))

/-- An SPDM request in a frame carries a well-formed one. -/
def SpdmReq.wf : SpdmReq → Bool
  | .doe _ => true
  | .bxt _ f => f.wf

/-- A page of the unified range (11, R267). -/
def pageWf (p : Nat) : Bool := decide (p < 2 ^ 24)

/-- A command that the outside can send. -/
def Instr.wf : Instr → Bool
  | .slotWrite _ _ off bs => decide (0 < bs.length) && decide (off + bs.length ≤ 0x12000)
  | .sealWrite _ _ _ _ _ => true
  | .packetTake _ => true
  | .heldPacketRelease _ _ => true
  | .submit _ _ => true
  | .feed _ _ => true
  | .fetch _ _ => true
  | .create _ _ => true
  | .destroy _ _ => true
  | .destroyFinish _ => true
  | .setQuota _ _ => true
  | .setWindow _ _ => true
  | .setAreas _ _ => true
  | .areasApply _ => true
  | .setSpread _ _ => true
  | .loadScale _ _ => true
  | .loadScaleApply _ _ => true
  | .loadSlots _ _ => true
  | .slotTableApply _ _ => true
  | .loadAlmanac _ _ => true
  | .almanacApply _ _ => true
  | .map _ _ => true
  | .unmap _ _ => true
  | .setRole _ _ => true
  | .ownerRecord _ _ => true
  | .ownerRelease _ _ => true
  | .setSched _ _ => true
  | .fwUpdateWrite _ _ => true
  | .fwUpdateActivate _ _ => true
  | .fwUpdateAbandon _ _ => true
  | .queryContextStatus _ _ => true
  | .queryScaleRecords _ _ => true
  | .querySlots _ _ => true
  | .queryTierCounters _ _ => true
  | .queryHomeMap _ _ => true
  | .queryAlmanac _ _ => true
  | .queryModule _ _ => true
  | .queryFaultRing _ _ => true
  | .cqHeadWrite _ _ => true
  | .backlogDrain _ => true
  | .completionEntry _ => true
  | .functionLevelReset _ => true
  | .mm _ _ ups => ups.all Upset.wf
  | .mmb _ ups => ups.all Upset.wf
  | .attend _ ups => ups.all Upset.wf
  | .attendB _ ups => ups.all Upset.wf
  | .vec _ => true
  | .norm _ => true
  | .normB _ => true
  | .quant _ => true
  | .gatherE _ => true
  | .copy _ => true
  | .update _ _ _ => true
  | .precond _ => true
  | .coll _ => true
  | .send _ => true
  | .recv _ => true
  | .shardGather _ => true
  | .migrate _ => true
  | .layerPlanStart _ => true
  | .layerPlanStop _ => true
  | .pin _ => true
  | .unpin _ => true
  | .fenceSignal _ => true
  | .fenceWait _ => true
  | .acquire _ => true
  | .release _ => true
  | .spanOpen _ => true
  | .spanClose _ => true
  | .hint _ => true
  | .census _ => true
  | .nop _ => true
  | .commandComplete _ i _ => decide (i < 16)
  | .lookaheadLoad _ => true
  | .bankLoadDone _ => true
  | .bankSwap _ => true
  | .rowDrain _ ups => ups.all (fun u => decide (u.1 < 4096))
  | .spanReplay _ => true
  | .replayDecision _ _ => true
  | .laneRemap _ => true
  | .arrayDegrade _ => true
  | .coreOutOfService _ => true
  | .starveTimeout _ _ => true
  | .overrunTimeout _ _ i => decide (i < 64)
  | .commandWatchdog _ i => decide (i < 16)
  | .spanTimeout _ => true
  | .fenceWaitTimeout _ _ => true
  | .acquireTimeout _ _ => true
  | .updateWaitTimeout _ _ => true
  | .peerWaitTimeout _ i => decide (i < 16)
  | .deepSpaceTimeout _ => true
  | .pageMove _ => true
  | .pageSwitch page => pageWf page
  | .moveTimeout page => pageWf page
  | .moveRetry page => pageWf page
  | .scrubRead _ sector err => decide (64 * sector < 0x1200000000) && symbolsOk 36 err
  | .wcbAgeFlush _ sector => decide (64 * sector < 0x1200000000)
  | .wcbHighFlush _ => true
  | .faultRecord f => f.all EnvFault.wf
  | .faultHandle _ => true
  | .faultStatusWrite _ => true
  | .minuteTick => true
  | .storeBatch _ => true
  | .storeBatchDone => true
  | .holdupLow => true
  | .capacitanceMeasure _ => true
  | .iftDue _ => true
  | .iftRun _ => true
  | .iftForce _ => true
  | .iftRunNow _ => true
  | .portInService _ => true
  | .portAlignmentLoss _ _ => true
  | .dataFrame _ f => f.wf
  | .ackFrame _ f => f.wf
  | .rtsFrame _ f => f.wf
  | .ctsFrame _ f => f.wf
  | .shardRequest _ f => f.wf
  | .shardServe _ => true
  | .ackTimer peer job channel => decide (peer < 2 ^ 24) && decide (job < 65536) && decide (channel < 4)
  | .retxTimeout peer job channel _ => decide (peer < 2 ^ 24) && decide (job < 65536) && decide (channel < 4)
  | .rtsRetry _ i => decide (i < 16)
  | .hello _ f => f.wf
  | .welcome _ f => f.wf
  | .groupReady _ f => f.wf
  | .installReady _ f => f.wf
  | .heartbeat _ f => f.wf
  | .takeCharge _ f => f.wf
  | .rosterUpdate _ f => f.wf
  | .takeover _ f _ => f.wf
  | .takeoverDone _ f => f.wf
  | .ckptHeld _ f => f.wf
  | .faultReport _ f => f.wf
  | .slowReport _ f => f.wf
  | .capSet _ f => f.wf
  | .notice _ f => f.wf
  | .helloRepeat => true
  | .groupForm => true
  | .deputyTakeCharge _ => true
  | .registrationClose => true
  | .heartbeatSend => true
  | .memberFail node => decide (node < 2 ^ 24)
  | .capReview => true
  | .slowReportSend => true
  | .getVersion r => r.wf
  | .getCapabilities r => r.wf
  | .negotiateAlgorithms r => r.wf
  | .getDigests r => r.wf
  | .getCertificate r => r.wf
  | .challenge r => r.wf
  | .getMeasurements r => r.wf
  | .barometerWindow counts => decide (counts.length = 32) && counts.all (fun c => decide (c.length = 64))
  | .barometerPeriod => true
  | .railMeasurement _ _ => true
  | .recalibrationFit _ _ => true
  | .temperatureRead _ ts => decide (0 < ts.length) && decide (ts.length ≤ 4)
  | .thermalDutyUpdate => true
  | .thermalTrip _ => true
  | .rampGrant => true
  | .hintExpire _ _ => true
  | .clockStart _ => true
  | .clockStartDone _ => true
  | .clockStop _ => true
  | .pwrCapWrite _ => true
  | .bmcCapWrite _ => true
  | .monitorWindow _ _ => true
  | .switchPauseEnd => true
  | .oscillatorCalibrate _ => true
  | .clkCtrlWrite _ => true
  | .powerOnReset _ _ => true
  | .modResetN _ => true
  | .moduleReset => true
  | .hubReset => true
  | .perstN _ => true
  | .resetCtrlWrite _ => true
  | .bmcModuleReset _ => true
  | .bmcHubReset _ => true
  | .startStage o => o.wf
  | .startStageTimeout => true
  | .llHeartbeat => true
  | .llHeartbeatLoss => true
  | .modPwrEnAssert _ => true
  | .modPwrEnDeassert => true
  | .vinUndervoltage _ => true
  | .vinOvervoltage _ => true
  | .blockEnable _ _ => true
  | .blockDisable _ _ => true
  | .enableCheckDone _ => true
  | .rwsApply _ => true
  | .registerWrite bar bs => decide (0 < bs.length) && decide (bar + bs.length ≤ 0x4000000)
  | .counterLowHalfRead x bar n => decide (bar + n ≤ if x = 0 then 0x4000000 else 0x100000)
  | .i3cPrivateWrite _ => true
  | .i3cPrivateRead words => decide (0 < words)
  | .i3cAddressAssignment _ addr => decide (addr < 128)
  | .jtagInstruction _ => true
  | .arrayCold _ => true
  | .compaction _ => true
  | .vinReturn _ => true
  | .rxDiscard _ f => f.all Frame.wf
  | .laneSymbolErrorRatio _ _ => true
  | .iftEnd _ fs => fs.all IftFail.wf
  | .managerHeartbeatLoss => true
  | .memberAttestation node _ => decide (node < 2 ^ 24)
  | .managerReady => true
  | .holdover => true
  | .hotReset => true

end Sys2Proof
end

