-- ==== Sys2Proof/Tests/Slice0.lean ====
section
/-! SUPPORT. Small checks: witnesses that the hypotheses of the obligations are met together, results that the manual gives, and
ill-formed commands. -/

namespace Sys2Proof.Tests

open Sys2Proof Sys2Proof.Machine

set_option Elab.async false

/-! ## A module at work -/

/-- A module that is ready, on the recovered clock, its blocks enabled, its cores and ports in service and its clocks running,
with context 0 ACTIVE and an hour of pilot cycles behind it. -/
def up : State := { State.reset with
  pilot := 180000000000
  arrayTime := 180000000000
  clock := { Clock.fresh with
    stage := 9, ready := true, source := 0, limited := false, xtalPassed := true, lastBeat := 180000000000 }
  blks := Vector.replicate 36 { Blk.fresh with enable := true, enabled := true }
  cores := Vector.replicate 4 { CoreS.fresh with inService := true }
  arrays := Vector.ofFn (fun n => { ArrayS.initial n.val with inService := true })
  links := Vector.replicate 4 { LinkS.fresh with ports := Vector.replicate 4 ⟨true, false, false⟩ }
  power := { Power.fresh with domains := Vector.replicate 11 ⟨.running, 0, 0, 1⟩ }
  hub := { State.reset.hub with ctxs := vmod State.reset.hub.ctxs 0 (fun k => { k with
    state := .active, ringAddr := 0x10000, ringEntries := 64, seqExpect := 5 }) } }

/-- The state after a command. -/
def after (c : Instr) (s : State) : State :=
  match exec c s with
  | .next t => t
  | _ => s

/-- A 64-byte packet header: TYPE, SUBTYPE, PAY_LEN and the fields given by their places. -/
def header (type sub pay : Nat) (fields : List (Nat × List Byte)) : List Byte :=
  fields.foldl (fun b f => putBytes b f.1 f.2)
    (leBytes 1 type ++ leBytes 1 sub ++ leBytes 2 64 ++ leBytes 4 pay ++ leBytes 8 0x77 ++ zeros 48)

/-- The bytes of a slot that holds a packet with SEQ 4. -/
def slotBytes (hdr pay : List Byte) : Mem := ((Mem.write [] 0 hdr).write 0x2000 pay).write 0x1FF8 (leBytes 4 4)

/-- A packet in slot 0 of a context. -/
def packet (s : State) (x : Fin 16) (st : SlotState) (hdr pay : List Byte) : State :=
  s.modCtx x (fun k => { k with slots := vmod k.slots 0 (fun _ => ⟨st, slotBytes hdr pay⟩) })

/-- The packet of slot 0. -/
def pkt0 (s : State) (x : Fin 16) : Pkt := (s.ctx x).slots[(0 : Fin 8)].pkt 0

/-- A CONTROL packet of context 0 that has been taken. -/
def control (s : State) (sub : Nat) (fields : List (Nat × List Byte)) (pay : List Byte) : State :=
  packet s 0 .taken (header 4 sub pay.length fields) pay

/-- Every run has a number below the next: a check that computes. -/
theorem runsNumbered_of {s : State} (h1 : ∀ c, (s.core c).running.all (fun k => decide (k.id < s.hub.nextRun)) = true)
    (h2 : ∀ x, ∀ k ∈ (s.ctx x).fabricRun ++ (s.ctx x).memoryRun, k.id < s.hub.nextRun)
    (h3 : ∀ g ∈ s.fabric.fabs, g.run < s.hub.nextRun) : RunsNumbered s :=
  ⟨fun c k h => by simpa [h] using h1 c, h2, h3⟩

/-! ## Mailbox packets -/

theorem meets_slotWrite_lands : up.hubUp = true ∧ (up.ctx 0).slots[(0 : Fin 8)].state = .free ∧
    0x40 + [1#8, 2#8].length ≤ 0x12000 ∧ 0x40 + [1#8, 2#8].length ≤ 0x1FFC ∧
    ((after (.slotWrite 0 0 0x40 [1#8, 2#8]) up).ctx 0).slots[(0 : Fin 8)].bytes.get 0x41 = 2 := by decide +kernel

def busySlot : State := control up 0x0D [] []

theorem meets_slotWrite_counted : busySlot.hubUp = true ∧ (busySlot.ctx 0).slots[(0 : Fin 8)].state ≠ .free ∧
    ((after (.slotWrite 0 0 0x40 [1#8]) busySlot).ctx 0).lateWrites = 1 := by decide +kernel

/-- A slot with a packet that is not sealed yet. -/
def unsealed : State := packet up 0 .free (header 5 7 0 []) []

def sealCrc : W32 := crc32c (header 5 7 0 [])

theorem meets_seal : unsealed.hubUp = true ∧ (unsealed.ctx 0).slots[(0 : Fin 8)].state = .free ∧
    (unsealed.ctx 0).slots[(0 : Fin 8)].bytes.wf = true ∧
    (let b := (unsealed.ctx 0).slots[(0 : Fin 8)].bytes.write 0x1FF8 (leBytes 4 5 ++ leBytes 4 sealCrc.toNat)
     let h := b.read 0 64
     fld h 2 2 = 64 ∧ fld h 4 4 = 0 ∧ crc32c (b.read 0 64 ++ b.read 0x2000 0) = sealCrc) ∧
    dist32 5 (unsealed.ctx 0).seqExpect < 8 ∧ (unsealed.ctx 0).holdsSeq 5 = false ∧ unsealed.hub.badSlots = [] ∧
    (let s := { unsealed with hub := { unsealed.hub with badSlots := [(0, 0)] } }
     s.hubUp = true ∧ (0, 0) ∈ s.hub.badSlots ∧ ((after (.sealWrite 0 0 5 sealCrc false) s).ctx 0).lastReason = 0x0209) ∧
    ((after (.sealWrite 0 0 5 sealCrc false) unsealed).ctx 0).slots[(0 : Fin 8)].state = .sealed ∧
    ((after (.sealWrite 0 0 5 sealCrc true) unsealed).ctx 0).lastReason = 0x0209 := by decide +kernel

/-- A sealed packet with the SEQ that context x expects. -/
def sealed (x : Fin 16) (hdr : List Byte) : State :=
  (packet up x .sealed hdr []).modCtx x (fun k => { k with seqExpect := 4 })

def takeHyps (s : State) (x : Fin 16) : Bool :=
  s.hubUp && !(s.ctx x).dying && decide ((s.ctx x).waiting < 4032) && s.itsTurn x &&
    (List.finRange 8).all (fun j => !(s.ctx x).slots[j].state.isTaken) && (s.ctx x).slots[(0 : Fin 8)].state == .sealed &&
    (s.ctx x).slots[(0 : Fin 8)].seq == (s.ctx x).seqExpect &&
    (List.finRange 8).all (fun j => j == 0 || (s.ctx x).slots[j].state != .sealed)

theorem meets_packetTake : takeHyps (sealed 0 (header 5 7 0 [])) 0 = true ∧
    takeReason ((sealed 0 (header 5 7 0 [])).ctx 0).state 0 (pkt0 (sealed 0 (header 5 7 0 [])) 0) = 0 ∧
    ((after (.packetTake 0) (sealed 0 (header 5 7 0 []))).ctx 0).slots[(0 : Fin 8)].state = .taken := by decide +kernel

theorem meets_packetTake_refused : takeHyps (sealed 1 (header 5 7 0 [])) 1 = true ∧
    1 ≤ (pkt0 (sealed 1 (header 5 7 0 [])) 1).type ∧ (pkt0 (sealed 1 (header 5 7 0 [])) 1).type ≤ 5 ∧
    ((sealed 1 (header 5 7 0 [])).ctx 1).state = .none ∧ (pkt0 (sealed 1 (header 5 7 0 [])) 1).type ≠ 4 ∧
    ((after (.packetTake 1) (sealed 1 (header 5 7 0 []))).ctx 1).lastReason = 0x0110 := by decide +kernel

/-- A list of two commands: a NOP of C1 and a FENCE SIGNAL of the memory queue. -/
def listed : State :=
  packet up 0 .taken (putBytes (header 1 0 128 [(2, leBytes 2 128), (0x18, leBytes 2 2)] ++ zeros 64) 0x40
    [0x01#8, 0x05#8]) (leBytes 1 0x67 ++ zeros 63 ++ leBytes 1 0x60 ++ leBytes 1 0 ++ leBytes 1 9 ++ zeros 61)

def listVerdict : Nat ⊕ Nat :=
  let p := pkt0 listed 0
  match listed.validate 0 ((List.range (fld p.hdr 0x18 2)).map (fun j => byteAt p.hdr (0x40 + j))) (submitCmds p) [] [] 0 with
  | .inl _ => .inl 0
  | .inr cmds => .inr cmds.length

theorem meets_submit : listed.packetAt 0 0 1 none = some (pkt0 listed 0) ∧ Live listed 0 ∧ listVerdict = .inr 2 ∧
    (((after (.submit 0 0) listed).cc 0 1).main.map (·.op)) = [0x67] ∧
    (((after (.submit 0 0) listed).ctx 0).memory.map (·.op)) = [0x60] := by decide +kernel

/-- Context 0 with a window of 4,096 bytes on F1. -/
def windowed : State := up.modCC 0 1 (fun k => { k with resBase := 0x4000, resSize := 4096 })

def feeding (st : SlotState) : State :=
  packet windowed 0 st (header 2 0 64 [(0x18, leBytes 6 128), (0x1E, leBytes 1 0x02)]) (List.replicate 64 7#8)

def feedHyps (s : State) (w : Nat) : Bool :=
  let p := pkt0 s 0
  bits (byteAt p.hdr 0x1E) 0 0 == 0 && bits (byteAt p.hdr 0x1E) 2 1 == 1 && w == fld p.hdr 0x18 6 &&
    p.pay.length == fld p.hdr 4 4 && p.type == 2 && w % 64 == 0 && p.pay.length % 64 == 0 && decide (64 ≤ p.pay.length) &&
    decide (w + p.pay.length ≤ (s.cc 0 1).resSize) && !s.transferWaits 0 p

theorem meets_feed_taken : Live (feeding .taken) 0 ∧ feedHyps (feeding .taken) 128 = true ∧
    (feeding .taken).packetAt 0 0 2 none = some (pkt0 (feeding .taken) 0) ∧
    ((after (.feed 0 0) (feeding .taken)).feed 1).spad.get (0x4000 + 128 + 63) = 7 := by decide +kernel

theorem meets_feed_held : Live (feeding .held) 0 ∧ feedHyps (feeding .held) 128 = true ∧ (feeding .held).hubUp = true ∧
    ((feeding .held).ctx 0).slots[(0 : Fin 8)].state = .held ∧
    ((after (.heldPacketRelease 0 0) (feeding .held)).feed 1).spad.get (0x4000 + 128) = 7 := by decide +kernel

/-- Page 3 of context 0 placed in frame 2 of S4, with an entry of the write-combining buffer over it. -/
def placed : State :=
  { (up.modTiers (fun t => { t with map := [(3, ⟨0, .placed 4 2, none, false, 0, 4, 0, 0⟩)] })) with
    hbm := vmod up.hbm 4 (fun t => { t with wcb := [⟨4096, [(0, 9#8), (1, 8#8)], true, 5⟩] }) }

def feedPlaced : State :=
  packet placed 0 .taken (header 2 0 64 [(0x18, leBytes 6 (3 * 131072)), (0x1E, leBytes 1 1)]) (List.replicate 64 7#8)

theorem meets_feed_placed : Live feedPlaced 0 ∧ feedPlaced.packetAt 0 0 2 none = some (pkt0 feedPlaced 0) ∧
    (let p := pkt0 feedPlaced 0
     bits (byteAt p.hdr 0x1E) 0 0 = 1 ∧ 3 * 131072 = fld p.hdr 0x18 6 ∧
       feedPlaced.transferReason 0 p p.pay.length true = 0 ∧ feedPlaced.transferWaits 0 p = false ∧
       3 * 131072 % 131072 + p.pay.length ≤ 131072) ∧
    feedPlaced.homeOf 3 = some ⟨0, .placed 4 2, none, false, 0, 4, 0, 0⟩ ∧ (feedPlaced.stack 4).dead = [] ∧
    (feedPlaced.stack 4).mem.wf = true ∧
    (after (.feed 0 0) feedPlaced).uread (3 * 131072) 64 = List.replicate 64 ⟨7, false⟩ := by decide +kernel

def fetching (st : SlotState) : State :=
  packet { windowed with feeds := vmod windowed.feeds 1 (fun f => { f with spad := [(0x4000, 3#8)] }) } 0 st
    (header 3 0 0 [(0x18, leBytes 6 0), (0x1E, leBytes 1 2), (0x20, leBytes 4 64), (0x28, leBytes 8 0x100000),
      (0x30, leBytes 8 0x20000)]) []

def fetchHyps (s : State) : Bool :=
  let p := pkt0 s 0
  let bs := s.rread 0 (bits (byteAt p.hdr 0x1E) 0 0) (ix 4 (bits (byteAt p.hdr 0x1E) 2 1)) (fld p.hdr 0x18 6) (fld p.hdr 0x20 4)
  p.type == 3 && !bs.any (·.p) && decide (fld p.hdr 0x20 4 ≤ 16777216) && s.transferReason 0 p (fld p.hdr 0x20 4) false == 0 &&
    hostRoom (fld p.hdr 0x28 8) (fld p.hdr 0x30 8) (fld p.hdr 0x20 4) && !s.transferWaits 0 p

theorem meets_fetch_taken : Live (fetching .taken) 0 ∧ fetchHyps (fetching .taken) = true ∧
    (fetching .taken).packetAt 0 0 3 none = some (pkt0 (fetching .taken) 0) ∧
    (after (.fetch 0 0) (fetching .taken)).hub.hostWrites.map (fun w => (w.addr, w.bytes.take 2)) =
      [(0x100000, [3#8, 0#8]), (0x110000, [0x77#8, 0#8])] := by decide +kernel

theorem meets_fetch_held : Live (fetching .held) 0 ∧ fetchHyps (fetching .held) = true ∧ (fetching .held).hubUp = true ∧
    ((fetching .held).ctx 0).slots[(0 : Fin 8)].state = .held ∧
    (after (.heldPacketRelease 0 0) (fetching .held)).hub.hostWrites.length = 2 := by decide +kernel

/-! ## CONTROL packets -/

def creating : State := packet up 1 .taken (header 4 1 0 [(0x10, leBytes 1 1), (0x18, leBytes 8 0x20000), (0x20, leBytes 4 64),
  (0x28, leBytes 8 7), (0x30, leBytes 8 3)]) []

theorem meets_create : creating.packetAt 1 0 4 (some 0x01) = some (pkt0 creating 1) ∧
    createOk (pkt0 creating 1).hdr = true ∧ creating.stacksOn = true ∧ creating.clock.ready = true ∧
    creating.faults.fatal = false ∧ ((after (.create 1 0) creating).ctx 1).state = .active := by decide +kernel

/-- A plain command of a queue. -/
def cmdOf (queue : Nat) (desc : List Byte) : Cmd :=
  { seq := 1, tag := 2, index := 0, queue := queue, eval := false, notify := true, desc := desc, tens := [], est := 0
    regions := [], quants := [], recs := [] }

def nop : Cmd := cmdOf 1 (leBytes 1 0x67 ++ zeros 63)

/-- A run of a command of context 0. -/
def runOf (id : Nat) (cmd : Cmd) : Run :=
  { x := 0, id := id, cmd := cmd, count := 0, out := Done.ok, busy := false, claims := [], scales := [], stamps := []
    began := 0 }

def destroying : State :=
  (control up 2 [] []).modCC 0 1 (fun k => { k with main := [nop] })

theorem meets_destroy : destroying.packetAt 0 0 4 (some 0x02) = some (pkt0 destroying 0) ∧
    Live destroying (pkt0 destroying 0).target ∧ ((after (.destroy 0 0) destroying).ctx 0).state = .destroying ∧
    ((after (.destroy 0 0) destroying).ctx 0).discarded = 1 := by decide +kernel

/-- DESTROY waits in slot 0 and every command has ended. -/
def destroyed : State :=
  (packet placed 0 .accepted (header 4 2 0 []) []).modCtx 0 (fun k => { k with
    state := .destroying, destroyTag := some (0, 4, 0x77, 0) })

theorem meets_destroyFinish : destroyed.hubUp = true ∧ (destroyed.ctx 0).state = .destroying ∧
    (destroyed.ctx 0).dying = false ∧ (destroyed.ctx 0).silent = false ∧ (destroyed.ctx 0).killReason = 0 ∧ destroyed.noneRunning 0 = true ∧
    (destroyed.ctx 0).destroyTag = some ((0 : Fin 16).val, 4, 0x77, (0 : Fin 8).val) ∧ (destroyed.tiers.map.map (·.1)).Nodup ∧
    ((after (.destroyFinish 0) destroyed).ctx 0).state = .none ∧ (after (.destroyFinish 0) destroyed).tiers.map = [] := by
  decide +kernel

def quota : State := control up 3 [(0x18, leBytes 4 100), (0x1C, leBytes 4 200)] []

theorem meets_setQuota : quota.packetAt 0 0 4 (some 0x03) = some (pkt0 quota 0) ∧ Live quota 0 ∧
    (quota.ctx (pkt0 quota 0).target).state = .active ∧
    (let p := pkt0 quota 0
     quota.nearUse p.target ≤ fld p.hdr 0x18 4 ∧ quota.deepUse p.target ≤ fld p.hdr 0x1C 4 ∧ fld p.hdr 0x1C 4 ≤ 16777216 ∧
       (((List.finRange 16).filter (fun y => y ≠ p.target)).map (fun y => (quota.ctx y).nearQ)).sum + fld p.hdr 0x18 4 ≤
         nearTotal) ∧
    ((after (.setQuota 0 0) quota).ctx 0).nearQ = 100 := by decide +kernel

def sched (v : Nat) : State := control up 0x0D [(0x18, leBytes 4 28000000), (0x1C, leBytes 4 v)] []

theorem meets_setSched : (sched 140000).packetAt 0 0 4 (some 0x0D) = some (pkt0 (sched 140000) 0) ∧ Live (sched 140000) 0 ∧
    ((sched 140000).ctx (pkt0 (sched 140000) 0).target).state = .active ∧
    (∀ c < 4, fld (pkt0 (sched 140000) 0).hdr (0x18 + 4 * c) 4 = 0 ∨
      (140000 ≤ fld (pkt0 (sched 140000) 0).hdr (0x18 + 4 * c) 4 ∧
        fld (pkt0 (sched 140000) 0).hdr (0x18 + 4 * c) 4 ≤ 28000000)) ∧
    (List.finRange 4).map (fun c => ((after (.setSched 0 0) (sched 140000)).cc 0 c).budget) =
      [28000000, 140000, 2800000, 2800000] := by decide +kernel

theorem meets_setSched_refused : ∀ v ∈ [139999, 28000001],
    (sched v).packetAt 0 0 4 (some 0x0D) = some (pkt0 (sched v) 0) ∧ Live (sched v) 0 ∧
    ((sched v).ctx (pkt0 (sched v) 0).target).state = .active ∧
    (∃ c < 4, fld (pkt0 (sched v) 0).hdr (0x18 + 4 * c) 4 ≠ 0 ∧
      (fld (pkt0 (sched v) 0).hdr (0x18 + 4 * c) 4 < 140000 ∨ 28000000 < fld (pkt0 (sched v) 0).hdr (0x18 + 4 * c) 4)) ∧
    ((after (.setSched 0 0) (sched v)).ctx 0).lastReason = 0x0225 := by decide +kernel

/-- Context 0 has a debt of 300 and a head on C1. -/
def owing : State := up.modCC 0 1 (fun k => { k with main := [nop], debt := 2800300 })

theorem meets_schedule : (owing.schedule 1).2 = some 0 ∧ (owing.core 1).span = none ∧ (owing.cc 0 1).remaining = 0 ∧
    0 < (owing.cc 0 1).budget ∧ ((owing.schedule 1).1.cc 0 1).remaining = 2799700 := by decide +kernel

def spreading (v : Nat) : State :=
  (packet up 0 .taken (header 4 6 0 [(0x18, leBytes 1 v)]) []).modCtx 0 (fun k => { k with state := .none })

def moduleResetting : State := up.modClock (fun k => { k with resetting := some (.module, 0) })

theorem meets_setSpread : moduleResetting.board.aonOn = true ∧ moduleResetting.moduleAsked = true ∧
    (pkt0 (spreading 70) 0).type = 4 ∧ (pkt0 (spreading 70) 0).sub = 6 ∧
    (spreading 70).packetAt 0 0 4 (some 0x06) = some (pkt0 (spreading 70) 0) ∧ ((spreading 70).ctx 0).dying = false ∧
    byteAt (pkt0 (spreading 70) 0).hdr 0x18 = 70 ∧ (∀ y, ((spreading 70).ctx y).state = .none) ∧
    (after (.setSpread 0 0) (spreading 70)).tiers.spreadGib = 70 := by decide +kernel

theorem meets_setSpread_refused :
    (spreading 71).packetAt 0 0 4 (some 0x06) = some (pkt0 (spreading 71) 0) ∧ ((spreading 71).ctx 0).dying = false ∧
    70 < byteAt (pkt0 (spreading 71) 0).hdr 0x18 ∧ ((after (.setSpread 0 0) (spreading 71)).ctx 0).lastReason = 0x0301 ∧
    (let s := control up 6 [(0x18, leBytes 1 70)] []
     s.packetAt 0 0 4 (some 0x06) = some (pkt0 s 0) ∧ (s.ctx 0).dying = false ∧ (s.ctx 0).state ≠ .none ∧
       ((after (.setSpread 0 0) s).ctx 0).lastReason = 0x0302) := by decide +kernel

def windowing : State :=
  control { windowed with feeds := vmod windowed.feeds 1 (fun f => { f with spad := [(0x4000, 3#8)] }) } 4
    [(0x18, leBytes 1 1), (0x1C, leBytes 4 0x800000), (0x20, leBytes 4 0x100000)] []

theorem meets_setWindow : windowing.packetAt 0 0 4 (some 0x04) = some (pkt0 windowing 0) ∧ Live windowing 0 ∧
    (windowing.ctx (pkt0 windowing 0).target).state = .active ∧ (1 : Fin 4) = ix 4 (byteAt (pkt0 windowing 0).hdr 0x18) ∧
    windowing.windowBad (pkt0 windowing 0).target 1 (fld (pkt0 windowing 0).hdr 0x1C 4) (fld (pkt0 windowing 0).hdr 0x20 4) =
      false ∧
    ((after (.setWindow 0 0) windowing).cc 0 1).resBase = 0x800000 ∧
    ((after (.setWindow 0 0) windowing).feed 1).spad = [] := by decide +kernel

def areas (st : SlotState) : State :=
  packet up 0 st (header 4 5 0 [(0x18, leBytes 1 2), (0x1A, leBytes 2 32), (0x1C, leBytes 2 16)]) []

theorem meets_setAreas : (areas .taken).packetAt 0 0 4 (some 0x05) = some (pkt0 (areas .taken) 0) ∧
    (2 : Fin 4) = ix 4 (byteAt (pkt0 (areas .taken) 0).hdr 0x18) ∧
    (areas .taken).areasBad 2 (fld (pkt0 (areas .taken) 0).hdr 0x1A 2) (fld (pkt0 (areas .taken) 0).hdr 0x1C 2) = false ∧
    ((after (.setAreas 0 0) (areas .taken)).feed 2).areasPending = some (32, 16, 0, 0) := by decide +kernel

def areasWait : State := (areas .accepted).modFeed 2 (fun f => { f with areasPending := some (32, 16, 0, 0) })

theorem meets_areasApply : areasWait.hubUp = true ∧ Live areasWait 0 ∧
    (areasWait.feed 2).areasPending = some (32, 16, (0 : Fin 16).val, (0 : Fin 8).val) ∧ (areasWait.core 2).running = none ∧
    areasWait.usesBeyond 2 32 = false ∧ areasWait.acceptedAt 0 0 0x05 = some (pkt0 areasWait 0) ∧
    ((after (.areasApply 2) areasWait).feed 2).t = 32 := by decide +kernel

/-- The image of a scale record: T_INIT and MARGIN 1.0, WINDOW 0, FORMAT 2. -/
def scaleImage : List Byte :=
  zeros 16 ++ leBytes 4 0x3F800000 ++ leBytes 4 0x3F800000 ++ leBytes 1 0 ++ leBytes 1 2 ++ zeros 230

def scaleLoad (st : SlotState) : State :=
  packet up 0 st (header 4 7 256 [(0x18, leBytes 2 9), (0x1A, leBytes 2 1)]) scaleImage

theorem meets_loadScale : (scaleLoad .taken).packetAt 0 0 4 (some 0x07) = some (pkt0 (scaleLoad .taken) 0) ∧
    (scaleLoad .taken).scaleReason 0 (pkt0 (scaleLoad .taken) 0) = 0 ∧
    ((after (.loadScale 0 0) (scaleLoad .taken)).ctx 0).slots[(0 : Fin 8)].state = .accepted := by decide +kernel

theorem meets_loadScaleApply : (scaleLoad .accepted).acceptedAt 0 0 0x07 = some (pkt0 (scaleLoad .accepted) 0) ∧
    Live (scaleLoad .accepted) 0 ∧ ((scaleLoad .accepted).openCmds 0).any ((scaleLoad .accepted).namesRecord 0 9 1) = false ∧
    (scaleLoad .accepted).scaleReason 0 (pkt0 (scaleLoad .accepted) 0) = 0 ∧
    ((scaleLoad .accepted).scaleImage 0 (pkt0 (scaleLoad .accepted) 0)).length =
      256 * fld (pkt0 (scaleLoad .accepted) 0).hdr 0x1A 2 ∧
    ((after (.loadScaleApply 0 0) (scaleLoad .accepted)).scaleRec 0 9).tInit = 0x3F800000 := by decide +kernel

/-- A slot table of one raw slot of a row. -/
def slotLoad (st : SlotState) : State :=
  packet windowed 0 st (header 4 8 32 [(0x18, leBytes 1 1)])
    (leBytes 1 1 ++ zeros 15 ++ leBytes 4 0 ++ leBytes 4 1 ++ leBytes 1 1 ++ zeros 7)

theorem meets_loadSlots : (slotLoad .taken).packetAt 0 0 4 (some 0x08) = some (pkt0 (slotLoad .taken) 0) ∧
    slotsLength (pkt0 (slotLoad .taken) 0).pay = true ∧
    (slotLoad .taken).slotsBad 0 (ix 4 (byteAt (pkt0 (slotLoad .taken) 0).hdr 0x18)) (pkt0 (slotLoad .taken) 0).pay = false ∧
    ((after (.loadSlots 0 0) (slotLoad .taken)).ctx 0).slots[(0 : Fin 8)].state = .accepted := by decide +kernel

theorem meets_slotTableApply : (slotLoad .accepted).acceptedAt 0 0 0x08 = some (pkt0 (slotLoad .accepted) 0) ∧
    Live (slotLoad .accepted) 0 ∧ (1 : Fin 4) = ix 4 (byteAt (pkt0 (slotLoad .accepted) 0).hdr 0x18) ∧
    ((slotLoad .accepted).core 1).running = none ∧
    ((after (.slotTableApply 0 0) (slotLoad .accepted)).cc 0 1).table.slots.map (·.raw) = [true] := by decide +kernel

/-- An almanac entry: rates 0, PRE_EPS and LR scale 1.0, one row of 128 columns. -/
def almImage : List Byte :=
  [(0x10, leBytes 4 0x3F800000), (0x1C, leBytes 4 0x3F800000), (0x28, leBytes 4 1), (0x34, leBytes 4 1),
    (0x38, leBytes 4 128)].foldl (fun b f => putBytes b f.1 f.2) (zeros 256)

/-- Page 3 of context 0 placed in frame 2 of S4 with an almanac image at its start. -/
def almLoad (st : SlotState) : State :=
  packet { placed with hbm := vmod up.hbm 4 (fun t => { t with mem := Mem.write [] 262144 almImage }) } 0 st
    (header 4 9 0 [(0x18, leBytes 8 (3 * 131072)), (0x20, leBytes 4 0), (0x24, leBytes 4 1)]) []

theorem meets_loadAlmanac : (almLoad .taken).packetAt 0 0 4 (some 0x09) = some (pkt0 (almLoad .taken) 0) ∧
    (almLoad .taken).almanacReason 0 (pkt0 (almLoad .taken) 0) = 0 ∧
    ((after (.loadAlmanac 0 0) (almLoad .taken)).ctx 0).slots[(0 : Fin 8)].state = .accepted := by decide +kernel

theorem meets_almanacApply : (almLoad .accepted).acceptedAt 0 0 0x09 = some (pkt0 (almLoad .accepted) 0) ∧
    Live (almLoad .accepted) 0 ∧ (almLoad .accepted).runningCmds 0 = [] ∧
    (almLoad .accepted).almanacReason 0 (pkt0 (almLoad .accepted) 0) = 0 ∧
    ((almLoad .accepted).uread (3 * 131072) 256).length = 256 ∧
    (((after (.almanacApply 0 0) (almLoad .accepted)).ctx 0).almanac.map (·.base)) = some (3 * 131072) := by decide +kernel

def mapping (kind : Nat) : State :=
  (control placed 0x0A [(0x18, leBytes 4 5), (0x1C, leBytes 4 2), (0x20, leBytes 1 kind), (0x21, leBytes 1 7)] []).modCtx 0
    (fun k => { k with nearQ := 100, deepQ := 100 })

theorem meets_map : ∀ kind ∈ [0, 1, 2], (mapping kind).packetAt 0 0 4 (some 0x0A) = some (pkt0 (mapping kind) 0) ∧
    Live (mapping kind) 0 ∧ (mapping kind).mapReason 0 5 2 kind (byteAt (pkt0 (mapping kind) 0).hdr 0x21) = 0 ∧
    fld (pkt0 (mapping kind) 0).hdr 0x18 4 = 5 ∧ fld (pkt0 (mapping kind) 0).hdr 0x1C 4 = 2 := by decide +kernel

def unmapping : State := control placed 0x0B [(0x18, leBytes 4 3), (0x1C, leBytes 4 1)] []

theorem meets_unmap : unmapping.packetAt 0 0 4 (some 0x0B) = some (pkt0 unmapping 0) ∧ Live unmapping 0 ∧
    unmapping.unmapReason 0 3 1 = 0 ∧ (∀ q < 4, 3 ≤ q → unmapping.moving q = false) ∧
    (after (.unmap 0 0) unmapping).tiers.map = [] := by decide +kernel

/-! ## QUERY packets and completions (12) -/

def asking (sub : Nat) : State :=
  packet placed 0 .taken (header 5 sub 0 [(0x1C, leBytes 4 1), (0x20, leBytes 8 0x100000), (0x28, leBytes 8 0x20000)]) []

def queryHyps (s : State) (sub n : Nat) : Bool :=
  let p := pkt0 s 0
  s.packetAt 0 0 5 (some sub) == some p && decide (n ≤ 16777216) && hostRoom (fld p.hdr 0x20 8) (fld p.hdr 0x28 8) n &&
    (fld p.hdr 0x1C 4 == 1)

theorem meets_queries : (∀ k ∈ [(1, 1536), (2, 256), (3, 592), (4, 272), (5, 16), (6, 256), (7, 256), (8, 320)],
    Live (asking k.1) 0 ∧ queryHyps (asking k.1) k.1 k.2 = true) := by decide +kernel

/-- The almanac of context 0 has one entry, which stands in page 3. -/
theorem meets_queryAlmanac : (let s := { (asking 6).modCtx 0 (fun k => { k with almanac := some ⟨3 * 131072, [(0, almImage)]⟩ }) with hbm := up.hbm }
    fld (pkt0 s 0).hdr 0x1C 4 = 1 ∧ fld (pkt0 s 0).hdr 0x18 4 = 0 ∧ (s.almanacStatus (pkt0 s 0).target 0).length = 256 ∧
      (s.almanacRead (pkt0 s 0).target 0).any (·.p) = false) := by decide +kernel

theorem test_queries_return : ([(.queryHomeMap 0 0, 5), (.queryAlmanac 0 0, 6),
    (.queryFaultRing 0 0, 8)] : List (Instr × Nat)).map
      (fun k => (after k.1 (asking k.2)).hub.hostWrites.map (fun w => w.bytes.length)) =
    [[16, 64], [256, 64], [320, 64]] := by decide +kernel

/-- Context 0 with an entry that is formed, or that waits. -/
def entries (formed backlog : List Entry) : State :=
  up.modCtx 0 (fun k => { k with formed := formed, backlog := backlog })

theorem meets_completionEntry : ((entries [Entry.blank 1 0] []).hubUp = true ∧
      ((entries [Entry.blank 1 0] []).ctx 0).ringRoom = true ∧ ((entries [Entry.blank 1 0] []).ctx 0).owedOverflow = false ∧
      (after (.completionEntry 0) (entries [Entry.blank 1 0] [])).hub.hostWrites.map (·.addr) = [0x10000]) ∧
    ((entries [] [Entry.blank 1 0]).ctx 0).ringRoom = true ∧
      (after (.backlogDrain 0) (entries [] [Entry.blank 1 0])).hub.hostWrites.map (·.addr) = [0x10000] := by decide +kernel

/-! ## Signed records (20) -/

/-- A number of limbs of 512 bits, the highest first. -/
def limbs (l : List Nat) : Nat := l.foldl (fun n x => n * 2 ^ 512 + x) 0

/-- A key of 4,096 bits, made for these tests. -/
def modulus : Nat := limbs [
  0xc3b0dbdfbdcb5b1ad6c8afb1c5f135f4f5b4dd10a7d6183203088aaaf450a6aae68738964f990427593698ebf06d70e6e641bbd208be1757afcb70b0c73c6913,
  0xb345b2dc9f11b09febb787a875872f5d7ed5e87abb500e82c485081e07216c801b502ac5b0994b3856764db470012275b2db1285160db52b201fdc2830ad9b8d,
  0xd9fca3ee2dd049d94c0e50162338d2db210cc163a0afc31c87f4aa8872596c202e4c4727b0994cbc3302f24db14a0896f4a0f0e3ecb446ee89020f7b7ff6a719,
  0x700efa72def63e0243592d1e3509636121a66cbe30943b4fc79f3d685761631aa209c6fd5f5a17a8883a06a34a1d383605af0205c798b79079a8bb3ef6bb5f36,
  0xd04753c14b07c6bab425efa1d35b6f084afb2fcb68661a1690d5871f87da4044ad35fcc18cd5c042178098bcc7e2c681c5eb191e7b84024d28e644988676fdd4,
  0x59f06356b03f8940c1f863f3b0256256e94d944481154438389225a3f7fe9e6f908959d3bf9703e0594d74fa24a7b6113d8a3efc77195aad7cced48ac4a9df00,
  0x4c856f31fea688fb7233b2ae8a69bbeddf425ed43b93a7c5ba2682c450c6c8074f9e4a45fc092bcd537aa6748ee52a2258f126d2db8f1a9332a326f6c4bc4ee1,
  0x5b6d23c4b84e9540697a306cd20e7c7f681eb86d4348d859281c5c215b11c6af4a889ec2b470bb67a0b14dc2dd3cc9601b1910090c78aa4cfc78637c9a9cdf93]

/-- Its KEY_ID. -/
def modulusId : Nat :=
  0x72e9c2cd009b1db09e1001da1881d373505dc1f70ed209c723e6c578f026352e239a6e9f4d014cdfbf45e9e1488513cee024855406c1976e3c48e6a7d82b62d2

/-- The signature of the role record with it. -/
def roleSig : Nat := limbs [
  0xbc8bb7ec176d5ab5af4504a8578c5652d3fb7f3636bb2fb8aa2ff2a15bf4dd21793086a9db076bc39993347734bcbb7a142df342078556527c13e32325a3e023,
  0xe67832de9089125a32b4d547df505653ff17f2a6a1398e852303f91a6aaf55338b0eb645c7262ed3886d8ede145b34363a99602728156a89165798c374b5a6df,
  0x1208f10d98b5f2b306af5c932408b18953b12855a652d8c31667294549da884e3367b2f13e97d2bbaf2e570c843a104b802694b31cec62e691387d56a209e52a,
  0xb3b3170471941ba8a79698c349ec3c52978cdcca2a9cc1ba57154201dc1519a54f297cef70386cf3631e36b43e1438cf8de816e93fca7de79fffd43748fedf30,
  0x77cd1fe61e05ac2a2c19c41e87da9fda319f0a27358082ce5a157ecccef5acb030911b5e960961eeda00a6a77835a280679b8082931f82eb180d159487e35e74,
  0xa2709fc4ee287a3b930bbca19c56cbf0230b0e4958c2a84e30c8190742ff098c9ef349bad1c1bfdfc667a0bc3e01b10ad9e76132de154c1a4a1af8a59b68a307,
  0xb91d0443359f757b1ac1fd40baff296c2438376364e08c2a0c142c12378bd4a79e5a37a5426d2e4918d77efa448201a0f4fb988062b31c33aafed15ff489ddf7,
  0xf0038516f5a12f16951bcb14aea8f7d19a672b45e8ff376caa6c52b4c39bf7274a1ae19cfa103c16738d85bf18090c75b5b1932367386edf53ed957584ef1e4e]

/-- The signature of the owner record with it. -/
def ownerSig : Nat := limbs [
  0x642487c5301c2fe8c26fcea71f10f8a1c5ceebbaf9fe58b3e9ee76ad70a2b967e15389a626371b566dd4515b96a5871156f2f89eff84fce4e9e2c3fc3e7bd618,
  0x055ed4553bc09596f0ae70be70886d962e8a05b759a232904a4f5d664947aef502b53262f3533ed5b8ba644b7f95893ee2977214fb4cee38078734697aea12a8,
  0x9d4fea07c287aff2f33075e87262a31affa0e715cd1a097f88bbd32073fa2b83e1e033b5cf0bee7a257aadc5cea89695d3a490b07e69aafc82234737275dd64a,
  0x1233f1727d61a50c2b27db6b1989819a2fe6a518880e4ceef9d2216ba72234f0eab42bc311b424295711c28f87bb45b520d9938df81316faa9bc8521a860dcfb,
  0xa57e4d1de36b6bd00ab60bc1134daed689bab7628c5eef76c36386dd583ca42515761b97e3764a16c314f6da236b495e5ee6341bc8a159ad49caa22a740afd0d,
  0xebbd142fbccff195a23a521cd10ead474bec34fd33c57bd005425b92fe87e82fea00241e64066300a1e1baff9965158c267987aa952eedab245f5ac26e4e9d43,
  0x9b62e115fa8cc07962009a8a7612597aab9def7a8881a9806e77525e4148eace1f9887d041d4b5e1ea70f405b26fe9750805231fdf60937d4194473eeaf56200,
  0x2be78f85ed3c6ad927e8886ffafad2582f0a1c619ac3c69a9b9e4fd5ea93807b7586ef7611d1b96a73ae075ee49e381fc76dc73f1da1de31eee6c9130d462003]

/-- The signature of the owner release with it. -/
def releaseSig : Nat := limbs [
  0x00c45b2a96f5278161e7b4526a864cd6ede0403d2535771a99664b57bad011c2aea333a609d293d9d6da53d712f9261984dc98821fcdebdd3486d497f7f32d00,
  0x24505b15db5b04bedb4af8e47f0f4f9bad8f5a0f1ec7f69eae854eee49e1857d19eeff6126270b06c43dfcfdc2a76648c2703c27fd9902b281ae9c4a9b07f0a4,
  0xc7c782de1bf63e2d9e2ea2045ba1bc8d36f8b885d8ac3fd7bee7752f6feaeaac2b60ec6054993c03c8311a20b42eb1b4bc21b4556a7e8969b68ee64fc2ab2f38,
  0x40896e03102c61f2821c054002ff97b84e649630660a7b03ce7e61d9393f9334a8053ba33ff697403121f586d8e813e9808e9d4f0748bc3f1811254f809d8cdc,
  0x456f2727851d53a66dda8f5bab7a5110723b0bf86b47b3fe8620193f937154b72902f392131044010f86e305166f9fee257845a2ae3d6f103d3295de1bfbc497,
  0x1ff515d5e08adc2251ac9c0dc206597a2cebaf03b061a0ff041e56b82fe3d0b32ed8b04a88a9e317d4c5ce4953710ed0c8f2ca6468fc8ef939fdada09be72c5c,
  0xbe7ab16e61409739514ba0073fd6e1cda46c746ad99f8b29fc9c1c141bbc8f82daa5ca5e416059948703a2cb42f63edb15864445599a6717f4cbf6fef5beb049,
  0x0861fb4c6449142c42ea6c376e4c339b57476eb5f57526ce6527a0fc7c53758db23ec143ffe03e00cbf0d7c03322d8a85fea3f625461b8a7aef21a27dcc5e8a9]

/-- The signature of the manifest with it. -/
def imageSig : Nat := limbs [
  0x6207484a1b4eb1a4f87795c81f7156c0fc837b9e45e78d33ad700feba7579fff1f671b23d8d833324cf10b97d6e806f4fc98f6ac034154a1bbba00536420f28c,
  0x552b6e009f06bf891fc5046b8c15c95c91de21a513ddce6ff5157f88583e80fa1fbb123f6c4ba29d2bda609c22f0b2a65eb52ed2106374109c96dce28dffc56f,
  0xa9eceb53ca38819c0149d286ef43edcb11663e267debbf6f653bd11c91d34002b61809004ab4cb97c75b34250556f14a99f8ef01ecf0c4a699476aecf4e4bd23,
  0x702821f5056759dd1d16ccab0e867e8bc99d370bcb9d4f22a9e9676ca63cf138409edf4e6e1f0bbaf7e763a9ad860b7748502e228e05450c11a92d98b3f653b3,
  0x1e482179e148f701bc4423e75c8b6b377a89c533671a9b844ef260006f364b7619a363416f7ef5172ec2b97dfa229c88dd9ac69876feb92c38633f9e1528dc4c,
  0xe7fa3c46a463423afe4bfdf94ec53c1144e9a9e17003a53f022984273403ee836a8afb8730e5c30984ccf599cebe16b861491e6c96e92ff3353d856f938d384e,
  0x8db8cdd19edb59e33e43edaececf8dedbb9cc683f6ddac548de4056f48fe1c1e7dfadb1aa70000e65581d8769dca2c7491dd9c79deec5c966bb3f5661475b715,
  0x3e8c38f37964df4fbde9b0ee11003170a0f9e5433b0b898bb62f218cc988069383c65533cef7a2c9e3bde91c2f199fc41b5b49dfa3adaeb5f44c71f10eb192f1]

/-- A record of a kind, a signer and an SVN, bound to the module whose identity is the key, with its signature. -/
def record (kind signer svn : Nat) (bound : Bool) (body : List Byte) (sig : Nat) : List Byte :=
  leBytes 4 0x43524B53 ++ leBytes 1 kind ++ leBytes 1 signer ++ leBytes 2 1 ++ leBytes 4 body.length ++ leBytes 4 svn ++
    zeros 4 ++ leBytes 4 1 ++ (if bound then (beBytes 64 modulusId).take 32 else zeros 32) ++ zeros 8 ++ body ++
    beBytes 64 modulusId ++ beBytes 512 sig

/-- The role of worker 1 of the group whose manager and top manager is node 1, on a ring of 16 nodes. -/
def roleBody (overLim : List (Nat × List Byte)) : List Byte :=
  overLim.foldl (fun b f => putBytes b f.1 f.2)
    (leBytes 2 1 ++ zeros 2 ++ leBytes 4 2 ++ leBytes 4 7 ++ leBytes 4 16 ++ leBytes 4 0x01010100 ++ leBytes 2 1 ++
      leBytes 2 2 ++ zeros 4 ++ leBytes 4 1 ++ List.replicate 4 255#8 ++ leBytes 4 1 ++ List.replicate 8 255#8 ++
      leBytes 4 0x2000 ++ zeros 12 ++ leBytes 4 5 ++ zeros 12 ++ (List.range 15).flatMap (fun _ => leBytes 4 0xFFFF ++ zeros 12))

def ownerBody : List Byte := leBytes 512 modulus ++ zeros 64

/-- A module whose identity and vendor key are the test key, and whose owner has enrolled it. -/
def owned : State := { up with sec := { up.sec with
  identityKey := modulus, vendorKey := modulus, ownerKey := some (beBytes 64 modulusId)
  records := [(6, record 6 3 0 true ownerBody ownerSig)] } }

def setting (s : State) (r : List Byte) : State := packet s 0 .taken (header 4 0x0C r.length []) r

theorem keyId_of_modulus : keyId modulus = beBytes 64 modulusId := by decide +kernel

/-- What a record of the test key passes before its signature: everything but the hashes of the key. -/
def headOk (s : State) (r : List Byte) (kind : Nat) : Bool :=
  recFormed r && recKind r == kind && decide (fld r 0x10 2 ≤ 0x00A1) && (kindSigners kind).contains (recSigner r) &&
    (if kindBound kind then (r.drop 0x18).take 32 == (beBytes 64 modulusId).take 32
      else ((r.drop 0x18).take 32).all (· == 0)) && recKeyId r == beBytes 64 modulusId && s.genOk r

theorem headerReason_of_headOk {s : State} {r : List Byte} {kind : Nat} (hid : kindBound kind = true → s.sec.identityKey = modulus)
    (h : headOk s r kind = true) : s.headerReason r [kind] = 0 := by
  simp only [headOk, Bool.and_eq_true, beq_iff_eq, decide_eq_true_eq] at h
  obtain ⟨⟨⟨⟨⟨⟨hf, hk⟩, hl⟩, hs⟩, hb⟩, -⟩, -⟩ := h
  have hb' : s.bindingOk r = true := by
    simp only [State.bindingOk, State.deviceId, hk]
    split <;> rename_i hc
    · simpa [hid hc, keyId_of_modulus, hc] using hb
    · simpa [hc] using hb
  simp only [State.headerReason, hf, hk, hb', hs]
  simp [Nat.not_lt.mpr hl]

theorem recordReason_of_headOk {s : State} {r : List Byte} {kind : Nat} (hid : kindBound kind = true → s.sec.identityKey = modulus)
    (hkey : s.signerKey (recSigner r) = some modulus) (h : headOk s r kind = true)
    (hp : pssVerify modulus (recSigned r) (recSignature r) = true) : s.recordReason r [kind] = 0 := by
  have hh := headerReason_of_headOk hid h
  simp only [headOk, Bool.and_eq_true, beq_iff_eq] at h
  simp [State.recordReason, hh, hkey, signedBy, h.1.2, h.2, hp, keyId_of_modulus]

def roleRecord : List Byte := record 8 3 0 true (roleBody []) roleSig

def ownerRec : List Byte := record 6 3 0 true ownerBody ownerSig

def releaseRec : List Byte := record 7 3 0 true (beBytes 64 modulusId) releaseSig

theorem signed_records : ∀ r ∈ [roleRecord, ownerRec, releaseRec],
    pssVerify modulus (recSigned r) (recSignature r) = true := by decide +kernel

theorem pay_of_setting : ∀ r ∈ [roleRecord, ownerRec, releaseRec],
    (setting owned r).packetAt 0 0 4 (some 0x0C) = some (pkt0 (setting owned r) 0) ∧ (pkt0 (setting owned r) 0).pay = r ∧
    Live (setting owned r) 0 := by decide +kernel

theorem meets_setRole : recKind roleRecord = 8 ∧ (setting owned roleRecord).recordReason roleRecord [8] = 0 ∧
    roleFieldsOk (recBody roleRecord) = true ∧ macOk (recBody roleRecord) = true ∧
    (setting owned roleRecord).roles.record = none :=
  ⟨by decide +kernel, recordReason_of_headOk (fun _ => rfl) (by decide +kernel) (by decide +kernel)
    (signed_records _ (by simp)), by decide +kernel, by decide +kernel, rfl⟩

theorem meets_ownerRecord : recKind ownerRec = 6 ∧ (setting owned ownerRec).ownerReason ownerRec = 0 := by
  refine ⟨by decide +kernel, ?_⟩
  have hh := headerReason_of_headOk (s := setting owned ownerRec) (r := ownerRec) (kind := 6) (fun _ => rfl) (by decide +kernel)
  have hk : (if (setting owned ownerRec).sec.ownerKey.isSome then ((setting owned ownerRec).signerKey 3).getD 0
      else ownerModulus ownerRec) = modulus := by decide +kernel
  have hi : recKeyId ownerRec = beBytes 64 modulusId := by decide +kernel
  have hn : (recBody ownerRec).length = 576 := by decide +kernel
  have hg : (setting owned ownerRec).genOk ownerRec = true := by decide +kernel
  simp only [State.ownerReason, hh, hn, hk, hi, signedBy, keyId_of_modulus, signed_records ownerRec (by simp), hg]
  simp

theorem meets_ownerRelease : recKind releaseRec = 7 ∧
    (setting owned releaseRec).sec.ownerKey = some (recBody releaseRec) ∧
    (setting owned releaseRec).recordReason releaseRec [7] = 0 :=
  ⟨by decide +kernel, by decide +kernel, recordReason_of_headOk (fun _ => rfl) (by decide +kernel) (by decide +kernel)
    (signed_records _ (by simp))⟩

def piece (op off total : Nat) (data : List Byte) (s : State) : State :=
  control s 0x0E [] (leBytes 4 op ++ leBytes 4 off ++ leBytes 4 total ++ zeros 52 ++ data)

/-- The image of 24 bytes of firmware, whole in the module store. -/
def imageBytes : List Byte :=
  record 1 1 1 false (leBytes 4 0x10002 ++ zeros 4 ++ leBytes 4 16 ++ leBytes 4 8 ++ beBytes 64 0xb591700c17c10f54b3f0427857a5642c60c9935e0802d219a856e468b95f991a462a4becf1f268954dfb6bd32643a07755d82fbae8fac4d9b46e80414e472420 ++
    beBytes 64 0x5799b8f1b69814761dee98dd676dff52fa185f32fad1af7062538392bb1eaca3472825e989eca8b75d3b633bb304d0d756138ba67d65cc7d8fc3469cacb4136c) imageSig ++ List.replicate 16 0x11#8 ++ List.replicate 8 0x22#8

def loaded : State := { up with sec := { up.sec with vendorKey := modulus, partialTotal := imageBytes.length, partialImage := imageBytes } }

/-- A piece of an image of 64 bytes of which 32 are stored. -/
def writing (off : Nat) : State := piece 0 off 64 (List.replicate 32 1#8)
  { up with sec := { up.sec with partialTotal := 64, partialImage := zeros 32 } }

theorem meets_fwUpdate_write : ∀ off ∈ [0, 32], Live (writing off) 0 ∧ pieceMalformed (pkt0 (writing off) 0).pay = false ∧
    (writing off).firmwareAt 0 0 0 = some (pkt0 (writing off) 0) ∧ (pieceOffset (pkt0 (writing off) 0).pay = 0 ∨
      (pieceOffset (pkt0 (writing off) 0).pay = (writing off).sec.partialImage.length ∧
        pieceTotal (pkt0 (writing off) 0).pay = (writing off).sec.partialTotal)) := by decide +kernel

def activating : State := piece 1 0 0 [] loaded

theorem signed_manifest : pssVerify modulus (recSigned (imageBytes.take 784)) (recSignature (imageBytes.take 784)) = true := by
  decide +kernel

theorem imageReason_loaded : activating.imageReason imageBytes = 0 := by
  have hr : activating.recordReason (imageBytes.take (640 + fld imageBytes 8 4)) [1] = 0 := by
    rw [show fld imageBytes 8 4 = 144 by decide +kernel]
    exact recordReason_of_headOk (fun h => absurd h (by decide)) rfl (by decide +kernel) signed_manifest
  simp only [State.imageReason, hr]
  decide +kernel

theorem meets_fwUpdate_activate : Live activating 0 ∧ pieceMalformed (pkt0 activating 0).pay = false ∧
    activating.firmwareAt 0 0 1 = some (pkt0 activating 0) ∧ activating.sec.partialTotal ≠ 0 ∧
    activating.sec.partialImage.length = activating.sec.partialTotal ∧
    activating.imageReason activating.sec.partialImage = 0 :=
  ⟨by decide +kernel, by decide +kernel, by decide +kernel, by decide +kernel, rfl, imageReason_loaded⟩

def abandoning : State := piece 2 0 0 [] up

theorem meets_fwUpdate_abandon : Live abandoning 0 ∧ pieceMalformed (pkt0 abandoning 0).pay = false ∧
    abandoning.firmwareAt 0 0 2 = some (pkt0 abandoning 0) ∧ abandoning.sec.hubResetAt = none ∧
    abandoning.sec.pendingModule = false := by decide +kernel

/-! ## Attestation (20) -/

/-- The DOE mailbox has come as far as a stage of the negotiation. -/
def negotiated (n : Nat) : State := { up with sec := { up.sec with spdm := [⟨0, n, 0⟩] } }

/-- A request of a code: parameters and fields at 0, and a portion of 64 bytes. -/
def request (code : Nat) : List Byte := leBytes 1 0x12 ++ leBytes 1 code ++ zeros 4 ++ leBytes 2 64 ++ leBytes 4 0x40 ++ leBytes 4 0x04

theorem spdmTake_of_doe (s : State) (m : List Byte) (h : s.hubUp = true) :
    s.spdmTake (.doe m) = (s, some { who := 0, bytes := m, bxt := false }) := by simp [State.spdmTake, h]

theorem meets_spdm : ∀ k ∈ [(0x84, 0), (0xE1, 1), (0xE3, 2), (0x81, 3), (0x82, 3), (0x83, 3), (0xE0, 3)],
    (negotiated k.2).diesUp = true ∧ (negotiated k.2).hubUp = true ∧ byteAt (request k.1) 1 = k.1 ∧
    ((negotiated k.2).sec.spdmPlace 0 (negotiated k.2).pilot).map (fun t => t.spdmStage 0) = some k.2 := by decide +kernel

theorem meets_getCertificate : byteAt (request 0x82) 2 % 16 = 0 ∧ fld (request 0x82) 6 2 ≤ 4096 ∧
    fld (request 0x82) 4 2 ≤ Config.certChain.length := by
  refine ⟨by decide +kernel, by decide +kernel, ?_⟩
  rw [show fld (request 0x82) 4 2 = 0 by decide +kernel]
  exact Nat.zero_le _

theorem meets_challenge : byteAt (request 0x83) 2 = 0 ∧ byteAt (request 0xE0) 3 = 0 ∧ bit (byteAt (request 0xE0) 2) 0 = false := by
  decide +kernel

/-! ## Faults, module store and in-field tests (16, 17) -/

/-- A corrected scratchpad word, the entry that it joins, and an uncontained fault of context 0. -/
def corrected : FaultRec :=
  { severity := 0, reason := 0x0620, source := 4, ctx := none, span := none, unitKind := 7, unit := 1, addrKind := 3
    addr := 1024, queue := 0, index := 0, seq := 0, minute := 0, pilot := 0, detail := [], transient := false }

def uncontained : FaultRec := { corrected with severity := 2, reason := 0x0626, ctx := some 0 }

def deferred : FaultRec := { corrected with severity := 1, reason := 0x0622 }

def faulty (detected : List FaultRec) (ring : List (Nat × RingEntry)) : State :=
  { up with faults := { up.faults with detected := detected, ring := ring, rseqNext := 7 } }

theorem meets_faultRecord : (faulty [corrected] []).h1Up = true ∧ (faulty [corrected] []).faults.detected = [corrected] ∧
    corrected.severity < 3 ∧ (∀ e ∈ (faulty [corrected] []).faults.ring, e.2.state = .queued → corrected.joins e.2.fault = false) ∧
    alookup ((faulty [corrected] []).faults.rseqNext.toNat % 4096) (faulty [corrected] []).faults.ring = none ∧
    (after (.faultRecord none) (faulty [corrected] [])).faults.ring.map (fun e => (e.1, e.2.state, e.2.count)) =
      [(7, .queued, 1)] := by decide +kernel

theorem meets_faultRecord_joins : (ringEntry 3 corrected false).state = .queued ∧
    corrected.joins (ringEntry 3 corrected false).fault = true ∧
    (after (.faultRecord none) (faulty [corrected] [(3, ringEntry 3 corrected false)])).faults.ring.map (·.2.count) = [2] := by
  decide +kernel

theorem meets_faultHandle : ∀ f ∈ [corrected, uncontained], (let s := faulty [] [(3, ringEntry 3 f false)]
    s.h1Up = true ∧ s.faults.handling = none ∧ s.faults.killLatch = [] ∧ Live s 0 ∧
      s.faults.foremost ((s.faults.ring.map (·.2)).filter (·.isOpen)) = some (ringEntry 3 f false) ∧
      (after (.faultHandle false) s).faults.handling = some 3) := by decide +kernel

/-- The handler holds an entry of a deferred fault. -/
def handling : State :=
  { up with faults := { up.faults with handling := some 3, ring := [(3, { ringEntry 3 deferred false with state := .handling })] } }

theorem meets_faultHandle_end : handling.h1Up = true ∧
    handling.faults.entry 3 = some { ringEntry 3 deferred false with state := .handling } ∧ deferred.severity = 1 ∧
    deferred.transient = false ∧ deferred.ctx = none ∧
    ((after (.faultHandle true) handling).ctx 0).formed.map (·.reason) = [0x0610] := by decide +kernel

theorem meets_minuteTick : up.h1Up = true ∧ up.board.aonOn = true ∧ up.faults.minuteAt + 3000000000 ≤ up.pilot ∧
    (after .minuteTick up).faults.minute = 1 := by decide +kernel

/-- A record waits in the queue of the module store; the bank has 16 mF. -/
def storing (kind : Nat) (bytes : List Byte) : State :=
  { up with faults := { up.faults with cUf := 1600, storeQueue := [⟨kind, 1, bytes, none⟩] } }

theorem meets_storeBatch : (storing 4 []).h1Up = true ∧ (storing 4 []).batchDue = true ∧
    prefixFits 1600 12000 0 (storing 4 []).faults.storeQueue = 1 ∧
    (after (.storeBatch 12000) (storing 4 [])).faults.storeBatch.length = 1 ∧
    prefixFits 1600 0 0 (storing 4 []).faults.storeQueue = 0 ∧ (storing 4 []).faults.deferralPosted = false ∧
    (after (.storeBatch 0) (storing 4 [])).faults.storeDeferrals = 1 := by decide +kernel

/-- A batch of one record of a kind has been written. -/
def batched (kind : Nat) : State :=
  { up with faults := { up.faults with storeBatch := [⟨kind, 1, zeros 4 ++ leBytes 1 kind ++ zeros 635, none⟩] } }

theorem meets_storeBatchDone : ∀ kind ∈ [4, 5, 7, 8], (batched kind).h1Up = true ∧ (batched kind).board.pwrGood = true ∧
    (batched kind).faults.storeBatch = [⟨kind, 1, zeros 4 ++ leBytes 1 kind ++ zeros 635, none⟩] ∧
    recKind (zeros 4 ++ leBytes 1 kind ++ zeros 635) = kind := by decide +kernel

theorem meets_storeBatchDone_owner : (batched 6).h1Up = true ∧ (batched 6).board.pwrGood = true ∧
    recKind (zeros 4 ++ leBytes 1 6 ++ zeros 635) = 6 := by decide +kernel

/-- The queue has been deferred for a minute of pilot cycles. -/
def deferredStore : State := { up with faults := { up.faults with deferredAt := some 100, minute := 1440 } }

theorem meets_holdupLow : deferredStore.h1Up = true ∧ deferredStore.faults.deferredAt = some 100 ∧
    100 + 3000000000 ≤ deferredStore.pilot ∧ deferredStore.faults.holdupLow = false ∧
    ((after .holdupLow deferredStore).ctx 0).formed.map (·.reason) = [0x061A] ∧
    deferredStore.faults.measuredMinute + 1440 ≤ deferredStore.faults.minute.toNat ∧
    (after (.capacitanceMeasure 125) deferredStore).faults.cUf = 1600 := by decide +kernel

/-- The test of C2. -/
def testing (f : Ift → Ift) : State := up.modIft 2 f

theorem meets_ift : (testing id).h1Up = true ∧ (testing id).clock.ready = true ∧
    ((testing id).core 2).ift.nextMinute ≤ (testing id).faults.minute.toNat ∧
    ((after (.iftDue 2) (testing id)).core 2).ift.nextMinute = 360 ∧
    (let s := testing (fun k => { k with due := true, waited := 1500000000 })
     (s.core 2).ift.due = true ∧ (s.core 2).ift.running = false ∧ 1500000000 ≤ (s.core 2).ift.waited ∧ (s.core 2).running = none ∧
       s.diesUp = true ∧ s.fastUp = true ∧ (s.core 2).span = none ∧ (s.arr (arrayOf 2 0)).cold = true ∧
       (∀ r ∈ s.power.rampReqs, r.core ≠ 2) ∧ ((after (.iftForce 2) s).core 2).ift.forced = true ∧
       (after (.iftRun 2) s).power.rampReqs.map (·.core) = [2]) := by decide +kernel

theorem meets_iftEnd : (let s := testing (fun k => { k with running := true, ran := 4340000 })
    s.diesUp = true ∧ (s.core 2).ift.running = true ∧ (∀ r ∈ s.power.rampReqs, r.core ≠ 2) ∧
      4200000 + 140000 * [IftFail.site 0 17 false].length ≤ (s.core 2).ift.ran ∧
      ((after (.iftEnd 2 []) s).core 2).ift.running = false) := by decide +kernel

/-! ## Power, temperature and clock domains (18) -/

theorem meets_barometerWindow : up.h1Up = true ∧ up.power.windows < 2 ∧ (∀ r ∈ [0, 12], up.power.rails[ix 17 r].measOnly = false) ∧
    ((Rail.fresh 750).window true 9000000 (railLimit 12)).1.duty = 60 ∧
    (({ Rail.fresh 750 with duty := 60, since := 15 } : Rail).window true 9000 (railLimit 12)).1.duty = 61 := by decide +kernel

/-- The dies of the rails of Table 18.1: their currents are estimated from every counter of these. -/
theorem test_railDies : (List.range 17).map railDies = (List.range 12).map (fun r => [r]) ++
    [[12, 13, 14, 15, 16, 17, 18, 19, 20, 21, 22, 23], [24, 25, 26, 27], [28, 29], [30, 31], [31]] := by decide +kernel

/-- Both windows of a period have been read, at a draw. -/
def period (uw : Nat) : State := up.modPower (fun p => { p with
  windows := 2, capDuty := 40, capSince := 16
  rails := vmod p.rails 0 (fun k => { k with setMv := 1000, est := uw / 1000, estPrev := 0 }) })

theorem meets_barometerPeriod : ∀ k ∈ [(7000000000, 32), (6000000000, 39), (5000000000, 41)],
    (period k.1).h1Up = true ∧ 2 ≤ (period k.1).power.windows ∧
    (after .barometerPeriod (period k.1)).power.capDuty = k.2 := by decide +kernel

/-- Rail 3, with its estimate. -/
def rail (f : Rail → Rail) : State := up.modRail 3 f

theorem meets_railMeasurement : (rail id).h1Up = true ∧ (rail id).power.rails[(3 : Fin 17)].measOnly = false ∧
    25 * ((railLimit 3 * 3 / 25) - (rail id).power.rails[(3 : Fin 17)].est) ≤ 3 * railLimit 3 ∧
    (after (.railMeasurement 3 (railLimit 3 * 3 / 25)) (rail id)).power.rails[(3 : Fin 17)].driftRun = 0 ∧
    (rail (fun k => { k with measOnly := true })).power.rails[(3 : Fin 17)].measOnly = true ∧
    (after (.railMeasurement 3 7) (rail (fun k => { k with measOnly := true }))).power.rails[(3 : Fin 17)].meas = 7 := by
  decide +kernel

/-- Windows that drift: the 499th of a run, and the 500th, which ends estimation. -/
theorem meets_railMeasurement_drift : ∀ n ∈ [498, 499], (let s := rail (fun k => { k with driftRun := n })
    let t := after (.railMeasurement 3 (railLimit 3)) s
    s.h1Up = true ∧ s.power.rails[(3 : Fin 17)].measOnly = false ∧ s.power.rails[(3 : Fin 17)].est = 0 ∧
      3 * railLimit 3 < 25 * (railLimit 3 - 0) ∧ t.power.rails[(3 : Fin 17)].measOnly = decide (n = 499) ∧
      (t.ctx 0).formed.map (·.reason) = if n = 499 then [0x0701] else []) := by decide +kernel

/-- A fit that passes restores estimation at the end of the period; one before 4,096 windows changes nothing. -/
theorem meets_recalibrationFit_passes : (let s := rail (fun k => { k with measOnly := true, fitWin := 4096, fitNo := 1 })
    let u := (after (.recalibrationFit 3 (railLimit 3 * 3 / 50)) s).modPower (fun p => { p with windows := 2 })
    u.power.rails[(3 : Fin 17)].restore = true ∧ (u.ctx 0).state = .active ∧ 2 ≤ u.power.windows ∧
      ((after .barometerPeriod u).ctx 0).formed.map (·.reason) = [0x0702]) ∧
    (rail (fun k => { k with measOnly := true, fitWin := 4095 })).power.rails[(3 : Fin 17)].fitWin < 4096 := by decide +kernel

theorem meets_recalibrationFit : ∀ n ∈ [2, 3], (let s := rail (fun k => { k with measOnly := true, fitWin := 4096, fitNo := n })
    let k := s.power.rails[(3 : Fin 17)]
    s.h1Up = true ∧ k.measOnly = true ∧ k.fixed = false ∧ k.restore = false ∧ 4096 ≤ k.fitWin ∧
      (after (.recalibrationFit 3 (railLimit 3 * 3 / 50 + 1)) s).power.rails[(3 : Fin 17)].fixed = decide (3 ≤ n)) := by decide +kernel

theorem meets_temperatureRead : up.h1Up = true ∧ (∀ v ∈ [300, 399, 0, 100], v < throttlePoint 31) ∧ up.power.atTrip = [] ∧
    up.power.hot = [] ∧ (after (.temperatureRead 31 [300, 399, 0, 100]) up).power.temps[(31 : Fin 32)] = 399 ∧
    (∀ d ∈ [11, 24], ¬(12 ≤ d ∧ d < 24)) ∧ up.power.thermtrip = false ∧ up.faults.fatal = false ∧ up.faults.ring = [] ∧
    (after (.thermalTrip 11) up).power.thermtrip = true := by decide +kernel

/-- The feed die of C1 at a temperature, with the thermal duty of C1 at 32. -/
def warm (t : Nat) : State := (up.modPower (fun p => { p with temps := p.temps.set 9 t })).modCore 1 (fun k => { k with thermalDuty := 32 })

theorem meets_thermalDuty : ∀ k ∈ [(387, 33), (388, 32), (399, 32), (400, 28)],
    (warm k.1).h1Up = true ∧ ((after .thermalDutyUpdate (warm k.1)).core 1).thermalDuty = k.2 := by decide +kernel

/-- Two cores ask for a ramp; the last grant lies 64 array cycles back. -/
def ramping : State := up.modPower (fun p => { p with
  rampReqs := [⟨2, 179999999990⟩, ⟨1, 179999999980⟩], lastRamp := some 179999999936 })

theorem meets_rampGrant : ramping.h1Up = true ∧ ramping.nextRamp = some ⟨1, 179999999980⟩ ∧
    179999999980 ≤ ramping.arrayTime ∧ 64 ≤ ramping.arrayTime - 179999999936 ∧
    ((after .rampGrant ramping).core 1).staggerWait = 20 := by decide +kernel

def hinted : State := up.modCC 0 2 (fun k => { k with hint := some ⟨3, some 180000000000⟩ })

theorem meets_hintExpire : hinted.h1Up = true ∧ (hinted.cc 0 2).hint = some ⟨3, some 180000000000⟩ ∧
    180000000000 ≤ hinted.pilot ∧ ((after (.hintExpire 0 2) hinted).cc 0 2).hint = none := by decide +kernel

/-- A domain in a state since a pilot cycle. -/
def domain (d : Fin 11) (st : ClockSt) (since idle : Nat) : State := up.modDomain d (fun _ => ⟨st, since, idle, 1⟩)

theorem meets_clockStart : (domain 4 .stopped 0 0).h1Up = true ∧ (domain 4 .stopped 0 0).power.domains[(4 : Fin 11)].st = .stopped ∧
    (domain 4 .stopped 0 0).clocksOn = true ∧ (domain 4 .stopped 0 0).wanted 4 = true ∧
    (domain 4 .stopped 0 0).startSpaced 4 = true ∧
    (after (.clockStart 4) (domain 4 .stopped 0 0)).power.domains[(4 : Fin 11)].st = .starting := by decide +kernel

theorem meets_clockStartDone : (let s := domain 2 .starting 179999999600 0
    s.power.domains[(2 : Fin 11)].st = .starting ∧ s.power.domains[(2 : Fin 11)].since + 400 ≤ s.pilot ∧
      (after (.clockStartDone 2) s).power.domains[(2 : Fin 11)].st = .running) := by decide +kernel

theorem meets_clockStop : (∀ d ∈ ([2, 7] : List (Fin 11)), (let s := (domain d .running 0 2500).portsOut
    s.power.domains[d].st = .running ∧ s.inUse d = false ∧
      (7 ≤ d.val ∨ (s.clock.idleUs ≠ 0 ∧ 50 * s.clock.idleUs ≤ s.power.domains[d].idle)) ∧
      (after (.clockStop d) s).power.domains[d].st = .stopped)) := by decide +kernel

/-- A cap with the reserved bits of its word set. -/
def capValue (w : Nat) : W32 := BitVec.ofNat 32 (0xABCDE000 + w)

theorem meets_caps : up.hubUp = true ∧ up.h1Up = true ∧ (∀ w ∈ [1600, 3200], bits (capValue w).toNat 11 0 = w ∧
      (after (.pwrCapWrite (capValue w)) up).power.hostCap = w ∧ (after (.bmcCapWrite (capValue w)) up).power.bmcCap = w) ∧
    (∀ w ∈ [1599, 3201], bits (capValue w).toNat 11 0 = w ∧ (w < 1600 ∨ 3200 < w) ∧
      (after (.pwrCapWrite (capValue w)) up).blks[(1 : Fin 36)].rweDropped = 1) ∧
    moduleResetting.board.aonOn = true ∧ moduleResetting.moduleAsked = true := by decide +kernel

/-! ## Reference clocks, resets, start and power (19, 22) -/

/-- The crystal with its run of windows, as the active source. -/
def crystal (source : Fin 3) (f : Source → Source) : State := (up.modSource 1 f).modClock (fun k => { k with source := source, linkRefEn := false })

def monitorHyps (s : State) : Bool :=
  s.h1Up && s.clock.xtalPassed && !s.recEnabled && !s.clock.sources[(0 : Fin 3)].failed &&
    decide (s.clock.sources[(0 : Fin 3)].failRun < 4) && !s.clock.lanePending

theorem meets_monitor_good : ∀ n ∈ [99950, 100050], monitorHyps (crystal 1 id) = true ∧
    (crystal 1 id).clock.sources[(1 : Fin 3)].failed = false ∧
    (after (.monitorWindow none (some n)) (crystal 1 id)).clock.sources[(1 : Fin 3)].goodRun = 1 := by decide +kernel

theorem meets_monitor_bad : ∀ n ∈ [99949, 100051], (let s := crystal 1 (fun q => { q with failRun := 2 })
    monitorHyps s = true ∧ (n < 99950 ∨ 100050 < n) ∧ s.clock.sources[(1 : Fin 3)].failed = false ∧
      s.clock.sources[(1 : Fin 3)].failRun + 1 < 4 ∧
      (after (.monitorWindow none (some n)) s).clock.sources[(1 : Fin 3)].failRun = 3) := by decide +kernel

theorem meets_monitor_fails : (let s := crystal 1 (fun q => { q with failRun := 3 })
    monitorHyps s = true ∧ s.clock.sources[(1 : Fin 3)].failed = false ∧ s.clock.sources[(1 : Fin 3)].failRun = 3 ∧
      s.clock.source = 1 ∧ s.clock.pauseFrom = none ∧ (after (.monitorWindow none (some 0)) s).clock.source = 2) := by
  decide +kernel

theorem meets_monitor_returns : (let s := crystal 2 (fun q => { q with failed := true, goodRun := 63 })
    monitorHyps s = true ∧ s.clock.sources[(1 : Fin 3)].failed = true ∧ s.clock.sources[(1 : Fin 3)].goodRun = 63 ∧
      s.clock.returnEn = true ∧ s.clock.source = 2 ∧ s.clock.pauseFrom = none ∧
      (after (.monitorWindow none (some 100000)) s).clock.source = 1) := by decide +kernel

theorem meets_oscillatorCalibrate : up.h1Up = true ∧ up.clock.xtalPassed = true ∧ up.clock.sources[(1 : Fin 3)].failed = false ∧
    up.clock.calAt + 3000000000 ≤ up.pilot ∧ (after (.oscillatorCalibrate 25000123) up).clock.calibrated = 25000123 := by
  decide +kernel

def paused : State := up.modClock (fun k => { k with pauseFrom := some 100 })

theorem meets_switchPauseEnd : paused.h1Up = true ∧ paused.clock.pauseFrom = some 100 ∧ paused.clock.owedSwitch = false ∧
    (after .switchPauseEnd paused).clock.pauseFrom = none := by decide +kernel

/-- CLK_CTRL with IDLE_US and REF_LANE. -/
def clkCtrl (idle lane : Nat) : W32 := BitVec.ofNat 32 (idle * 65536 + lane * 256 + 3)

theorem meets_clkCtrl : up.hubUp = true ∧ (∀ idle ∈ [0, 10, 1000], bits (clkCtrl idle 0).toNat 13 8 = up.clock.refLane ∧
      bit (clkCtrl idle 0).toNat 1 = up.clock.linkRefEn ∧ bits (clkCtrl idle 0).toNat 25 16 = idle ∧
      (after (.clkCtrlWrite (clkCtrl idle 0)) up).clock.idleUs = idle) ∧
    (∀ idle ∈ [9, 1001], bits (clkCtrl idle 0).toNat 13 8 = up.clock.refLane ∧
      bit (clkCtrl idle 0).toNat 1 = up.clock.linkRefEn ∧ bits (clkCtrl idle 0).toNat 25 16 = idle ∧
      (after (.clkCtrlWrite (clkCtrl idle 0)) up).blks[(1 : Fin 36)].rweDropped = 1) := by decide +kernel

theorem meets_clkCtrl_lane : bits (clkCtrl 20 63).toNat 13 8 ≠ up.clock.refLane ∧ idleOk (bits (clkCtrl 20 63).toNat 25 16) = true ∧
    up.clock.source = 0 ∧ up.clock.pauseFrom = none ∧ up.clock.xtalPassed = true ∧
    up.clock.sources[(1 : Fin 3)].failed = false ∧ (after (.clkCtrlWrite (clkCtrl 20 63)) up).clock.source = 1 := by
  decide +kernel

def resetKey (low : Nat) : W32 := BitVec.ofNat 32 (0x5D1A0000 + low)

theorem meets_resets : up.board.pwrGood = true ∧ up.power.thermtrip = false ∧ up.hubUp = true ∧ up.h1Up = true ∧
    up.board.aonOn = true ∧ up.moduleAsked = false ∧ (resetKey 1).getLsbD 0 = true ∧ bits (resetKey 1).toNat 31 16 = 0x5D1A ∧
    (resetKey 2).getLsbD 0 = false ∧ (resetKey 2).getLsbD 1 = true ∧ bits (resetKey 2).toNat 31 16 = 0x5D1A ∧
    up.faults.fatal = false ∧ up.clock.perstHeld = false ∧ up.clock.resetting = none ∧ 5 ≤ up.clock.stage ∧
    bits (1 : W32).toNat 31 16 ≠ 0x5D1A ∧ (after (.resetCtrlWrite (resetKey 1)) up).clock.lastReset = 3 ∧
    (after (.bmcModuleReset (resetKey 1)) up).clock.lastReset = 2 ∧ (after (.bmcHubReset (resetKey 2)) up).clock.lastReset = 4 ∧
    (after (.bmcHubReset 1) up).board.hostDropped = 1 := by decide +kernel

theorem meets_modResetN : (let s := up.modClock (fun k => { k with resetHeld := true })
    s.board.pwrGood = true ∧ s.power.thermtrip = false ∧ s.board.aonOn = true ∧ s.moduleAsked = false ∧
      s.clock.resetHeld = true ∧ (after (.modResetN false) s).clock.lastReset = 1) := by decide +kernel

theorem meets_pcieResets : up.hubUp = true ∧ up.board.aonOn = true ∧ up.clock.perstHeld = false ∧ up.clock.resetting = none ∧
    up.clock.resetHeld = false ∧ ((after (.functionLevelReset 3) up).ctx 0).state = .active ∧
    ((after .hotReset up).ctx 0).state = .destroying ∧ (after (.perstN true) up).clock.lastReset = 5 ∧
    (let s := up.modClock (fun k => { k with perstHeld := true })
     s.board.aonOn = true ∧ s.clock.perstHeld = true ∧ (after (.perstN false) s).clock.perstHeld = false) := by decide +kernel

/-- A context in DESTROYING keeps the DESTROY that asked for it, unless a reset takes the packet with its context. -/
theorem meets_pcieResets_destroying : ∀ y ∈ ([0, 3] : List (Fin 16)), (let s := up.modCtx 3 (fun k => { k with
      state := .destroying, destroyTag := some (y.val, 4, 0x77, 0) })
    s.hubUp = true ∧ (s.ctx 3).state = .destroying ∧
      ((after (.functionLevelReset 3) s).ctx 3).destroyTag = if y = 3 then none else some (0, 4, 0x77, 0)) := by decide +kernel

theorem meets_restarts : moduleResetting.board.aonOn = true ∧ moduleResetting.moduleAsked = true ∧
    (after .moduleReset moduleResetting).clock.stage = 2 ∧
    (let s := { up with board := { up.board with goodAt := none } }
     s.board.aonOn = true ∧ s.board.pwrGood = true ∧ s.board.goodAt = none ∧
       (after (.powerOnReset 3 63) s).clock.stage = 1) := by decide +kernel

def hubResetting (done : Bool) : State := up.modClock (fun k => { k with resetting := some (.hub, 100), resetDone := done, perstHeld := true })

theorem meets_hubReset : (hubResetting false).h1Up = true ∧ (hubResetting false).sec.hubResetAt = none ∧
    (hubResetting false).clock.resetting = some (.hub, 100) ∧ (hubResetting false).clock.resetDone = false ∧
    (after .hubReset (hubResetting false)).clock.resetDone = true := by decide +kernel

theorem meets_heartbeats : up.diesUp = true ∧ 5 ≤ up.clock.stage ∧ up.clock.resetting = none ∧ up.clock.resetDone = false ∧
    (after .llHeartbeat up).clock.beats = 1 ∧ (hubResetting true).diesUp = true ∧ (hubResetting true).clock.resetDone = true ∧
    (hubResetting true).clock.perstHeld = true ∧ (after .llHeartbeat (hubResetting true)).clock.resetting = none ∧
    (let s := up.modClock (fun k => { k with lastBeat := 179950000000 })
     s.h1Up = true ∧ s.faults.fatal = false ∧ s.faults.ring = [] ∧ s.clock.lastBeat + 50000000 ≤ s.pilot ∧
       (after .llHeartbeatLoss s).faults.fatal = true) := by decide +kernel

/-- R407: the 64th correction of a symbol position within 50,000 pilot cycles is a transient of its lane, and the 63rd is none; R468. -/
theorem test_stackLaneCounts : (let s := fun (k : Nat) => up.modStack 5 (fun t => { t with
      fixTimes := List.replicate k (74, 179999950001), fixes := [74] })
    ((s 63).countFixes 5).faults.history.map (fun e => (e.kind, e.unit, e.count)) = [(5, stackLaneUnit 5 1 0 2, 1)] ∧
    ((s 63).countFixes 5).hbm[(5 : Fin 12)].fixTimes = [] ∧ ((s 62).countFixes 5).faults.history = [] ∧
    [0, 1, 2, 3].map settleDelay = [100000, 400000, 1600000, 6400000]) := by decide +kernel

/-- A start in a stage that began 10 s ago. -/
def stage (n : Nat) : State := up.modClock (fun k => { k with stage := n, stageAt := 179500000000, ready := false })

theorem meets_startStage : (∀ n ∈ [1, 6, 8], (stage n).h1Up = true ∧ (stage n).starting = true ∧ (n = 8 → (stage n).windowClosed = true) ∧
      (after (.startStage .plain) (stage n)).clock.stage = n + 1) ∧
    (stage 3).starting = true ∧ (stage 3).clock.stageAt + (if (stage 3).clock.warm = true then 0 else 100000 * 4 ^ (stage 3).clock.oscDly) +
      200000 ≤ (stage 3).pilot ∧ (∀ n ∈ [98000, 98005, 98001, 98000], 98000 ≤ n ∧ n ≤ 102000 ∧
      ∀ m ∈ [98000, 98005, 98001, 98000], n ≤ m + 5) ∧
    (after (.startStage (.crystal [98000, 98005, 98001, 98000] 25000000)) (stage 3)).clock.stage = 4 ∧
    (stage 9).starting = true ∧ (after (.startStage .plain) (stage 9)).clock.ready = true ∧ (stage 2).starting = true ∧
    (after (.startStage (.verified 0x080D 0x0801 true true [])) (stage 2)).clock.startStopped = true ∧
    (stage 2).clock.resetAt + stageLatest (!(stage 2).clock.warm) 2 < (stage 2).pilot ∧
    (after .startStageTimeout (stage 2)).clock.startReason = 0x070C := by decide +kernel

/-- MOD_PWR_EN is low since 1.0 s. -/
def off : State := { up with board := { up.board with
  pwrEn := false, pwrGood := false, railsOn := false, enOffAt := some 179950000000 } }

theorem meets_power : off.board.pwrEn = false ∧ off.board.vinOk = true ∧ off.power.thermtrip = false ∧
    off.board.enOffAt = some 179950000000 ∧ 179950000000 + 50000000 ≤ off.pilot ∧
    (after (.modPwrEnAssert 10000) off).board.pwrGood = true ∧ up.board.pwrEn = true ∧ up.board.railsOn = true ∧
    (after .modPwrEnDeassert up).board.railsOn = false ∧ (after (.vinUndervoltage 44999) up).board.vinOk = false ∧
    (after (.vinOvervoltage 58501) up).power.thermtrip = true ∧
    (after (.vinReturn 47001) (after (.vinUndervoltage 44999) up)).board.vinOk = true := by decide +kernel

/-! ## Ports, blocks and registers (12, 14, 21, 22) -/

/-- Port 5 out of service. -/
def portDown : State := up.modPort 5 (fun k => { k with inService := false, training := true })

theorem meets_ports : portDown.diesUp = true ∧ portDown.blks[ix 36 (32 + 5 / 4)].enabled = true ∧
    (portDown.links[dieOfPort 5]).ports[ix 4 (5 % 4)].retired = false ∧ portDown.clock.source ≠ 2 ∧
    (after (.portInService 5) portDown).portUp 5 = true ∧
    (let s := up.modClock (fun k => { k with linkRefEn := false })
     s.diesUp = true ∧ (s.links[dieOfPort 5]).ports[ix 4 (5 % 4)].inService = true ∧ s.recEnabled = false ∧
       (after (.portAlignmentLoss 5 none) s).portUp 5 = false) := by decide +kernel

theorem meets_laneSymbolErrorRatio : up.diesUp = true ∧ 0x302 = (3 : Fin 4).val * 256 + (2 : Fin 16).val ∧
    (up.histOf 6 0x302).times.length < 2 ∧ up.faults.history.length < 65536 ∧
    ((after (.laneSymbolErrorRatio 3 2) up).histOf 6 0x302).count = 1 := by decide +kernel

/-- Block b with a header, on a module with no context. -/
def block (b : Fin 36) (f : Blk → Blk) : State := (up.modBlk b f).modCtx 0 (fun k => { k with state := .none })

theorem meets_blockEnable : ∀ b ∈ ([6, 35] : List (Fin 36)), (let s := block b (fun k => { k with enable := false, enabled := false })
    s.diesUp = true ∧ 6 ≤ b.val ∧ s.anyContext = false ∧ s.blks[b].enable = false ∧ s.blks[b].enabled = false ∧
      (after (.blockEnable b true) s).blks[b].checking = true) := by decide +kernel

theorem meets_blockDisable : ∀ b ∈ ([17, 32] : List (Fin 36)), (let s := block b (fun k => { k with enabled := false })
    s.anyContext = false ∧ s.blks[b].enable = true ∧ s.blks[b].enabled = false ∧ (b.val < 18 ∨ 32 ≤ b.val) ∧
      (after (.blockDisable b true) s).blks[b].enable = false) := by decide +kernel

theorem meets_blockDisable_needed : ∀ b ∈ ([6, 29] : List (Fin 36)), (let s := block b id
    s.anyContext = false ∧ s.blks[b].enable = true ∧ s.blks[b].enabled = true ∧ s.neededBy b = true ∧
      (after (.blockDisable b true) s).blks[b].rweDropped = 1) := by decide +kernel

theorem meets_enableCheckDone : (let s := (block 6 (fun k => { k with checking := true, enabled := false }))
    s.blks[(6 : Fin 36)].checking = true ∧ s.checkReason 6 = 0 ∧ (after (.enableCheckDone 6) s).blks[(6 : Fin 36)].enabled = true) ∧
    (let s := (block 6 (fun k => { k with checking := true, enabled := false })).modBlk 18 (fun k => { k with enabled := false })
     s.blks[(6 : Fin 36)].checking = true ∧ s.checkReason 6 ≠ 0 ∧
       (after (.enableCheckDone 6) s).blks[(6 : Fin 36)].reason = 0x0103) := by decide +kernel

/-- The host's write of ENABLE is ignored while a context exists; a block that no other needs stops. -/
theorem meets_blocks_host : (∀ b ∈ ([6, 35] : List (Fin 36)), (let s := up.modBlk b (fun k => { k with enable := b.val == 35 })
      s.anyContext = true ∧ (after (if b.val = 35 then .blockDisable b true else .blockEnable b true) s).board.hostDropped = 1)) ∧
    (∀ b ∈ ([10, 32, 30] : List (Fin 36)), (let s := block b id
      s.anyContext = false ∧ s.blks[b].enable = true ∧ s.blks[b].enabled = true ∧ s.neededBy b = false ∧
        (after (.blockDisable b true) s).blks[b].enabled = false)) ∧
    (block 6 id).blks[(6 : Fin 36)].checking = false ∧ (block 6 id).blks[(6 : Fin 36)].updatePending = false ∧
    (let s := (up.modCore 1 (fun k => { k with running := some (runOf 3 nop) })).modBlk 3 (fun k => { k with updatePending := true })
     (3 : Fin 36).val = 2 + (1 : Fin 4).val ∧ s.coreIdle 1 = false ∧ s.blks[(3 : Fin 36)].updatePending = true) := by decide +kernel

theorem meets_rwsApply : (let s := (block 22 (fun k => { k with updatePending := true })).modStack 4 (fun t => { t with
      shadow := { t.shadow with wcbAge := 3 } })
    22 = 18 + (4 : Fin 12).val ∧ s.blks[(22 : Fin 36)].updatePending = true ∧
      ((after (.rwsApply 22) s).stack 4).ctrl.wcbAge = 3) := by decide +kernel

theorem meets_registers : up.hubUp = true ∧ (∀ w ∈ [1600, 3200], bits (capValue w).toNat 11 0 = w ∧
      (after (.registerWrite 0x100110 (leBytes 4 (capValue w).toNat)) up).power.hostCap = w) ∧
    (∀ k ∈ [(0x100000, [0#8]), (0x3FFFFFE, zeros 4), (0x100004, zeros 8)], 0x100000 ≤ k.1 ∧ k.1 < 0x4000000 ∧
      ((k.2.length ≠ 4 ∧ k.2.length ≠ 8) ∨ k.1 % k.2.length ≠ 0) ∧
      (after (.registerWrite k.1 k.2) up).board.hostDropped = 1) ∧
    windowOf 0x100090 = some (0, 0x90) ∧ up.regAt 0 0x90 = some (0x90, 8, poisonMask) ∧
    (after (.counterLowHalfRead 0 0x100090 4) up).board.latches.map (·.offset) = [0x90] := by decide +kernel

/-- SC_CTRL of S4 with ENABLE as it stands, a stack that does not run, and SCRUB_H at its bounds. -/
theorem meets_scCtrl : ∀ h ∈ [1, 168], (let s := up.modBlk 22 (fun k => { k with enabled := false, checking := false })
    let v := BitVec.ofNat 32 (h * 16384 + 1)
    s.hubUp = true ∧ s.blkRunning 22 = false ∧ bit v.toNat 0 = s.blks[(22 : Fin 36)].enable ∧
      s.blks[(22 : Fin 36)].updatePending = false ∧ bits v.toNat 21 14 = h ∧
      ((after (.registerWrite (0x200100 + 0x100000 * 22) (leBytes 4 v.toNat)) s).stack 4).ctrl.scrubH = h) := by decide +kernel

/-- An 8-byte write of LINK_CTRL and BXT_CFG of a link die that runs, or does not. -/
theorem meets_linkWrite : ∀ on ∈ [true, false], (let s := up.modBlk 33 (fun k => { k with enabled := on, checking := false })
    let t := after (.registerWrite (0x200100 + 0x100000 * 33) (leBytes 4 0x11 ++ leBytes 4 0x1234)) s
    s.hubUp = true ∧ bit 0x11 0 = s.blks[(33 : Fin 36)].enable ∧ s.blkRunning 33 = on ∧
      t.blks[(33 : Fin 36)].rweDropped = (if on then 1 else 0) ∧ (on = false → (t.links[(1 : Fin 4)]).etype = 0x1234)) := by
  decide +kernel

/-- A write that meets no register, reads of the mailbox, of a reserved area, and of both halves of a counter. -/
theorem meets_reads : windowOf 0x100200 = some (0, 0x200) ∧ 0x200 ∉ [0x100, 0x110, 0x120, 0x130] ∧ windowOf 0x800200 = some (7, 0x200) ∧
    readOk 0x100003 4 = false ∧ readOk 0x8 8 = true ∧ readOk 0x3FFFFF8 8 = true ∧
    (after (.counterLowHalfRead 0 0x3FFFFF8 8) up).board.readOut = zeros 8 ∧ readOk 0x100094 4 = true ∧
    windowOf 0x100094 = some (0, 0x94) ∧ up.regAt 0 0x94 = some (0x90, 8, poisonMask) ∧
    (let s := after (.counterLowHalfRead 0 0x100090 4) up
     (s.latchOf 0).map (·.offset) = some 0x90 ∧
       (after (.counterLowHalfRead 0 0x100094 4) s).board.readOut = leBytes 4 (poisonMask / 2 ^ 32)) := by decide +kernel

/-- A module with its dynamic address. -/
def addressed : State := { up with board := { up.board with i3cAddr := some 9, i3cOffset := 8 } }

theorem meets_i3c : addressed.h1Up = true ∧ addressed.board.i3cAddr = some 9 ∧ addressed.board.i3cOffset % 4 = 0 ∧
    (after (.i3cPrivateRead 2) addressed).board.i3cOut.length = 8 ∧
    (∀ w ∈ [1600, 3200], bits (capValue w).toNat 11 0 = w ∧
      (after (.i3cPrivateWrite (leBytes 4 0x1000 ++ leBytes 4 (capValue w).toNat)) addressed).power.bmcCap = w) ∧
    up.h1Up = true ∧ up.board.i3cAddr = none ∧
    (after (.i3cAddressAssignment (some (0x30 + up.board.slotId % 8)) 127) up).board.i3cAddr = some 127 ∧
    (after (.i3cAddressAssignment none 0) up).board.i3cAddr = some 0 ∧ up.board.aonOn = true ∧ up.clock.resetHeld = false ∧
    (after (.jtagInstruction .idcode) up).board.jtagOut = 0x10108ABD := by decide +kernel

/-- Private writes of the offset alone, of other registers, out of line, and of BMC_RESET; a module with its address takes no other. -/
theorem meets_i3c_writes : (after (.i3cPrivateWrite (leBytes 4 16)) addressed).board.i3cOffset = 16 ∧
    (after (.i3cPrivateWrite (leBytes 4 16 ++ leBytes 4 7)) addressed).board.i3cOffset = 16 ∧
    (after (.i3cPrivateWrite (leBytes 4 17 ++ leBytes 4 7)) addressed).board.hostDropped = 1 ∧
    bmcReset (resetKey 1) ≠ some .hub ∧ bmcReset (resetKey 2) = some .hub ∧
    (after (.i3cPrivateWrite (leBytes 4 0x1004 ++ leBytes 4 (resetKey 1).toNat)) addressed).clock.lastReset = 2 ∧
    (after (.i3cPrivateWrite (leBytes 4 0x1004 ++ leBytes 4 (resetKey 2).toNat)) addressed).clock.lastReset = 4 ∧
    addressed.board.i3cAddr ≠ none ∧ (after (.i3cAddressAssignment none 5) addressed).board.i3cAddr = some 9 ∧
    (up.modClock (fun k => { k with resetHeld := true })).clock.resetHeld = true := by decide +kernel

/-! ## Links and collectives (14) -/

/-- Node 2 of an installation, its job 5 on context 0, with frames and commands of the fabric. -/
def fabricOf (b : Fabric) (queued : List Cmd) (runs : List Run) : State :=
  ({ windowed with roles := Roles.ofRecord (roleBody []) (some 0), fabric := b
                   hub := { windowed.hub with nextRun := 4 } }).modCtx 0 (fun k => { k with fabric := queued, fabricRun := runs })

/-- A frame of node 1 for job 5. -/
def frameOf (kind channel : Nat) (payload : List Byte) : Frame :=
  { version := 1, kind := kind, throttled := false, last := false, poison := false, retx := false, start := false, src := 1
    dst := 2, job := 5, channel := channel, stripe := 0, seq := 3, msg := 9, offset := 0, word := 0
    pcrc := if payload.isEmpty then 0 else crc32c payload, payload := payload }

/-- The receiving flow of a channel expects SEQ 3. -/
def flowIn (channel fresh : Nat) : RxFlow := ⟨1, 5, channel, some 0, 3, [], fresh, some 100⟩

theorem meets_frames_discarded : (let s := fabricOf Fabric.fresh [] []
    s.diesUp = true ∧ s.portUp 6 = true ∧ (∀ k ∈ [1, 2], s.frameOk { frameOf k 0 [] with version := 2 } = false ∧
      (frameOf k 0 []).kind = k) ∧ (after (.rxDiscard 6 none) s).links[(1 : Fin 4)].rxDiscard = 1) := by decide +kernel

theorem meets_frames_data : (∀ k ∈ [((2 : W32), 5), (3, 14)], (let s := fabricOf { Fabric.fresh with rx := [flowIn 0 k.2] } [] []
    let f := { frameOf 1 0 (zeros 64) with seq := k.1 }
    s.frameOk f = true ∧ s.rxFlow 1 5 0 = some (flowIn 0 k.2) ∧ s.jobCtx f.job = some 0 ∧ (s.ctx 0).fabricRun = [] ∧
      (k.1 = 2 → 2 ^ 31 ≤ dist32 f.seq (flowIn 0 k.2).expected) ∧
      (k.1 = 3 → f.seq = (flowIn 0 k.2).expected ∧ (flowIn 0 k.2).seen = [] ∧ (flowIn 0 k.2).fresh < 15) ∧
      (after (.dataFrame 6 f) s).fabric.early.length = if k.1 = 3 then 1 else 0)) := by decide +kernel

/-- Two frames that wait for their acknowledgement since pilot cycle 100. -/
def flowOut (timeouts : Nat) : TxFlow :=
  { TxFlow.fresh 1 5 0 (some 0) with
    next := 5, start := false, frames := [3, 4].map (fun q =>
      { frame := { frameOf 1 0 [] with src := 2, dst := 1, seq := q }, sent := some 100, timeouts := timeouts, sacked := false
        fast := false, owner := none, port := none }) }

theorem meets_frames_ack : (let s := fabricOf { Fabric.fresh with tx := [flowOut 0] } [] []
    let f := { frameOf 2 0 [] with msg := 4 }
    f.kind = 2 ∧ s.frameOk f = true ∧ s.txFlow 1 5 0 = some (flowOut 0) ∧ s.fabric.services = [] ∧
      (∀ x, s.jobCtx f.job = some x → (s.ctx x).fabricRun = []) ∧
      ((after (.ackFrame 6 f) s).txFlow 1 5 0).map (fun u => u.frames.map (·.frame.seq)) = some [4]) := by decide +kernel

/-- The bytes of a tensor: address, format and space, pitch in 16-byte units, columns. -/
def tens (base fmt space pitch cols : Nat) : List Byte :=
  leBytes 6 base ++ leBytes 1 (fmt + 16 * space) ++ zeros 7 ++ leBytes 2 pitch ++ leBytes 4 0x3F800000 ++ zeros 8 ++
    leBytes 4 cols

/-- A SEND or a RECV of two rows of 32 columns of the window of C1 with node 1, tag 9. -/
def message (op : Nat) : Cmd := { cmdOf 4 (leBytes 1 op ++ zeros 3 ++ leBytes 1 1 ++ zeros 3 ++ leBytes 4 1 ++ leBytes 4 9 ++
  leBytes 4 2 ++ zeros 44) with tens := [tens 0 0 0 8 32] }

/-- What a dispatched fabric command starts with: no reason to fail and a job. -/
def startsFab (s : State) (op : Nat) : Bool :=
  match s.dispatchFabric 0 (fun m => m.op == op) with
  | some (s1, r) => s1.fabReason r == 0 && s1.jobOf 0 == s.jobOf 0 && (s.jobOf 0).isSome
  | none => false

theorem meets_send : (∀ op ∈ [0x41, 0x42], (fabricOf Fabric.fresh [message op] []).diesUp = true ∧
      startsFab (fabricOf Fabric.fresh [message op] []) op = true ∧ (fabricOf Fabric.fresh [message op] []).fabric.rts = []) ∧
    RunsNumbered (fabricOf Fabric.fresh [message 0x41] []) :=
  ⟨by decide +kernel, runsNumbered_of (by decide +kernel) (by decide +kernel) (by decide +kernel)⟩

/-- A dispatched message with its progress, and the flow of its channel. -/
def inMessage (op waits : Nat) (retry : Option Nat) : State :=
  fabricOf { Fabric.fresh with rx := [flowIn 1 0], fabs := [⟨3, 0, waits, 0, retry, [], [], [], [], 0, none⟩] } []
    [{ runOf 3 (message op) with busy := true }]

theorem meets_rtsFrame : (let s := inMessage 0x42 0 none
    let f := { frameOf 3 1 [] with offset := 512 }
    s.frameOk f = true ∧ s.portUp 6 = true ∧ s.jobCtx f.job = some 0 ∧
      s.fabRuns 0 = [({ runOf 3 (message 0x42) with busy := true }, ⟨3, 0, 0, 0, none, [], [], [], [], 0, none⟩)] ∧
      (message 0x42).op = 0x42 ∧ (msgArgs (message 0x42)).peer = f.src ∧ (msgArgs (message 0x42)).tag = f.msg ∧
      (msgArgs (message 0x42)).bytes = f.offset.toNat ∧ s.fabric.rts = [] ∧ s.rxFlow f.src f.job 1 = some (flowIn 1 0) ∧
      f.seq = (flowIn 1 0).expected ∧
      ((after (.rtsFrame 6 f) s).txFlow 1 5 1).map (fun u => u.frames.map (·.frame.kind)) = some [4]) := by decide +kernel

theorem meets_ctsFrame : ∀ w ∈ [0, 1], (let s := inMessage 0x41 0 none
    let f := { frameOf 4 1 [] with word := BitVec.ofNat 32 w }
    s.frameOk f = true ∧ s.jobCtx f.job = some 0 ∧
      s.fabRuns 0 = [({ runOf 3 (message 0x41) with busy := true }, ⟨3, 0, 0, 0, none, [], [], [], [], 0, none⟩)] ∧
      (message 0x41).op = 0x41 ∧ (msgArgs (message 0x41)).peer = f.src ∧ (msgArgs (message 0x41)).tag = f.msg ∧
      0 < (msgArgs (message 0x41)).bytes ∧ s.fabric.early = [] ∧ s.rxFlow f.src f.job 1 = some (flowIn 1 0) ∧ f.seq = (flowIn 1 0).expected) := by decide +kernel

theorem runsNumbered_inMessage : RunsNumbered (inMessage 0x41 0 none) :=
  runsNumbered_of (by decide +kernel) (by decide +kernel) (by decide +kernel)

/-- Nodes 2 and 1 as a member table at the start of page 3, and an almanac with group 7 there. -/
def members (queued : List Cmd) (rx : List RxFlow) (services : List Service) : State :=
  let s := fabricOf { Fabric.fresh with rx := rx, services := services } queued []
  ({ s with hbm := vmod s.hbm 4 (fun t => { t with mem := Mem.write [] 262144 (leBytes 4 2 ++ leBytes 4 1) })
            tiers := placed.tiers }).modCtx 0 (fun k => { k with almanac := some ⟨3 * 131072, [(7, almImage)]⟩ })

/-- An ALL-REDUCE of 64 elements over the two members, two stripes. -/
def allReduce : Cmd := { cmdOf 4 (leBytes 1 0x40 ++ zeros 3 ++ leBytes 2 0 ++ leBytes 2 0 ++ leBytes 1 1 ++ leBytes 1 2 ++
  zeros 2 ++ leBytes 4 64 ++ leBytes 8 (3 * 131072) ++ leBytes 2 2 ++ leBytes 2 0 ++ leBytes 4 9 ++ zeros 32) with
    tens := [tens 0 0 0 16 64] }

theorem meets_coll : (let s := members [allReduce] [] []
    let a := collArgs allReduce
    startsFab s 0x40 = true ∧ s.diesUp = true ∧ a.op < 2 ∧ s.fabric.early = [] ∧
      (s.memberNodes (fld allReduce.desc 0x10 8) a.p)[(a.me + 1) % a.p]? = some 1 ∧ 1 < a.stripes ∧
      0 < a.stripeLen ((a.me + a.p - 1) % a.p) 1 ∧
      ((after (.coll 0) s).txFlow 1 5 0).map (fun u => u.frames.map (·.frame.stripe)) = some [0, 1]) := by decide +kernel

/-- A SHARD_GATHER of 64 bytes from both members, group 7. -/
def gather : Cmd := { cmdOf 4 (leBytes 1 0x43 ++ zeros 3 ++ leBytes 1 1 ++ zeros 3 ++ leBytes 8 (3 * 131072) ++ leBytes 4 64 ++
  leBytes 2 2 ++ leBytes 2 0 ++ leBytes 8 (3 * 131072) ++ leBytes 4 7 ++ zeros 28) with tens := [tens 0 0 0 8 32] }

theorem meets_shardGather : (let s := members [gather] [] []
    let a := shardArgs gather
    s.idleHeld 0 = false ∧ startsFab s 0x43 = true ∧ 1 ≠ a.me ∧ (s.memberNodes a.members a.p)[1]? = some 1 ∧
      ((after (.shardGather 0) s).txFlow 1 5 2).map (fun u => u.frames.map (·.frame.kind)) = some [3]) := by decide +kernel

theorem runsNumbered_members : RunsNumbered (members [gather] [] []) ∧ RunsNumbered (members [allReduce] [] []) :=
  ⟨runsNumbered_of (by decide +kernel) (by decide +kernel) (by decide +kernel),
    runsNumbered_of (by decide +kernel) (by decide +kernel) (by decide +kernel)⟩

theorem meets_shardRequest : ∀ g ∈ [7, 8], (let s := members [] [flowIn 2 0] []
    let f := { frameOf 3 2 (leBytes 8 (3 * 131072) ++ leBytes 4 g ++ zeros 52) with offset := 64 }
    s.frameOk f = true ∧ s.portUp 6 = true ∧ s.jobCtx f.job = some 0 ∧ s.rxFlow f.src f.job 2 = some (flowIn 2 0) ∧
      f.seq = (flowIn 2 0).expected ∧
      s.shardRefused 0 (fld f.payload 0 8) f.offset.toNat (bits (fld f.payload 8 4) 17 0) = decide (g = 8) ∧
      (after (.shardRequest 6 f) s).fabric.services.length = if g = 7 then 1 else 0) := by decide +kernel

def service : Service := ⟨1, 0, 5, 1, 9, 3 * 131072, 64, 7, false, none⟩

theorem meets_shardServe : (let s := members [] [] [service]
    s.fabric.services = [service] ∧ s.maySend = true ∧ s.shardRefused 0 service.src 64 7 = false ∧
      s.almEntry 0 7 = some almImage ∧ almPending almImage = false ∧ almUpdating almImage = false ∧ almRefs almImage < 65535 ∧
      (after (.shardServe 0) s).fabric.services.map (·.started) = [true]) := by decide +kernel

theorem meets_ackTimer : (let s := fabricOf { Fabric.fresh with rx := [flowIn 0 3] } [] []
    s.diesUp = true ∧ s.rxFlow 1 5 0 = some (flowIn 0 3) ∧ (flowIn 0 3).firstAt = some 100 ∧ 100 + 200 ≤ s.pilot ∧ s.maySend = true ∧
      s.nextPort = some 0) := by decide +kernel

theorem meets_retxTimeout : ∀ n ∈ [6, 7], (let s := fabricOf { Fabric.fresh with tx := [flowOut n] } [] []
    s.txFlow 1 5 0 = some (flowOut n) ∧ ((flowOut n).frames.find? (fun o => o.frame.seq == 3)).map (·.timeouts) = some n ∧
      ((flowOut n).frames.find? (fun o => o.frame.seq == 3)).map (·.sent) = some (some 100) ∧
      100 + s.linkCfg.retxUs * 50 * 2 ^ n ≤ s.pilot ∧ s.maySend = true ∧
      ((after (.retxTimeout 1 5 0 3) s).txFlow 1 5 0).map (·.cwnd) = some (if n = 6 then 32 else 64)) := by decide +kernel

theorem meets_rtsRetry : (let s := inMessage 0x41 0 (some 100)
    (s.ctx 0).fabricRun[0]? = some { runOf 3 (message 0x41) with busy := true } ∧
      (s.fabOf 3).map (·.retry) = some (some 100) ∧ (s.jobOf 0).isSome = true ∧ 100 + 5000 ≤ s.pilot ∧
      ((after (.rtsRetry 0 0) s).txFlow 1 5 1).map (fun u => u.frames.map (·.frame.kind)) = some [3]) := by decide +kernel

theorem meets_peerWaitTimeout : (let s := inMessage 0x41 100000000 none
    let r := { runOf 3 (message 0x41) with busy := true }
    (s.ctx 0).fabricRun[0]? = some r ∧ (s.fabOf 3).map (fun g => s.inPeerWait r g) = some true ∧
      (s.fabOf 3).map (fun g => decide (peerLimit r.cmd ≤ g.waits)) = some true ∧ (s.fabOf 3).map (·.heard) = some none ∧
      ((after (.peerWaitTimeout 0 0) s).ctx 0).fabricRun.map (·.out.reason) = [0x0503]) := by decide +kernel

/-! ## Installation roles (15) -/

/-- Node 2 with role services in some state. -/
def lamp (overLim : List (Nat × List Byte)) (f : Roles → Roles) : State :=
  { fabricOf Fabric.fresh [] [] with roles := f (Roles.ofRecord (roleBody overLim) (some 0)) }

/-- A manager of node 1 and itself. -/
def managing (f : Roles → Roles) : State := lamp [] (fun r => f { r with
  role := 1, managerReadyAt := some 0, welcomed := true, members := [{
    node := 1, listed := 0, index := some 0, sparePos := none, present := true, failed := false, beat := 100, beats := []
    cap := 3200, faults := [0, 0, 0, 0], slow := [], slowRun := 0, slowPosted := false }] })

/-- A control message of node 1, of the own group and installation. -/
def ctrl (msg : Nat) (body : List Byte) : Frame :=
  let m := leBytes 1 msg ++ zeros 3 ++ leBytes 4 7 ++ zeros 4 ++ leBytes 4 body.length ++ body
  let m := m ++ zeros ((64 - m.length % 64) % 64)
  { frameOf 5 3 m with job := 0xFFFF, start := true, seq := 0 }

/-- The message is taken in, and leaves the roles as they were. -/
def heard (s : State) (msg : Nat) (body : List Byte) : Prop :=
  s.lampUp = true ∧ s.node = some 2 ∧ ((s.takeCtrl 6 (ctrl msg body) msg).2).map (fun c => (c.src, c.group, c.body)) =
    some (1, 0, body) ∧ (s.takeCtrl 6 (ctrl msg body) msg).1.roles = s.roles

theorem meets_hello : heard (managing id) 0x01 (zeros 5) ∧ (managing id).roles.servesGroup = true ∧
    (managing id).roles.managerReadyAt.isSome = true ∧ (managing id).roles.formed = false ∧
    ((managing id).roles.members.find? (fun m => m.node == 1)).isSome = true := by unfold heard; decide +kernel

theorem meets_welcome : heard (lamp [] id) 0x02 (leBytes 2 1 ++ leBytes 2 3) ∧ (lamp [] id).roles.servesGroup = false ∧
    (after (.welcome 6 (ctrl 0x02 (leBytes 2 1 ++ leBytes 2 3))) (lamp [] id)).roles.groupEpoch = 3 := by
  unfold heard; decide +kernel

theorem meets_helloRepeat : (lamp [] id).lampUp = true ∧ (lamp [] id).node = some 2 ∧ (lamp [] id).roles.readyAt = some 0 ∧
    (lamp [] id).roles.welcomed = false ∧ (lamp [] id).roles.servesGroup = false ∧ (lamp [] id).roles.helloAt = none ∧
    (lamp [] id).roles.manager ≠ 2 ∧ (after .helloRepeat (lamp [] id)).roles.helloAt = some 180000000000 := by decide +kernel

theorem meets_managerReady : (let s := managing (fun r => { r with managerReadyAt := none })
    s.lampUp = true ∧ s.node = some 2 ∧ s.roles.servesGroup = true ∧ s.roles.readyAt.isSome = true ∧
      s.roles.managerReadyAt = none ∧ s.board.goodAt = some 0 ∧ 0 + 3750000000 ≤ s.pilot ∧
      (after .managerReady s).roles.members.length = 2) := by decide +kernel

theorem meets_groupForm : (managing id).lampUp = true ∧ (managing id).node = some 2 ∧ (managing id).roles.role = 1 ∧
    (managing id).roles.managerReadyAt = some 0 ∧ (managing id).roles.formed = false ∧ (managing id).roles.installReady = false ∧ (managing id).roles.top ≠ 2 ∧
    (∀ m ∈ (managing id).roles.members, m.listed < (managing id).role 0x16 2 → m.present = true) ∧
    (after .groupForm (managing id)).roles.formed = true := by decide +kernel

/-- The holder of an installation of two groups, its own and that of node 5. -/
def holding : State := lamp [(0x11, leBytes 1 2)] (fun r => { r with
  role := 2, managerReadyAt := some 0, groups := [⟨0, 2, 1, 0, 0, none, 100, []⟩, ⟨1, 5, 1, 0, 0, none, 100, []⟩] })

theorem meets_groupReady : heard holding 0x03 (leBytes 2 2 ++ leBytes 2 0 ++ leBytes 2 4) ∧
    holding.roles.servesAll = true ∧ holding.roles.closed = false := by unfold heard; decide +kernel

theorem meets_installReady : heard (lamp [] id) 0x04 (leBytes 2 1 ++ leBytes 2 2 ++ leBytes 2 9) ∧
    (lamp [] id).roles.servesGroup = false ∧
    (after (.installReady 6 (ctrl 0x04 (leBytes 2 1 ++ leBytes 2 2 ++ leBytes 2 9))) (lamp [] id)).roles.offset = 9 := by
  unfold heard; decide +kernel

theorem meets_registrationClose : holding.lampUp = true ∧ holding.node = some 2 ∧ holding.roles.servesAll = true ∧
    holding.roles.managerReadyAt = some 0 ∧ holding.roles.closed = false ∧ holding.role 0x11 1 ≤ holding.roles.groups.length ∧
    (holding.roles.groups.find? (fun k => k.group == 1)).map (·.node) = some 5 ∧ 1 < holding.role 0x11 1 ∧ 1 ≠ holding.role 0x10 1 ∧
    (after .registrationClose holding).roles.closed = true := by decide +kernel

/-- The deputy of a group of nodes 1 and 2. -/
def deputy : State :=
  lamp [(0x20, leBytes 4 2), (0x140, leBytes 4 1 ++ leBytes 4 2)] (fun r => { r with managerReadyAt := some 0 })

theorem meets_deputyTakeCharge : (let s := deputy
    s.lampUp = true ∧ s.node = some 2 ∧ 0 + 500000000 ≤ s.pilot ∧ s.isDeputy = true ∧ s.roles.servesGroup = false ∧
      s.roles.welcomed = false ∧ s.listMembers.map (·.node) = [1, 2] ∧
      (after (.deputyTakeCharge false) s).roles.groupEpoch = 1) := by decide +kernel

theorem meets_deputyTakeCharge_top : (let s := lamp [(0x28, leBytes 4 2)] (fun r => { r with role := 1, managerReadyAt := some 0 })
    s.isTopDeputy = true ∧ s.roles.role = 1 ∧ s.roles.managerBeat = none ∧
      (after (.deputyTakeCharge true) s).roles.installEpoch = 1) := by decide +kernel

theorem meets_takeCharge : heard (lamp [] id) 0x06 (leBytes 2 4) ∧ (lamp [] id).roles.groupEpoch < 4 ∧
    (lamp [] id).role 0x10 1 = 0 ∧ heard (lamp [] id) 0x0E (leBytes 2 4 ++ leBytes 4 1) ∧
    (after (.takeCharge 6 (ctrl 0x06 (leBytes 2 4))) (lamp [] id)).roles.groupEpoch = 4 := by unfold heard; decide +kernel

theorem meets_heartbeat : heard (managing id) 0x05 (leBytes 2 900 ++ zeros 24) ∧ (managing id).role 0x10 1 = 0 ∧
    fld (leBytes 2 900 ++ zeros 24) 20 2 = 0 ∧
    (after (.heartbeat 6 (ctrl 0x05 (leBytes 2 900 ++ zeros 24))) (managing id)).roles.members.map (·.beats) =
      [[⟨900, 0, 0⟩]] := by unfold heard; decide +kernel

/-- A worker with an index. -/
def worker : State := lamp [] (fun r => { r with welcomed := true })

theorem meets_reportsSent : worker.lampUp = true ∧ worker.node = some 2 ∧ worker.roles.role = 0 ∧
    worker.roles.readyAt.isSome = true ∧ worker.roles.welcomed = true ∧ worker.roles.servesGroup = false ∧
    worker.roles.manager ≠ 2 ∧ worker.roles.beatAt = none ∧ worker.roles.slowAt = none ∧
    (after .heartbeatSend worker).roles.beatAt = some 180000000000 := by decide +kernel

theorem meets_memberFail : (let s := managing (fun r => { r with formed := true, managerBeat := some 100 })
    s.lampUp = true ∧ s.node = some 2 ∧ s.roles.servesGroup = true ∧ s.roles.formed = true ∧
      (s.roles.members.find? (fun m => m.node == 1 && m.present && !m.failed)).map (·.beat) = some 100 ∧
      100 + 100000000 ≤ s.pilot ∧ s.roles.role = 1 ∧ s.roles.silentSince = some 100 ∧ s.roles.helloAt = none ∧ s.role 0x28 4 ≠ 2 ∧
      (after (.memberFail 1) s).roles.members.map (·.failed) = [true] ∧
      (after .managerHeartbeatLoss s).roles.helloAt = some 180000000000) := by decide +kernel

theorem meets_slowReport : heard (managing id) 0x0C (leBytes 8 500 ++ leBytes 8 400) ∧
    ((after (.memberAttestation 1 false) (managing id)).ctx 0).formed.map (·.reason) = [0x080B] := by
  unfold heard; decide +kernel

theorem meets_takeover : (let s := lamp [] (fun r => { r with role := 3 })
    heard s 0x08 (leBytes 2 1 ++ leBytes 4 9 ++ leBytes 2 5 ++ leBytes 4 77 ++ leBytes 4 0xFFFFFFFF) ∧ s.roles.role = 3) := by
  unfold heard; decide +kernel

/-- A TAKEOVER of index 1 of job 5 at step 77, from a holder or from none. -/
def takeoverOf (holder : Nat) : Frame :=
  ctrl 0x08 (leBytes 2 1 ++ leBytes 4 9 ++ leBytes 2 5 ++ leBytes 4 77 ++ leBytes 4 holder)

/-- A spare whose job has no checkpoint pages stores a shard of none; one that has no mirror to read fails. -/
theorem meets_takeover_spare : ∀ h ∈ [1, 0xFFFFFFFF], (let s := lamp [] (fun r => { r with role := 3 })
    let t := after (.takeover 6 (takeoverOf h) (some [])) s
    s.roles.role = 3 ∧ (s.jobs.find? (fun j => j.job == 5)).map (fun j => (j.ckptPages, s.owns j.x (j.ckptFirst * 131072) 0)) =
        some (0, true) ∧
      t.roles.role = (if h = 1 then 0 else 3) ∧ t.roles.index = (if h = 1 then 1 else s.roles.index)) := by decide +kernel

theorem meets_takeover_member : worker.roles.role ≠ 3 ∧
    (after (.takeover 6 (takeoverOf 1) none) worker).roles.index = worker.roles.index := by decide +kernel

theorem meets_takeoverDone_failed : (let s := managing (fun r => { r with takeovers := [⟨4, 9, some 1⟩] })
    let t := after (.takeoverDone 6 (ctrl 0x09 (leBytes 2 4 ++ leBytes 2 5 ++ leBytes 4 77 ++ leBytes 2 0x0524))) s
    s.roles.servesAll = false ∧ t.roles.takeovers = [] ∧ t.roles.members.map (·.index) = [some 0] ∧
      (t.ctx 0).formed.map (·.reason) = [0x0524]) := by decide +kernel

theorem meets_takeoverDone : (let s := managing (fun r => { r with takeovers := [⟨4, 9, some 1⟩] })
    heard s 0x09 (leBytes 2 4 ++ leBytes 2 5 ++ leBytes 4 77 ++ leBytes 2 0) ∧ s.roles.servesGroup = true ∧
      s.roles.takeovers = [⟨4, 9, some 1⟩] ∧ (s.ctx 0).state = .active) := by unfold heard; decide +kernel

theorem meets_rosterUpdate : heard worker 0x07 (leBytes 2 4 ++ leBytes 4 1 ++ leBytes 2 6 ++ leBytes 2 5 ++ leBytes 4 77 ++
    leBytes 2 0x0523) := by unfold heard; decide +kernel

theorem meets_ckptHeld : heard (managing id) 0x0A (leBytes 4 1 ++ leBytes 2 5 ++ leBytes 4 77) ∧
    ((managing id).roles.members.find? (fun m => m.node == 1)).map (·.index) = some (some 0) ∧ (managing id).roles.ckpts = [] := by
  unfold heard; decide +kernel

theorem meets_faultReport : heard (managing id) 0x0B (leBytes 4 6 ++ leBytes 4 7) ∧
    (leBytes 4 6 ++ leBytes 4 7 : List Byte).length < 296 ∧
    (after (.faultReport 6 (ctrl 0x0B (leBytes 4 6 ++ leBytes 4 7))) (managing id)).roles.members.map (·.faults) =
      [[6, 7, 0, 0]] := by unfold heard; decide +kernel

theorem meets_capSet : ∀ w ∈ [1600, 3200, 1599, 3201], heard worker 0x0D (leBytes 4 w) ∧ worker.roles.manager = 1 ∧
    (after (.capSet 6 (ctrl 0x0D (leBytes 4 w))) worker).power.mgrCap = if 1600 ≤ w ∧ w ≤ 3200 then w else 3200 := by
  unfold heard; decide +kernel

theorem meets_capReview : (let s := managing (fun r => { r with formed := true, installReady := true, record := some (roleBody [(0x34, leBytes 4 6400)]) })
    s.lampUp = true ∧ s.node = some 2 ∧ s.roles.servesGroup = true ∧ s.roles.formed = true ∧ s.roles.installReady = true ∧ s.role 0x34 4 ≠ 0 ∧
      s.roles.reviewAt = none ∧ (∀ m ∈ s.roles.members, 1600 ≤ m.cap ∧ m.cap ≤ 3200) ∧
      (after .capReview s).roles.reviewAt = some 180000000000) := by decide +kernel

/-! ## Commands of the queues (05, 06, 08, 09, 13) -/

/-- Context 0 with a window and main commands on C1. -/
def onCore (cmds : List Cmd) : State :=
  { windowed.modCC 0 1 (fun k => { k with main := cmds }) with hub := { (windowed.modCC 0 1 (fun k => { k with main := cmds })).hub with nextRun := 4 } }

/-- A command of C1: operation, the bytes after it, and tensors. -/
def work (op : Nat) (rest : List Byte) (ts : List (List Byte)) : Cmd := { cmdOf 1 (leBytes 1 op ++ rest) with tens := ts }

/-- The core dispatches a command of an operation. -/
def dispatches (s : State) (c : Fin 4) (isOp : Cmd → Bool) : Bool := (s.dispatchCore c isOp).isSome

theorem meets_compute : ∀ op ∈ [0x10, 0x11, 0x12, 0x13, 0x20, 0x21, 0x22, 0x23, 0x24, 0x25, 0x31, 0x30],
    (onCore [work op (zeros 63) [tens 0 0 0 16 32]]).diesUp = true ∧
    dispatches (onCore [work op (zeros 63) [tens 0 0 0 16 32]]) 1 (fun m => m.op == op) = true ∧
    InWindow 1 (work op (zeros 63) [tens 0 0 0 16 32]) := by decide +kernel

/-- A COPY of one row of 32 columns from the start of the window to its byte 1,024. -/
def copying : State :=
  { onCore [work 0x25 (zeros 3 ++ leBytes 2 1 ++ zeros 2 ++ leBytes 4 1 ++ leBytes 4 32 ++ zeros 48)
      [tens 0 0 0 16 32, tens 1024 0 0 16 32]] with
    feeds := vmod windowed.feeds 1 (fun f => { f with spad := [(0x4000, 3#8)] }) }

def copyHyps (s : State) : Bool :=
  match s.dispatchCore 1 (fun m => m.op == 0x25) with
  | some (s1, r) =>
    let u := s1.cacheReads r.x 1 r.cmd.regions
    let ts := r.cmd.tensorD 2
    let td := r.cmd.tensorD 4
    !bit (byteAt r.cmd.desc 1) 0 && fld r.cmd.desc 0xC 4 == 32 && ts.storedRows (fld r.cmd.desc 8 4) == 1 && td.space == 0 &&
      (u.rowBytesOf r.x 1 ts 32 0).length == 256 && decide (256 ≤ td.pitch) &&
      decide (td.base + 1 * td.pitch ≤ (s.cc r.x 1).resSize)
  | none => false

theorem meets_copy : copying.diesUp = true ∧ copyHyps copying = true ∧ copying.quiet = true ∧
    ((after (.copy 1) copying).feed 1).spad.get (0x4000 + 1024) = 3 := by decide +kernel

/-- NOP, HINT of level 2 for 9 µs, FENCE SIGNAL and FENCE WAIT of token 7, and CENSUS with ROLL of record 9. -/
def nopOf : Cmd := work 0x67 (zeros 63) []

def hintOf : Cmd := work 0x65 (leBytes 1 2 ++ zeros 2 ++ leBytes 4 9 ++ zeros 56) []

def signalOf : Cmd := work 0x60 (leBytes 1 0 ++ leBytes 1 7 ++ zeros 61) []

def waitOf (value : Nat) : Cmd := work 0x60 (leBytes 1 1 ++ leBytes 1 7 ++ zeros 1 ++ leBytes 4 value ++ zeros 56) []

def censusOf : Cmd := work 0x66 (leBytes 1 1 ++ leBytes 2 9 ++ leBytes 2 1 ++ zeros 58) []

theorem meets_nop : (onCore [nopOf]).diesUp = true ∧ dispatches (onCore [nopOf]) 1 (fun m => m.op == 0x67) = true ∧
    ((after (.nop (.core 1)) (onCore [nopOf])).ctx 0).formed.length = 1 := by decide +kernel

theorem meets_hint : dispatches (onCore [hintOf]) 1 (fun m => m.op == 0x65) = true ∧ ((onCore [hintOf]).core 1).span = none ∧
    ((after (.hint (.core 1)) (onCore [hintOf])).cc 0 1).hint = some ⟨2, some 180000000450⟩ := by decide +kernel

theorem meets_fenceSignal : dispatches (onCore [signalOf]) 1 (isForm 0x60 0) = true ∧
    (onCore [signalOf]).queueIdle (.core 1) = true ∧
    ((after (.fenceSignal (.core 1)) (onCore [signalOf])).ctx 0).tokens[(7 : Fin 256)] = 1 := by decide +kernel

theorem meets_fenceWait : dispatches (onCore [waitOf 0]) 1 (isForm 0x60 1) = true ∧
    ((after (.fenceWait (.core 1)) (onCore [waitOf 0])).cc 0 1).main = [] := by decide +kernel

theorem meets_census : dispatches (onCore [censusOf]) 1 (fun m => m.op == 0x66) = true ∧
    (∀ g ∈ censusOf.regions, g.write = false) ∧ (onCore [censusOf]).tiers.moves = [] ∧ (onCore [censusOf]).tiers.deepWaits = [] ∧
    (after (.census (.core 1)) (onCore [censusOf])).tiers.deepWaits = [] ∧
    (onCore [censusOf]).queueIdle (.core 1) = true ∧ (after (.census (.core 1)) (onCore [censusOf])).scaleRec 0 9 = (onCore []).scaleRec 0 9 := by
  decide +kernel

theorem runsNumbered_onCore : RunsNumbered (onCore [nopOf]) ∧ RunsNumbered (onCore [hintOf]) ∧
    RunsNumbered (onCore [signalOf]) ∧ RunsNumbered (onCore [waitOf 0]) ∧ RunsNumbered (onCore [censusOf]) :=
  ⟨runsNumbered_of (by decide +kernel) (by decide +kernel) (by decide +kernel),
    runsNumbered_of (by decide +kernel) (by decide +kernel) (by decide +kernel),
    runsNumbered_of (by decide +kernel) (by decide +kernel) (by decide +kernel),
    runsNumbered_of (by decide +kernel) (by decide +kernel) (by decide +kernel),
    runsNumbered_of (by decide +kernel) (by decide +kernel) (by decide +kernel)⟩

/-- An ACQUIRE and a RELEASE of group 7, whose entry holds some references and status. -/
def groupState (cmd : Cmd) (refs status : Nat) : State :=
  { (onCore [cmd]).modCtx 0 (fun k => { k with
      almanac := some ⟨3 * 131072, [(7, putBytes (putBytes almImage 0x54 (leBytes 2 refs)) 0x58 (leBytes 4 status))]⟩ }) with
    tiers := placed.tiers }

def acquireOf : Cmd := work 0x61 (zeros 3 ++ leBytes 4 7 ++ zeros 56) []

def releaseOf : Cmd := work 0x62 (zeros 3 ++ leBytes 4 7 ++ zeros 56) []

theorem meets_acquire : (let s := groupState acquireOf 65534 0
    dispatches s 1 (fun m => m.op == 0x61) = true ∧ groupAt acquireOf.desc 4 = 7 ∧
      ((s.almEntry 0 7).map (fun e => (almFault e, almVersion e, almRefs e))) = some (false, 0, 65534) ∧
      fld acquireOf.desc 8 4 = 0 ∧
      ((after (.acquire (.core 1)) s).almEntry 0 7).map almRefs = some 65535) ∧
    (let s := groupState releaseOf 1 0
     dispatches s 1 (fun m => m.op == 0x62) = true ∧ groupAt releaseOf.desc 4 = 7 ∧ (s.almEntry 0 7).map almRefs = some 1 ∧
      ((after (.release (.core 1)) s).almEntry 0 7).map almRefs = some 0) := by decide +kernel

/-- A RELEASE of a counter at zero is reported with 0x0411, and the counter stays. -/
theorem meets_release_of_zero : RunsNumbered (groupState releaseOf 0 0) ∧ (groupState releaseOf 0 0).diesUp = true ∧
    (let s := groupState releaseOf 0 0
    let t := after (.release (.core 1)) s
    dispatches s 1 (fun m => m.op == 0x62) = true ∧ groupAt releaseOf.desc 4 = 7 ∧ (s.almEntry 0 7).map almRefs = some 0 ∧
      (t.almEntry 0 7).map almRefs = some 0 ∧ (t.ctx 0).formed.any (fun e => e.failed && e.reason == 0x0411) = true) :=
  ⟨runsNumbered_of (by decide +kernel) (by decide +kernel) (by decide +kernel), by decide +kernel, by decide +kernel⟩

theorem runsNumbered_groupState : RunsNumbered (groupState acquireOf 65534 0) ∧ RunsNumbered (groupState releaseOf 1 0) :=
  ⟨runsNumbered_of (by decide +kernel) (by decide +kernel) (by decide +kernel),
    runsNumbered_of (by decide +kernel) (by decide +kernel) (by decide +kernel)⟩

/-- A NOP runs on C1, or in the fabric or memory queue. -/
def runningOn (q : Nat) (count : Nat) : State :=
  let r := { runOf 3 nopOf with count := count }
  match q with
  | 0 => (onCore []).modCore 1 (fun k => { k with running := some r })
  | 1 => (onCore []).modCtx 0 (fun k => { k with fabricRun := [r] })
  | _ => (onCore []).modCtx 0 (fun k => { k with memoryRun := [r] })

theorem meets_commandComplete : (∀ q ∈ [0, 1, 2], (runningOn q 0).diesUp = true ∧ ((runningOn q 0).ctx 0).state = .active) ∧
    ((runningOn 0 0).core 1).running = some (runOf 3 nopOf) ∧ (runningOn 0 0).coreDone 1 (runOf 3 nopOf) = true ∧
    nopOf.op ≠ 0x30 ∧ (runOf 3 nopOf).busy = false ∧ (∀ q ∈ [1, 2], (runningOn q 0).landed (runOf 3 nopOf) = true) ∧
    (msgArgs nopOf).tag.getLsbD 31 = false ∧ ((runningOn 1 0).ctx 0).fabricRun[0]? = some (runOf 3 nopOf) ∧
    ((runningOn 2 0).ctx 0).memoryRun[0]? = some (runOf 3 nopOf) ∧ (runningOn 2 0).pinWaits nopOf = false ∧
    (runningOn 0 0).spanFor 0 1 false = none ∧
    ((after (.commandComplete (.core 1) 0 77) (runningOn 0 0)).cc 0 1).actual = 77 ∧
    ((after (.commandComplete (.memory 0) 0 77) (runningOn 2 0)).ctx 0).memoryRun = [] := by decide +kernel

/-- A NOP that reads slot 0 of the slot table of C1, which is EMPTY, and has waited 1 ms. -/
def starved : State :=
  let reader := { nopOf with regions := [⟨0, 1, 0, 1, 64, 64, false, false⟩] }
  (onCore [reader]).modCC 0 1 (fun k => { k with
    starve := 50000, table := ⟨0, 0, [⟨0, 1, false, 1, .empty, 0, 0, 0, 0, false⟩]⟩ })

theorem meets_starveTimeout : (starved.waiting (.core 1) 0).isSome = true ∧ starved.starving (.core 1) 0 = true ∧
    ((starved.cc 0 1).main.head?.map (starved.starveLimit 0)) = some 50000 ∧ starved.starveCount (.core 1) 0 false = 50000 ∧
    (starved.ctx 0).state = .active ∧ starved.spanFor 0 1 false = none ∧
    ((after (.starveTimeout (.core 1) 0) starved).ctx 0).formed.map (·.reason) = [0x0107] := by decide +kernel

/-- A head command that has waited 5,000,000 or more pilot cycles. -/
def waited (s : State) : State := s.modCC 0 1 (fun k => { k with wait := 50000000 })

theorem meets_fenceWaitTimeout : (let s := waited (onCore [waitOf 3])
    s.waiting (.core 1) 0 = some (some 1, false, waitOf 3, 50000000) ∧ isForm 0x60 1 (waitOf 3) = true ∧
      s.fenceHolds 0 (waitOf 3).desc = false ∧ waitLimit (fld (waitOf 3).desc 8 2) 1000 ≤ 50000000 ∧
      ((after (.fenceWaitTimeout (.core 1) 0) s).ctx 0).formed.map (·.reason) = [0x0221]) := by decide +kernel

theorem meets_acquireTimeout : (let s := waited (groupState acquireOf 0 1)
    s.waiting (.core 1) 0 = some (some 1, false, acquireOf, 50000000) ∧ acquireOf.op = 0x61 ∧
      s.acquireReady 0 acquireOf.desc = false ∧ waitLimit (fld acquireOf.desc 2 2) 100 ≤ 50000000 ∧
      ((after (.acquireTimeout (.core 1) 0) s).ctx 0).formed.map (·.reason) = [0x0414]) := by decide +kernel

/-- An UPDATE of group 7 with FIRST set. -/
def updateOf : Cmd := work 0x30 (leBytes 1 1 ++ zeros 6 ++ leBytes 4 7 ++ zeros 52) []

theorem meets_updateWaitTimeout : (let s := waited (groupState updateOf 1 0)
    s.waiting (.core 1) 0 = some (some 1, false, updateOf, 50000000) ∧ updateOf.op = 0x30 ∧
      s.updateReady 0 1 updateOf.desc = false ∧ waitLimit (fld updateOf.desc 0x24 2) 100 ≤ 50000000 ∧
      ((after (.updateWaitTimeout 1 0) s).ctx 0).formed.map (·.reason) = [0x0412]) := by decide +kernel

theorem meets_overrunTimeout : (let s := (onCore []).modCC 0 1 (fun k => { k with
      table := ⟨0, 1, [⟨0, 1, false, 1, .full, 0, 0, 0, 179999950000, false⟩]⟩ })
    (s.cc 0 1).table.slots[0]? = some ⟨0, 1, false, 1, .full, 0, 0, 0, 179999950000, false⟩ ∧ (s.ctx 0).state = .active ∧
      (if (s.cc 0 1).table.overrunMs = 0 then 100 else (s.cc 0 1).table.overrunMs) * 50000 ≤ s.pilot - 179999950000 ∧
      ((after (.overrunTimeout 0 1 0) s).ctx 0).formed.map (·.reason) = [0x0108]) := by decide +kernel

theorem meets_commandWatchdog : (∀ q ∈ [0, 1, 2], (runningOn q 400000).watchdogLimit (.core 1) ≤ 400000 ∧
      (runningOn q 400000).watchdogLimit (.fabric 0) ≤ 400000) ∧
    ((runningOn 0 400000).core 1).running = some { runOf 3 nopOf with count := 400000 } ∧
    ((runningOn 1 400000).ctx 0).fabricRun[0]? = some { runOf 3 nopOf with count := 400000 } ∧
    ((runningOn 2 400000).ctx 0).memoryRun[0]? = some { runOf 3 nopOf with count := 400000 } ∧
    (runOf 3 nopOf).out.failed = false ∧
    ((after (.commandWatchdog (.core 1) 0) (runningOn 0 400000)).core 1).running.map (·.out.reason) = some 0x0223 := by
  decide +kernel

/-- A write of block 31 of page 3 has waited 1 ms for granules; its directory is listed; no command writes it. -/
def deepWaiting : State := (onCore []).modTiers (fun t => { t with
  deepWaits := [⟨3, 31, 0, [], [], 0, 179999950000⟩], deepDir := [(3, List.replicate 32 ⟨0, 0⟩)] })

theorem meets_deepSpaceTimeout : deepWaiting.tiers.deepWaits[0]? = some ⟨3, 31, 0, [], [], 0, 179999950000⟩ ∧
    50000 ≤ deepWaiting.pilot - 179999950000 ∧ (deepWaiting.deepDirOf 3).length = 32 ∧ deepWaiting.writersOf 0 3 31 = [] ∧
    (after (.deepSpaceTimeout 0) deepWaiting).faults.detected.map (·.reason) = [0x031B] := by decide +kernel

/-! ## Replay spans (16) -/

def spanCmd (op : Nat) : Cmd := work op (leBytes 1 0 ++ leBytes 2 77 ++ zeros 60) []

/-- An open span of context 0, with one finished NOP. -/
def spanOf (replay due : Bool) (count : Nat) : Span :=
  { x := 0, eval := false, id := 77, opener := spanCmd 0x63, count := count, cmds := [nopOf], done := [(nopOf, Done.ok, 5)]
    contribs := [], claims := [], made := [], writes := [], inputs := [], replay := replay, usedReplay := replay
    replayDue := due, faults := 0 }

def inSpanOf (sp : Span) (cmds : List Cmd) : State := (onCore cmds).modCore 1 (fun k => { k with span := some sp })

theorem meets_spanOpen : (onCore [spanCmd 0x63]).diesUp = true ∧ ((onCore [spanCmd 0x63]).core 1).span = none ∧
    dispatches (onCore [spanCmd 0x63]) 1 (fun m => m.op == 0x63) = true ∧
    ((after (.spanOpen 1) (onCore [spanCmd 0x63])).core 1).span.map (·.id) = some 77 := by decide +kernel

theorem meets_spanClose : (let s := inSpanOf (spanOf false false 0) [spanCmd 0x64]
    dispatches s 1 (fun m => m.op == 0x64) = true ∧
      ((s.dispatchCore 1 (fun m => m.op == 0x64)).bind (fun q => (q.1.core 1).span)).map (·.faults) = some 0 ∧
      ((after (.spanClose 1) s).ctx 0).formed.length = 2) := by decide +kernel

theorem meets_spanReplay : (let s := inSpanOf (spanOf false true 0) []
    (s.core 1).running = none ∧ (s.core 1).span = some (spanOf false true 0) ∧ s.fastUp = true ∧
      ((after (.spanReplay 1) s).cc 0 1).replays = 1) := by decide +kernel

/-- A captured row whose replay has passed or not, with one lane that differs or none. -/
def capture (differs passes : Bool) : Capture :=
  { place := ⟨0, 0, 0, 0⟩, k := 1, lanes := [1, 2], w := 3, mag := 3, groups := []
    replayed := some (if differs then [1, 3] else [1, 2], passes) }

/-- A replay with a captured row on the first array of C1. -/
def captured (k : Capture) (fresh : Bool) : State :=
  (inSpanOf (spanOf true false 400000) []).modArr (arrayOf 1 0) (fun a => { a with captures := [k], fresh := fresh })

theorem meets_replayDecision : (∀ k ∈ [(capture true true, false, 0), (capture false false, false, 0),
      (capture true false, false, 0x0606), (capture true true, true, 0x0607), (capture false false, false, 0x0605)],
    (let s := captured k.1 k.2.1
     (s.core 1).running = none ∧ (s.core 1).span = some (spanOf true false 400000) ∧ (s.ctx 0).state = .active ∧
       (s.arr (arrayOf 1 0)).captures ++ (s.arr (arrayOf 1 1)).captures = [k.1] ∧ k.1.replayed.isSome = true ∧
       (∀ b, (s.arr (arrayOf 1 b)).fresh = (k.2.1 && b == 0)))) ∧
    (capture true true).outcome false ≠ .suspect ∧ (capture true true).outcome false ≠ .unresolved ∧
    (capture false false).outcome false = .witnessFault ∧ (capture true false).outcome false = .suspect ∧
    (capture false false).outcome true = .unresolved ∧ selfTestPasses [⟨0, 511, 0, 1⟩] 0 = false ∧
    selfTestPasses [⟨0, 511, 0, 1⟩] 1 = true ∧ selfTestPasses [⟨1, 0, 0, 0⟩] 1 = true ∧
    ((after (.replayDecision 1 [⟨0, 5, 8, 0⟩]) (captured (capture false false) false)).core 1).span.isSome = true ∧
    ((after (.replayDecision 1 []) (captured (capture false false) false)).core 1).span = none := by decide +kernel

theorem meets_spanTimeout : (let s := captured (capture true true) false
    400000 ≤ (spanOf true false 400000).count ∧
      ((after (.spanTimeout 1) s).ctx 0).formed.map (·.reason) = [0x0608]) := by decide +kernel

/-! ## Arrays (04) -/

/-- An MM of 16 rows, 4,128 columns and K = 32. -/
def mmOf : Cmd := work 0x10 (zeros 17 ++ leBytes 2 16 ++ leBytes 4 16 ++ leBytes 4 4128 ++ leBytes 4 32 ++ zeros 32) [tens 0 0 0 16 32]

/-- An MM runs on C1 with another at the head, and the arrays of C1 stand in some way. -/
def arraysOf (f : ArrayS → ArrayS) : State :=
  (((onCore [mmOf]).modCore 1 (fun k => { k with running := some (runOf 3 mmOf) })).modArr (arrayOf 1 0) f).modArr (arrayOf 1 1) f

theorem meets_lookahead : (arraysOf id).diesUp = true ∧ (arraysOf id).lookaheadCmd 1 = some mmOf ∧
    (((after (.lookaheadLoad 1) (arraysOf id)).arr (arrayOf 1 0)).banks[(1 : Fin 2)]).state = .loading := by decide +kernel

theorem meets_banks : (∀ st ∈ [BankState.loading, .ready], (let s := arraysOf (fun a => { a with
      banks := vmod a.banks 1 (fun b => { b with state := st }) })
    1 ≠ (s.arr 2).activeBank ∧ (s.arr 2).banks[(1 : Fin 2)].state = st ∧ coreOfArray 2 = 1 ∧
      s.aheadCmd 1 = some (mmOf, false) ∧ (s.nextTile (s.core 1).current 2 mmOf (s.arr 2).ahead).isSome = true ∧
      (s.arr 2).ahead = 0 ∧ (s.core 1).ift.running = false ∧ s.power.rampReqs = [] ∧
      (st = .ready → ((after (.bankSwap 2) s).arr 2).activeBank = 1))) := by decide +kernel

def accRow : AccRow := ⟨0, 0, 3, 32, [1, 2], false, 0, 0, []⟩

theorem meets_rowDrain : (let s := arraysOf (fun a => { a with rows := [accRow] })
    (s.core (coreOfArray 2)).running = some (runOf 3 mmOf) ∧ (s.arr 2).rows = [accRow] ∧
      ((mmArgs mmOf).cols (accRow.acc / (mmArgs mmOf).groups) 1).isEmpty = false ∧ (s.core 1).epi = [] ∧
      ((after (.rowDrain 2 []) s).core 1).epi.map (·.row) = [3]) := by decide +kernel

/-- C1 owes a repair of array 2, and of the array itself. -/
def repairing : State := up.modCore 1 (fun k => { k with remaps := [(2, 4223)], degrades := [2], leaving := true })

theorem meets_repairs : coreOfArray 2 = 1 ∧ repairing.repairTime 1 = true ∧
    (repairing.core 1).remaps.find? (fun p => p.1 == 2) = some (2, 4223) ∧
    bit (byteAt (repairing.arr 2).map (0x10 + 4223 / 33)) 7 = false ∧
    bit (byteAt (repairing.arr 2).map (0x10 + 4223 / 33)) 6 = false ∧ (repairing.arr 2).map.length = 144 ∧
    (repairing.ctx 0).state = .active ∧ (2 : Fin 8) ∈ (repairing.core 1).degrades ∧ (repairing.arr 3).degraded = false ∧
    ((after (.arrayDegrade 2) repairing).core 1).singleArray = true ∧
    (let s := repairing.modArr 3 (fun a => { a with degraded := true })
     (∀ b, coreOfArray b = 1 → b ≠ 2 → (s.arr b).degraded = true) ∧
       ((after (.arrayDegrade 2) s).core 1).leaving = true) := by decide +kernel

theorem meets_coreOutOfService : (let s := (onCore [nopOf]).modCore 1 (fun k => { k with leaving := true })
    (s.core 1).leaving = true ∧ (s.core 1).span = none ∧ (s.ctx 0).state = .active ∧
      ((after (.coreOutOfService 1) s).ctx 0).formed.map (·.reason) = [0x0224]) := by decide +kernel

theorem meets_arrayCold : (let s := up.modArr 5 (fun a => { a with cold := false, lastIssue := 179999998976 })
    (s.arr 5).cold = false ∧ 5 ∉ (s.core 2).issuing ∧ (s.core 2).ift.running = false ∧ 1024 ≤ s.arrayTime - (s.arr 5).lastIssue ∧
      ((after (.arrayCold 5) s).arr 5).cold = true) := by decide +kernel

/-! ## Near memory and tiers (10, 11) -/

/-- S4 with sector 7, poisoned or not. -/
def sectorOf (poison : List Nat) : State := up.modStack 4 (fun t => { t with
  mem := Mem.write [] 448 (List.replicate 64 9#8), poison := poison })

def scrubbed (poison : List Nat) (err : Pattern) : Decoded :=
  decodeSector (((sectorOf poison).stack 4).erased (64 * 7)) (err ++ if ((sectorOf poison).stack 4).poison.contains 7 then maskPattern else [])

theorem meets_scrubRead : (∀ poison ∈ [[], [7]], (sectorOf poison).diesUp = true ∧
      (sectorOf poison).blks[ix 36 (18 + 4)].enabled = true ∧ 64 * 7 < 0x1200000000 ∧
      ((sectorOf poison).stack 4).dead.contains (pseudoChannel (64 * 7)) = false) ∧
    scrubbed [] [] = .clean ∧ 7 ∉ ((sectorOf []).stack 4).poison ∧ scrubbed [7] [] = .poisoned ∧
    scrubbed [] [(5, 0x40)] = .corrected [(5, 0x40)] := by decide +kernel

/-- One lane of the pseudo-channel of sector 7 is in erasure mode, and three other lanes are wrong. -/
theorem meets_scrubRead_uncorrectable : (let s := (sectorOf []).modStack 4 (fun t => { t with map := t.map.set 0x16 0x89#8 })
    (s.stack 4).erased (64 * 7) = [9] ∧ 7 ∉ (s.stack 4).poison ∧ inReserved 4 (64 * 7) = false ∧
      decodeSector ((s.stack 4).erased (64 * 7)) [(0, 1), (1, 1), (2, 1)] = .uncorrectable) := by decide +kernel

/-- A sector of a pseudo-channel with a third failed lane is uncorrectable. -/
theorem meets_scrubRead_dead : (let s := (sectorOf []).modStack 4 (fun t => { t with dead := [pseudoChannel (64 * 7)] })
    (s.stack 4).dead.contains (pseudoChannel (64 * 7)) = true ∧ inReserved 4 (64 * 7) = false ∧
      ((after (.scrubRead 4 7 []) s).stack 4).poison = [7]) := by decide +kernel

/-- The write-combining buffer of S4: n entries, the mark at 32. -/
def buffered (n : Nat) : State := up.modStack 4 (fun t => { t with
  ctrl := { t.ctrl with wcbHigh := 1 }, wcb := (List.range n).map (fun i => ⟨i, [(0, 1#8)], false, 256⟩) })

theorem meets_wcbFlush : (buffered 32).diesUp = true ∧ ((buffered 32).stack 4).tidy ∧
    ((buffered 32).stack 4).wcb[3]? = some ⟨3, [(0, 1#8)], false, 256⟩ ∧ wcbAge ((buffered 32).stack 4).ctrl.wcbAge ≤ 256 ∧
    1 = ((buffered 32).stack 4).wcb.length + 1 - 32 * ((buffered 32).stack 4).ctrl.high ∧
    ((after (.wcbHighFlush 4) (buffered 32)).stack 4).wcb.length = 31 := by decide +kernel

/-- Page 3 of context 0 in frame 2 of S4 with an entry and a move, and commands of the memory queue. -/
def paged (cmds : List Cmd) (e : HomeEntry) (moves : List Move) (reqs : List MoveReq) : State :=
  (({ up with hub := { up.hub with nextRun := 4 } }).modCtx 0 (fun k => { k with memory := cmds, nearQ := 10, deepQ := 1 })).modTiers
    (fun t => { t with map := [(3, e)], moves := moves, reqs := reqs })

def entry : HomeEntry := ⟨0, .placed 4 2, none, false, 0, 4, 0, 0⟩

/-- A memory command: operation, the bytes after it. -/
def memCmd (op : Nat) (rest : List Byte) : Cmd := cmdOf 5 (leBytes 1 op ++ rest)

/-- A MIGRATE of page 3 to the deep tier. -/
def migrateOf : Cmd := memCmd 0x50 (leBytes 1 2 ++ zeros 2 ++ leBytes 4 3 ++ leBytes 4 1 ++ zeros 52)

def dispatchesMem (s : State) (isOp : Cmd → Bool) : Bool := (s.dispatchMemory 0 isOp).isSome

theorem meets_migrate : ∀ quota ∈ [0, 1], (let s := (paged [migrateOf] entry [] []).modCtx 0 (fun k => { k with deepQ := quota })
    s.diesUp = true ∧ dispatchesMem s (fun m => m.op == 0x50) = true ∧ bits (byteAt migrateOf.desc 1) 1 0 = 2 ∧
      pageRange (fld migrateOf.desc 4 4) (fld migrateOf.desc 8 4) = [3] ∧ s.quotaNeed [3] 2 0 = 1 ∧ s.deepUse 0 = 0 ∧
      (s.ctx 0).deepQ = quota ∧ s.tiers.migrates = [] ∧
      (after (.migrate 0) s).tiers.reqs.length = quota) := by decide +kernel

theorem runsNumbered_paged : RunsNumbered (paged [migrateOf] entry [] []) :=
  runsNumbered_of (by decide +kernel) (by decide +kernel) (by decide +kernel)

theorem meets_pageMove : ∀ kind ∈ [0, 1], (let r : MoveReq := ⟨3, 0, kind, 7, none, 0⟩
    let s := paged [] entry [] [r]
    s.fastUp = true ∧ s.nextReq 0 = some r ∧ s.homeOf 3 = some entry ∧ s.moveOf 3 = none ∧ entry.home.isAt kind 7 = false ∧
      entry.pinned = false ∧ (s.allocHome kind (ix 12 7)).isSome = true ∧
      (∀ n, (s.stack n).dead = [] ∧ (s.stack n).mem.wf = true)) := by decide +kernel

/-- A move of page 3 to frame 5 of S7. -/
def moveOf3 (copied aborted : Bool) (since : Nat) : Move := ⟨3, 0, 0, 7, since, copied, aborted, [], [], false⟩

def movingEntry : HomeEntry := { entry with dest := some (.placed 7 5) }

theorem meets_pageSwitch : (let m := moveOf3 true false 179999999900
    let s := paged [] movingEntry [m] []
    s.moveOf 3 = some m ∧ s.homeOf 3 = some movingEntry ∧ s.fastUp = true ∧ s.pilot - m.since ≤ 100 ∧
      ((after (.pageSwitch 3) s).homeOf 3).map (·.home) = some (.placed 7 5)) := by decide +kernel

theorem meets_moveTimeout : ∀ n ∈ [6, 7], (let m := moveOf3 true false 179999999900
    let e := { movingEntry with aborts := n }
    let s := paged [] e [m] []
    s.moveOf 3 = some m ∧ s.homeOf 3 = some e ∧ m.aborted = false ∧ 100 ≤ s.pilot - m.since ∧
      ((after (.moveTimeout 3) s).moveOf 3).isSome = decide (n = 6)) := by decide +kernel

theorem meets_moveRetry : ∀ pinned ∈ [true, false], (let m := moveOf3 false true 179999999000
    let e := { entry with pinned := pinned }
    let s := paged [] e [m] []
    s.moveOf 3 = some m ∧ s.homeOf 3 = some e ∧ m.aborted = true ∧ s.fastUp = true ∧ s.displaced 3 m = false ∧ m.runs = [] ∧
      s.canBegin ⟨3, m.x, m.kind, m.stack, m.runs.head?, e.aborts⟩ e = true ∧ m.kind < 2 ∧ (s.allocHome m.kind (ix 12 m.stack)).isSome = true) := by decide +kernel

def pinOf (op : Nat) : Cmd := memCmd op (zeros 3 ++ leBytes 4 3 ++ leBytes 4 1 ++ zeros 52)

theorem meets_pin : dispatchesMem (paged [pinOf 0x52] entry [] []) (fun m => m.op == 0x52) = true ∧
    dispatchesMem (paged [pinOf 0x53] entry [] []) (fun m => m.op == 0x53) = true ∧
    ((after (.pin 0) (paged [pinOf 0x52] entry [] [])).homeOf 3).map (·.pinned) = some true := by decide +kernel

/-- A LAYER_PLAN of one position whose table lies at the start of page 3, and names page 3 or nothing. -/
def planOf (op : Nat) : Cmd := memCmd 0x51 (leBytes 1 op ++ leBytes 2 1 ++ zeros 4 ++ leBytes 8 (3 * 131072) ++ zeros 48)

def planned (op ranges : Nat) : State := (paged [planOf op] entry [] []).modStack 4 (fun t => { t with
  mem := Mem.write [] 262144 (leBytes 4 1 ++ leBytes 1 ranges ++ zeros 3 ++ leBytes 4 3 ++ leBytes 4 1) })

theorem meets_layerPlanStart : ∀ ranges ∈ [0, 1], (let s := planned 0 ranges
    let rows := chunks 64 ((s.uread (3 * 131072) 64).map (·.b))
    dispatchesMem s (isForm 0x51 0) = true ∧ fld (planOf 0).desc 2 2 = 1 ∧ fld (planOf 0).desc 8 8 = 3 * 131072 ∧
      rows.all (s.planPosOk 0) = decide (ranges = 1) ∧
      (ranges = 1 → 1 ≤ s.planWindow 0 ⟨rows.map planPos, 0, 0, false⟩ 1)) := by decide +kernel

/-- With room for no window, and none for the two pages of the table, the start fails with 0x0319. -/
theorem meets_layerPlanStart_room : (let s := (planned 0 1).modCtx 0 (fun k => { k with nearQ := 0 })
    let rows := chunks 64 ((s.uread (3 * 131072) 64).map (·.b))
    rows.all (s.planPosOk 0) = true ∧ s.planWindow 0 ⟨rows.map planPos, 0, 0, false⟩ 1 = 0 ∧
      ((after (.layerPlanStart 0) s).ctx 0).formed.map (·.reason) = [0x0319]) := by decide +kernel

theorem meets_layerPlanStop : (let s := (planned 1 1).modCtx 0 (fun k => { k with plan := some ⟨[⟨1, [(3, 1)]⟩], 1, 0, false⟩ })
    dispatchesMem s (isForm 0x51 1) = true ∧ ((after (.layerPlanStop 0) s).ctx 0).plan = none) := by decide +kernel

/-- Two blocks of page 16, on channels 0 and 0 with a hole between them. -/
def holed : State := (paged [] entry [] []).modTiers (fun t => { t with
  deepDir := [(16, [⟨5, 4⟩] ++ List.replicate 15 ⟨0, 0⟩ ++ [⟨20, 3⟩] ++ List.replicate 15 ⟨0, 0⟩)] })

theorem meets_compaction : holed.tiers.deepWaits = [] ∧ (holed.tiers.deepDir.map (·.1)).Nodup ∧
    (holed.channelBlocks 0).map (fun b => (b.1, b.2.1)) = [(16, 0), (16, 16)] ∧
    (([(16, 0), (16, 16)] : List (Nat × Nat))).Nodup ∧
    ((after (.compaction 0) holed).deepDirOf 16)[16]? = some ⟨4, 3⟩ := by decide +kernel

/-! ## The whole machine -/

theorem meets_settingsStayLegal : State.reset.settings.legal = true ∧ up.settings.legal = true := by decide +kernel

theorem test_step_of_idle : (step { up with pending := [.nop (.core 1)] }) = exec (.nop (.core 1)) { up with pending := [] } := rfl

/-! ## Ill-formed commands: one for each check -/

/-- A well-formed frame. -/
def frame0 : Frame := frameOf 1 0 []

/-- A frame with a field outside its width, for each field. -/
def badFrames : List Frame :=
  [{ frame0 with version := 16 }, { frame0 with kind := 16 }, { frame0 with src := 2 ^ 24 }, { frame0 with dst := 2 ^ 24 },
    { frame0 with job := 65536 }, { frame0 with channel := 256 }, { frame0 with stripe := 256 }]

/-- The commands that carry a frame. -/
def framed (f : Frame) : List Instr :=
  [.dataFrame 0 f, .ackFrame 0 f, .rtsFrame 0 f, .ctsFrame 0 f, .shardRequest 0 f, .hello 0 f, .welcome 0 f, .groupReady 0 f,
    .installReady 0 f, .heartbeat 0 f, .takeCharge 0 f, .rosterUpdate 0 f, .takeover 0 f none, .takeoverDone 0 f, .ckptHeld 0 f,
    .faultReport 0 f, .slowReport 0 f, .capSet 0 f, .notice 0 f, .rxDiscard 0 (some f)]

/-- The commands that carry an SPDM request. -/
def asked (f : Frame) : List Instr :=
  [.getVersion (.bxt 0 f), .getCapabilities (.bxt 0 f), .negotiateAlgorithms (.bxt 0 f), .getDigests (.bxt 0 f),
    .getCertificate (.bxt 0 f), .challenge (.bxt 0 f), .getMeasurements (.bxt 0 f)]

theorem test_wf_frame : frame0.wf = true := by decide

theorem test_wf_rejects_wide_frame_fields : badFrames.all (fun f => !f.wf) = true := by decide

theorem test_wf_rejects_long_payload (f : Frame) (n : Nat) (h : 65536 ≤ n) :
    Frame.wf { f with payload := List.replicate n 0 } = false := by
  simp [Frame.wf]; omega

theorem test_wf_rejects_commands_with_a_bad_frame :
    (framed { frame0 with kind := 16 } ++ asked { frame0 with kind := 16 }).all (fun c => !c.wf) = true := by decide

theorem test_wf_rejects_slot_writes :
    [Instr.slotWrite 0 0 0 [], .slotWrite 0 0 0x11FFF [0, 0]].all (fun c => !c.wf) = true := by decide

/-- An upset outside its ranges, for each of them. -/
def badUpsets : List Upset := [⟨0, 2, 0, 0, 1⟩, ⟨0, 0, 0, 4096, 1⟩, ⟨0, 0, 0, 0, 0⟩]

theorem test_wf_rejects_upsets :
    badUpsets.all (fun u => !(Instr.mm 0 false [u]).wf && !(Instr.mmb 0 [u]).wf && !(Instr.attend 0 [u]).wf &&
      !(Instr.attendB 0 [u]).wf) = true := by decide

theorem test_wf_rejects_positions :
    [Instr.commandComplete (.core 0) 16 0, .commandWatchdog (.core 0) 16, .peerWaitTimeout 0 16, .rtsRetry 0 16,
      .overrunTimeout 0 0 64, .rowDrain 0 [(4096, 1)]].all (fun c => !c.wf) = true := by decide

theorem test_wf_rejects_pages :
    [Instr.pageSwitch 0x1000000, .moveTimeout 0x1000000, .moveRetry 0x1000000].all (fun c => !c.wf) = true := by decide

theorem test_wf_rejects_sectors :
    [Instr.scrubRead 0 0x48000000 [], .scrubRead 0 0 [(36, 1)], .scrubRead 0 0 [(1, 1), (1, 2)],
      .wcbAgeFlush 0 0x48000000].all (fun c => !c.wf) = true := by decide

theorem test_wf_rejects_fault_places :
    [EnvFault.unified 0x20000000000 [] none, .unified 0 [(1, 1), (1, 2)] none, .unified 0 [(132, 1)] none, .reserved 0x80000000 [], .reserved 0 [(36, 1)], .scratchpad 0 196608 false,
      .parityUnified 0x20000000000 0 ⟨1, false⟩, .parityScratchpad 0 196608 0 ⟨1, false⟩, .driftStore 0x1000000, .ringEntry 4096].all
      (fun f => !(Instr.faultRecord (some f)).wf) = true := by decide

theorem test_wf_rejects_timers :
    [Instr.ackTimer 0x1000000 0 0, .ackTimer 0 65536 0, .ackTimer 0 0 4, .retxTimeout 0x1000000 0 0 0, .retxTimeout 0 65536 0 0,
      .retxTimeout 0 0 4 0].all (fun c => !c.wf) = true := by decide

theorem test_wf_rejects_nodes :
    [Instr.memberFail 0x1000000, .memberAttestation 0x1000000 true].all (fun c => !c.wf) = true := by decide

theorem test_wf_rejects_measurements :
    [Instr.barometerWindow [[0]], .temperatureRead 0 [], .temperatureRead 0 [0, 0, 0, 0, 0]].all (fun c => !c.wf) = true := by
  decide

theorem test_wf_rejects_stage_ends :
    [StageEnd.verified 65536 0 true true [], .verified 0 65536 true true [], .crystal [0] 0, .trained [(0, 0, none, 36)] 0,
      .selfTest [(0, 4224, false)]].all (fun o => !(Instr.startStage o).wf) = true := by decide

theorem test_wf_rejects_register_ranges :
    [Instr.registerWrite 0 [], .registerWrite 0x3FFFFFF [0, 0], .counterLowHalfRead 0 0x3FFFFFF 2,
      .counterLowHalfRead 1 0xFFFFF 2].all (fun c => !c.wf) = true := by decide

theorem test_wf_rejects_bus_operands :
    [Instr.i3cPrivateRead 0, .i3cAddressAssignment none 128, .iftEnd 0 [.site 0 4224 false]].all (fun c => !c.wf) = true := by
  decide

end Sys2Proof.Tests
end

section
/-! PROOFS. The commands of the queues that end at their dispatch, and COMMAND_COMPLETE (09, 13): the frames of their bookkeeping, how a
command is dispatched, what it does, how it ends, and the statement about them. -/

namespace Sys2Proof.Machine

open Sys2Proof

/-! # Frames of the queues' bookkeeping: what entries, claims and the scheduler leave of a state. -/

/-! ## The frames -/

/-- Bookkeeping of context x: entries, list accounts, slot states and step boundaries, with the poison of a slot's rows. -/
structure Tidy (x : Fin 16) (s t : State) : Prop where
  rest : t = { s with hub := { s.hub with ctxs := t.hub.ctxs }, feeds := t.feeds }
  others : ∀ y, y ≠ x → t.ctx y = s.ctx y
  own : t.ctx x = { s.ctx x with cores := (t.ctx x).cores, formed := (t.ctx x).formed, lists := (t.ctx x).lists }
  formed : (s.ctx x).formed <+: (t.ctx x).formed
  cc : ∀ d, t.cc x d = { s.cc x d with
    table := (t.cc x d).table, boundaries := (t.cc x d).boundaries, admitted := (t.cc x d).admitted }

/-- The scheduler's work: slices, debts and skips of contexts, the current context of cores, and look-ahead loads. -/
structure Slices (s t : State) : Prop where
  rest : t = { s with hub := { s.hub with ctxs := t.hub.ctxs }, cores := t.cores, arrays := t.arrays }
  ctx : ∀ y, t.ctx y = { s.ctx y with cores := (t.ctx y).cores }
  cc : ∀ y d, t.cc y d = { s.cc y d with
    remaining := (t.cc y d).remaining, debt := (t.cc y d).debt, skips := (t.cc y d).skips }
  core : ∀ d, t.core d = { s.core d with current := (t.core d).current }

/-- Nothing that is queued, runs or is counted changes: contexts keep all but entries, list accounts, records, groups, tokens, hints
and what bookkeeping and the scheduler change. -/
structure Calm (s t : State) : Prop where
  ctx : ∀ y, t.ctx y = { s.ctx y with
    cores := (t.ctx y).cores, formed := (t.ctx y).formed, lists := (t.ctx y).lists, scales := (t.ctx y).scales
    almanac := (t.ctx y).almanac, tokens := (t.ctx y).tokens }
  formed : ∀ y, (s.ctx y).formed <+: (t.ctx y).formed
  cc : ∀ y d, t.cc y d = { s.cc y d with
    table := (t.cc y d).table, boundaries := (t.cc y d).boundaries, admitted := (t.cc y d).admitted
    remaining := (t.cc y d).remaining, debt := (t.cc y d).debt, skips := (t.cc y d).skips, hint := (t.cc y d).hint }
  core : ∀ d, t.core d = { s.core d with current := (t.core d).current }

/-- A write of memory: of the contexts only entries change, and every move keeps its owner. -/
structure Written (s t : State) : Prop where
  cores : t.cores = s.cores
  ctx : ∀ y, t.ctx y = { s.ctx y with formed := (t.ctx y).formed }
  formed : ∀ y, (s.ctx y).formed <+: (t.ctx y).formed
  owners : t.tiers.moves.map (·.x) = s.tiers.moves.map (·.x)

/-- What taking a command of context x out of its queue and ending it leave: memories, tiers and the data of other contexts. -/
structure QueueFrame (x : Fin 16) (s t : State) : Prop where
  rest : t = { s with hub := { s.hub with ctxs := t.hub.ctxs }, cores := t.cores, arrays := t.arrays, feeds := t.feeds }
  others : ∀ y, y ≠ x → t.ctx y = { s.ctx y with cores := (t.ctx y).cores }

/-- With it, tokens, groups, records and hints of x. -/
structure Chores (x : Fin 16) (s t : State) : Prop extends QueueFrame x s t where
  state : (t.ctx x).state = (s.ctx x).state
  tokens : (t.ctx x).tokens = (s.ctx x).tokens
  almanac : (t.ctx x).almanac = (s.ctx x).almanac
  scales : (t.ctx x).scales = (s.ctx x).scales
  hint : ∀ d, (t.cc x d).hint = (s.cc x d).hint

/-! ## They compose -/

theorem Tidy.refl (x : Fin 16) (s : State) : Tidy x s s :=
  ⟨rfl, fun _ _ => rfl, rfl, List.prefix_rfl, fun _ => rfl⟩

theorem Tidy.trans {x : Fin 16} {s t u : State} (h : Tidy x s t) (k : Tidy x t u) : Tidy x s u := by
  obtain ⟨h1, h2, h3, h4, h5⟩ := h
  obtain ⟨k1, k2, k3, k4, k5⟩ := k
  refine ⟨?_, fun y hy => (k2 y hy).trans (h2 y hy), ?_, h4.trans k4, fun d => ?_⟩
  · rw [h1] at k1; exact k1
  · rw [h3] at k3; exact k3
  · have k := k5 d
    rw [h5 d] at k; exact k

theorem Slices.refl (s : State) : Slices s s := ⟨rfl, fun _ => rfl, fun _ _ => rfl, fun _ => rfl⟩

theorem Slices.trans {s t u : State} (h : Slices s t) (k : Slices t u) : Slices s u := by
  obtain ⟨h1, h2, h3, h4⟩ := h
  obtain ⟨k1, k2, k3, k4⟩ := k
  refine ⟨?_, fun y => ?_, fun y d => ?_, fun d => ?_⟩
  · rw [h1] at k1; exact k1
  · have k := k2 y
    rw [h2 y] at k; exact k
  · have k := k3 y d
    rw [h3 y d] at k; exact k
  · have k := k4 d
    rw [h4 d] at k; exact k

theorem Calm.refl (s : State) : Calm s s := ⟨fun _ => rfl, fun _ => List.prefix_rfl, fun _ _ => rfl, fun _ => rfl⟩

theorem Calm.trans {s t u : State} (h : Calm s t) (k : Calm t u) : Calm s u := by
  obtain ⟨h1, h2, h3, h4⟩ := h
  obtain ⟨k1, k2, k3, k4⟩ := k
  refine ⟨fun y => ?_, fun y => (h2 y).trans (k2 y), fun y d => ?_, fun d => ?_⟩
  · have k := k1 y
    rw [h1 y] at k; exact k
  · have k := k3 y d
    rw [h3 y d] at k; exact k
  · have k := k4 d
    rw [h4 d] at k; exact k

theorem Written.refl (s : State) : Written s s := ⟨rfl, fun _ => rfl, fun _ => List.prefix_rfl, rfl⟩

theorem Written.trans {s t u : State} (h : Written s t) (k : Written t u) : Written s u := by
  obtain ⟨h1, h2, h3, h4⟩ := h
  obtain ⟨k1, k2, k3, k4⟩ := k
  refine ⟨k1.trans h1, fun y => ?_, fun y => (h3 y).trans (k3 y), k4.trans h4⟩
  have k := k2 y
  rw [h2 y] at k; exact k

theorem QueueFrame.trans {x : Fin 16} {s t u : State} (h : QueueFrame x s t) (k : QueueFrame x t u) : QueueFrame x s u := by
  obtain ⟨h1, h2⟩ := h
  obtain ⟨k1, k2⟩ := k
  refine ⟨?_, fun y hy => ?_⟩
  · rw [h1] at k1; exact k1
  · have k := k2 y hy
    rw [h2 y hy] at k; exact k

theorem Chores.trans {x : Fin 16} {s t u : State} (h : Chores x s t) (k : Chores x t u) : Chores x s u :=
  ⟨h.toQueueFrame.trans k.toQueueFrame, k.state.trans h.state, k.tokens.trans h.tokens, k.almanac.trans h.almanac,
    k.scales.trans h.scales, fun d => (k.hint d).trans (h.hint d)⟩

/-- A fold whose every step keeps to a frame keeps to it. -/
theorem frame_foldl {α : Type} {R : State → State → Prop} (hr : ∀ s, R s s) (ht : ∀ {s t u}, R s t → R t u → R s u)
    (f : State → α → State) (l : List α) (h : ∀ s, ∀ a ∈ l, R s (f s a)) (s : State) : R s (l.foldl f s) := by
  induction l generalizing s with
  | nil => exact hr s
  | cons a l ih =>
    exact ht (h s a List.mem_cons_self) (ih (fun s b hb => h s b (List.mem_cons_of_mem _ hb)) (f s a))

/-! ## The narrower frames give the wider ones -/

theorem Tidy.calm {x : Fin 16} {s t : State} (h : Tidy x s t) : Calm s t := by
  obtain ⟨h1, h2, h3, h4, h5⟩ := h
  refine ⟨fun y => ?_, fun y => ?_, fun y d => ?_, fun d => ?_⟩
  · by_cases hy : y = x
    · subst hy; rw [h3]
    · rw [h2 y hy]
  · by_cases hy : y = x
    · subst hy; exact h4
    · rw [h2 y hy]
  · by_cases hy : y = x
    · subst hy; rw [h5]
    · simp only [State.cc, h2 y hy]
  · rw [h1]; rfl

theorem Slices.calm {s t : State} (h : Slices s t) : Calm s t := by
  obtain ⟨-, h2, h3, h4⟩ := h
  refine ⟨fun y => ?_, fun y => ?_, fun y d => ?_, h4⟩
  · rw [h2]
  · rw [h2]
  · rw [h3]

theorem Written.cc {s t : State} (h : Written s t) (y : Fin 16) (d : Fin 4) : t.cc y d = s.cc y d := by
  simp only [State.cc]
  rw [h.ctx y]

theorem Written.calm {s t : State} (h : Written s t) : Calm s t := by
  refine ⟨fun y => ?_, h.formed, fun y d => ?_, fun d => ?_⟩
  · rw [h.ctx y]
  · rw [h.cc]
  · simp only [State.core, h.cores]

theorem Tidy.chores {x : Fin 16} {s t : State} (h : Tidy x s t) : Chores x s t := by
  obtain ⟨h1, h2, h3, -, h5⟩ := h
  refine ⟨⟨?_, fun y hy => ?_⟩, ?_, ?_, ?_, ?_, fun d => ?_⟩
  · rw [h1]
  · rw [h2 y hy]
  · rw [h3]
  · rw [h3]
  · rw [h3]
  · rw [h3]
  · rw [h5]

theorem Slices.chores {s t : State} (x : Fin 16) (h : Slices s t) : Chores x s t := by
  obtain ⟨h1, h2, h3, -⟩ := h
  refine ⟨⟨?_, fun y _ => h2 y⟩, ?_, ?_, ?_, ?_, fun d => ?_⟩
  · rw [h1]
  · rw [h2]
  · rw [h2]
  · rw [h2]
  · rw [h2]
  · rw [h3]

/-- A change of one context only keeps to the frame of its queues. -/
theorem queueFrame_of_onlyCtx {x : Fin 16} {s t : State} (h : OnlyCtx x s t) : QueueFrame x s t := by
  obtain ⟨h1, h2⟩ := h
  refine ⟨?_, fun y hy => ?_⟩
  · rw [h1]
  · rw [h2 y hy]

/-! # Entries, claims, step boundaries and the scheduler keep to their frames (12, R317; 07, R176; 13, R337, R339). -/

/-! ## Updates of one context -/

/-- A change of a core's part of a context that leaves all but table and admission is bookkeeping. -/
theorem tidy_modCC (s : State) (x : Fin 16) (c : Fin 4) (f : CtxCore → CtxCore)
    (hf : ∀ k, f k = { k with table := (f k).table, boundaries := (f k).boundaries, admitted := (f k).admitted }) :
    Tidy x s (s.modCC x c f) := by
  refine ⟨rfl, fun y hy => State.modCC_ctx_other s x y c f hy, by rw [State.modCC_ctx_same],
    by rw [State.modCC_ctx_same], fun d => ?_⟩
  by_cases hd : d = c
  · subst hd
    rw [State.modCC_same]
    exact hf _
  · rw [State.modCC_other_core s x x c d f hd]

/-- So is a change of its entries and list accounts that drops no entry. -/
theorem tidy_modCtx (s : State) (x : Fin 16) (f : Ctx → Ctx)
    (hf : f (s.ctx x) = { s.ctx x with formed := (f (s.ctx x)).formed, lists := (f (s.ctx x)).lists })
    (hp : (s.ctx x).formed <+: (f (s.ctx x)).formed) : Tidy x s (s.modCtx x f) := by
  refine ⟨rfl, fun y hy => State.modCtx_other s x y f hy, ?_, by rw [State.modCtx_same]; exact hp, fun d => ?_⟩
  · rw [State.modCtx_same, hf]
  · have hc : (f (s.ctx x)).cores = (s.ctx x).cores := by rw [hf]
    simp only [State.cc, State.modCtx_same, hc]

/-- A change of feed dies is bookkeeping. -/
theorem tidy_modFeed (s : State) (x : Fin 16) (c : Fin 4) (f : FeedS → FeedS) : Tidy x s (s.modFeed c f) :=
  ⟨rfl, fun _ _ => rfl, rfl, List.prefix_rfl, fun _ => rfl⟩

theorem tidy_foldl {α : Type} (x : Fin 16) (f : State → α → State) (l : List α) (h : ∀ s a, Tidy x s (f s a)) (s : State) :
    Tidy x s (l.foldl f s) :=
  frame_foldl (Tidy.refl x) Tidy.trans f l (fun s a _ => h s a) s

/-! ## Entries and list accounts (12, R317) -/

theorem tidy_post (s : State) (x : Fin 16) (e : Entry) : Tidy x s (s.post x e) := by
  rcases post_cases s x e with h | h <;> rw [h]
  · exact tidy_modCtx s x _ rfl (List.prefix_append _ _)
  · exact Tidy.refl x s

theorem tidy_listDone (s : State) (x : Fin 16) (c : Cmd) : Tidy x s (s.listDone x c) := by
  have lists : ∀ f : List ListAcct → List ListAcct, Tidy x s (s.modCtx x (fun k => { k with lists := f k.lists })) :=
    fun f => tidy_modCtx s x _ rfl List.prefix_rfl
  unfold State.listDone
  split
  · exact Tidy.refl x s
  · split
    · dsimp only
      split
      · exact (lists _).trans (tidy_post _ _ _)
      · exact lists _
    · exact lists _

theorem tidy_report (s : State) (x : Fin 16) (c : Cmd) (d : Done) : Tidy x s (s.report x c d) := by
  unfold State.report
  dsimp only
  split
  · exact (tidy_post s x _).trans (tidy_listDone _ _ _)
  · exact tidy_listDone s x c

/-- A command that ends in an ACTIVE context, and asks for an entry or ends with a reason, is reported. -/
theorem reported_report (s : State) (x : Fin 16) (c : Cmd) (d : Done) (ha : (s.ctx x).state = .active)
    (hd : c.notify = true ∨ d.failed = true ∨ d.reason ≠ 0) : Reported (s.report x c d) x c d := by
  have hc : (d.failed || decide (d.reason ≠ 0) || c.notify) = true := by
    rcases hd with h | h | h <;> simp [h]
  unfold State.report
  dsimp only
  rw [if_pos hc]
  refine (tidy_listDone _ x c).formed.subset ?_
  rw [post_active s x _ ha]
  simp

theorem Reported.mono {s t : State} {x : Fin 16} {c : Cmd} {d : Done} (h : Reported s x c d)
    (hp : (s.ctx x).formed <+: (t.ctx x).formed) : Reported t x c d := hp.subset h

/-! ## Claims (07, R175 to R177) and step boundaries (R339) -/

theorem tidy_modTok (s : State) (x : Fin 16) (c : Fin 4) (i : Nat) (f : TokSlot → TokSlot) : Tidy x s (s.modTok x c i f) :=
  tidy_modCC s x c _ (fun _ => rfl)

theorem tidy_claim (s : State) (x : Fin 16) (k : Claim) : Tidy x s (s.claim x k) := tidy_modTok s x _ _ _

theorem tidy_poisonSlot (s : State) (x : Fin 16) (c : Fin 4) (i : Nat) : Tidy x s (s.poisonSlot x c i) := by
  unfold State.poisonSlot
  split
  · exact Tidy.refl x s
  · split
    · exact Tidy.refl x s
    · exact tidy_modFeed s x c _

theorem tidy_release (s : State) (x : Fin 16) (k : Claim) (failed : Bool) : Tidy x s (s.release x k failed) := by
  unfold State.release
  dsimp only
  split
  · exact (tidy_modTok s x _ _ _).trans (tidy_poisonSlot _ _ _ _)
  · exact tidy_modTok s x _ _ _

theorem tidy_stepBoundary (s : State) (x : Fin 16) (c : Fin 4) : Tidy x s (s.stepBoundary x c) :=
  tidy_modCC s x c _ (fun _ => rfl)

theorem tidy_emptyBoundary (s : State) (x : Fin 16) (c : Fin 4) (ev : Bool) : Tidy x s (s.emptyBoundary x c ev) := by
  unfold State.emptyBoundary
  split
  · exact tidy_stepBoundary s x c
  · exact Tidy.refl x s

/-! ## The scheduler (13, R337) -/

theorem slices_modCC (s : State) (x : Fin 16) (c : Fin 4) (f : CtxCore → CtxCore)
    (hf : ∀ k, f k = { k with remaining := (f k).remaining, debt := (f k).debt, skips := (f k).skips }) :
    Slices s (s.modCC x c f) := by
  refine ⟨rfl, fun y => ?_, fun y d => ?_, fun _ => rfl⟩
  · by_cases hy : y = x
    · subst hy; rw [State.modCC_ctx_same]
    · rw [State.modCC_ctx_other s x y c f hy]
  · by_cases hy : y = x
    · subst hy
      by_cases hd : d = c
      · subst hd
        rw [State.modCC_same]
        exact hf _
      · rw [State.modCC_other_core s y y c d f hd]
    · rw [State.modCC_other_ctx s x y c d f hy]

theorem slices_schedPass (c : Fin 4) (xs : List (Fin 16)) (s : State) (r : State × Option (Fin 16) × Bool) :
    Slices r.1 (State.schedPass s c xs r).1 := by
  induction xs generalizing r with
  | nil => exact Slices.refl r.1
  | cons x xs ih =>
    obtain ⟨st, found, skipped⟩ := r
    unfold State.schedPass
    cases found with
    | some y => exact Slices.refl st
    | none =>
      dsimp only
      split
      · exact ih (st, none, skipped)
      · split
        · exact (slices_modCC st x c _ (fun _ => rfl)).trans (ih (_, none, true))
        · exact slices_modCC st x c _ (fun _ => rfl)

/-- A pass picks only a context that has an eligible head command. -/
theorem schedPass_pick (c : Fin 4) (xs : List (Fin 16)) (s st : State) (skipped : Bool) (x : Fin 16)
    (h : (State.schedPass s c xs (st, none, skipped)).2.1 = some x) : s.hasHead c x = true := by
  induction xs generalizing st skipped with
  | nil => simp [State.schedPass] at h
  | cons y ys ih =>
    unfold State.schedPass at h
    dsimp only at h
    split at h
    · exact ih st skipped h
    · rename_i hy
      split at h
      · exact ih _ true h
      · cases h
        simpa using hy

theorem slices_schedLoop (c : Fin 4) (order : List (Fin 16)) (n : Nat) (s : State) :
    Slices s (State.schedLoop c order n s).1 := by
  induction n generalizing s with
  | zero => exact Slices.refl s
  | succ n ih =>
    have h := slices_schedPass c order s (s, none, false)
    unfold State.schedLoop
    split
    · rename_i h1
      rw [h1] at h
      exact h
    · rename_i h1
      rw [h1] at h
      split
      · exact h.trans (ih _)
      · exact h

theorem schedLoop_pick (c : Fin 4) (order : List (Fin 16)) (n : Nat) (s : State) (x : Fin 16)
    (h : (State.schedLoop c order n s).2 = some x) : ∃ v, Slices s v ∧ v.hasHead c x = true := by
  induction n generalizing s with
  | zero => cases h
  | succ n ih =>
    have hp := slices_schedPass c order s (s, none, false)
    unfold State.schedLoop at h
    split at h
    · rename_i h1
      cases h
      exact ⟨s, Slices.refl s, schedPass_pick c order s s false x (by rw [h1])⟩
    · rename_i h1
      rw [h1] at hp
      split at h
      · obtain ⟨v, hv, hx⟩ := ih _ h
        exact ⟨v, hp.trans hv, hx⟩
      · cases h

theorem slices_dropShadows (s : State) (c : Fin 4) : Slices s (s.dropShadows c) :=
  ⟨rfl, fun _ => rfl, fun _ _ => rfl, fun _ => rfl⟩

/-- A core turns to a context. -/
theorem slices_current (s : State) (c : Fin 4) (x : Fin 16) : Slices s (s.modCore c (fun k => { k with current := x })) := by
  refine ⟨rfl, fun _ => rfl, fun _ _ => rfl, fun d => ?_⟩
  by_cases hd : d = c
  · subst hd; rw [State.modCore_same]
  · rw [State.modCore_other s c d _ hd]

/-- The scheduler changes slices, debts, skips, current contexts and look-ahead loads only, and picks only a context that has an
eligible head command. -/
theorem schedule_spec (s : State) (c : Fin 4) :
    Slices s (s.schedule c).1 ∧ ∀ x, (s.schedule c).2 = some x → ∃ v, Slices s v ∧ v.hasHead c x = true := by
  unfold State.schedule
  dsimp only
  split
  · refine ⟨Slices.refl s, fun x hx => ?_⟩
    split at hx
    · rename_i hh
      cases hx
      exact ⟨s, Slices.refl s, hh⟩
    · cases hx
  · split
    · exact ⟨Slices.refl s, fun x hx => by cases hx⟩
    split
    · rename_i hh
      refine ⟨Slices.refl s, fun x hx => ?_⟩
      cases hx
      exact ⟨s, Slices.refl s, by simp only [Bool.and_eq_true] at hh; exact hh.1⟩
    · have h0 : Slices s (s.modCC (s.core c).current c (fun k => { k with remaining := 0 })) := slices_modCC s _ c _ (fun _ => rfl)
      have hl := slices_schedLoop c (contextsAfter (s.core c).current)
        ((contextsAfter (s.core c).current).foldl (fun n x => n + (s.cc x c).debt / ((s.cc x c).budget + 1) + 2) 1)
        (s.modCC (s.core c).current c (fun k => { k with remaining := 0 }))
      have hp := schedLoop_pick c (contextsAfter (s.core c).current)
        ((contextsAfter (s.core c).current).foldl (fun n x => n + (s.cc x c).debt / ((s.cc x c).budget + 1) + 2) 1)
        (s.modCC (s.core c).current c (fun k => { k with remaining := 0 }))
      split
      · rename_i u x h1
        rw [h1] at hl
        refine ⟨(h0.trans hl).trans (Slices.trans ?_ (slices_current _ c x)), fun y hy => ?_⟩
        · split
          · exact Slices.refl u
          · exact slices_dropShadows u c
        · cases hy
          obtain ⟨v, hv, hx⟩ := hp x (by rw [h1])
          exact ⟨v, h0.trans hv, hx⟩
      · rename_i h1
        rw [h1] at hl
        exact ⟨h0.trans hl, fun x hx => by cases hx⟩

theorem slices_schedule (s : State) (c : Fin 4) : Slices s (s.schedule c).1 := (schedule_spec s c).1

/-- What an eligible head command says of its context: it is ACTIVE, and a FENCE WAIT has its token. -/
theorem hasHead_inv {s : State} {c : Fin 4} {x : Fin 16} (h : s.hasHead c x = true) :
    ∃ cmd ev, (s.cc x c).head = some (cmd, ev) ∧ s.eligible x (some c) ev cmd = true := by
  unfold State.hasHead at h
  split at h
  · rename_i cmd ev hh
    simp only [Bool.and_eq_true] at h
    exact ⟨cmd, ev, hh, h.1.1⟩
  · cases h

theorem active_of_eligible {s : State} {x : Fin 16} {c : Option (Fin 4)} {ev : Bool} {cmd : Cmd}
    (h : s.eligible x c ev cmd = true) : (s.ctx x).state = .active := by
  simp only [State.eligible, State.clearAhead, State.mayDispatch, Bool.and_eq_true, beq_iff_eq] at h
  exact h.1.1.1.1.1.1.1.1

theorem fenceHolds_of_eligible {s : State} {x : Fin 16} {c : Option (Fin 4)} {ev : Bool} {cmd : Cmd}
    (h : s.eligible x c ev cmd = true) (hf : isForm 0x60 1 cmd = true) : s.fenceHolds x cmd.desc = true := by
  simp only [isForm, Bool.and_eq_true, beq_iff_eq] at hf
  simp only [State.eligible, State.waitOver, Bool.and_eq_true] at h
  simpa [hf] using h.1.2

/-- The scheduler leaves the head command of each context. -/
theorem Slices.head {s t : State} (h : Slices s t) (x : Fin 16) (c : Fin 4) : (t.cc x c).head = (s.cc x c).head := by
  rw [h.cc x c]
  rfl

theorem Slices.fenceHolds {s t : State} (h : Slices s t) (x : Fin 16) (desc : List Byte) :
    t.fenceHolds x desc = s.fenceHolds x desc := by
  simp only [State.fenceHolds]
  rw [h.ctx x]

theorem Slices.state {s t : State} (h : Slices s t) (x : Fin 16) : (t.ctx x).state = (s.ctx x).state := by
  rw [h.ctx x]

/-- The pick of the scheduler has a head command, is ACTIVE, and its FENCE WAIT has its token. -/
theorem schedule_pick (s : State) (c : Fin 4) (x : Fin 16) (h : (s.schedule c).2 = some x) :
    (s.ctx x).state = .active ∧ ∀ cmd ev, (s.cc x c).head = some (cmd, ev) → isForm 0x60 1 cmd = true →
      s.fenceHolds x cmd.desc = true := by
  obtain ⟨v, hv, hx⟩ := (schedule_spec s c).2 x h
  obtain ⟨cmd, ev, hh, he⟩ := hasHead_inv hx
  refine ⟨(hv.state x).symm.trans (active_of_eligible he), fun cmd' ev' hh' hf => ?_⟩
  rw [← hv.head x c, hh] at hh'
  cases hh'
  rw [← hv.fenceHolds x]
  exact fenceHolds_of_eligible he hf

/-! # Runs: where a dispatched command stands, how it leaves its queue, and how it ends (13, R328 to R330, R337). -/

/-! ## Finding a run by its number -/

/-- Two rows of units that agree in a part give the same list of it. -/
theorem toList_map_congr {α β : Type} {n : Nat} (v w : Vector α n) (g : α → β) (h : ∀ i : Fin n, g v[i] = g w[i]) :
    v.toList.map g = w.toList.map g := by
  refine List.ext_getElem (by simp) (fun i hi _ => ?_)
  have hi' : i < n := by simpa using hi
  simpa using h ⟨i, hi'⟩

/-- A search by number depends on the runs only. -/
theorem findRun_congr {s t : State} (id : Nat) (hc : ∀ d, (t.core d).running = (s.core d).running)
    (hf : ∀ y, (t.ctx y).fabricRun = (s.ctx y).fabricRun) (hm : ∀ y, (t.ctx y).memoryRun = (s.ctx y).memoryRun) :
    t.findRun id = s.findRun id := by
  have e : ∀ l : List CoreS, l.filterMap (·.running) = (l.map (·.running)).filterMap (fun r => r) := fun l => by
    rw [List.filterMap_map]; rfl
  have h1 : t.cores.toList.filterMap (·.running) = s.cores.toList.filterMap (·.running) := by
    rw [e, e, toList_map_congr t.cores s.cores _ hc]
  have h2 := toList_map_congr t.hub.ctxs s.hub.ctxs (fun k => k.fabricRun ++ k.memoryRun)
    (fun y => congrArg₂ (· ++ ·) (hf y) (hm y))
  simp only [State.findRun, h1, h2]

/-- A run is found by its number when it stands in a queue and no other run has the number. -/
theorem findRun_of (s : State) (r : Run) (x : Fin 16) (hc : ∀ c k, (s.core c).running = some k → k.id ≠ r.id)
    (hx : r ∈ (s.ctx x).fabricRun ++ (s.ctx x).memoryRun)
    (hu : ∀ y, ∀ k ∈ (s.ctx y).fabricRun ++ (s.ctx y).memoryRun, k.id = r.id → k = r) : s.findRun r.id = some r := by
  have h1 : (s.cores.toList.filterMap (·.running)).find? (fun k => k.id == r.id) = none := by
    rw [List.find?_eq_none]
    intro k hk
    obtain ⟨e, he, hk⟩ := List.mem_filterMap.1 hk
    obtain ⟨i, hi, rfl⟩ := List.getElem_of_mem he
    have hi' : i < 4 := by simpa using hi
    simpa using hc ⟨i, hi'⟩ k (by simpa [State.core] using hk)
  have mem : ∀ y, s.ctx y ∈ s.hub.ctxs.toList := fun y => by simp [State.ctx]
  have h2 : ((s.hub.ctxs.toList.map (fun k => k.fabricRun ++ k.memoryRun)).flatten).find? (fun k => k.id == r.id) = some r := by
    obtain ⟨k, hk⟩ : ∃ k, ((s.hub.ctxs.toList.map (fun k => k.fabricRun ++ k.memoryRun)).flatten).find?
        (fun k => k.id == r.id) = some k := by
      rw [← Option.isSome_iff_exists, List.find?_isSome]
      exact ⟨r, List.mem_flatten.2 ⟨_, List.mem_map.2 ⟨s.ctx x, mem x, rfl⟩, hx⟩, by simp⟩
    have hid := List.find?_some hk
    obtain ⟨l, hl, hkl⟩ := List.mem_flatten.1 (List.mem_of_find?_eq_some hk)
    obtain ⟨e, he, rfl⟩ := List.mem_map.1 hl
    obtain ⟨i, hi, rfl⟩ := List.getElem_of_mem he
    have hi' : i < 16 := by simpa using hi
    rw [hk, hu ⟨i, hi'⟩ k (by simpa [State.ctx] using hkl) (by simpa using hid)]
  simp only [State.findRun, h1, h2]

/-- A list searched for a number after a change that keeps every number. -/
theorem find?_map_id (l : List Run) (id : Nat) (g : Run → Run) (hg : ∀ r, (g r).id = r.id) :
    (l.map g).find? (fun r => r.id == id) = (l.find? (fun r => r.id == id)).map g := by
  rw [List.find?_map]
  congr 2
  funext r
  simp [hg]

/-- A change of a run shows wherever it is looked up. -/
theorem findRun_modRun (s : State) (r : Run) (f : Run → Run) (hf : ∀ k, (f k).id = k.id) (h : s.findRun r.id = some r) :
    (s.modRun r.id f).findRun r.id = some (f r) := by
  have hg : ∀ k : Run, (if k.id = r.id then f k else k).id = k.id := fun k => by split <;> simp [hf]
  have h1 : (s.modRun r.id f).cores.toList.filterMap (·.running) =
      (s.cores.toList.filterMap (·.running)).map (fun k => if k.id = r.id then f k else k) := by
    simp only [State.modRun, Vector.toList_map, List.filterMap_map, List.map_filterMap]
    rfl
  have h2 : ((s.modRun r.id f).hub.ctxs.toList.map (fun k => k.fabricRun ++ k.memoryRun)).flatten =
      ((s.hub.ctxs.toList.map (fun k => k.fabricRun ++ k.memoryRun)).flatten).map
        (fun k => if k.id = r.id then f k else k) := by
    simp only [State.modRun, Vector.toList_map, List.map_map, List.map_flatten]
    congr 2
    funext k
    simp
  have h' := h
  unfold State.findRun at h ⊢
  dsimp only at h ⊢
  rw [h1, h2, find?_map_id _ _ _ hg, find?_map_id _ _ _ hg]
  split at h
  · rename_i k hk
    cases h
    simp [hk]
  · rename_i hk
    simp [hk, h]

/-! ## Where a run stands -/

/-- Run r of queue q, which s has dispatched, stands as r' in t; its command has left the queue, and no other run of it has gone. -/
def Standing (s t : State) (q : QRef) (r r' : Run) : Prop :=
  match q with
  | .core c => (t.core c).running = some r' ∧ ∃ ev, (s.cc r.x c).head = some (r.cmd, ev) ∧
      (t.cc r.x c).main = (if ev then (s.cc r.x c).main else (s.cc r.x c).main.tail) ∧
      (t.cc r.x c).eval = (if ev then (s.cc r.x c).eval.tail else (s.cc r.x c).eval)
  | .fabric x => r.x = x ∧ (s.ctx x).fabric.head? = some r.cmd ∧ (t.ctx x).fabric = (s.ctx x).fabric.tail ∧
      (t.ctx x).fabricRun.filter (fun k => k.id != r.id) = (s.ctx x).fabricRun ∧ t.findRun r.id = some r'
  | .memory x => r.x = x ∧ (s.ctx x).memory.head? = some r.cmd ∧ (t.ctx x).memory = (s.ctx x).memory.tail ∧
      (t.ctx x).memoryRun.filter (fun k => k.id != r.id) = (s.ctx x).memoryRun ∧ t.findRun r.id = some r'

theorem Calm.findRun {s t : State} (h : Calm s t) (id : Nat) : t.findRun id = s.findRun id :=
  findRun_congr id (fun d => by rw [h.core d]) (fun y => by rw [h.ctx y]) (fun y => by rw [h.ctx y])

theorem Calm.state {s t : State} (h : Calm s t) (x : Fin 16) : (t.ctx x).state = (s.ctx x).state := by rw [h.ctx x]

theorem Calm.span {s t : State} (h : Calm s t) (c : Fin 4) : (t.core c).span = (s.core c).span := by rw [h.core c]

theorem spanFor_congr {s t : State} {c : Fin 4} (h : (t.core c).span = (s.core c).span) (x : Fin 16) (ev : Bool) :
    t.spanFor x c ev = s.spanFor x c ev := by
  simp only [State.spanFor, h]

theorem Calm.inSpan {s t : State} (h : Calm s t) (q : QRef) (r : Run) : t.inSpan q r = s.inSpan q r := by
  cases q with
  | core c => simp only [State.inSpan, spanFor_congr (h.span c)]
  | fabric x => rfl
  | memory x => rfl

/-- A run stands where it stood after anything that changes nothing that is queued or runs. -/
theorem Standing.calm {s t u : State} {q : QRef} {r r' : Run} (h : Standing s t q r r') (k : Calm t u) :
    Standing s u q r r' := by
  cases q with
  | core c =>
    obtain ⟨hr, ev, hh, hm, he⟩ := h
    exact ⟨by rw [k.core c]; exact hr, ev, hh, by rw [k.cc r.x c]; exact hm, by rw [k.cc r.x c]; exact he⟩
  | fabric x =>
    obtain ⟨hx, hh, hq, hr, hf⟩ := h
    exact ⟨hx, hh, by rw [k.ctx x]; exact hq, by rw [k.ctx x]; exact hr, by rw [k.findRun]; exact hf⟩
  | memory x =>
    obtain ⟨hx, hh, hq, hr, hf⟩ := h
    exact ⟨hx, hh, by rw [k.ctx x]; exact hq, by rw [k.ctx x]; exact hr, by rw [k.findRun]; exact hf⟩

/-! ## A change of the run itself -/

theorem modRun_ctx (s : State) (id : Nat) (f : Run → Run) (y : Fin 16) : (s.modRun id f).ctx y = { s.ctx y with
    fabricRun := (s.ctx y).fabricRun.map (fun r => if r.id = id then f r else r)
    memoryRun := (s.ctx y).memoryRun.map (fun r => if r.id = id then f r else r) } := by
  simp [State.modRun, State.ctx]

theorem modRun_core (s : State) (id : Nat) (f : Run → Run) (d : Fin 4) : (s.modRun id f).core d = { s.core d with
    running := (s.core d).running.map (fun r => if r.id = id then f r else r) } := by
  simp [State.modRun, State.core]

theorem modRun_cc (s : State) (id : Nat) (f : Run → Run) (y : Fin 16) (d : Fin 4) : (s.modRun id f).cc y d = s.cc y d := by
  simp only [State.cc]
  rw [modRun_ctx]

/-- A change that keeps numbers leaves the runs of the other numbers. -/
theorem filter_modRun (l : List Run) (id : Nat) (f : Run → Run) (hf : ∀ k, (f k).id = k.id) :
    (l.map (fun r => if r.id = id then f r else r)).filter (fun k => k.id != id) = l.filter (fun k => k.id != id) := by
  induction l with
  | nil => rfl
  | cons r l ih =>
    by_cases h : r.id = id <;> simp [h, hf, ih]

theorem Standing.modRun {s t : State} {q : QRef} {r : Run} (h : Standing s t q r r) (f : Run → Run)
    (hf : ∀ k, (f k).id = k.id) : Standing s (t.modRun r.id f) q r (f r) := by
  cases q with
  | core c =>
    obtain ⟨hr, ev, hh, hm, he⟩ := h
    exact ⟨by rw [modRun_core, hr]; simp, ev, hh, by rw [modRun_cc]; exact hm, by rw [modRun_cc]; exact he⟩
  | fabric x =>
    obtain ⟨hx, hh, hq, hr, hn⟩ := h
    refine ⟨hx, hh, by rw [modRun_ctx]; exact hq, ?_, findRun_modRun t r f hf hn⟩
    rw [modRun_ctx, ← hr]
    exact filter_modRun _ _ f hf
  | memory x =>
    obtain ⟨hx, hh, hq, hr, hn⟩ := h
    refine ⟨hx, hh, by rw [modRun_ctx]; exact hq, ?_, findRun_modRun t r f hf hn⟩
    rw [modRun_ctx, ← hr]
    exact filter_modRun _ _ f hf

/-! # How a run ends (13, R329, R330, R337; 16, R398). -/

/-! ## The queues of cores -/

/-- The queues of every context on every core stay. -/
def SameQueues (s t : State) : Prop := ∀ y d, (t.cc y d).main = (s.cc y d).main ∧ (t.cc y d).eval = (s.cc y d).eval

theorem SameQueues.trans {s t u : State} (h : SameQueues s t) (k : SameQueues t u) : SameQueues s u :=
  fun y d => ⟨(k y d).1.trans (h y d).1, (k y d).2.trans (h y d).2⟩

theorem Calm.sameQueues {s t : State} (h : Calm s t) : SameQueues s t := fun y d => by rw [h.cc y d]; exact ⟨rfl, rfl⟩

/-- A part of a core's share of a context that a change keeps, every share keeps. -/
theorem cc_modCC {β : Type} (p : CtxCore → β) (s : State) (x : Fin 16) (c : Fin 4) (f : CtxCore → CtxCore)
    (hf : ∀ k, p (f k) = p k) (y : Fin 16) (d : Fin 4) : p ((s.modCC x c f).cc y d) = p (s.cc y d) := by
  by_cases hy : y = x
  · subst hy
    by_cases hd : d = c
    · subst hd
      rw [State.modCC_same, hf]
    · rw [State.modCC_other_core s y y c d f hd]
  · rw [State.modCC_other_ctx s x y c d f hy]

theorem sameQueues_modCC (s : State) (x : Fin 16) (c : Fin 4) (f : CtxCore → CtxCore)
    (hf : ∀ k, (f k).main = k.main ∧ (f k).eval = k.eval) : SameQueues s (s.modCC x c f) :=
  fun y d => ⟨cc_modCC (·.main) s x c f (fun k => (hf k).1) y d, cc_modCC (·.eval) s x c f (fun k => (hf k).2) y d⟩

/-- A change of a core's part of a context that keeps its hint is a chore of the context. -/
theorem chores_modCC (s : State) (x : Fin 16) (c : Fin 4) (f : CtxCore → CtxCore) (hf : ∀ k, (f k).hint = k.hint) :
    Chores x s (s.modCC x c f) := by
  refine ⟨⟨rfl, fun y hy => by rw [State.modCC_ctx_other s x y c f hy]⟩, ?_, ?_, ?_, ?_, cc_modCC (·.hint) s x c f hf x⟩ <;>
    rw [State.modCC_ctx_same]

/-- So is a change of cores, arrays and feed dies. -/
theorem chores_of_ctxs (x : Fin 16) {s t : State} (h : t.hub.ctxs = s.hub.ctxs) (hr : t = { s with
    hub := { s.hub with ctxs := t.hub.ctxs }, cores := t.cores, arrays := t.arrays, feeds := t.feeds }) : Chores x s t := by
  have hc : ∀ y, t.ctx y = s.ctx y := fun y => by simp only [State.ctx, h]
  refine ⟨⟨hr, fun y _ => by rw [hc]⟩, ?_, ?_, ?_, ?_, fun d => ?_⟩
  · rw [hc]
  · rw [hc]
  · rw [hc]
  · rw [hc]
  · simp only [State.cc, hc]

/-! ## The end of a core's command -/

/-- The core, its arrays and its feed die are free of the command, and its slice is charged. -/
def State.freeCore (s : State) (c : Fin 4) (r : Run) (charge : Nat) : State :=
  let s1 := ((s.stopIssue c).modCore c (fun k => { k with running := none, epi := [] })).modCC r.x c (·.chargeSlice charge)
  { s1 with arrays := s1.arrays.mapIdx (fun i (a : ArrayS) => if i / 2 = c.val then { a with rows := [] } else a) }

/-- The end of a span command is held in its span (R398). -/
def State.holdEnd (s : State) (c : Fin 4) (sp : Span) (r : Run) (charge : Nat) : State :=
  let s1 := s.modCore c (fun k => { k with span := some (sp.hold r charge (s.disagreements c)) })
  if sp.replay then s1.modCC r.x c (fun k => { k with replayCycles := satAdd k.replayCycles charge }) else s1

/-- The end of a command outside spans: its claims end, it is counted and reported, and an emptied class makes a step boundary. -/
def State.reportEnd (s : State) (c : Fin 4) (r : Run) (charge : Nat) : State :=
  let s1 := r.claims.foldl (fun s k => s.release r.x k r.out.failed) s
  ((s1.modCC r.x c (·.countRun r.cmd r.out.failed charge)).report r.x r.cmd r.out).emptyBoundary r.x c r.cmd.eval

theorem finishCore_of_span {s : State} {c : Fin 4} {r : Run} {sp : Span} (charge : Nat) (h : (s.core c).running = some r)
    (hs : s.spanFor r.x c r.cmd.eval = some sp) :
    s.finishCore c charge = (((s.endUpdate r).leaveWork c r).freeCore c r charge).holdEnd c sp r charge := by
  unfold State.finishCore
  rw [h]
  dsimp only
  rw [hs]
  rfl

theorem finishCore_of_noSpan {s : State} {c : Fin 4} {r : Run} (charge : Nat) (h : (s.core c).running = some r)
    (hs : s.spanFor r.x c r.cmd.eval = none) :
    s.finishCore c charge = (((s.endUpdate r).leaveWork c r).freeCore c r charge).reportEnd c r charge := by
  unfold State.finishCore
  rw [h]
  dsimp only
  rw [hs]
  rfl

theorem endUpdate_of_ne (s : State) (r : Run) (h : r.cmd.op ≠ 0x30) : s.endUpdate r = s := by
  simp [State.endUpdate, h]

theorem leaveWork_of_ne (s : State) (c : Fin 4) (r : Run) (h : r.cmd.op ≠ 0x11) : s.leaveWork c r = s := by
  simp [State.leaveWork, h]

/-- A state with the contexts, cores and moves of another differs by written memory. -/
theorem written_of_same {s t : State} (h : t.hub.ctxs = s.hub.ctxs) (hc : t.cores = s.cores)
    (hm : t.tiers.moves.map (·.x) = s.tiers.moves.map (·.x)) : Written s t := by
  have hx : ∀ y, t.ctx y = s.ctx y := fun y => by simp only [State.ctx, h]
  exact ⟨hc, fun y => by rw [hx], fun y => by rw [hx], hm⟩

theorem written_wwrite (s : State) (x : Fin 16) (c : Fin 4) (w : Nat) (bs : List PByte) : Written s (s.wwrite x c w bs) := by
  unfold State.wwrite
  split
  · exact written_of_same rfl rfl rfl
  · exact Written.refl s

/-- What an MMB leaves in its work area is written memory. -/
theorem written_leaveWork (s : State) (c : Fin 4) (r : Run) : Written s (s.leaveWork c r) := by
  unfold State.leaveWork State.scrambleArea
  split
  · split
    · exact Written.trans (t := s.occasion.2) (written_of_same rfl rfl rfl) (written_wwrite _ _ _ _ _)
    · exact Written.refl s
  · exact Written.refl s

/-- The arrays that the command used note when they stopped. -/
def State.noteIssues (s : State) (c : Fin 4) : State :=
  (s.core c).issuing.foldl (fun s a => s.modArr a (fun t => { t with lastIssue := s.arrayTime })) s

theorem noteIssues_rest (s : State) (c : Fin 4) : s.noteIssues c = { s with arrays := (s.noteIssues c).arrays } := by
  refine frame_foldl (R := fun s t => t = { s with arrays := t.arrays }) (fun _ => rfl) (fun {s t u} h k => ?_) _ _ (fun s a _ => rfl) s
  rw [h] at k; exact k

theorem freeCore_eq (s : State) (c : Fin 4) (r : Run) (charge : Nat) : s.freeCore c r charge =
    { s with
      hub := (s.modCC r.x c (·.chargeSlice charge)).hub
      cores := (s.modCore c (fun k => { k with running := none, epi := [], issuing := [] })).cores
      arrays := (s.freeCore c r charge).arrays
      feeds := (s.modFeed c (fun f => { f with stage := [] })).feeds } := by
  have h : s.freeCore c r charge = { ((((s.noteIssues c).modCore c (fun k => { k with issuing := [] })).modFeed c
      (fun f => { f with stage := [] })).modCore c (fun k => { k with running := none, epi := [] })).modCC r.x c
        (·.chargeSlice charge) with arrays := (s.freeCore c r charge).arrays } := rfl
  rw [h, noteIssues_rest s c]
  simp [State.modCore, State.modCC, State.modCtx, State.modFeed, vmod]

theorem freeCore_cc (s : State) (c : Fin 4) (r : Run) (charge : Nat) (y : Fin 16) (d : Fin 4) :
    (s.freeCore c r charge).cc y d = (s.modCC r.x c (·.chargeSlice charge)).cc y d := by
  rw [freeCore_eq]; rfl

theorem freeCore_core (s : State) (c : Fin 4) (r : Run) (charge : Nat) (d : Fin 4) : (s.freeCore c r charge).core d =
    (s.modCore c (fun k => { k with running := none, epi := [], issuing := [] })).core d := by
  rw [freeCore_eq]; rfl

theorem slices_chargeSlice (s : State) (x : Fin 16) (c : Fin 4) (charge : Nat) :
    Slices s (s.modCC x c (·.chargeSlice charge)) :=
  slices_modCC s x c _ (fun k => by unfold CtxCore.chargeSlice; split <;> rfl)

theorem chores_freeCore (s : State) (c : Fin 4) (r : Run) (charge : Nat) : Chores r.x s (s.freeCore c r charge) := by
  refine Chores.trans ((slices_chargeSlice s r.x c charge).chores r.x) (chores_of_ctxs r.x ?_ ?_)
  · rw [freeCore_eq]
  · rw [freeCore_eq]; rfl

theorem sameQueues_freeCore (s : State) (c : Fin 4) (r : Run) (charge : Nat) : SameQueues s (s.freeCore c r charge) := by
  intro y d
  rw [freeCore_cc]
  exact (slices_chargeSlice s r.x c charge).calm.sameQueues y d

/-! ## What a held end gives -/

theorem holdEnd_core (s : State) (c : Fin 4) (sp : Span) (r : Run) (charge : Nat) : (s.holdEnd c sp r charge).core c =
    { s.core c with span := some (sp.hold r charge (s.disagreements c)) } := by
  unfold State.holdEnd
  dsimp only
  split
  · rw [State.modCC_core, State.modCore_same]
  · rw [State.modCore_same]

theorem chores_holdEnd (s : State) (c : Fin 4) (sp : Span) (r : Run) (charge : Nat) : Chores r.x s (s.holdEnd c sp r charge) := by
  have h : ∀ f, Chores r.x s (s.modCore c f) := fun f => chores_of_ctxs r.x rfl rfl
  unfold State.holdEnd
  dsimp only
  split
  · exact (h _).trans (chores_modCC _ r.x c _ (fun _ => rfl))
  · exact h _

theorem sameQueues_holdEnd (s : State) (c : Fin 4) (sp : Span) (r : Run) (charge : Nat) :
    SameQueues s (s.holdEnd c sp r charge) := by
  have h : ∀ f, SameQueues s (s.modCore c f) := fun f y d => ⟨rfl, rfl⟩
  unfold State.holdEnd
  dsimp only
  split
  · exact (h _).trans (sameQueues_modCC _ r.x c _ (fun _ => ⟨rfl, rfl⟩))
  · exact h _

/-! ## What a reported end gives -/

/-- Counting a run keeps its core's queues, hints and slices. -/
theorem countRun_eq (k : CtxCore) (c : Cmd) (failed : Bool) (charge : Nat) : k.countRun c failed charge = { k with
    actual := (k.countRun c failed charge).actual, solo := (k.countRun c failed charge).solo
    evalCycles := (k.countRun c failed charge).evalCycles } := by
  unfold CtxCore.countRun
  dsimp only
  split <;> split <;> rfl

theorem tidy_releases (s : State) (x : Fin 16) (cs : List Claim) (failed : Bool) :
    Tidy x s (cs.foldl (fun s k => s.release x k failed) s) := tidy_foldl x _ cs (fun s k => tidy_release s x k failed) s

/-- What follows the count of a run is bookkeeping. -/
theorem tidy_afterCount (s : State) (c : Fin 4) (r : Run) :
    Tidy r.x s ((s.report r.x r.cmd r.out).emptyBoundary r.x c r.cmd.eval) :=
  (tidy_report s r.x r.cmd r.out).trans (tidy_emptyBoundary _ r.x c r.cmd.eval)

theorem chores_reportEnd (s : State) (c : Fin 4) (r : Run) (charge : Nat) : Chores r.x s (s.reportEnd c r charge) :=
  ((tidy_releases s r.x r.claims r.out.failed).chores.trans
    (chores_modCC _ r.x c _ (fun k => by rw [countRun_eq]))).trans (tidy_afterCount _ c r).chores

theorem sameQueues_reportEnd (s : State) (c : Fin 4) (r : Run) (charge : Nat) : SameQueues s (s.reportEnd c r charge) :=
  ((tidy_releases s r.x r.claims r.out.failed).calm.sameQueues.trans
    (sameQueues_modCC _ r.x c _ (fun k => by rw [countRun_eq]; exact ⟨rfl, rfl⟩))).trans
      (tidy_afterCount _ c r).calm.sameQueues

theorem reportEnd_core (s : State) (c d : Fin 4) (r : Run) (charge : Nat) : ((s.reportEnd c r charge).core d).running =
    (s.core d).running ∧ ((s.reportEnd c r charge).core d).span = (s.core d).span := by
  have h1 := (tidy_releases s r.x r.claims r.out.failed).calm.core d
  have h2 := (tidy_afterCount ((r.claims.foldl (fun s k => s.release r.x k r.out.failed) s).modCC r.x c
    (·.countRun r.cmd r.out.failed charge)) c r).calm.core d
  rw [State.modCC_core, h1] at h2
  unfold State.reportEnd
  dsimp only
  rw [h2]
  exact ⟨rfl, rfl⟩

theorem reportEnd_reported (s : State) (c : Fin 4) (r : Run) (charge : Nat) (ha : (s.ctx r.x).state = .active)
    (hd : r.cmd.notify = true ∨ r.out.failed = true ∨ r.out.reason ≠ 0) :
    Reported (s.reportEnd c r charge) r.x r.cmd r.out := by
  refine Reported.mono (reported_report _ r.x r.cmd r.out ?_ hd) (tidy_emptyBoundary _ r.x c r.cmd.eval).formed
  rw [State.modCC_ctx_same]
  exact (tidy_releases s r.x r.claims r.out.failed).chores.state.trans ha

theorem reportEnd_counts (s : State) (c : Fin 4) (r : Run) (charge : Nat) (hf : r.out.failed = false) :
    ((s.reportEnd c r charge).cc r.x c).actual = satAdd (s.cc r.x c).actual charge ∧
      ((s.reportEnd c r charge).cc r.x c).solo = satAdd (s.cc r.x c).solo r.cmd.est := by
  have h1 := (tidy_releases s r.x r.claims r.out.failed).cc c
  unfold State.reportEnd
  dsimp only
  rw [(tidy_afterCount _ c r).cc c, State.modCC_same]
  simp only [CtxCore.countRun, hf, Bool.false_eq_true, if_false]
  rw [hf] at h1
  split <;> (rw [h1]; exact ⟨rfl, rfl⟩)

/-! ## The end of a core's command as a whole -/

section
variable {s : State} {c : Fin 4} {r : Run} (charge : Nat) (hr : (s.core c).running = some r) (hu : r.cmd.op ≠ 0x30)
include hr hu

/-- The core is free, and its queues stay. -/
theorem finishCore_free : ((s.finishCore c charge).core c).running = none ∧ SameQueues s (s.finishCore c charge) := by
  have hw := (written_leaveWork s c r).calm.sameQueues.trans (sameQueues_freeCore (s.leaveWork c r) c r charge)
  have hn : (((s.leaveWork c r).freeCore c r charge).core c).running = none := by
    rw [freeCore_core, State.modCore_same]
  cases hs : s.spanFor r.x c r.cmd.eval with
  | some sp =>
    rw [finishCore_of_span charge hr hs, endUpdate_of_ne s r hu, holdEnd_core]
    exact ⟨hn, hw.trans (sameQueues_holdEnd _ c sp r charge)⟩
  | none =>
    rw [finishCore_of_noSpan charge hr hs, endUpdate_of_ne s r hu, (reportEnd_core _ c c r charge).1]
    exact ⟨hn, hw.trans (sameQueues_reportEnd _ c r charge)⟩

omit hu in
/-- Inside a span the end is held. -/
theorem finishCore_held {sp : Span} (hs : s.spanFor r.x c r.cmd.eval = some sp) :
    ∃ n, ((s.finishCore c charge).core c).span = some (sp.hold r charge n) := by
  rw [finishCore_of_span charge hr hs, holdEnd_core]
  exact ⟨_, rfl⟩

/-- Outside spans it is reported. -/
theorem finishCore_reported (hs : s.spanFor r.x c r.cmd.eval = none) (ha : (s.ctx r.x).state = .active)
    (hd : r.cmd.notify = true ∨ r.out.failed = true ∨ r.out.reason ≠ 0) :
    Reported (s.finishCore c charge) r.x r.cmd r.out := by
  rw [finishCore_of_noSpan charge hr hs, endUpdate_of_ne s r hu]
  refine reportEnd_reported _ c r charge ?_ hd
  rw [(chores_freeCore _ c r charge).state, (written_leaveWork s c r).calm.state]
  exact ha

/-- Outside spans a command that completes is counted (R345). -/
theorem finishCore_counts (hs : s.spanFor r.x c r.cmd.eval = none) (hf : r.out.failed = false) :
    ((s.finishCore c charge).cc r.x c).actual = satAdd (s.cc r.x c).actual charge ∧
      ((s.finishCore c charge).cc r.x c).solo = satAdd (s.cc r.x c).solo r.cmd.est := by
  rw [finishCore_of_noSpan charge hr hs, endUpdate_of_ne s r hu]
  have h := reportEnd_counts ((s.leaveWork c r).freeCore c r charge) c r charge hf
  rw [freeCore_cc, (slices_chargeSlice (s.leaveWork c r) r.x c charge).cc r.x c, (written_leaveWork s c r).cc] at h
  exact h

/-- But for an MMB, it is a chore of its context. -/
theorem chores_finishCore (hm : r.cmd.op ≠ 0x11) : Chores r.x s (s.finishCore c charge) := by
  have hf := chores_freeCore s c r charge
  cases hs : s.spanFor r.x c r.cmd.eval with
  | some sp =>
    rw [finishCore_of_span charge hr hs, endUpdate_of_ne s r hu, leaveWork_of_ne s c r hm]
    exact hf.trans (chores_holdEnd _ c sp r charge)
  | none =>
    rw [finishCore_of_noSpan charge hr hs, endUpdate_of_ne s r hu, leaveWork_of_ne s c r hm]
    exact hf.trans (chores_reportEnd _ c r charge)

end

/-! ## The end of a run of a fabric or memory queue -/

/-- The runs of a context without those of a number. -/
def Ctx.dropRun (k : Ctx) (id : Nat) : Ctx :=
  { k with fabricRun := k.fabricRun.filter (fun q => q.id != id), memoryRun := k.memoryRun.filter (fun q => q.id != id) }

theorem finishRun_eq (s : State) (r : Run) : s.finishRun r = ((r.claims.foldl (fun s k => s.release r.x k r.out.failed)
    (s.modCtx r.x (·.dropRun r.id))).report r.x r.cmd r.out) := rfl

/-- Once a run has left its context, its end is bookkeeping. -/
theorem tidy_finishRun (s : State) (r : Run) : Tidy r.x (s.modCtx r.x (·.dropRun r.id)) (s.finishRun r) := by
  rw [finishRun_eq]
  exact (tidy_releases _ r.x r.claims r.out.failed).trans (tidy_report _ _ _ _)

theorem finishRun_reported (s : State) (r : Run) (ha : (s.ctx r.x).state = .active)
    (hd : r.cmd.notify = true ∨ r.out.failed = true ∨ r.out.reason ≠ 0) : Reported (s.finishRun r) r.x r.cmd r.out := by
  rw [finishRun_eq]
  refine reported_report _ r.x r.cmd r.out ?_ hd
  rw [(tidy_releases _ r.x r.claims r.out.failed).chores.state, State.modCtx_same]
  exact ha

theorem chores_dropRun (s : State) (x : Fin 16) (id : Nat) : Chores x s (s.modCtx x (·.dropRun id)) := by
  refine ⟨⟨rfl, fun y hy => by rw [State.modCtx_other s x y _ hy]⟩, ?_, ?_, ?_, ?_, fun d => ?_⟩
  · rw [State.modCtx_same]; rfl
  · rw [State.modCtx_same]; rfl
  · rw [State.modCtx_same]; rfl
  · rw [State.modCtx_same]; rfl
  · simp only [State.cc]
    rw [State.modCtx_same]; rfl

theorem chores_finishRun (s : State) (r : Run) : Chores r.x s (s.finishRun r) :=
  (chores_dropRun s r.x r.id).trans (tidy_finishRun s r).chores

/-- The queues stay, and the runs of the number are gone. -/
theorem finishRun_ctx (s : State) (r : Run) : ((s.finishRun r).ctx r.x).fabric = (s.ctx r.x).fabric ∧
    ((s.finishRun r).ctx r.x).memory = (s.ctx r.x).memory ∧
    ((s.finishRun r).ctx r.x).fabricRun = (s.ctx r.x).fabricRun.filter (fun q => q.id != r.id) ∧
    ((s.finishRun r).ctx r.x).memoryRun = (s.ctx r.x).memoryRun.filter (fun q => q.id != r.id) := by
  rw [(tidy_finishRun s r).own, State.modCtx_same]
  exact ⟨rfl, rfl, rfl, rfl⟩

/-! ## The end at dispatch -/

section
variable {s t : State} {q : QRef} {r r' : Run} (h : Standing s t q r r') (hx : r'.x = r.x) (hc : r'.cmd = r.cmd)
  (hop : 0x60 ≤ r.cmd.op)
include h hx hc hop

/-- A run that ends in the step of its dispatch is gone, and its queue holds what it held behind it. -/
theorem finished_finishNow (hi : r'.id = r.id) : Finished s (t.finishNow q r) q r := by
  cases q with
  | core c =>
    obtain ⟨hr, ev, hh, hm, he⟩ := h
    have hu : r'.cmd.op ≠ 0x30 := by rw [hc]; omega
    obtain ⟨h1, h2⟩ := finishCore_free 0 hr hu
    have hs := (slices_schedule (t.finishCore c 0) c).calm
    have h3 := hs.sameQueues r.x c
    refine ⟨?_, ev, hh, ?_, ?_⟩
    · exact (congrArg CoreS.running (hs.core c)).trans h1
    · exact (h3.1.trans (h2 r.x c).1).trans hm
    · exact (h3.2.trans (h2 r.x c).2).trans he
  | fabric x =>
    obtain ⟨rfl, hh, hq, hr, hf⟩ := h
    have e : t.finishNow (.fabric r.x) r = t.finishRun r' := by simp only [State.finishNow, hf]
    obtain ⟨h1, -, h2, -⟩ := finishRun_ctx t r'
    rw [hx] at h1 h2
    rw [hi] at h2
    rw [e]
    exact ⟨rfl, hh, h1.trans hq, h2.trans hr⟩
  | memory x =>
    obtain ⟨rfl, hh, hq, hr, hf⟩ := h
    have e : t.finishNow (.memory r.x) r = t.finishRun r' := by simp only [State.finishNow, hf]
    obtain ⟨-, h1, -, h2⟩ := finishRun_ctx t r'
    rw [hx] at h1 h2
    rw [hi] at h2
    rw [e]
    exact ⟨rfl, hh, h1.trans hq, h2.trans hr⟩

/-- Outside spans it is reported, if it asks for an entry or ends with a reason. -/
theorem reported_finishNow (ha : (t.ctx r.x).state = .active) (hs : t.inSpan q r = false)
    (hd : r.cmd.notify = true ∨ r'.out.failed = true ∨ r'.out.reason ≠ 0) :
    Reported (t.finishNow q r) r.x r.cmd r'.out := by
  rw [← hx] at ha ⊢
  rw [← hc] at hd hop ⊢
  cases q with
  | core c =>
    obtain ⟨hr, -⟩ := h
    have hu : r'.cmd.op ≠ 0x30 := by omega
    have hsp : t.spanFor r'.x c r'.cmd.eval = none := by
      rw [hx, hc]
      simpa [State.inSpan] using hs
    exact (finishCore_reported 0 hr hu hsp ha hd).mono ((slices_schedule _ c).calm.formed r'.x)
  | fabric x =>
    obtain ⟨-, -, -, -, hf⟩ := h
    simp only [State.finishNow, hf]
    exact finishRun_reported t r' ha hd
  | memory x =>
    obtain ⟨-, -, -, -, hf⟩ := h
    simp only [State.finishNow, hf]
    exact finishRun_reported t r' ha hd

theorem chores_finishNow : Chores r.x t (t.finishNow q r) := by
  rw [← hx]
  cases q with
  | core c =>
    obtain ⟨hr, -⟩ := h
    have hu : r'.cmd.op ≠ 0x30 := by rw [hc]; omega
    have hm : r'.cmd.op ≠ 0x11 := by rw [hc]; omega
    exact (chores_finishCore 0 hr hu hm).trans ((slices_schedule _ c).chores r'.x)
  | fabric x =>
    obtain ⟨-, -, -, -, hf⟩ := h
    simp only [State.finishNow, hf]
    exact chores_finishRun t r'
  | memory x =>
    obtain ⟨-, -, -, -, hf⟩ := h
    simp only [State.finishNow, hf]
    exact chores_finishRun t r'

end

/-! # How a command leaves its queue (13, R328, R329; 07, R176). -/

/-- A run has taken the next number. -/
def State.numbered (s : State) : State := { s with hub := { s.hub with nextRun := s.hub.nextRun + 1 } }

theorem chores_numbered {x : Fin 16} {s t : State} (h : Chores x s t) : Chores x s.numbered t.numbered := by
  refine ⟨⟨?_, h.others⟩, h.state, h.tokens, h.almanac, h.scales, h.hint⟩
  have := h.rest
  unfold State.numbered
  rw [this]

theorem calm_numbered (s : State) : Calm s s.numbered := ⟨fun _ => rfl, fun _ => List.prefix_rfl, fun _ _ => rfl, fun _ => rfl⟩

/-- What a dispatch gives: a run of the next number, whose context is ACTIVE and whose token has come if it waits for one. -/
structure Dispatched (s : State) (q : QRef) (s1 : State) (r : Run) : Prop where
  chores : Chores r.x s.numbered s1
  out : r.out = Done.ok
  active : (s.ctx r.x).state = .active
  token : isForm 0x60 1 r.cmd = true → s.fenceHolds r.x r.cmd.desc = true
  standing : Standing s s1 q r r

/-! ## Core queues -/

theorem tidy_claims (x : Fin 16) (s : State) (cs : List Claim) : Tidy x s (cs.foldl (fun s k => s.claim x k) s) :=
  tidy_foldl x _ cs (fun s k => tidy_claim s x k) s

/-- Commands from operation 0x60 on advance no layer plan. -/
theorem layerOffset_none (op : Nat) (h : 0x60 ≤ op) : layerOffset op = none := by
  unfold layerOffset
  split
  case h_7 => rfl
  all_goals omega

theorem layerAdvance_of_none (s : State) (x : Fin 16) (cmd : Cmd) (h : 0x60 ≤ cmd.op) : s.layerAdvance x cmd = s := by
  unfold State.layerAdvance
  rw [layerOffset_none (byteAt cmd.desc 0) h]
  cases (s.ctx x).plan <;> rfl

/-- A dispatch to a core is that of the head command of the scheduler's pick. -/
theorem dispatchCore_inv {s s1 : State} {c : Fin 4} {isOp : Cmd → Bool} {r : Run}
    (h : s.dispatchCore c isOp = some (s1, r)) : ∃ x cmd ev, (s.schedule c).2 = some x ∧
      ((s.schedule c).1.cc x c).head = some (cmd, ev) ∧ isOp cmd = true ∧ (s.schedule c).1.startRun x c ev cmd = (s1, r) := by
  unfold State.dispatchCore at h
  split at h
  · cases h
  · split at h
    · cases h
    · rename_i u x hs
      split at h
      · cases h
      · rename_i cmd ev hh
        split at h
        · rename_i ho
          exact ⟨x, cmd, ev, by rw [hs], by rw [hs]; exact hh, ho, by rw [hs]; exact Option.some.inj h⟩
        · cases h

theorem chores_popHead (s : State) (x : Fin 16) (c : Fin 4) (ev : Bool) : Chores x s (s.popHead x c ev) :=
  chores_modCC s x c _ (fun k => by split <;> rfl)

theorem popHead_queues (s : State) (x : Fin 16) (c : Fin 4) (ev : Bool) :
    ((s.popHead x c ev).cc x c).main = (if ev then (s.cc x c).main else (s.cc x c).main.tail) ∧
      ((s.popHead x c ev).cc x c).eval = (if ev then (s.cc x c).eval.tail else (s.cc x c).eval) := by
  rw [State.popHead, State.modCC_same]
  cases ev <;> exact ⟨rfl, rfl⟩

/-- A command that starts on a core leaves its queue, and runs there under the next number. -/
theorem startRun_spec (s : State) (x : Fin 16) (c : Fin 4) (ev : Bool) (cmd : Cmd) (hop : 0x60 ≤ cmd.op) {s1 : State} {r : Run}
    (h : s.startRun x c ev cmd = (s1, r)) : r = newRun s x cmd (s.claimsOf x cmd) ∧
      Chores x s.numbered s1 ∧ (s1.core c).running = some r ∧
      (s1.cc x c).main = (if ev then (s.cc x c).main else (s.cc x c).main.tail) ∧
      (s1.cc x c).eval = (if ev then (s.cc x c).eval.tail else (s.cc x c).eval) := by
  unfold State.startRun at h
  dsimp only at h
  rw [layerAdvance_of_none _ x cmd hop] at h
  cases h
  have hc := tidy_claims x (s.popHead x c ev) ((s.claimsOf x cmd).filter (fun k => !(s.madeClaims x (some c)).contains k))
  have hq := hc.calm.sameQueues x c
  have hp := popHead_queues s x c ev
  refine ⟨rfl, (chores_numbered ((chores_popHead s x c ev).trans hc.chores)).trans (chores_of_ctxs x rfl rfl), ?_, ?_, ?_⟩
  · rw [State.modCore_same]
  · exact hq.1.trans hp.1
  · exact hq.2.trans hp.2

theorem dispatched_core {s s1 : State} {c : Fin 4} {isOp : Cmd → Bool} {r : Run}
    (h : s.dispatchCore c isOp = some (s1, r)) (hop : 0x60 ≤ r.cmd.op) : Dispatched s (.core c) s1 r := by
  obtain ⟨x, cmd, ev, hx, hh, -, hs⟩ := dispatchCore_inv h
  have hr : r = newRun (s.schedule c).1 x cmd ((s.schedule c).1.claimsOf x cmd) := (congrArg Prod.snd hs).symm
  have hop' : 0x60 ≤ cmd.op := by rw [hr] at hop; exact hop
  obtain ⟨-, hc, hrun, hm, he⟩ := startRun_spec _ x c ev cmd hop' hs
  have hl := slices_schedule s c
  rw [hl.head x c] at hh
  obtain ⟨ha, hf⟩ := schedule_pick s c x hx
  have hq := hl.calm.sameQueues x c
  rw [hq.1] at hm
  rw [hq.2] at he
  subst hr
  exact ⟨(chores_numbered (hl.chores x)).trans hc, rfl, ha, hf cmd ev hh, hrun, ev, hh, hm, he⟩

/-! ## Fabric and memory queues -/

/-- A command of context x leaves a fabric or memory queue: its context is as the queue leaves it, and its claims are made. -/
def State.enterQueue (s : State) (x : Fin 16) (cmd : Cmd) (f : Ctx → Ctx) : State :=
  ((s.claimsOf x cmd).foldl (fun s k => s.claim x k) (s.modCtx x f)).numbered

/-- The run of a command that enters from a fabric or memory queue. -/
def State.entering (s : State) (x : Fin 16) (cmd : Cmd) : Run := newRun s x cmd (s.claimsOf x cmd)

theorem dispatchFabric_inv {s s1 : State} {x : Fin 16} {isOp : Cmd → Bool} {r : Run}
    (h : s.dispatchFabric x isOp = some (s1, r)) : ∃ cmd rest, (s.ctx x).fabric = cmd :: rest ∧ isOp cmd = true ∧
      s.eligible x none false cmd = true ∧ r = s.entering x cmd ∧ s1 = s.enterQueue x cmd (fun k => { k with
        fabric := rest, fabricWait := 0, fabricStarve := 0, fabricRun := k.fabricRun ++ [s.entering x cmd] }) := by
  unfold State.dispatchFabric at h
  split at h
  · cases h
  · rename_i cmd rest hq
    split at h
    · cases h
    · rename_i hn
      cases h
      simp only [Bool.or_eq_true, Bool.not_eq_true', not_or, Bool.not_eq_false] at hn
      exact ⟨cmd, rest, hq, hn.1.1, hn.2, rfl, rfl⟩

theorem dispatchMemory_inv {s s1 : State} {x : Fin 16} {isOp : Cmd → Bool} {r : Run}
    (h : s.dispatchMemory x isOp = some (s1, r)) : ∃ cmd rest, (s.ctx x).memory = cmd :: rest ∧ isOp cmd = true ∧
      s.eligible x none false cmd = true ∧ r = s.entering x cmd ∧ s1 = s.enterQueue x cmd (fun k => { k with
        memory := rest, memoryWait := 0, memoryRun := k.memoryRun ++ [s.entering x cmd] }) := by
  unfold State.dispatchMemory at h
  split at h
  · cases h
  · rename_i cmd rest hq
    split at h
    · cases h
    · rename_i hn
      cases h
      simp only [Bool.or_eq_true, Bool.not_eq_true', not_or, Bool.not_eq_false] at hn
      exact ⟨cmd, rest, hq, hn.1.1, hn.2, rfl, rfl⟩

section
variable (s : State) (x : Fin 16) (cmd : Cmd) (f : Ctx → Ctx)

theorem enterQueue_calm : Calm (s.modCtx x f) (s.enterQueue x cmd f) :=
  (tidy_claims x (s.modCtx x f) (s.claimsOf x cmd)).calm.trans (calm_numbered _)

/-- A queue that lets a command go keeps all else of its context. -/
theorem chores_enterQueue (hf : ∀ k, (f k).state = k.state ∧ (f k).tokens = k.tokens ∧ (f k).almanac = k.almanac ∧
    (f k).scales = k.scales ∧ (f k).cores = k.cores) : Chores x s.numbered (s.enterQueue x cmd f) := by
  obtain ⟨h1, h2, h3, h4, h5⟩ := hf (s.ctx x)
  have hm : Chores x s (s.modCtx x f) := by
    refine ⟨⟨rfl, fun y hy => by rw [State.modCtx_other s x y f hy]⟩, ?_, ?_, ?_, ?_, fun d => ?_⟩
    · rw [State.modCtx_same, h1]
    · rw [State.modCtx_same, h2]
    · rw [State.modCtx_same, h3]
    · rw [State.modCtx_same, h4]
    · simp only [State.cc, State.modCtx_same, h5]
  exact chores_numbered (hm.trans (tidy_claims x _ (s.claimsOf x cmd)).chores)

end

/-- The run that enters under the next number is found by it. -/
theorem findRun_enterQueue (s : State) (x : Fin 16) (cmd : Cmd) (f : Ctx → Ctx) (hn : RunsNumbered s)
    (hf : ∀ k, k ∈ (f (s.ctx x)).fabricRun ++ (f (s.ctx x)).memoryRun ↔
      k ∈ (s.ctx x).fabricRun ++ (s.ctx x).memoryRun ∨ k = s.entering x cmd) :
    (s.enterQueue x cmd f).findRun (s.entering x cmd).id = some (s.entering x cmd) := by
  obtain ⟨hcore, hruns, -⟩ := hn
  have hid : (s.entering x cmd).id = s.hub.nextRun := rfl
  rw [(enterQueue_calm s x cmd f).findRun]
  refine findRun_of _ _ x (fun c k hk => ?_) ?_ (fun y k hk e => ?_)
  · have := hcore c k hk
    omega
  · rw [State.modCtx_same]
    exact (hf _).2 (.inr rfl)
  · by_cases hy : y = x
    · subst hy
      rw [State.modCtx_same] at hk
      rcases (hf k).1 hk with h | h
      · have := hruns y k h
        omega
      · exact h
    · rw [State.modCtx_other s x y f hy] at hk
      have := hruns y k hk
      omega

/-- Of runs below a number, and one of that number, the filter by it leaves the former. -/
theorem filter_entering (l : List Run) (r : Run) (h : ∀ k ∈ l, k.id < r.id) :
    (l ++ [r]).filter (fun k => k.id != r.id) = l := by
  rw [List.filter_append, List.filter_eq_self.2 (fun k hk => by have := h k hk; simp; omega)]
  simp

theorem dispatched_fabric {s s1 : State} {x : Fin 16} {isOp : Cmd → Bool} {r : Run} (hn : RunsNumbered s)
    (h : s.dispatchFabric x isOp = some (s1, r)) : Dispatched s (.fabric x) s1 r := by
  obtain ⟨cmd, rest, hq, -, he, rfl, rfl⟩ := dispatchFabric_inv h
  refine ⟨chores_enterQueue s x cmd _ (fun _ => ⟨rfl, rfl, rfl, rfl, rfl⟩), rfl,
    active_of_eligible he, fenceHolds_of_eligible he, rfl, by rw [hq]; rfl, ?_, ?_, ?_⟩
  · rw [(enterQueue_calm s x cmd _).ctx x, State.modCtx_same, hq]; rfl
  · rw [(enterQueue_calm s x cmd _).ctx x, State.modCtx_same]
    exact filter_entering _ _ (fun k hk => hn.2.1 x k (List.mem_append_left _ hk))
  · refine findRun_enterQueue s x cmd _ hn (fun k => ?_)
    simp only [List.mem_append, List.mem_singleton]
    tauto

theorem dispatched_memory {s s1 : State} {x : Fin 16} {isOp : Cmd → Bool} {r : Run} (hn : RunsNumbered s)
    (h : s.dispatchMemory x isOp = some (s1, r)) : Dispatched s (.memory x) s1 r := by
  obtain ⟨cmd, rest, hq, -, he, rfl, rfl⟩ := dispatchMemory_inv h
  refine ⟨chores_enterQueue s x cmd _ (fun _ => ⟨rfl, rfl, rfl, rfl, rfl⟩), rfl,
    active_of_eligible he, fenceHolds_of_eligible he, rfl, by rw [hq]; rfl, ?_, ?_, ?_⟩
  · rw [(enterQueue_calm s x cmd _).ctx x, State.modCtx_same, hq]; rfl
  · rw [(enterQueue_calm s x cmd _).ctx x, State.modCtx_same]
    exact filter_entering _ _ (fun k hk => hn.2.1 x k (List.mem_append_right _ hk))
  · refine findRun_enterQueue s x cmd _ hn (fun k => ?_)
    simp only [List.mem_append, List.mem_singleton]
    tauto

/-! ## Any queue -/

theorem dispatchQ_isOp {s s1 : State} {q : QRef} {isOp : Cmd → Bool} {r : Run} (h : s.dispatchQ q isOp = some (s1, r)) :
    isOp r.cmd = true := by
  cases q with
  | core c =>
    obtain ⟨x, cmd, ev, -, -, ho, hs⟩ := dispatchCore_inv h
    have hr : r = newRun (s.schedule c).1 x cmd ((s.schedule c).1.claimsOf x cmd) := (congrArg Prod.snd hs).symm
    rw [hr]; exact ho
  | fabric x =>
    obtain ⟨cmd, rest, -, ho, -, rfl, -⟩ := dispatchFabric_inv h
    exact ho
  | memory x =>
    obtain ⟨cmd, rest, -, ho, -, rfl, -⟩ := dispatchMemory_inv h
    exact ho

theorem dispatched {s s1 : State} {q : QRef} {isOp : Cmd → Bool} {r : Run} (hn : RunsNumbered s)
    (h : s.dispatchQ q isOp = some (s1, r)) (hop : 0x60 ≤ r.cmd.op) : Dispatched s q s1 r := by
  cases q with
  | core c => exact dispatched_core h hop
  | fabric x => exact dispatched_fabric hn h
  | memory x => exact dispatched_memory hn h

/-- Every dispatch is work (13). -/
theorem Dispatched.onlyWork {s s1 : State} {q : QRef} {r : Run} (h : Dispatched s q s1 r) : OnlyWork s s1 := by
  have hr := h.chores.rest
  unfold OnlyWork
  rw [hr]
  rfl

/-! # What commands of the queues do between their dispatch and their end: writes of memory (11, R268, R280), groups (09,
R231, R232), scale records (03, R63, R81), tokens (13, R331) and hints (18, R451). -/

/-! ## Writes of memory -/

theorem written_foldl {α : Type} (f : State → α → State) (l : List α) (h : ∀ s a, Written s (f s a)) (s : State) :
    Written s (l.foldl f s) := frame_foldl Written.refl Written.trans f l (fun s a _ => h s a) s

/-- The same for a fold that carries a state and more. -/
theorem written_foldl_pair {α β : Type} (f : State × β → α → State × β) (l : List α) (h : ∀ r a, Written r.1 (f r a).1)
    (r : State × β) : Written r.1 (l.foldl f r).1 := by
  induction l generalizing r with
  | nil => exact Written.refl r.1
  | cons a l ih => exact (h r a).trans (ih (f r a))

theorem written_post (s : State) (x : Fin 16) (e : Entry) : Written s (s.post x e) := by
  rcases post_cases s x e with h | h <;> rw [h]
  · refine ⟨rfl, fun y => ?_, fun y => ?_, rfl⟩
    · by_cases hy : y = x
      · subst hy; rw [State.modCtx_same]
      · rw [State.modCtx_other s x y _ hy]
    · by_cases hy : y = x
      · subst hy; rw [State.modCtx_same]; exact List.prefix_append _ _
      · rw [State.modCtx_other s x y _ hy]
  · exact Written.refl s

theorem written_deepLowCheck (s : State) (ch : Fin 16) (n : Nat) : Written s (s.deepLowCheck ch n) := by
  unfold State.deepLowCheck
  dsimp only
  split
  · refine Written.trans (t := s.modTiers (fun t => { t with lowArmed := t.lowArmed.set ch false })) (written_of_same rfl rfl rfl)
      (written_foldl _ _ (fun s x => ?_) _)
    split
    · exact written_post _ _ _
    · exact Written.refl _
  · split
    · exact written_of_same rfl rfl rfl
    · exact Written.refl s

theorem written_placeBlock {s t : State} {p j : Nat} {bs : List PByte} (h : s.placeBlock p j bs = some t) : Written s t := by
  have put : ∀ (u : State) g n ch, u.hub = s.hub → u.cores = s.cores → u.tiers = s.tiers →
      Written s ((u.putDeep p j g n bs).deepLowOf ch) := fun u g n ch h1 h2 h3 =>
    Written.trans (t := u.putDeep p j g n bs) (written_of_same (congrArg Hub.ctxs h1) h2
      (congrArg (fun k : Tiers => k.moves.map (·.x)) h3)) (written_deepLowCheck _ _ _)
  unfold State.placeBlock at h
  dsimp only at h
  split at h
  · cases h
    exact put s _ _ _ rfl rfl rfl
  · split at h
    · cases h
    · cases h
      exact put _ _ _ _ rfl rfl rfl

theorem written_writeDeepBlock (s : State) (x : Fin 16) (p j off : Nat) (bs : List PByte) :
    Written s (s.writeDeepBlock x p j off bs) := by
  unfold State.writeDeepBlock
  dsimp only
  split
  · exact written_of_same rfl rfl rfl
  · split
    · rename_i h
      exact written_placeBlock h
    · split
      · exact Written.refl s
      · exact written_of_same rfl rfl rfl

theorem written_writeHome (s : State) (x : Fin 16) (h : Home) (p off : Nat) (bs : List PByte) :
    Written s (s.writeHome x h p off bs) := by
  have stack : ∀ (u : State) n f, Written u (u.modStack n f) := fun _ _ _ => written_of_same rfl rfl rfl
  unfold State.writeHome
  cases h with
  | placed n f => exact written_foldl_pair _ _ (fun r _ => stack r.1 _ _) (s, bs)
  | spread slot => exact written_foldl_pair _ _ (fun r _ => stack r.1 _ _) (s, bs)
  | deep => exact written_foldl _ _ (fun s _ => written_writeDeepBlock s _ _ _ _ _) s

/-- Of the contexts, a write of the unified range changes entries only, and it moves no move to another owner. -/
theorem written_uwrite (s : State) (a : Nat) (bs : List PByte) : Written s (s.uwrite a bs) := by
  unfold State.uwrite
  refine Written.trans (t := s.invalidate a bs.length) (written_of_same rfl rfl rfl) (written_foldl_pair _ _ (fun r q => ?_) (_, bs))
  dsimp only
  split
  · exact Written.refl _
  · split
    · refine written_of_same rfl rfl ?_
      simp only [State.modTiers_tiers, List.map_map]
      refine List.map_congr_left (fun m _ => ?_)
      simp only [Function.comp]
      split <;> rfl
    · exact written_writeHome _ _ _ _ _ _

theorem written_rwrite (s : State) (x : Fin 16) (space : Nat) (c : Fin 4) (a : Nat) (bs : List PByte) :
    Written s (s.rwrite x space c a bs) := by
  unfold State.rwrite
  split
  · exact written_wwrite _ _ _ _ _
  · exact written_uwrite _ _ _

theorem written_poisonRegion (s : State) (x : Fin 16) (c : Fin 4) (r : Region) : Written s (s.poisonRegion x c r) :=
  written_foldl _ _ (fun s _ => written_rwrite s _ _ _ _ _) s

/-! ## Changes of a context's data -/

/-- A change of a context's data that drops no entry changes nothing that is queued or runs. -/
theorem calm_modCtx (s : State) (x : Fin 16) (f : Ctx → Ctx)
    (hf : ∀ k, f k = { k with formed := (f k).formed, lists := (f k).lists, scales := (f k).scales
                              almanac := (f k).almanac, tokens := (f k).tokens })
    (hp : (s.ctx x).formed <+: (f (s.ctx x)).formed) : Calm s (s.modCtx x f) := by
  refine ⟨fun y => ?_, fun y => ?_, fun y d => ?_, fun _ => rfl⟩
  · by_cases hy : y = x
    · subst hy
      rw [State.modCtx_same, hf]
    · rw [State.modCtx_other s x y f hy]
  · by_cases hy : y = x
    · subst hy
      rw [State.modCtx_same]; exact hp
    · rw [State.modCtx_other s x y f hy]
  · by_cases hy : y = x
    · subst hy
      have : (f (s.ctx y)).cores = (s.ctx y).cores := by rw [hf]
      simp only [State.cc, State.modCtx_same, this]
    · simp only [State.cc, State.modCtx_other s x y f hy]

/-- So is a change of hints. -/
theorem calm_hint (s : State) (x : Fin 16) (c : Fin 4) (h : Option Hint) :
    Calm s (s.modCC x c (fun k => { k with hint := h })) := by
  refine ⟨fun y => ?_, fun y => ?_, fun y d => ?_, fun _ => rfl⟩
  · by_cases hy : y = x
    · subst hy
      rw [State.modCC_ctx_same]
    · rw [State.modCC_ctx_other s x y c _ hy]
  · by_cases hy : y = x
    · subst hy
      rw [State.modCC_ctx_same]
    · rw [State.modCC_ctx_other s x y c _ hy]
  · by_cases hy : y = x
    · subst hy
      by_cases hd : d = c
      · subst hd
        rw [State.modCC_same]
      · rw [State.modCC_other_core s y y c d _ hd]
    · rw [State.modCC_other_ctx s x y c d _ hy]

/-! ## Association lists -/

/-- Looking a key up after writing one. -/
theorem alookup_ainsert {β : Type} (k j : Nat) (v : β) (l : List (Nat × β)) :
    alookup j (ainsert k v l) = if j = k then some v else alookup j l := by
  induction l with
  | nil =>
    simp only [ainsert, alookup, eq_comm]
  | cons p r ih =>
    obtain ⟨k', v'⟩ := p
    unfold ainsert
    by_cases h1 : k < k'
    · rw [if_pos h1]
      simp only [alookup, eq_comm]
    · rw [if_neg h1]
      by_cases h2 : k = k'
      · subst h2
        rw [if_pos rfl]
        simp only [alookup]
        by_cases hj : k = j
        · simp [hj]
        · simp [hj, Ne.symm hj]
      · rw [if_neg h2]
        simp only [alookup, ih]
        by_cases hj : k' = j
        · subst hj
          simp [Ne.symm h2]
        · simp [hj]

/-! ## Groups (09, R231, R232) -/

theorem almEntry_congr {s t : State} {x : Fin 16} (h : (t.ctx x).almanac = (s.ctx x).almanac) (g : Nat) :
    t.almEntry x g = s.almEntry x g := by
  simp only [State.almEntry, h]

/-- A held entry lies in an almanac in force. -/
theorem almEntry_some {s : State} {x : Fin 16} {g : Nat} {e : List Byte} (h : s.almEntry x g = some e) :
    ∃ a, (s.ctx x).almanac = some a ∧ alookup g a.entries = some e := by
  unfold State.almEntry at h
  split at h
  · cases h
  · rename_i a ha
    exact ⟨a, ha, h⟩

/-- Writing bytes of a held entry writes them in the almanac and in memory. -/
theorem putAlm_eq {s : State} {x : Fin 16} {g : Nat} {e : List Byte} (off : Nat) (bs : List Byte)
    (h : s.almEntry x g = some e) : ∃ a : Almanac, s.putAlm x g off bs =
      (s.modCtx x (fun k => { k with almanac := some { a with entries := ainsert g (putBytes e off bs) a.entries } })).uwrite
        (a.base + 256 * g + off) (bs.map (fun b => ⟨b, false⟩)) := by
  obtain ⟨a, ha, he⟩ := almEntry_some h
  refine ⟨a, ?_⟩
  unfold State.putAlm
  simp only [ha, he]

theorem almEntry_putAlm {s : State} {x : Fin 16} {g : Nat} {e : List Byte} (off : Nat) (bs : List Byte)
    (h : s.almEntry x g = some e) : (s.putAlm x g off bs).almEntry x g = some (putBytes e off bs) := by
  obtain ⟨a, ha⟩ := putAlm_eq off bs h
  rw [ha, State.almEntry, (written_uwrite _ _ _).ctx x, State.modCtx_same]
  simp [alookup_ainsert]

theorem calm_putAlm {s : State} {x : Fin 16} {g : Nat} {e : List Byte} (off : Nat) (bs : List Byte)
    (h : s.almEntry x g = some e) : Calm s (s.putAlm x g off bs) := by
  obtain ⟨a, ha⟩ := putAlm_eq off bs h
  rw [ha]
  exact (calm_modCtx s x _ (fun _ => rfl) List.prefix_rfl).trans (written_uwrite _ _ _).calm

/-! ## Scale records (03, R63, R81) -/

theorem scaleRec_congr {s t : State} {x : Fin 16} (h : (t.ctx x).scales = (s.ctx x).scales) (j : Nat) :
    t.scaleRec x j = s.scaleRec x j := by
  simp only [State.scaleRec, h]

theorem scaleRec_setScaleRec (s : State) (x : Fin 16) (i j : Nat) (r : ScaleRec) :
    (s.setScaleRec x i r).scaleRec x j = if j = i then r else s.scaleRec x j := by
  simp only [State.scaleRec, State.setScaleRec, State.modCtx_same, alookup_ainsert]
  split <;> rfl

/-- A roll gives its record the next step and leaves every other. -/
theorem scaleRec_rollRec (s : State) (x : Fin 16) (i j : Nat) (step : W32) :
    (s.rollRec x i step).scaleRec x j = if j = i then ((s.scaleRec x i).roll step).1 else s.scaleRec x j := by
  unfold State.rollRec
  dsimp only
  split
  · exact scaleRec_setScaleRec s x i j _
  · rw [scaleRec_congr (tidy_post _ x _).chores.scales]
    exact scaleRec_setScaleRec s x i j _

theorem calm_rollRec (s : State) (x : Fin 16) (i : Nat) (step : W32) : Calm s (s.rollRec x i step) := by
  have h : ∀ r, Calm s (s.setScaleRec x i r) := fun r => calm_modCtx s x _ (fun _ => rfl) List.prefix_rfl
  unfold State.rollRec
  dsimp only
  split
  · exact h _
  · exact (h _).trans (tidy_post _ x _).calm

/-- Rolls leave tiers as they stand. -/
theorem tiers_rollRec (s : State) (x : Fin 16) (i : Nat) (step : W32) : (s.rollRec x i step).tiers = s.tiers := by
  unfold State.rollRec
  dsimp only
  split
  · rfl
  · rw [(tidy_post _ x _).rest]
    rfl

/-- The record that ROLL of a CENSUS leaves of one that it names. -/
def State.closedRec (s : State) (x : Fin 16) (step : W32) (j : Nat) : ScaleRec :=
  if (s.scaleRec x j).started && (s.scaleRec x j).sCur == step then ((s.scaleRec x j).roll (step + 1)).1 else s.scaleRec x j

theorem closedRec_congr {s t : State} {x : Fin 16} {j : Nat} (h : t.scaleRec x j = s.scaleRec x j) (step : W32) :
    t.closedRec x step j = s.closedRec x step j := by
  simp only [State.closedRec, h]

/-- ROLL of a CENSUS on one record. -/
def State.closeOne (s : State) (x : Fin 16) (step : W32) (i : Nat) : State :=
  if (s.scaleRec x i).started && (s.scaleRec x i).sCur == step then s.rollRec x i (step + 1) else s

theorem scaleRec_closeOne (s : State) (x : Fin 16) (step : W32) (i j : Nat) :
    (s.closeOne x step i).scaleRec x j = if j = i then s.closedRec x step i else s.scaleRec x j := by
  unfold State.closeOne State.closedRec
  split
  · exact scaleRec_rollRec s x i j (step + 1)
  · by_cases h : j = i
    · rw [if_pos h, h]
    · rw [if_neg h]

theorem censusClose_succ (s : State) (x : Fin 16) (first n : Nat) (step : W32) :
    s.censusClose x first (n + 1) step = (s.censusClose x first n step).closeOne x step (first + n) := by
  unfold State.censusClose
  rw [List.range_succ, List.foldl_append]
  rfl

/-- ROLL of a CENSUS rolls the started records of its range that stand at its step, each once. -/
theorem scaleRec_censusClose (s : State) (x : Fin 16) (first count : Nat) (step : W32) (j : Nat) :
    (s.censusClose x first count step).scaleRec x j =
      if first ≤ j ∧ j < first + count then s.closedRec x step j else s.scaleRec x j := by
  induction count generalizing j with
  | zero =>
    rw [if_neg (by omega)]
    rfl
  | succ n ih =>
    rw [censusClose_succ, scaleRec_closeOne]
    by_cases hj : j = first + n
    · subst hj
      have hn := ih (first + n)
      rw [if_neg (by omega)] at hn
      rw [if_pos rfl, if_pos (by omega), closedRec_congr hn]
    · have hr : (first ≤ j ∧ j < first + (n + 1)) ↔ (first ≤ j ∧ j < first + n) := by omega
      rw [if_neg hj, ih j]
      simp only [hr]

theorem closeOne_frame (s : State) (x : Fin 16) (step : W32) (i : Nat) :
    Calm s (s.closeOne x step i) ∧ (s.closeOne x step i).tiers = s.tiers := by
  unfold State.closeOne
  split
  · exact ⟨calm_rollRec s x i _, tiers_rollRec s x i _⟩
  · exact ⟨Calm.refl s, rfl⟩

/-- ROLL of a CENSUS leaves what is queued or runs, and the tiers. -/
theorem censusClose_frame (s : State) (x : Fin 16) (first count : Nat) (step : W32) :
    Calm s (s.censusClose x first count step) ∧ (s.censusClose x first count step).tiers = s.tiers := by
  induction count with
  | zero => exact ⟨Calm.refl s, rfl⟩
  | succ n ih =>
    obtain ⟨h1, h2⟩ := closeOne_frame (s.censusClose x first n step) x step (first + n)
    rw [censusClose_succ]
    exact ⟨ih.1.trans h1, h2.trans ih.2⟩

theorem onlyWork_censusClose (s : State) (x : Fin 16) (first count : Nat) (step : W32) :
    OnlyWork s (s.censusClose x first count step) := by
  refine onlyWork_foldl _ (fun s i => ?_) _ s
  dsimp only
  split
  · exact onlyWork_rollRec _ _ _ _
  · exact OnlyWork.refl s

/-- COPY of a CENSUS writes memory. -/
theorem written_censusCopy (s : State) (x : Fin 16) (first count dest : Nat) : Written s (s.censusCopy x first count dest) :=
  written_foldl _ _ (fun s _ => written_uwrite s _ _) s

theorem onlyWork_censusCopy (s : State) (x : Fin 16) (first count dest : Nat) :
    OnlyWork s (s.censusCopy x first count dest) := onlyWork_foldl _ (fun s _ => onlyWork_uwrite s _ _) _ s

/-! ## Tokens (13, R331) -/

theorem calm_signal (s : State) (x : Fin 16) (q : Nat) (cmd : Cmd) : Calm s (s.signal x q cmd) := by
  have h : Calm s (s.addToken x (byteAt cmd.desc 2)) := calm_modCtx s x _ (fun _ => rfl) List.prefix_rfl
  unfold State.signal
  dsimp only
  split
  · exact h.trans (tidy_stepBoundary _ x _).calm
  · exact h

/-- A signal changes its context only, and adds one to its token. -/
theorem signal_spec (s : State) (x : Fin 16) (q : Nat) (cmd : Cmd) : OnlyCtx x s (s.signal x q cmd) ∧
    ((s.signal x q cmd).ctx x).tokens = vmod (s.ctx x).tokens (ix 256 (byteAt cmd.desc 2)) (· + 1) := by
  have h1 : OnlyCtx x s (s.addToken x (byteAt cmd.desc 2)) := ⟨rfl, fun y hy => State.modCtx_other s x y _ hy⟩
  have h2 : ((s.addToken x (byteAt cmd.desc 2)).ctx x).tokens =
      vmod (s.ctx x).tokens (ix 256 (byteAt cmd.desc 2)) (· + 1) := by
    rw [State.addToken, State.modCtx_same]
  unfold State.signal
  dsimp only
  split
  · have hb := tidy_stepBoundary (s.addToken x (byteAt cmd.desc 2)) x (ix 4 q)
    exact ⟨⟨rfl, fun y hy => (hb.others y hy).trans (h1.2 y hy)⟩, hb.chores.tokens.trans h2⟩
  · exact ⟨h1, h2⟩

/-! ## Hints (18, R451) -/

/-- A hint replaces that of its context on every core it names. -/
def State.giveHints (s : State) (x : Fin 16) (cs : List (Fin 4)) (h : Hint) : State :=
  cs.foldl (fun s c => s.modCC x c (fun k => { k with hint := some h })) s

theorem calm_giveHints (s : State) (x : Fin 16) (cs : List (Fin 4)) (h : Hint) : Calm s (s.giveHints x cs h) :=
  frame_foldl Calm.refl Calm.trans _ cs (fun s c _ => calm_hint s x c (some h)) s

/-- It changes its context only, and leaves tokens. -/
theorem giveHints_frame (s : State) (x : Fin 16) (cs : List (Fin 4)) (h : Hint) : OnlyCtx x s (s.giveHints x cs h) ∧
    ((s.giveHints x cs h).ctx x).tokens = (s.ctx x).tokens := by
  induction cs generalizing s with
  | nil => exact ⟨⟨rfl, fun _ _ => rfl⟩, rfl⟩
  | cons c cs ih =>
    obtain ⟨⟨h1, h2⟩, h3⟩ := ih (s.modCC x c (fun k => { k with hint := some h }))
    refine ⟨⟨h1, fun y hy => (h2 y hy).trans (State.modCC_ctx_other s x y c _ hy)⟩, h3.trans ?_⟩
    rw [State.modCC_ctx_same]

theorem giveHints_hint (s : State) (x : Fin 16) (cs : List (Fin 4)) (h : Hint) (d : Fin 4) :
    ((s.giveHints x cs h).cc x d).hint = if d ∈ cs then some h else (s.cc x d).hint := by
  induction cs generalizing s with
  | nil => rfl
  | cons c cs ih =>
    have := ih (s.modCC x c (fun k => { k with hint := some h }))
    refine this.trans ?_
    by_cases hd : d = c
    · subst hd
      rw [State.modCC_same]
      simp
    · rw [State.modCC_other_core s x x c d _ hd]
      simp [hd]

/-! # COMMAND_COMPLETE (13, R330): the end of a running command, of a faulty span behind it (16, R405, R406), and the report of a
checkpoint (15, R380). -/

/-! ## What the failure of a span leaves of a context's account -/

/-- Entries stay, no command completes, and no core begins one. -/
structure Settles (s t : State) : Prop where
  formed : ∀ y, (s.ctx y).formed <+: (t.ctx y).formed
  actual : ∀ y d, (t.cc y d).actual = (s.cc y d).actual
  solo : ∀ y d, (t.cc y d).solo = (s.cc y d).solo
  idle : ∀ d, (s.core d).running = none → (t.core d).running = none

theorem Settles.refl (s : State) : Settles s s :=
  ⟨fun _ => List.prefix_rfl, fun _ _ => rfl, fun _ _ => rfl, fun _ h => h⟩

theorem Settles.trans {s t u : State} (h : Settles s t) (k : Settles t u) : Settles s u :=
  ⟨fun y => (h.formed y).trans (k.formed y), fun y d => (k.actual y d).trans (h.actual y d),
    fun y d => (k.solo y d).trans (h.solo y d), fun d e => k.idle d (h.idle d e)⟩

theorem Calm.settles {s t : State} (h : Calm s t) : Settles s t :=
  ⟨h.formed, fun y d => by rw [h.cc y d], fun y d => by rw [h.cc y d], fun d e => by rw [h.core d]; exact e⟩

theorem settles_foldl {α : Type} (f : State → α → State) (l : List α) (h : ∀ s a, Settles s (f s a)) (s : State) :
    Settles s (l.foldl f s) := frame_foldl Settles.refl Settles.trans f l (fun s a _ => h s a) s

theorem settles_modCC (s : State) (x : Fin 16) (c : Fin 4) (f : CtxCore → CtxCore)
    (hf : ∀ k, (f k).actual = k.actual ∧ (f k).solo = k.solo) : Settles s (s.modCC x c f) := by
  refine ⟨fun y => ?_, cc_modCC (·.actual) s x c f (fun k => (hf k).1), cc_modCC (·.solo) s x c f (fun k => (hf k).2),
    fun _ h => h⟩
  by_cases hy : y = x
  · subst hy; rw [State.modCC_ctx_same]
  · rw [State.modCC_ctx_other s x y c f hy]

/-- A state with the hub of another, on whose idle cores no run begins, completes nothing. -/
theorem settles_of_hub {s t : State} (h : t.hub = s.hub) (hc : ∀ d, (s.core d).running = none → (t.core d).running = none) :
    Settles s t := by
  have hx : ∀ y, t.ctx y = s.ctx y := fun y => by simp only [State.ctx, h]
  refine ⟨fun y => by rw [hx], fun y d => ?_, fun y d => ?_, hc⟩
  · simp only [State.cc, hx]
  · simp only [State.cc, hx]

/-- So does one with its hub and its cores. -/
theorem settles_of_same {s t : State} (h : t.hub = s.hub) (hc : t.cores = s.cores) : Settles s t :=
  settles_of_hub h (fun d e => by simp only [State.core, hc] at e ⊢; exact e)

theorem settles_modCore (s : State) (c : Fin 4) (f : CoreS → CoreS) (hf : ∀ k, k.running = none → (f k).running = none) :
    Settles s (s.modCore c f) := by
  refine settles_of_hub rfl (fun d h => ?_)
  by_cases hd : d = c
  · subst hd; rw [State.modCore_same]; exact hf _ h
  · rw [State.modCore_other s c d f hd]; exact h

/-- A failed command counts neither as completed nor with its estimate. -/
theorem settles_countFailed (s : State) (x : Fin 16) (c : Fin 4) (cmd : Cmd) (charge : Nat) :
    Settles s (s.modCC x c (·.countRun cmd true charge)) := by
  refine settles_modCC s x c _ (fun k => ?_)
  simp only [CtxCore.countRun, if_true]
  split <;> exact ⟨rfl, rfl⟩

theorem settles_stopIssue (s : State) (c : Fin 4) : Settles s (s.stopIssue c) := by
  have hn : Settles s (s.noteIssues c) := by
    rw [noteIssues_rest]
    exact settles_of_same rfl rfl
  have hc : Settles (s.noteIssues c) ((s.noteIssues c).modCore c (fun k => { k with issuing := [] })) :=
    settles_modCore _ c _ (fun _ h => h)
  exact (hn.trans hc).trans (settles_of_same rfl rfl)

theorem settles_stopSpanRun (s : State) (c : Fin 4) (r : Run) : Settles s (s.stopSpanRun c r) := by
  have h := (settles_stopIssue s c).trans
    (settles_modCore (s.stopIssue c) c (fun k => { k with running := none, epi := [] }) (fun _ _ => rfl))
  unfold State.stopSpanRun
  dsimp only [List.foldl_cons, List.foldl_nil]
  generalize (s.stopIssue c).modCore c (fun k => { k with running := none, epi := [] }) = u at h ⊢
  refine Settles.trans ?_ (settles_modCC _ r.x c _ (fun k => ?_))
  · exact h.trans (settles_of_same rfl rfl)
  · simp only [CtxCore.countRun, if_true, CtxCore.chargeSlice]
    split <;> split <;> exact ⟨rfl, rfl⟩

theorem settles_dropSpanRest (s : State) (c : Fin 4) (sp : Span) : Settles s (s.dropSpanRest c sp).1 :=
  settles_modCC s sp.x c _ (fun k => by split <;> exact ⟨rfl, rfl⟩)

theorem settles_clearCaptures (s : State) (c : Fin 4) : Settles s (s.clearCaptures c) := settles_of_same rfl rfl

/-- The failure of a span completes nothing (16, R406). -/
theorem settles_failSpan (s : State) (c : Fin 4) (reason : Nat) : Settles s (s.failSpan c reason) := by
  unfold State.failSpan
  split
  · exact Settles.refl s
  · dsimp only
    refine Settles.trans ?_ (slices_schedule _ c).calm.settles
    refine Settles.trans ?_ (tidy_emptyBoundary _ _ c _).calm.settles
    refine Settles.trans ?_ (settles_foldl _ _ (fun s k => (tidy_release s _ k true).calm.settles) _)
    refine Settles.trans ?_ (settles_foldl _ _ (fun s k => (calm_signal s _ _ k).settles) _)
    refine Settles.trans ?_ (settles_foldl _ _ (fun s k => (tidy_report s _ k _).calm.settles) _)
    refine Settles.trans ?_ (settles_foldl _ _ (fun s g => (written_poisonRegion s _ c g).calm.settles) _)
    refine Settles.trans ?_ (settles_clearCaptures _ c)
    refine Settles.trans ?_ (settles_foldl _ _ (fun s (d : Cmd × Done × Nat) => settles_countFailed s _ c d.1 d.2.2) _)
    refine Settles.trans ?_ (settles_modCore _ c _ (fun _ h => h))
    refine Settles.trans ?_ (settles_dropSpanRest _ c _)
    split
    · exact settles_stopSpanRun s c _
    · exact Settles.refl s

theorem onlyWork_stopSpanRun (s : State) (c : Fin 4) (r : Run) : OnlyWork s (s.stopSpanRun c r) := by
  have h := onlyWork_stopIssue s c
  unfold State.stopSpanRun
  generalize s.stopIssue c = u at h ⊢
  exact h.trans rfl

theorem onlyWork_clearCaptures (s : State) (c : Fin 4) : OnlyWork s (s.clearCaptures c) := rfl

theorem onlyWork_dropSpanRest (s : State) (c : Fin 4) (sp : Span) : OnlyWork s (s.dropSpanRest c sp).1 := rfl

theorem onlyWork_failSpan (s : State) (c : Fin 4) (reason : Nat) : OnlyWork s (s.failSpan c reason) := by
  unfold State.failSpan
  split
  · exact OnlyWork.refl s
  · dsimp only
    refine OnlyWork.trans ?_ (onlyWork_schedule _ c)
    refine OnlyWork.trans ?_ (onlyWork_emptyBoundary _ _ c _)
    refine OnlyWork.trans ?_ (onlyWork_foldl _ (fun s k => onlyWork_release s _ k true) _ _)
    refine OnlyWork.trans ?_ (onlyWork_foldl _ (fun s k => onlyWork_signal s _ _ k) _ _)
    refine OnlyWork.trans ?_ (onlyWork_foldl _ (fun s k => onlyWork_report s _ k _) _ _)
    refine OnlyWork.trans ?_ (onlyWork_foldl _ (fun s g => onlyWork_poisonRegion s _ c g) _ _)
    refine OnlyWork.trans ?_ (onlyWork_clearCaptures _ c)
    refine OnlyWork.trans ?_ (onlyWork_foldl _ (fun s d => onlyWork_modCC s _ c _) _ _)
    refine OnlyWork.trans ?_ (onlyWork_modCore _ c _)
    refine OnlyWork.trans ?_ (onlyWork_dropSpanRest _ c _)
    split
    · exact onlyWork_stopSpanRun s c _
    · exact OnlyWork.refl s

/-- Behind the end of a command, a span with a second fault fails, and nothing else happens. -/
theorem endFaulty_frame (s : State) (c : Fin 4) : Settles s (s.endFaulty c) ∧ OnlyWork s (s.endFaulty c) := by
  unfold State.endFaulty
  split
  · split
    · exact ⟨settles_failSpan s c _, onlyWork_failSpan s c _⟩
    · exact ⟨Settles.refl s, OnlyWork.refl s⟩
  · exact ⟨Settles.refl s, OnlyWork.refl s⟩

theorem endFaulty_of_sound {s : State} {c : Fin 4} {sp : Span} (h : (s.core c).span = some sp) (hf : sp.faults < 2) :
    s.endFaulty c = s := by
  unfold State.endFaulty
  rw [h]
  exact if_neg (by omega)

/-! ## The report of a checkpoint (15, R380) -/

/-- Only the fabric differs. -/
def OnlyFabric (s t : State) : Prop := t = { s with fabric := t.fabric }

theorem OnlyFabric.trans {s t u : State} (h : OnlyFabric s t) (k : OnlyFabric t u) : OnlyFabric s u := by
  unfold OnlyFabric at h k ⊢
  rw [h] at k; exact k

theorem onlyFabric_transmit {s t : State} {p : Option (Fin 16)} {f : Frame} (h : s.transmit p f = some t) : OnlyFabric s t := by
  have next : ∀ t, s.nextPort.map (fun q => s.wire q f) = some t → OnlyFabric s t := by
    intro t h
    obtain ⟨q, -, rfl⟩ := Option.map_eq_some_iff.1 h
    rfl
  unfold State.transmit at h
  split at h
  · split at h
    · cases h; rfl
    · exact next t h
  · exact next t h

theorem onlyFabric_pump (s : State) (peer job channel : Nat) : OnlyFabric s (s.pump peer job channel) := by
  unfold State.pump
  split
  · rfl
  · dsimp only
    split
    · rfl
    · refine frame_foldl (R := OnlyFabric) (fun _ => rfl) OnlyFabric.trans _ _ (fun s o _ => ?_) s
      split
      · rfl
      · rename_i h
        exact (onlyFabric_transmit h).trans rfl

theorem onlyFabric_sendCtrl (s : State) (dst msg epoch : Nat) (body : List Byte) :
    OnlyFabric s (s.sendCtrl dst msg epoch body) := by
  have tx : ∀ (u : State) p j c f, OnlyFabric u (u.modTx p j c f) := fun _ _ _ _ _ => rfl
  unfold State.sendCtrl State.enqueue
  split
  · rfl
  · refine OnlyFabric.trans (OnlyFabric.trans ?_ (tx _ _ _ _ _)) (onlyFabric_pump _ _ _ _)
    split <;> rfl

/-- Only the roles differ. -/
def OnlyRoles (s t : State) : Prop := t = { s with roles := t.roles }

theorem OnlyRoles.trans {s t u : State} (h : OnlyRoles s t) (k : OnlyRoles t u) : OnlyRoles s u := by
  unfold OnlyRoles at h k ⊢
  rw [h] at k; exact k

/-- A frame that both outcomes of a test keep, the test keeps. -/
theorem frame_ite {R : State → State → Prop} {p : Prop} [Decidable p] {s t u : State} (h : R s t) (k : R s u) :
    R s (if p then t else u) := by
  split
  · exact h
  · exact k

theorem onlyRoles_updateRestore (s : State) : OnlyRoles s s.updateRestore := by
  unfold State.updateRestore
  exact frame_ite rfl rfl

theorem onlyRoles_noteCkpt (s : State) (owner job step holder : Nat) : OnlyRoles s (s.noteCkpt owner job step holder) := by
  have roles : ∀ (u : State) f, OnlyRoles u (u.modRoles f) := fun _ _ => rfl
  unfold State.noteCkpt
  split
  · exact frame_ite (frame_ite (((roles s _).trans (roles _ _)).trans (onlyRoles_updateRestore _)) (roles s _)) rfl
  · rfl

/-- The report of a checkpoint changes roles and fabric only. -/
theorem ckptHeld_frame (s : State) (r : Run) :
    s.ckptHeld r = { s with roles := (s.ckptHeld r).roles, fabric := (s.ckptHeld r).fabric } := by
  unfold State.ckptHeld
  dsimp only
  split
  · split
    · rw [onlyRoles_noteCkpt]
    · rw [onlyFabric_sendCtrl]
  · rfl

/-- A run that is no RECV of a checkpoint is not reported held. -/
theorem ckptHeld_of_other (s : State) (r : Run) (h : r.cmd.op ≠ 0x42 ∨ (msgArgs r.cmd).tag.getLsbD 31 = false) :
    s.ckptHeld r = s := by
  unfold State.ckptHeld
  dsimp only
  rw [if_neg]
  rcases h with h | h
  · simp [h]
  · rw [h]
    simp

/-! ## COMMAND_COMPLETE -/

/-- The command of a core ends, then a faulty span behind it, and the scheduler turns to the next. -/
theorem commandEnd_core {s : State} {c : Fin 4} {r : Run} (charge : Nat) (hr : (s.core c).running = some r)
    (hd : s.coreDone c r = true) :
    doCommandEnd (.core c) 0 charge s = (((s.finishCore c charge).endFaulty c).schedule c).1 := by
  simp only [doCommandEnd, doCommandComplete, hr, hd, if_true]

theorem commandEnd_memory {s : State} {r : Run} {i : Nat} (charge : Nat) (hi : (s.ctx r.x).memoryRun[i]? = some r)
    (hb : r.busy = false) (hl : r.out.failed = true ∨ s.landed r = true) (hp : s.pinWaits r.cmd = false) :
    doCommandEnd (.memory r.x) i charge s = s.finishRun r := by
  have : (r.busy || s.pinWaits r.cmd || !r.out.failed && !s.landed r) = false := by
    rcases hl with h | h <;> simp [hb, hp, h]
  simp only [doCommandEnd, doCommandComplete, hi, this, Bool.false_eq_true, if_false]

theorem commandEnd_fabric {s : State} {r : Run} {i : Nat} (charge : Nat) (hi : (s.ctx r.x).fabricRun[i]? = some r)
    (hb : r.busy = false) (hl : r.out.failed = true ∨ s.landed r = true) :
    doCommandEnd (.fabric r.x) i charge s = (s.finishRun r).ckptHeld r := by
  have h1 : (r.busy || !r.out.failed && !s.landed r) = false := by
    rcases hl with h | h <;> simp [hb, h]
  have h2 : ((s.finishRun r).ctx r.x).fabricRun.any (fun k => k.id == r.id) = false := by
    rw [(finishRun_ctx s r).2.2.1]
    simp
  simp only [doCommandEnd, doCommandComplete, hi, h1, h2, Bool.false_eq_true, if_false]

/-! # NOP, HINT, FENCE, ACQUIRE, RELEASE and CENSUS from their dispatch to their end, COMMAND_COMPLETE, and the statement about them
all (13, R330 to R332; 18, R451; 09, R231, R232; 03, R81). -/

/-! ## A command that ends at its dispatch -/

section
variable {s s1 s2 : State} {q : QRef} {r : Run}

/-- It leaves its queue and is reported if it asks for it, whatever else it does that keeps queues and runs. -/
theorem Dispatched.ends (hd : Dispatched s q s1 r) (hop : 0x60 ≤ r.cmd.op) (hc : Calm s1 s2) :
    Finished s (s2.finishNow q r) q r ∧
      (s1.inSpan q r = false → r.cmd.notify = true → Reported (s2.finishNow q r) r.x r.cmd Done.ok) ∧
      Chores r.x s2 (s2.finishNow q r) := by
  have hs := hd.standing.calm hc
  have ha : (s2.ctx r.x).state = .active := (hc.state r.x).trans (hd.chores.state.trans hd.active)
  refine ⟨finished_finishNow hs rfl rfl hop rfl, fun hi hn => ?_, chores_finishNow hs rfl rfl hop⟩
  have hr := reported_finishNow hs rfl rfl hop ha ((hc.inSpan q r).trans hi) (.inl hn)
  rwa [hd.out] at hr

/-- One that changes its own context only leaves memories, tiers and the data of the other contexts. -/
theorem Dispatched.frame (hd : Dispatched s q s1 r) (hop : 0x60 ≤ r.cmd.op) (hc : Calm s1 s2) (ho : OnlyCtx r.x s1 s2) :
    s2.finishNow q r = { s with
      hub := { s.hub with ctxs := (s2.finishNow q r).hub.ctxs, nextRun := s.hub.nextRun + 1 }
      cores := (s2.finishNow q r).cores, arrays := (s2.finishNow q r).arrays, feeds := (s2.finishNow q r).feeds } ∧
      ∀ y, y ≠ r.x → (s2.finishNow q r).ctx y = { s.ctx y with cores := ((s2.finishNow q r).ctx y).cores } := by
  have hf := (hd.chores.toQueueFrame.trans (queueFrame_of_onlyCtx ho)).trans (hd.ends hop hc).2.2.toQueueFrame
  exact ⟨hf.rest, hf.others⟩

/-- What is said of each of NOP, HINT and FENCE. -/
def EndsAtOnce (s s1 t : State) (q : QRef) (r : Run) : Prop :=
  Finished s t q r ∧ t = { s with
    hub := { s.hub with ctxs := t.hub.ctxs, nextRun := s.hub.nextRun + 1 }, cores := t.cores, arrays := t.arrays
    feeds := t.feeds } ∧
  (s1.inSpan q r = false → r.cmd.notify = true → Reported t r.x r.cmd Done.ok) ∧
  (∀ y, y ≠ r.x → t.ctx y = { s.ctx y with cores := (t.ctx y).cores })

theorem Dispatched.endsAtOnce (hd : Dispatched s q s1 r) (hop : 0x60 ≤ r.cmd.op) (hc : Calm s1 s2) (ho : OnlyCtx r.x s1 s2) :
    EndsAtOnce s s1 (s2.finishNow q r) q r := by
  obtain ⟨h1, h2, -⟩ := hd.ends hop hc
  obtain ⟨h3, h4⟩ := hd.frame hop hc ho
  exact ⟨h1, h3, h2, h4⟩

/-- Its tokens are those that its effect leaves. -/
theorem Dispatched.tokens (hd : Dispatched s q s1 r) (hop : 0x60 ≤ r.cmd.op) (hc : Calm s1 s2) :
    ((s2.finishNow q r).ctx r.x).tokens = (s2.ctx r.x).tokens := (hd.ends hop hc).2.2.tokens

theorem onlyCtx_refl (x : Fin 16) (s : State) : OnlyCtx x s s := ⟨rfl, fun _ _ => rfl⟩

/-! ## NOP, FENCE and HINT -/

/-- A dispatch by operation gives a command of that operation. -/
theorem op_of_dispatchQ {n : Nat} (h : s.dispatchQ q (fun m => m.op == n) = some (s1, r)) : r.cmd.op = n := by
  simpa using dispatchQ_isOp h

theorem op_of_isForm {n k : Nat} {c : Cmd} (h : isForm n k c = true) : c.op = n := by
  simp only [isForm, Bool.and_eq_true, beq_iff_eq] at h
  exact h.1

theorem nop_ends (hn : RunsNumbered s) (h : s.dispatchQ q (fun m => m.op == 0x67) = some (s1, r)) :
    EndsAtOnce s s1 (doNop q s) q r ∧ ((doNop q s).ctx r.x).tokens = (s.ctx r.x).tokens := by
  have hop : 0x60 ≤ r.cmd.op := by rw [op_of_dispatchQ h]; decide
  have hd := dispatched hn h hop
  have e : doNop q s = s1.finishNow q r := by simp only [doNop, h]
  rw [e]
  exact ⟨hd.endsAtOnce hop (Calm.refl s1) (onlyCtx_refl _ s1), (hd.tokens hop (Calm.refl s1)).trans hd.chores.tokens⟩

/-- A FENCE WAIT runs only when its token has come (R332). -/
theorem fenceWait_ends (hn : RunsNumbered s) (h : s.dispatchQ q (isForm 0x60 1) = some (s1, r)) :
    EndsAtOnce s s1 (doFenceWait q s) q r ∧ ((doFenceWait q s).ctx r.x).tokens = (s.ctx r.x).tokens ∧
      s.fenceHolds r.x r.cmd.desc = true := by
  have hf := dispatchQ_isOp h
  have hop : 0x60 ≤ r.cmd.op := (op_of_isForm hf).ge
  have hd := dispatched hn h hop
  have e : doFenceWait q s = s1.finishNow q r := by simp only [doFenceWait, h]
  rw [e]
  exact ⟨hd.endsAtOnce hop (Calm.refl s1) (onlyCtx_refl _ s1), (hd.tokens hop (Calm.refl s1)).trans hd.chores.tokens, hd.token hf⟩

/-- A FENCE SIGNAL outside spans adds one to its token (R331). -/
theorem fenceSignal_ends (hn : RunsNumbered s) (h : s.dispatchQ q (isForm 0x60 0) = some (s1, r)) (hi : s.queueIdle q = true) :
    EndsAtOnce s s1 (doFenceSignal q s) q r ∧ ((doFenceSignal q s).ctx r.x).tokens =
      if s1.inSpan q r = false then vmod (s.ctx r.x).tokens (ix 256 (byteAt r.cmd.desc 2)) (· + 1) else (s.ctx r.x).tokens := by
  have hop : 0x60 ≤ r.cmd.op := (op_of_isForm (dispatchQ_isOp h)).ge
  have hd := dispatched hn h hop
  cases hs : s1.inSpan q r with
  | true =>
    have e : doFenceSignal q s = s1.finishNow q r := by simp [doFenceSignal, h, hi, hs]
    rw [e]
    exact ⟨hd.endsAtOnce hop (Calm.refl s1) (onlyCtx_refl _ s1), (hd.tokens hop (Calm.refl s1)).trans hd.chores.tokens⟩
  | false =>
    have e : doFenceSignal q s = (s1.signal r.x r.cmd.queue r.cmd).finishNow q r := by simp [doFenceSignal, h, hi, hs]
    have hc := calm_signal s1 r.x r.cmd.queue r.cmd
    obtain ⟨ho, ht⟩ := signal_spec s1 r.x r.cmd.queue r.cmd
    rw [e, if_pos rfl]
    refine ⟨hd.endsAtOnce hop hc ho, (hd.tokens hop hc).trans (ht.trans ?_)⟩
    rw [hd.chores.tokens]
    rfl

/-- The hint of a HINT's descriptor (18, Table 18.2), given now. -/
def State.hintOf (s : State) (desc : List Byte) : Hint :=
  { level := bits (byteAt desc 1) 1 0
    expires := if fld desc 4 4 = 0 then none else some (s.pilot + 50 * fld desc 4 4) }

/-- A HINT ends at its dispatch; outside replays it sets the hints of the cores that it names (R451). -/
theorem hint_ends (hn : RunsNumbered s) (h : s.dispatchQ q (fun m => m.op == 0x65) = some (s1, r)) :
    EndsAtOnce s s1 (doHint q s) q r ∧ ((doHint q s).ctx r.x).tokens = (s.ctx r.x).tokens ∧
      ((∀ c sp, q = .core c → s1.spanFor r.x c r.cmd.eval = some sp → sp.replay = false) →
        ∀ d, ((doHint q s).cc r.x d).hint = if d ∈ hintCores r.cmd.queue r.cmd.desc then some (s.hintOf r.cmd.desc)
          else (s.cc r.x d).hint) := by
  have hop : 0x60 ≤ r.cmd.op := by rw [op_of_dispatchQ h]; decide
  have hd := dispatched hn h hop
  have hp : s1.pilot = s.pilot := (congrArg State.pilot hd.chores.rest :)
  obtain ⟨b, hb, e⟩ : ∃ b : Bool, ((∀ c sp, q = .core c → s1.spanFor r.x c r.cmd.eval = some sp → sp.replay = false) →
      b = false) ∧ doHint q s = (if b then s1 else
        s1.giveHints r.x (hintCores r.cmd.queue r.cmd.desc) (s1.hintOf r.cmd.desc)).finishNow q r := by
    unfold doHint
    rw [h]
    refine ⟨_, fun hr => ?_, rfl⟩
    cases q with
    | core c =>
      dsimp only
      split
      · rename_i sp hs
        exact hr c sp rfl hs
      · rfl
    | fabric x => rfl
    | memory x => rfl
  rw [e]
  cases b with
  | true =>
    refine ⟨hd.endsAtOnce hop (Calm.refl s1) (onlyCtx_refl _ s1), (hd.tokens hop (Calm.refl s1)).trans hd.chores.tokens, fun hr => ?_⟩
    cases hb hr
  | false =>
    have hc := calm_giveHints s1 r.x (hintCores r.cmd.queue r.cmd.desc) (s1.hintOf r.cmd.desc)
    obtain ⟨ho, ht⟩ := giveHints_frame s1 r.x (hintCores r.cmd.queue r.cmd.desc) (s1.hintOf r.cmd.desc)
    refine ⟨hd.endsAtOnce hop hc ho, (hd.tokens hop hc).trans (ht.trans hd.chores.tokens), fun _ d => ?_⟩
    refine ((hd.ends hop hc).2.2.hint d).trans ?_
    rw [giveHints_hint, hd.chores.hint d, State.hintOf, hp]
    rfl

/-! ## ACQUIRE and RELEASE (09) -/

/-- A command that writes a field of its group's entry ends at its dispatch, and the entry holds the field. -/
theorem Dispatched.endsWithGroup (hd : Dispatched s q s1 r) (hop : 0x60 ≤ r.cmd.op) {g : Nat} {e : List Byte} (off : Nat)
    (bs : List Byte) (he : s.almEntry r.x g = some e) :
    OnlyWork s ((s1.putAlm r.x g off bs).finishNow q r) ∧ Finished s ((s1.putAlm r.x g off bs).finishNow q r) q r ∧
      ((s1.putAlm r.x g off bs).finishNow q r).almEntry r.x g = some (putBytes e off bs) ∧
      (s1.inSpan q r = false → r.cmd.notify = true →
        Reported ((s1.putAlm r.x g off bs).finishNow q r) r.x r.cmd Done.ok) := by
  have he1 : s1.almEntry r.x g = some e := (almEntry_congr hd.chores.almanac g).trans he
  obtain ⟨h1, h2, h3⟩ := hd.ends hop (calm_putAlm off bs he1)
  refine ⟨(hd.onlyWork.trans (onlyWork_putAlm _ _ _ _ _)).trans (onlyWork_finishNow _ _ _), h1, ?_, h2⟩
  rw [almEntry_congr h3.almanac, almEntry_putAlm off bs he1]

/-- An ACQUIRE of a sound group at its version takes a reference (R231). -/
theorem doAcquire_eq {e : List Byte} (h : s.dispatchQ q (fun m => m.op == 0x61) = some (s1, r))
    (he : s1.almEntry r.x (groupAt r.cmd.desc 4) = some e) (hf : almFault e = false) (hv : almVersion e = fld r.cmd.desc 8 4)
    (hr : almRefs e < 65535) :
    doAcquire q s = (s1.putAlm r.x (groupAt r.cmd.desc 4) 0x54 (leBytes 2 (almRefs e + 1))).finishNow q r := by
  have hr' : almRefs e ≠ 65535 := by omega
  simp [doAcquire, h, he, hf, hv, hr']

/-- A RELEASE gives back a reference (R232). -/
theorem doRelease_eq {e : List Byte} (h : s.dispatchQ q (fun m => m.op == 0x62) = some (s1, r))
    (he : s1.almEntry r.x (groupAt r.cmd.desc 4) = some e) (hr : 0 < almRefs e) :
    doRelease q s = (s1.putAlm r.x (groupAt r.cmd.desc 4) 0x54 (leBytes 2 (almRefs e - 1))).finishNow q r := by
  have hr' : almRefs e ≠ 0 := by omega
  simp [doRelease, h, he, hr']

/-- A RELEASE of a counter at zero fails (R232). -/
theorem doRelease_of_zero {e : List Byte} (h : s.dispatchQ q (fun m => m.op == 0x62) = some (s1, r))
    (he : s1.almEntry r.x (groupAt r.cmd.desc 4) = some e) (hr : almRefs e = 0) :
    doRelease q s = (s1.failClean r 0x0411).finishNow q r := by
  simp [doRelease, h, he, hr]

/-- A run that fails and has written nothing. -/
def Run.failed (r : Run) (reason : Nat) : Run :=
  { r with busy := false, out := { r.out with reason := reason, failed := true } }

/-- A command that fails at its dispatch leaves its queue and its group, and its failure is reported or held in its span. -/
theorem Dispatched.failsClean (hd : Dispatched s q s1 r) (hop : 0x60 ≤ r.cmd.op) (reason : Nat) :
    OnlyWork s ((s1.failClean r reason).finishNow q r) ∧ Finished s ((s1.failClean r reason).finishNow q r) q r ∧
      (∀ g, ((s1.failClean r reason).finishNow q r).almEntry r.x g = s.almEntry r.x g) ∧
      (s1.inSpan q r = false → Reported ((s1.failClean r reason).finishNow q r) r.x r.cmd (Done.fails reason false)) ∧
      ∀ c sp, q = .core c → s1.spanFor r.x c r.cmd.eval = some sp →
        ∃ u, (((s1.failClean r reason).finishNow q r).core c).span = some u ∧
          u.done = sp.done ++ [(r.cmd, Done.fails reason false, 0)] := by
  have hs : Standing s (s1.failClean r reason) q r (r.failed reason) := hd.standing.modRun (·.failed reason) (fun _ => rfl)
  have hout : (r.failed reason).out = Done.fails reason false := by
    simp only [Run.failed, hd.out]
    rfl
  have hspan : ∀ c, ((s1.failClean r reason).core c).span = (s1.core c).span := fun c => by
    rw [State.failClean, modRun_core]
  have hctx := modRun_ctx s1 r.id (·.failed reason) r.x
  refine ⟨(hd.onlyWork.trans (onlyWork_failClean _ _ _)).trans (onlyWork_finishNow _ _ _), finished_finishNow hs rfl rfl hop rfl,
    fun g => ?_, fun hi => ?_, fun c sp hq hsp => ?_⟩
  · have h1 : ((s1.failClean r reason).ctx r.x).almanac = (s1.ctx r.x).almanac := (congrArg Ctx.almanac hctx :)
    exact almEntry_congr ((chores_finishNow hs rfl rfl hop).almanac.trans (h1.trans hd.chores.almanac)) g
  · have ha : ((s1.failClean r reason).ctx r.x).state = .active :=
      (congrArg Ctx.state hctx :).trans (hd.chores.state.trans hd.active)
    have hi' : (s1.failClean r reason).inSpan q r = false := by
      cases q with
      | core c => rw [State.inSpan, spanFor_congr (hspan c)]; exact hi
      | fabric x => rfl
      | memory x => rfl
    have hr := reported_finishNow hs rfl rfl hop ha hi' (.inr (.inl rfl))
    rwa [hout] at hr
  · subst hq
    obtain ⟨hr, -⟩ := hs
    obtain ⟨n, hh⟩ := finishCore_held 0 hr ((spanFor_congr (hspan c) r.x r.cmd.eval).trans hsp)
    refine ⟨sp.hold (r.failed reason) 0 n, ((slices_schedule _ c).calm.span c).trans hh, ?_⟩
    rw [← hout]
    rfl

/-! ## CENSUS (03, R81) -/

/-- What a CENSUS does between its dispatch and its end: ROLL, then COPY. -/
def State.censusDone (s : State) (x : Fin 16) (cmd : Cmd) : State :=
  let s1 := if bit (byteAt cmd.desc 1) 0 then s.censusClose x (fld cmd.desc 2 2) (fld cmd.desc 4 2) (cmd.word 8) else s
  if bit (byteAt cmd.desc 1) 1 then s1.censusCopy x (fld cmd.desc 2 2) (fld cmd.desc 4 2) (fld cmd.desc 0x10 8) else s1

theorem doCensus_eq (h : s.dispatchQ q (fun m => m.op == 0x66) = some (s1, r)) (hi : s.queueIdle q = true) :
    doCensus q s = if (s1.censusDone r.x r.cmd).landed r then (s1.censusDone r.x r.cmd).finishNow q r
      else s1.censusDone r.x r.cmd := by
  simp only [doCensus, hi, h]
  rfl

/-- It keeps queues, runs and the owners of moves, and rolls the records of its step if it has ROLL. -/
theorem censusDone_spec (s : State) (x : Fin 16) (cmd : Cmd) : Calm s (s.censusDone x cmd) ∧ OnlyWork s (s.censusDone x cmd) ∧
    (s.censusDone x cmd).tiers.moves.map (·.x) = s.tiers.moves.map (·.x) ∧
    ∀ j, (s.censusDone x cmd).scaleRec x j = if bit (byteAt cmd.desc 1) 0 = true ∧ fld cmd.desc 2 2 ≤ j ∧
      j < fld cmd.desc 2 2 + fld cmd.desc 4 2 then s.closedRec x (cmd.word 8) j else s.scaleRec x j := by
  have hclose : ∀ u, u = (if bit (byteAt cmd.desc 1) 0 then
        s.censusClose x (fld cmd.desc 2 2) (fld cmd.desc 4 2) (cmd.word 8) else s) →
      Calm s u ∧ OnlyWork s u ∧ u.tiers = s.tiers ∧ ∀ j, u.scaleRec x j = if bit (byteAt cmd.desc 1) 0 = true ∧
        fld cmd.desc 2 2 ≤ j ∧ j < fld cmd.desc 2 2 + fld cmd.desc 4 2 then s.closedRec x (cmd.word 8) j
          else s.scaleRec x j := by
    rintro u rfl
    by_cases hb : bit (byteAt cmd.desc 1) 0 = true
    · obtain ⟨h1, h2⟩ := censusClose_frame s x (fld cmd.desc 2 2) (fld cmd.desc 4 2) (cmd.word 8)
      simp only [hb, if_true, true_and]
      exact ⟨h1, onlyWork_censusClose _ _ _ _ _, h2, scaleRec_censusClose s x _ _ _⟩
    · simp only [hb]
      exact ⟨Calm.refl s, OnlyWork.refl s, rfl, fun _ => rfl⟩
  obtain ⟨h1, h2, h3, h4⟩ := hclose _ rfl
  unfold State.censusDone
  dsimp only
  generalize (if bit (byteAt cmd.desc 1) 0 then
    s.censusClose x (fld cmd.desc 2 2) (fld cmd.desc 4 2) (cmd.word 8) else s) = u at h1 h2 h3 h4 ⊢
  split
  · have hw := written_censusCopy u x (fld cmd.desc 2 2) (fld cmd.desc 4 2) (fld cmd.desc 0x10 8)
    refine ⟨h1.trans hw.calm, h2.trans (onlyWork_censusCopy _ _ _ _ _), hw.owners.trans (by rw [h3]), fun j => ?_⟩
    rw [← h4 j]
    exact scaleRec_congr (by rw [hw.ctx x]) j
  · exact ⟨h1, h2, by rw [h3], h4⟩

/-- The writes of a command that writes no region of the unified range, and is no UPDATE or PRECOND, have landed. -/
theorem landed_of_readOnly (s : State) (r : Run) (hop : 0x60 ≤ r.cmd.op) (h : ∀ g ∈ r.cmd.regions, g.write = false) :
    s.landed r = true := by
  have h1 : r.cmd.op ≠ 0x30 := by omega
  have h2 : r.cmd.op ≠ 0x31 := by omega
  have hw : s.writesOf r = [] := by
    have : r.cmd.regions.filter (·.write) = [] := List.filter_eq_nil_iff.2 (fun g hg => by simp [h g hg])
    simp [State.writesOf, h1, h2, this]
  simp [State.landed, hw]

/-- So have those of a command in whose context no page moves, when none waits for deep granules. -/
theorem landed_of_quiet (s : State) (r : Run) (hm : ∀ x ∈ s.tiers.moves.map (·.x), x ≠ r.x) (hw : s.tiers.deepWaits = []) :
    s.landed r = true := by
  have h : s.tiers.moves.all (fun m => m.x != r.x || m.stalled.all (fun w =>
      (s.writesOf r).all (fun g => !g.overlaps (bytesRegion 1 0 (m.page * 131072 + w.1) w.2.1.length)))) = true := by
    rw [List.all_eq_true]
    intro m hm'
    have := hm m.x (List.mem_map_of_mem hm')
    simp [this]
  simp only [State.landed, h, hw, List.all_nil, Bool.and_self]

/-- A CENSUS ends at its dispatch once what it copies has landed, and rolls the records of its step (R81). -/
theorem census_ends (hn : RunsNumbered s) (h : s.dispatchQ q (fun m => m.op == 0x66) = some (s1, r)) (hi : s.queueIdle q = true) :
    OnlyWork s (doCensus q s) ∧
      ((∀ g ∈ r.cmd.regions, g.write = false) ∨ (∀ m ∈ s.tiers.moves, m.x ≠ r.x) ∧ s.tiers.deepWaits = [] ∧
          (doCensus q s).tiers.deepWaits = [] →
        Finished s (doCensus q s) q r ∧
          (s1.inSpan q r = false → r.cmd.notify = true → Reported (doCensus q s) r.x r.cmd Done.ok)) ∧
      ∀ j, (doCensus q s).scaleRec r.x j = if bit (byteAt r.cmd.desc 1) 0 = true ∧ fld r.cmd.desc 2 2 ≤ j ∧
          j < fld r.cmd.desc 2 2 + fld r.cmd.desc 4 2 ∧ (s.scaleRec r.x j).started = true ∧
          (s.scaleRec r.x j).sCur = r.cmd.word 8
        then (s.rollRec r.x j (r.cmd.word 8 + 1)).scaleRec r.x j else s.scaleRec r.x j := by
  have hop : 0x60 ≤ r.cmd.op := by rw [op_of_dispatchQ h]; decide
  have hd := dispatched hn h hop
  obtain ⟨hc, hw, hm, hr⟩ := censusDone_spec s1 r.x r.cmd
  obtain ⟨hfin, hrep, hcho⟩ := hd.ends hop hc
  have hs1 : ∀ j, s1.scaleRec r.x j = s.scaleRec r.x j := scaleRec_congr hd.chores.scales
  have htiers : s1.tiers = s.tiers := (congrArg State.tiers hd.chores.rest :)
  have hrec : ∀ j, (s1.censusDone r.x r.cmd).scaleRec r.x j = if bit (byteAt r.cmd.desc 1) 0 = true ∧
      fld r.cmd.desc 2 2 ≤ j ∧ j < fld r.cmd.desc 2 2 + fld r.cmd.desc 4 2 ∧ (s.scaleRec r.x j).started = true ∧
      (s.scaleRec r.x j).sCur = r.cmd.word 8
      then (s.rollRec r.x j (r.cmd.word 8 + 1)).scaleRec r.x j else s.scaleRec r.x j := by
    intro j
    rw [hr j, closedRec_congr (hs1 j), hs1 j, scaleRec_rollRec, if_pos rfl]
    simp only [State.closedRec, Bool.and_eq_true, beq_iff_eq, ite_and]
  rw [doCensus_eq h hi]
  by_cases hl : (s1.censusDone r.x r.cmd).landed r = true
  · rw [if_pos hl]
    exact ⟨(hd.onlyWork.trans hw).trans (onlyWork_finishNow _ _ _), fun _ => ⟨hfin, hrep⟩,
      fun j => (scaleRec_congr hcho.scales j).trans (hrec j)⟩
  · rw [if_neg hl]
    refine ⟨hd.onlyWork.trans hw, fun hq => absurd ?_ hl, hrec⟩
    rcases hq with hq | ⟨hq, -, hwait⟩
    · exact landed_of_readOnly _ r hop hq
    · refine landed_of_quiet _ r (fun x hx => ?_) hwait
      rw [hm, htiers] at hx
      obtain ⟨m, hm', rfl⟩ := List.mem_map.1 hx
      exact hq m hm'

end

/-! ## COMMAND_COMPLETE (13, R330) -/

/-- The command of a core ends: it is reported and counted, or held in its span. -/
theorem commandComplete_core {s : State} {r : Run} {c : Fin 4} (charge : Nat) (ha : (s.ctx r.x).state = .active)
    (hr : (s.core c).running = some r) (hd : s.coreDone c r = true) (hu : r.cmd.op ≠ 0x30) :
    OnlyWork s (doCommandEnd (.core c) 0 charge s) ∧ ((doCommandEnd (.core c) 0 charge s).core c).running = none ∧
      (s.spanFor r.x c r.cmd.eval = none → r.cmd.notify = true ∨ r.out.failed = true ∨ r.out.reason ≠ 0 →
        Reported (doCommandEnd (.core c) 0 charge s) r.x r.cmd r.out) ∧
      (s.spanFor r.x c r.cmd.eval = none → r.out.failed = false →
        ((doCommandEnd (.core c) 0 charge s).cc r.x c).actual = satAdd (s.cc r.x c).actual charge ∧
          ((doCommandEnd (.core c) 0 charge s).cc r.x c).solo = satAdd (s.cc r.x c).solo r.cmd.est) ∧
      ∀ sp, s.spanFor r.x c r.cmd.eval = some sp → sp.faults < 2 →
        ∃ u, ((doCommandEnd (.core c) 0 charge s).core c).span = some u ∧ u.done = sp.done ++ [(r.cmd, r.out, charge)] := by
  rw [commandEnd_core charge hr hd]
  obtain ⟨hset, hwork⟩ := endFaulty_frame (s.finishCore c charge) c
  have hall := hset.trans (slices_schedule ((s.finishCore c charge).endFaulty c) c).calm.settles
  refine ⟨((onlyWork_finishCore s c charge).trans hwork).trans (onlyWork_schedule _ c),
    hall.idle c (finishCore_free charge hr hu).1, fun hs hn => ?_, fun hs hf => ?_, fun sp hs hf => ?_⟩
  · exact (finishCore_reported charge hr hu hs ha hn).mono (hall.formed r.x)
  · rw [hall.actual, hall.solo]
    exact finishCore_counts charge hr hu hs hf
  · obtain ⟨n, hh⟩ := finishCore_held charge hr hs
    rw [endFaulty_of_sound hh hf]
    exact ⟨_, ((slices_schedule _ c).calm.span c).trans hh, rfl⟩

/-- A run of a fabric or memory queue ends: it is gone and reported, and only a checkpoint's RECV touches roles and fabric. -/
theorem finishRun_ends {s : State} {r : Run} (ha : (s.ctx r.x).state = .active) :
    s.finishRun r = { s with hub := { s.hub with ctxs := (s.finishRun r).hub.ctxs }, feeds := (s.finishRun r).feeds } ∧
      (∀ k ∈ ((s.finishRun r).ctx r.x).fabricRun ++ ((s.finishRun r).ctx r.x).memoryRun, k.id ≠ r.id) ∧
      (r.cmd.notify = true ∨ r.out.failed = true ∨ r.out.reason ≠ 0 → Reported (s.finishRun r) r.x r.cmd r.out) := by
  refine ⟨(tidy_finishRun s r).rest, fun k hk => ?_, finishRun_reported s r ha⟩
  obtain ⟨-, -, hf, hm⟩ := finishRun_ctx s r
  rw [hf, hm, ← List.filter_append] at hk
  simpa using List.of_mem_filter hk

/-- The report of a checkpoint behind the end of its RECV changes roles and fabric. -/
theorem ckptHeld_after {s u t : State} (hu : u = { s with hub := { s.hub with ctxs := u.hub.ctxs }, feeds := u.feeds })
    (ht : t = { u with roles := t.roles, fabric := t.fabric }) : t = { s with
      hub := { s.hub with ctxs := t.hub.ctxs }, feeds := t.feeds, roles := t.roles, fabric := t.fabric } := by
  rw [ht, hu]

/-! ## The statement -/

/-- Settles O53: each command's clause, by what its dispatch gives and what its end keeps. -/
theorem queueCommandsFinishAtOnce : Obligations.QueueCommandsFinishAtOnce := by
  unfold Obligations.QueueCommandsFinishAtOnce
  refine ⟨fun s s1 q r cmd isOp hup hn hq => ⟨?_, ?_, ?_, ?_⟩, fun s r charge hup ha => ⟨?_, ?_⟩⟩
  -- NOP, HINT, FENCE SIGNAL and FENCE WAIT
  · rintro (⟨rfl, rfl⟩ | ⟨rfl, rfl⟩ | ⟨rfl, rfl, hi⟩ | ⟨rfl, rfl⟩)
    · obtain ⟨⟨h1, h2, h3, h4⟩, ht⟩ := nop_ends hn hq
      exact ⟨_, inDies_up _ _ hup, h1, h2, h3, h4, by simpa using ht, by simp, by simp⟩
    · obtain ⟨⟨h1, h2, h3, h4⟩, ht, hh⟩ := hint_ends hn hq
      exact ⟨_, inDies_up _ _ hup, h1, h2, h3, h4, by simpa using ht, fun _ => hh, by simp⟩
    · obtain ⟨⟨h1, h2, h3, h4⟩, ht⟩ := fenceSignal_ends hn hq hi
      exact ⟨_, inDies_up _ _ hup, h1, h2, h3, h4, by simpa using ht, by simp, by simp⟩
    · obtain ⟨⟨h1, h2, h3, h4⟩, ht, hf⟩ := fenceWait_ends hn hq
      exact ⟨_, inDies_up _ _ hup, h1, h2, h3, h4, by simpa using ht, by simp, fun _ => hf⟩
  -- ACQUIRE, and RELEASE of a reference
  · rintro g e rfl he (⟨rfl, rfl, hf, hv, hr⟩ | ⟨rfl, rfl, hr⟩)
    · have hop : 0x60 ≤ r.cmd.op := by rw [op_of_dispatchQ hq]; decide
      have hd := dispatched hn hq hop
      obtain ⟨h1, h2, h3, h4⟩ := hd.endsWithGroup hop 0x54 (leBytes 2 (almRefs e + 1)) he
      rw [← doAcquire_eq hq ((almEntry_congr hd.chores.almanac _).trans he) hf hv hr] at h1 h2 h3 h4
      exact ⟨_, _, inDies_up _ _ hup, h1, h2, h3, by simp, h4⟩
    · have hop : 0x60 ≤ r.cmd.op := by rw [op_of_dispatchQ hq]; decide
      have hd := dispatched hn hq hop
      obtain ⟨h1, h2, h3, h4⟩ := hd.endsWithGroup hop 0x54 (leBytes 2 (almRefs e - 1)) he
      rw [← doRelease_eq hq ((almEntry_congr hd.chores.almanac _).trans he) hr] at h1 h2 h3 h4
      exact ⟨_, _, inDies_up _ _ hup, h1, h2, h3, by simp, h4⟩
  -- RELEASE of a counter at zero
  · rintro g e rfl he rfl rfl hr
    have hop : 0x60 ≤ r.cmd.op := by rw [op_of_dispatchQ hq]; decide
    have hd := dispatched hn hq hop
    obtain ⟨h1, h2, h3, h4, h5⟩ := hd.failsClean hop 0x0411
    rw [← doRelease_of_zero hq ((almEntry_congr hd.chores.almanac _).trans he) hr] at h1 h2 h3 h4 h5
    exact ⟨_, inDies_up _ _ hup, h1, h2, (h3 _).trans he, h4, h5⟩
  -- CENSUS
  · rintro rfl rfl hi
    obtain ⟨h1, h2, h3⟩ := census_ends hn hq hi
    exact ⟨_, inDies_up _ _ hup, h1, h2, h3⟩
  -- COMMAND_COMPLETE of a core
  · intro c hr hd hu
    exact ⟨_, inDies_up _ _ hup, commandComplete_core charge ha hr hd hu⟩
  -- COMMAND_COMPLETE of a fabric queue and of a memory queue
  · rintro cmd i hb hl (⟨rfl, hi⟩ | ⟨rfl, hi, hp⟩)
    · obtain ⟨h1, h2, h3⟩ := finishRun_ends ha
      refine ⟨_, inDies_up _ _ hup, ?_⟩
      rw [commandEnd_fabric charge hi hb hl]
      have hk := ckptHeld_frame (s.finishRun r) r
      have hctx : ((s.finishRun r).ckptHeld r).ctx r.x = (s.finishRun r).ctx r.x := by rw [hk]; rfl
      refine ⟨?_, fun ho => ?_, by rw [hctx]; exact h2, fun hd => ?_⟩
      · exact ckptHeld_after h1 hk
      · rw [ckptHeld_of_other _ r (by simpa using ho), h1]
        exact ⟨rfl, rfl⟩
      · exact (h3 hd).mono (by rw [hctx])
    · obtain ⟨h1, h2, h3⟩ := finishRun_ends ha
      refine ⟨_, inDies_up _ _ hup, ?_⟩
      rw [commandEnd_memory charge hi hb hl hp]
      refine ⟨?_, fun _ => ?_, h2, h3⟩
      · rw [h1]
      · rw [h1]; exact ⟨rfl, rfl⟩

end Sys2Proof.Machine
end

section
/-! PROOFS. Packets that set values (12, R301, R310, R317): how a CONTROL packet ends, and the statement about SET_QUOTA, SET_SCHED and
SET_SPREAD (11, R275; 13, R336, R337; 10, R251). -/

namespace Sys2Proof.Machine

open Sys2Proof

/-! # The end of a packet: its slot is FREE, its entry is formed, and no kill waits for it. -/

/-- A context whose packet is refused: LAST_REASON, the FREE slot, and the failed entry of an ACTIVE one (12, R301). -/
def Ctx.refused (k : Ctx) (p : Pkt) (reason index : Nat) : Ctx :=
  { k with
    lastReason := reason, lastRefused := p.seq, slots := vmod k.slots p.slot (fun m => { m with state := .free })
    formed := if k.state = .active then k.formed ++ [{ packetEntry p reason true false [] with index := index }] else k.formed }

/-- What an update of one context leaves of it, it leaves of every context. -/
theorem modCtx_keeps {α : Type} (g : Ctx → α) (f : Ctx → Ctx) (h : ∀ k, g (f k) = g k) (s : State) (y z : Fin 16) :
    g ((s.modCtx y f).ctx z) = g (s.ctx z) := by
  by_cases hz : z = y
  · subst hz
    rw [State.modCtx_same, h]
  · rw [State.modCtx_other s y z f hz]

section
variable {s : State} {x : Fin 16} {p : Pkt}

/-- A packet is carried out only while the hub is up. -/
theorem hubUp_of_packetAt {i : Fin 8} {type : Nat} {sub : Option Nat} (h : s.packetAt x i type sub = some p) :
    s.hubUp = true := by
  cases hu : s.hubUp
  · simp [State.packetAt, hu] at h
  · rfl

/-- Two functions that agree on a context update the state alike. -/
theorem modCtx_congr {f g : Ctx → Ctx} (h : f (s.ctx x) = g (s.ctx x)) : s.modCtx x f = s.modCtx x g := by
  have hv : vmod s.hub.ctxs x f = vmod s.hub.ctxs x g := congrArg (s.hub.ctxs.set x) h
  simp only [State.modCtx, hv]

/-- A change of a context that leaves its state and its kill leaves every context that runs running. -/
theorem live_modCtx {y : Fin 16} {f : Ctx → Ctx} (h : Live s x) (hs : ∀ k, (f k).state = k.state)
    (hd : ∀ k, (f k).dying = k.dying) : Live (s.modCtx y f) x :=
  ⟨(modCtx_keeps Ctx.state f hs s y x).trans h.1, (modCtx_keeps Ctx.dying f hd s y x).trans h.2⟩

theorem endKill_of_not_dying (h : (s.ctx x).dying = false) : s.endKill x = s := by simp [State.endKill, h]

/-- A packet of a running context that finishes without a reason. -/
theorem donePacket_of_live (h : Live s x) : s.donePacket x p = s.modCtx x (fun k => k.ended p (okEntry p)) := by
  obtain ⟨ha, hd⟩ := h
  have hpost := post_active (s.modSlot x p.slot (fun m => { m with state := .free })) x (packetEntry p 0 false false [])
    (by simpa [State.modSlot] using ha)
  simp only [State.donePacket, State.finishPacket, hpost]
  rw [State.modSlot, State.modCtx_modCtx, endKill_of_not_dying (by simpa using hd)]
  rfl

/-- One of a context that does not exist: no entry is formed (12, R317). -/
theorem donePacket_of_none (hn : (s.ctx x).state = .none) (hd : (s.ctx x).dying = false) :
    s.donePacket x p = s.modSlot x p.slot (fun m => { m with state := .free }) := by
  have hpost (e : Entry) : (s.modSlot x p.slot (fun m => { m with state := .free })).post x e =
      s.modSlot x p.slot (fun m => { m with state := .free }) := by
    simp [State.post, State.modSlot, hn]
  simp only [State.donePacket, State.finishPacket, hpost]
  exact endKill_of_not_dying (by simpa [State.modSlot] using hd)

/-- A packet that is refused changes its own context only. -/
theorem refusePacket_eq (hd : (s.ctx x).dying = false) (reason index : Nat) :
    s.refusePacket x p reason index = s.modCtx x (fun k => k.refused p reason index) := by
  have hnote : (s.noteRefusal x reason p.seq).modSlot x p.slot (fun m => { m with state := .free }) =
      s.modCtx x (fun k => { k with
        lastReason := reason, lastRefused := p.seq, slots := vmod k.slots p.slot (fun m => { m with state := .free }) }) :=
    State.modCtx_modCtx _ _ _ _
  simp only [State.refusePacket, hnote]
  by_cases ha : (s.ctx x).state = .active
  · rw [if_pos (by simp [ha]), post_active _ _ _ (by simpa using ha), State.modCtx_modCtx,
      endKill_of_not_dying (by simpa using hd)]
    exact modCtx_congr (by simp [Ctx.refused, ha])
  · rw [if_neg (by simp [ha]), endKill_of_not_dying (by simpa using hd)]
    exact modCtx_congr (by simp [Ctx.refused, ha])

/-- What a refusal leaves: the context's slot FREE with the reason noted, and every core's part as it was. -/
theorem refusePacket_frame (hd : (s.ctx x).dying = false) (reason index : Nat) :
    OnlyCtx x s (s.refusePacket x p reason index) ∧
      ((s.refusePacket x p reason index).ctx x).slots[p.slot].state = .free ∧
      ((s.refusePacket x p reason index).ctx x).lastReason = reason ∧
      ((s.refusePacket x p reason index).ctx x).lastRefused = p.seq ∧
      ∀ y c, (s.refusePacket x p reason index).cc y c = s.cc y c := by
  rw [refusePacket_eq hd]
  refine ⟨⟨rfl, fun y hy => State.modCtx_other s x y _ hy⟩, ?_, ?_, ?_,
    fun y c => modCtx_keeps (fun k => k.cores[c]) (·.refused p reason index) (fun _ => rfl) s x y⟩
  · simp [Ctx.refused]
  · simp [Ctx.refused]
  · simp [Ctx.refused]

/-! ## CONTROL packets -/

/-- A CONTROL packet with a reason against it is refused. -/
theorem control_refused {reason : Nat} (h : reason ≠ 0) (f : State → State) :
    s.control x p reason f = s.refusePacket x p reason 0 := if_pos h

/-- A running context that sets values of a context, without a change of its state or its kill. -/
theorem control_modCtx {y : Fin 16} {f : Ctx → Ctx} (h : Live s x) (hs : ∀ k, (f k).state = k.state)
    (hd : ∀ k, (f k).dying = k.dying) :
    s.control x p 0 (fun s => s.modCtx y f) = (s.modCtx y f).modCtx x (fun k => k.ended p (okEntry p)) :=
  donePacket_of_live (live_modCtx h hs hd)

end

/-! # SET_QUOTA (11, R275) -/

/-- A sum over the members of a list other than one, as the model counts it. -/
theorem foldl_sum_others {α : Type} [DecidableEq α] (a : α) (q : α → Nat) (l : List α) (n : Nat) :
    l.foldl (fun n y => if y = a then n else n + q y) n = n + ((l.filter (fun y => y ≠ a)).map q).sum := by
  induction l generalizing n with
  | nil => simp
  | cons y l ih =>
    rw [List.foldl_cons, ih]
    by_cases hy : y = a
    · simp [hy]
    · simp [hy, Nat.add_assoc]

theorem setQuota_accepted {s : State} {x : Fin 16} {i : Fin 8} {p : Pkt} (hp : s.packetAt x i 4 (some 0x03) = some p)
    (hl : Live s x) (ht : (s.ctx p.target).state = .active) (hn : s.nearUse p.target ≤ fld p.hdr 0x18 4)
    (hd : s.deepUse p.target ≤ fld p.hdr 0x1C 4) (hmax : fld p.hdr 0x1C 4 ≤ 16777216)
    (hsum : (((List.finRange 16).filter (fun y => y ≠ p.target)).map (fun y => (s.ctx y).nearQ)).sum + fld p.hdr 0x18 4 ≤
      nearTotal) :
    doSetQuota x i s =
      ((s.modCtx p.target (fun k => { k with nearQ := fld p.hdr 0x18 4, deepQ := fld p.hdr 0x1C 4 })).modCtx x
        (fun k => k.ended p (okEntry p))) := by
  have hreason : firstReason [(!s.live p.target, 0x0110), (decide (fld p.hdr 0x18 4 < s.nearUse p.target) ||
      decide (fld p.hdr 0x1C 4 < s.deepUse p.target) || decide (nearTotal <
        (List.finRange 16).foldl (fun n y => if y = p.target then n else n + (s.ctx y).nearQ) 0 + fld p.hdr 0x18 4) ||
      decide (16777216 < fld p.hdr 0x1C 4), 0x0317)] = 0 := by
    rw [foldl_sum_others, Nat.zero_add]
    simp only [firstReason, State.live, ht, Nat.not_lt.2 hn, Nat.not_lt.2 hd, Nat.not_lt.2 hmax, Nat.not_lt.2 hsum]
    rfl
  simp only [doSetQuota, hp, hreason]
  exact control_modCtx hl (fun _ => rfl) (fun _ => rfl)

/-! # SET_SCHED (13, R336) -/

/-- The budget that a field of SET_SCHED selects. -/
def budgetOf (b : Nat) : Nat := if b = 0 then 2800000 else b

/-- A context with the budgets of a SET_SCHED header. -/
def Ctx.withBudgets (k : Ctx) (h : List Byte) : Ctx :=
  { k with cores := (List.finRange 4).foldl (fun v c => vmod v c (fun q =>
      { q with budget := budgetOf (fld h (0x18 + 4 * c.val) 4) })) k.cores }

/-- Changes of several cores' parts of a context are one change of the context. -/
theorem foldl_modCC (t : Fin 16) (g : Fin 4 → CtxCore → CtxCore) (l : List (Fin 4)) (s : State) :
    l.foldl (fun s c => s.modCC t c (g c)) s =
      s.modCtx t (fun k => { k with cores := l.foldl (fun v c => vmod v c (g c)) k.cores }) := by
  induction l generalizing s with
  | nil => exact (State.modCtx_id s t _ rfl).symm
  | cons c l ih => rw [List.foldl_cons, ih, State.modCC, State.modCtx_modCtx]; rfl

/-- An update of several units of a row gives each of them its own. -/
theorem foldl_vmod {α : Type} {n : Nat} (g : Fin n → α → α) (l : List (Fin n)) (hl : l.Nodup) (v : Vector α n) (j : Fin n) :
    (l.foldl (fun v c => vmod v c (g c)) v)[j] = if j ∈ l then g j v[j] else v[j] := by
  induction l generalizing v with
  | nil => simp
  | cons c l ih =>
    obtain ⟨hc, hl⟩ := List.nodup_cons.1 hl
    rw [List.foldl_cons, ih hl]
    by_cases hj : j = c
    · subst hj
      rw [if_neg hc, if_pos List.mem_cons_self, vmod_same]
    · rw [vmod_other v c j (g c) hj]
      simp [hj]

theorem withBudgets_core (k : Ctx) (h : List Byte) (c : Fin 4) :
    (k.withBudgets h).cores[c] = { k.cores[c] with budget := budgetOf (fld h (0x18 + 4 * c.val) 4) } := by
  rw [Ctx.withBudgets, foldl_vmod _ _ (List.nodup_finRange 4), if_pos (List.mem_finRange c)]

/-- A budget field of a SET_SCHED header is 0 or within its limits. -/
def BudgetsOk (h : List Byte) : Prop :=
  ∀ c < 4, fld h (0x18 + 4 * c) 4 = 0 ∨ (140000 ≤ fld h (0x18 + 4 * c) 4 ∧ fld h (0x18 + 4 * c) 4 ≤ 28000000)

/-- The check of the model on the budgets of a SET_SCHED. -/
theorem badBudget_eq_false (h : List Byte) : ((List.range 4).any (fun c =>
    fld h (0x18 + 4 * c) 4 != 0 && outside 140000 28000000 (fld h (0x18 + 4 * c) 4)) = false) ↔ BudgetsOk h := by
  simp [BudgetsOk, outside, or_iff_not_imp_left]

section
variable {s : State} {x : Fin 16} {i : Fin 8} {p : Pkt}

theorem setSched_accepted (hp : s.packetAt x i 4 (some 0x0D) = some p) (hl : Live s x)
    (ht : (s.ctx p.target).state = .active) (hb : BudgetsOk p.hdr) :
    doSetSched x i s =
      (s.modCtx p.target (fun k => k.withBudgets p.hdr)).modCtx x (fun k => k.ended p (okEntry p)) := by
  simp only [doSetSched, hp, (badBudget_eq_false p.hdr).2 hb, State.live, ht, foldl_modCC]
  exact control_modCtx hl (fun _ => rfl) (fun _ => rfl)

theorem setSched_refused (hp : s.packetAt x i 4 (some 0x0D) = some p) (ht : (s.ctx p.target).state = .active)
    (hb : ¬ BudgetsOk p.hdr) : doSetSched x i s = s.refusePacket x p 0x0225 0 := by
  have hbad := mt (badBudget_eq_false p.hdr).1 hb
  simp only [Bool.not_eq_false] at hbad
  simp only [doSetSched, hp, hbad, State.live, ht]
  exact control_refused (by decide) _

end

/-! # A slice that starts (13, R337) -/

/-- The slice that the budget and the debt of a context give. -/
def CtxCore.nextSlice (k : CtxCore) : Nat := k.budget - k.debt % k.budget

/-- A skipped context pays a budget of its debt; its next slice stays. -/
theorem nextSlice_pay (k : CtxCore) (n : W32) (h : k.budget ≤ k.debt) :
    CtxCore.nextSlice { k with debt := k.debt - k.budget, skips := n } = k.nextSlice := by
  simp only [CtxCore.nextSlice, ← Nat.mod_eq_sub_mod h]

theorem nextSlice_modCC {s : State} {y : Fin 16} {c : Fin 4} {f : CtxCore → CtxCore}
    (h : (f (s.cc y c)).nextSlice = (s.cc y c).nextSlice) (x : Fin 16) :
    ((s.modCC y c f).cc x c).nextSlice = (s.cc x c).nextSlice := by
  by_cases hx : x = y
  · subst hx
    rw [State.modCC_same, h]
  · rw [State.modCC_other_ctx s y x c c f hx]

/-- A pass of the scheduler gives the context that it picks its next slice, and leaves every next slice when it picks none. -/
theorem schedPass_slice (c : Fin 4) (xs : List (Fin 16)) (s st : State) (skipped : Bool) (x : Fin 16) :
    ((State.schedPass s c xs (st, none, skipped)).2.1 = some x →
      ((State.schedPass s c xs (st, none, skipped)).1.cc x c).remaining = (st.cc x c).nextSlice) ∧
    ((State.schedPass s c xs (st, none, skipped)).2.1 = none →
      ((State.schedPass s c xs (st, none, skipped)).1.cc x c).nextSlice = (st.cc x c).nextSlice) := by
  induction xs generalizing st skipped with
  | nil => exact ⟨fun h => (by cases h), fun _ => rfl⟩
  | cons y ys ih =>
    unfold State.schedPass
    dsimp only
    split
    · exact ih st skipped
    · split
      · rename_i hdebt
        rw [← nextSlice_modCC (f := fun k => { k with debt := k.debt - k.budget, skips := satAdd k.skips 1 })
          (nextSlice_pay (st.cc y c) _ hdebt) x]
        exact ih _ true
      · rename_i hdebt
        refine ⟨fun h => ?_, fun h => (by cases h)⟩
        cases h
        rw [State.modCC_same, CtxCore.nextSlice, Nat.mod_eq_of_lt (Nat.not_le.1 hdebt)]

theorem schedLoop_slice (c : Fin 4) (order : List (Fin 16)) (n : Nat) (s : State) (x : Fin 16)
    (h : (State.schedLoop c order n s).2 = some x) :
    ((State.schedLoop c order n s).1.cc x c).remaining = (s.cc x c).nextSlice := by
  induction n generalizing s with
  | zero => cases h
  | succ n ih =>
    obtain ⟨hfound, hnone⟩ := schedPass_slice c order s s false x
    unfold State.schedLoop at h ⊢
    split at h
    · rename_i h1
      cases h
      rw [h1] at hfound
      exact hfound rfl
    · rename_i h1
      rw [h1] at hnone
      split at h
      · rename_i hskip
        rw [if_pos hskip, ih _ h]
        exact hnone rfl
      · cases h

/-- The scheduler's pick that is not the current context with slice left starts a slice. -/
theorem schedule_slice {s t : State} {c : Fin 4} {x : Fin 16} (h : s.schedule c = (t, some x)) (hs : (s.core c).span = none)
    (hx : x ≠ (s.core c).current ∨ (s.cc x c).remaining = 0) : (t.cc x c).remaining = (s.cc x c).nextSlice := by
  unfold State.schedule at h
  simp only [hs] at h
  split at h
  · cases h
  split at h
  · rename_i hcur
    cases h
    simp only [Bool.and_eq_true, decide_eq_true_eq] at hcur
    rcases hx with hx | hx
    · exact absurd rfl hx
    · omega
  · split at h
    · rename_i u y hloop
      cases h
      have hstart := schedLoop_slice c _ _ _ x (congrArg Prod.snd hloop)
      rw [hloop, nextSlice_modCC rfl] at hstart
      rw [← hstart]
      split <;> rfl
    · cases h

/-! # SET_SPREAD (10, R251) -/

/-- A module reset leaves the tiers as reset does (19, R471). -/
theorem moduleReset_tiers {s : State} (h : s.moduleAsked = true) : (doModuleReset s).tiers = State.reset.tiers := by
  simp only [doModuleReset, h]
  rfl

/-- SET_SPREAD of any function but the physical one is refused as it is taken (12, R310). -/
theorem takeReason_setSpread (st : CtxState) (x : Fin 16) (p : Pkt) (ht : p.type = 4) (hs : p.sub = 0x06) (hx : x ≠ 0) :
    takeReason st x p ≠ 0 := by
  have hsender : senderReason x p = 0x010C := by simp [senderReason, ht, hs, controlOwn, controlPf, hx]
  simp only [takeReason, ht, hsender]
  cases st <;> simp [acceptState, hs]

/-- The check of the model on the contexts that exist. -/
theorem anyContext_iff (s : State) :
    (List.finRange 16).any (fun y => (s.ctx y).state != .none) = true ↔ ∃ y, (s.ctx y).state ≠ .none := by
  simp

section
variable {s : State} {x : Fin 16} {i : Fin 8} {p : Pkt}

theorem setSpread_accepted (hp : s.packetAt x i 4 (some 0x06) = some p) (hd : (s.ctx x).dying = false)
    (hv : byteAt p.hdr 0x18 ≤ 70) (hn : ∀ y, (s.ctx y).state = .none) :
    doSetSpread x i s = ({ s with tiers := { s.tiers with spreadGib := byteAt p.hdr 0x18 } }.modCtx x
      (fun k => { k with slots := vmod k.slots p.slot (fun m => { m with state := .free }) })) := by
  have hexists : (List.finRange 16).any (fun y => (s.ctx y).state != .none) = false := by simp [hn]
  simp only [doSetSpread, hp, hexists, Nat.not_lt.2 hv]
  exact donePacket_of_none (hn x) hd

theorem setSpread_refused (hp : s.packetAt x i 4 (some 0x06) = some p)
    (h : 70 < byteAt p.hdr 0x18 ∨ ∃ y, (s.ctx y).state ≠ .none) :
    doSetSpread x i s = s.refusePacket x p (if 70 < byteAt p.hdr 0x18 then 0x0301 else 0x0302) 0 := by
  by_cases hv : 70 < byteAt p.hdr 0x18
  · simp only [doSetSpread, hp, hv]
    exact control_refused (by simp [firstReason]) _
  · simp only [doSetSpread, hp, hv, (anyContext_iff s).2 (h.resolve_left hv)]
    exact control_refused (by decide) _

end

/-! # The statement -/

/-- Settles O11: each packet's effect is the model's bookkeeping at its end over its check; a skipped context pays whole budgets, so
that its next slice is the budget less the debt modulo it. -/
theorem settingPacketsSetTheirValues : Obligations.SettingPacketsSetTheirValues := by
  unfold Obligations.SettingPacketsSetTheirValues
  refine ⟨?_, ?_, ?_, ?_, ⟨rfl, ?_⟩, takeReason_setSpread, ?_⟩
  -- SET_QUOTA
  · intro s x i p hp hl ht hn hd hmax hsum
    rw [← setQuota_accepted hp hl ht hn hd hmax hsum]
    exact inHub_up _ s (hubUp_of_packetAt hp)
  -- SET_SCHED within its limits
  · intro s x i p hp hl ht hb
    refine ⟨_, inHub_up _ s (hubUp_of_packetAt hp), ?_⟩
    rw [setSched_accepted hp hl ht hb]
    refine ⟨rfl, fun y hx hy => ?_, ?_, ?_, fun c => ?_⟩
    · rw [State.modCtx_other _ x y _ hx, State.modCtx_other _ p.target y _ hy]
    · rw [State.modCtx_same, Ctx.ended]
      exact congrArg (· ++ [okEntry p]) (modCtx_keeps Ctx.formed (·.withBudgets p.hdr) (fun _ => rfl) s p.target x)
    · simp [Ctx.ended]
    · refine (modCtx_keeps (fun k => k.cores[c]) (·.ended p (okEntry p)) (fun _ => rfl) _ x p.target).trans ?_
      rw [State.modCtx_same, withBudgets_core]
      rfl
  -- SET_SCHED refused
  · intro s x i p hp hl ht ⟨c, hc, h0, hout⟩
    have hb : ¬ BudgetsOk p.hdr := fun h => by
      have := h c hc
      omega
    obtain ⟨h1, h2, h3, h4, h5⟩ := refusePacket_frame (p := p) hl.2 0x0225 0
    refine ⟨_, inHub_up _ s (hubUp_of_packetAt hp), ?_⟩
    rw [setSched_refused hp ht hb]
    exact ⟨h1, h2, h3, h4, fun c => by rw [h5]⟩
  -- a slice that starts
  · intro s t c x h hs hx _
    exact schedule_slice h hs hx
  -- MODULE_RESET
  · intro s hon hm
    refine ⟨_, inAon_up _ s hon, ?_⟩
    rw [moduleReset_tiers hm]
    rfl
  -- SET_SPREAD
  · rintro s x i p v hp hd rfl
    refine ⟨fun hv hn => ?_, fun h => ?_⟩
    · rw [← setSpread_accepted hp hd hv hn]
      exact inHub_up _ s (hubUp_of_packetAt hp)
    · obtain ⟨h1, h2, h3, h4, -⟩ := refusePacket_frame (p := p) hd (if 70 < byteAt p.hdr 0x18 then 0x0301 else 0x0302) 0
      refine ⟨_, inHub_up _ s (hubUp_of_packetAt hp), ?_⟩
      rw [setSpread_refused hp h]
      exact ⟨h1, h2, h3, h4⟩

end Sys2Proof.Machine
end

section
/-! PROOFS. The caps of host, manager and baseboard (18, R447): what a writer of a cap does with a value, what the end of a barometer
period does with the caps, and the statement about them. -/

namespace Sys2Proof.Machine

open Sys2Proof

/-! # A cap that is offered: it is set in its range, and dropped and counted on H1 outside of it. -/

/-- What every writer of a cap does with w watts: q, with its own cap at w, comes into force, or the write is dropped and counted. -/
def State.offerCap (s : State) (w : Nat) (q : Power) : State :=
  if capOk w then { s with power := q } else s.dropWrite 1

theorem capOk_iff (w : Nat) : capOk w = true ↔ 1600 ≤ w ∧ w ≤ 3200 := by
  simp [capOk]

theorem offerCap_of_inside {w : Nat} (lo : 1600 ≤ w) (hi : w ≤ 3200) (s : State) (q : Power) :
    s.offerCap w q = { s with power := q } :=
  if_pos ((capOk_iff w).2 ⟨lo, hi⟩)

theorem offerCap_of_outside {w : Nat} (h : w < 1600 ∨ 3200 < w) (s : State) (q : Power) : s.offerCap w q = s.dropWrite 1 :=
  if_neg (fun hok => by
    have := (capOk_iff w).1 hok
    omega)

theorem onlyBlk_dropWrite (s : State) (b : Nat) : OnlyBlk (ix 36 b) s (s.dropWrite b) :=
  ⟨rfl, fun k hk => vmod_other s.blks (ix 36 b) k _ hk⟩

/-- PWR_CAP_WRITE offers the host's cap. -/
theorem exec_pwrCapWrite {s : State} (v : W32) (h : s.hubUp = true) :
    exec (.pwrCapWrite v) s = .next (s.offerCap (bits v.toNat 11 0) { s.power with hostCap := bits v.toNat 11 0 }) :=
  inHub_up _ s h

/-- BMC_CAP_WRITE offers the baseboard's cap. -/
theorem exec_bmcCapWrite {s : State} (v : W32) (h : s.h1Up = true) :
    exec (.bmcCapWrite v) s = .next (s.offerCap (bits v.toNat 11 0) { s.power with bmcCap := bits v.toNat 11 0 }) :=
  inH1_up _ s h

/-- CAP_SET of the group manager offers its cap to the state that has taken in the message (15, R386). -/
theorem exec_capSet {s u : State} {p : Fin 16} {f : Frame} {c : Ctrl} (h : s.lampUp = true)
    (ht : s.takeCtrl p f 0x0D = (u, some c)) (hm : c.src = u.roles.manager) :
    exec (.capSet p f) s = .next (u.offerCap (fld c.body 0 4) { u.power with mgrCap := fld c.body 0 4 }) := by
  have hdo : doCapSet p f s = u.offerCap (fld c.body 0 4) { u.power with mgrCap := fld c.body 0 4 } := by
    simp only [doCapSet, ht, ne_eq, hm, not_true_eq_false, if_false]
    rfl
  rw [← hdo]
  exact inLamp_up _ s h

/-! # The caps at a module reset and at the end of a barometer period. -/

/-- The caps of host, manager and baseboard, and the cap in force. -/
def Power.caps (p : Power) : Nat × Nat × Nat × Nat := (p.hostCap, p.mgrCap, p.bmcCap, p.effCap)

/-- A module reset leaves the caps as reset does (19, R471). -/
theorem moduleReset_caps {s : State} (h : s.moduleAsked = true) : (doModuleReset s).power.caps = State.reset.power.caps := by
  simp only [doModuleReset, h]
  rfl

/-- What commands change leaves the caps as they were. -/
theorem OnlyWork.caps {s t : State} (h : OnlyWork s t) : t.power.caps = s.power.caps :=
  (congrArg (fun u => u.power.caps) h :)

/-- Duties that come into force leave the caps as they were. -/
theorem setDuties_caps (s : State) : s.setDuties.power.caps = s.power.caps := by
  have harrays := onlyWork_foldl (fun (t : State) a => t.modArr a (fun k => { k with duty := s.arrayDuty a }))
    (fun t a => onlyWork_modArr t a _) (List.finRange 8) s
  exact harrays.caps

/-- The end of a period puts the least of the three caps in force (18, R447): of its steps, only the update of the power manager
changes a cap. -/
theorem barometerPeriod_caps {s : State} (h : 2 ≤ s.power.windows) : (doBarometerPeriod s).power.caps =
    (s.power.hostCap, s.power.mgrCap, s.power.bmcCap, min s.power.hostCap (min s.power.mgrCap s.power.bmcCap)) := by
  have hcount : ((List.finRange 8).foldl State.countThrottle s).power.caps = s.power.caps :=
    (onlyWork_foldl State.countThrottle (fun t a => onlyWork_modArr t a _) _ s).caps
  have hrestored : ∀ (l : List (Fin 17)) (u : State),
      (l.foldl (fun t r => t.unitEvent 0x0702 r.val) u).power.caps = u.power.caps :=
    fun l u => (onlyWork_foldl _ (fun t r => onlyWork_event t 0 0x0702 _) l u).caps
  have hcapped : ∀ (u : State) (b : Bool), (if b then u.event 0 0x0705 [] else u).power.caps = u.power.caps := by
    intro u b
    cases b
    · rfl
    · exact (onlyWork_event u 0 0x0705 []).caps
  simp only [doBarometerPeriod, Nat.not_lt.2 h, if_false, setDuties_caps, hrestored, hcapped, State.modPower_power]
  simp only [Power.caps, Prod.mk.injEq, and_true] at hcount ⊢
  obtain ⟨hhost, hmgr, hbmc, -⟩ := hcount
  exact ⟨hhost, hmgr, hbmc⟩

/-! # The statement -/

/-- Settles O31: each of the three writers offers its value to one rule, which sets it or drops and counts it. -/
theorem capsStayInTheirRange : Obligations.CapsStayInTheirRange := by
  unfold Obligations.CapsStayInTheirRange
  refine ⟨⟨rfl, rfl, rfl⟩, ?_, ?_, ?_⟩
  -- MODULE_RESET
  · intro s hon hm
    have hcaps := moduleReset_caps hm
    simp only [Power.caps, Prod.mk.injEq] at hcaps
    obtain ⟨hhost, hmgr, hbmc, -⟩ := hcaps
    exact ⟨_, inAon_up _ s hon, hhost, hmgr, hbmc⟩
  -- the writers of the three caps
  · intro s u cmd w v q hwriter
    have hoffer : exec cmd s = .next (u.offerCap w q) := by
      rcases hwriter with ⟨rfl, hup, rfl, rfl, rfl⟩ | ⟨rfl, hup, rfl, rfl, rfl⟩ | ⟨p, f, c, rfl, hup, ht, hm, rfl, rfl⟩
      · exact exec_pwrCapWrite v hup
      · exact exec_bmcCapWrite v hup
      · exact exec_capSet hup ht hm
    refine ⟨fun lo hi => ?_, fun hout => ⟨u.dropWrite 1, ?_, onlyBlk_dropWrite u 1, fun _ => vmod_same u.blks 1 _⟩⟩
    · rw [hoffer, offerCap_of_inside lo hi]
    · rw [hoffer, offerCap_of_outside hout]
  -- BAROMETER_PERIOD
  · intro s hup hw
    have hcaps := barometerPeriod_caps hw
    simp only [Power.caps, Prod.mk.injEq] at hcaps
    exact ⟨_, inH1_up _ s hup, hcaps⟩

end Sys2Proof.Machine
end

section
/-! PROOFS. The state after reset, and mailbox packets: slot writes, seals, the taking of packets, SUBMIT and FEED (12). -/

namespace Sys2Proof.Machine

open Sys2Proof

/-- Settles O1: a step is defined so. -/
theorem stepRunsTheFrontCommand : Obligations.StepRunsTheFrontCommand := by
  intro c s rest
  rfl

/-- Settles O60: the fields of the reset state. -/
theorem resetState : Obligations.ResetState := by
  refine ⟨rfl, rfl, rfl, rfl, rfl, rfl, rfl, rfl, rfl, rfl, rfl, rfl, rfl, rfl, ?_, ?_, ?_⟩
  · intro x
    simp [State.ctx, State.reset, Ctx.blank]
  · intro c
    simp [State.core, State.reset, CoreS.fresh]
  · intro n
    simp [State.stack, State.reset, StackS.fresh]

/-! ## Bytes and numbers -/

@[simp] theorem leBytes_length (n v : Nat) : (leBytes n v).length = n := by
  induction n generalizing v with
  | zero => rfl
  | succ n ih => simp [leBytes, ih]

theorem leNat_leBytes (n v : Nat) : leNat (leBytes n v) = v % 256 ^ n := by
  induction n generalizing v with
  | zero => simp [leBytes, leNat, Nat.mod_one]
  | succ n ih =>
    simp only [leBytes, leNat, ih, BitVec.toNat_ofNat]
    rw [show 256 ^ (n + 1) = 256 * 256 ^ n from Nat.pow_succ', Nat.mod_mul]

/-- The bytes that a write stored are read back. -/
theorem Mem.read_write_inside (m : Mem) (a b n : Nat) (bs : List Byte) (hm : m.wf = true) (lo : a ≤ b)
    (hi : b + n ≤ a + bs.length) : (m.write a bs).read b n = (bs.drop (b - a)).take n := by
  rw [Mem.read_eq _ _ _ (Mem.wf_write m a bs hm)]
  apply List.ext_getElem
  · simp; omega
  · intro i h1 h2
    have hi' : i < n := by simpa using h1
    have hin : a ≤ b + i ∧ b + i < a + bs.length := by omega
    have hsub : b + i - a = b - a + i := by omega
    simp only [List.getElem_map, List.getElem_range, Mem.get_write, if_pos hin, List.getElem_take, List.getElem_drop]
    rw [hsub, List.getElem?_eq_getElem (by omega), Option.getD_some]

/-! ## Changes of one context -/

theorem onlyCtx_modCtx (s : State) (x : Fin 16) (f : Ctx → Ctx) : OnlyCtx x s (s.modCtx x f) :=
  ⟨rfl, fun y hy => State.modCtx_other s x y f hy⟩

theorem onlyCtx_modSlot (s : State) (x : Fin 16) (i : Fin 8) (f : MailSlot → MailSlot) : OnlyCtx x s (s.modSlot x i f) :=
  onlyCtx_modCtx s x _

theorem OnlyCtx.trans {x : Fin 16} {s t u : State} (h : OnlyCtx x s t) (k : OnlyCtx x t u) : OnlyCtx x s u := by
  obtain ⟨h1, h2⟩ := h
  obtain ⟨k1, k2⟩ := k
  refine ⟨?_, fun y hy => (k2 y hy).trans (h2 y hy)⟩
  rw [h1] at k1; exact k1

/-! ## Slots and the seal (12, R296, R299) -/

section
variable {s : State} {x : Fin 16} {i : Fin 8}

/-- A host write into a slot that is not FREE (12, R296). -/
theorem slotWrite_late (hu : s.hubUp = true) (hf : (s.ctx x).slots[i].state ≠ .free) (off : Nat) (bs : List Byte) (bad : Bool) :
    s.slotWrite x i off bs bad = s.modCtx x (fun k => { k with lateWrites := satAdd k.lateWrites 1 }) := by
  rw [State.slotWrite, if_neg (by simp [hu]), if_pos (by simpa using hf)]

/-- One into a FREE slot that leaves the seal word alone. -/
theorem slotWrite_lands (hu : s.hubUp = true) (hf : (s.ctx x).slots[i].state = .free) {off : Nat} {bs : List Byte}
    (hlen : off + bs.length ≤ 0x12000) (hseal : 0x2000 ≤ off ∨ off + bs.length ≤ 0x1FFC) (bad : Bool) :
    s.slotWrite x i off bs bad = s.modSlot x i (fun m => { m with bytes := m.bytes.write off bs }) := by
  have htake : bs.take (0x12000 - off) = bs := List.take_of_length_le (by omega)
  have hno : ¬(off < 0x2000 ∧ 0x1FFC < off + bs.length) := by omega
  simp only [State.slotWrite, hu, hf, htake, if_neg hno, Bool.not_true, Bool.false_eq_true, if_false, bne_self_eq_false]

end

/-- Settles O2, by the two branches of a slot write that does not seal. -/
theorem slotWriteLandsOrIsCounted : Obligations.SlotWriteLandsOrIsCounted := by
  intro s x i off bs hu
  refine ⟨fun hf hlen hseal => ⟨_, inHub_up _ _ hu, ?_⟩, fun hf => ⟨_, inHub_up _ _ hu, ?_⟩⟩
  · rw [doSlotWrite, slotWrite_lands hu hf hlen hseal]
    refine ⟨onlyCtx_modSlot s x i _, ?_, ⟨_, by rw [State.modSlot, State.modCtx_same]; rfl⟩, fun a => ?_⟩
    · simpa [State.modSlot] using hf
    · simp [State.modSlot, Mem.get_write]
  · rw [doSlotWrite, slotWrite_late hu hf]
    exact ⟨onlyCtx_modCtx s x _, State.modCtx_same s x _⟩

/-! ## SEAL -/

/-- The eight bytes of a seal word (12, R297). -/
def sealWord (seq crc : W32) : List Byte := leBytes 4 seq.toNat ++ leBytes 4 crc.toNat

@[simp] theorem sealWord_length (seq crc : W32) : (sealWord seq crc).length = 8 := by simp [sealWord]

/-- A word of 32 bits survives its four bytes. -/
theorem ofNat_leNat_leBytes (w : W32) : BitVec.ofNat 32 (leNat (leBytes 4 w.toNat)) = w := by
  have hlt : w.toNat < 256 ^ 4 := w.isLt
  rw [leNat_leBytes, Nat.mod_eq_of_lt hlt, BitVec.ofNat_toNat, BitVec.setWidth_eq]

section
variable {m : Mem} (hm : m.wf = true) (seq crc : W32)
include hm

/-- SEQ and CRC as a slot holds them after the write of its seal word. -/
theorem read_sealWord : BitVec.ofNat 32 (leNat ((m.write 0x1FF8 (sealWord seq crc)).read 0x1FF8 4)) = seq ∧
    BitVec.ofNat 32 (leNat ((m.write 0x1FF8 (sealWord seq crc)).read 0x1FFC 4)) = crc := by
  rw [Mem.read_write_inside _ _ _ _ _ hm (by omega) (by simp), Mem.read_write_inside _ _ _ _ _ hm (by omega) (by simp)]
  exact ⟨ofNat_leNat_leBytes seq, ofNat_leNat_leBytes crc⟩

end

/-- A slot other than FREE carries the SEQ. -/
theorem holdsSeq_iff (k : Ctx) (seq : W32) :
    k.holdsSeq seq = true ↔ ∃ j : Fin 8, k.slots[j].state ≠ .free ∧ k.slots[j].seq = seq := by
  simp [Ctx.holdsSeq, Vector.any_eq_true, Fin.exists_iff]

/-- A FREE slot carries none, whatever its bytes. -/
theorem holdsSeq_modSlot_free {s : State} {x : Fin 16} {i : Fin 8} (hf : (s.ctx x).slots[i].state = .free) (seq : W32)
    (b : Mem → Mem) : ((s.modSlot x i (fun m => { m with bytes := b m.bytes })).ctx x).holdsSeq seq = (s.ctx x).holdsSeq seq := by
  rw [Bool.eq_iff_iff, holdsSeq_iff, holdsSeq_iff]
  refine exists_congr fun j => ?_
  by_cases hj : j = i
  · subst hj
    have hf' : ((s.modSlot x j (fun m => { m with bytes := b m.bytes })).ctx x).slots[j].state = .free := by
      simpa [State.modSlot] using hf
    simp only [hf, hf', ne_eq, not_true_eq_false, false_and]
  · rw [State.modSlot, State.modCtx_same, vmod_other _ _ _ _ hj]

/-- What a refusal at the seal leaves of its context (12, R299, R301). -/
def Ctx.sealFails (k : Ctx) (reason : Nat) (p : Pkt) : Ctx :=
  { k with
    lastReason := reason, lastRefused := p.seq, sealRefused := satAdd k.sealRefused 1
    formed := if k.state = .active then k.formed ++ [packetEntry p reason true false []] else k.formed }

/-- The slots whose errors stand no more once slot i of context x is sealed (12, R299). -/
def State.mended (s : State) (x : Fin 16) (i : Fin 8) : State :=
  { s with hub := { s.hub with badSlots := s.hub.badSlots.filter (· != (x, i)) } }

section
variable {s : State} {x : Fin 16} {i : Fin 8} {bad : Bool}

theorem seal_passes (h : (s.ctx x).sealReason (s.ctx x).slots[i] bad = 0) :
    s.seal x i bad = s.modSlot x i (fun m => { m with state := .sealed }) := if_pos h

theorem seal_fails {reason : Nat} (h : (s.ctx x).sealReason (s.ctx x).slots[i] bad = reason) (h0 : reason ≠ 0) :
    s.seal x i bad = s.modCtx x (fun k => k.sealFails reason ((s.ctx x).slots[i].pkt i)) := by
  have hs : s.seal x i bad = _ := if_neg (by rw [h]; exact h0)
  rw [hs, h, State.noteRefusal, State.modCtx_modCtx]
  by_cases ha : (s.ctx x).state = .active
  · rw [if_pos (by simp [ha]), post_active _ _ _ (by simpa using ha), State.modCtx_modCtx]
    exact modCtx_congr (by simp [Ctx.sealFails, ha]; rfl)
  · rw [if_neg (by simp [ha])]
    exact modCtx_congr (by simp [Ctx.sealFails, ha]; rfl)

/-- The write of a seal word stores it and seals the slot. -/
theorem doSeal_eq (hu : s.hubUp = true) (hf : (s.ctx x).slots[i].state = .free) (seq crc : W32) :
    doSeal x i seq crc bad s = ((s.mended x i).modSlot x i (fun m => { m with bytes := m.bytes.write 0x1FF8 (sealWord seq crc) })).seal
      x i (bad || s.hub.badSlots.contains (x, i)) := by
  have htake : (sealWord seq crc).take (0x12000 - 0x1FF8) = sealWord seq crc := List.take_of_length_le (by simp)
  have hseal : 0x1FF8 < 0x2000 ∧ 0x1FFC < 0x1FF8 + (sealWord seq crc).length := by simp
  show s.slotWrite x i 0x1FF8 (sealWord seq crc) bad = _
  rw [State.slotWrite, if_neg (by simp [hu]), if_neg (by simpa using hf)]
  simp only [htake, if_pos hseal]
  rfl

end

/-- A slot whose errors do not stand is mended by nothing. -/
theorem mended_of_good {s : State} {x : Fin 16} {i : Fin 8} (h : (x, i) ∉ s.hub.badSlots) : s.mended x i = s := by
  have hf : s.hub.badSlots.filter (· != (x, i)) = s.hub.badSlots :=
    List.filter_eq_self.2 (fun e he => bne_iff_ne.2 (ne_of_mem_of_not_mem he h))
  simp [State.mended, hf]

/-- The checks of R299, one by one. -/
theorem sealReason_eq_zero {k : Ctx} {m : MailSlot} {h : List Byte} (hh : h = m.bytes.read 0 64)
    (h64 : fld h 2 2 % 64 = 0) (hlo : 64 ≤ fld h 2 2) (hhi : fld h 2 2 ≤ 8128) (hp : fld h 4 4 ≤ 65536)
    (hc : crc32c (m.bytes.read 0 (fld h 2 2) ++ m.bytes.read 0x2000 (fld h 4 4)) =
      BitVec.ofNat 32 (leNat (m.bytes.read 0x1FFC 4)))
    (hd : dist32 m.seq k.seqExpect < 8) (hs : k.holdsSeq m.seq = false) : k.sealReason m false = 0 := by
  subst hh
  have hlen : ¬(fld (m.bytes.read 0 64) 2 2 % 64 ≠ 0 ∨ fld (m.bytes.read 0 64) 2 2 < 64 ∨ 8128 < fld (m.bytes.read 0 64) 2 2 ∨
      65536 < fld (m.bytes.read 0 64) 4 4) := by omega
  have hwin : ¬(8 ≤ dist32 m.seq k.seqExpect ∨ k.holdsSeq m.seq = true) := by simp [hs]; omega
  simp only [Ctx.sealReason, Bool.false_eq_true, if_false, if_neg hlen, hc, ne_eq, not_true_eq_false, if_neg hwin]

/-- Settles O3: the checks of R299 on the slot with its seal word. -/
theorem sealChecksThePacket : Obligations.SealChecksThePacket := by
  intro s x i seq crc h hl pl b hu hf hwf hb hh hhl hpl
  replace hb : b = (s.ctx x).slots[i].bytes.write 0x1FF8 (sealWord seq crc) := hb
  obtain ⟨hseq, hcrc⟩ := read_sealWord hwf seq crc
  rw [← hb] at hseq hcrc
  have hslot (s' : State) (hs : s'.hub.ctxs = s.hub.ctxs) : ((s'.modSlot x i (fun m => { m with
      bytes := m.bytes.write 0x1FF8 (sealWord seq crc) })).ctx x).slots[i] = ⟨.free, b⟩ := by
    have hx : s'.ctx x = s.ctx x := by simp only [State.ctx, hs]
    rw [State.modSlot, State.modCtx_same, vmod_same, hx, hf, hb]
  have hpkt : MailSlot.seq ⟨.free, b⟩ = seq := hseq
  refine ⟨fun h64 hlo hhi hp hc hd hs hbad => ⟨_, inHub_up _ _ hu, ?_⟩, fun bad hbad => ⟨_, inHub_up _ _ hu, ?_⟩⟩
  · have hgood : s.hub.badSlots.contains (x, i) = false := by simpa using hbad
    rw [doSeal_eq hu hf, mended_of_good hbad, hgood, seal_passes]
    · refine ⟨(onlyCtx_modSlot s x i _).trans (onlyCtx_modSlot _ x i _), ?_⟩
      rw [hb]
      simp [State.modSlot, vmod, sealWord]
    · rw [hslot s rfl]
      refine sealReason_eq_zero hh (hhl ▸ h64) (hhl ▸ hlo) (hhl ▸ hhi) (hpl ▸ hp) ?_ ?_ ?_
      · rw [← hhl, ← hpl]
        exact hc.trans hcrc.symm
      · rw [hpkt]
        simpa [State.modSlot] using hd
      · rw [hpkt, holdsSeq_modSlot_free hf seq (fun m => m.write 0x1FF8 (sealWord seq crc)), hs]
  · have hbad' : (bad || s.hub.badSlots.contains (x, i)) = true := by simpa using hbad
    rw [doSeal_eq hu hf, hbad', seal_fails (reason := 0x0209) rfl (by decide)]
    refine ⟨(onlyCtx_modSlot _ x i _).trans (onlyCtx_modCtx _ x _), ?_, ?_, ?_, ?_, ?_⟩
    · rw [State.modCtx_same]
      exact hslot _ rfl
    · rw [State.modCtx_same]; rfl
    · rw [State.modCtx_same, hslot (s.mended x i) rfl]; exact hpkt
    · simp [State.modSlot, Ctx.sealFails]; rfl
    · simp [State.modSlot, Ctx.sealFails]; rfl

/-! ## Taking packets (12, R303, R314) -/

/-- The only index that passes a test is the one found. -/
theorem find?_finRange_unique {n : Nat} {p : Fin n → Bool} {i : Fin n} (hi : p i = true) (hu : ∀ j, p j = true → j = i) :
    (List.finRange n).find? p = some i := by
  obtain ⟨j, hj⟩ := Option.isSome_iff_exists.1 (List.find?_isSome.2 ⟨i, List.mem_finRange i, hi⟩)
  rw [hj, hu j (List.find?_some hj)]

section
variable {s : State} {x : Fin 16} {i : Fin 8}

theorem takenSlots_eq_nil (h : ∀ j : Fin 8, (s.ctx x).slots[j].state.isTaken = false) : (s.ctx x).takenSlots = [] := by
  rw [Ctx.takenSlots, List.filter_eq_nil_iff]
  intro q hq
  obtain ⟨j, -, rfl⟩ := List.mem_map.1 hq
  rw [h j]
  exact Bool.false_ne_true

/-- A context with no packet in progress can take packet E. -/
theorem canTake_of_idle (hu : s.hubUp = true) (hd : (s.ctx x).dying = false) (hw : (s.ctx x).waiting < 4032)
    (ht : (s.ctx x).takenSlots = []) (hn : (s.ctx x).nextSlot = some i) : s.canTake x = true := by
  simp [State.canTake, hn, hu, hd, hw, ht, Ctx.controlOpen]

/-- Packet E stands in slot i and is taken: the context's turn, with E one further. -/
def State.taking (s : State) (x : Fin 16) (i : Fin 8) : State :=
  ({ s with hub := { s.hub with turn := x } }).modCtx x (fun k => { k with
    seqExpect := k.seqExpect + 1, slots := vmod k.slots i (fun m => { m with state := .taken }) })

/-- PACKET_TAKE in the context's turn. -/
theorem doPacketTake_eq (hn : (s.ctx x).nextSlot = some i) (hc : s.canTake x = true) (ht : s.itsTurn x = true) {p : Pkt}
    (hp : p = (s.ctx x).slots[i].pkt i) {reason : Nat} (hr : takeReason (s.ctx x).state x p = reason) :
    doPacketTake x s = if reason = 0 then s.taking x i else (s.taking x i).refusePacket x p reason 0 := by
  subst hp hr
  simp only [doPacketTake, hn, hc, ht, Bool.not_true, Bool.or_self, Bool.false_eq_true, if_false, State.modSlot, State.modCtx_modCtx]
  rfl

end

/-- A context that does not exist accepts CREATE only (12, R303). -/
theorem takeReason_none {p : Pkt} (lo : 1 ≤ p.type) (hi : p.type ≤ 5) (hc : ¬(p.type = 4 ∧ p.sub = 1)) (x : Fin 16) :
    takeReason .none x p = 0x0110 := by
  have htype : ¬(p.type < 1 ∨ 5 < p.type) := by omega
  have hcreate : (p.type == 4 && p.sub == 1) = false := by simpa using hc
  simp only [takeReason, if_neg htype, acceptState, hcreate]
  rfl

/-- Settles O4: packet E is found, taken, and refused where its context does not accept it. -/
theorem packetTakeFollowsTheSequence : Obligations.PacketTakeFollowsTheSequence := by
  intro s u x i p hu hd hw ht hs hidle hi hseq hother hp
  have hn : (s.ctx x).nextSlot = some i := by
    refine find?_finRange_unique (by simpa using ⟨hi, hseq⟩) (fun j hj => ?_)
    obtain ⟨h1, h2⟩ : (s.ctx x).slots[j].state = .sealed ∧ (s.ctx x).slots[j].seq = (s.ctx x).seqExpect := by simpa using hj
    by_contra hne
    exact hother j hne h1 h2
  have hc := canTake_of_idle hu hd hw (takenSlots_eq_nil hidle) hn
  refine ⟨fun h0 => ⟨_, inHub_up _ _ hu, ?_⟩, fun lo hi hnone hcreate => ⟨_, inHub_up _ _ hu, ?_⟩⟩
  · rw [doPacketTake_eq hn hc ht hp h0, if_pos rfl, hs]
    exact ⟨onlyCtx_modCtx _ x _, State.modCtx_same _ x _⟩
  · have hr : takeReason (s.ctx x).state x p = 0x0110 := by rw [hnone]; exact takeReason_none lo hi hcreate x
    have hslot : p.slot = i := by rw [hp]; rfl
    have hdying : ((s.taking x i).ctx x).dying = false := by rw [State.taking, State.modCtx_same]; exact hd
    rw [doPacketTake_eq hn hc ht hp hr, if_neg (by decide), refusePacket_eq hdying, State.taking, State.modCtx_modCtx, hs]
    refine ⟨onlyCtx_modCtx _ x _, ?_⟩
    rw [State.modCtx_same]
    exact ⟨rfl, rfl, rfl, by simp [Ctx.refused, hslot]⟩

/-! ## SUBMIT (12, R306) -/

/-- The command goes to queue c of a core. -/
theorem coreIx_eq_iff {m : Cmd} (h : m.queue < 4) (c : Fin 4) : m.coreIx = c ↔ m.queue = c.val := by
  simp [Cmd.coreIx, ix, Fin.ext_iff, Nat.mod_eq_of_lt h]

/-- Only the queues of a context differ. -/
def Ctx.OnlyQueues (k r : Ctx) : Prop := r = { k with cores := r.cores, fabric := r.fabric, memory := r.memory }

theorem Ctx.OnlyQueues.trans {k q r : Ctx} (h : k.OnlyQueues q) (g : q.OnlyQueues r) : k.OnlyQueues r := by
  unfold Ctx.OnlyQueues at *
  rw [h] at g; exact g

theorem onlyQueues_enqueue (k : Ctx) (m : Cmd) : k.OnlyQueues (k.enqueue m) := by
  unfold Ctx.OnlyQueues Ctx.enqueue
  split
  · rfl
  · split <;> rfl

section
variable (k : Ctx) (cmds : List Cmd)

theorem onlyQueues_foldl : k.OnlyQueues (cmds.foldl Ctx.enqueue k) := by
  induction cmds generalizing k with
  | nil => rfl
  | cons m cmds ih => exact (onlyQueues_enqueue k m).trans (ih (k.enqueue m))

theorem foldl_enqueue_fabric :
    (cmds.foldl Ctx.enqueue k).fabric = k.fabric ++ cmds.filter (fun m => m.queue == 4) := by
  induction cmds generalizing k with
  | nil => simp
  | cons m cmds ih =>
    rw [List.foldl_cons, ih]
    unfold Ctx.enqueue
    split
    · have h4 : m.queue ≠ 4 := by omega
      simp [h4]
    · split
      · simp [*]
      · simp [*]

theorem foldl_enqueue_memory :
    (cmds.foldl Ctx.enqueue k).memory = k.memory ++ cmds.filter (fun m => decide (4 < m.queue)) := by
  induction cmds generalizing k with
  | nil => simp
  | cons m cmds ih =>
    rw [List.foldl_cons, ih]
    unfold Ctx.enqueue
    split
    · have h4 : ¬ 4 < m.queue := by omega
      simp [h4]
    · split
      · simp [*]
      · have h4 : 4 < m.queue := by omega
        simp [h4]

theorem foldl_enqueue_core (c : Fin 4) :
    (cmds.foldl Ctx.enqueue k).cores[c].main = k.cores[c].main ++ cmds.filter (fun m => m.queue == c.val && !m.eval) ∧
    (cmds.foldl Ctx.enqueue k).cores[c].eval = k.cores[c].eval ++ cmds.filter (fun m => m.queue == c.val && m.eval) := by
  induction cmds generalizing k with
  | nil => simp
  | cons m cmds ih =>
    rw [List.foldl_cons, (ih _).1, (ih _).2]
    unfold Ctx.enqueue
    split
    next hq =>
      by_cases hc : m.queue = c.val
      · rw [(coreIx_eq_iff hq c).2 hc, vmod_same]
        cases he : m.eval <;> simp [hc, he]
      · rw [vmod_other _ _ _ _ (fun h => hc ((coreIx_eq_iff hq c).1 h.symm))]
        simp [hc]
    next hq =>
      have hc : m.queue ≠ c.val := by omega
      split <;> simp [hc]

end

/-- Settles O5: the list passes the checks, and its commands are queued one by one. -/
theorem submitQueuesAnAcceptedList : Obligations.SubmitQueuesAnAcceptedList := by
  intro s x i p cmds hp hl hv
  refine ⟨_, inHub_up _ _ (hubUp_of_packetAt hp), ?_⟩
  let acct : ListAcct := ⟨p.seq, p.tag, cmds.length, bit (byteAt p.hdr 0x1C) 0⟩
  have hrest (k : Ctx) := onlyQueues_foldl { k with lists := k.lists ++ [acct] } cmds
  have hdone : doSubmit x i s = (s.modCtx x (fun k => cmds.foldl Ctx.enqueue { k with lists := k.lists ++ [acct] })).modCtx x
      (fun k => k.ended p (okEntry p)) := by
    have hd : ¬ (s.ctx x).dying = true := by rw [hl.2]; decide
    simp only [doSubmit, hp, if_neg hd, hv]
    refine donePacket_of_live (live_modCtx hl (fun k => ?_) (fun k => ?_)) <;> rw [hrest]
  rw [hdone, State.modCtx_modCtx]
  refine ⟨onlyCtx_modCtx s x _, ?_⟩
  simp only [State.modCtx_same, Ctx.ended]
  refine ⟨foldl_enqueue_fabric _ _, foldl_enqueue_memory _ _, fun c => (foldl_enqueue_core _ _ c).1,
    fun c => (foldl_enqueue_core _ _ c).2, ?_, ?_, ?_⟩
  · rw [hrest]
  · rw [vmod_same]
  · rw [hrest]

/-! ## FEED (12, R307, R315) -/

theorem OnlyCtxFeed.trans_modCtx {x : Fin 16} {c : Fin 4} {s t : State} (h : OnlyCtxFeed x c s t) (f : Ctx → Ctx) :
    OnlyCtxFeed x c s (t.modCtx x f) := by
  obtain ⟨h1, h2, h3⟩ := h
  refine ⟨?_, fun y hy => (State.modCtx_other t x y f hy).trans (h2 y hy), fun d hd => h3 d hd⟩
  rw [h1]; rfl

theorem onlyCtxFeed_modFeed (s : State) (x : Fin 16) (c : Fin 4) (f : FeedS → FeedS) : OnlyCtxFeed x c s (s.modFeed c f) :=
  ⟨rfl, fun _ _ => rfl, fun d hd => State.modFeed_other s c d f hd⟩

section
variable {s : State} {x : Fin 16} {i : Fin 8} {p : Pkt}

/-- A taken FEED that is allowed and waits for nothing is carried out. -/
theorem doFeed_runs (hp : s.packetAt x i 2 none = some p) (hr : s.transferReason x p p.pay.length true = 0)
    (hw : s.transferWaits x p = false) : doFeed x i s = s.runFeed x p := by
  simp [doFeed, hp, hr, hw]

/-- So is a held FEED or FETCH. -/
theorem doHeldPacketRelease_runs (hu : s.hubUp = true) (hh : (s.ctx x).slots[i].state = .held)
    (hp : (s.ctx x).slots[i].pkt i = p) (hd : (s.ctx x).dying = false) (hw : s.transferWaits x p = false) :
    doHeldPacketRelease x i s = s.runTransfer x p := by
  subst hp
  have hh' : ¬((!s.hubUp || (s.ctx x).slots[i].state != .held) = true) := by rw [hu, hh]; decide
  simp only [doHeldPacketRelease, if_neg hh', hd, hw, Bool.false_and, Bool.false_eq_true, if_false]

theorem wwrite_window {c : Fin 4} {w : Nat} (bs : List PByte) (h : w < (s.cc x c).resSize) :
    s.wwrite x c w bs = s.modFeed c (fun f => f.write ((s.cc x c).resBase + w) bs false) := by
  simp only [State.wwrite, State.windowAt, if_pos h]

/-- A range of the resident sub-window may be transferred (12, R307, R308). -/
theorem transferReason_window {n : Nat} {write : Bool} {c : Fin 4} (hs : bits (byteAt p.hdr 0x1E) 0 0 = 0)
    (hc : c.val = bits (byteAt p.hdr 0x1E) 2 1) (ha : fld p.hdr 0x18 6 % 64 = 0) (hn : n % 64 = 0) (hlo : 64 ≤ n)
    (hin : fld p.hdr 0x18 6 + n ≤ (s.cc x c).resSize) : s.transferReason x p n write = 0 := by
  have hcore : ix 4 (bits (byteAt p.hdr 0x1E) 2 1) = c := by rw [← hc]; exact Fin.ofNat_val_eq_self c
  have hal : ¬((packetRegion p.hdr).base % 64 ≠ 0 ∨ n % 64 ≠ 0 ∨ n < 64) := by simp [packetRegion]; omega
  have hsp : ¬ (packetRegion p.hdr).space = 1 := by simp [packetRegion, hs]
  simp only [State.transferReason, if_neg hal, if_neg hsp]
  simp only [packetRegion, hcore, if_pos hin]

/-- A FEED into the resident sub-window. -/
theorem runFeed_window {c : Fin 4} (hl : Live s x) (hs : bits (byteAt p.hdr 0x1E) 0 0 = 0)
    (hc : c.val = bits (byteAt p.hdr 0x1E) 2 1) (hin : fld p.hdr 0x18 6 < (s.cc x c).resSize) :
    s.runFeed x p = (s.modFeed c (fun f => f.write ((s.cc x c).resBase + fld p.hdr 0x18 6)
      (p.pay.map (fun b => ⟨b, false⟩)) false)).modCtx x (fun k => k.ended p (okEntry p)) := by
  have hcore : ix 4 (bits (byteAt p.hdr 0x1E) 2 1) = c := by rw [← hc]; exact Fin.ofNat_val_eq_self c
  have hwrite : s.rwrite x (packetRegion p.hdr).space (ix 4 (packetRegion p.hdr).core) (packetRegion p.hdr).base
      (p.pay.map (fun b => ⟨b, false⟩)) = s.modFeed c (fun f => f.write ((s.cc x c).resBase + fld p.hdr 0x18 6)
      (p.pay.map (fun b => ⟨b, false⟩)) false) := by
    simp only [packetRegion, hs, hcore, State.rwrite, if_true]
    exact wwrite_window _ hin
  rw [State.runFeed, hwrite]
  exact donePacket_of_live hl

end

/-- Settles O6: the bytes of the window's place in the scratchpad. -/
theorem feedWritesAWindow : Obligations.FeedWritesAWindow := by
  intro s x i p c w hl hs hc hw hn ht ha hn64 hlo hin hwait cmd hcmd
  subst hw
  have hrun : exec cmd s = .next (s.runFeed x p) := by
    rcases hcmd with ⟨rfl, hp⟩ | ⟨rfl, hu, hh, hp⟩
    · have hr := transferReason_window (write := true) hs hc ha hn64 hlo hin
      exact (inHub_up _ _ (hubUp_of_packetAt hp)).trans (congrArg _ (doFeed_runs hp hr hwait))
    · refine (inHub_up _ _ hu).trans (congrArg _ ((doHeldPacketRelease_runs hu hh hp hl.2 hwait).trans ?_))
      exact if_pos ht
  refine ⟨_, hrun, ?_⟩
  rw [runFeed_window hl hs hc (by omega)]
  refine ⟨(onlyCtxFeed_modFeed s x c _).trans_modCtx _, State.modCtx_same _ x _, fun a => ?_⟩
  rw [State.modCtx_feed, State.modFeed_same]
  simp [FeedS.write, Mem.get_write, Function.comp_def]

end Sys2Proof.Machine
end

section
/-! PROOFS. Reads of memory, and FETCH (10, 12). -/

namespace Sys2Proof.Machine

open Sys2Proof

/-! # What a read of memory leaves: counters, marks and records (10, R245 to R247). -/

/-- A read of memory: stacks, what the deep tier counts, the records of what was lost, and the spans that lost it. -/
structure Reads (s t : State) : Prop where
  rest : t = { s with
    cores := t.cores, hbm := t.hbm, tiers := { s.tiers with deepCe := t.tiers.deepCe, deepUe := t.tiers.deepUe }
    faults := { s.faults with detected := t.faults.detected } }
  core : ∀ c, t.core c = { s.core c with span := (t.core c).span }

theorem Reads.refl (s : State) : Reads s s := ⟨rfl, fun _ => rfl⟩

theorem Reads.trans {s t u : State} (h : Reads s t) (k : Reads t u) : Reads s u := by
  obtain ⟨h1, h2⟩ := h
  obtain ⟨k1, k2⟩ := k
  refine ⟨?_, fun c => ?_⟩
  · rw [h1] at k1; exact k1
  · have k := k2 c
    rw [h2 c] at k; exact k

theorem Reads.hub {s t : State} (h : Reads s t) : t.hub = s.hub := by rw [h.rest]
theorem Reads.feeds {s t : State} (h : Reads s t) : t.feeds = s.feeds := by rw [h.rest]
theorem Reads.ctx {s t : State} (h : Reads s t) (x : Fin 16) : t.ctx x = s.ctx x := by rw [State.ctx, h.hub]; rfl

theorem reads_detectSpan (s : State) (core : Option (Fin 4)) (f : FaultRec) : Reads s (s.detectSpan core f) := by
  unfold State.detectSpan
  split
  · exact ⟨rfl, fun _ => rfl⟩
  · next c =>
    split
    · exact ⟨rfl, fun _ => rfl⟩
    · refine ⟨rfl, fun d => ?_⟩
      by_cases hd : d = c
      · subst hd
        rw [State.modCore_same]; rfl
      · rw [State.modCore_other _ _ _ _ hd]; rfl

theorem reads_loseSector (s : State) (n : Fin 12) (a : Nat) (data : List Byte) (core : Option (Fin 4))
    (name : FaultRec → FaultRec) : Reads s (s.loseSector n a data core name) := by
  have stack (f : StackS → StackS) : Reads s (s.modStack n f) := ⟨rfl, fun _ => rfl⟩
  unfold State.loseSector
  dsimp only
  split
  · split <;> exact stack _
  · split <;> exact (stack _).trans (reads_detectSpan _ _ _)

theorem reads_touchSector (s : State) (n : Fin 12) (a : Nat) (core : Option (Fin 4)) (name : FaultRec → FaultRec) :
    Reads s (s.touchSector n a core name) := by
  unfold State.touchSector
  dsimp only
  split
  · exact Reads.refl s
  · exact ⟨rfl, fun _ => rfl⟩
  · exact ⟨rfl, fun _ => rfl⟩
  · exact reads_loseSector _ _ _ _ _ _

theorem reads_countDeep (s : State) (ch : Nat) (fixed : Bool) : Reads s (s.countDeep ch fixed) := by
  cases fixed <;> exact ⟨rfl, fun _ => rfl⟩

theorem reads_touch (s : State) (a : Nat) (reader : Option (Fin 4)) : Reads s (s.touch a reader) := by
  unfold State.touch
  dsimp only
  split
  · exact Reads.refl s
  · split
    · split
      · exact reads_countDeep _ _ _
      · exact Reads.refl s
    · split
      · exact reads_touchSector _ _ _ _ _
      · exact Reads.refl s

theorem reads_foldl {α : Type} (f : State → α → State) (h : ∀ s a, Reads s (f s a)) (l : List α) (s : State) :
    Reads s (l.foldl f s) :=
  frame_foldl Reads.refl Reads.trans f l (fun s a _ => h s a) s

theorem reads_touchRange (s : State) (a n : Nat) (reader : Option (Fin 4)) : Reads s (s.touchRange a n reader) := by
  unfold State.touchRange
  split
  · exact Reads.refl s
  · exact reads_foldl _ (fun s k => reads_touch s _ _) _ _

/-! # Results returned to the host (12, R308, R309) -/

section
variable {α β : Type}

theorem chunksFuel_map (f : α → β) (fuel n : Nat) (l : List α) :
    chunksFuel fuel n (l.map f) = (chunksFuel fuel n l).map (·.map f) := by
  induction fuel generalizing l with
  | zero => rfl
  | succ fuel ih =>
    cases l with
    | nil => rfl
    | cons a l =>
      show ((a :: l).map f).take n :: chunksFuel fuel n (((a :: l).map f).drop n) = _
      rw [← List.map_take, ← List.map_drop, ih]
      rfl

theorem chunks_map (f : α → β) (n : Nat) (l : List α) : chunks n (l.map f) = (chunks n l).map (·.map f) := by
  simp only [chunks, List.length_map, chunksFuel_map]

theorem chunksFuel_flatten (fuel n : Nat) (l : List α) (hn : 0 < n) (hf : l.length ≤ fuel) :
    (chunksFuel fuel n l).flatten = l := by
  induction fuel generalizing l with
  | zero => simp [chunksFuel, List.eq_nil_of_length_eq_zero (Nat.le_zero.1 hf)]
  | succ fuel ih =>
    cases l with
    | nil => rfl
    | cons a l =>
      have hlen : ((a :: l).drop n).length ≤ fuel := by simp at hf ⊢; omega
      simp only [chunksFuel, List.flatten_cons, ih _ hlen, List.take_append_drop]

theorem chunks_flatten (n : Nat) (l : List α) (hn : 0 < n) : (chunks n l).flatten = l :=
  chunksFuel_flatten _ _ _ hn le_rfl

theorem mem_of_mem_chunks {n : Nat} {l c : List α} (hn : 0 < n) (hc : c ∈ chunks n l) {a : α} (ha : a ∈ c) : a ∈ l := by
  rw [← chunks_flatten n l hn]
  exact List.mem_flatten.2 ⟨c, hc, ha⟩

end

/-- A chunk with no poison reaches the host as it stands. -/
theorem cleanChunk_of_clean {bs : List PByte} (h : ∀ b ∈ bs, b.p = false) : cleanChunk bs = bs.map (·.b) := by
  have hone : ∀ c ∈ chunks 64 bs, (if c.any (·.p) then zeros c.length else c.map (·.b)) = c.map (·.b) := fun c hc =>
    if_neg (by simpa using fun b hb => h b (mem_of_mem_chunks (by decide) hc hb))
  rw [cleanChunk, List.map_congr_left hone, ← List.map_flatten, chunks_flatten 64 bs (by decide)]

/-- Host writes one after another. -/
theorem foldl_hostWrites {α : Type} (f : State → α → State) (g : α → List HostWrite) (s : State) (l : List α)
    (h : ∀ a ∈ l, ∀ s, f s a = { s with hub := { s.hub with hostWrites := s.hub.hostWrites ++ g a } }) :
    l.foldl f s = { s with hub := { s.hub with hostWrites := s.hub.hostWrites ++ l.flatMap g } } := by
  induction l generalizing s with
  | nil => simp
  | cons a l ih =>
    rw [List.foldl_cons, h a List.mem_cons_self s, ih _ (fun b hb => h b (List.mem_cons_of_mem _ hb))]
    simp [List.append_assoc]

/-- Data with no poison goes to the host in chunks with their trailers. -/
theorem returnData_clean (s : State) (x : Fin 16) (p : Pkt) (host : Nat) {bs : List PByte} (h : bs.any (·.p) = false) :
    s.returnData x p host bs =
      { s with hub := { s.hub with hostWrites := s.hub.hostWrites ++ chunkWrites x p host (bs.map (·.b)) } } := by
  have hclean : ∀ b ∈ bs, b.p = false := by simpa using h
  have hchunk : ∀ c ∈ (chunks 65536 bs).zipIdx, ∀ b ∈ c.1, b.p = false := fun c hc b hb =>
    hclean b (mem_of_mem_chunks (by decide) (List.fst_mem_of_mem_zipIdx hc) hb)
  have hwrites : chunkWrites x p host (bs.map (·.b)) = (chunks 65536 bs).zipIdx.flatMap (fun c =>
      [⟨x.val, host + 69632 * c.2, c.1.map (·.b)⟩, ⟨x.val, host + 69632 * c.2 + 65536,
        trailer p c.2 (c.1.map (·.b)) 0 (c.2 + 1 == (chunks 65536 bs).length) false⟩]) := by
    simp [chunkWrites, chunks_map, List.zipIdx_map, List.flatMap_map]
  rw [hwrites]
  refine foldl_hostWrites _ _ s _ (fun c hc s => ?_)
  have hany : c.1.any (·.p) = false := by simpa using hchunk c hc
  simp only [h, hany, cleanChunk_of_clean (hchunk c hc), Bool.and_false, Bool.false_eq_true, if_false, State.hostWrite,
    List.append_assoc]
  rfl

section
variable {s : State} {x : Fin 16} {i : Fin 8} {p : Pkt}

/-- A transfer of data with no poison ends (12, R308, R309). -/
theorem endTransfer_clean (hl : Live s x) (host : Nat) {bs : List PByte} (h : bs.any (·.p) = false) :
    s.endTransfer x p host bs = ({ s with hub := { s.hub with
      hostWrites := s.hub.hostWrites ++ chunkWrites x p host (bs.map PByte.b) } }).modCtx x (fun k => k.ended p (okEntry p)) := by
  rw [State.endTransfer, if_neg (by simp [h]), returnData_clean s x p host h]
  exact donePacket_of_live hl

/-- A taken FETCH that is allowed and waits for nothing is carried out. -/
theorem doFetch_runs (hp : s.packetAt x i 3 none = some p) (hd : (s.ctx x).dying = false) (hn : fld p.hdr 0x20 4 ≤ 16777216)
    (hr : s.transferReason x p (fld p.hdr 0x20 4) false = 0)
    (hh : hostRoom (fld p.hdr 0x28 8) (fld p.hdr 0x30 8) (fld p.hdr 0x20 4) = true) (hw : s.transferWaits x p = false) :
    doFetch x i s = s.runFetch x p := by
  simp [doFetch, hp, hd, if_neg (Nat.not_lt.2 hn), hr, hh, hw]

end

/-- Settles O8: the reads leave the hub as it was, and the result is returned. -/
theorem fetchReturnsChunksAndTrailers : Obligations.FetchReturnsChunksAndTrailers := by
  intro s u x i p bs hl ht hu hbs hclean hn hr hh hw cmd hcmd
  have hreads : Reads s u := by
    rw [hu]
    split
    · exact reads_touchRange _ _ _ _
    · exact Reads.refl s
  have hlu : Live u x := by rw [Live, hreads.ctx]; exact hl
  have hfetch : s.runFetch x p = u.endTransfer x p (fld p.hdr 0x28 8) bs := by
    rw [hbs, hu]; rfl
  have hrun : exec cmd s = .next (s.runFetch x p) := by
    rcases hcmd with ⟨rfl, hp⟩ | ⟨rfl, hup, hheld, hp⟩
    · exact (inHub_up _ _ (hubUp_of_packetAt hp)).trans (congrArg _ (doFetch_runs hp hl.2 hn hr hh hw))
    · refine (inHub_up _ _ hup).trans (congrArg _ ((doHeldPacketRelease_runs hup hheld hp hl.2 hw).trans ?_))
      exact if_neg (by rw [ht]; decide)
  refine ⟨_, hrun, ?_⟩
  rw [hfetch, endTransfer_clean hlu _ hclean]
  refine ⟨⟨rfl, fun y hy => State.modCtx_other _ x y _ hy⟩, ?_, ?_, ?_, ?_⟩
  · rw [State.modCtx_same, ← hreads.ctx x]; rfl
  · rw [← hreads.hub]; rfl
  · rw [← hreads.hub]; rfl
  · rw [← hreads.hub]; rfl

end Sys2Proof.Machine
end

section
/-! PROOFS. The bytes that a stack gives, and what a write of whole sectors leaves of them (10). -/

namespace Sys2Proof.Machine

open Sys2Proof

/-! # What a read of a stack gives, byte by byte (10, R245, R260) -/

/-! ## Decoded sectors -/

@[simp] theorem putBytes_length (bs : List Byte) (off : Nat) (new : List Byte) (h : off + new.length ≤ bs.length) :
    (putBytes bs off new).length = bs.length := by
  simp only [putBytes, List.length_append, List.length_take, List.length_drop]
  omega

theorem flipData_length (bs : List Byte) (p : Pattern) (h : bs.length = 64) : (flipData bs p).length = 64 := by
  unfold flipData
  induction p generalizing bs with
  | nil => exact h
  | cons e p ih =>
    refine ih _ ?_
    dsimp only
    split
    · rw [putBytes_length _ _ _ (by simp; omega), h]
    · exact h

theorem sectorBytes_length (st : StackS) (k : Nat) : (st.sectorBytes k).length = 64 := by
  have hlen (p : Pattern) : (flipData (flipData (st.mem.read (64 * k) 64) (st.errsOf k)) p).length = 64 :=
    flipData_length _ _ (flipData_length _ _ (by simp))
  unfold StackS.sectorBytes
  dsimp only
  split
  · simpa [flipData] using hlen []
  · simpa using hlen _
  · simpa [flipData] using hlen []
  · simpa [flipData] using hlen []

/-- A pattern without a flipped bit decodes clean. -/
theorem decodeSector_nil (erased : List Nat) : decodeSector erased [] = .clean := by
  have hmask : (syndromes lanePower [] == syndromes lanePower (maskAt (36 - 4))) = false := by decide
  have hzero : (syndromes lanePower []).all (· == 0) = true := by decide
  simp only [decodeSector, decodeCode, hmask, hzero, Bool.and_false, Bool.false_eq_true, if_false, if_true]

/-- A sector with no mark and no flipped bit, in no dead pseudo-channel, reads as stored. -/
theorem sectorBytes_clean {st : StackS} {k : Nat} (hp : k ∉ st.poison) (hd : pseudoChannel (64 * k) ∉ st.dead)
    (he : st.errsOf k = []) : st.sectorBytes k = (st.mem.read (64 * k) 64).map (fun b => ⟨b, false⟩) := by
  have hout : st.outcome k = .clean := by simp [StackS.outcome, hp, hd, he, decodeSector_nil]
  simp [StackS.sectorBytes, hout, he, flipData]

/-! ## One byte -/

/-- The byte that a stored sector gives at an address. -/
def StackS.stored (st : StackS) (a : Nat) : PByte := ((st.sectorBytes (a / 64))[a % 64]?).getD ⟨0, false⟩

/-- A byte of an address with an entry of the buffer laid over it (10, R260). -/
def WcbEntry.over (e : WcbEntry) (a : Nat) (b : PByte) : PByte :=
  if a / 64 = e.sector then
    match alookup (a % 64) e.bytes with
    | some v => ⟨v, b.p || e.poison⟩
    | none => ⟨b.b, b.p || e.poison⟩
  else b

/-- The byte that a read of an address gives. -/
def StackS.peek (st : StackS) (a : Nat) : PByte := st.wcb.foldl (fun b e => e.over a b) (st.stored a)

theorem sectorBytes_eq (st : StackS) (k : Nat) : st.sectorBytes k = (List.range 64).map (fun j => st.stored (64 * k + j)) := by
  refine List.ext_getElem (by simp [sectorBytes_length]) (fun j h1 h2 => ?_)
  have hj : j < 64 := by simpa using h2
  have hk : (64 * k + j) / 64 = k := by omega
  have hr : (64 * k + j) % 64 = j := by omega
  simp only [List.getElem_map, List.getElem_range, StackS.stored, hk, hr, List.getElem?_eq_getElem h1, Option.getD_some]

theorem flatMap_sectorBytes (st : StackS) (k m : Nat) : ((List.range m).map (k + ·)).flatMap st.sectorBytes =
    (List.range (64 * m)).map (fun j => st.stored (64 * k + j)) := by
  induction m with
  | zero => rfl
  | succ m ih =>
    have hone : [k + m].flatMap st.sectorBytes = (List.range 64).map (fun j => st.stored (64 * k + (64 * m + j))) := by
      rw [List.flatMap_singleton, sectorBytes_eq]
      exact List.map_congr_left (fun j _ => by rw [Nat.mul_add, Nat.add_assoc])
    rw [List.range_succ, List.map_append, List.flatMap_append, ih, List.map_singleton, hone,
      show 64 * (m + 1) = 64 * m + 64 from rfl, List.range_add, List.map_append, List.map_map]
    rfl

/-- A part of the sectors that a range touches. -/
theorem drop_take_sectors (st : StackS) (a n : Nat) : (((sectorsOf a n).flatMap st.sectorBytes).drop (a % 64)).take n =
    (List.range n).map (fun i => st.stored (a + i)) := by
  by_cases hn : n = 0
  · simp [sectorsOf, hn]
  · rw [sectorsOf, if_neg hn, flatMap_sectorBytes]
    refine List.ext_getElem (by simp; omega) (fun i h1 h2 => ?_)
    have ha : 64 * (a / 64) + (a % 64 + i) = a + i := by omega
    simp [ha]

/-- Without a mark, a flipped bit or a dead pseudo-channel in a range its bytes read as stored. -/
theorem stored_quiet {st : StackS} {a n i : Nat} (hm : st.mem.wf = true) (hq : st.quiet a n = true) (hi : i < n) :
    st.stored (a + i) = ⟨st.mem.get (a + i), false⟩ := by
  simp only [StackS.quiet, Bool.and_eq_true, List.isEmpty_iff, Bool.not_eq_true', List.any_eq_false, decide_eq_true_eq,
    not_and, not_le] at hq
  obtain ⟨⟨hd, hp⟩, he⟩ := hq
  have hin : a / 64 ≤ (a + i) / 64 ∧ (a + i) / 64 ≤ (a + n) / 64 := by omega
  have hpoison : (a + i) / 64 ∉ st.poison := fun h => by have := hp _ h hin.1; omega
  have hlook : ∀ (l : List (Nat × Pattern)), (∀ e ∈ l, a / 64 ≤ e.1 → (a + n) / 64 < e.1) → alookup ((a + i) / 64) l = none := by
    intro l hl
    induction l with
    | nil => rfl
    | cons e l ih =>
      have hne : e.1 ≠ (a + i) / 64 := fun h => by have := hl e List.mem_cons_self (by omega); omega
      obtain ⟨k, v⟩ := e
      simp only [alookup, if_neg hne]
      exact ih (fun e he => hl e (List.mem_cons_of_mem _ he))
  have herr : st.errsOf ((a + i) / 64) = [] := by rw [StackS.errsOf, hlook st.errs he]; rfl
  have hoff : (a + i) % 64 < 64 := Nat.mod_lt _ (by decide)
  have haddr : 64 * ((a + i) / 64) + (a + i) % 64 = a + i := Nat.div_add_mod _ _
  rw [StackS.stored, sectorBytes_clean hpoison (by simp [hd]) herr, Mem.read_eq _ _ _ hm]
  simp [hoff, haddr]

/-- Entries laid over a list of bytes are laid over each of them. -/
theorem overlays_eq (g : WcbEntry → Nat → PByte → PByte) (es : List WcbEntry) (raw : List PByte) :
    es.foldl (fun bs e => bs.zipIdx.map (fun b => g e b.2 b.1)) raw =
      raw.zipIdx.map (fun b => es.foldl (fun v e => g e b.2 v) b.1) := by
  induction es generalizing raw with
  | nil => simp
  | cons e es ih =>
    rw [List.foldl_cons, ih]
    refine List.ext_getElem (by simp) (fun i h1 h2 => ?_)
    simp

/-- Entries of other sectors than an address' may be left out. -/
theorem foldl_over_filter (es : List WcbEntry) (p : WcbEntry → Bool) (a : Nat) (h : ∀ e ∈ es, p e = false → a / 64 ≠ e.sector)
    (b : PByte) : (es.filter p).foldl (fun b e => e.over a b) b = es.foldl (fun b e => e.over a b) b := by
  induction es generalizing b with
  | nil => rfl
  | cons e es ih =>
    have ih := ih (fun e he => h e (List.mem_cons_of_mem _ he))
    cases hp : p e
    · rw [List.filter_cons_of_neg (by simp [hp]), List.foldl_cons, ih, WcbEntry.over, if_neg (h e List.mem_cons_self hp)]
    · rw [List.filter_cons_of_pos hp, List.foldl_cons, List.foldl_cons, ih]

/-- A read of a stack gives its bytes one by one. -/
theorem StackS.read_eq (st : StackS) (hm : st.mem.wf = true) (a n : Nat) :
    st.read a n = (List.range n).map (fun i => st.peek (a + i)) := by
  have hraw : (if st.quiet a n then (st.mem.read a n).map (fun b => (⟨b, false⟩ : PByte))
      else (((sectorsOf a n).flatMap st.sectorBytes).drop (a % 64)).take n) = (List.range n).map (fun i => st.stored (a + i)) := by
    split
    next hq =>
      rw [Mem.read_eq _ _ _ hm, List.map_map]
      exact List.map_congr_left (fun i hi => (stored_quiet hm hq (List.mem_range.1 hi)).symm)
    next => exact drop_take_sectors st a n
  unfold StackS.read
  dsimp only
  rw [hraw]
  refine (overlays_eq (fun e i b => e.over (a + i) b) _ _).trans (List.ext_getElem (by simp) (fun i h1 h2 => ?_))
  have hi : i < n := by simpa using h2
  simp only [List.getElem_map, List.getElem_zipIdx, List.getElem_range, Nat.zero_add]
  refine foldl_over_filter _ _ _ (fun e _ he hs => ?_) _
  simp at he
  omega

/-! # What a write of whole sectors leaves (10, R246, R260, R261) -/

/-! ## Lists -/

theorem chunksFuel_getElem? {α : Type} (fuel n : Nat) (l : List α) (hn : 0 < n) (hf : l.length ≤ fuel) (j : Nat) :
    (chunksFuel fuel n l)[j]? = if n * j < l.length then some ((l.drop (n * j)).take n) else none := by
  induction fuel generalizing l j with
  | zero =>
    have hl : l = [] := List.eq_nil_of_length_eq_zero (Nat.le_zero.1 hf)
    simp [chunksFuel, hl]
  | succ fuel ih =>
    cases l with
    | nil => simp [chunksFuel]
    | cons a l =>
      cases j with
      | zero => simp [chunksFuel]
      | succ j =>
        have hlen : ((a :: l).drop n).length ≤ fuel := by simp at hf ⊢; omega
        simp only [chunksFuel, List.getElem?_cons_succ, ih _ hlen, List.length_drop, List.drop_drop]
        have hmul : n * (j + 1) = n * j + n := Nat.mul_succ n j
        rw [hmul, Nat.add_comm n (n * j)]
        by_cases h : n * j + n < (a :: l).length
        · rw [if_pos (by omega), if_pos h]
        · rw [if_neg (by omega), if_neg h]

theorem chunks_getElem? {α : Type} (n : Nat) (l : List α) (hn : 0 < n) (j : Nat) :
    (chunks n l)[j]? = if n * j < l.length then some ((l.drop (n * j)).take n) else none :=
  chunksFuel_getElem? _ _ _ hn le_rfl j

@[simp] theorem mem_setInsert (x y : Nat) (l : List Nat) : y ∈ setInsert x l ↔ y = x ∨ y ∈ l := by
  induction l with
  | nil => simp [setInsert]
  | cons z l ih =>
    simp only [setInsert]
    split
    · simp
    · split
      · simp [*]
      · rw [List.mem_cons, ih, List.mem_cons]; tauto

theorem mem_foldl_setInsert (xs l : List Nat) (y : Nat) : y ∈ xs.foldl (fun l x => setInsert x l) l ↔ y ∈ xs ∨ y ∈ l := by
  induction xs generalizing l with
  | nil => simp
  | cons x xs ih => rw [List.foldl_cons, ih, mem_setInsert, List.mem_cons]; tauto

@[simp] theorem mem_clearRange (l : List Nat) (lo n x : Nat) : x ∈ clearRange l lo n ↔ x ∈ l ∧ (x < lo ∨ lo + n ≤ x) := by
  simp [clearRange]

/-- A lookup among the entries that pass a test which depends on the key. -/
theorem alookup_filter {β : Type} (p : Nat → Bool) (k : Nat) (l : List (Nat × β)) :
    alookup k (l.filter (fun e => p e.1)) = if p k then alookup k l else none := by
  induction l with
  | nil => simp [alookup]
  | cons e l ih =>
    obtain ⟨j, v⟩ := e
    by_cases hj : j = k
    · subst hj
      cases hp : p j
      · rw [List.filter_cons_of_neg (by simp [hp]), ih, hp]; rfl
      · rw [List.filter_cons_of_pos (by simpa using hp)]; simp [alookup]
    · cases hp : p j
      · rw [List.filter_cons_of_neg (by simp [hp]), ih]; simp [alookup, hj]
      · rw [List.filter_cons_of_pos (by simpa using hp)]; simp only [alookup, if_neg hj, ih]

/-! ## Sectors stored -/

/-- Poison of one of the sectors that a write covers. -/
def sectorPoison (bs : List PByte) (j : Nat) : Bool := ((bs.drop (64 * j)).take 64).any (·.p)

section
variable (st : StackS) {a : Nat} {bs : List PByte} (ha : a % 64 = 0) (hb : bs.length % 64 = 0)
include ha hb

omit ha in
/-- The marks of the sectors written follow the write's poison; every other mark stays. -/
theorem mem_poison_putSectors (k : Nat) : k ∈ (st.putSectors a bs).poison ↔
    if a / 64 ≤ k ∧ k < a / 64 + bs.length / 64 then sectorPoison bs (k - a / 64) = true else k ∈ st.poison := by
  have hbad : k ∈ (((chunks 64 bs).zipIdx.filter (fun c => c.1.any (·.p))).map (fun c => a / 64 + c.2)) ↔
      (a / 64 ≤ k ∧ k < a / 64 + bs.length / 64) ∧ sectorPoison bs (k - a / 64) = true := by
    simp only [List.mem_map, List.mem_filter, Prod.exists, List.mem_zipIdx_iff_getElem?, chunks_getElem? 64 bs (by decide)]
    constructor
    · rintro ⟨c, j, ⟨hj, hc⟩, rfl⟩
      by_cases hlt : 64 * j < bs.length
      · rw [if_pos hlt, Option.some.injEq] at hj
        subst hj
        have hsub : a / 64 + j - a / 64 = j := by omega
        exact ⟨by omega, by rw [hsub]; exact hc⟩
      · rw [if_neg hlt] at hj; cases hj
    · rintro ⟨⟨h1, h2⟩, hp⟩
      exact ⟨_, k - a / 64, ⟨if_pos (by omega), hp⟩, by omega⟩
  unfold StackS.putSectors
  dsimp only
  rw [mem_foldl_setInsert, hbad, mem_clearRange]
  split
  next h => simp only [h, true_and]; constructor
            · rintro (h' | h')
              · exact h'
              · omega
            · exact Or.inl
  next h => simp only [h, false_and, false_or, and_iff_left_iff_imp]; omega

/-- A sector outside the range written reads as before. -/
theorem sectorBytes_putSectors_outside (hm : st.mem.wf = true) {k : Nat} (hk : k < a / 64 ∨ a / 64 + bs.length / 64 ≤ k) :
    (st.putSectors a bs).sectorBytes k = st.sectorBytes k := by
  have hread : (st.putSectors a bs).mem.read (64 * k) 64 = st.mem.read (64 * k) 64 := by
    rw [Mem.read_eq _ _ _ (StackS.wf_putSectors st a bs hm), Mem.read_eq _ _ _ hm]
    refine List.map_congr_left (fun i hi => ?_)
    have hi := List.mem_range.1 hi
    exact (Mem.get_write _ _ _ _).trans (if_neg (by simp; omega))
  have herr : (st.putSectors a bs).errsOf k = st.errsOf k := by
    have hk' : (decide (k < a / 64) || decide (a / 64 + bs.length / 64 ≤ k)) = true := by simpa using hk
    have hl := alookup_filter (fun e => decide (e < a / 64) || decide (a / 64 + bs.length / 64 ≤ e)) k st.errs
    rw [if_pos hk'] at hl
    exact congrArg (fun o => Option.getD o []) hl
  have hpoison : (st.putSectors a bs).poison.contains k = st.poison.contains k := by
    rw [Bool.eq_iff_iff, List.contains_iff_mem, List.contains_iff_mem, mem_poison_putSectors st hb, if_neg (by omega)]
  have hout : (st.putSectors a bs).outcome k = st.outcome k := by
    simp only [StackS.outcome, hpoison, herr]
    rfl
  simp only [StackS.sectorBytes, hread, herr, hout]

/-- One inside holds the bytes written, under their poison, or lost in a dead pseudo-channel (10, R259). -/
theorem sectorBytes_putSectors_inside (hm : st.mem.wf = true) {k : Nat} (lo : a / 64 ≤ k) (hi : k < a / 64 + bs.length / 64) :
    (st.putSectors a bs).sectorBytes k = ((bs.drop (64 * (k - a / 64))).take 64).map (fun b =>
      ⟨b.b, sectorPoison bs (k - a / 64) || st.dead.contains (pseudoChannel (64 * k))⟩) := by
  have hread : (st.putSectors a bs).mem.read (64 * k) 64 = ((bs.drop (64 * (k - a / 64))).take 64).map (·.b) := by
    rw [StackS.putSectors, Mem.read_write_inside _ _ _ _ _ hm (by omega) (by simp; omega),
      show 64 * k - a = 64 * (k - a / 64) by omega, List.map_take, List.map_drop]
  have herr : (st.putSectors a bs).errsOf k = [] := by
    have hk' : (decide (k < a / 64) || decide (a / 64 + bs.length / 64 ≤ k)) = false := by simp; omega
    have hl := alookup_filter (fun e => decide (e < a / 64) || decide (a / 64 + bs.length / 64 ≤ e)) k st.errs
    rw [hk'] at hl
    exact congrArg (fun o => Option.getD o []) hl
  have hpoison : (st.putSectors a bs).poison.contains k = sectorPoison bs (k - a / 64) := by
    rw [Bool.eq_iff_iff, List.contains_iff_mem, mem_poison_putSectors st hb, if_pos ⟨lo, hi⟩]
  have hdead : (st.putSectors a bs).dead = st.dead := rfl
  simp only [StackS.sectorBytes, StackS.outcome, hread, herr, hpoison, hdead, decodeSector_nil]
  cases sectorPoison bs (k - a / 64) <;> cases st.dead.contains (pseudoChannel (64 * k)) <;>
    simp [flipData, Function.comp_def]

/-- What a byte reads as after a write of whole sectors. -/
theorem stored_putSectors (hm : st.mem.wf = true) (b : Nat) : (st.putSectors a bs).stored b =
    if a ≤ b ∧ b < a + bs.length then
      ⟨((bs[b - a]?).getD ⟨0, false⟩).b, sectorPoison bs ((b - a) / 64) || st.dead.contains (pseudoChannel (64 * (b / 64)))⟩
    else st.stored b := by
  split
  next h =>
    have hsub : b / 64 - a / 64 = (b - a) / 64 := by omega
    have hidx : 64 * ((b - a) / 64) + b % 64 = b - a := by omega
    have hlt : b - a < bs.length := by omega
    have hoff : b % 64 < 64 := Nat.mod_lt _ (by decide)
    rw [StackS.stored, sectorBytes_putSectors_inside st ha hb hm (by omega) (by omega), hsub]
    simp [List.getElem?_take_of_lt hoff, List.getElem?_drop, hidx, List.getElem?_eq_getElem hlt]
  next h =>
    rw [StackS.stored, sectorBytes_putSectors_outside st ha hb hm (by omega)]
    rfl

/-- A write of whole sectors goes to the stored sectors and takes their entries out of the buffer. -/
theorem peek_writeFull (hm : st.mem.wf = true) (b : Nat) : (st.writeFull a bs).peek b =
    if a ≤ b ∧ b < a + bs.length then
      ⟨((bs[b - a]?).getD ⟨0, false⟩).b, sectorPoison bs ((b - a) / 64) || st.dead.contains (pseudoChannel (64 * (b / 64)))⟩
    else st.peek b := by
  have hstored : (st.writeFull a bs).stored b = (st.putSectors a bs).stored b := rfl
  have hwcb : (st.writeFull a bs).wcb = st.wcb.filter (fun e => decide (e.sector < a / 64) || decide (a / 64 + bs.length / 64 ≤ e.sector)) := rfl
  rw [StackS.peek, hstored, stored_putSectors st ha hb hm, hwcb]
  split
  next h =>
    have hnone : ∀ (es : List WcbEntry) (v : PByte), (∀ e ∈ es, b / 64 ≠ e.sector) → es.foldl (fun b' e => e.over b b') v = v := by
      intro es
      induction es with
      | nil => exact fun v _ => rfl
      | cons e es ih =>
        intro v he
        rw [List.foldl_cons, WcbEntry.over, if_neg (he e List.mem_cons_self)]
        exact ih v (fun e' h' => he e' (List.mem_cons_of_mem _ h'))
    refine hnone _ _ (fun e he heq => ?_)
    have := (List.mem_filter.1 he).2
    simp at this
    omega
  next h =>
    refine foldl_over_filter _ _ _ (fun e _ hp heq => ?_) _
    simp at hp
    omega

end

/-- A write of whole sectors is one write of full entries. -/
theorem write_aligned (st : StackS) {a : Nat} {bs : List PByte} (ha : a % 64 = 0) (hb : bs.length % 64 = 0) (h0 : 0 < bs.length) :
    st.write a bs = st.writeFull a bs := by
  have hhead : min bs.length ((64 - a % 64) % 64) = 0 := by omega
  have hn : bs.length / 64 * 64 = bs.length := by omega
  have hne : bs.length ≠ 0 := by omega
  simp only [StackS.write, hhead, if_true, List.drop_zero, hn, if_neg hne, List.take_length, List.drop_length, Nat.add_zero,
    List.isEmpty_nil]

/-- A write of whole sectors with no poison into a stack without a dead pseudo-channel is read back. -/
theorem read_write_aligned (st : StackS) (hm : st.mem.wf = true) (hd : st.dead = []) {a : Nat} {bs : List Byte} (ha : a % 64 = 0)
    (hb : bs.length % 64 = 0) (h0 : 0 < bs.length) :
    (st.write a (bs.map (fun b => ⟨b, false⟩))).read a bs.length = bs.map (fun b => ⟨b, false⟩) := by
  have hclean (j : Nat) : sectorPoison (bs.map (fun b => (⟨b, false⟩ : PByte))) j = false := by
    simp only [sectorPoison, List.any_eq_false]
    intro b hb'
    obtain ⟨v, -, rfl⟩ := List.mem_map.1 (List.mem_of_mem_drop (List.mem_of_mem_take hb'))
    simp
  rw [write_aligned st ha (by simpa using hb) (by simpa using h0), StackS.read_eq _ (StackS.wf_writeFull _ _ _ hm)]
  refine List.ext_getElem (by simp) (fun i h1 h2 => ?_)
  have hi : i < bs.length := by simpa using h1
  rw [List.getElem_map, List.getElem_range, peek_writeFull st ha (by simpa using hb) hm, if_pos (by simp; omega)]
  simp [hclean, hd, hi]

end Sys2Proof.Machine
end

section
/-! PROOFS. FEED into a placed page (10, 12). -/

namespace Sys2Proof.Machine

open Sys2Proof

/-! # The unified range on a placed page (10, R252; 11, R268) -/

/-- A range within one unit is one piece. -/
theorem pieces_one {u a n : Nat} (fuel : Nat) (h0 : 0 < n) (h : a % u + n ≤ u) : pieces u (fuel + 2) a n = [(a, n)] := by
  have hk : min n (u - a % u) = n := by omega
  simp [pieces, Nat.ne_of_gt h0, hk]

section
variable {s : State} {a : Nat} {e : HomeEntry} {n : Fin 12} {f : Nat} (he : s.homeOf (a / 131072) = some e)
  (hh : e.home = .placed n f)
include he hh

theorem uwrite_placed (hd : e.dest = none) {bs : List PByte} (h0 : 0 < bs.length) (hp : a % 131072 + bs.length ≤ 131072) :
    s.uwrite a bs = (s.invalidate a bs.length).modStack n (fun st => st.write (frameBase n f + a % 131072) bs) := by
  have hhome : (s.invalidate a bs.length).homeOf (a / 131072) = some e := he
  simp only [State.uwrite, pieces_one _ h0 hp, List.foldl_cons, List.foldl_nil, hhome, hd, hh, State.writeHome, State.nearPieces,
    List.take_length]

theorem uread_placed {k : Nat} (h0 : 0 < k) (hp : a % 131072 + k ≤ 131072) :
    s.uread a k = (s.stack n).read (frameBase n f + a % 131072) k := by
  simp [State.uread, pieces_one _ h0 hp, he, hh, State.readHome, State.nearPieces]

end

/-- A transfer that is allowed is of whole sectors (12, R307, R308). -/
theorem aligned_of_transferReason {s : State} {x : Fin 16} {p : Pkt} {n : Nat} {write : Bool}
    (h : s.transferReason x p n write = 0) : fld p.hdr 0x18 6 % 64 = 0 ∧ n % 64 = 0 ∧ 64 ≤ n := by
  by_contra hc
  have hal : (packetRegion p.hdr).base % 64 ≠ 0 ∨ n % 64 ≠ 0 ∨ n < 64 := by simp [packetRegion]; omega
  rw [State.transferReason, if_pos hal] at h
  cases h

/-- Settles O7: the page's range is written as whole sectors, which leaves no entry of the buffer and no mark over it. -/
theorem feedIsReadBackFromAPlacedPage : Obligations.FeedIsReadBackFromAPlacedPage := by
  intro s x i p a e n f hl hp hs ha hr hw hpage he hh hd hdead hwf
  subst ha
  obtain ⟨ha64, hn64, hlo⟩ := aligned_of_transferReason hr
  have hframe : (frameBase n f + fld p.hdr 0x18 6 % 131072) % 64 = 0 := by unfold frameBase; split <;> omega
  let bs : List PByte := p.pay.map (fun b => ⟨b, false⟩)
  have hlen : bs.length = p.pay.length := List.length_map _
  have hwrite : s.runFeed x p = ((s.invalidate (fld p.hdr 0x18 6) bs.length).modStack n (fun st =>
      st.write (frameBase n f + fld p.hdr 0x18 6 % 131072) bs)).modCtx x (fun k => k.ended p (okEntry p)) := by
    have hu : s.rwrite x (packetRegion p.hdr).space (ix 4 (packetRegion p.hdr).core) (packetRegion p.hdr).base bs =
        (s.invalidate (fld p.hdr 0x18 6) bs.length).modStack n (fun st =>
          st.write (frameBase n f + fld p.hdr 0x18 6 % 131072) bs) := by
      rw [← uwrite_placed he hh hd (by omega) (by omega)]
      exact if_neg (by simp [packetRegion, hs])
    exact (congrArg (fun u => State.donePacket u x p) hu).trans (donePacket_of_live hl)
  refine ⟨_, (inHub_up _ _ (hubUp_of_packetAt hp)).trans (congrArg _ ((doFeed_runs hp hr hw).trans hwrite)), ?_, ?_, ?_⟩
  · refine (uread_placed (e := e) ?_ hh (by omega) hpage).trans ?_
    · exact he
    rw [State.modCtx_stack, State.modStack_same]
    exact read_write_aligned (s.stack n) hwf hdead hframe hn64 (by omega)
  · rw [State.modCtx_same]; rfl
  · intro m hm
    rw [State.modCtx_stack, State.modStack_other _ _ _ _ hm]
    rfl

end Sys2Proof.Machine
end

section
/-! PROOFS. CREATE (12). -/

namespace Sys2Proof.Machine

open Sys2Proof

/-! ## CREATE (12, R311) -/

/-- Events of a running context wait for its ring in their order. -/
theorem foldl_event_active (x : Fin 16) (rs : List Nat) (s : State) (h : (s.ctx x).state = .active) :
    rs.foldl (fun s r => s.event x r []) s = s.modCtx x (fun k => { k with
      formed := k.formed ++ rs.map (fun r => { Entry.blank 4 r with detail := [] }) }) := by
  induction rs generalizing s with
  | nil => exact (State.modCtx_id s x _ (by simp)).symm
  | cons r rs ih =>
    have hev : s.event x r [] = s.modCtx x (fun k => { k with formed := k.formed ++ [{ Entry.blank 4 r with detail := [] }] }) :=
      post_active s x _ h
    rw [List.foldl_cons, hev, ih _ (by simpa using h), State.modCtx_modCtx]
    simp [List.append_assoc]

section
variable {s : State} {x : Fin 16} {i : Fin 8} {p : Pkt}

/-- The context that a CREATE makes, with the entry of its packet. -/
theorem control_create : s.control x p 0 (fun s => s.modCtx x (fun k => newCtx k p.hdr)) =
    s.modCtx x (fun k => (newCtx k p.hdr).ended p (okEntry p)) := by
  have hlive : Live (s.modCtx x (fun k => newCtx k p.hdr)) x := by
    rw [Live, State.modCtx_same]; exact ⟨rfl, rfl⟩
  exact (donePacket_of_live hlive).trans (State.modCtx_modCtx s x _ _)

/-- A CREATE that is allowed, and the events of the start that context 0 receives (19, R468). -/
theorem doCreate_eq (hp : s.packetAt x i 4 (some 0x01) = some p) (hok : createOk p.hdr = true) (hs : s.stacksOn = true)
    (hr : s.clock.ready = true) (hf : s.faults.fatal = false) : doCreate x i s =
      ({ s with sec := { s.sec with startEvents := if x = 0 then [] else s.sec.startEvents } }).modCtx x (fun k =>
        { (newCtx k p.hdr).ended p (okEntry p) with formed := okEntry p ::
          (if x = 0 then s.sec.startEvents.map (fun r => { Entry.blank 4 r with detail := [] }) else []) }) := by
  simp only [doCreate, hp, hok, hs, hr, hf, firstReason, Bool.not_true, Bool.or_self, Bool.false_eq_true, if_false, control_create]
  by_cases hx : x = 0
  · subst hx
    simp only [decide_true, BEq.rfl, Bool.and_self, if_true, State.postStartEvents]
    refine (foldl_event_active 0 _ _ ?_).trans ?_
    · exact (congrArg Ctx.state (State.modCtx_same s 0 _)).trans rfl
    · exact State.modCtx_modCtx ({ s with sec := { s.sec with startEvents := [] } }) 0
        (fun k => (newCtx k p.hdr).ended p (okEntry p)) _
  · simp only [hx, decide_false, Bool.false_and, Bool.false_eq_true, if_false]
    rfl

end

/-- Settles O9: the fields of the new context. -/
theorem createMakesAContext : Obligations.CreateMakesAContext := by
  intro s x i p hp hok hs hr hf
  refine ⟨_, (inHub_up _ _ (hubUp_of_packetAt hp)).trans (congrArg _ (doCreate_eq hp hok hs hr hf)),
    fun y hy => State.modCtx_other _ x y _ hy, rfl, ?_⟩
  rw [State.modCtx_same]
  refine ⟨rfl, rfl, rfl, rfl, fun k hk => ?_, rfl, rfl, rfl, fun k => ?_, rfl, ?_, rfl⟩
  · simp [newCtx, Ctx.ended, hk]
  · simp [newCtx, Ctx.ended, Ctx.blank]
  · simp [newCtx, Ctx.ended]

end Sys2Proof.Machine
end

section
/-! PROOFS. DESTROY and DESTROY_FINISH (12). -/

namespace Sys2Proof.Machine

open Sys2Proof

/-! ## DESTROY and DESTROY_FINISH (12, R312) -/

/-! ### What frees pages posts entries only -/

/-- Of the contexts only entries change, and no core does. -/
structure Posts (s t : State) : Prop where
  cores : t.cores = s.cores
  ctx : ∀ y, t.ctx y = { s.ctx y with formed := (t.ctx y).formed }
  formed : ∀ y, (s.ctx y).formed <+: (t.ctx y).formed

theorem Posts.refl (s : State) : Posts s s := ⟨rfl, fun _ => rfl, fun _ => List.prefix_rfl⟩

theorem Posts.trans {s t u : State} (h : Posts s t) (k : Posts t u) : Posts s u := by
  obtain ⟨h1, h2, h3⟩ := h
  obtain ⟨k1, k2, k3⟩ := k
  refine ⟨k1.trans h1, fun y => ?_, fun y => (h3 y).trans (k3 y)⟩
  have k := k2 y
  rw [h2 y] at k; exact k

theorem Written.posts {s t : State} (h : Written s t) : Posts s t := ⟨h.cores, h.ctx, h.formed⟩

theorem posts_of_same {s t : State} (h : t.hub.ctxs = s.hub.ctxs) (hc : t.cores = s.cores) : Posts s t := by
  have hx (y : Fin 16) : t.ctx y = s.ctx y := by simp only [State.ctx, h]
  exact ⟨hc, fun y => by rw [hx], fun y => by rw [hx]⟩

theorem posts_modTiers (s : State) (f : Tiers → Tiers) : Posts s (s.modTiers f) := posts_of_same rfl rfl

theorem posts_foldl {α : Type} (f : State → α → State) (l : List α) (h : ∀ s a, Posts s (f s a)) (s : State) :
    Posts s (l.foldl f s) := frame_foldl Posts.refl Posts.trans f l (fun s a _ => h s a) s

theorem posts_clearDeep (s : State) (p : Nat) : Posts s (s.clearDeep p) :=
  (posts_modTiers s _).trans (posts_foldl _ _ (fun s _ => (written_deepLowCheck s _ _).posts) _)

theorem posts_landStalled (s : State) (m : Move) : Posts s (s.landStalled m) :=
  posts_foldl _ _ (fun s _ => (written_uwrite s _ _).posts) s

theorem posts_freePage (s : State) (p : Nat) : Posts s (s.freePage p) := by
  unfold State.freePage
  dsimp only
  split
  · split
    · exact posts_modTiers s _
    · exact (posts_modTiers s _).trans (posts_clearDeep _ _)
  · exact posts_modTiers s _

/-! ### The home map -/

theorem post_tiers (s : State) (x : Fin 16) (e : Entry) : (s.post x e).tiers = s.tiers := by
  rcases post_cases s x e with h | h <;> rw [h]
  rfl

/-- The home map is the same. -/
def SameMap (s t : State) : Prop := t.tiers.map = s.tiers.map

theorem SameMap.trans {s t u : State} (h : SameMap s t) (k : SameMap t u) : SameMap s u := Eq.trans k h

theorem sameMap_foldl {α : Type} (f : State → α → State) (l : List α) (h : ∀ s a, SameMap s (f s a)) (s : State) :
    SameMap s (l.foldl f s) :=
  frame_foldl (R := SameMap) (fun _ => rfl) SameMap.trans f l (fun s a _ => h s a) s

theorem sameMap_deepLowCheck (s : State) (ch : Fin 16) (n : Nat) : SameMap s (s.deepLowCheck ch n) := by
  unfold State.deepLowCheck
  dsimp only
  split
  · refine SameMap.trans (t := s.modTiers (fun t => { t with lowArmed := t.lowArmed.set ch false })) rfl
      (sameMap_foldl _ _ (fun s x => ?_) _)
    split
    · exact congrArg Tiers.map (post_tiers _ _ _)
    · rfl
  · split <;> rfl

theorem sameMap_clearDeep (s : State) (p : Nat) : SameMap s (s.clearDeep p) :=
  SameMap.trans (t := s.modTiers (fun t => { t with
    deepDir := aerase p t.deepDir, deepMem := t.deepMem.erase (p * 131072) 131072
    deepPoison := clearRange t.deepPoison (p * 512) 512 })) rfl (sameMap_foldl _ _ (fun s _ => sameMap_deepLowCheck s _ _) _)

/-- A page that is freed leaves the home map. -/
theorem freePage_map (s : State) (p : Nat) : (s.freePage p).tiers.map = aerase p s.tiers.map := by
  unfold State.freePage
  dsimp only
  split
  · split
    · rfl
    · rw [sameMap_clearDeep]; rfl
  · rfl

theorem mem_aerase {β : Type} (k : Nat) (l : List (Nat × β)) (e : Nat × β) : e ∈ aerase k l ↔ e ∈ l ∧ e.1 ≠ k := by
  simp [aerase]

theorem mem_foldl_freePage (l : List (Nat × HomeEntry)) (s : State) (e : Nat × HomeEntry) :
    e ∈ (l.foldl (fun s e => s.freePage e.1) s).tiers.map ↔ e ∈ s.tiers.map ∧ e.1 ∉ l.map (·.1) := by
  induction l generalizing s with
  | nil => simp
  | cons q l ih => rw [List.foldl_cons, ih, freePage_map, mem_aerase]; simp [and_assoc]

/-! ### What a context that is destroyed loses -/

/-- Of the contexts only entries change, with the aborts of context x, and no core does. -/
structure Halts (x : Fin 16) (s t : State) : Prop where
  cores : t.cores = s.cores
  own : t.ctx x = { s.ctx x with formed := (t.ctx x).formed, aborts := (t.ctx x).aborts }
  others : ∀ y, y ≠ x → t.ctx y = { s.ctx y with formed := (t.ctx y).formed }
  formed : ∀ y, (s.ctx y).formed <+: (t.ctx y).formed

theorem Halts.refl (x : Fin 16) (s : State) : Halts x s s := ⟨rfl, rfl, fun _ _ => rfl, fun _ => List.prefix_rfl⟩

theorem Halts.trans {x : Fin 16} {s t u : State} (h : Halts x s t) (k : Halts x t u) : Halts x s u := by
  obtain ⟨h1, h2, h3, h4⟩ := h
  obtain ⟨k1, k2, k3, k4⟩ := k
  refine ⟨k1.trans h1, ?_, fun y hy => ?_, fun y => (h4 y).trans (k4 y)⟩
  · rw [h2] at k2; exact k2
  · have k := k3 y hy
    rw [h3 y hy] at k; exact k

theorem Posts.halts {s t : State} (h : Posts s t) (x : Fin 16) : Halts x s t :=
  ⟨h.cores, by rw [h.ctx x], fun y _ => h.ctx y, h.formed⟩

theorem halts_modCtx (s : State) (x : Fin 16) (f : W64 → W64) : Halts x s (s.modCtx x (fun k => { k with aborts := f k.aborts })) := by
  refine ⟨rfl, by rw [State.modCtx_same], fun y hy => by rw [State.modCtx_other s x y _ hy], fun y => ?_⟩
  by_cases hy : y = x
  · subst hy; rw [State.modCtx_same]
  · rw [State.modCtx_other s x y _ hy]

/-- Moves that stop land what has stalled on them (11, R283, R312). -/
theorem halts_haltMoves (s : State) (x : Fin 16) : Halts x s (s.haltMoves x) := by
  unfold State.haltMoves
  refine frame_foldl (Halts.refl x) Halts.trans _ _ (fun s m _ => ?_) s
  dsimp only
  split
  · exact (posts_modTiers s _).halts x
  next e _ =>
    have land : ∀ u, Posts s u → Halts x s (if e.dest.isSome then (u.landStalled m).modCtx x (fun k => { k with
        aborts := satAdd k.aborts 1 }) else u.landStalled m) := by
      intro u hu
      have hland := (hu.trans (posts_landStalled u m)).halts x
      split
      · exact hland.trans (halts_modCtx _ x (fun n => satAdd n 1))
      · exact hland
    refine land _ ?_
    split
    · exact ((posts_modTiers s _).trans (posts_modTiers _ _)).trans (posts_clearDeep _ _)
    · exact (posts_modTiers s _).trans (posts_modTiers _ _)

/-- A context with no move has none to stop. -/
theorem haltMoves_of_none {s : State} {x : Fin 16} (h : ∀ m ∈ s.tiers.moves, m.x ≠ x) : s.haltMoves x = s := by
  have hnil : s.tiers.moves.filter (fun m => m.x == x) = [] := List.filter_eq_nil_iff.2 (fun m hm => by simpa using h m hm)
  rw [State.haltMoves, hnil]; rfl

/-- Only the spans of cores differ, with what the arrays have captured for them. -/
structure DropsSpans (s t : State) : Prop where
  rest : t = { s with cores := t.cores, arrays := t.arrays }
  core : ∀ c, t.core c = { s.core c with span := (t.core c).span }

theorem DropsSpans.refl (s : State) : DropsSpans s s := ⟨rfl, fun _ => rfl⟩

theorem DropsSpans.trans {s t u : State} (h : DropsSpans s t) (k : DropsSpans t u) : DropsSpans s u := by
  obtain ⟨h1, h2⟩ := h
  obtain ⟨k1, k2⟩ := k
  refine ⟨?_, fun c => ?_⟩
  · rw [h1] at k1; exact k1
  · have k := k2 c
    rw [h2 c] at k; exact k

theorem dropsSpans_drop (s : State) (c : Fin 4) : DropsSpans s ((s.modCore c (fun k => { k with span := none })).clearCaptures c) := by
  have hcore (d : Fin 4) : ((s.modCore c (fun k => { k with span := none })).clearCaptures c).core d =
      (s.modCore c (fun k => { k with span := none })).core d := rfl
  refine ⟨rfl, fun d => ?_⟩
  rw [hcore]
  by_cases hd : d = c
  · subst hd
    rw [State.modCore_same]
  · rw [State.modCore_other s c d _ hd]

/-- What a context holds queued when it begins to be destroyed. -/
def Ctx.emptied (k : Ctx) (tag : Option (Nat × W32 × W64 × Nat)) : Ctx :=
  { k with
    state := .destroying, discarded := k.queued, destroyTag := tag, fabric := [], memory := []
    cores := k.cores.map (fun q => { q with main := [], eval := [], admitted := 0, setPending := false, hint := none }) }

theorem queued_of_empty {k : Ctx} (hq : ∀ q ∈ k.cores.toList, q.main = [] ∧ q.eval = []) (hf : k.fabric = []) (hm : k.memory = []) :
    k.queued = 0 := by
  have hcores : ∀ (l : List CtxCore), (∀ q ∈ l, q.main = [] ∧ q.eval = []) →
      l.foldl (fun n c => n + c.main.length + c.eval.length) 0 = 0 := by
    intro l
    induction l with
    | nil => exact fun _ => rfl
    | cons q l ih =>
      intro h
      obtain ⟨h1, h2⟩ := h q List.mem_cons_self
      rw [List.foldl_cons, h1, h2]
      exact ih (fun q' hq => h q' (List.mem_cons_of_mem _ hq))
  rw [Ctx.queued, hcores _ hq, hf, hm]; rfl

theorem queued_emptied (k : Ctx) (tag : Option (Nat × W32 × W64 × Nat)) : (k.emptied tag).queued = 0 := by
  refine queued_of_empty (fun q hq => ?_) rfl rfl
  simp only [Ctx.emptied, Vector.toList_map, List.mem_map] at hq
  obtain ⟨q', -, rfl⟩ := hq
  exact ⟨rfl, rfl⟩

/-- A context begins to be destroyed (12, R312): queues and spans first, then moves. -/
theorem beginDestroy_eq (s : State) (x : Fin 16) (tag : Option (Nat × W32 × W64 × Nat)) :
    ∃ u, DropsSpans (s.modCtx x (·.emptied tag)) u ∧
      s.beginDestroy x tag = (u.haltMoves x).modTiers (fun t => { t with reqs := t.reqs.filter (fun r => r.x != x) }) := by
  refine ⟨_, ?_, rfl⟩
  refine frame_foldl DropsSpans.refl DropsSpans.trans _ _ (fun s c _ => ?_) _
  split
  · split
    · exact dropsSpans_drop _ _
    · exact DropsSpans.refl s
  · exact DropsSpans.refl s

theorem DropsSpans.ctx {s t : State} (h : DropsSpans s t) (y : Fin 16) : t.ctx y = s.ctx y := by
  rw [State.ctx, h.rest]; rfl

/-- A context that begins to be destroyed: what is left of it, and of the others. -/
theorem beginDestroy_halts (s : State) (x : Fin 16) (tag : Option (Nat × W32 × W64 × Nat)) :
    (∃ u, DropsSpans (s.modCtx x (·.emptied tag)) u ∧ Halts x u (s.beginDestroy x tag)) ∧
      ((∀ m ∈ s.tiers.moves, m.x ≠ x) → ∀ y, ((s.beginDestroy x tag).ctx y).formed = (s.ctx y).formed) := by
  obtain ⟨u, hu, heq⟩ := beginDestroy_eq s x tag
  rw [heq]
  refine ⟨⟨u, hu, (halts_haltMoves u x).trans ((posts_modTiers _ _).halts x)⟩, fun hm y => ?_⟩
  have hmoves : ∀ m ∈ u.tiers.moves, m.x ≠ x := by rw [hu.rest]; exact hm
  rw [haltMoves_of_none hmoves]
  show (u.ctx y).formed = _
  rw [hu.ctx]
  exact modCtx_keeps Ctx.formed (·.emptied tag) (fun _ => rfl) s x y

/-- The state in which a DESTROY of context t by x begins. -/
def State.destroyAsked (s : State) (x : Fin 16) (p : Pkt) : State :=
  (s.acceptPacket x p).modCtx p.target (fun k => { k with
    dying := false, killReason := if k.state = .killed then k.killReason else 0 })

section
variable {s : State} {x : Fin 16} {i : Fin 8} {p : Pkt}

theorem doDestroy_eq (hp : s.packetAt x i 4 (some 0x02) = some p) (hl : Live s p.target) :
    doDestroy x i s = (s.destroyAsked x p).beginDestroy p.target (some (x, p.seq, p.tag, p.slot.val)) := by
  obtain ⟨ha, hd⟩ := hl
  simp only [doDestroy, hp, ha, hd, Bool.false_and, Bool.false_eq_true, if_false, bne_self_eq_false]
  rfl

/-- A DESTROY that begins leaves of a context all but the slot of its packet, and the kill of its target. -/
theorem destroyAsked_keeps {α : Type} (g : Ctx → α) (hs : ∀ k v, g { k with slots := v } = g k)
    (hd : ∀ k b n, g { k with dying := b, killReason := n } = g k) (y : Fin 16) :
    g ((s.destroyAsked x p).ctx y) = g (s.ctx y) :=
  (modCtx_keeps g (fun k => { k with dying := false, killReason := if k.state = .killed then k.killReason else 0 })
    (fun k => hd k _ _) (s.acceptPacket x p) p.target y).trans (modCtx_keeps g _ (fun k => hs k _) s x y)

theorem destroyAsked_other {y : Fin 16} (hx : y ≠ x) (ht : y ≠ p.target) : (s.destroyAsked x p).ctx y = s.ctx y := by
  rw [State.destroyAsked, State.modCtx_other _ _ _ _ ht]
  exact State.modCtx_other _ _ _ _ hx

theorem destroyAsked_slot : ((s.destroyAsked x p).ctx x).slots[p.slot].state = .accepted := by
  have h := modCtx_keeps Ctx.slots (fun k => { k with dying := false, killReason := if k.state = .killed then k.killReason else 0 })
    (fun _ => rfl) (s.acceptPacket x p) p.target x
  rw [State.destroyAsked, h]
  simp [State.acceptPacket, State.modSlot]

end

theorem destroy_begins {s : State} {x : Fin 16} {i : Fin 8} {p : Pkt} (hp : s.packetAt x i 4 (some 0x02) = some p)
    (hl : Live s p.target) : ((doDestroy x i s).ctx p.target).state = .destroying ∧
      ((doDestroy x i s).ctx p.target).discarded = (s.ctx p.target).queued ∧ ((doDestroy x i s).ctx p.target).queued = 0 ∧
      (∀ c, ((doDestroy x i s).core c).running = (s.core c).running) ∧
      ((doDestroy x i s).ctx p.target).fabricRun = (s.ctx p.target).fabricRun ∧
      ((doDestroy x i s).ctx p.target).memoryRun = (s.ctx p.target).memoryRun ∧
      ((doDestroy x i s).ctx x).slots[p.slot].state = .accepted ∧
      (s.ctx p.target).formed <+: ((doDestroy x i s).ctx p.target).formed ∧
      (∀ y, y ≠ x → y ≠ p.target → (doDestroy x i s).ctx y = { s.ctx y with formed := ((doDestroy x i s).ctx y).formed }) ∧
      ((∀ m ∈ s.tiers.moves, m.x ≠ p.target) → ∀ y, ((doDestroy x i s).ctx y).formed = (s.ctx y).formed) := by
  rw [doDestroy_eq hp hl]
  obtain ⟨⟨u, hu, hh⟩, hformed⟩ := beginDestroy_halts (s.destroyAsked x p) p.target (some (x, p.seq, p.tag, p.slot.val))
  generalize (s.destroyAsked x p).beginDestroy p.target (some (x, p.seq, p.tag, p.slot.val)) = t at hh hformed ⊢
  have hown := hu.ctx p.target
  rw [State.modCtx_same] at hown
  have hcore (c : Fin 4) : t.core c = u.core c := by simp only [State.core, hh.cores]
  have hqueued : ((s.destroyAsked x p).ctx p.target).queued = (s.ctx p.target).queued :=
    destroyAsked_keeps Ctx.queued (fun _ _ => rfl) (fun _ _ _ => rfl) p.target
  have hkept : (t.ctx p.target).slots = ((s.destroyAsked x p).ctx p.target).slots := by rw [hh.own, hown]; rfl
  refine ⟨?_, ?_, ?_, fun c => ?_, ?_, ?_, ?_, ?_, fun y hx ht => ?_, fun hm y => ?_⟩
  · rw [hh.own, hown]; rfl
  · rw [hh.own, hown, ← hqueued]; rfl
  · rw [hh.own, hown]
    exact queued_emptied ((s.destroyAsked x p).ctx p.target) (some (x, p.seq, p.tag, p.slot.val))
  · rw [hcore, hu.core]; rfl
  · rw [hh.own, hown]; exact destroyAsked_keeps Ctx.fabricRun (fun _ _ => rfl) (fun _ _ _ => rfl) p.target
  · rw [hh.own, hown]; exact destroyAsked_keeps Ctx.memoryRun (fun _ _ => rfl) (fun _ _ _ => rfl) p.target
  · have hslots : (t.ctx x).slots = ((s.destroyAsked x p).ctx x).slots := by
      by_cases hx : x = p.target
      · rwa [← hx] at hkept
      · rw [hh.others x hx, hu.ctx, State.modCtx_other _ _ _ _ hx]
    rw [hslots]
    exact destroyAsked_slot
  · have hf := hh.formed p.target
    rw [hown] at hf
    exact (destroyAsked_keeps Ctx.formed (fun _ _ => rfl) (fun _ _ _ => rfl) p.target) ▸ hf
  · have hy := hu.ctx y
    rw [State.modCtx_other _ _ _ _ ht, destroyAsked_other hx ht] at hy
    have ho := hh.others y ht
    rw [hy] at ho
    exact ho
  · rw [hformed hm y]
    exact destroyAsked_keeps Ctx.formed (fun _ _ => rfl) (fun _ _ _ => rfl) y

/-! ### The end of a context -/

/-- A context that is being destroyed with a packet to answer still takes entries (12, R312, R317). -/
theorem post_destroying {s : State} {x : Fin 16} (e : Entry) (hs : (s.ctx x).state = .destroying)
    (ht : (s.ctx x).destroyTag.isSome = true) (hq : (s.ctx x).silent = false) :
    s.post x e = s.modCtx x (fun k => { k with formed := k.formed ++ [e] }) := by
  simp only [State.post, hs, ht, hq, Bool.not_false, Bool.and_self, if_true]

/-- What the end of a DESTROY leaves of its context before that becomes NONE: the packet's entry and the CONTEXT entry. -/
def Ctx.destroyed (k : Ctx) (p : Pkt) : Ctx :=
  { k with
    slots := vmod k.slots p.slot (fun m => { m with state := .free })
    formed := k.formed ++ [packetEntry p 0 false false (detail [(8, 4, k.discarded)]), Entry.blank 5 0] }

section
variable {s : State} {x : Fin 16}

/-- The packet of a DESTROY as its context keeps it. -/
def destroyPkt (seq : W32) (tag : W64) (i : Fin 8) : Pkt := { slot := i, seq := seq, tag := tag, hdr := [], pay := [] }

theorem doDestroyFinish_eq {seq : W32} {tag : W64} {i : Fin 8} (hs : (s.ctx x).state = .destroying)
    (hd : (s.ctx x).dying = false) (hq : (s.ctx x).silent = false) (hk : (s.ctx x).killReason = 0)
    (hn : s.noneRunning x = true) (ht : (s.ctx x).destroyTag = some (x.val, seq, tag, i.val)) :
    doDestroyFinish x s = (s.modCtx x (·.destroyed (destroyPkt seq tag i))).makeNone x := by
  have htag : (s.ctx x).destroyTag.isSome = true := by rw [ht]; rfl
  have hix : ix 16 x.val = x := Fin.ofNat_val_eq_self x
  have hi : ix 8 i.val = i := Fin.ofNat_val_eq_self i
  have hdone : s.finishPacket x (destroyPkt seq tag i) 0 false false (detail [(8, 4, (s.ctx x).discarded)]) = s.modCtx x (fun k =>
      { k with
        slots := vmod k.slots i (fun m => { m with state := .free })
        formed := k.formed ++ [packetEntry (destroyPkt seq tag i) 0 false false (detail [(8, 4, (s.ctx x).discarded)])] }) := by
    rw [State.finishPacket, post_destroying _ (by simpa [State.modSlot] using hs) (by simpa [State.modSlot] using htag)
      (by simpa [State.modSlot] using hq), State.modSlot, State.modCtx_modCtx, endKill_of_not_dying (by simpa using hd)]
    rfl
  have hnot : ¬(((s.ctx x).state != .destroying || !s.noneRunning x) = true) := by rw [hs, hn]; decide
  rw [doDestroyFinish, if_neg hnot]
  simp only [ht, hk, if_true, hix, hi]
  refine congrArg (fun u => State.makeNone u x) ?_
  refine (congrArg (fun u => State.post u x (Entry.blank 5 0)) hdone).trans ?_
  rw [post_destroying _ (by simpa using hs) (by simpa using htag) (by simpa using hq), State.modCtx_modCtx]
  exact modCtx_congr (by simp [Ctx.destroyed, destroyPkt])

/-- The zeros that a context leaves in a feed die. -/
def FeedS.dropCtx (f : FeedS) (k : CtxCore) (x : Fin 16) : FeedS :=
  { (f.zeroFill k.resBase k.resSize) with cache := f.cache.filter (fun l => l.x != x.val) }

theorem releaseAll_eq (s : State) (x : Fin 16) : s.releaseAll x = (List.finRange 4).foldl
    (fun s c => s.modFeed c (fun f => f.dropCtx (s.cc x c) x)) ((s.pagesOf x).foldl (fun s e => s.freePage e.1) s) := rfl

/-- What is released with a context leaves entries of the contexts as they are, or adds to them. -/
theorem posts_releaseAll (s : State) (x : Fin 16) : Posts s (s.releaseAll x) := by
  rw [releaseAll_eq]
  exact (posts_foldl _ _ (fun s (e : Nat × HomeEntry) => posts_freePage s e.1) s).trans
    (posts_foldl (fun s c => s.modFeed c (fun f => f.dropCtx (s.cc x c) x)) _ (fun _ _ => posts_of_same rfl rfl) _)

/-- The pages of a context leave the home map with it. -/
theorem releaseAll_map (s : State) (x : Fin 16) (e : Nat × HomeEntry) :
    e ∈ (s.releaseAll x).tiers.map ↔ e ∈ s.tiers.map ∧ e.1 ∉ (s.pagesOf x).map (·.1) := by
  have hfeeds : SameMap ((s.pagesOf x).foldl (fun s e => s.freePage e.1) s) (s.releaseAll x) :=
    sameMap_foldl (fun s c => s.modFeed c (fun f => f.dropCtx (s.cc x c) x)) _ (fun _ _ => rfl) _
  rw [hfeeds]
  exact mem_foldl_freePage _ _ _

theorem mem_keys_pagesOf (hn : (s.tiers.map.map (·.1)).Nodup) {e : Nat × HomeEntry} (he : e ∈ s.tiers.map) :
    e.1 ∈ (s.pagesOf x).map (·.1) ↔ e.2.owner = x := by
  constructor
  · intro h
    obtain ⟨q, hq, hk⟩ := List.mem_map.1 h
    obtain ⟨hq, ho⟩ := List.mem_filter.1 hq
    rw [← List.inj_on_of_nodup_map hn hq he hk]
    simpa using ho
  · intro h
    exact List.mem_map.2 ⟨e, List.mem_filter.2 ⟨he, by simpa using h⟩, rfl⟩

end

/-- Settles O10: what DESTROY takes and what DESTROY_FINISH releases. -/
theorem destroyDiscardsThenReleases : Obligations.DestroyDiscardsThenReleases := by
  refine ⟨fun s x i p hp hl => ⟨_, inHub_up _ _ (hubUp_of_packetAt hp), destroy_begins hp hl⟩, ?_⟩
  intro s x seq tag i hu hs hd hq hk hn ht hnodup
  refine ⟨_, (inHub_up _ _ hu).trans (congrArg _ (doDestroyFinish_eq hs hd hq hk hn ht)), ?_⟩
  let u := (s.modCtx x (·.destroyed (destroyPkt seq tag i))).dropFabric x
  have hposts : Posts u (u.releaseAll x) := posts_releaseAll u x
  have hux : u.ctx x = (s.ctx x).destroyed (destroyPkt seq tag i) := State.modCtx_same s x _
  have hmap (e : Nat × HomeEntry) : e ∈ (u.releaseAll x).tiers.map ↔ e ∈ s.tiers.map ∧ e.1 ∉ (s.pagesOf x).map (·.1) :=
    releaseAll_map u x e
  simp only [State.makeNone, State.cc, State.modCtx_same]
  refine ⟨rfl, rfl, ?_, fun e he ho => ?_, fun e he ho => ?_, fun c => ?_, fun j => ?_⟩
  · have hf := hposts.formed x
    rw [hux] at hf
    exact hf
  · obtain ⟨he, hk⟩ := (hmap e).1 he
    exact hk ((mem_keys_pagesOf hnodup he).2 ho)
  · exact (hmap e).2 ⟨he, fun hk => ho ((mem_keys_pagesOf hnodup he).1 hk)⟩
  · simp [Ctx.blank, CtxCore.blank]
  · simp

end Sys2Proof.Machine
end

section
/-! PROOFS. Windows and areas of the scratchpad (07). -/

namespace Sys2Proof.Machine

open Sys2Proof

/-! ## SET_WINDOW, SET_AREAS and AREAS_APPLY (07, R165, R168, R172) -/

section
variable {s : State} {x : Fin 16} {i : Fin 8} {p : Pkt}

/-- A change of the packet's slot and entries leaves every core's part of every context. -/
theorem ended_cc (s : State) (x : Fin 16) (p : Pkt) (e : Entry) (y : Fin 16) (c : Fin 4) :
    (s.modCtx x (fun k => k.ended p e)).cc y c = s.cc y c :=
  modCtx_keeps (fun k => k.cores[c]) (fun k => k.ended p e) (fun _ => rfl) s x y

/-- A packet that is accepted waits in its slot. -/
theorem acceptPacket_eq (s : State) (x : Fin 16) (p : Pkt) : s.acceptPacket x p = s.modCtx x (fun k => { k with
    slots := vmod k.slots p.slot (fun m => { m with state := .accepted }) }) := rfl

/-- The slot of an accepted packet. -/
theorem slot_of_acceptedAt {sub : Nat} (h : s.acceptedAt x i sub = some p) : s.hubUp = true ∧ p.slot = i := by
  unfold State.acceptedAt at h
  dsimp only at h
  split at h
  next hc =>
    cases h
    simp only [Bool.and_eq_true] at hc
    exact ⟨hc.1.1.1, rfl⟩
  next => cases h

/-- The state with a resident sub-window set. -/
def State.withWindow (s : State) (t : Fin 16) (c : Fin 4) (base size : Nat) : State :=
  (s.modFeed c (fun f => (f.zeroFill (s.cc t c).resBase (s.cc t c).resSize).zeroFill base size)).modCC t c (fun k =>
    { k with resBase := base, resSize := size })

theorem withWindow_get (t : Fin 16) (c : Fin 4) (base size a : Nat) : ((s.withWindow t c base size).feed c).spad.get a =
    if (base ≤ a ∧ a < base + size) ∨ ((s.cc t c).resBase ≤ a ∧ a < (s.cc t c).resBase + (s.cc t c).resSize) then 0
      else (s.feed c).spad.get a := by
  rw [State.withWindow, State.modCC_feed, State.modFeed_same]
  simp only [FeedS.zeroFill, Mem.get_erase]
  by_cases h1 : base ≤ a ∧ a < base + size
  · simp [h1, Mem.blank]
  · simp [h1, Mem.blank]

theorem doSetWindow_eq (hp : s.packetAt x i 4 (some 0x04) = some p) (hl : Live s x) (ht : (s.ctx p.target).state = .active)
    (hok : s.windowBad p.target (ix 4 (byteAt p.hdr 0x18)) (fld p.hdr 0x1C 4) (fld p.hdr 0x20 4) = false) :
    doSetWindow x i s = (s.withWindow p.target (ix 4 (byteAt p.hdr 0x18)) (fld p.hdr 0x1C 4) (fld p.hdr 0x20 4)).modCtx x
      (fun k => k.ended p (okEntry p)) := by
  have hlive : s.live p.target = true := by simp [State.live, ht]
  simp only [doSetWindow, hp, hlive, hok, firstReason, Bool.not_true, Bool.false_eq_true, if_false]
  exact donePacket_of_live (live_modCtx hl (fun _ => rfl) (fun _ => rfl))

theorem doSetAreas_eq (hp : s.packetAt x i 4 (some 0x05) = some p)
    (hok : s.areasBad (ix 4 (byteAt p.hdr 0x18)) (fld p.hdr 0x1A 2) (fld p.hdr 0x1C 2) = false) :
    doSetAreas x i s = (s.acceptPacket x p).modFeed (ix 4 (byteAt p.hdr 0x18)) (fun f => { f with
      areasPending := some (fld p.hdr 0x1A 2, fld p.hdr 0x1C 2, x.val, i.val) }) := by
  simp only [doSetAreas, hp, hok, Bool.false_eq_true, if_false]

theorem doAreasApply_eq {c : Fin 4} {ti ca : Nat} (hl : Live s x) (hpend : (s.feed c).areasPending = some (ti, ca, x.val, i.val))
    (hr : (s.core c).running = none) (hu : s.usesBeyond c ti = false) (ha : s.acceptedAt x i 0x05 = some p) :
    doAreasApply c s = (s.modFeed c (fun f => { f with t := ti, c := ca, areasPending := none, cache := [] })).modCtx x
      (fun k => k.ended p (okEntry p)) := by
  have hx : ix 16 x.val = x := Fin.ofNat_val_eq_self x
  have hi : ix 8 i.val = i := Fin.ofNat_val_eq_self i
  have ha' : (s.modFeed c (fun f => { f with t := ti, c := ca, areasPending := none, cache := [] })).acceptedAt x i 0x05 = some p := ha
  simp only [doAreasApply, hpend, hr, hu, hx, hi, ha', Option.isSome_none, Bool.or_self, Bool.false_eq_true, if_false]
  exact donePacket_of_live hl

end

/-- Settles O12: the window's bytes are erased, the areas wait and are put in force. -/
theorem windowsAndAreasTakeEffect : Obligations.WindowsAndAreasTakeEffect := by
  refine ⟨?_, ?_, ?_⟩
  · intro s x i p c base size hp hl ht hc hb hs hok
    subst hc hb hs
    refine ⟨_, (inHub_up _ _ (hubUp_of_packetAt hp)).trans (congrArg _ (doSetWindow_eq hp hl ht hok)), rfl, ?_, ?_, ?_, ?_, ?_⟩
    · intro d hd
      exact State.modFeed_other s _ d _ hd
    · rw [ended_cc, State.withWindow, State.modCC_same]
    · rw [ended_cc, State.withWindow, State.modCC_same]
    · have hf := modCtx_keeps Ctx.formed (fun k => { k with cores := vmod k.cores (ix 4 (byteAt p.hdr 0x18)) (fun k =>
        { k with resBase := fld p.hdr 0x1C 4, resSize := fld p.hdr 0x20 4 }) }) (fun _ => rfl) s p.target x
      rw [State.modCtx_same]
      exact congrArg (· ++ [okEntry p]) hf
    · exact withWindow_get _ _ _ _
  · intro s x i p c hp hc hok
    subst hc
    refine ⟨_, (inHub_up _ _ (hubUp_of_packetAt hp)).trans (congrArg _ (doSetAreas_eq hp hok)), ?_, ?_, ?_⟩
    · exact ⟨rfl, fun y hy => State.modCtx_other s x y _ hy, fun d hd => State.modFeed_other _ _ d _ hd⟩
    · exact State.modFeed_same _ _ _
    · exact State.modCtx_same s x _
  · intro s c ti ca x i p hup hl hpend hr hu ha
    refine ⟨_, (inHub_up _ _ hup).trans (congrArg _ (doAreasApply_eq hl hpend hr hu ha)), ?_, ?_, ?_⟩
    · exact (onlyCtxFeed_modFeed s x c _).trans_modCtx _
    · exact State.modCtx_same _ x _
    · exact State.modFeed_same s c _

end Sys2Proof.Machine
end

section
/-! PROOFS. Loads of scale records, slot tables and the almanac (03, 07, 09). -/

namespace Sys2Proof.Machine

open Sys2Proof

/-! ## LOAD_SCALE, LOAD_SLOTS and LOAD_ALMANAC (03, R58; 07, R173; 09, R213) -/

/-- What a table holds after its entries from `first` on have been written one by one. -/
theorem read_foldl_zipIdx {S α γ : Type} (read : S → Nat → γ) (f : S → α × Nat → S) (v : α → Nat → γ) (first : Nat)
    (h : ∀ s c k, read (f s c) k = if k = first + c.2 then v c.1 c.2 else read s k) (l : List α) (n : Nat) (s : S) (k : Nat) :
    read ((l.zipIdx n).foldl f s) k =
      if hk : first + n ≤ k ∧ k < first + n + l.length then v (l[k - first - n]'(by omega)) (k - first) else read s k := by
  induction l generalizing n s with
  | nil => simp [show ¬(first + n ≤ k ∧ k < first + n) by omega]
  | cons a l ih =>
    rw [List.zipIdx_cons, List.foldl_cons, ih, h]
    by_cases h0 : k = first + n
    · subst h0
      simp
    · by_cases hk : first + (n + 1) ≤ k ∧ k < first + (n + 1) + l.length
      · have hk' : first + n ≤ k ∧ k < first + n + (a :: l).length := by simp; omega
        have hidx : k - first - n = k - first - (n + 1) + 1 := by omega
        simp only [dif_pos hk, dif_pos hk', hidx, List.getElem_cons_succ]
      · have hk' : ¬(first + n ≤ k ∧ k < first + n + (a :: l).length) := by simp; omega
        simp only [dif_neg hk, dif_neg hk', if_neg h0]

theorem chunks_length {α : Type} {n m : Nat} {l : List α} (hn : 0 < n) (hl : l.length = n * m) : (chunks n l).length = m := by
  have hle (j : Nat) : (chunks n l).length ≤ j ↔ m ≤ j := by
    rw [← List.getElem?_eq_none_iff, chunks_getElem? n l hn]
    by_cases h : j < m
    · rw [if_pos (by rw [hl]; exact Nat.mul_lt_mul_of_pos_left h hn)]
      simp [h]
    · rw [if_neg (by rw [hl]; exact Nat.not_lt.2 (Nat.mul_le_mul_left n (Nat.not_lt.1 h)))]
      simp [Nat.not_lt.1 h]
  exact Nat.le_antisymm ((hle m).2 le_rfl) ((hle _).1 le_rfl)

section
variable {s : State} {x : Fin 16} {i : Fin 8} {p : Pkt}

theorem doLoadScale_accepts (hp : s.packetAt x i 4 (some 0x07) = some p) (hr : s.scaleReason x p = 0) :
    doLoadScale x i s = (s.touchScale x p).acceptPacket x p := by
  simp [doLoadScale, hp, hr]

theorem doLoadSlots_accepts (hp : s.packetAt x i 4 (some 0x08) = some p) (hlen : slotsLength p.pay = true)
    (hok : s.slotsBad x (ix 4 (byteAt p.hdr 0x18)) p.pay = false) : doLoadSlots x i s = s.acceptPacket x p := by
  simp [doLoadSlots, hp, hlen, hok, firstReason]

theorem doLoadAlmanac_accepts (hp : s.packetAt x i 4 (some 0x09) = some p) (hr : s.almanacReason x p = 0) :
    doLoadAlmanac x i s = (s.touchAlmanac x p).acceptPacket x p := by
  simp [doLoadAlmanac, hp, hr]

/-! ### Scale records -/

/-- The records of an image, written from one on. -/
def State.loadRecs (s : State) (x : Fin 16) (first stamp : Nat) (recs : List (List Byte)) : State :=
  recs.zipIdx.foldl (fun s c => s.setScaleRec x (first + c.2) (ScaleRec.load c.1 stamp)) s

/-- They change the records of their context only. -/
theorem loadRecs_eq (s : State) (x : Fin 16) (first stamp : Nat) (recs : List (List Byte)) :
    ∃ f : List (Nat × ScaleRec) → List (Nat × ScaleRec), s.loadRecs x first stamp recs = s.modCtx x (fun k => { k with scales := f k.scales }) := by
  unfold State.loadRecs
  generalize recs.zipIdx = l
  induction l generalizing s with
  | nil => exact ⟨id, (State.modCtx_id s x _ rfl).symm⟩
  | cons c l ih =>
    obtain ⟨f, hf⟩ := ih (s.setScaleRec x (first + c.2) (ScaleRec.load c.1 stamp))
    exact ⟨fun m => f (ainsert (first + c.2) (ScaleRec.load c.1 stamp) m),
      by rw [List.foldl_cons, hf]; exact State.modCtx_modCtx s x _ _⟩

theorem loadRecs_get (s : State) (x : Fin 16) (first stamp : Nat) (recs : List (List Byte)) (k : Nat) :
    (s.loadRecs x first stamp recs).scaleRec x k =
      if hk : first ≤ k ∧ k < first + recs.length then ScaleRec.load (recs[k - first]'(by omega)) stamp else s.scaleRec x k :=
  read_foldl_zipIdx (fun s k => s.scaleRec x k) _ (fun c _ => ScaleRec.load c stamp) first
    (fun s c k => scaleRec_setScaleRec s x (first + c.2) k _) recs 0 s k

theorem doLoadScaleApply_eq (hp : s.acceptedAt x i 0x07 = some p)
    (hn : (s.openCmds x).any (s.namesRecord x (fld p.hdr 0x18 2) (fld p.hdr 0x1A 2)) = false) (hr : s.scaleReason x p = 0) :
    doLoadScaleApply x i s = ((s.modCtx x (fun k => { k with loads := (s.ctx x).loads + 1 })).loadRecs x (fld p.hdr 0x18 2)
      ((s.ctx x).loads + 1) (chunks 256 ((s.scaleImage x p).map (·.b)))).donePacket x p := by
  simp only [doLoadScaleApply, hp, hn, hr, State.control, Bool.false_eq_true, if_false, ne_eq, not_true_eq_false]
  rfl

/-- What a LOAD_SCALE that is applied leaves. -/
theorem loadScale_applied (hp : s.acceptedAt x i 0x07 = some p) (hl : Live s x)
    (hn : (s.openCmds x).any (s.namesRecord x (fld p.hdr 0x18 2) (fld p.hdr 0x1A 2)) = false) (hr : s.scaleReason x p = 0) :
    OnlyCtx x s (doLoadScaleApply x i s) ∧ ((doLoadScaleApply x i s).ctx x).formed = (s.ctx x).formed ++ [okEntry p] ∧
      ∀ k, (doLoadScaleApply x i s).scaleRec x k = ((s.modCtx x (fun k => { k with loads := (s.ctx x).loads + 1 })).loadRecs x
        (fld p.hdr 0x18 2) ((s.ctx x).loads + 1) (chunks 256 ((s.scaleImage x p).map (·.b)))).scaleRec x k := by
  rw [doLoadScaleApply_eq hp hn hr]
  generalize hu : State.loadRecs _ x _ _ _ = u
  obtain ⟨f, hf⟩ := loadRecs_eq (s.modCtx x (fun k => { k with loads := (s.ctx x).loads + 1 })) x (fld p.hdr 0x18 2)
    ((s.ctx x).loads + 1) (chunks 256 ((s.scaleImage x p).map (·.b)))
  rw [hu, State.modCtx_modCtx] at hf
  have hlive : Live u x := by rw [hf]; exact live_modCtx hl (fun _ => rfl) (fun _ => rfl)
  rw [donePacket_of_live hlive]
  refine ⟨?_, ?_, fun k => scaleRec_congr (by rw [State.modCtx_same]; rfl) k⟩
  · rw [hf, State.modCtx_modCtx]; exact onlyCtx_modCtx s x _
  · rw [State.modCtx_same, hf, State.modCtx_same]; rfl

/-! ### Slot tables -/

theorem doSlotTableApply_eq (hp : s.acceptedAt x i 0x08 = some p) (hl : Live s x)
    (hr : (s.core (ix 4 (byteAt p.hdr 0x18))).running = none) :
    doSlotTableApply x i s = (s.modCC x (ix 4 (byteAt p.hdr 0x18)) (fun k => { k with table := slotTable p.pay })).modCtx x
      (fun k => k.ended p (okEntry p)) := by
  simp only [doSlotTableApply, hp, hr, Option.isSome_none, Bool.false_eq_true, if_false]
  exact donePacket_of_live (live_modCtx hl (fun _ => rfl) (fun _ => rfl))

/-- Every slot of a table is loaded EMPTY. -/
theorem slotTable_empty {pay : List Byte} {k : TokSlot} (hk : k ∈ (slotTable pay).slots) : k.state = .empty ∧ k.claims = 0 := by
  obtain ⟨bs, -, rfl⟩ := List.mem_map.1 hk
  exact ⟨rfl, rfl⟩

/-! ### The almanac -/

/-- The entries that an almanac load writes. -/
def Ctx.newEntries (k : Ctx) (first : Nat) (img : List (List Byte)) : List (Nat × List Byte) :=
  img.zipIdx.map (fun e => (first + e.2, k.freshEntry (first + e.2) e.1))

/-- The entries that a load at a base keeps. -/
def Ctx.keptEntries (k : Ctx) (base : Nat) : List (Nat × List Byte) :=
  match k.almanac with
  | some a => if a.base = base then a.entries else []
  | none => []

/-- The almanac with entries loaded at a base, and their counts in memory. -/
def State.loadEntries (s : State) (x : Fin 16) (base : Nat) (new : List (Nat × List Byte)) : State :=
  new.foldl (fun s e => s.uwrite (base + 256 * e.1 + 0x54) (((e.2.drop 0x54).take 0x18).map (fun b => ⟨b, false⟩)))
    (s.modCtx x (fun k => { k with
      almanac := some ⟨base, new.foldl (fun l e => ainsert e.1 e.2 l) (k.keptEntries base)⟩ }))

/-- The entries of an almanac load as the almanac's memory holds them. -/
def State.almImage (s : State) (p : Pkt) : List (List Byte) :=
  chunks 256 ((s.uread (fld p.hdr 0x18 8 + 256 * fld p.hdr 0x20 4) (256 * fld p.hdr 0x24 4)).map (·.b))

theorem doAlmanacApply_eq (hp : s.acceptedAt x i 0x09 = some p)
    (hn : ∀ c ∈ s.runningCmds x, ∀ g, c.group = some g →
      g ∉ ((s.ctx x).almReplaced (fld p.hdr 0x18 8) (fld p.hdr 0x20 4) (fld p.hdr 0x24 4)).map (·.1))
    (hr : s.almanacReason x p = 0) :
    doAlmanacApply x i s = ((s.modCtx x Ctx.keepSkips).loadEntries x (fld p.hdr 0x18 8)
      (((s.modCtx x Ctx.keepSkips).ctx x).newEntries (fld p.hdr 0x20 4) (s.almImage p))).donePacket x p := by
  simp only [doAlmanacApply, hp, hr, State.control, ne_eq, not_true_eq_false, if_false]
  rw [if_neg]
  · rfl
  · rw [Bool.not_eq_true, List.any_eq_false]
    intro c hc
    split
    next g hg => simpa using hn c hc g hg
    next => exact Bool.false_ne_true

/-- What an almanac load writes in memory changes entries of contexts only. -/
theorem loadEntries_posts (s : State) (x : Fin 16) (base : Nat) (new : List (Nat × List Byte)) :
    Posts (s.modCtx x (fun k => { k with
      almanac := some ⟨base, new.foldl (fun l e => ainsert e.1 e.2 l) (k.keptEntries base)⟩ })) (s.loadEntries x base new) :=
  posts_foldl _ new (fun s _ => (written_uwrite s _ _).posts) _

theorem keepSkips_live (hl : Live s x) : Live (s.modCtx x Ctx.keepSkips) x := by
  refine live_modCtx hl (fun k => ?_) (fun k => ?_)
  · unfold Ctx.keepSkips; split <;> rfl
  · unfold Ctx.keepSkips; split <;> rfl

/-- Every index that a load names is held. -/
theorem newEntries_held (k : Ctx) (first : Nat) (img : List (List Byte)) (old : List (Nat × List Byte)) {j : Nat}
    (hj : j < img.length) :
    (alookup (first + j) ((k.newEntries first img).foldl (fun l e => ainsert e.1 e.2 l) old)).isSome = true := by
  have h := read_foldl_zipIdx (fun (l : List (Nat × List Byte)) k => alookup k l)
    (fun l e => ainsert (first + e.2) (k.freshEntry (first + e.2) e.1) l) (fun bs n => some (k.freshEntry (first + n) bs)) first
    (fun l e j => alookup_ainsert _ _ _ l) img 0 old (first + j)
  rw [dif_pos (by omega)] at h
  rw [Ctx.newEntries, List.foldl_map, h]
  rfl

/-- What an almanac load that is applied leaves. -/
theorem almanac_applied (hp : s.acceptedAt x i 0x09 = some p) (hl : Live s x)
    (hn : ∀ c ∈ s.runningCmds x, ∀ g, c.group = some g →
      g ∉ ((s.ctx x).almReplaced (fld p.hdr 0x18 8) (fld p.hdr 0x20 4) (fld p.hdr 0x24 4)).map (·.1))
    (hr : s.almanacReason x p = 0)
    (hlen : (s.uread (fld p.hdr 0x18 8 + 256 * fld p.hdr 0x20 4) (256 * fld p.hdr 0x24 4)).length = 256 * fld p.hdr 0x24 4) :
    ∃ al, ((doAlmanacApply x i s).ctx x).almanac = some al ∧ al.base = fld p.hdr 0x18 8 ∧
      (∀ j < fld p.hdr 0x24 4, (alookup (fld p.hdr 0x20 4 + j) al.entries).isSome = true) ∧
      ((doAlmanacApply x i s).ctx x).slots[p.slot].state = .free := by
  rw [doAlmanacApply_eq hp hn hr]
  have hposts := loadEntries_posts (s.modCtx x Ctx.keepSkips) x (fld p.hdr 0x18 8)
    (((s.modCtx x Ctx.keepSkips).ctx x).newEntries (fld p.hdr 0x20 4) (s.almImage p))
  generalize State.loadEntries _ x _ _ = u at hposts ⊢
  have hux := hposts.ctx x
  have hlive : Live u x := by
    rw [Live, hux]
    exact live_modCtx (keepSkips_live hl) (fun _ => rfl) (fun _ => rfl)
  have himg : (s.almImage p).length = fld p.hdr 0x24 4 := chunks_length (by decide) (by rw [List.length_map, hlen])
  rw [donePacket_of_live hlive, State.modCtx_same, hux, State.modCtx_same]
  exact ⟨_, rfl, rfl, fun j hj => newEntries_held _ _ _ _ (by rw [himg]; exact hj), by simp [Ctx.ended]⟩

end

/-- Settles O13: loads are accepted, and each that is applied writes its table entry by entry. -/
theorem tableLoadsApply : Obligations.TableLoadsApply := by
  refine ⟨?_, ?_, ?_, ?_⟩
  · intro s u x i p sub cmd hp hcmd
    have hup := hubUp_of_packetAt hp
    rcases hcmd with ⟨rfl, rfl, hr, rfl⟩ | ⟨rfl, rfl, hlen, hok, rfl⟩ | ⟨rfl, rfl, hr, rfl⟩
    · exact (inHub_up _ _ hup).trans (congrArg _ (doLoadScale_accepts hp hr))
    · exact (inHub_up _ _ hup).trans (congrArg _ (doLoadSlots_accepts hp hlen hok))
    · exact (inHub_up _ _ hup).trans (congrArg _ (doLoadAlmanac_accepts hp hr))
  · intro s x i p hp hl hn hr hlen
    obtain ⟨honly, hformed, hrec⟩ := loadScale_applied hp hl hn hr
    have hchunks : (chunks 256 ((s.scaleImage x p).map (·.b))).length = fld p.hdr 0x1A 2 :=
      chunks_length (by decide) (by rw [List.length_map, hlen])
    refine ⟨_, inHub_up _ _ (slot_of_acceptedAt hp).1, honly, hformed, fun j hj => ?_, fun j hj => ?_⟩
    · rw [hrec, loadRecs_get, dif_pos (by omega)]
      have hget := chunks_getElem? 256 ((s.scaleImage x p).map (·.b)) (by decide) j
      rw [if_pos (by rw [List.length_map, hlen]; omega)] at hget
      have hsub : fld p.hdr 0x18 2 + j - fld p.hdr 0x18 2 = j := by omega
      simp only [hsub, (List.getElem?_eq_some_iff.1 hget).2]
    · rw [hrec, loadRecs_get, dif_neg (by omega)]
      exact scaleRec_congr (by rw [State.modCtx_same]) j
  · intro s x i p c hp hl hc hr
    subst hc
    refine ⟨_, (inHub_up _ _ (slot_of_acceptedAt hp).1).trans (congrArg _ (doSlotTableApply_eq hp hl hr)), ?_⟩
    have hcc (d : Fin 4) := ended_cc (s.modCC x (ix 4 (byteAt p.hdr 0x18)) (fun k => { k with table := slotTable p.pay })) x p
      (okEntry p) x d
    refine ⟨(onlyCtx_modCtx s x _).trans (onlyCtx_modCtx _ x _), ?_, fun k hk => ?_, fun d hd => ?_, ?_⟩
    · rw [hcc, State.modCC_same]
    · rw [hcc, State.modCC_same] at hk
      exact slotTable_empty hk
    · rw [hcc, State.modCC_other_core s x x _ d _ hd]
    · rw [State.modCtx_same, State.modCC, State.modCtx_same]; rfl
  · intro s x i p hp hl hn hr hlen
    obtain ⟨al, h⟩ := almanac_applied hp hl hn hr hlen
    exact ⟨_, al, inHub_up _ _ (slot_of_acceptedAt hp).1, h⟩

end Sys2Proof.Machine
end

section
/-! PROOFS. MAP and UNMAP (11). -/

namespace Sys2Proof.Machine

open Sys2Proof

/-! ## MAP and UNMAP (11, R272, R273) -/

/-! ### Sets kept as rising lists -/

theorem sorted_setInsert (x : Nat) (l : List Nat) (h : l.Pairwise (· < ·)) : (setInsert x l).Pairwise (· < ·) := by
  induction l with
  | nil => simp [setInsert]
  | cons y l ih =>
    obtain ⟨hy, hl⟩ := List.pairwise_cons.1 h
    simp only [setInsert]
    split
    next hxy => exact List.pairwise_cons.2 ⟨fun z hz => by
      rcases List.mem_cons.1 hz with rfl | hz
      · exact hxy
      · exact hxy.trans (hy z hz), h⟩
    next hxy =>
      split
      · exact h
      next hne => exact List.pairwise_cons.2 ⟨fun z hz => by
        rcases (mem_setInsert x z l).1 hz with rfl | hz
        · omega
        · exact hy z hz, ih hl⟩

/-- What a fold that inserts some of its elements' values holds: a rising list of those values and of what it began with. -/
theorem foldl_setInsert_spec {α : Type} (v : α → Option Nat) (f : List Nat → α → List Nat)
    (hf : ∀ l a, f l a = (v a).elim l (fun x => setInsert x l)) (as : List α) (l : List Nat)
    (h : l.Pairwise (· < ·)) : (as.foldl f l).Pairwise (· < ·) ∧ ∀ y, y ∈ as.foldl f l ↔ (∃ a ∈ as, v a = some y) ∨ y ∈ l := by
  induction as generalizing l with
  | nil => exact ⟨h, fun y => by simp⟩
  | cons a as ih =>
    have hone : (f l a).Pairwise (· < ·) ∧ ∀ y, y ∈ f l a ↔ v a = some y ∨ y ∈ l := by
      rw [hf]
      cases ha : v a with
      | none => exact ⟨h, fun y => by simp⟩
      | some x => exact ⟨sorted_setInsert x l h, fun y => by simp [eq_comm]⟩
    obtain ⟨h1, h2⟩ := ih _ hone.1
    refine ⟨h1, fun y => ?_⟩
    rw [List.foldl_cons, h2, hone.2]
    simp only [List.mem_cons, exists_eq_or_imp]
    rw [or_left_comm, or_assoc]

/-- A rising list that holds one value more than another is at most one longer. -/
theorem length_le_succ {l m : List Nat} (hm : m.Pairwise (· < ·)) (x : Nat) (h : ∀ y ∈ m, y = x ∨ y ∈ l) :
    m.length ≤ l.length + 1 := by
  have hnd : m.Nodup := hm.imp (fun h => Nat.ne_of_lt h)
  exact (hnd.subperm (fun y hy => List.mem_cons.2 (h y hy))).length_le

/-! ### Homes in use -/

/-- The frame of a home on a stack, and the slot of a spread home. -/
def Home.frameOn (n : Fin 12) : Home → Option Nat
  | .placed st f => if st = n then some f else none
  | _ => none

def Home.slotOf : Home → Option Nat
  | .spread k => some k
  | _ => none

theorem framesUsed_spec (s : State) (n : Fin 12) : (s.framesUsed n).Pairwise (· < ·) ∧
    ∀ f, f ∈ s.framesUsed n ↔ ∃ h ∈ s.homesHeld, h.frameOn n = some f := by
  have h := foldl_setInsert_spec (Home.frameOn n) (fun l h => match h with
    | .placed st f => if st = n then setInsert f l else l | _ => l) (fun l h => by
      cases h with
      | placed st f => by_cases hst : st = n <;> simp [Home.frameOn, hst]
      | spread k => rfl
      | deep => rfl) s.homesHeld [] List.Pairwise.nil
  exact ⟨h.1, fun f => (h.2 f).trans (by simp)⟩

theorem slotsUsed_spec (s : State) : (s.slotsUsed).Pairwise (· < ·) ∧
    ∀ k, k ∈ s.slotsUsed ↔ ∃ h ∈ s.homesHeld, h.slotOf = some k := by
  have h := foldl_setInsert_spec Home.slotOf (fun l h => match h with | .spread k => setInsert k l | _ => l) (fun l h => by
      cases h <;> rfl) s.homesHeld [] List.Pairwise.nil
  exact ⟨h.1, fun f => (h.2 f).trans (by simp)⟩

/-! ### One page -/

theorem mem_ainsert_of_absent {β : Type} {k : Nat} {v : β} {l : List (Nat × β)} (h : alookup k l = none) (e : Nat × β) :
    e ∈ ainsert k v l ↔ e = (k, v) ∨ e ∈ l := by
  induction l with
  | nil => simp [ainsert]
  | cons q l ih =>
    obtain ⟨j, w⟩ := q
    have hj : j ≠ k := fun hjk => by simp [alookup, hjk] at h
    have hl : alookup k l = none := by simpa [alookup, hj] using h
    unfold ainsert
    split
    · simp
    · rw [if_neg (Ne.symm hj), List.mem_cons, ih hl, List.mem_cons, or_left_comm]

theorem alookup_aerase {β : Type} (k j : Nat) (l : List (Nat × β)) :
    alookup j (aerase k l) = if j = k then none else alookup j l := by
  have h := alookup_filter (fun i => i != k) j l
  refine h.trans ?_
  by_cases hj : j = k <;> simp [hj]

/-- The pages of two states with homes of one new page between them. -/
theorem homesHeld_insert {s t : State} {q : Nat} {e : HomeEntry} (h : s.homeOf q = none) (hm : t.tiers.map = ainsert q e s.tiers.map)
    (hd : e.dest = none) (hh : Home) : hh ∈ t.homesHeld ↔ hh = e.home ∨ hh ∈ s.homesHeld := by
  simp only [State.homesHeld, List.mem_flatMap, hm, mem_ainsert_of_absent h]
  constructor
  · rintro ⟨p, rfl | hp, hin⟩
    · left; simpa [hd] using hin
    · exact .inr ⟨p, hp, hin⟩
  · rintro (rfl | ⟨p, hp, hin⟩)
    · exact ⟨(q, e), .inl rfl, by simp⟩
    · exact ⟨p, .inr hp, hin⟩

/-- What MAP makes of a page: its entry, and no other change of the home map or of SPREAD_GIB. -/
structure MapsPage (s t : State) (q : Nat) (e : HomeEntry) : Prop where
  posts : Posts s t
  map : t.tiers.map = ainsert q e s.tiers.map
  spread : t.tiers.spreadGib = s.tiers.spreadGib

/-- A new page of a kind: its owner, and the home of its kind. -/
structure HomeEntry.FreshFor (e : HomeEntry) (x : Fin 16) (kind : Nat) (stack : Fin 12) : Prop where
  owner : e.owner = x
  dest : e.dest = none
  pinned : e.pinned = false
  placed : kind = 0 → ∃ f, e.home = .placed stack f
  spread : kind = 1 → ∃ k, e.home = .spread k
  deep : kind = 2 → e.home = .deep

theorem homeOf_mapsPage {s t : State} {q : Nat} {e : HomeEntry} (h : MapsPage s t q e) (k : Nat) :
    t.homeOf k = if k = q then some e else s.homeOf k := by
  rw [State.homeOf, h.map, alookup_ainsert]
  rfl

section
variable {s t : State} {q : Nat} {e : HomeEntry} (hq : s.homeOf q = none) (h : MapsPage s t q e) (hd : e.dest = none)
include hq h hd

/-- A page takes one frame at most. -/
theorem freeFrames_mapsPage (n : Fin 12) : s.freeFrames n ≤ t.freeFrames n + 1 := by
  have hlen : (t.framesUsed n).length ≤ (s.framesUsed n).length + 1 := by
    refine length_le_succ (framesUsed_spec t n).1 ((e.home.frameOn n).getD 0) (fun f hf => ?_)
    obtain ⟨hh, hin, hfr⟩ := ((framesUsed_spec t n).2 f).1 hf
    rcases (homesHeld_insert hq h.map hd hh).1 hin with rfl | hin
    · exact .inl (by rw [hfr]; rfl)
    · exact .inr (((framesUsed_spec s n).2 f).2 ⟨hh, hin, hfr⟩)
  have hcount : t.frameCount n = s.frameCount n := by simp only [State.frameCount, h.spread]
  simp only [State.freeFrames, hcount]
  omega

/-- Or one slot. -/
theorem freeSlots_mapsPage : s.freeSlots ≤ t.freeSlots + 1 := by
  have hlen : t.slotsUsed.length ≤ s.slotsUsed.length + 1 := by
    refine length_le_succ (slotsUsed_spec t).1 (e.home.slotOf.getD 0) (fun f hf => ?_)
    obtain ⟨hh, hin, hfr⟩ := ((slotsUsed_spec t).2 f).1 hf
    rcases (homesHeld_insert hq h.map hd hh).1 hin with rfl | hin
    · exact .inl (by rw [hfr]; rfl)
    · exact .inr (((slotsUsed_spec s).2 f).2 ⟨hh, hin, hfr⟩)
  have hcount : t.slotCount = s.slotCount := by simp only [State.slotCount, h.spread]
  simp only [State.freeSlots, hcount]
  omega

end

/-- There is room for n pages of a kind. -/
def State.roomFor (s : State) (kind : Nat) (stack : Fin 12) (n : Nat) : Prop :=
  (kind = 0 → n ≤ s.freeFrames stack) ∧ (kind = 1 → n ≤ s.freeSlots)

/-- Where there is room a home is found. -/
theorem allocHome_some {s : State} {kind : Nat} {stack : Fin 12} {n : Nat} (hn : 0 < n) (hr : s.roomFor kind stack n)
    (hk : kind ≤ 2) : ∃ h s1, s.allocHome kind stack = some (h, s1) ∧ (s1 = s ∨ s1 = s.occasion.2) ∧
      (kind = 0 → ∃ f, h = .placed stack f) ∧ (kind = 1 → ∃ k, h = .spread k) ∧ (kind = 2 → h = .deep) := by
  obtain ⟨h0, h1⟩ := hr
  match kind, hk with
  | 0, _ =>
    have hfree : s.frameCount stack - (s.framesUsed stack).length ≠ 0 := by have := h0 rfl; unfold State.freeFrames at this; omega
    exact ⟨_, _, if_neg hfree, .inr rfl, fun _ => ⟨_, rfl⟩, nofun, nofun⟩
  | 1, _ =>
    have hfree : s.slotCount - s.slotsUsed.length ≠ 0 := by have := h1 rfl; unfold State.freeSlots at this; omega
    exact ⟨_, _, if_neg hfree, .inr rfl, nofun, fun _ => ⟨_, rfl⟩, nofun⟩
  | 2, _ => exact ⟨_, _, rfl, .inl rfl, nofun, nofun, fun _ => rfl⟩

/-- A near page that is written leaves the tiers as they are. -/
theorem writeHome_near_tiers (s : State) (x : Fin 16) {h : Home} (hn : h ≠ .deep) (p off : Nat) (bs : List PByte) :
    (s.writeHome x h p off bs).tiers = s.tiers := by
  have near : ∀ (l : List (Fin 12 × Nat × Nat)) (r : State × List PByte), (l.foldl (fun (r : State × List PByte) q =>
      (r.1.modStack q.1 (fun st => st.write q.2.1 (r.2.take q.2.2)), r.2.drop q.2.2)) r).1.tiers = r.1.tiers := by
    intro l
    induction l with
    | nil => exact fun _ => rfl
    | cons q l ih => exact fun r => (ih _).trans rfl
  cases h with
  | placed n f => exact near _ _
  | spread k => exact near _ _
  | deep => exact absurd rfl hn

/-- The home-map entry of a page that is mapped. -/
def HomeEntry.fresh (x : Fin 16) (h : Home) (kind : Nat) (stack : Fin 12) (switches : W32) : HomeEntry :=
  { owner := x, home := h, dest := none, pinned := false, prefKind := if kind = 0 then 0 else 1
    prefStack := if kind = 0 then stack.val else 0, aborts := 0, switches := switches }

/-- The home map with a page's new entry, and the page's cached lines gone. -/
def State.withPage (s : State) (q : Nat) (e : HomeEntry) : State :=
  ((s.putHome q e).modTiers (fun t => { t with freed := aerase q t.freed })).invalidate (q * 131072) 131072

/-- The contents of a page that is mapped. -/
def State.zeroedPage (s : State) (x : Fin 16) (q : Nat) (h : Home) : State :=
  if h = .deep then s.clearDeep q else s.writeHome x h q 0 zeroPage

theorem mapPage_eq {s s1 : State} {x : Fin 16} {q kind : Nat} {stack : Fin 12} {h : Home}
    (ha : s.allocHome kind stack = some (h, s1)) : s.mapPage x q kind stack =
      (s1.withPage q (HomeEntry.fresh x h kind stack ((alookup q s1.tiers.freed).getD 0))).zeroedPage x q h := by
  unfold State.mapPage
  rw [ha]
  cases h <;> rfl

theorem OnlyWork.spreadGib {s t : State} (h : OnlyWork s t) : t.tiers.spreadGib = s.tiers.spreadGib :=
  congrArg Settings.spreadGib h.settings

/-- Contents leave contexts, but for entries, and the home map alone. -/
theorem zeroedPage_keeps (s : State) (x : Fin 16) (q : Nat) (h : Home) : Posts s (s.zeroedPage x q h) ∧
    (s.zeroedPage x q h).tiers.map = s.tiers.map ∧ (s.zeroedPage x q h).tiers.spreadGib = s.tiers.spreadGib := by
  by_cases hn : h = .deep
  · rw [State.zeroedPage, if_pos hn]
    exact ⟨posts_clearDeep s q, sameMap_clearDeep s q, (onlyWork_clearDeep s q).spreadGib⟩
  · rw [State.zeroedPage, if_neg hn]
    have ht := writeHome_near_tiers s x hn q 0 zeroPage
    exact ⟨(written_writeHome s x h q 0 zeroPage).posts, congrArg Tiers.map ht, congrArg Tiers.spreadGib ht⟩

theorem mapPage_spec {s : State} {kind : Nat} {stack : Fin 12} {n : Nat} (x : Fin 16) (q : Nat) (hn : 0 < n)
    (hr : s.roomFor kind stack n) (hk : kind ≤ 2) :
    ∃ e, MapsPage s (s.mapPage x q kind stack) q e ∧ e.FreshFor x kind stack := by
  obtain ⟨h, s1, ha, hs1, h0, h1, h2⟩ := allocHome_some hn hr hk
  have hsame : s1.hub = s.hub ∧ s1.cores = s.cores ∧ s1.tiers = s.tiers := by
    rcases hs1 with rfl | rfl <;> exact ⟨rfl, rfl, rfl⟩
  obtain ⟨hhub, hcores, htiers⟩ := hsame
  refine ⟨HomeEntry.fresh x h kind stack ((alookup q s1.tiers.freed).getD 0), ?_, rfl, rfl, rfl, h0, h1, h2⟩
  rw [mapPage_eq ha]
  generalize HomeEntry.fresh x h kind stack ((alookup q s1.tiers.freed).getD 0) = e
  obtain ⟨hp, hm, hg⟩ := zeroedPage_keeps (s1.withPage q e) x q h
  have hs : Posts s (s1.withPage q e) := posts_of_same (congrArg Hub.ctxs hhub) hcores
  refine ⟨hs.trans hp, hm.trans ?_, hg.trans ?_⟩
  · rw [← htiers]; rfl
  · rw [← htiers]; rfl

/-- Pages mapped one by one. -/
theorem foldl_mapPage {kind : Nat} {stack : Fin 12} (x : Fin 16) (hk : kind ≤ 2) (qs : List Nat) (s : State)
    (hfree : ∀ q ∈ qs, s.homeOf q = none) (hnd : qs.Nodup) (hr : s.roomFor kind stack qs.length) :
    Posts s (qs.foldl (fun s q => s.mapPage x q kind stack) s) ∧
      (∀ q ∈ qs, ∃ e, (qs.foldl (fun s q => s.mapPage x q kind stack) s).homeOf q = some e ∧ e.FreshFor x kind stack) ∧
      ∀ q, q ∉ qs → (qs.foldl (fun s q => s.mapPage x q kind stack) s).homeOf q = s.homeOf q := by
  induction qs generalizing s with
  | nil => exact ⟨Posts.refl s, nofun, fun _ _ => rfl⟩
  | cons p qs ih =>
    obtain ⟨hp, hqs⟩ := List.nodup_cons.1 hnd
    have hpfree := hfree p List.mem_cons_self
    obtain ⟨e, hm, hfresh⟩ := mapPage_spec x p (Nat.succ_pos qs.length) hr hk
    have hhome := homeOf_mapsPage hm
    have hroom : (s.mapPage x p kind stack).roomFor kind stack qs.length := by
      obtain ⟨h0, h1⟩ := hr
      refine ⟨fun hz => ?_, fun ho => ?_⟩
      · have := freeFrames_mapsPage hpfree hm hfresh.dest stack
        have := h0 hz
        simp at this; omega
      · have := freeSlots_mapsPage hpfree hm hfresh.dest
        have := h1 ho
        simp at this; omega
    obtain ⟨ihp, ihin, ihout⟩ := ih (s.mapPage x p kind stack) (fun q hq => by
      rw [hhome, if_neg (ne_of_mem_of_not_mem hq hp)]
      exact hfree q (List.mem_cons_of_mem p hq)) hqs hroom
    rw [List.foldl_cons]
    refine ⟨hm.posts.trans ihp, fun q hq => ?_, fun q hq => ?_⟩
    · rcases List.mem_cons.1 hq with rfl | hq
      · exact ⟨e, by rw [ihout _ hp, hhome, if_pos rfl], hfresh⟩
      · exact ihin q hq
    · obtain ⟨hqp, hq⟩ := not_or.1 (fun h => hq (List.mem_cons.2 h))
      rw [ihout q hq, hhome, if_neg hqp]

/-! ### The commands -/

theorem mem_pageRange {first n q : Nat} : q ∈ pageRange first n ↔ first ≤ q ∧ q < first + n := by
  simp only [pageRange, List.mem_map, List.mem_range]
  constructor
  · rintro ⟨j, hj, rfl⟩; omega
  · intro h; exact ⟨q - first, by omega, by omega⟩

theorem nodup_pageRange (first n : Nat) : (pageRange first n).Nodup :=
  List.nodup_range.map (fun _ _ h => Nat.add_left_cancel h)

@[simp] theorem length_pageRange (first n : Nat) : (pageRange first n).length = n := by simp [pageRange]

theorem firstReason_cons {b : Bool} {r : Nat} {l : List (Bool × Nat)} (hr : r ≠ 0) :
    firstReason ((b, r) :: l) = 0 ↔ b = false ∧ firstReason l = 0 := by
  cases b <;> simp [firstReason, hr]

section
variable {s : State} {x : Fin 16} {i : Fin 8} {p : Pkt}

/-- A MAP that is allowed has free pages and room for them. -/
theorem room_of_mapReason {first n kind stack : Nat} (h : s.mapReason x first n kind stack = 0) :
    kind ≤ 2 ∧ (∀ q ∈ pageRange first n, s.homeOf q = none) ∧ s.roomFor kind (ix 12 stack) n := by
  rw [State.mapReason, firstReason_cons (by decide), firstReason_cons (by decide), firstReason_cons (by decide),
    firstReason_cons (by decide)] at h
  obtain ⟨h1, h2, -, h4, -⟩ := h
  simp only [Bool.or_eq_false_iff, decide_eq_false_iff_not, not_lt] at h1
  refine ⟨h1.1.1.1, fun q hq => ?_, fun h0 => ?_, fun ho => ?_⟩
  · have := List.any_eq_false.1 h2 q hq
    simpa using this
  · subst h0
    simpa using h4
  · subst ho
    simpa using h4

theorem posts_live {s t : State} (h : Posts s t) (hl : Live s x) : Live t x := by
  rw [Live, h.ctx x]; exact hl

theorem doMap_eq (hp : s.packetAt x i 4 (some 0x0A) = some p)
    (hr : s.mapReason x (fld p.hdr 0x18 4) (fld p.hdr 0x1C 4) (byteAt p.hdr 0x20) (byteAt p.hdr 0x21) = 0) :
    doMap x i s = ((pageRange (fld p.hdr 0x18 4) (fld p.hdr 0x1C 4)).foldl
      (fun s q => s.mapPage x q (byteAt p.hdr 0x20) (ix 12 (byteAt p.hdr 0x21))) s).donePacket x p := by
  simp [doMap, hp, hr, State.control]

theorem doUnmap_eq (hp : s.packetAt x i 4 (some 0x0B) = some p)
    (hr : s.unmapReason x (fld p.hdr 0x18 4) (fld p.hdr 0x1C 4) = 0)
    (hm : (pageRange (fld p.hdr 0x18 4) (fld p.hdr 0x1C 4)).any s.moving = false) :
    doUnmap x i s = ((pageRange (fld p.hdr 0x18 4) (fld p.hdr 0x1C 4)).foldl (fun s q => s.freePage q) s).donePacket x p := by
  simp [doUnmap, hp, State.unmapNow, hr, hm]

/-- Pages freed one by one. -/
theorem foldl_freePage (qs : List Nat) (s : State) (k : Nat) :
    (qs.foldl (fun s q => s.freePage q) s).homeOf k = if k ∈ qs then none else s.homeOf k := by
  induction qs generalizing s with
  | nil => simp
  | cons q qs ih =>
    have hone : (s.freePage q).homeOf k = if k = q then none else s.homeOf k := by
      rw [State.homeOf, freePage_map, alookup_aerase]; rfl
    rw [List.foldl_cons, ih, hone]
    by_cases h1 : k ∈ qs <;> by_cases h2 : k = q <;> simp [h1, h2]

end

/-- Settles O14: pages take and leave their entries one by one. -/
theorem mapAndUnmapChangeTheHomeMap : Obligations.MapAndUnmapChangeTheHomeMap := by
  refine ⟨?_, ?_⟩
  · intro s x i p first n kind hp hl hf hn hk hr
    subst hf hn hk
    obtain ⟨hkind, hfree, hroom⟩ := room_of_mapReason hr
    obtain ⟨hposts, hin, hout⟩ := foldl_mapPage x hkind (pageRange (fld p.hdr 0x18 4) (fld p.hdr 0x1C 4)) s hfree
      (nodup_pageRange _ _) (by rw [length_pageRange]; exact hroom)
    refine ⟨_, (inHub_up _ _ (hubUp_of_packetAt hp)).trans (congrArg _ (doMap_eq hp hr)), ?_⟩
    rw [donePacket_of_live (posts_live hposts hl)]
    refine ⟨by simp [Ctx.ended], fun q h1 h2 => ?_, fun q hq => hout q (fun h => ?_)⟩
    · obtain ⟨e, he, hfresh⟩ := hin q (mem_pageRange.2 ⟨h1, h2⟩)
      exact ⟨e, he, hfresh.owner, hfresh.dest, hfresh.pinned, hfresh.placed, hfresh.spread, hfresh.deep⟩
    · have := mem_pageRange.1 h; omega
  · intro s x i p first n hp hl hf hn hr hm
    subst hf hn
    have hmoving : (pageRange (fld p.hdr 0x18 4) (fld p.hdr 0x1C 4)).any s.moving = false :=
      List.any_eq_false.2 (fun q hq => by
        obtain ⟨h1, h2⟩ := mem_pageRange.1 hq
        rw [hm q h1 h2]; exact Bool.false_ne_true)
    have hposts := posts_foldl (fun s q => s.freePage q) (pageRange (fld p.hdr 0x18 4) (fld p.hdr 0x1C 4))
      (fun s q => posts_freePage s q) s
    refine ⟨_, (inHub_up _ _ (hubUp_of_packetAt hp)).trans (congrArg _ (doUnmap_eq hp hr hmoving)), ?_⟩
    rw [donePacket_of_live (posts_live hposts hl)]
    have hhome := foldl_freePage (pageRange (fld p.hdr 0x18 4) (fld p.hdr 0x1C 4)) s
    refine ⟨by simp [Ctx.ended], fun q h1 h2 => ?_, fun q hq => ?_⟩
    · exact (hhome q).trans (if_pos (mem_pageRange.2 ⟨h1, h2⟩))
    · exact (hhome q).trans (if_neg (fun h => by have := mem_pageRange.1 h; omega))

end Sys2Proof.Machine
end

section
/-! PROOFS. Reads of the unified range, and QUERY (11, 12). -/

namespace Sys2Proof.Machine

open Sys2Proof

/-! # A read of the unified range returns as many bytes as it asks for (11, R268) -/

theorem pieces_zero (u fuel a : Nat) : pieces u fuel a 0 = [] := by cases fuel <;> simp [pieces]

theorem pieces_sum {u : Nat} (hu : 0 < u) (fuel a n : Nat) (h : n + a % u ≤ u * fuel) :
    ((pieces u fuel a n).map (·.2)).sum = n := by
  induction fuel generalizing a n with
  | zero => simp [pieces]; omega
  | succ fuel ih =>
    have hlt := Nat.mod_lt a hu
    simp only [pieces]
    split
    next h0 => simp [h0]
    next h0 =>
      rw [Nat.mul_succ] at h
      rw [List.map_cons, List.sum_cons]
      by_cases hk : n ≤ u - a % u
      · have hmin : min n (u - a % u) = n := Nat.min_eq_left hk
        rw [hmin, Nat.sub_self, pieces_zero]
        simp
      · have hmin : min n (u - a % u) = u - a % u := by omega
        have hmod : (a + (u - a % u)) % u = 0 := by
          have hdiv := Nat.div_add_mod a u
          rw [show a + (u - a % u) = u * (a / u + 1) by rw [Nat.mul_succ]; omega, Nat.mul_mod_right]
        rw [hmin, ih _ _ (by rw [hmod]; omega)]
        omega

/-- The fuel that the model gives its pieces is enough. -/
theorem pieces_sum_all {u : Nat} (hu : 0 < u) (a n : Nat) : ((pieces u (n / u + 2) a n).map (·.2)).sum = n := by
  refine pieces_sum hu _ a n ?_
  have h1 := Nat.mod_lt a hu
  have h2 := Nat.lt_mul_div_succ n hu
  rw [Nat.mul_add, Nat.mul_two]
  rw [Nat.mul_add, Nat.mul_one] at h2
  omega

theorem length_flatten_pieces {u : Nat} {β : Type} (hu : 0 < u) (a n : Nat) (f : Nat × Nat → List β)
    (hf : ∀ q ∈ pieces u (n / u + 2) a n, (f q).length = q.2) : ((pieces u (n / u + 2) a n).map f).flatten.length = n := by
  rw [List.length_flatten, List.map_map]
  exact (congrArg List.sum (List.map_congr_left hf)).trans (pieces_sum_all hu a n)

/-- A piece lies in one unit. -/
theorem mem_pieces {u : Nat} (hu : 0 < u) (fuel a n : Nat) : ∀ q ∈ pieces u fuel a n, q.1 % u + q.2 ≤ u := by
  induction fuel generalizing a n with
  | zero => exact nofun
  | succ fuel ih =>
    simp only [pieces]
    split
    · exact nofun
    · intro q hq
      rcases List.mem_cons.1 hq with rfl | hq
      · have := Nat.mod_lt a hu
        dsimp only
        omega
      · exact ih _ _ q hq

theorem StackS.read_length (st : StackS) (a n : Nat) : (st.read a n).length = n := by
  have hraw : (if st.quiet a n then (st.mem.read a n).map (fun b => (⟨b, false⟩ : PByte))
      else (((sectorsOf a n).flatMap st.sectorBytes).drop (a % 64)).take n).length = n := by
    split
    · simp
    · rw [drop_take_sectors]; simp
  unfold StackS.read
  dsimp only
  refine (congrArg List.length (overlays_eq (fun e i b => e.over (a + i) b) _ _)).trans ?_
  simpa using hraw

theorem deepBlock_length (s : State) (p j : Nat) : (s.deepBlock p j).length = 4096 := by
  unfold State.deepBlock
  dsimp only
  split
  · exact List.length_replicate
  · rw [List.length_map, List.length_zipIdx, Mem.read_length]

theorem readHome_length (s : State) (h : Home) (p off n : Nat) : (s.readHome h p off n).length = n := by
  unfold State.readHome
  cases h with
  | placed m f => simp [State.nearPieces, StackS.read_length]
  | spread k =>
    simp only [State.nearPieces, List.map_map]
    exact length_flatten_pieces (by decide) off n _ (fun q _ => StackS.read_length _ _ _)
  | deep =>
    refine length_flatten_pieces (by decide) off n _ (fun q hq => ?_)
    have := mem_pieces (by decide) _ _ _ q hq
    rw [List.length_take, List.length_drop, deepBlock_length]
    omega

theorem uread_length (s : State) (a n : Nat) : (s.uread a n).length = n := by
  refine length_flatten_pieces (by decide) a n _ (fun q _ => ?_)
  split
  · exact readHome_length _ _ _ _ _
  · simp

/-! # QUERY packets (12, R313, R325; 13, R344; 17, R437) -/

section
variable {s : State} {x : Fin 16} {i : Fin 8} {p : Pkt}

theorem any_cleanBytes (bs : List Byte) : (cleanBytes bs).any (·.p) = false := by simp [cleanBytes]

theorem map_cleanBytes (bs : List Byte) : (cleanBytes bs).map (·.b) = bs := by simp [cleanBytes, Function.comp_def]

/-- A result with no poison is returned. -/
theorem returned_endTransfer (hl : Live s x) {bs : List PByte} (h : bs.any (·.p) = false) :
    Returned s (s.endTransfer x p (fld p.hdr 0x20 8) bs) x p (bs.map (·.b)) := by
  rw [endTransfer_clean hl _ h]
  exact ⟨⟨rfl, fun y hy => State.modCtx_other _ x y _ hy⟩, rfl, State.modCtx_same _ x _, rfl, rfl⟩

theorem query_eq {sub n : Nat} {bad : Bool} (hp : s.packetAt x i 5 (some sub) = some p) (hd : (s.ctx x).dying = false)
    (hbad : bad = false) (hn : n ≤ 16777216) (hh : hostRoom (fld p.hdr 0x20 8) (fld p.hdr 0x28 8) n = true) (data : List PByte)
    (after : State → State) : s.query x i sub n bad data after = (after s).endTransfer x p (fld p.hdr 0x20 8) data := by
  have hfit : ¬(bad = true ∨ 16777216 < n) := by rw [hbad]; simp; omega
  simp only [State.query, hp, hd, Bool.false_eq_true, if_false, if_neg hfit, hh, Bool.not_true]

/-- A QUERY with a result of clean bytes returns them. -/
theorem query_returns {sub n : Nat} (hp : s.packetAt x i 5 (some sub) = some p) (hl : Live s x) (hn : n ≤ 16777216)
    (hh : hostRoom (fld p.hdr 0x20 8) (fld p.hdr 0x28 8) n = true) (bs : List Byte) :
    Returned s (s.query x i sub n false (cleanBytes bs) id) x p bs := by
  have h := returned_endTransfer (p := p) hl (any_cleanBytes bs)
  rw [map_cleanBytes] at h
  rw [query_eq hp hl.2 rfl hn hh]
  exact h

/-- So does one of COUNT items. -/
theorem queryRange_returns {sub size : Nat} (hp : s.packetAt x i 5 (some sub) = some p)
    (hf : s.queryFields x i = (p.target, fld p.hdr 0x18 4, fld p.hdr 0x1C 4, ix 4 (bits (byteAt p.hdr 0x30) 1 0))) (hl : Live s x)
    (hn : size * fld p.hdr 0x1C 4 ≤ 16777216)
    (hh : hostRoom (fld p.hdr 0x20 8) (fld p.hdr 0x28 8) (size * fld p.hdr 0x1C 4) = true) (item : Fin 16 → Nat → List Byte) :
    Returned s (s.queryRange x i sub size item) x p
      ((List.range (fld p.hdr 0x1C 4)).flatMap (fun j => item p.target (fld p.hdr 0x18 4 + j))) := by
  simp only [State.queryRange, hf, if_pos hn]
  exact query_returns hp hl hn hh _

/-! ### The almanac (09, R214) -/

/-- An entry's bytes as a QUERY reads them. -/
theorem almanacRead_bytes {t : Fin 16} {j : Nat} (h : (s.almanacStatus t j).length = 256) :
    (s.almanacRead t j).map (·.b) = s.almanacStatus t j := by
  unfold State.almanacRead
  split
  next a _ =>
    rw [List.map_map]
    refine (List.map_fst_zip ?_)
    rw [uread_length, h]
  next => exact map_cleanBytes _

/-- The entries that a QUERY reads. -/
theorem almanacReads {t : Fin 16} {first count : Nat} (h : ∀ j < count, (s.almanacStatus t (first + j)).length = 256 ∧
      (s.almanacRead t (first + j)).any (·.p) = false) :
    ((List.range count).flatMap (fun j => s.almanacRead t (first + j))).any (·.p) = false ∧
      ((List.range count).flatMap (fun j => s.almanacRead t (first + j))).map (·.b) =
        (List.range count).flatMap (fun j => s.almanacStatus t (first + j)) := by
  constructor
  · rw [List.any_flatMap, List.any_eq_false]
    intro j hj
    rw [(h j (List.mem_range.1 hj)).2]
    exact Bool.false_ne_true
  · rw [List.map_flatMap]
    exact List.flatMap_congr (fun j hj => almanacRead_bytes (h j (List.mem_range.1 hj)).1)

theorem queryAlmanac_returns (hp : s.packetAt x i 5 (some 0x06) = some p)
    (hf : s.queryFields x i = (p.target, fld p.hdr 0x18 4, fld p.hdr 0x1C 4, ix 4 (bits (byteAt p.hdr 0x30) 1 0))) (hl : Live s x)
    (hn : 256 * fld p.hdr 0x1C 4 ≤ 16777216)
    (hh : hostRoom (fld p.hdr 0x20 8) (fld p.hdr 0x28 8) (256 * fld p.hdr 0x1C 4) = true)
    (h : ∀ j < fld p.hdr 0x1C 4, (s.almanacStatus p.target (fld p.hdr 0x18 4 + j)).length = 256 ∧
      (s.almanacRead p.target (fld p.hdr 0x18 4 + j)).any (·.p) = false) :
    Returned s (doQueryAlmanac x i s) x p
      ((List.range (fld p.hdr 0x1C 4)).flatMap (fun j => s.almanacStatus p.target (fld p.hdr 0x18 4 + j))) := by
  obtain ⟨hclean, hbytes⟩ := almanacReads h
  have hafter : doQueryAlmanac x i s = s.endTransfer x p (fld p.hdr 0x20 8)
      ((List.range (fld p.hdr 0x1C 4)).flatMap (fun j => s.almanacRead p.target (fld p.hdr 0x18 4 + j))) := by
    simp only [doQueryAlmanac, hf, if_pos hn]
    rw [query_eq hp hl.2 rfl hn hh]
    congr 1
    split
    · exact if_neg (by rw [hclean]; decide)
    · rfl
  rw [hafter, ← hbytes]
  exact returned_endTransfer hl hclean

/-! ### The fault ring (17, R437) -/

/-- The entries of a set of sequence numbers are marked HOST_SEEN. -/
def State.hostSees (s : State) (seqs : List W32) : State :=
  { s with faults := { s.faults with
    ring := s.faults.ring.map (fun e => if e.2.rseq ∈ seqs then (e.1, { e.2 with hostSeen := true }) else e) } }

theorem foldl_hostSeen (seqs : List W32) (s : State) :
    seqs.foldl (fun s r => s.modRing r (fun e => { e with hostSeen := true })) s = s.hostSees seqs := by
  induction seqs generalizing s with
  | nil => simp [State.hostSees]
  | cons r seqs ih =>
    rw [List.foldl_cons, ih]
    simp only [State.hostSees, State.modRing, State.modFaults, List.map_map]
    congr 2
    refine List.map_congr_left (fun e _ => ?_)
    simp only [Function.comp]
    by_cases h1 : e.2.rseq = r
    · by_cases h2 : r ∈ seqs <;> simp [h1, h2]
    · by_cases h2 : e.2.rseq ∈ seqs <;> simp [h1, h2]

theorem queryFaultRing_eq (hp : s.packetAt x i 5 (some 0x08) = some p)
    (hf : s.queryFields x i = (p.target, fld p.hdr 0x18 4, fld p.hdr 0x1C 4, ix 4 (bits (byteAt p.hdr 0x30) 1 0))) (hl : Live s x)
    (hn : fld p.hdr 0x1C 4 ≤ 4096) (hh : hostRoom (fld p.hdr 0x20 8) (fld p.hdr 0x28 8) (320 * fld p.hdr 0x1C 4) = true)
    {seqs : List W32} (hseqs : seqs = (List.range (fld p.hdr 0x1C 4)).map (fun j => BitVec.ofNat 32 (fld p.hdr 0x18 4 + j))) :
    doQueryFaultRing x i s = (s.hostSees seqs).endTransfer x p (fld p.hdr 0x20 8) (cleanBytes (seqs.flatMap s.ringStatus)) := by
  have hfit : decide (4096 < fld p.hdr 0x1C 4) = false := by simpa using hn
  rw [← foldl_hostSeen, hseqs]
  simp only [doQueryFaultRing, hf, Nat.min_eq_left hn]
  exact query_eq hp hl.2 hfit (by omega) hh _ _

end

/-- Settles O15: each QUERY forms its result, and a result with no poison is returned. -/
theorem queriesReturnTheirResults : Obligations.QueriesReturnTheirResults := by
  intro s x i p hl hpkt
  have hf : s.queryFields x i = (p.target, fld p.hdr 0x18 4, fld p.hdr 0x1C 4, ix 4 (bits (byteAt p.hdr 0x30) 1 0)) := by
    simp only [State.queryFields, ← hpkt]
  refine ⟨?_, ?_⟩
  · intro cmd sub n bs hp hn hh hcmd
    have hup := hubUp_of_packetAt hp
    rcases hcmd with h | h | h | h | h | h | h <;> obtain ⟨hc, hs, hcount, hb⟩ := h <;> subst hc hs hcount
    · refine ⟨_, inHub_up _ _ hup, ?_⟩
      simp only [doQueryContextStatus, hf, hb]
      exact query_returns hp hl hn hh _
    · exact ⟨_, inHub_up _ _ hup, hb ▸ queryRange_returns hp hf hl hn hh _⟩
    · refine ⟨_, inHub_up _ _ hup, ?_⟩
      simp only [doQuerySlots, hf, hb]
      exact query_returns hp hl hn hh _
    · refine ⟨_, inHub_up _ _ hup, ?_⟩
      simp only [doQueryTierCounters, hf, hb]
      exact query_returns hp hl hn hh _
    · exact ⟨_, inHub_up _ _ hup, hb ▸ queryRange_returns hp hf hl hn hh _⟩
    · exact ⟨_, inHub_up _ _ hup, hb.1 ▸ queryAlmanac_returns hp hf hl hn hh hb.2⟩
    · exact ⟨_, inHub_up _ _ hup, hb ▸ query_returns hp hl hn hh _⟩
  · intro hp hcount hh
    generalize hseqs : (List.range (fld p.hdr 0x1C 4)).map (fun j => BitVec.ofNat 32 (fld p.hdr 0x18 4 + j)) = seqs
    have hlive : Live (s.hostSees seqs) x := hl
    have hq := queryFaultRing_eq hp hf hl hcount hh hseqs.symm
    rw [endTransfer_clean hlive _ (any_cleanBytes _), map_cleanBytes] at hq
    refine ⟨_, (inHub_up _ _ (hubUp_of_packetAt hp)).trans (congrArg _ hq), rfl, ?_, State.modCtx_same _ x _, ?_⟩
    · rw [← hseqs, List.flatMap_map]
      rfl
    · rw [State.modCtx_faults, State.hostSees, ← hseqs]
      simp only [List.mem_map, List.mem_range, eq_comm (a := BitVec.ofNat 32 _)]

end Sys2Proof.Machine
end

section
/-! PROOFS. The completion ring (12). -/

namespace Sys2Proof.Machine

open Sys2Proof

/-! ## The completion ring (12, R316, R318, R319) -/

section
variable {s : State} {x : Fin 16}

/-- What MSI-X makes of a message (12, R319): its pending bit where its vector is masked. -/
theorem msix_spec (s : State) (x : Fin 16) (v : Nat) :
    s.msix x v = { s with hub := { s.hub with msix := (s.msix x v).hub.msix, msixSent := (s.msix x v).hub.msixSent } } ∧
      if v ∈ s.hub.msix[x].masked then (s.msix x v).hub.msixSent = s.hub.msixSent ∧
          (s.msix x v).hub.msix[x].pend = setInsert v s.hub.msix[x].pend
        else (s.msix x v).hub.msixSent = s.hub.msixSent ++ [(x.val, v)] ∧ (s.msix x v).hub.msix = s.hub.msix := by
  by_cases h : v ∈ s.hub.msix[x].masked
  · have hm : s.msix x v = { s with hub := { s.hub with
        msix := vmod s.hub.msix x (fun m => { m with pend := setInsert v m.pend }) } } := if_pos (by simpa using h)
    rw [hm, if_pos h]
    exact ⟨rfl, rfl, by rw [vmod_same]⟩
  · have hm : s.msix x v = { s with hub := { s.hub with msixSent := s.hub.msixSent ++ [(x.val, v)] } } :=
      if_neg (by simpa using h)
    rw [hm, if_neg h]
    exact ⟨rfl, rfl, rfl⟩

/-- The bytes of an entry at the tail of the ring of a context. -/
def Ctx.tailWrite (k : Ctx) (x : Fin 16) (e : Entry) : HostWrite :=
  ⟨x.val, k.ringAddr.toNat + 64 * (k.cqTail.toNat % k.ringEntries), e.encode k.cqTail.toNat k.ringEntries⟩

/-- What it takes to write an entry to the ring of a context. -/
structure RingWrites (x : Fin 16) (e : Entry) (s t : State) : Prop where
  host : OnlyHost x s t
  ctx : t.ctx x = { s.ctx x with cqTail := (s.ctx x).cqTail + 1 }
  writes : t.hub.hostWrites = s.hub.hostWrites ++ [(s.ctx x).tailWrite x e]
  message : if ((s.ctx x).vecMap[e.cls]?).getD 0 ∈ s.hub.msix[x].masked
    then t.hub.msixSent = s.hub.msixSent ∧ t.hub.msix[x].pend = setInsert (((s.ctx x).vecMap[e.cls]?).getD 0) s.hub.msix[x].pend
    else t.hub.msixSent = s.hub.msixSent ++ [(x.val, ((s.ctx x).vecMap[e.cls]?).getD 0)] ∧ t.hub.msix = s.hub.msix

theorem ringWrite_spec (s : State) (x : Fin 16) (e : Entry) : RingWrites x e s (s.ringWrite x e) := by
  obtain ⟨hrest, hmsg⟩ := msix_spec ((s.hostWrite x ((s.ctx x).ringAddr.toNat + 64 * ((s.ctx x).cqTail.toNat % (s.ctx x).ringEntries))
    (e.encode (s.ctx x).cqTail.toNat (s.ctx x).ringEntries)).modCtx x (fun k => { k with cqTail := k.cqTail + 1 })) x
    (((s.ctx x).vecMap[e.cls]?).getD 0)
  change s.ringWrite x e = _ at hrest
  change (if _ then (s.ringWrite x e).hub.msixSent = _ ∧ (s.ringWrite x e).hub.msix[x].pend = _ else
    (s.ringWrite x e).hub.msixSent = _ ∧ (s.ringWrite x e).hub.msix = _) at hmsg
  generalize s.ringWrite x e = t at hrest hmsg ⊢
  refine ⟨⟨?_, fun y hy => ?_⟩, ?_, ?_, hmsg⟩
  · rw [hrest]; rfl
  · rw [hrest]; exact State.modCtx_other s x y _ hy
  · rw [hrest]; exact State.modCtx_same s x _
  · rw [hrest]; rfl

theorem doCompletionEntry_eq {e : Entry} {rest : List Entry} (hr : (s.ctx x).ringRoom = true)
    (ho : (s.ctx x).owedOverflow = false) (hf : (s.ctx x).formed = e :: rest) (hb : (s.ctx x).backlog = []) :
    doCompletionEntry x s = (s.modCtx x (fun k => { k with formed := rest })).ringWrite x e := by
  simp only [doCompletionEntry, hf, hr, ho, hb, List.isEmpty_nil, Bool.and_self, Bool.not_false, if_true]

theorem doBacklogDrain_eq {e : Entry} {rest : List Entry} (hr : (s.ctx x).ringRoom = true)
    (ho : (s.ctx x).owedOverflow = false) (hb : (s.ctx x).backlog = e :: rest) :
    doBacklogDrain x s = (s.ringWrite x e).modCtx x (fun k => { k with backlog := rest }) := by
  simp only [doBacklogDrain, hr, ho, hb, Bool.not_true, Bool.false_eq_true, if_false]

theorem OnlyHost.trans {s t u : State} (h : OnlyHost x s t) (k : OnlyHost x t u) : OnlyHost x s u := by
  obtain ⟨h1, h2⟩ := h
  obtain ⟨k1, k2⟩ := k
  refine ⟨?_, fun y hy => (k2 y hy).trans (h2 y hy)⟩
  rw [h1] at k1; exact k1

theorem onlyHost_modCtx (s : State) (x : Fin 16) (f : Ctx → Ctx) : OnlyHost x s (s.modCtx x f) :=
  ⟨rfl, fun y hy => State.modCtx_other s x y f hy⟩

end

/-- Settles O16: a formed or waiting entry is written at the tail of the ring. -/
theorem completionEntriesReachTheRing : Obligations.CompletionEntriesReachTheRing := by
  intro s x hu
  refine ⟨fun v => inHub_up _ _ hu, fun e rest cmd hr ho hcmd => ?_⟩
  rcases hcmd with ⟨rfl, hf, hb⟩ | ⟨rfl, hb⟩
  · refine ⟨_, (inHub_up _ _ hu).trans (congrArg _ (doCompletionEntry_eq hr ho hf hb)), ?_⟩
    have h := ringWrite_spec (s.modCtx x (fun k => { k with formed := rest })) x e
    have hx := State.modCtx_same s x (fun k => { k with formed := rest })
    have hctx := h.ctx
    have hmsg := h.message
    have hwr := h.writes
    rw [hx] at hctx hmsg hwr
    refine ⟨(onlyHost_modCtx s x _).trans h.host, ?_, fun _ => ?_, nofun, hwr, hmsg⟩
    · rw [hctx]
    · rw [hctx]
  · refine ⟨_, (inHub_up _ _ hu).trans (congrArg _ (doBacklogDrain_eq hr ho hb)), ?_⟩
    have h := ringWrite_spec s x e
    refine ⟨h.host.trans (onlyHost_modCtx _ x _), ?_, nofun, fun _ => ?_, h.writes, h.message⟩
    · rw [State.modCtx_same, h.ctx]
    · rw [State.modCtx_same, h.ctx]

end Sys2Proof.Machine
end

section
/-! PROOFS. Role and owner records, and firmware (15, 20). -/

namespace Sys2Proof.Machine

open Sys2Proof

/-! ## Role and owner records (15, R372; 20, R484) -/

/-- The state with a record in the queue of the module store. -/
theorem queueRec_eq (s : State) (kind : Nat) (bs : List Byte) (by' : Option (Fin 16 × Fin 8 × W32)) :
    s.queueRec kind bs by' = { s with faults := { s.faults with
      storeQueue := s.faults.storeQueue ++ [⟨kind, recordPages bs.length, bs, by'⟩] } } := rfl

theorem live_of_ctxs {s t : State} {x : Fin 16} (h : t.hub.ctxs = s.hub.ctxs) (hl : Live s x) : Live t x := by
  have hx : t.ctx x = s.ctx x := by simp only [State.ctx, h]
  rw [Live, hx]; exact hl

section
variable {s : State} {x : Fin 16} {i : Fin 8} {p : Pkt}

theorem doSetRole_eq (hp : s.packetAt x i 4 (some 0x0C) = some p) (hl : Live s x) (hk : recKind p.pay = 8)
    (hr : s.recordReason p.pay [8] = 0) (hf : roleFieldsOk (recBody p.pay) = true) (hm : macOk (recBody p.pay) = true)
    (hn : s.roles.record = none) : doSetRole x i s =
      (({ s with roles := Roles.ofRecord (recBody p.pay) (if s.clock.ready then some s.pilot else none) }).queueRec 8 p.pay none).modCtx
        x (fun k => k.ended p (okEntry p)) := by
  have hkind : ¬(recKind p.pay = 6 ∨ recKind p.pay = 7) := by omega
  have happly : s.applyRole (recBody p.pay) =
      { s with roles := Roles.ofRecord (recBody p.pay) (if s.clock.ready then some s.pilot else none) } := by
    simp [State.applyRole, hn, State.modRoles]
  simp only [doSetRole, hp, if_neg hkind, hr, hf, hm, happly, Bool.not_true, Bool.false_eq_true, if_false, ne_eq, not_true_eq_false]
  exact donePacket_of_live hl

theorem doOwnerRecord_eq (hp : s.packetAt x i 4 (some 0x0C) = some p) (hl : Live s x) (hk : recKind p.pay = 6)
    (hr : s.ownerReason p.pay = 0) : doOwnerRecord x i s = (s.queueRec 6 p.pay none).modCtx x (fun k => k.ended p (okEntry p)) := by
  simp only [doOwnerRecord, hp, hk, hr, ne_eq, not_true_eq_false, if_false]
  exact donePacket_of_live hl

/-- A record that passes the checks passes those of its header. -/
theorem headerReason_of_recordReason {r : List Byte} {kinds : List Nat} (h : s.recordReason r kinds = 0) :
    s.headerReason r kinds = 0 := by
  by_contra hh
  rw [State.recordReason, if_pos hh] at h
  exact hh h

theorem doOwnerRelease_eq (hp : s.packetAt x i 4 (some 0x0C) = some p) (hl : Live s x) (hk : recKind p.pay = 7)
    (ho : s.sec.ownerKey = some (recBody p.pay)) (hr : s.recordReason p.pay [7] = 0) :
    doOwnerRelease x i s = (s.queueRec 7 p.pay none).modCtx x (fun k => k.ended p (okEntry p)) := by
  simp only [doOwnerRelease, hp, hk, headerReason_of_recordReason hr, ho, hr, ne_eq, not_true_eq_false, if_false,
    bne_self_eq_false, Bool.false_eq_true]
  exact donePacket_of_live hl

end

/-- Settles O17: the records that pass are queued. -/
theorem recordsWaitForTheStore : Obligations.RecordsWaitForTheStore := by
  intro s x i p hp hl
  have hup := hubUp_of_packetAt hp
  refine ⟨fun hk hr hf hm hn => ?_, fun cmd kind hcmd hk => ?_⟩
  · exact (inHub_up _ _ hup).trans (congrArg _ (doSetRole_eq hp hl hk hr hf hm hn))
  · rcases hcmd with ⟨rfl, rfl, hr⟩ | ⟨rfl, rfl, ho, hr⟩
    · exact (inHub_up _ _ hup).trans (congrArg _ (doOwnerRecord_eq hp hl hk hr))
    · exact (inHub_up _ _ hup).trans (congrArg _ (doOwnerRelease_eq hp hl hk ho hr))

/-! ## Firmware (20, R485 to R487) -/

section
variable {s : State} {x : Fin 16} {i : Fin 8} {p : Pkt}

theorem hubUp_of_firmwareAt {op : Nat} (h : s.firmwareAt x i op = some p) : s.hubUp = true := by
  obtain ⟨q, hq, -⟩ := Option.bind_eq_some_iff.1 h
  exact hubUp_of_packetAt hq

theorem doFwUpdateWrite_eq (hp : s.firmwareAt x i 0 = some p) (hm : pieceMalformed p.pay = false)
    (ho : pieceOffset p.pay = 0 ∨ (pieceOffset p.pay = s.sec.partialImage.length ∧ pieceTotal p.pay = s.sec.partialTotal)) :
    doFwUpdateWrite x i s = (({ s with sec := if pieceOffset p.pay = 0
      then { s.sec with partialTotal := pieceTotal p.pay, partialImage := [] } else s.sec }).queueRec 0x21 (pieceData p.pay)
        (some (x, i, p.seq))).acceptPacket x p := by
  by_cases h0 : pieceOffset p.pay = 0
  · simp [doFwUpdateWrite, hp, hm, h0, State.modSec]
  · obtain ⟨h1, h2⟩ := ho.resolve_left h0
    have hne : ¬s.sec.partialImage.length = 0 := h1 ▸ h0
    simp [doFwUpdateWrite, hp, hm, h1, h2, hne]

theorem doFwUpdateActivate_eq (hp : s.firmwareAt x i 1 = some p) (hm : pieceMalformed p.pay = false)
    (h0 : s.sec.partialTotal ≠ 0) (hlen : s.sec.partialImage.length = s.sec.partialTotal)
    (hr : s.imageReason s.sec.partialImage = 0) : doFwUpdateActivate x i s =
      (({ s with sec := { s.sec with
        partialTotal := 0, partialImage := [], staged := true
        image := some (imageOf s.sec.partialImage, recGen s.sec.partialImage) } }).queueRec 0x22 []
          (some (x, i, p.seq))).acceptPacket x p := by
  simp [doFwUpdateActivate, hp, hm, h0, hlen, hr, State.modSec]

theorem doFwUpdateAbandon_eq (hl : Live s x) (hp : s.firmwareAt x i 2 = some p) (hm : pieceMalformed p.pay = false)
    (hh : s.sec.hubResetAt = none) (hpend : s.sec.pendingModule = false) : doFwUpdateAbandon x i s =
      ({ s with sec := { s.sec with partialTotal := 0, partialImage := [], staged := false, image := none } }).modCtx x
        (fun k => k.ended p (okEntry p)) := by
  simp only [doFwUpdateAbandon, State.modSec, hp, hm, hh, hpend, Option.isSome_none, Bool.false_eq_true, if_false]
  exact donePacket_of_live (live_of_ctxs rfl hl)

end

/-- Settles O18: pieces, activation and abandon. -/
theorem firmwareUpdatesGoThroughTheStore : Obligations.FirmwareUpdatesGoThroughTheStore := by
  intro s x i p hl hm
  refine ⟨fun hp ho => ?_, fun hp h0 hlen hr => ?_, fun hp hh hpend => ?_⟩
  · refine ⟨_, (inHub_up _ _ (hubUp_of_firmwareAt hp)).trans (congrArg _ (doFwUpdateWrite_eq hp hm ho)), ?_, rfl, rfl, rfl⟩
    simp [acceptPacket_eq]
  · refine ⟨_, (inHub_up _ _ (hubUp_of_firmwareAt hp)).trans (congrArg _ (doFwUpdateActivate_eq hp hm h0 hlen hr)), ?_, rfl, rfl,
      rfl, rfl, rfl, rfl⟩
    simp [acceptPacket_eq]
  · exact (inHub_up _ _ (hubUp_of_firmwareAt hp)).trans (congrArg _ (doFwUpdateAbandon_eq hl hp hm hh hpend))

end Sys2Proof.Machine
end

section
/-! PROOFS. The SPDM responder (20). -/

namespace Sys2Proof.Machine

open Sys2Proof

/-! # The SPDM responder (20, R489 to R491) -/

/-- A field that stands between two parts of a message. -/
theorem fld_between (pre post : List Byte) (off n v : Nat) (h : pre.length = off) :
    fld (pre ++ (leBytes n v ++ post)) off n = v % 256 ^ n := by
  rw [fld, List.drop_left' h, List.take_left' (leBytes_length n v), leNat_leBytes]

@[simp] theorem spdmHead_length (version code p1 p2 : Nat) : (spdmHead version code p1 p2).length = 4 := by simp [spdmHead]

theorem byteAt_spdmHead (version code p1 p2 : Nat) (bs : List Byte) :
    byteAt (spdmHead version code p1 p2 ++ bs) 1 = code % 256 := by
  have h := fld_between (leBytes 1 version) (leBytes 1 p1 ++ leBytes 1 p2 ++ bs) 1 1 code (leBytes_length 1 version)
  simpa [byteAt, spdmHead, List.append_assoc] using h

/-- The bytes of a request, as the mailbox or a frame carries them. -/
def spdmBytes : SpdmReq → List Byte
  | .doe m => m
  | .bxt _ f => f.payload

/-- What the responder keeps when it makes a place for a requester. -/
theorem spdmPlace_keeps {u t : Sec} {who now : Nat} (h : u.spdmPlace who now = some t) : t = { u with spdm := t.spdm } := by
  unfold Sec.spdmPlace at h
  dsimp only at h
  split at h
  · cases h; rfl
  · split at h
    · cases h; rfl
    · split at h
      · cases h; rfl
      · cases h

section
variable {s s1 : State} {r : SpdmReq} {q : SpdmMsg} {t : Sec}

/-- A request that reaches the responder in its place is carried out. -/
theorem spdm_runs {code need : Nat} (ht : s.spdmTake r = (s1, some q)) (hp : s1.sec.spdmPlace q.who s.pilot = some t)
    (hc : byteAt (spdmBytes r) 1 = code) (hn : need ≤ t.spdmStage q.who) (f : State → SpdmMsg → State) :
    s.spdm r code need f = f { s1 with sec := t } q := by
  have hstage : ¬ t.spdmStage q.who < need := Nat.not_lt.2 hn
  have hrun : s.spdm r code need f = if byteAt (spdmBytes r) 1 ≠ code then
      (s1.modSec (fun _ => t)).spdmAnswer q (spdmError 7) else f (s1.modSec (fun _ => t)) q := by
    cases r <;> simp only [spdmBytes] at hc <;>
      simp only [State.spdm, spdmBytes, hc, ht, hp, bne_self_eq_false, Bool.false_and, Bool.false_eq_true, if_false, if_neg hstage]
  rw [hrun, if_neg (by simp [hc])]
  rfl

end

/-! ## Negotiation (20, R489) -/

/-- The response to NEGOTIATE_ALGORITHMS. -/
def algorithmsBody (m : List Byte) : List Byte :=
  spdmHead 0x12 0x63 0 0 ++ leBytes 2 36 ++ leBytes 1 1 ++ leBytes 1 0 ++ leBytes 4 0x08 ++
    leBytes 4 (Nat.land (fld m 8 4) 0x40) ++ leBytes 4 (Nat.land (fld m 12 4) 0x04) ++ zeros 12 ++ leBytes 1 0 ++ leBytes 1 0 ++
    leBytes 2 0

theorem algorithmsBody_fields (m : List Byte) : (algorithmsBody m).length = 36 ∧ byteAt (algorithmsBody m) 1 = 0x63 ∧
    fld (algorithmsBody m) 12 4 = Nat.land (fld m 8 4) 0x40 ∧ fld (algorithmsBody m) 16 4 = Nat.land (fld m 12 4) 0x04 := by
  have hasym : Nat.land (fld m 8 4) 0x40 < 256 ^ 4 := Nat.lt_of_le_of_lt Nat.and_le_right (by decide)
  have hhash : Nat.land (fld m 12 4) 0x04 < 256 ^ 4 := Nat.lt_of_le_of_lt Nat.and_le_right (by decide)
  have h12 := fld_between (spdmHead 0x12 0x63 0 0 ++ leBytes 2 36 ++ leBytes 1 1 ++ leBytes 1 0 ++ leBytes 4 0x08)
    (leBytes 4 (Nat.land (fld m 12 4) 0x04) ++ (zeros 12 ++ (leBytes 1 0 ++ (leBytes 1 0 ++ leBytes 2 0)))) 12 4
    (Nat.land (fld m 8 4) 0x40) (by simp)
  have h16 := fld_between (spdmHead 0x12 0x63 0 0 ++ leBytes 2 36 ++ leBytes 1 1 ++ leBytes 1 0 ++ leBytes 4 0x08 ++
    leBytes 4 (Nat.land (fld m 8 4) 0x40)) (zeros 12 ++ (leBytes 1 0 ++ (leBytes 1 0 ++ leBytes 2 0))) 16 4
    (Nat.land (fld m 12 4) 0x04) (by simp)
  rw [Nat.mod_eq_of_lt hasym] at h12
  rw [Nat.mod_eq_of_lt hhash] at h16
  simp only [List.append_assoc] at h12 h16
  refine ⟨by simp [algorithmsBody, zeros], ?_, ?_, ?_⟩
  · simp only [algorithmsBody, List.append_assoc]
    exact byteAt_spdmHead _ _ _ _ _
  · simp only [algorithmsBody, List.append_assoc]
    exact h12
  · simp only [algorithmsBody, List.append_assoc]
    exact h16

/-- Settles O19: each request that is in its place is carried out. -/
theorem theResponderNegotiates : Obligations.TheResponderNegotiates := by
  intro s s1 r m q t hu hm ht hq hp
  have hb : spdmBytes r = m := by cases r <;> exact hm.symm
  subst hq
  have run {code need : Nat} (hc : byteAt q.bytes 1 = code) (hn : need ≤ t.spdmStage q.who) (f : State → SpdmMsg → State) :
      (.next (s.spdm r code need f) : Result) = .next (f { s1 with sec := t } q) :=
    congrArg _ (spdm_runs ht hp (by rw [hb]; exact hc) hn f)
  refine ⟨fun hc => ?_, fun hc hn => ⟨(Config.freeWord s1.freeCtr).toNat, ?_⟩, fun hc hn => ⟨algorithmsBody q.bytes, ?_, algorithmsBody_fields q.bytes⟩,
    fun hc hn => ?_, fun hc hn h2 h6 h4 => ⟨_, rfl, ?_⟩⟩
  · exact (inDies_up _ _ hu).trans (run hc (Nat.zero_le _) _)
  · exact (inDies_up _ _ hu).trans (run hc hn _)
  · exact (inDies_up _ _ hu).trans (run hc hn _)
  · exact (inDies_up _ _ hu).trans (run hc hn _)
  · refine (inDies_up _ _ hu).trans ((run hc hn _).trans (congrArg _ (if_neg ?_)))
    rintro (h | ⟨h, hlt⟩ | h)
    · exact h h2
    · exact absurd (h6 h) (Nat.not_le.2 hlt)
    · exact absurd h4 (Nat.not_le.2 h)

/-! ## Attestation (20, R490, R491) -/

/-- What is measured does not depend on the requesters. -/
theorem measurementBlock_congr {s : State} {t : Sec} (h : t = { s.sec with spdm := t.spdm }) (i : Nat) :
    State.measurementBlock { s with sec := t } i = s.measurementBlock i := by
  rw [h]; rfl

/-- Settles O20: a CHALLENGE and a GET_MEASUREMENTS of a requester that has negotiated are carried out. -/
theorem theResponderAttests : Obligations.TheResponderAttests := by
  intro s s1 r m q t hu hm ht hq hp h3
  have hb : spdmBytes r = m := by cases r <;> exact hm.symm
  subst hq
  have run {code : Nat} (hc : byteAt q.bytes 1 = code) (f : State → SpdmMsg → State) :
      (.next (s.spdm r code 3 f) : Result) = .next (f { s1 with sec := t } q) :=
    congrArg _ (spdm_runs ht hp (by rw [hb]; exact hc) h3 f)
  refine ⟨fun hc h2 => ⟨_, (inDies_up _ _ hu).trans ((run hc _).trans (congrArg _ (if_neg (not_not.2 h2)))), ?_, ?_⟩, fun hc h9 => ?_⟩
  · simp only [List.append_assoc]
    exact byteAt_spdmHead _ _ _ _ _
  · simp only [List.append_assoc]
    rw [List.drop_left' (spdmHead_length _ _ _ _), List.take_left]
  · refine ⟨_, Config.freeBytes s1.freeCtr 32, (inDies_up _ _ hu).trans ((run hc _).trans (congrArg _ (if_neg (by omega)))), ?_, ?_⟩
    · intro h0 hsig
      simp [h0, hsig]
    · intro h0 hsig
      have hff : byteAt q.bytes 3 ≠ 0xFF := by omega
      simp [h0, hff, hsig, measurementBlock_congr (spdmPlace_keeps hp)]

end Sys2Proof.Machine
end

section
/-! PROOFS. The fault ring, its handler, minutes and the module store (16, 17). -/

namespace Sys2Proof.Machine

open Sys2Proof

/-! ## Faults enter the ring (17, R427) -/

/-- A ready state in which a fault has been detected and a flush owes the record of a sector of S0. -/
def owedRecord (r : FaultRec) : State :=
  { State.reset with
    board := { State.reset.board with aonOn := true }
    clock := { State.reset.clock with resetHeld := false }
    faults := { State.reset.faults with detected := [r], ring := [] }
    hbm := State.reset.hbm.set 0 { State.reset.hbm[(0 : Fin 12)] with found := [0] } }

/-- A corrected fault of a scratchpad. -/
def correctedFault : FaultRec :=
  { severity := 0, reason := 0x0620, source := 4, ctx := none, span := none, unitKind := 7, unit := 1, addrKind := 3
    addr := 1024, queue := 0, index := 0, seq := 0, minute := 0, pilot := 0, detail := [], transient := false }

/-- The records that a flush owes are detected in the same step (10, R262). -/
theorem owedRecord_records : (owedRecord correctedFault).h1Up = true ∧
    (doFaultRecord none (owedRecord correctedFault)).faults.detected.length = 1 := by
  decide +kernel

/-- Refutes O21: the step also detects the record that a flush owes for a sector found uncorrectable, so what waits after it is
not the rest of what had been detected. -/
theorem not_faultsEnterTheRing : ¬ Obligations.FaultsEnterTheRing := by
  intro h
  obtain ⟨hup, hlen⟩ := owedRecord_records
  obtain ⟨hnew, -⟩ := h (owedRecord correctedFault) correctedFault [] hup rfl (by decide)
  have heq := hnew (fun _ he => absurd he List.not_mem_nil) (fun _ he => nomatch he)
  have hrun : exec (.faultRecord none) (owedRecord correctedFault) = .next (doFaultRecord none (owedRecord correctedFault)) :=
    inH1_up _ _ hup
  rw [hrun] at heq
  injection heq with heq
  rw [heq] at hlen
  exact absurd hlen (by decide)

/-! ## The handler (17, R428, R429) -/

/-- Only what commands at work may touch differs, and what the link dies hold. -/
def OnlyStops (s t : State) : Prop := OnlyWork { s with fabric := t.fabric } t

theorem OnlyStops.refl (s : State) : OnlyStops s s := OnlyWork.refl s

theorem OnlyWork.stops {s t : State} (h : OnlyWork s t) : OnlyStops s t := by
  have hf : t.fabric = s.fabric := by
    unfold OnlyWork at h
    rw [h]
  rw [OnlyStops, hf]
  exact h

theorem OnlyStops.trans {s t u : State} (h : OnlyStops s t) (k : OnlyStops t u) : OnlyStops s u := by
  refine OnlyWork.trans ?_ k
  unfold OnlyStops OnlyWork at *
  rw [h]

theorem OnlyStops.ring {s t : State} (h : OnlyStops s t) : t.faults.ring = s.faults.ring ∧ t.faults.handling = s.faults.handling := by
  unfold OnlyStops OnlyWork at h
  rw [h]
  exact ⟨rfl, rfl⟩

theorem onlyStops_foldl {α : Type} (f : State → α → State) (l : List α) (h : ∀ s a, OnlyStops s (f s a)) (s : State) :
    OnlyStops s (l.foldl f s) := frame_foldl OnlyStops.refl OnlyStops.trans f l (fun s a _ => h s a) s

theorem onlyWork_haltMoves (s : State) (x : Fin 16) : OnlyWork s (s.haltMoves x) := by
  unfold State.haltMoves
  refine onlyWork_foldl _ (fun s m => ?_) _ s
  have land : ∀ u (e : Bool), OnlyWork s u → OnlyWork s (if e then (u.landStalled m).modCtx x (fun k => { k with
      aborts := satAdd k.aborts 1 }) else u.landStalled m) := by
    intro u e hu
    have hland : OnlyWork s (u.landStalled m) := hu.trans (onlyWork_foldl _ (fun s w => onlyWork_uwrite s _ _) _ u)
    split
    · exact hland.trans (onlyWork_modCtx _ x _)
    · exact hland
  have tiers (f g : Tiers → Tiers) (hf : ∀ k, (f k).spreadGib = k.spreadGib ∧ (f k).deepLow = k.deepLow ∧
      (f k).deepLowNext = k.deepLowNext) (hg : ∀ k, (g k).spreadGib = k.spreadGib ∧ (g k).deepLow = k.deepLow ∧
      (g k).deepLowNext = k.deepLowNext) : OnlyWork s ((s.modTiers f).modTiers g) :=
    (onlyWork_modTiers s f hf).trans (onlyWork_modTiers (s.modTiers f) g hg)
  dsimp only
  split
  · exact onlyWork_modTiers s _ (fun _ => ⟨rfl, rfl, rfl⟩)
  · refine land _ _ ?_
    split
    · refine OnlyWork.trans ?_ (onlyWork_clearDeep _ _)
      exact tiers _ _ (fun _ => ⟨rfl, rfl, rfl⟩) (fun _ => ⟨rfl, rfl, rfl⟩)
    · exact tiers _ _ (fun _ => ⟨rfl, rfl, rfl⟩) (fun _ => ⟨rfl, rfl, rfl⟩)

/-- Of a core only what it runs, its span and its epilogues change, and of the rest only arrays and feed dies. -/
structure ClearsCore (c : Fin 4) (s t : State) : Prop where
  rest : t = { s with cores := t.cores, arrays := t.arrays, feeds := t.feeds }
  others : ∀ d, d ≠ c → t.core d = s.core d

theorem ClearsCore.trans {c : Fin 4} {s t u : State} (h : ClearsCore c s t) (k : ClearsCore c t u) : ClearsCore c s u := by
  obtain ⟨h1, h2⟩ := h
  obtain ⟨k1, k2⟩ := k
  refine ⟨?_, fun d hd => (k2 d hd).trans (h2 d hd)⟩
  rw [h1] at k1; exact k1

theorem clearsCore_modCore (s : State) (c : Fin 4) (f : CoreS → CoreS) : ClearsCore c s (s.modCore c f) :=
  ⟨rfl, fun d hd => State.modCore_other s c d f hd⟩

theorem clearsCore_stopIssue (s : State) (c : Fin 4) : ClearsCore c s (s.stopIssue c) := by
  have hn : ClearsCore c s (s.noteIssues c) := by
    rw [noteIssues_rest]
    exact ⟨rfl, fun _ _ => rfl⟩
  exact (hn.trans (clearsCore_modCore _ c (fun k => { k with issuing := [] }))).trans ⟨rfl, fun _ _ => rfl⟩

/-- The core runs a command of a context. -/
def State.runsFor (s : State) (x : Fin 16) (c : Fin 4) : Bool :=
  match (s.core c).running with | some r => r.x == x | none => false

theorem clearsCore_arrays (s : State) (c : Fin 4) (f : ArrayS → ArrayS) (l : List (Fin 2)) :
    ClearsCore c s (l.foldl (fun s b => s.modArr (arrayOf c b) f) s) ∧
      (l.foldl (fun s b => s.modArr (arrayOf c b) f) s).core c = s.core c :=
  frame_foldl (R := fun s t => ClearsCore c s t ∧ t.core c = s.core c) (fun _ => ⟨⟨rfl, fun _ _ => rfl⟩, rfl⟩)
    (fun h k => ⟨h.1.trans k.1, k.2.trans h.2⟩) (fun s b => s.modArr (arrayOf c b) f) l
    (fun _ _ _ => ⟨⟨rfl, fun _ _ => rfl⟩, rfl⟩) s

theorem clearsCore_clearCore (s : State) (x : Fin 16) (c : Fin 4) : ClearsCore c s (s.clearCore x c) ∧
    (((s.clearCore x c).core c).running = none ∨
      s.runsFor x c = false ∧ ((s.clearCore x c).core c).running = (s.core c).running) := by
  have hrun : ∃ u, u = (if s.runsFor x c then (s.stopIssue c).modCore c (fun k => { k with running := none, epi := [] }) else s) ∧
      ClearsCore c s u ∧ ((u.core c).running = none ∨ s.runsFor x c = false ∧ (u.core c).running = (s.core c).running) := by
    refine ⟨_, rfl, ?_⟩
    split
    · exact ⟨(clearsCore_stopIssue s c).trans (clearsCore_modCore _ c _), .inl (by rw [State.modCore_same])⟩
    next h => exact ⟨⟨rfl, fun _ _ => rfl⟩, .inr ⟨by simpa using h, rfl⟩⟩
  obtain ⟨u, hu, hc, hr⟩ := hrun
  have hspan : ∀ b : Bool, ∃ v, v = (if b then u.modCore c (fun k => { k with span := none }) else u) ∧
      ClearsCore c s v ∧ (v.core c).running = (u.core c).running := by
    intro b
    refine ⟨_, rfl, ?_⟩
    split
    · exact ⟨hc.trans (clearsCore_modCore u c _), by rw [State.modCore_same]⟩
    · exact ⟨hc, rfl⟩
  obtain ⟨v, hv, hcv, hrv⟩ := hspan (match (s.core c).span with | some sp => sp.x == x | none => false)
  have hend : ∀ b : Bool, ∃ w, w = (if b then [0, 1].foldl (fun s b => s.modArr (arrayOf c b) (fun t => { t with
      rows := [], captures := [], missed := [], fresh := false, spanDisagree := 0 })) v else v) ∧
      ClearsCore c s w ∧ (w.core c).running = (u.core c).running := by
    intro b
    refine ⟨_, rfl, ?_⟩
    split
    · obtain ⟨ha, hk⟩ := clearsCore_arrays v c (fun t => { t with
        rows := [], captures := [], missed := [], fresh := false, spanDisagree := 0 }) [0, 1]
      exact ⟨hcv.trans ha, by rw [hk, hrv]⟩
    · exact ⟨hcv, hrv⟩
  obtain ⟨w, hw, hcw, hrw⟩ := hend (s.runsFor x c || (match (s.core c).span with | some sp => sp.x == x | none => false))
  have heq : s.clearCore x c = w := by rw [hw, hv, hu]; rfl
  rw [heq, hrw]
  exact ⟨hcw, hr⟩

/-- A context of which nothing is queued or runs in its own queues. -/
structure Ctx.Stopped (k : Ctx) : Prop where
  cores : ∀ q ∈ k.cores.toList, q.main = [] ∧ q.eval = []
  fabric : k.fabric = []
  memory : k.memory = []
  fabricRun : k.fabricRun = []
  memoryRun : k.memoryRun = []

theorem Ctx.Stopped.queued {k : Ctx} (h : k.Stopped) : k.queued = 0 := queued_of_empty h.cores h.fabric h.memory

/-- No core runs a command of a context. -/
def State.Idles (s : State) (x : Fin 16) : Prop := ∀ d, s.runsFor x d = false

theorem noneRunning_of_idles {s : State} {x : Fin 16} (h : s.Idles x) (hk : (s.ctx x).Stopped) : s.noneRunning x = true := by
  have hcores : s.cores.toList.all (fun k => match k.running with | some r => r.x != x | none => true) = true := by
    refine List.all_eq_true.2 (fun k hk => ?_)
    obtain ⟨i, hi, rfl⟩ := List.mem_iff_getElem.1 hk
    have hi' : i < 4 := by simpa using hi
    have hr := h ⟨i, hi'⟩
    have hc : s.cores.toList[i] = s.core ⟨i, hi'⟩ := by simp [State.core]
    rw [hc]
    unfold State.runsFor at hr
    split
    next r h' => rw [h'] at hr; simpa [bne] using hr
    · rfl
  unfold State.noneRunning
  rw [hk.fabricRun, hk.memoryRun, Bool.and_eq_true, Bool.and_eq_true]
  exact ⟨⟨hcores, rfl⟩, rfl⟩

/-- After every core has been cleared of a context none runs a command of it. -/
theorem idles_clearCores (s : State) (x : Fin 16) : ((List.finRange 4).foldl (fun s c => s.clearCore x c) s).Idles x := by
  have step (l : List (Fin 4)) : ∀ s : State, ∀ d, d ∈ l ∨ s.runsFor x d = false →
      (l.foldl (fun s c => s.clearCore x c) s).runsFor x d = false := by
    induction l with
    | nil => exact fun s d h => h.resolve_left List.not_mem_nil
    | cons c l ih =>
      intro s d h
      refine ih (s.clearCore x c) d ?_
      obtain ⟨hc, hr⟩ := clearsCore_clearCore s x c
      by_cases hd : d = c
      · subst hd
        rcases hr with hr | ⟨hno, hr⟩
        · exact .inr (by simp only [State.runsFor, hr])
        · exact .inr (by rw [← hno]; simp only [State.runsFor, hr])
      · rcases h with h | h
        · exact .inl ((List.mem_cons.1 h).resolve_left hd)
        · exact .inr (by rw [← h]; simp only [State.runsFor, hc.others d hd])
  exact fun d => step _ s d (.inl (List.mem_finRange d))

theorem clearCores_rest (s : State) (x : Fin 16) : ∃ u, u = (List.finRange 4).foldl (fun s c => s.clearCore x c) s ∧
    u = { s with cores := u.cores, arrays := u.arrays, feeds := u.feeds } :=
  ⟨_, rfl, frame_foldl (R := fun s u => u = { s with cores := u.cores, arrays := u.arrays, feeds := u.feeds }) (fun _ => rfl)
    (fun {s t u} h k => by rw [h] at k; exact k) _ _ (fun s c _ => (clearsCore_clearCore s x c).1.rest) s⟩

/-- The context whose work is stopped: its queues, as they are emptied. -/
def Ctx.halted (k : Ctx) : Ctx :=
  { k with
    fabric := [], memory := [], fabricRun := [], memoryRun := []
    cores := k.cores.map (fun q => { q with main := [], eval := [], admitted := 0, setPending := false, hint := none }) }

theorem stopped_halted (k : Ctx) : k.halted.Stopped := by
  refine ⟨fun q hq => ?_, rfl, rfl, rfl, rfl⟩
  simp only [Ctx.halted, Vector.toList_map, List.mem_map] at hq
  obtain ⟨q', -, rfl⟩ := hq
  exact ⟨rfl, rfl⟩

theorem stopped_emptySlots {s : State} {x : Fin 16} (h : (s.ctx x).Stopped) : ((s.emptySlots x).ctx x).Stopped := by
  obtain ⟨hq, hf, hm, hfr, hmr⟩ := h
  rw [State.emptySlots, State.modCtx_same]
  refine ⟨fun q hq' => ?_, hf, hm, hfr, hmr⟩
  simp only [Vector.toList_map, List.mem_map] at hq'
  obtain ⟨q', hq', rfl⟩ := hq'
  exact hq q' hq'

theorem idles_of_cores {s t : State} {x : Fin 16} (h : s.Idles x) (hc : t.cores = s.cores) : t.Idles x := by
  intro d
  rw [← h d]
  simp only [State.runsFor, State.core, hc]

theorem onlyStops_dropFabric (s : State) (x : Fin 16) : OnlyStops s (s.dropFabric x) := rfl

/-- A context stops: nothing of it is queued or runs. -/
theorem stopWork_stops (s : State) (x : Fin 16) :
    OnlyStops s (s.stopWork x) ∧ ((s.stopWork x).ctx x).Stopped ∧ (s.stopWork x).Idles x := by
  obtain ⟨u, hu, hrest⟩ := clearCores_rest (s.modCtx x Ctx.halted) x
  have hidle : u.Idles x := hu ▸ idles_clearCores _ x
  have hring : OnlyStops s u := by rw [hrest]; rfl
  have hctx : (u.ctx x).Stopped := by
    have hk : u.ctx x = (s.ctx x).halted := by
      rw [hrest]
      exact State.modCtx_same s x Ctx.halted
    rw [hk]
    exact stopped_halted _
  have hhalt := halts_haltMoves (u.dropFabric x) x
  have heq : ∃ f, s.stopWork x = ((u.dropFabric x).haltMoves x).modTiers f ∧
      ∀ k, (f k).spreadGib = k.spreadGib ∧ (f k).deepLow = k.deepLow ∧ (f k).deepLowNext = k.deepLowNext := by
    subst hu
    unfold State.stopWork
    exact ⟨_, rfl, fun _ => ⟨rfl, rfl, rfl⟩⟩
  obtain ⟨f, heq, hf⟩ := heq
  rw [heq]
  refine ⟨(hring.trans (onlyStops_dropFabric u x)).trans ((onlyWork_haltMoves (u.dropFabric x) x).trans (onlyWork_modTiers _ f hf)).stops, ?_, ?_⟩
  · show (((u.dropFabric x).haltMoves x).ctx x).Stopped
    rw [hhalt.own]
    obtain ⟨hq, hf, hm, hfr, hmr⟩ := hctx
    exact ⟨hq, hf, hm, hfr, hmr⟩
  · exact idles_of_cores hidle hhalt.cores

theorem onlyWork_reportFailed (s : State) (x : Fin 16) : OnlyWork s (s.reportFailed x) := by
  unfold State.reportFailed
  exact onlyWork_foldl _ (fun s (r : Run) => onlyWork_report s x r.cmd r.out) _ s

/-- The work of a context has stopped. -/
structure StopsWork (x : Fin 16) (s t : State) : Prop where
  rest : OnlyStops s t
  stopped : (t.ctx x).Stopped
  idles : t.Idles x

theorem StopsWork.modCtx {x : Fin 16} {s t : State} (h : StopsWork x s t) (f : Ctx → Ctx) (hf : ∀ k, k.Stopped → (f k).Stopped) :
    StopsWork x s (t.modCtx x f) :=
  ⟨h.rest.trans (onlyWork_modCtx t x _).stops, by rw [State.modCtx_same]; exact hf _ h.stopped, idles_of_cores h.idles rfl⟩

theorem StopsWork.emptySlots {x : Fin 16} {s t : State} (h : StopsWork x s t) : StopsWork x s (t.emptySlots x) :=
  ⟨h.rest.trans (onlyWork_modCtx t x _).stops, stopped_emptySlots h.stopped, idles_of_cores h.idles rfl⟩

theorem StopsWork.post {x : Fin 16} {s t : State} (h : StopsWork x s t) (e : Entry) : StopsWork x s (t.post x e) := by
  rcases post_cases t x e with hp | hp <;> rw [hp]
  · exact h.modCtx _ (fun k hk => ⟨hk.cores, hk.fabric, hk.memory, hk.fabricRun, hk.memoryRun⟩)
  · exact h

/-- The end of a kill keeps what has stopped, and a context that is dying is KILLED or still dying after it. -/
theorem StopsWork.endKill {x : Fin 16} {s t : State} (h : StopsWork x s t) (hd : (t.ctx x).dying = true) :
    StopsWork x s (t.endKill x) ∧ (((t.endKill x).ctx x).state = .killed ∨ ((t.endKill x).ctx x).dying = true) := by
  unfold State.endKill
  dsimp only
  split
  · have hp := h.post { Entry.blank 5 (t.ctx x).killReason with detail := detail [(0, 4, (t.ctx x).killRseq.toNat)] }
    generalize t.post x _ = u at hp ⊢
    refine ⟨hp.modCtx _ (fun k hk => ⟨hk.cores, hk.fabric, hk.memory, hk.fabricRun, hk.memoryRun⟩), .inl ?_⟩
    rw [State.modCtx_same]
  · exact ⟨h, .inr hd⟩

/-- A context that is killed: its sealed packets are discarded. -/
def Ctx.dies (k : Ctx) (reason : Nat) (rseq : W32) : Ctx :=
  { k with
    dying := true, killReason := reason, killRseq := rseq
    slots := k.slots.map (fun m => if m.state = .sealed then { m with state := .free } else m) }

theorem kill_eq {s : State} {x : Fin 16} (hl : Live s x) (reason : Nat) (rseq : W32) : s.kill x reason rseq =
    ((((s.reportFailed x).stopWork x).emptySlots x).modCtx x (·.dies reason rseq)).endKill x := by
  obtain ⟨ha, hdy⟩ := hl
  have hno : ¬ ((s.ctx x).state != .active || (s.ctx x).dying) = true := by rw [ha, hdy]; decide
  unfold State.kill
  exact if_neg hno

/-- A kill of a context that is ACTIVE (17, R432). -/
theorem kill_stops {s : State} {x : Fin 16} (hl : Live s x) (reason : Nat) (rseq : W32) :
    StopsWork x s (s.kill x reason rseq) ∧
      (((s.kill x reason rseq).ctx x).state = .killed ∨ ((s.kill x reason rseq).ctx x).dying = true) := by
  obtain ⟨hr, hs, hi⟩ := stopWork_stops (s.reportFailed x) x
  have hstop : StopsWork x s (((s.reportFailed x).stopWork x).emptySlots x) :=
    (StopsWork.mk ((onlyWork_reportFailed s x).stops.trans hr) hs hi).emptySlots
  rw [kill_eq hl]
  generalize ((s.reportFailed x).stopWork x).emptySlots x = u at hstop
  refine (hstop.modCtx (·.dies reason rseq) (fun k hk => ⟨hk.cores, hk.fabric, hk.memory, hk.fabricRun, hk.memoryRun⟩)).endKill ?_
  rw [State.modCtx_same]
  rfl

theorem onlyStops_kill (s : State) (x : Fin 16) (reason : Nat) (rseq : W32) : OnlyStops s (s.kill x reason rseq) := by
  by_cases hl : Live s x
  · exact (kill_stops hl reason rseq).1.rest
  · have hno : ((s.ctx x).state != .active || (s.ctx x).dying) = true := by
      rw [Bool.or_eq_true, bne_iff_ne]
      by_cases ha : (s.ctx x).state = .active
      · exact .inr (by simpa using fun hd => hl ⟨ha, hd⟩)
      · exact .inl ha
    rw [State.kill, if_pos hno]
    exact OnlyStops.refl s

theorem killLatched_of_nil {s : State} (h : s.faults.killLatch = []) : s.killLatched = s := by
  unfold State.killLatched State.modFaults
  rw [h, List.foldl_nil, ← h]

/-- The state in which the handler holds an entry. -/
def State.holds (s : State) (e : RingEntry) : State :=
  (s.modRing e.rseq (fun e => { e with state := .handling })).modFaults (fun t => { t with handling := some e.rseq })

theorem beginHandling_of_contained {s : State} {e : RingEntry} (h : e.fault.severity ≠ 2) : s.beginHandling e = s.holds e := by
  unfold State.beginHandling
  dsimp only
  split
  · exact if_neg h
  · rfl

theorem beginHandling_kills {s : State} {e : RingEntry} {x : Fin 16} (h : e.fault.severity = 2) (hx : e.fault.ctx = some x) :
    s.beginHandling e = (s.holds e).kill x e.fault.reason e.rseq := by
  simp only [State.beginHandling, hx, h, if_true]
  rfl

theorem onlyStops_beginHandling (s : State) (e : RingEntry) : OnlyStops (s.holds e) (s.beginHandling e) := by
  unfold State.beginHandling
  dsimp only
  split
  · split
    · exact onlyStops_kill (s.holds e) _ _ _
    · exact OnlyStops.refl _
  · exact OnlyStops.refl _

/-- What a free handler does with the foremost entry. -/
theorem doFaultHandle_takes {s : State} {e : RingEntry} (hh : s.faults.handling = none) (hk : s.faults.killLatch = [])
    (hf : s.faults.foremost ((s.faults.ring.map (·.2)).filter (·.isOpen)) = some e) :
    doFaultHandle false s = s.beginHandling e := by
  have hw : (s.faults.ring.map (·.2)).filter (fun e => e.isOpen && some e.rseq != s.faults.handling) =
      (s.faults.ring.map (·.2)).filter (·.isOpen) := by
    rw [hh]
    exact congrArg (List.filter · _) (funext fun e => Bool.and_true _)
  unfold doFaultHandle
  simp only [killLatched_of_nil hk, hw, hf]
  rw [hh]
  rfl

/-- What a handler that holds a deferred entry of no context does at its end. -/
theorem doFaultHandle_ends {s : State} {e : RingEntry} (hh : s.faults.handling = some e.rseq) (he : s.faults.entry e.rseq = some e)
    (hsev : e.fault.severity = 1) (ht : e.fault.transient = false) (hc : e.fault.ctx = none) :
    doFaultHandle true s = ((s.event 0 0x0610
      (detail [(0, 4, e.rseq.toNat), (4, 1, 1), (5, 1, e.fault.source), (6, 2, e.fault.reason)])).modRing e.rseq
        (fun e => { e with state := .done })).modFaults (fun t => { t with handling := none }) := by
  have hrep : ∀ t : State, t.reportFault e = t := fun t => by
    unfold State.reportFault
    split
    · simp [hsev]
    · rfl
  simp [doFaultHandle, hh, he, State.finishHandling, State.faultEvents, hsev, ht, hc, hrep]

/-- A change of the faults and an entry of a context do not meet. -/
theorem event_modFaults (s : State) (f : Faults → Faults) (x : Fin 16) (reason : Nat) (d : List Byte) :
    (s.event x reason d).modFaults f = (s.modFaults f).event x reason d := by
  have hs : (s.modFaults f).ctx x = s.ctx x := rfl
  unfold State.event State.post
  rw [hs]
  split
  · rfl
  · split <;> rfl
  · rfl
  · rfl

theorem modRing_eq (s : State) (rseq : W32) (g : RingEntry → RingEntry) : s.modRing rseq g =
    s.modFaults (fun t => { t with ring := t.ring.map (fun e => if e.2.rseq = rseq then (e.1, g e.2) else e) }) := rfl

/-- Settles O22: a free handler takes the foremost entry, and a handler that holds one ends it. -/
theorem theHandlerTakesAndEndsEntries : Obligations.TheHandlerTakesAndEndsEntries := by
  refine ⟨fun s e hu hh hk hf => ?_, fun s e hu hh he hsev ht hc => ?_⟩
  · refine ⟨_, (inH1_up _ _ hu).trans (congrArg _ (doFaultHandle_takes hh hk hf)), ?_⟩
    obtain ⟨hring, hhand⟩ := (onlyStops_beginHandling s e).ring
    refine ⟨hhand, hring, fun h2 => by rw [beginHandling_of_contained h2]; rfl, fun x h2 hx hl => ?_⟩
    obtain ⟨hs, hd⟩ := kill_stops (s := s.holds e) hl e.fault.reason e.rseq
    rw [beginHandling_kills h2 hx]
    exact ⟨hs.stopped.queued, noneRunning_of_idles hs.idles hs.stopped, hd⟩
  · refine (inH1_up _ _ hu).trans (congrArg _ ((doFaultHandle_ends hh he hsev ht hc).trans ?_))
    rw [modRing_eq, event_modFaults, event_modFaults]
    rfl

/-! ## Cause bits and minutes (16, R408, R414; 17, R431) -/

theorem clearsCause_not (s : State) (v : W32) (i : Fin 3) :
    (!s.clearsCause v i) = (!v.getLsbD (i.val + 1) || s.faults.nmiAt[i] == s.pilot) := by
  simp [State.clearsCause, bne, Bool.not_and]

/-- The minute counter is the same, and so is what no array die holds. -/
structure SameMinute (s t : State) : Prop where
  minute : t.faults.minute = s.faults.minute
  minuteAt : t.faults.minuteAt = s.faults.minuteAt
  arrays : t.arrays = s.arrays

theorem sameMinute_storeHist (s : State) (e : HistEntry) : SameMinute s (s.storeHist e) := by
  unfold State.storeHist
  split
  · split <;> exact ⟨rfl, rfl, rfl⟩
  · exact ⟨rfl, rfl, rfl⟩

theorem sameMinute_writeHist (s : State) (e : HistEntry) : SameMinute s (s.writeHist e).1 := by
  unfold State.writeHist
  dsimp only
  split
  · obtain ⟨h1, h2, h3⟩ := sameMinute_storeHist (s.modFaults (fun t => { t with history := putHist e s.faults.history })) e
    exact ⟨h1, h2, h3⟩
  · split
    next v _ =>
      obtain ⟨h1, h2, h3⟩ := sameMinute_storeHist (s.modFaults (fun t => { t with history :=
        (s.faults.history.filter (fun f => !(f.kind = v.kind && f.unit == v.unit))) ++ [e] })) e
      exact ⟨h1, h2, h3⟩
    · exact ⟨rfl, rfl, rfl⟩

/-- The suspicions of an array that are left after a minute. -/
def State.suspectsLeft (s : State) (a : Fin 8) (now : Nat) : List (Nat × Nat) :=
  (s.arr a).suspects.filter (fun p => decide (now ≤ p.2 + 43200))

/-- The suspicions of one array end, and the counter and the other arrays stay. -/
structure EndsSuspicion (a : Fin 8) (s t : State) : Prop where
  minute : t.faults.minute = s.faults.minute
  minuteAt : t.faults.minuteAt = s.faults.minuteAt
  own : (t.arr a).suspects = s.suspectsLeft a s.faults.minute.toNat
  others : ∀ b, b ≠ a → t.arr b = s.arr b

theorem EndsSuspicion.sameMinute {a : Fin 8} {s t u : State} (h : EndsSuspicion a s t) (k : SameMinute t u) :
    EndsSuspicion a s u := by
  have ha (b : Fin 8) : u.arr b = t.arr b := congrArg (fun l : Vector ArrayS 8 => l[b]) k.arrays
  exact ⟨k.minute.trans h.minute, k.minuteAt.trans h.minuteAt, by rw [ha]; exact h.own, fun b hb => (ha b).trans (h.others b hb)⟩

theorem endsSuspicion_endSuspicion (s : State) (a : Fin 8) : EndsSuspicion a s (s.endSuspicion a) := by
  have hset : EndsSuspicion a s (s.modArr a (fun t => { t with suspects := s.suspectsLeft a s.faults.minute.toNat })) :=
    ⟨rfl, rfl, by rw [State.modArr_same], fun b hb => State.modArr_other s a b _ hb⟩
  unfold State.endSuspicion
  dsimp only
  split
  next h => exact ⟨rfl, rfl, (List.filter_eq_self.2 (List.length_filter_eq_length_iff.1 h)).symm, fun _ _ => rfl⟩
  · split
    · exact hset.sameMinute (sameMinute_writeHist _ _)
    · exact hset

theorem endSuspicions_spec (l : List (Fin 8)) (s : State) :
    (l.foldl State.endSuspicion s).faults.minute = s.faults.minute ∧
    (l.foldl State.endSuspicion s).faults.minuteAt = s.faults.minuteAt ∧
    ∀ a, ((l.foldl State.endSuspicion s).arr a).suspects =
      if a ∈ l then s.suspectsLeft a s.faults.minute.toNat else (s.arr a).suspects := by
  induction l generalizing s with
  | nil => exact ⟨rfl, rfl, fun a => rfl⟩
  | cons b l ih =>
    obtain ⟨h1, h2, h3⟩ := ih (s.endSuspicion b)
    obtain ⟨k1, k2, k3, k4⟩ := endsSuspicion_endSuspicion s b
    refine ⟨h1.trans k1, h2.trans k2, fun a => (h3 a).trans ?_⟩
    by_cases hab : a = b
    · subst hab
      simp [State.suspectsLeft, k1, k3]
    · simp [State.suspectsLeft, k1, k4 a hab, hab]

/-- Settles O23: a write of FAULT_STATUS, and a minute. -/
theorem causeBitsAndMinutes : Obligations.CauseBitsAndMinutes := by
  refine ⟨fun s v hu => (inH1_up _ _ hu).trans (congrArg _ ?_), fun s hu hm => ⟨_, inAon_up _ _ hu, ?_⟩⟩
  · simp only [doFaultStatusWrite, clearsCause_not]
    rfl
  · have hrun : doMinuteTick s = (List.finRange 8).foldl State.endSuspicion
        (s.modFaults (fun t => { t with minute := t.minute + 1, minuteAt := s.pilot })) := if_neg (Nat.not_lt.2 hm)
    obtain ⟨h1, h2, h3⟩ := endSuspicions_spec (List.finRange 8)
      (s.modFaults (fun t => { t with minute := t.minute + 1, minuteAt := s.pilot }))
    rw [hrun]
    exact ⟨h1, h2, fun a => (h3 a).trans (if_pos (List.mem_finRange a))⟩

/-! ## The module store (17, R438 to R440) -/

section
variable {s : State}

theorem doStoreBatch_starts {v n : Nat} (hb : s.batchDue = true) (hn : n = prefixFits s.faults.cUf v 0 s.faults.storeQueue)
    (h0 : n ≠ 0) : doStoreBatch v s = s.modFaults (fun f => { f with
      vMv := v, storeBatch := f.storeQueue.take n, storeQueue := f.storeQueue.drop n
      storeBatches := satAdd f.storeBatches 1, deferredAt := none, deferralPosted := false, holdupLow := false }) := by
  subst hn
  simp only [doStoreBatch, hb, if_neg h0]
  rfl

theorem doStoreBatch_defers {v : Nat} (hb : s.batchDue = true) (hn : prefixFits s.faults.cUf v 0 s.faults.storeQueue = 0)
    (hp : s.faults.deferralPosted = false) : doStoreBatch v s = (s.modFaults (fun f => { f with
      vMv := v, storeDeferrals := satAdd f.storeDeferrals 1, deferredAt := some (f.deferredAt.getD s.pilot)
      triedAt := s.pilot, deferralPosted := true })).event 0 0x0619 [] := by
  simp only [doStoreBatch, hb, hn, hp]
  rfl

theorem storeOne_sec (r : StoreRec) : s.storeOne r = { s with sec := (s.storeOne r).sec } := by
  unfold State.storeOne State.activateImage
  split
  case h_3 => split <;> rfl
  all_goals rfl

/-- A batch of one record of no packet, with the input power present. -/
theorem doStoreBatchDone_one {r : StoreRec} (hb : s.faults.storeBatch = [r]) (hr : r.packet = none) (hp : s.board.pwrGood = true) :
    doStoreBatchDone s = (s.modFaults (fun f => { f with storeBatch := [] })).storeOne r := by
  have hfin (t : State) : t.finishStored r = t := by simp only [State.finishStored, hr]
  unfold doStoreBatchDone
  simp only [hb, List.isEmpty_cons, Bool.false_eq_true, if_false, List.foldl_cons, List.foldl_nil, hfin, hp, Bool.true_or, if_true]

theorem storeOne_owner {r : StoreRec} (h : r.kind = 6) :
    (s.storeOne r).sec = { s.sec.keep r.bytes with ownerKey := some (keyId (ownerModulus r.bytes)) } := by
  simp only [State.storeOne, h]; rfl

theorem storeOne_release {r : StoreRec} (h : r.kind = 7) : (s.storeOne r).sec =
    { s.sec.keep r.bytes with ownerKey := none, records := aerase 6 (aerase 8 (s.sec.keep r.bytes).records) } := by
  simp only [State.storeOne, h]; rfl

theorem storeOne_record {r : StoreRec} (h : r.kind = 4 ∨ r.kind = 5 ∨ r.kind = 8) : (s.storeOne r).sec = s.sec.keep r.bytes := by
  rcases h with h | h | h <;> (simp only [State.storeOne, h]; rfl)

theorem keep_record (t : Sec) (b : List Byte) : alookup (recKind b) (t.keep b).records = some b := by
  rw [Sec.keep, alookup_ainsert, if_pos rfl]

theorem doHoldupLow_posts {a : Nat} (hd : s.faults.deferredAt = some a) (ha : a + 3000000000 ≤ s.pilot) (hl : s.faults.holdupLow = false) :
    doHoldupLow s = (s.modFaults (fun f => { f with holdupLow := true })).event 0 0x061A [] := by
  simp only [doHoldupLow, hd]
  exact if_neg (by simp [hl, Nat.not_lt.2 ha])

theorem doCapacitanceMeasure_measures {dv : Nat} (hd : dv ≠ 0) (hm : s.faults.measuredMinute + 1440 ≤ s.faults.minute.toNat) :
    doCapacitanceMeasure dv s = s.measureBank dv := if_neg (by simp [hd, hm])

end

/-- Settles O24: batches, deferrals, what a finished batch makes current, and the measurement of the capacitance. -/
theorem theModuleStoreWritesInBatches : Obligations.TheModuleStoreWritesInBatches := by
  intro s hu
  have run {f : State → State} {t : State} (h : f s = t) : inH1 f s = .next t := (inH1_up f s hu).trans (congrArg _ h)
  refine ⟨fun v n hb hn h0 => run (doStoreBatch_starts hb hn h0), fun v hb hn hp => run (doStoreBatch_defers hb hn hp),
    fun r hb hr hp => ⟨_, run (doStoreBatchDone_one hb hr hp), storeOne_sec r, fun h6 hk => ?_, fun h7 => ?_, fun h hk => ?_⟩,
    fun a hd ha hl => run (doHoldupLow_posts hd ha hl), fun dv hd hm => run (doCapacitanceMeasure_measures hd hm)⟩
  · rw [storeOne_owner h6]
    exact ⟨rfl, by rw [← hk]; exact keep_record _ _⟩
  · rw [storeOne_release h7]
    exact ⟨rfl, by simp [alookup_aerase], by simp [alookup_aerase]⟩
  · rw [storeOne_record h]
    exact ⟨by rw [← hk]; exact keep_record _ _, rfl⟩

end Sys2Proof.Machine
end

section
/-! PROOFS. In-field tests (13, 16). -/

namespace Sys2Proof.Machine

open Sys2Proof

/-! ## In-field tests (13, R343; 16, R411, R412) -/

/-! ### What other operations leave of the tests of the cores -/

/-- No test begins, and none ends. -/
def KeepsTests (s t : State) : Prop :=
  ∀ d, (t.core d).ift.running = (s.core d).ift.running ∧ (t.core d).ift.runs = (s.core d).ift.runs

theorem KeepsTests.refl (s : State) : KeepsTests s s := fun _ => ⟨rfl, rfl⟩

theorem KeepsTests.trans {s t u : State} (h : KeepsTests s t) (k : KeepsTests t u) : KeepsTests s u :=
  fun d => ⟨(k d).1.trans (h d).1, (k d).2.trans (h d).2⟩

theorem keepsTests_of_cores {s t : State} (h : t.cores = s.cores) : KeepsTests s t := fun d => by
  simp only [State.core, h, and_self]

theorem keepsTests_foldl {α : Type} (f : State → α → State) (l : List α) (h : ∀ s a, KeepsTests s (f s a)) (s : State) :
    KeepsTests s (l.foldl f s) := frame_foldl KeepsTests.refl KeepsTests.trans f l (fun s a _ => h s a) s

theorem keepsTests_modCC (s : State) (x : Fin 16) (c : Fin 4) (f : CtxCore → CtxCore) : KeepsTests s (s.modCC x c f) :=
  keepsTests_of_cores rfl

theorem keepsTests_clearCaptures (s : State) (c : Fin 4) : KeepsTests s (s.clearCaptures c) := keepsTests_of_cores rfl

theorem keepsTests_modStack (s : State) (n : Fin 12) (f : StackS → StackS) : KeepsTests s (s.modStack n f) :=
  keepsTests_of_cores rfl

theorem keepsTests_modArr (s : State) (a : Fin 8) (f : ArrayS → ArrayS) : KeepsTests s (s.modArr a f) :=
  keepsTests_of_cores rfl

theorem keepsTests_queueMap (s : State) (kind : Nat) (body : List Byte) : KeepsTests s (s.queueMap kind body) :=
  keepsTests_of_cores rfl

theorem keepsTests_modCore (s : State) (c : Fin 4) (f : CoreS → CoreS)
    (hf : ∀ k, (f k).ift.running = k.ift.running ∧ (f k).ift.runs = k.ift.runs) : KeepsTests s (s.modCore c f) := by
  intro d
  by_cases hd : d = c
  · subst hd; rw [State.modCore_same]; exact hf _
  · rw [State.modCore_other s c d f hd]; exact ⟨rfl, rfl⟩

theorem Calm.keepsTests {s t : State} (h : Calm s t) : KeepsTests s t := fun d => by rw [h.core d]; exact ⟨rfl, rfl⟩

theorem keepsTests_stopSpanRun (s : State) (c : Fin 4) (r : Run) : KeepsTests s (s.stopSpanRun c r) := by
  have h : KeepsTests s (s.stopIssue c) := by
    have hn : KeepsTests s (s.noteIssues c) := by
      rw [noteIssues_rest]
      exact keepsTests_of_cores rfl
    exact (hn.trans (keepsTests_modCore _ c (fun k => { k with issuing := [] }) (fun _ => ⟨rfl, rfl⟩))).trans (keepsTests_of_cores rfl)
  have h' := h.trans (keepsTests_modCore (s.stopIssue c) c (fun k => { k with running := none, epi := [] }) (fun _ => ⟨rfl, rfl⟩))
  unfold State.stopSpanRun
  dsimp only [List.foldl_cons, List.foldl_nil]
  generalize (s.stopIssue c).modCore c (fun k => { k with running := none, epi := [] }) = u at h' ⊢
  exact h'.trans (keepsTests_of_cores rfl)

/-- The failure of a span does not touch the tests. -/
theorem keepsTests_failSpan (s : State) (c : Fin 4) (reason : Nat) : KeepsTests s (s.failSpan c reason) := by
  unfold State.failSpan
  split
  · exact KeepsTests.refl s
  · dsimp only
    refine KeepsTests.trans ?_ (slices_schedule _ c).calm.keepsTests
    refine KeepsTests.trans ?_ (tidy_emptyBoundary _ _ c _).calm.keepsTests
    refine KeepsTests.trans ?_ (keepsTests_foldl _ _ (fun s k => (tidy_release s _ k true).calm.keepsTests) _)
    refine KeepsTests.trans ?_ (keepsTests_foldl _ _ (fun s k => (calm_signal s _ _ k).keepsTests) _)
    refine KeepsTests.trans ?_ (keepsTests_foldl _ _ (fun s k => (tidy_report s _ k _).calm.keepsTests) _)
    refine KeepsTests.trans ?_ (keepsTests_foldl _ _ (fun s g => (written_poisonRegion s _ c g).calm.keepsTests) _)
    refine KeepsTests.trans ?_ (keepsTests_clearCaptures _ c)
    refine KeepsTests.trans ?_ (keepsTests_foldl _ _ (fun s (d : Cmd × Done × Nat) => keepsTests_modCC s _ c _) _)
    refine KeepsTests.trans ?_ (keepsTests_modCore _ c _ (fun _ => ⟨rfl, rfl⟩))
    refine KeepsTests.trans ?_ (keepsTests_of_cores rfl)
    split
    next r _ => exact keepsTests_stopSpanRun s c r
    · exact KeepsTests.refl s

theorem keepsTests_event (s : State) (x : Fin 16) (reason : Nat) (d : List Byte) : KeepsTests s (s.event x reason d) :=
  (written_post s x _).calm.keepsTests

theorem keepsTests_oweDegrade (s : State) (a : Fin 8) : KeepsTests s (s.oweDegrade a) := by
  unfold State.oweDegrade
  split
  · exact KeepsTests.refl s
  · exact keepsTests_modCore s _ _ (fun _ => ⟨rfl, rfl⟩)

theorem keepsTests_onPermanent (s : State) (kind unit : Nat) : KeepsTests s (s.onPermanent kind unit) := by
  have site (a : Fin 8) (n : Nat) : KeepsTests s (s.permanentSite a n) := by
    unfold State.permanentSite
    dsimp only
    split
    · split
      · exact KeepsTests.refl s
      · exact (keepsTests_modArr s a _).trans (keepsTests_queueMap _ _ _)
    · split
      · exact keepsTests_oweDegrade s a
      · exact keepsTests_modCore s _ _ (fun _ => ⟨rfl, rfl⟩)
  have lane (n : Fin 12) (ch pc l : Nat) : KeepsTests s (s.eraseLane n ch pc l) := by
    unfold State.eraseLane
    dsimp only
    refine KeepsTests.trans ?_ (keepsTests_event _ _ _ _)
    split
    · exact (keepsTests_modStack s n _).trans (keepsTests_queueMap _ _ _)
    · split
      · exact (keepsTests_modStack s n _).trans (keepsTests_queueMap _ _ _)
      · exact keepsTests_modStack s n _
  unfold State.onPermanent
  split
  · exact site _ _
  · exact ((keepsTests_modArr s _ _).trans (keepsTests_oweDegrade _ _)).trans (keepsTests_event _ _ _ _)
  · exact keepsTests_oweDegrade s _
  · unfold State.quarantine
    refine KeepsTests.trans ?_ (keepsTests_event _ _ _ _)
    exact keepsTests_modCore s _ _ (fun _ => ⟨rfl, rfl⟩)
  · exact lane _ _ _ _
  · exact KeepsTests.trans (keepsTests_of_cores rfl) (keepsTests_event _ _ _ _)
  · exact KeepsTests.refl s

theorem storeHist_cores (s : State) (e : HistEntry) : (s.storeHist e).cores = s.cores := by
  unfold State.storeHist
  split
  · split <;> rfl
  · rfl

theorem writeHist_cores (s : State) (e : HistEntry) : (s.writeHist e).1.cores = s.cores := by
  unfold State.writeHist
  dsimp only
  split
  · exact storeHist_cores _ _
  · split
    · exact storeHist_cores _ _
    · rfl

theorem keepsTests_makePermanent (s : State) (kind unit : Nat) : KeepsTests s (s.makePermanent kind unit) := by
  unfold State.makePermanent
  dsimp only
  split
  · exact KeepsTests.refl s
  · exact (keepsTests_of_cores (writeHist_cores s _)).trans (keepsTests_onPermanent _ _ _)

theorem keepsTests_transient (s : State) (kind unit minute n : Nat) : KeepsTests s (s.transient kind unit minute n) := by
  unfold State.transient
  dsimp only
  generalize hw : s.writeHist _ = w
  have h : KeepsTests s w.1 := keepsTests_of_cores (hw ▸ writeHist_cores s _)
  obtain ⟨t, b⟩ := w
  cases b
  · exact h
  · dsimp only
    split
    · split
      · exact h.trans (keepsTests_makePermanent _ _ _)
      · exact h
    · exact h

theorem keepsTests_iftFail (s : State) (c : Fin 4) (f : IftFail) : KeepsTests s (s.iftFail c f) := by
  have note (r : FaultRec) : KeepsTests s (s.detect r) := keepsTests_of_cores rfl
  cases f with
  | site b n again =>
    unfold State.iftFail
    dsimp only
    split
    · exact ((note _).trans (keepsTests_makePermanent _ _ _)).trans (keepsTests_modCore _ c _ (fun _ => ⟨rfl, rfl⟩))
    · exact (note _).trans (keepsTests_transient _ _ _ _ _)
  | witness b again =>
    unfold State.iftFail
    dsimp only
    split
    · exact (note _).trans (keepsTests_makePermanent _ _ _)
    · exact note _
  | bank b => exact note _

/-! ### The tests themselves -/

section
variable {s : State} {c : Fin 4} {k : Ift}

theorem onlyCore_modIft (s : State) (c : Fin 4) (f : Ift → Ift) : OnlyCore c s (s.modIft c f) ∧
    (s.modIft c f).core c = { s.core c with ift := f (s.core c).ift } :=
  ⟨⟨rfl, fun d hd => State.modCore_other s c d _ hd⟩, State.modCore_same s c _⟩

theorem doIftDue_due (hr : s.clock.ready = true) (hm : (s.core c).ift.nextMinute ≤ s.faults.minute.toNat) :
    doIftDue c s = s.modIft c (fun t => { t with due := true, nextMinute := t.nextMinute + t.period }) :=
  if_neg (by simp [hr, Nat.not_lt.2 hm])

theorem doIftForce_forces (hd : (s.core c).ift.due = true) (hr : (s.core c).ift.running = false)
    (hw : 1500000000 ≤ (s.core c).ift.waited) : doIftForce c s = s.modIft c (fun t => { t with forced := true }) :=
  if_pos (by simp [hd, hr, hw])

theorem eq_arrayOf_iff (a : Fin 8) (c : Fin 4) : coreOfArray a = c ↔ a = arrayOf c 0 ∨ a = arrayOf c 1 := by
  revert a c; decide

/-- What is done to both arrays of a core. -/
theorem arr_both (s : State) (c : Fin 4) (f : ArrayS → ArrayS) (a : Fin 8) :
    ((s.modArr (arrayOf c 0) f).modArr (arrayOf c 1) f).arr a = if coreOfArray a = c then f (s.arr a) else s.arr a := by
  have h01 : arrayOf c 0 ≠ arrayOf c 1 := by revert c; decide
  by_cases h1 : a = arrayOf c 1
  · subst h1
    rw [State.modArr_same, State.modArr_other _ _ _ _ h01.symm, if_pos ((eq_arrayOf_iff _ c).2 (.inr rfl))]
  · rw [State.modArr_other _ _ _ _ h1]
    by_cases h0 : a = arrayOf c 0
    · subst h0
      rw [State.modArr_same, if_pos ((eq_arrayOf_iff _ c).2 (.inl rfl))]
    · rw [State.modArr_other _ _ _ _ h0, if_neg (fun h => ((eq_arrayOf_iff a c).1 h).elim h0 h1)]

/-- The state in which a test has begun. -/
def State.testBegun (s : State) (c : Fin 4) : State := (s.dropShadows c).modIft c (fun t => { t with
  runNow := false, due := false, forced := false, waited := 0, running := true, ran := 0, runs := satAdd t.runs 1 })

theorem doIftRun_runs (hd : (s.core c).ift.due = true) (hr : (s.core c).ift.running = false) (hn : (s.core c).running = none)
    (hf : s.fastUp = true) (hs : (s.core c).span = none ∨ (s.core c).ift.forced = true) :
    doIftRun c s = { s.testBegun c with power := { s.power with rampReqs :=
      if ((s.arr (arrayOf c 0)).cold = true ∨ (s.arr (arrayOf c 1)).cold = true) ∧ (∀ r ∈ s.power.rampReqs, r.core ≠ c) then
        s.power.rampReqs ++ [⟨c, s.arrayTime⟩] else s.power.rampReqs } } := by
  have hgo : ¬ (!(s.core c).ift.due || (s.core c).ift.running || (s.core c).running.isSome || !s.fastUp ||
      ((s.core c).span.isSome && !(s.core c).ift.forced)) = true := by
    rcases hs with hs | hs <;> simp [hd, hr, hn, hf, hs]
  have hcold : ([0, 1].any (fun b => (s.arr (arrayOf c (ix 2 b))).cold) && !s.power.rampReqs.any (fun r => r.core == c)) = true ↔
      ((s.arr (arrayOf c 0)).cold = true ∨ (s.arr (arrayOf c 1)).cold = true) ∧ ∀ r ∈ s.power.rampReqs, r.core ≠ c := by
    have h0 : ix 2 0 = 0 := rfl
    have h1 : ix 2 1 = 1 := rfl
    simp [h0, h1]
  unfold doIftRun
  dsimp only
  rw [if_neg hgo]
  by_cases h : ((s.arr (arrayOf c 0)).cold = true ∨ (s.arr (arrayOf c 1)).cold = true) ∧ ∀ r ∈ s.power.rampReqs, r.core ≠ c
  · rw [if_pos (hcold.2 h), if_pos h]
    rfl
  · rw [if_neg (mt hcold.1 h), if_neg h]
    rfl

/-- A test that is due claims every command boundary (13, R343). -/
theorem dispatchCore_of_testClaims (isOp : Cmd → Bool) (h : s.testClaims c = true) : s.dispatchCore c isOp = none :=
  if_pos (by simp [State.coreUp, h])

/-- Both arrays of a core have issued now. -/
def State.issued (s : State) (c : Fin 4) : State :=
  (s.modArr (arrayOf c 0) (fun t => { t with lastIssue := s.arrayTime })).modArr (arrayOf c 1)
    (fun t => { t with lastIssue := s.arrayTime })

/-- The state in which a test has ended with its failures. -/
def State.testEnded (s : State) (c : Fin 4) (fs : List IftFail) : State :=
  (fs.foldl (fun s f => s.iftFail c f) (s.issued c)).modIft c (fun t => { t with running := false, ran := 0 })

theorem doIftEnd_ends {fs : List IftFail} (hr : (s.core c).ift.running = true) (hq : ∀ r ∈ s.power.rampReqs, r.core ≠ c)
    (ha : 4200000 + 140000 * fs.length ≤ (s.core c).ift.ran) : doIftEnd c fs s =
      if s.permanents < (s.testEnded c fs).permanents then (s.testEnded c fs).failSpan c 0x060F else s.testEnded c fs := by
  have hany : s.power.rampReqs.any (fun r => r.core == c) = false := by simpa using hq
  unfold doIftEnd
  dsimp only
  refine (if_neg ?_).trans rfl
  rw [hr, hany]
  simp only [Bool.not_true, Bool.false_or, decide_eq_true_eq, Nat.not_lt]
  exact Nat.le_trans (Nat.add_le_add_left (Nat.mul_le_mul_left _ (List.length_filter_le _ fs)) _) ha

/-- A test that has ended does not run, and its count stays. -/
theorem testEnded_test (fs : List IftFail) : ((s.testEnded c fs).core c).ift.running = false ∧
    ((s.testEnded c fs).core c).ift.runs = (s.core c).ift.runs := by
  have h := keepsTests_foldl (fun s f => s.iftFail c f) fs (fun s f => keepsTests_iftFail s c f) (s.issued c)
  obtain ⟨-, hcore⟩ := onlyCore_modIft (fs.foldl (fun s f => s.iftFail c f) (s.issued c)) c
    (fun t => { t with running := false, ran := 0 })
  rw [State.testEnded, hcore]
  exact ⟨rfl, (h c).2⟩

end

/-- Settles O25: a test falls due, is forced, claims the boundary, runs and ends. -/
theorem inFieldTestsRunTheirCourse : Obligations.InFieldTestsRunTheirCourse := by
  intro s c k hk
  subst hk
  refine ⟨fun hu hr hm => ⟨_, (inH1_up _ _ hu).trans (congrArg _ (doIftDue_due hr hm)), onlyCore_modIft s c _⟩,
    fun hu => ⟨_, inH1_up _ _ hu, onlyCore_modIft s c _⟩,
    fun hu hd hr hw => ⟨_, (inH1_up _ _ hu).trans (congrArg _ (doIftForce_forces hd hr hw)), onlyCore_modIft s c _⟩,
    fun hu hd hr hn hf hs => ⟨_, (inDies_up _ _ hu).trans (congrArg _ (doIftRun_runs hd hr hn hf hs)), rfl, ?_, ?_, ?_, rfl⟩,
    fun hd hr hs isOp => dispatchCore_of_testClaims isOp ?_, fun hu hr hq ha => ?_, fun fs hu hr hq ha => ?_⟩
  · exact arr_both s c ArrayS.dropShadow
  · exact fun d hd => State.modCore_other _ c d _ hd
  · exact State.modCore_same _ c _
  · simp only [State.testClaims, hd, hr]
    rcases hs with hs | hs <;> simp [hs]
  · have hend : doIftEnd c [] s = s.testEnded c [] := (doIftEnd_ends (fs := []) hr hq ha).trans (if_neg (Nat.lt_irrefl _))
    exact ⟨_, (inDies_up _ _ hu).trans (congrArg _ hend), rfl, fun d hd => State.modCore_other _ c d _ hd, State.modCore_same _ c _,
      arr_both s c _⟩
  · refine ⟨_, (inDies_up _ _ hu).trans (congrArg _ (doIftEnd_ends hr hq ha)), ?_⟩
    obtain ⟨hrun, hruns⟩ := testEnded_test (s := s) (c := c) fs
    split
    · obtain ⟨h1, h2⟩ := keepsTests_failSpan (s.testEnded c fs) c 0x060F c
      exact ⟨h1.trans hrun, h2.trans hruns⟩
    · exact ⟨hrun, hruns⟩

end Sys2Proof.Machine
end

section
/-! PROOFS. Duties of rails and cap (18). -/

namespace Sys2Proof.Machine

open Sys2Proof

/-! ## Duties (18, R444 to R448) -/

/-! ### Rails and duties -/

theorem modRail_same (s : State) (r : Fin 17) (f : Rail → Rail) : (s.modRail r f).power.rails[r] = f s.power.rails[r] :=
  vmod_same _ _ _

theorem modRail_other (s : State) (r q : Fin 17) (f : Rail → Rail) (h : q ≠ r) :
    (s.modRail r f).power.rails[q] = s.power.rails[q] := vmod_other _ _ _ _ h

theorem modRail_modRail (s : State) (r : Fin 17) (f g : Rail → Rail) :
    (s.modRail r f).modRail r g = s.modRail r (fun k => g (f k)) := by
  simp [State.modRail, State.modPower, vmod]

theorem modRail_congr {s : State} {r : Fin 17} {f g : Rail → Rail} (h : f s.power.rails[r] = g s.power.rails[r]) :
    s.modRail r f = s.modRail r g := by
  simp only [State.modRail, State.modPower, vmod, h]

/-- What an array's duty depends on. -/
theorem arrayDuty_congr {s t : State} (hp : t.power.rails = s.power.rails) (hc : t.power.capDuty = s.power.capDuty)
    (hk : t.cores = s.cores) (a : Fin 8) : t.arrayDuty a = s.arrayDuty a := by
  simp only [State.arrayDuty, State.railDuty, State.core, hp, hc, hk]

theorem foldl_modArr_rest (l : List (Fin 8)) (f : Fin 8 → ArrayS → ArrayS) (s : State) :
    l.foldl (fun t a => t.modArr a (f a)) s = { s with arrays := (l.foldl (fun t a => t.modArr a (f a)) s).arrays } :=
  frame_foldl (R := fun s t => t = { s with arrays := t.arrays }) (fun _ => rfl) (fun {s t u} h k => by rw [h] at k; exact k)
    (fun t a => t.modArr a (f a)) l (fun _ _ _ => rfl) s

theorem foldl_modArr_arr (l : List (Fin 8)) (f : Fin 8 → ArrayS → ArrayS) (s : State) (hl : l.Nodup) (a : Fin 8) :
    (l.foldl (fun t a => t.modArr a (f a)) s).arr a = if a ∈ l then f a (s.arr a) else s.arr a := by
  induction l generalizing s with
  | nil => rfl
  | cons b l ih =>
    obtain ⟨hb, hl⟩ := List.nodup_cons.1 hl
    rw [List.foldl_cons, ih _ hl]
    by_cases hab : a = b
    · subst hab
      simp [hb]
    · simp [State.modArr_other s b a _ hab, hab]

theorem setDuties_rest (s : State) : s.setDuties = { s with
    arrays := s.setDuties.arrays
    power := { s.power with throttled := s.setDuties.power.throttled, short := s.setDuties.power.short } } := by
  unfold State.setDuties
  dsimp only
  rw [foldl_modArr_rest (List.finRange 8) (fun a k => { k with duty := s.arrayDuty a })]
  rfl

/-- After the duties are set every array has its duty in force. -/
theorem setDuties_duty (s : State) (a : Fin 8) : (s.setDuties.arr a).duty = s.setDuties.arrayDuty a := by
  have hrest : s.setDuties.arrayDuty a = s.arrayDuty a :=
    arrayDuty_congr (by rw [setDuties_rest]) (by rw [setDuties_rest]) (by rw [setDuties_rest]) a
  have harr : s.setDuties.arr a =
      ((List.finRange 8).foldl (fun t a => t.modArr a (fun k => { k with duty := s.arrayDuty a })) s).arr a := by
    unfold State.setDuties
    exact State.modPower_arr _ _ a
  rw [hrest, harr, foldl_modArr_arr _ (fun a k => { k with duty := s.arrayDuty a }) s (List.nodup_finRange 8),
    if_pos (List.mem_finRange a)]

/-! ### A window of a rail -/

/-- The duty of a throttled rail after a window. -/
def Rail.steppedDuty (k : Rail) (i lim : Nat) : Nat :=
  if lim < i then max 1 (k.duty - 4) else if 20 * i < 19 * lim ∧ 16 ≤ k.since + 1 then min 64 (k.duty + 1) else k.duty

theorem window_throttled (k : Rail) (i lim : Nat) : (k.window true i lim).2 = false ∧
    (k.window true i lim).1.duty = k.steppedDuty i lim := by
  unfold Rail.window Rail.steppedDuty
  by_cases h : lim < i
  · simp [h]
  · by_cases h' : 20 * i < 19 * lim ∧ 16 ≤ k.since + 1
    · simp [h, h']
    · simp only [h, h', decide_false, if_true, if_false, Bool.false_eq_true, and_self]

/-- What a window leaves of a rail. -/
theorem window_keeps (k : Rail) (b : Bool) (i lim : Nat) : (k.window b i lim).1 = { k with
    overLim := (k.window b i lim).1.overLim, duty := (k.window b i lim).1.duty, since := (k.window b i lim).1.since
    overRun := (k.window b i lim).1.overRun, lowRun := (k.window b i lim).1.lowRun, posted := (k.window b i lim).1.posted } := by
  unfold Rail.window
  dsimp only
  split
  · split
    · rfl
    · split <;> rfl
  · rfl

/-- An entry changes a context only. -/
theorem post_rest (s : State) (x : Fin 16) (e : Entry) : s.post x e = { s with hub := { s.hub with ctxs := (s.post x e).hub.ctxs } } := by
  rcases post_cases s x e with h | h <;> rw [h]
  rfl

theorem unitEvent_power (s : State) (reason unit : Nat) : (s.unitEvent reason unit).power = s.power := by
  unfold State.unitEvent State.event
  rw [post_rest]

/-- A rail after a window at a current. -/
def Rail.windowed (k : Rail) (r : Fin 17) (i lim : Nat) : Rail := (k.window (railThrottled r.val) i lim).1

theorem railWindow_power (s : State) (r : Fin 17) (i lim : Nat) :
    (s.railWindow r i lim).power = (s.modRail r (·.windowed r i lim)).power := by
  have heq : s.modRail r (fun _ => s.power.rails[r].windowed r i lim) = s.modRail r (·.windowed r i lim) := modRail_congr rfl
  unfold State.railWindow
  dsimp only
  split
  · exact (unitEvent_power _ _ _).trans (congrArg State.power heq)
  · exact congrArg State.power heq

/-- A fold that changes each rail on its own. -/
theorem foldl_rails {g : State → Fin 17 → State} {h : Fin 17 → Rail → Rail} (hg : ∀ t r, (g t r).power = (t.modRail r (h r)).power)
    (l : List (Fin 17)) (hl : l.Nodup) (s : State) :
    (l.foldl g s).power = { s.power with rails := (l.foldl g s).power.rails } ∧
      ∀ r, (l.foldl g s).power.rails[r] = if r ∈ l then h r s.power.rails[r] else s.power.rails[r] := by
  induction l generalizing s with
  | nil => exact ⟨rfl, fun _ => rfl⟩
  | cons b l ih =>
    obtain ⟨hb, hl⟩ := List.nodup_cons.1 hl
    obtain ⟨h1, h2⟩ := ih hl (g s b)
    have hp := hg s b
    refine ⟨?_, fun r => ?_⟩
    · rw [List.foldl_cons, h1, hp]; rfl
    · rw [List.foldl_cons, h2, hp]
      by_cases hr : r = b
      · subst hr
        rw [modRail_same]
        simp [hb]
      · rw [modRail_other s b r _ hr]
        simp [hr]

/-! ### The barometer -/

/-- A rail after a window of the barometer at an estimate. -/
def Rail.estimated (k : Rail) (r : Fin 17) (i : Nat) : Rail :=
  if k.measOnly then { k with estPrev := k.est, est := i }
  else ({ k with estPrev := k.est, est := i } : Rail).windowed r i (railLimit r.val)

/-- What a window of the barometer does with a rail. -/
def State.estimateRail (t : State) (r : Fin 17) (i : Nat) : State :=
  if t.power.rails[r].measOnly then t.modRail r (fun k => { k with estPrev := k.est, est := i })
  else (t.modRail r (fun k => { k with estPrev := k.est, est := i })).railWindow r i (railLimit r.val)

theorem estimateRail_power (t : State) (r : Fin 17) (i : Nat) :
    (t.estimateRail r i).power = (t.modRail r (·.estimated r i)).power := by
  unfold State.estimateRail
  split
  next h => exact congrArg State.power (modRail_congr (by simp only [Rail.estimated, h, if_true]))
  next h =>
    rw [railWindow_power, modRail_modRail]
    exact congrArg State.power (modRail_congr (by simp only [Rail.estimated, h, if_false, Bool.false_eq_true]))

theorem doBarometerWindow_eq {s : State} (counts : List (List Nat)) (hw : s.power.windows < 2) : doBarometerWindow counts s =
    (((List.finRange 17).foldl (fun t r => t.estimateRail r (s.estimate counts r)) s).modPower (fun p =>
      { p with windows := p.windows + 1 })).setDuties := by
  unfold doBarometerWindow
  exact if_neg (Nat.not_le.2 hw)

theorem doBarometerWindow_spec {s : State} (counts : List (List Nat)) (hw : s.power.windows < 2) :
    (doBarometerWindow counts s).power.windows = s.power.windows + 1 ∧
    (∀ r : Fin 17, (doBarometerWindow counts s).power.rails[r] = s.power.rails[r].estimated r (s.estimate counts r)) ∧
    ∀ a, ((doBarometerWindow counts s).arr a).duty = (doBarometerWindow counts s).arrayDuty a := by
  obtain ⟨h1, h2⟩ := foldl_rails (g := fun t r => t.estimateRail r (s.estimate counts r))
    (fun t r => estimateRail_power t r (s.estimate counts r)) (List.finRange 17) (List.nodup_finRange 17) s
  rw [doBarometerWindow_eq counts hw]
  generalize (List.finRange 17).foldl (fun t r => t.estimateRail r (s.estimate counts r)) s = u at h1 h2
  refine ⟨?_, fun r => ?_, setDuties_duty _⟩
  · rw [setDuties_rest]
    show u.power.windows + 1 = _
    rw [h1]
  · rw [setDuties_rest]
    exact (h2 r).trans (if_pos (List.mem_finRange r))

/-- The duty of the cap after a period (18, R448). -/
theorem stepCap_duty (p : Power) : p.stepCap.capDuty =
    if 1840000 * (3800 - 60) < p.draw then max 1 (p.capDuty - 8)
    else if 1840000 * (p.effCap - 60) < p.draw then max 1 (p.capDuty - 1)
    else if p.draw < 1840000 * (p.effCap - 32 - 60) ∧ 16 ≤ p.capSince + 1 then min 64 (p.capDuty + 1) else p.capDuty := by
  unfold Power.stepCap drawAbove drawBelow
  simp only [decide_eq_true_eq]
  split
  · rfl
  · split
    · rfl
    · split <;> rfl

/-- What is in force after a period of the barometer. -/
structure PeriodEnds (s t : State) : Prop where
  windows : t.power.windows = 0
  draw : t.power.draw = s.power.sumDraw
  effCap : t.power.effCap = min s.power.hostCap (min s.power.mgrCap s.power.bmcCap)
  capDuty : t.power.capDuty = ({ s.power with draw := s.power.sumDraw } : Power).stepCap.capDuty
  rails : t.power.rails = s.power.rails.map Rail.period

theorem foldl_power {α : Type} (f : State → α → State) (h : ∀ s a, (f s a).power = s.power) (l : List α) (s : State) :
    (l.foldl f s).power = s.power :=
  frame_foldl (R := fun s t => t.power = s.power) (fun _ => rfl) (fun h k => k.trans h) f l (fun s a _ => h s a) s

theorem event_state (s : State) (x y : Fin 16) (e : Entry) : ((s.post x e).ctx y).state = (s.ctx y).state := by
  rw [(written_post s x e).ctx y]

/-- The rails whose fit has passed return to estimation. -/
def State.restoreRails (s : State) (l : List (Fin 17)) : State := l.foldl (fun s r => s.unitEvent 0x0702 r.val) s

theorem restoreRails_power (s : State) (l : List (Fin 17)) : (s.restoreRails l).power = s.power :=
  foldl_power _ (fun s _ => unitEvent_power s _ _) l s

/-- The run of periods above the cap at the lowest duty. -/
def Power.nextCapRun (p : Power) : Nat := if drawAbove p.sumDraw p.effCap && p.capDuty == 1 then p.capRun + 1 else 0

/-- EVENT 0x0705 is due. -/
def Power.capDue (p : Power) : Bool :=
  decide (16 ≤ p.nextCapRun) && !(p.capPosted && !drawBelow p.sumDraw p.effCap)

/-- The state in which the power of the period is in force. -/
def State.periodSet (s : State) : State :=
  ((List.finRange 8).foldl State.countThrottle s).modPower (fun q => { q with
    rails := s.power.rails.map Rail.period, draw := s.power.sumDraw
    capDuty := ({ s.power with draw := s.power.sumDraw } : Power).stepCap.capDuty
    capSince := ({ s.power with draw := s.power.sumDraw } : Power).stepCap.capSince, capRun := s.power.nextCapRun
    capPosted := s.power.capPosted && !drawBelow s.power.sumDraw s.power.effCap || s.power.capDue
    windows := 0, throttled := false, short := false, periods := s.power.periods + 1
    shortPeriods := s.power.shortPeriods + b2n s.power.short, peak := satAdd s.power.peak (b2n (drawAbove s.power.sumDraw 3800))
    effCap := min s.power.hostCap (min s.power.mgrCap s.power.bmcCap) })

/-- The state in which the event of the cap has been posted too. -/
def State.periodPosted (s : State) : State := if s.power.capDue then s.periodSet.event 0 0x0705 [] else s.periodSet

theorem periodSet_hub (s : State) : s.periodSet.hub = s.hub :=
  frame_foldl (R := fun s t => t.hub = s.hub) (fun _ => rfl) (fun h k => k.trans h) State.countThrottle (List.finRange 8)
    (fun _ _ _ => rfl) s

theorem periodPosted_ends (s : State) : PeriodEnds s s.periodPosted ∧ (s.periodPosted.ctx 0).state = (s.ctx 0).state := by
  have hset : PeriodEnds s s.periodSet := ⟨rfl, rfl, rfl, rfl, rfl⟩
  have hstate : (s.periodSet.ctx 0).state = (s.ctx 0).state :=
    congrArg (fun h : Hub => (h.ctxs[(0 : Fin 16)]).state) (periodSet_hub s)
  unfold State.periodPosted
  split
  · refine ⟨?_, (event_state _ _ _ _).trans hstate⟩
    rw [State.event, post_rest]
    exact ⟨hset.windows, hset.draw, hset.effCap, hset.capDuty, hset.rails⟩
  · exact ⟨hset, hstate⟩

theorem doBarometerPeriod_eq {s : State} (hw : 2 ≤ s.power.windows) : doBarometerPeriod s =
    (s.periodPosted.restoreRails ((List.finRange 17).filter (fun r => s.power.rails[r].restore))).setDuties := by
  unfold doBarometerPeriod
  exact if_neg (Nat.not_lt.2 hw)

theorem doBarometerPeriod_ends {s : State} (hw : 2 ≤ s.power.windows) : PeriodEnds s (doBarometerPeriod s) ∧
    ∀ a, ((doBarometerPeriod s).arr a).duty = (doBarometerPeriod s).arrayDuty a := by
  obtain ⟨hu, -⟩ := periodPosted_ends s
  have hp := restoreRails_power s.periodPosted ((List.finRange 17).filter (fun r => s.power.rails[r].restore))
  rw [doBarometerPeriod_eq hw]
  refine ⟨?_, setDuties_duty _⟩
  rw [setDuties_rest]
  generalize s.periodPosted.restoreRails _ = v at hp
  exact ⟨by rw [hp]; exact hu.windows, by rw [hp]; exact hu.draw, by rw [hp]; exact hu.effCap, by rw [hp]; exact hu.capDuty,
    by rw [hp]; exact hu.rails⟩

/-- Settles O26: the duties after a window, and the cap duty after a period. -/
theorem dutiesFollowCurrentAndPower : Obligations.DutiesFollowCurrentAndPower := by
  refine ⟨fun s counts r est he hu hw hr hm => ⟨_, inH1_up _ _ hu, ?_⟩, fun s hu hw => ⟨_, inH1_up _ _ hu, ?_⟩⟩
  · obtain ⟨h1, h2, h3⟩ := doBarometerWindow_spec counts hw
    have hk : (doBarometerWindow counts s).power.rails[r] =
        ({ s.power.rails[r] with estPrev := s.power.rails[r].est, est := est } : Rail).windowed r est (railLimit r.val) := by
      rw [h2, he]
      exact if_neg (by rw [hm]; decide)
    have hthr : railThrottled r.val = true := decide_eq_true hr
    refine ⟨h1, ?_, ?_, ?_, h3⟩
    · rw [hk, Rail.windowed, window_keeps]
    · rw [hk, Rail.windowed, window_keeps]
    · rw [hk, Rail.windowed, hthr, (window_throttled _ _ _).2]
      rfl
  · obtain ⟨h, hd⟩ := doBarometerPeriod_ends hw
    exact ⟨h.windows, h.draw, h.effCap, h.capDuty.trans (stepCap_duty _), hd⟩

end Sys2Proof.Machine
end

section
/-! PROOFS. Estimate and measurement of a rail (18). -/

namespace Sys2Proof.Machine

open Sys2Proof

/-! ## Estimate and measurement of a rail (18, R449, R453) -/

/-- An event of context 0 with its unit, and nothing else. -/
theorem onlyPost_unitEvent (s : State) (reason unit : Nat) : OnlyPost 0 reason unit s (s.unitEvent reason unit) := by
  have hother (y : Fin 16) (hy : y ≠ 0) : (s.unitEvent reason unit).ctx y = s.ctx y := by
    unfold State.unitEvent State.event
    rcases post_cases s 0 { Entry.blank 4 reason with detail := detail [(0, 4, unit)] } with h | h <;> rw [h]
    exact State.modCtx_other s 0 y _ hy
  refine ⟨⟨post_rest s 0 _, hother⟩, fun ha => ?_, fun hk => ?_⟩
  · simp [State.unitEvent, State.event, State.post, ha]
  · rcases hk with hk | hk <;> simp [State.unitEvent, State.event, State.post, hk]

theorem modRail_rails (s : State) (r : Fin 17) (f : Rail → Rail) : (s.modRail r f).power.rails = vmod s.power.rails r f := rfl

theorem vmod_vmod {α : Type} {n : Nat} (v : Vector α n) (i : Fin n) (f g : α → α) :
    vmod (vmod v i f) i g = vmod v i (fun k => g (f k)) := by simp [vmod]

theorem setDuties_ctx (s : State) (x : Fin 16) : s.setDuties.ctx x = s.ctx x := by
  have h : s.setDuties.hub = s.hub := by rw [setDuties_rest]
  rw [State.ctx, h]
  rfl

theorem setDuties_rails (s : State) : s.setDuties.power.rails = s.power.rails := by rw [setDuties_rest]

/-! ### A measurement -/

/-- How far a measurement is from the estimate. -/
def Rail.drift (k : Rail) (i : Nat) : Nat := if k.est ≤ i then i - k.est else k.est - i

/-- A rail that has been measured. -/
def Rail.measured (k : Rail) (i : Nat) : Rail := { k with measPrev := k.meas, meas := i }

section
variable {s : State} {r : Fin 17} {i : Nat}

/-- A measurement of a rail that is estimated: it lengthens or ends the run of drifting windows, and the 500th makes the rail measured
only. -/
theorem doRailMeasurement_estimated (hm : s.power.rails[r].measOnly = false) : doRailMeasurement r i s =
    if 500 ≤ (if 3 * railLimit r.val < 25 * s.power.rails[r].drift i then s.power.rails[r].driftRun + 1 else 0) then
      (s.modRail r (fun k => { k.measured i with
        driftRun := 0, drifts := satAdd k.drifts 1, measOnly := true, fitNo := 1, fitWin := 0, restore := false })).unitEvent 0x0701 r.val
    else s.modRail r (fun k => { k.measured i with
      driftRun := if 3 * railLimit r.val < 25 * s.power.rails[r].drift i then s.power.rails[r].driftRun + 1 else 0 }) := by
  have hk : (s.modRail r (fun k => { k with measPrev := k.meas, meas := i })).power.rails[r] = s.power.rails[r].measured i :=
    modRail_same s r _
  have hm' : (s.power.rails[r].measured i).measOnly = false := hm
  unfold doRailMeasurement
  dsimp only
  rw [hk, if_neg (by rw [hm']; exact Bool.false_ne_true), modRail_modRail, modRail_modRail]
  rfl

theorem doRailMeasurement_near (hm : s.power.rails[r].measOnly = false) (hd : 25 * s.power.rails[r].drift i ≤ 3 * railLimit r.val) :
    doRailMeasurement r i s = s.modRail r (fun k => { k.measured i with driftRun := 0 }) := by
  rw [doRailMeasurement_estimated hm, if_neg (Nat.not_lt.2 hd), if_neg (by decide)]

theorem doRailMeasurement_drifts (hm : s.power.rails[r].measOnly = false) (hd : 3 * railLimit r.val < 25 * s.power.rails[r].drift i)
    (hr : s.power.rails[r].driftRun + 1 < 500) :
    doRailMeasurement r i s = s.modRail r (fun k => { k.measured i with driftRun := k.driftRun + 1 }) := by
  rw [doRailMeasurement_estimated hm, if_pos hd, if_neg (Nat.not_le.2 hr)]
  exact modRail_congr rfl

theorem doRailMeasurement_limit (hm : s.power.rails[r].measOnly = false) (hd : 3 * railLimit r.val < 25 * s.power.rails[r].drift i)
    (hr : 500 ≤ s.power.rails[r].driftRun + 1) : doRailMeasurement r i s = (s.modRail r (fun k => { k.measured i with
      driftRun := 0, drifts := satAdd k.drifts 1, measOnly := true, fitNo := 1, fitWin := 0, restore := false })).unitEvent 0x0701 r.val := by
  rw [doRailMeasurement_estimated hm, if_pos hd, if_pos hr]

theorem doRailMeasurement_measured (hm : s.power.rails[r].measOnly = true) : doRailMeasurement r i s =
    (((s.modRail r (·.measured i)).railWindow r i (92 * railLimit r.val / 100)).modRail r (fun k => { k with fitWin := k.fitWin + 1 })).setDuties := by
  have hk : (s.modRail r (·.measured i)).power.rails[r].measOnly = true := by rw [modRail_same]; exact hm
  unfold doRailMeasurement
  exact if_pos hk

theorem doRailMeasurement_power (hm : s.power.rails[r].measOnly = true) : (doRailMeasurement r i s).power.rails =
    (s.modRail r (fun k => { (k.measured i).windowed r i (92 * railLimit r.val / 100) with
      fitWin := ((k.measured i).windowed r i (92 * railLimit r.val / 100)).fitWin + 1 })).power.rails := by
  rw [doRailMeasurement_measured hm, setDuties_rails, modRail_rails, railWindow_power, modRail_rails, modRail_rails, vmod_vmod,
    vmod_vmod, modRail_rails]

end

/-! ### A fit -/

section
variable {s : State} {r : Fin 17} {w : Nat}

theorem doRecalibrationFit_runs (hm : s.power.rails[r].measOnly = true) (hf : s.power.rails[r].fixed = false)
    (hr : s.power.rails[r].restore = false) (hw : 4096 ≤ s.power.rails[r].fitWin) : doRecalibrationFit r w s =
      if fitPasses r.val w then s.modRail r (fun k => { k with restore := true, calib := s.pilot + 1 })
      else if 3 ≤ s.power.rails[r].fitNo then (s.modRail r (fun k => { k with fixed := true })).unitEvent 0x0703 r.val
      else s.modRail r (fun k => { k with fitNo := k.fitNo + 1, fitWin := 0 }) := by
  unfold doRecalibrationFit
  dsimp only
  rw [if_neg (by rw [hm, hf, hr]; simpa using hw)]

theorem doRecalibrationFit_waits (h : s.power.rails[r].measOnly = false ∨ s.power.rails[r].fitWin < 4096) :
    doRecalibrationFit r w s = s := by
  unfold doRecalibrationFit
  refine if_pos ?_
  rcases h with h | h
  · rw [h]; rfl
  · rw [decide_eq_true h]; simp

/-- The entry of a rail that returns to estimation is formed. -/
theorem restoreRails_posts {r : Fin 17} (l : List (Fin 17)) (s : State) (ha : (s.ctx 0).state = .active) (hr : r ∈ l) :
    { Entry.blank 4 0x0702 with detail := detail [(0, 4, r.val)] } ∈ ((s.restoreRails l).ctx 0).formed := by
  have hkeep : ∀ (l : List (Fin 17)) (s : State), Written s (s.restoreRails l) := fun l s =>
    written_foldl _ l (fun s _ => written_post s _ _) s
  induction l generalizing s with
  | nil => cases hr
  | cons q l ih =>
    have hq : (s.unitEvent 0x0702 q.val).ctx 0 = { s.ctx 0 with
        formed := (s.ctx 0).formed ++ [{ Entry.blank 4 0x0702 with detail := detail [(0, 4, q.val)] }] } :=
      (onlyPost_unitEvent s 0x0702 q.val).2.1 ha
    rcases List.mem_cons.1 hr with rfl | hr
    · refine ((hkeep l (s.unitEvent 0x0702 r.val)).formed 0).subset ?_
      rw [hq]
      exact List.mem_append_right _ List.mem_cons_self
    · refine ih (s.unitEvent 0x0702 q.val) ?_ hr
      rw [hq]
      exact ha

end

/-- A rail that only an event follows. -/
theorem onlyPost_modRail (s : State) (r : Fin 17) (f : Rail → Rail) (reason : Nat) :
    ((s.modRail r f).unitEvent reason r.val).power = (s.modRail r f).power ∧
      OnlyPost 0 reason r.val { s with power := ((s.modRail r f).unitEvent reason r.val).power } ((s.modRail r f).unitEvent reason r.val) := by
  have hp := unitEvent_power (s.modRail r f) reason r.val
  refine ⟨hp, ?_⟩
  rw [hp]
  exact onlyPost_unitEvent (s.modRail r f) reason r.val

/-- Settles O27: drift, measured windows, fits and the return to estimation. -/
theorem driftAndRecalibration : Obligations.DriftAndRecalibration := by
  rintro s r k hu rfl
  have run {f : State → State} {t : State} (h : f s = t) : inH1 f s = .next t := (inH1_up _ _ hu).trans (congrArg _ h)
  refine ⟨?_, fun i hm => ?_, fun w hm hf hr hw => ⟨fun hp => ?_, fun hp hn => ?_, fun hp hn => ?_⟩, fun w h => ?_, fun hr hw ha => ?_⟩
  · rintro i d rfl hm
    refine ⟨fun hd => run (f := doRailMeasurement r i) (doRailMeasurement_near hm hd),
      fun hd hn => run (f := doRailMeasurement r i) (doRailMeasurement_drifts hm hd hn), fun hd hn => ?_⟩
    obtain ⟨hp, ho⟩ := onlyPost_modRail s r (fun k => { k.measured i with
      driftRun := 0, drifts := satAdd k.drifts 1, measOnly := true, fitNo := 1, fitWin := 0, restore := false }) 0x0701
    refine ⟨_, run (f := doRailMeasurement r i) (doRailMeasurement_limit hm hd hn), ?_, fun q hq => ?_, ho⟩
    · rw [hp, modRail_same]; rfl
    · rw [hp, modRail_other _ _ _ _ hq]
  · have hrails := doRailMeasurement_power (i := i) hm
    have hkeep := window_keeps (s.power.rails[r].measured i) (railThrottled r.val) i (92 * railLimit r.val / 100)
    have hr : (doRailMeasurement r i s).power.rails[r] = { (s.power.rails[r].measured i).windowed r i (92 * railLimit r.val / 100) with
        fitWin := ((s.power.rails[r].measured i).windowed r i (92 * railLimit r.val / 100)).fitWin + 1 } := by
      rw [hrails, modRail_same]
    refine ⟨_, run (f := doRailMeasurement r i) rfl, ?_, ?_, ?_, ?_, fun hle => ?_, fun q hq => ?_, fun a => ?_⟩
    · rw [hr, Rail.windowed, hkeep]; rfl
    · rw [hr, Rail.windowed, hkeep]; rfl
    · rw [hr, Rail.windowed, hkeep]; exact hm
    · rw [hr, Rail.windowed, hkeep]; rfl
    · have ht : railThrottled r.val = true := by simpa [railThrottled] using hle
      rw [hr]
      dsimp only
      rw [Rail.windowed, ht, (window_throttled _ _ _).2]
      rfl
    · rw [hrails, modRail_other _ _ _ _ hq]
    · rw [doRailMeasurement_measured hm]
      exact setDuties_duty _ a
  · refine run (f := doRecalibrationFit r w) ((doRecalibrationFit_runs hm hf hr hw).trans (if_pos ?_))
    simpa [fitPasses] using hp
  · refine run (f := doRecalibrationFit r w) ((doRecalibrationFit_runs hm hf hr hw).trans ((if_neg ?_).trans (if_neg (Nat.not_le.2 hn))))
    simpa [fitPasses] using hp
  · obtain ⟨hpow, ho⟩ := onlyPost_modRail s r (fun k => { k with fixed := true }) 0x0703
    refine ⟨_, run (f := doRecalibrationFit r w) ((doRecalibrationFit_runs hm hf hr hw).trans ((if_neg ?_).trans (if_pos hn))), hpow, ho⟩
    simpa [fitPasses] using hp
  · exact run (f := doRecalibrationFit r w) (doRecalibrationFit_waits h)
  · obtain ⟨hends, -⟩ := doBarometerPeriod_ends hw
    obtain ⟨-, hstate⟩ := periodPosted_ends s
    have hrail : (doBarometerPeriod s).power.rails[r] = s.power.rails[r].period := by rw [hends.rails]; simp
    refine ⟨_, run (f := doBarometerPeriod) rfl, ?_, ?_, ?_⟩
    · rw [hrail, Rail.period, hr]; simp
    · rw [hrail]; rfl
    · rw [doBarometerPeriod_eq hw, setDuties_ctx]
      exact restoreRails_posts _ _ (hstate.trans ha) (List.mem_filter.2 ⟨List.mem_finRange r, hr⟩)

end Sys2Proof.Machine
end

section
/-! PROOFS. Fatal faults, temperatures and trips (17, 18). -/

namespace Sys2Proof.Machine

open Sys2Proof

/-! ## Faults that hardware records at once (17, R425, R430) -/

/-- Only what commands at work may touch differs, with the fault state, the frames and the in-band interrupts. -/
def OnlyFaults (s t : State) : Prop :=
  OnlyWork { s with fabric := t.fabric, faults := t.faults, board := { s.board with i3cIbis := t.board.i3cIbis } } t

theorem OnlyFaults.refl (s : State) : OnlyFaults s s := OnlyWork.refl s

theorem OnlyFaults.trans {s t u : State} (h : OnlyFaults s t) (k : OnlyFaults t u) : OnlyFaults s u := by
  have hb : { t.board with i3cIbis := u.board.i3cIbis } = ({ s.board with i3cIbis := u.board.i3cIbis } : Board) := by
    unfold OnlyFaults OnlyWork at h
    rw [h]
  refine OnlyWork.trans (t := { t with fabric := u.fabric, faults := u.faults, board := { t.board with i3cIbis := u.board.i3cIbis } }) ?_ k
  rw [hb]
  unfold OnlyFaults OnlyWork at *
  rw [h]

theorem OnlyStops.faults {s t : State} (h : OnlyStops s t) : OnlyFaults s t := by
  have hb : t.board = s.board := by
    unfold OnlyStops OnlyWork at h
    rw [h]
  unfold OnlyFaults
  rw [hb]
  unfold OnlyStops OnlyWork at *
  rw [h]

theorem OnlyFaults.power {s t : State} (h : OnlyFaults s t) : t.power = { s.power with rampReqs := t.power.rampReqs } := by
  unfold OnlyFaults OnlyWork at h
  rw [h]

theorem onlyFaults_modFaults (s : State) (f : Faults → Faults) : OnlyFaults s (s.modFaults f) := rfl

theorem onlyFaults_modRing (s : State) (rseq : W32) (g : RingEntry → RingEntry) : OnlyFaults s (s.modRing rseq g) := rfl

theorem onlyFaults_nonMaskable (s : State) : OnlyFaults s s.nonMaskable := by
  unfold State.nonMaskable State.event
  have h := onlyWork_post { s with board := { s.board with i3cIbis := s.board.i3cIbis + 1 } } 0
    { Entry.blank 4 0x0611 with detail := detail [(0, 4, s.faults.causes)] }
  generalize State.post _ _ _ = t at h ⊢
  unfold OnlyFaults OnlyWork at *
  rw [h]

theorem OnlyFabric.stops {s t : State} (h : OnlyFabric s t) : OnlyStops s t := by
  have he : { s with fabric := t.fabric } = t := h.symm
  rw [OnlyStops, he]
  exact OnlyWork.refl t

theorem onlyStops_sendLast (s : State) (dst msg epoch : Nat) (body : List Byte) : OnlyStops s (s.sendLast dst msg epoch body) := by
  unfold State.sendLast
  split
  · exact OnlyStops.refl s
  · dsimp only
    split
    · exact OnlyStops.refl s
    next h => exact (onlyFabric_transmit h).stops

theorem onlyFaults_enterFatal (s : State) (reason : Nat) (rseq : W32) : OnlyFaults s (s.enterFatal reason rseq) := by
  unfold State.enterFatal
  split
  · exact OnlyFaults.refl s
  · exact ((onlyFaults_modFaults s _).trans (onlyStops_foldl _ _ (fun s x => onlyStops_kill s x reason rseq) _).faults).trans
      (onlyFaults_nonMaskable _)

theorem nonMaskable_faults (s : State) : s.nonMaskable.faults = s.faults := by
  unfold State.nonMaskable State.event
  rw [post_rest]

theorem enterFatal_fatal (s : State) (reason : Nat) (rseq : W32) : (s.enterFatal reason rseq).faults.fatal = true := by
  unfold State.enterFatal
  split
  next h => exact h
  · have h := onlyStops_foldl (fun (s : State) (x : Fin 16) => s.kill x reason rseq) (List.finRange 16)
      (fun s x => onlyStops_kill s x reason rseq) (s.modFaults (fun t => { t.setCause 1 s.pilot with fatal := true }))
    rw [nonMaskable_faults]
    unfold OnlyStops OnlyWork at h
    rw [h]
    rfl

theorem onlyFaults_fatalNow (s : State) (e : RingEntry) : OnlyFaults s (s.fatalNow e) := by
  unfold State.fatalNow
  split
  · exact OnlyFaults.refl s
  · refine OnlyFaults.trans ?_ (onlyFaults_enterFatal _ _ _)
    split
    · split
      · exact (onlyStops_sendLast s _ _ _ _).faults.trans (onlyFaults_modRing _ _ _)
      · exact OnlyFaults.refl s
    · exact OnlyFaults.refl s

theorem fatalNow_fatal (s : State) (e : RingEntry) : (s.fatalNow e).faults.fatal = true := by
  unfold State.fatalNow
  split
  next h => exact h
  · exact enterFatal_fatal _ _ _

theorem onlyFaults_loseFault (s : State) (f : FaultRec) : OnlyFaults s (s.loseFault f) := by
  unfold State.loseFault
  dsimp only
  have h : ∀ (b : Bool) (u : State), OnlyFaults s u → OnlyFaults s (if b then u.nonMaskable else u) := by
    intro b u hu
    cases b
    · exact hu
    · exact hu.trans (onlyFaults_nonMaskable u)
  split
  · exact (h _ _ (onlyFaults_modFaults s _)).trans (onlyFaults_fatalNow _ _)
  · exact h _ _ (onlyFaults_modFaults s _)

theorem onlyFaults_recordFault (s : State) (f : FaultRec) : OnlyFaults s (s.recordFault f) := by
  unfold State.recordFault
  dsimp only
  refine OnlyFaults.trans (onlyFaults_modFaults s (fun t => { t with counts := vmod t.counts (ix 4 f.severity) (fun n => satAdd n 1) })) ?_
  have enter (u : State) (b : Bool) (g : Faults → Faults) (e : RingEntry) : OnlyFaults u (if b then u.loseFault f
      else if f.severity = 3 then (u.modFaults g).fatalNow e else u.modFaults g) := by
    split
    · exact onlyFaults_loseFault u f
    · split
      · exact (onlyFaults_modFaults u g).trans (onlyFaults_fatalNow _ e)
      · exact onlyFaults_modFaults u g
  split
  · exact onlyFaults_modRing _ _ _
  · exact enter _ _ _ _

/-- A fatal fault that finds the ring empty makes the module fatal. -/
theorem recordFault_fatal {s : State} {f : FaultRec} (hr : s.faults.ring = []) (hf : f.severity = 3) :
    (s.recordFault f).faults.fatal = true := by
  unfold State.recordFault
  simp only [State.modFaults, hr, List.find?_nil, alookup, Bool.false_eq_true, if_false, if_pos hf]
  exact fatalNow_fatal _ _

/-! ## Temperatures (18, R457, R458) -/

theorem foldl_max_lt {l : List Nat} {n b : Nat} (h : ∀ v ∈ l, v < n) (hb : b < n) : l.foldl max b < n := by
  induction l generalizing b with
  | nil => exact hb
  | cons v l ih =>
    exact ih (fun w hw => h w (List.mem_cons_of_mem _ hw)) (max_lt hb (h v List.mem_cons_self))

theorem throttlePoint_le_tripPoint (d : Nat) : throttlePoint d ≤ tripPoint d := by
  unfold throttlePoint tripPoint
  split <;> omega

/-- A reading below the throttle point of a die that is neither hot nor near its trip point is kept, and nothing else. -/
theorem doTemperatureRead_keeps {s : State} {d : Fin 32} {ts : List Nat} (hts : ∀ v ∈ ts, v < throttlePoint d.val)
    (hat : ∀ i ∈ s.power.atTrip, i / 4 ≠ d.val) (hhot : d.val ∉ s.power.hot) :
    doTemperatureRead d ts s = s.modPower (fun p => { p with temps := p.temps.set d (ts.foldl max 0) }) := by
  have hpos : 0 < throttlePoint d.val := by
    unfold throttlePoint
    split <;> decide
  have hnow : ts.zipIdx.filter (fun t => decide (tripPoint d.val ≤ t.1)) = [] := by
    refine List.filter_eq_nil_iff.2 (fun t ht => ?_)
    have hlt := hts t.1 (List.fst_mem_of_mem_zipIdx ht)
    have hle := throttlePoint_le_tripPoint d.val
    simp only [decide_eq_true_eq]
    omega
  have hbefore : s.power.atTrip.filter (fun i => i / 4 == d.val) = [] :=
    List.filter_eq_nil_iff.2 (fun i hi => by simpa using hat i hi)
  have hafter : s.power.atTrip.filter (fun i => i / 4 != d.val) = s.power.atTrip :=
    List.filter_eq_self.2 (fun i hi => by simpa using hat i hi)
  have hcool : (decide (24 ≤ d.val) && decide (throttlePoint d.val ≤ ts.foldl max 0)) = false := by
    rw [decide_eq_false (Nat.not_le.2 (foldl_max_lt hts hpos)), Bool.and_false]
  have herase : setErase d.val s.power.hot = s.power.hot :=
    List.filter_eq_self.2 (fun i hi => bne_iff_ne.2 (fun h => hhot (h ▸ hi)))
  unfold doTemperatureRead
  dsimp only
  rw [hnow, hbefore, hcool, List.map_nil]
  simp only [State.modPower, hafter, herase, List.append_nil, List.any_nil, Bool.false_eq_true, if_false, Bool.false_and]

/-! ### The thermal duty -/

/-- The thermal duty of a core after a step. -/
def State.steppedThermal (s : State) (c : Fin 4) : Nat :=
  if ∃ d ∈ coreDies c, throttlePoint d ≤ s.power.temps[ix 32 d] then max 1 ((s.core c).thermalDuty - 4)
  else if ∀ d ∈ coreDies c, s.power.temps[ix 32 d] < throttlePoint d - 12 then min 64 ((s.core c).thermalDuty + 1)
  else (s.core c).thermalDuty

/-- One core has stepped: its duty, and no other core and no temperature. -/
structure StepsThermal (c : Fin 4) (s t : State) : Prop where
  own : (t.core c).thermalDuty = s.steppedThermal c
  others : ∀ d, d ≠ c → t.core d = s.core d
  temps : t.power.temps = s.power.temps

theorem stepsThermal_thermalStep (s : State) (c : Fin 4) : StepsThermal c s (s.thermalStep c) := by
  have hany : ((coreDies c).any (fun d => decide (throttlePoint d ≤ s.power.temps[ix 32 d]))) = true ↔
      ∃ d ∈ coreDies c, throttlePoint d ≤ s.power.temps[ix 32 d] := by
    simp only [List.any_eq_true, decide_eq_true_eq]
  have hall : ((coreDies c).all (fun d => decide (s.power.temps[ix 32 d] < throttlePoint d - 12))) = true ↔
      ∀ d ∈ coreDies c, s.power.temps[ix 32 d] < throttlePoint d - 12 := by
    simp only [List.all_eq_true, decide_eq_true_eq]
  unfold State.thermalStep
  dsimp only
  by_cases h : ∃ d ∈ coreDies c, throttlePoint d ≤ s.power.temps[ix 32 d]
  · rw [if_pos (hany.2 h)]
    have hset : StepsThermal c s (s.modCore c (fun k => { k with thermalDuty := max 1 (k.thermalDuty - 4) })) :=
      ⟨by rw [State.modCore_same, State.steppedThermal, if_pos h], fun d hd => State.modCore_other s c d _ hd, rfl⟩
    split
    · unfold State.unitEvent State.event
      rw [post_rest]
      exact ⟨hset.own, hset.others, hset.temps⟩
    · exact hset
  · rw [if_neg (mt hany.1 h)]
    by_cases h' : ∀ d ∈ coreDies c, s.power.temps[ix 32 d] < throttlePoint d - 12
    · rw [if_pos (hall.2 h')]
      exact ⟨by rw [State.modCore_same, State.steppedThermal, if_neg h, if_pos h'], fun d hd => State.modCore_other s c d _ hd, rfl⟩
    · rw [if_neg (mt hall.1 h')]
      exact ⟨by rw [State.steppedThermal, if_neg h, if_neg h'], fun _ _ => rfl, rfl⟩

theorem foldl_thermalStep (l : List (Fin 4)) (hl : l.Nodup) (s : State) (c : Fin 4) :
    ((l.foldl State.thermalStep s).core c).thermalDuty = if c ∈ l then s.steppedThermal c else (s.core c).thermalDuty := by
  induction l generalizing s with
  | nil => rfl
  | cons b l ih =>
    obtain ⟨hb, hl⟩ := List.nodup_cons.1 hl
    obtain ⟨h1, h2, h3⟩ := stepsThermal_thermalStep s b
    rw [List.foldl_cons, ih hl]
    by_cases hc : c = b
    · subst hc
      simp [hb, h1]
    · simp only [State.steppedThermal, h2 c hc, h3, List.mem_cons, hc, false_or]

theorem setDuties_core (s : State) (c : Fin 4) : s.setDuties.core c = s.core c := by
  have h := congrArg State.cores (setDuties_rest s)
  dsimp only at h
  simp only [State.core, h]

/-! ### The trip -/

theorem trip_spec {s : State} (n : Nat) (h : s.power.thermtrip = false) : (s.trip n).power.thermtrip = true ∧
    (s.trip n).board.railsOn = false ∧ (s.trip n).board.pwrGood = false ∧
    (s.faults.ring = [] → (s.trip n).faults.fatal = true) := by
  unfold State.trip
  rw [if_neg (by rw [h]; decide)]
  dsimp only
  refine ⟨?_, rfl, rfl, fun hr => recordFault_fatal hr rfl⟩
  rw [(onlyFaults_recordFault _ _).power]
  rfl

/-- Settles O28: a reading, a step of the thermal duties, and a trip. -/
theorem temperaturesThrottleAndTrip : Obligations.TemperaturesThrottleAndTrip := by
  refine ⟨fun s d ts hu hts hat hhot => ⟨_, (inH1_up _ _ hu).trans (congrArg _ (doTemperatureRead_keeps hts hat hhot)), rfl, ?_, ?_⟩,
    fun s c hu => ⟨_, inH1_up _ _ hu, ?_, setDuties_duty _⟩, fun s d hu hd ht => ⟨_, inH1_up _ _ hu, ?_⟩⟩
  · exact Vector.getElem_set_self d.isLt
  · exact fun e he => Vector.getElem_set_ne d.isLt e.isLt (fun h => he (Fin.ext h.symm))
  · rw [doThermalDutyUpdate, setDuties_core, foldl_thermalStep _ (List.nodup_finRange 4), if_pos (List.mem_finRange c)]
    rfl
  · rw [show doThermalTrip d s = s.trip d.val from if_neg hd]
    obtain ⟨h1, h2, h3, h4⟩ := trip_spec d.val ht
    exact ⟨h1, h2, h3, fun _ hr => h4 hr⟩

end Sys2Proof.Machine
end

section
/-! PROOFS. Ramps, hints and clock domains (18). -/

namespace Sys2Proof.Machine

open Sys2Proof

/-! ## Ramps and hints (18, R451, R452) -/

section
variable {s : State}

/-- The state in which a ramp is granted. -/
def State.granted (s : State) (r : RampReq) : State :=
  (((s.modPower (fun p => { p with
    rampReqs := p.rampReqs.filter (fun q => q.core != r.core), lastRamp := some s.arrayTime })).modArr (arrayOf r.core 0)
      (fun t => { t with cold := false, lastIssue := s.arrayTime })).modArr (arrayOf r.core 1)
      (fun t => { t with cold := false, lastIssue := s.arrayTime })).modCore r.core (fun k => { k with
        staggerWait := satAdd k.staggerWait (s.arrayTime - r.at') })

theorem doRampGrant_grants {r : RampReq} (hr : s.nextRamp = some r) (ha : r.at' ≤ s.arrayTime)
    (hg : ∀ g, s.power.lastRamp = some g → 64 ≤ s.arrayTime - g) : doRampGrant s = s.granted r := by
  unfold doRampGrant
  rw [hr]
  cases hl : s.power.lastRamp with
  | none => exact if_neg (by simp [Nat.not_lt.2 ha])
  | some g => exact if_neg (by simp [Nat.not_lt.2 ha, hg g hl])

theorem doHintExpire_ends {x : Fin 16} {c : Fin 4} {h : Hint} {e : Nat} (hh : (s.cc x c).hint = some h) (he : h.expires = some e)
    (hp : e ≤ s.pilot) : doHintExpire x c s = s.modCC x c (fun k => { k with hint := none }) := by
  simp only [doHintExpire, hh, he, if_pos hp]

end

/-- Settles O29: a grant, and the end of a hint. -/
theorem rampsAreGrantedAndHintsEnd : Obligations.RampsAreGrantedAndHintsEnd := by
  refine ⟨fun s r hu hr ha hg => ⟨_, (inH1_up _ _ hu).trans (congrArg _ (doRampGrant_grants hr ha hg)), rfl, ?_, ?_, ?_⟩,
    fun s x c h e hu hh he hp => (inH1_up _ _ hu).trans (congrArg _ (doHintExpire_ends hh he hp))⟩
  · exact arr_both (s.modPower _) r.core (fun t => { t with cold := false, lastIssue := s.arrayTime })
  · exact fun d hd => State.modCore_other _ r.core d _ hd
  · exact State.modCore_same _ r.core _

/-! ## Clock domains (18, R455, R456) -/

section
variable {s : State} {d : Fin 11}

theorem doClockStart_starts (hs : s.power.domains[d].st = .stopped) (hc : s.clocksOn = true) (hw : s.wanted d = true)
    (hp : s.startSpaced d = true) :
    doClockStart d s = s.modDomain d (fun k => ⟨.starting, s.pilot, 0, satAdd k.starts 1⟩) := by
  unfold doClockStart
  exact if_neg (by rw [hs, hc, hw, hp]; decide)

theorem doClockStartDone_runs (hs : s.power.domains[d].st = .starting) (hp : s.power.domains[d].since + 400 ≤ s.pilot) :
    doClockStartDone d s = s.modDomain d (fun k => { k with st := .running, idle := 0 }) := by
  unfold doClockStartDone
  exact if_pos (by rw [hs, decide_eq_true hp]; rfl)

/-- The state in which a domain has stopped, with the arrays of a core cold. -/
def State.domainStopped (s : State) (d : Fin 11) : State :=
  let s1 := s.modDomain d (fun k => { k with st := .stopped, since := s.pilot, idle := 0 })
  if d.val < 4 then
    (s1.modArr (arrayOf (ix 4 d.val) 0) (fun t => { t with cold := true })).modArr (arrayOf (ix 4 d.val) 1)
      (fun t => { t with cold := true })
  else s1

theorem doClockStop_stops (hs : s.power.domains[d].st = .running) (hu : s.inUse d = false)
    (hi : 7 ≤ d.val ∨ (s.clock.idleUs ≠ 0 ∧ 50 * s.clock.idleUs ≤ s.power.domains[d].idle)) :
    doClockStop d s = s.domainStopped d := by
  have hmay : s.mayStop d = true := by
    unfold State.mayStop
    dsimp only
    rw [hu]
    rcases hi with hi | ⟨h0, hi⟩
    · rw [decide_eq_true hi]; rfl
    · rw [decide_eq_true hi, bne_iff_ne.2 h0]
      simp
  unfold doClockStop
  exact if_neg (by rw [hs, hmay]; decide)

theorem domainStopped_rest (s : State) (d : Fin 11) : s.domainStopped d = { s.modDomain d (fun k =>
    { k with st := .stopped, since := s.pilot, idle := 0 }) with arrays := (s.domainStopped d).arrays } := by
  unfold State.domainStopped
  dsimp only
  split <;> rfl

theorem domainStopped_arr (s : State) (d : Fin 11) (a : Fin 8) : (s.domainStopped d).arr a =
    if (coreOfArray a).val = d.val then { s.arr a with cold := true } else s.arr a := by
  unfold State.domainStopped
  dsimp only
  split
  next h =>
    have hix : coreOfArray a = ix 4 d.val ↔ (coreOfArray a).val = d.val := by
      rw [Fin.ext_iff]
      simp [ix, Nat.mod_eq_of_lt h]
    rw [arr_both]
    simp only [hix]
    rfl
  next h =>
    have hne : (coreOfArray a).val ≠ d.val := fun he => h (he ▸ (coreOfArray a).isLt)
    rw [if_neg hne]
    rfl

end

/-- Settles O30: a start, its end, and a stop. -/
theorem clockDomainsStartAndStop : Obligations.ClockDomainsStartAndStop := by
  intro s d hu
  have run {f : State → State} {t : State} (h : f s = t) : inH1 f s = .next t := (inH1_up f s hu).trans (congrArg _ h)
  exact ⟨fun hs hc hw hp => run (doClockStart_starts hs hc hw hp), fun hs hp => run (doClockStartDone_runs hs hp),
    fun hs hn hi => ⟨_, run (doClockStop_stops hs hn hi), domainStopped_rest s d, domainStopped_arr s d⟩⟩

end Sys2Proof.Machine
end

section
/-! PROOFS. Reference clocks (19). -/

namespace Sys2Proof.Machine

open Sys2Proof

/-! ## Reference clocks (19, R461 to R467) -/

/-! ### Sources -/

section
variable {s : State}

theorem modSource_same (s : State) (i : Fin 3) (f : Source → Source) : (s.modSource i f).clock.sources[i] = f s.clock.sources[i] :=
  vmod_same _ _ _

theorem modSource_other (s : State) (i j : Fin 3) (f : Source → Source) (h : j ≠ i) :
    (s.modSource i f).clock.sources[j] = s.clock.sources[j] := vmod_other _ _ _ _ h

theorem modSource_congr {i : Fin 3} {f g : Source → Source} (h : f s.clock.sources[i] = g s.clock.sources[i]) :
    s.modSource i f = s.modSource i g := by
  simp only [State.modSource, State.modClock, vmod, h]

theorem switchTo_other {i : Fin 3} (hi : i ≠ s.clock.source) (hp : s.clock.pauseFrom = none) (h2 : i ≠ 2) : s.switchTo i =
    if s.clock.source = 2 then ((s.modSource i (fun q => { q with switches := satAdd q.switches 1 })).modClock (fun k => { k with
      source := i, limited := i == 2, holdover := false })).startPause
    else (s.modSource i (fun q => { q with switches := satAdd q.switches 1 })).modClock (fun k => { k with
      source := i, limited := i == 2, holdover := false }) := by
  unfold State.switchTo
  rw [if_neg hi, if_neg (by rw [hp]; decide)]
  exact if_neg h2

/-- The switch to the internal source while the recovered clock is out of use. -/
theorem switchTo_internal (hi : s.clock.source ≠ 2) (hp : s.clock.pauseFrom = none) (hr : s.recEnabled = false) : s.switchTo 2 =
    (((s.modSource 2 (fun q => { q with switches := satAdd q.switches 1 })).modClock (fun k => { k with
      source := 2, limited := true, holdover := false })).portsOut).startPause := by
  have hlost (t : State) : s.refLost t = false := by simp [State.refLost, hr]
  unfold State.switchTo
  rw [if_neg (Ne.symm hi), if_neg (by rw [hp]; decide)]
  dsimp only
  rw [if_pos rfl, hlost, if_neg (by decide)]
  rfl

theorem sourceReturns_of_working {i : Fin 3} (h : s.clock.sources[i].failed = false) : s.sourceReturns i = s :=
  if_neg (by rw [h, Bool.false_and, Bool.false_and]; decide)

theorem sourceReturns_of_few {i : Fin 3} (h : s.clock.sources[i].goodRun < 64) : s.sourceReturns i = s :=
  if_neg (by rw [decide_eq_false (Nat.not_le.2 h), Bool.and_false, Bool.false_and]; decide)

theorem laneTaken_of_none (h : s.clock.lanePending = false) : s.laneTaken = s :=
  if_neg (by rw [h, Bool.false_and, Bool.false_and]; decide)

theorem sourcesFail_nil : s.sourcesFail [] = s := rfl

/-! ### A window of the crystal -/

/-- The crystal after a window, with the holdover that a good window of the active source ends. -/
def State.crystalWindow (s : State) (good : Bool) : State :=
  if good && s.clock.source == 1 then (s.modSource 1 (·.window good)).modClock (fun k => { k with holdover := false })
  else s.modSource 1 (·.window good)

/-- The sources that a window has failed. -/
def State.failing (s : State) : List (Fin 3) := ([0, 1] : List (Fin 3)).filter (fun (i : Fin 3) =>
  !s.clock.sources[i].failed && decide (4 ≤ s.clock.sources[i].failRun))

/-- A window while the recovered clock is out of use is one of the crystal. -/
theorem doMonitorWindow_crystal {rec : Option Nat} {n : Nat} (hp : s.clock.xtalPassed = true) (hr : s.recEnabled = false) :
    doMonitorWindow rec (some n) s = (((s.crystalWindow (inRange 1 n)).sourcesFail (s.crystalWindow (inRange 1 n)).failing
      |>.sourceReturns 0).sourceReturns 1).laneTaken := by
  unfold doMonitorWindow
  dsimp only
  rw [hp, hr]
  simp only [Bool.false_eq_true, if_false, reduceCtorEq, false_and, and_false, if_true, Option.map_some]
  rfl

/-- What the rules of a window ask for: the recovered clock is out of use and has not failed. -/
structure CrystalAlone (s : State) : Prop where
  passed : s.clock.xtalPassed = true
  out : s.recEnabled = false
  working : s.clock.sources[(0 : Fin 3)].failed = false
  few : s.clock.sources[(0 : Fin 3)].failRun < 4
  lane : s.clock.lanePending = false

variable {good : Bool}

theorem window_good (q : Source) : q.window true = { q with failRun := 0, goodRun := q.goodRun + 1 } := rfl

theorem window_bad {q : Source} (h : q.failed = false) : q.window false = { q with
    failRun := q.failRun + 1, goodRun := 0, failedWindows := satAdd q.failedWindows 1 } := by simp [Source.window, h]

theorem crystalWindow_clock (s : State) (good : Bool) : s.crystalWindow good = (s.modSource 1 (·.window good)).modClock (fun k =>
    { k with holdover := k.holdover && !(good && s.clock.source == 1) }) := by
  unfold State.crystalWindow
  split
  next h => simp [h, State.modSource, State.modClock]
  next h => simp [h, State.modSource, State.modClock]

theorem crystalWindow_source (s : State) (good : Bool) :
    (s.crystalWindow good).clock.sources[(1 : Fin 3)] = s.clock.sources[(1 : Fin 3)].window good := by
  rw [crystalWindow_clock]
  exact modSource_same s 1 _

theorem CrystalAlone.window (h : CrystalAlone s) (good : Bool) : CrystalAlone (s.crystalWindow good) := by
  obtain ⟨h1, h2, h3, h4, h5⟩ := h
  have h0 : (s.crystalWindow good).clock.sources[(0 : Fin 3)] = s.clock.sources[(0 : Fin 3)] := by
    rw [crystalWindow_clock]
    exact modSource_other s 1 0 _ (by decide)
  have hc := crystalWindow_clock s good
  refine ⟨?_, ?_, by rw [h0]; exact h3, by rw [h0]; exact h4, ?_⟩
  · rw [hc]; exact h1
  · rw [hc]; exact h2
  · rw [hc]; exact h5

/-- Only the crystal may have failed. -/
theorem CrystalAlone.failing (h : CrystalAlone s) : s.failing =
    if s.clock.sources[(1 : Fin 3)].failed = false ∧ 4 ≤ s.clock.sources[(1 : Fin 3)].failRun then [1] else [] := by
  have h0 : (!s.clock.sources[(0 : Fin 3)].failed && decide (4 ≤ s.clock.sources[(0 : Fin 3)].failRun)) = false := by
    rw [decide_eq_false (Nat.not_le.2 h.few), Bool.and_false]
  unfold State.failing
  rw [List.filter_cons_of_neg (by rw [h0]; decide), List.filter_cons]
  simp only [Bool.and_eq_true, Bool.not_eq_true', decide_eq_true_eq, List.filter_nil]

theorem doMonitorWindow_alone {rec : Option Nat} {n : Nat} (h : CrystalAlone s) : doMonitorWindow rec (some n) s =
    (((s.crystalWindow (inRange 1 n)).sourcesFail (s.crystalWindow (inRange 1 n)).failing
      |>.sourceReturns 0).sourceReturns 1).laneTaken := doMonitorWindow_crystal h.passed h.out

/-- A window after which neither source has failed nor returns. -/
theorem doMonitorWindow_quiet {rec : Option Nat} {n : Nat} (h : CrystalAlone s)
    (h1 : s.clock.sources[(1 : Fin 3)].failed = false)
    (h4 : (s.clock.sources[(1 : Fin 3)].window (inRange 1 n)).failRun < 4) :
    doMonitorWindow rec (some n) s = s.crystalWindow (inRange 1 n) := by
  have hw := h.window (inRange 1 n)
  have hfail : (s.clock.sources[(1 : Fin 3)].window (inRange 1 n)).failed = false := by
    unfold Source.window
    split <;> exact h1
  have hnone : (s.crystalWindow (inRange 1 n)).failing = [] := by
    rw [hw.failing, crystalWindow_source]
    exact if_neg (fun h => Nat.not_le.2 h4 h.2)
  rw [doMonitorWindow_alone h, hnone, sourcesFail_nil, sourceReturns_of_working hw.working,
    sourceReturns_of_working (by rw [crystalWindow_source]; exact hfail), laneTaken_of_none hw.lane]

/-! ### The crystal fails -/

theorem selectSource_internal (hr : s.recEnabled = false) (hf : s.clock.sources[(1 : Fin 3)].failed = true) : s.selectSource = 2 := by
  have hrec : ¬ (s.recEnabled && !s.clock.sources[(0 : Fin 3)].failed && !s.clock.lanePending) = true := by
    rw [hr, Bool.false_and, Bool.false_and]; decide
  have hx : ¬ (s.clock.xtalPassed && !s.clock.sources[(1 : Fin 3)].failed) = true := by
    rw [hf, Bool.not_true, Bool.and_false]; decide
  exact (if_neg hrec).trans (if_neg hx)

theorem selectSource_crystal (hr : s.recEnabled = false ∨ s.clock.lanePending = true) (hx : s.clock.xtalPassed = true)
    (hf : s.clock.sources[(1 : Fin 3)].failed = false) : s.selectSource = 1 := by
  have hrec : ¬ (s.recEnabled && !s.clock.sources[(0 : Fin 3)].failed && !s.clock.lanePending) = true := by
    rcases hr with hr | hr <;> simp [hr]
  have hx' : (s.clock.xtalPassed && !s.clock.sources[(1 : Fin 3)].failed) = true := by rw [hx, hf]; rfl
  exact (if_neg hrec).trans (if_pos hx')

/-- The internal source has taken over. -/
structure RunsInternally (s t : State) : Prop where
  source : t.clock.source = 2
  limited : t.clock.limited = true
  pause : t.clock.pauseFrom = some s.pilot
  sources : ∀ i : Fin 3, i ≠ 2 → t.clock.sources[i] = s.clock.sources[i]
  lane : t.clock.lanePending = s.clock.lanePending
  ports : ∀ p, t.portUp p = false

theorem startPause_clock (s : State) : s.startPause.clock = { s.clock with pauseFrom := some s.pilot } := rfl

theorem startPause_portUp (s : State) (p : Fin 16) : s.startPause.portUp p = s.portUp p := rfl

theorem portsOut_portUp (s : State) (p : Fin 16) : s.portsOut.portUp p = false := by
  simp [State.portUp, State.portsOut]

theorem reselect_internal (hr : s.recEnabled = false) (hf : s.clock.sources[(1 : Fin 3)].failed = true) (hs : s.clock.source ≠ 2)
    (hp : s.clock.pauseFrom = none) : RunsInternally s s.reselect := by
  rw [State.reselect, selectSource_internal hr hf, switchTo_internal hs hp hr]
  have hports (p : Fin 16) := startPause_portUp (((s.modSource 2 (fun q => { q with switches := satAdd q.switches 1 })).modClock
    (fun k => { k with source := 2, limited := true, holdover := false })).portsOut) p
  have hclock := startPause_clock (((s.modSource 2 (fun q => { q with switches := satAdd q.switches 1 })).modClock
    (fun k => { k with source := 2, limited := true, holdover := false })).portsOut)
  generalize State.startPause _ = t at hports hclock
  exact ⟨by rw [hclock]; rfl, by rw [hclock]; rfl, by rw [hclock]; rfl, fun i hi => by rw [hclock]; exact modSource_other s 2 i _ hi,
    by rw [hclock]; rfl, fun p => (hports p).trans (portsOut_portUp _ p)⟩

theorem clockNmi_rest (s : State) : s.clockNmi.clock = s.clock ∧ s.clockNmi.blks = s.blks ∧ s.clockNmi.links = s.links ∧
    s.clockNmi.faults.nmiClock = true := by
  have hf : s.clockNmi.faults = s.faults.setCause 2 s.pilot := nonMaskable_faults _
  refine ⟨?_, ?_, ?_, by rw [hf]; simp [Faults.setCause]⟩ <;>
    (unfold State.clockNmi State.nonMaskable State.event; rw [post_rest]; rfl)

theorem RunsInternally.clockNmi {t : State} (h : RunsInternally s t) : RunsInternally s t.clockNmi := by
  obtain ⟨hc, hb, hl, -⟩ := clockNmi_rest t
  refine ⟨by rw [hc]; exact h.source, by rw [hc]; exact h.limited, by rw [hc]; exact h.pause, fun i hi => by rw [hc]; exact h.sources i hi,
    by rw [hc]; exact h.lane, fun p => ?_⟩
  rw [← h.ports p, State.portUp, State.portUp, hb, hl]

/-- The fourth window of a run fails the active crystal. -/
theorem doMonitorWindow_fails {rec : Option Nat} {n : Nat} (h : CrystalAlone s) (hn : inRange 1 n = false)
    (h1 : s.clock.sources[(1 : Fin 3)].failed = false) (h3 : s.clock.sources[(1 : Fin 3)].failRun = 3)
    (hs : s.clock.source = 1) (hp : s.clock.pauseFrom = none) :
    RunsInternally ((s.crystalWindow false).markFailed 1) (doMonitorWindow rec (some n) s) ∧
      (doMonitorWindow rec (some n) s).faults.nmiClock = true := by
  have hw := h.window false
  have hclock := crystalWindow_clock s false
  have hsrc : (s.crystalWindow false).clock.source = 1 := by rw [hclock]; exact hs
  have hpause : (s.crystalWindow false).clock.pauseFrom = none := by rw [hclock]; exact hp
  have hfail : (s.crystalWindow false).failing = [1] := by
    rw [hw.failing, crystalWindow_source]
    exact if_pos ⟨h1, by rw [window_bad h1, h3]⟩
  rw [doMonitorWindow_alone h, hn, hfail]
  generalize s.crystalWindow false = u at *
  have hmark : ((u.markFailed 1).clock.sources[(1 : Fin 3)]) = { u.clock.sources[(1 : Fin 3)] with failed := true, failRun := 0, goodRun := 0 } :=
    modSource_same u 1 _
  have hmark0 : ((u.markFailed 1).clock.sources[(0 : Fin 3)]) = u.clock.sources[(0 : Fin 3)] := modSource_other u 1 0 _ (by decide)
  have hsel : (u.markFailed 1).clock.source ≠ 2 := by
    show u.clock.source ≠ 2
    rw [hsrc]; decide
  have hrun := (reselect_internal (s := u.markFailed 1) hw.out (by rw [hmark]) hsel hpause).clockNmi
  have heq : u.sourcesFail [1] = (u.markFailed 1).reselect.clockNmi := if_pos (by rw [hsrc]; rfl)
  have hnmi := (clockNmi_rest (u.markFailed 1).reselect).2.2.2
  rw [heq]
  generalize (u.markFailed 1).reselect.clockNmi = w at *
  have hw0 : w.clock.sources[(0 : Fin 3)].failed = false := by rw [hrun.sources 0 (by decide), hmark0]; exact hw.working
  have hw1 : w.clock.sources[(1 : Fin 3)].goodRun < 64 := by rw [hrun.sources 1 (by decide), hmark]; exact Nat.zero_lt_succ _
  have hwl : w.clock.lanePending = false := hrun.lane.trans hw.lane
  rw [sourceReturns_of_working hw0, sourceReturns_of_few hw1, laneTaken_of_none hwl]
  exact ⟨hrun, hnmi⟩

/-! ### The crystal returns -/

/-- The state in which the crystal has failed no more. -/
def State.crystalBack (s : State) : State := (s.modSource 1 (fun q => { q with failed := false })).modClock (fun k => { k with
  lanePending := k.lanePending && (1 : Fin 3) != 0 })

theorem crystalBack_selects (h : CrystalAlone s) : s.crystalBack.selectSource = 1 :=
  selectSource_crystal (.inl h.out) h.passed (congrArg Source.failed (modSource_same s 1 _))

theorem crystalBack_reselect (h : CrystalAlone s) (hs : s.clock.source = 2) (hp : s.clock.pauseFrom = none) :
    s.crystalBack.reselect.clock = { (s.crystalBack.modSource 1 (fun q => { q with switches := satAdd q.switches 1 })).clock with
      source := 1, limited := false, holdover := false, pauseFrom := some s.pilot } := by
  have hsrc : s.crystalBack.clock.source = 2 := hs
  rw [State.reselect, crystalBack_selects h, switchTo_other (s := s.crystalBack) (by rw [hsrc]; decide) hp (by decide), if_pos hsrc, startPause_clock]
  rfl

/-- The 64th good window of a failed crystal takes it back from the internal source. -/
theorem doMonitorWindow_returns {rec : Option Nat} {n : Nat} (h : CrystalAlone s) (hn : inRange 1 n = true)
    (h1 : s.clock.sources[(1 : Fin 3)].failed = true) (h63 : s.clock.sources[(1 : Fin 3)].goodRun = 63)
    (hen : s.clock.returnEn = true) (hs : s.clock.source = 2) (hp : s.clock.pauseFrom = none) :
    (doMonitorWindow rec (some n) s).clock.source = 1 ∧ (doMonitorWindow rec (some n) s).clock.limited = false ∧
      (doMonitorWindow rec (some n) s).clock.sources[(1 : Fin 3)].failed = false ∧
      (doMonitorWindow rec (some n) s).clock.pauseFrom = some s.pilot := by
  have hw := h.window true
  have hclock := crystalWindow_clock s true
  have hsrc : (s.crystalWindow true).clock.source = 2 := by rw [hclock]; exact hs
  have hpause : (s.crystalWindow true).clock.pauseFrom = none := by rw [hclock]; exact hp
  have hen' : (s.crystalWindow true).clock.returnEn = true := by rw [hclock]; exact hen
  have hx : (s.crystalWindow true).clock.sources[(1 : Fin 3)] = { s.clock.sources[(1 : Fin 3)] with failRun := 0, goodRun := 64 } := by
    rw [crystalWindow_source, window_good, h63]
  have hpilot : (s.crystalWindow true).pilot = s.pilot := by rw [hclock]; rfl
  have hnone : (s.crystalWindow true).failing = [] := by
    rw [hw.failing, hx]
    exact if_neg (fun hh => Nat.not_le.2 (Nat.zero_lt_succ 3) hh.2)
  rw [doMonitorWindow_alone h, hn, hnone, sourcesFail_nil, sourceReturns_of_working hw.working, ← hpilot]
  generalize s.crystalWindow true = u at *
  have hback : u.sourceReturns 1 = u.crystalBack.reselect.event 0 0x070B [] := by
    unfold State.sourceReturns
    dsimp only
    rw [if_pos (by rw [hx, hen', h1]; rfl)]
    exact if_pos ⟨crystalBack_selects hw, by show (1 : Fin 3) < u.clock.source; rw [hsrc]; decide⟩
  have hclock := (crystalBack_reselect hw hsrc hpause)
  have hevent : (u.crystalBack.reselect.event 0 0x070B []).clock = u.crystalBack.reselect.clock := by
    rw [State.event, post_rest]
  have hlane : (u.crystalBack.reselect.event 0 0x070B []).clock.lanePending = false := by
    rw [hevent, hclock]
    show (u.clock.lanePending && (1 : Fin 3) != 0) = false
    rw [hw.lane]; rfl
  rw [hback, laneTaken_of_none hlane, hevent, hclock]
  exact ⟨rfl, rfl, (congrArg Source.failed (modSource_same u.crystalBack 1 _)).trans (congrArg Source.failed (modSource_same u 1 _)), rfl⟩

end

/-- Settles O32: good and bad windows, the failure of the crystal and its return. -/
theorem theMonitorJudgesTheCrystal : Obligations.TheMonitorJudgesTheCrystal := by
  intro s rec n hu hp hr h0 h4 hl
  have h : CrystalAlone s := ⟨hp, hr, h0, h4, hl⟩
  have hout : n < 99950 ∨ 100050 < n → inRange 1 n = false := by
    intro hn
    simp only [inRange]
    rcases hn with hn | hn <;> simp <;> omega
  have hin : 99950 ≤ n → n ≤ 100050 → inRange 1 n = true := fun ha hb => by simp [inRange, ha, hb]
  have run {t : State} (h : doMonitorWindow rec (some n) s = t) : exec (.monitorWindow rec (some n)) s = .next t :=
    (inH1_up _ _ hu).trans (congrArg _ h)
  refine ⟨fun ha hb h1 => run ?_, fun hn h1 h3 => run ?_, fun hn h1 h3 hs hp => ⟨_, run rfl, ?_⟩,
    fun ha hb h1 h63 hen hs hp => ⟨_, run rfl, doMonitorWindow_returns h (hin ha hb) h1 h63 hen hs hp⟩⟩
  · rw [doMonitorWindow_quiet h h1 (by rw [hin ha hb]; exact Nat.zero_lt_succ _), hin ha hb, crystalWindow_clock]
    simp only [Bool.true_and]
    rfl
  · rw [doMonitorWindow_quiet h h1 (by rw [hout hn]; rw [window_bad h1]; exact h3), hout hn, crystalWindow_clock]
    simp only [Bool.false_and, Bool.not_false, Bool.and_true]
    exact modSource_congr (f := (·.window false)) (g := fun q => { q with
      failRun := q.failRun + 1, goodRun := 0, failedWindows := satAdd q.failedWindows 1 }) (window_bad h1)
  · obtain ⟨hrun, hnmi⟩ := doMonitorWindow_fails (rec := rec) h (hout hn) h1 h3 hs hp
    refine ⟨hrun.source, hrun.limited, ?_, ?_, hnmi, hrun.ports⟩
    · rw [hrun.sources 1 (by decide)]
      exact congrArg Source.failed (modSource_same (s.crystalWindow false) 1 _)
    · rw [hrun.pause]
      show some (s.crystalWindow false).pilot = _
      rw [crystalWindow_clock]
      rfl

/-! ### Pauses and CLK_CTRL (19, R462, R465, R467) -/

theorem onlyFabric_pumpAll (s : State) : OnlyFabric s s.pumpAll :=
  frame_foldl (R := OnlyFabric) (fun _ => rfl) OnlyFabric.trans (fun s (t : TxFlow) => s.pump t.peer t.job t.channel) s.fabric.tx
    (fun s t _ => onlyFabric_pump s t.peer t.job t.channel) s

section
variable {s : State}

/-- The state in which a pause has ended. -/
def State.resumed (s : State) : State :=
  if s.clock.source = 2 then s.modClock (fun k => { k with pauseFrom := none })
  else (s.modClock (fun k => { k with pauseFrom := none })).portsTrain

theorem doSwitchPauseEnd_resumes {a : Nat} (hp : s.clock.pauseFrom = some a) (ho : s.clock.owedSwitch = false) :
    doSwitchPauseEnd s = s.resumed.pumpAll := by
  have hclock : s.modClock (fun k => { k with pauseFrom := none, owedSwitch := false }) =
      s.modClock (fun k => { k with pauseFrom := none }) := by
    simp only [State.modClock, ← ho]
  unfold doSwitchPauseEnd
  rw [hp]
  dsimp only
  rw [hclock, ho, if_neg (by decide)]
  rfl

theorem resumed_rest (s : State) : s.resumed = { s with clock := { s.clock with pauseFrom := none }, links := s.resumed.links } ∧
    (s.clock.source = 2 → s.resumed.links = s.links) := by
  unfold State.resumed
  split
  · exact ⟨rfl, fun _ => rfl⟩
  next h => exact ⟨rfl, fun h2 => absurd h2 h⟩

/-- CLK_CTRL with the fields of a write, before a change of lane has its effects. -/
def State.clkSet (s : State) (v : W32) (idle : Nat) (changed : Bool) : State := s.modClock (fun k => { k with
  returnEn := bit v.toNat 0, linkRefEn := bit v.toNat 1, refLane := bits v.toNat 13 8, idleUs := idle
  lanePending := k.lanePending || changed })

/-- A change of lane: the windows of the recovered source begin anew. -/
def State.laneMoved (s : State) (v : W32) : State :=
  (s.clkSet v (bits v.toNat 25 16) true).modSource 0 (fun q => { q with failRun := 0, goodRun := 0 })

theorem laneMoved_failed (s : State) (v : W32) :
    (s.laneMoved v).clock.sources[(0 : Fin 3)].failed = s.clock.sources[(0 : Fin 3)].failed := by
  rw [State.laneMoved, modSource_same]
  rfl

theorem doClkCtrlWrite_same {v : W32} (hl : bits v.toNat 13 8 = s.clock.refLane) (he : bit v.toNat 1 = s.clock.linkRefEn) :
    doClkCtrlWrite v s = if idleOk (bits v.toNat 25 16) then
        { s with clock := { s.clock with returnEn := bit v.toNat 0, idleUs := bits v.toNat 25 16 } }
      else ({ s with clock := { s.clock with returnEn := bit v.toNat 0 } } : State).dropWrite 1 := by
  have hno : (bits v.toNat 13 8 != s.clock.refLane || bit v.toNat 1 != s.clock.linkRefEn) = false := by
    rw [hl, he, bne_self_eq_false, bne_self_eq_false]; rfl
  unfold doClkCtrlWrite
  dsimp only
  rw [hno, hl, he]
  simp only [Bool.false_eq_true, if_false, Bool.false_and, Bool.or_false]
  split <;> rfl

theorem doClkCtrlWrite_moves {v : W32} (hl : bits v.toNat 13 8 ≠ s.clock.refLane) (hi : idleOk (bits v.toNat 25 16) = true)
    (hs : s.clock.source = 0) : doClkCtrlWrite v s = (s.laneMoved v).reselect := by
  have hyes : (bits v.toNat 13 8 != s.clock.refLane || bit v.toNat 1 != s.clock.linkRefEn) = true := by
    rw [bne_iff_ne.2 hl]; rfl
  unfold doClkCtrlWrite
  dsimp only
  rw [hyes, hi, hs]
  rfl

theorem idleOk_iff (n : Nat) : idleOk n = true ↔ n = 0 ∨ (10 ≤ n ∧ n ≤ 1000) := by
  simp [idleOk]

end

/-- Settles O33: holdover, calibration, the end of a pause and CLK_CTRL. -/
theorem clocksFollowTheirCommands : Obligations.ClocksFollowTheirCommands := by
  intro s
  refine ⟨fun hu => inH1_up _ _ hu, fun hz hu hp hf hc => (inH1_up _ _ hu).trans (congrArg _ (if_neg ?_)),
    fun a hu hp ho => ⟨_, (inH1_up _ _ hu).trans (congrArg _ (doSwitchPauseEnd_resumes hp ho)), ?_, ?_⟩,
    fun v hu hl he => ⟨fun hi => ?_, fun h0 hi => ⟨_, (inHub_up _ _ hu).trans (congrArg _ ((doClkCtrlWrite_same hl he).trans
      (if_neg ?_))), rfl, fun b hb => vmod_other _ _ _ _ hb, vmod_same _ _ _⟩⟩,
    fun v hu hl hi hs hp hx hf => ⟨_, (inHub_up _ _ hu).trans (congrArg _ (doClkCtrlWrite_moves hl hi hs)), ?_⟩⟩
  · show ¬(!s.clock.xtalPassed || s.clock.sources[(1 : Fin 3)].failed || decide (s.pilot < s.clock.calAt + 3000000000)) = true
    rw [hp, hf, decide_eq_false (Nat.not_lt.2 hc)]; decide
  · have h := onlyFabric_pumpAll s.resumed
    obtain ⟨hr, -⟩ := resumed_rest s
    unfold OnlyFabric at h
    rw [h, hr]
  · intro h2
    have h := onlyFabric_pumpAll s.resumed
    obtain ⟨-, hr⟩ := resumed_rest s
    unfold OnlyFabric at h
    rw [h]
    exact hr h2
  · exact (inHub_up _ _ hu).trans (congrArg _ ((doClkCtrlWrite_same hl he).trans (if_pos ((idleOk_iff _).2 hi))))
  · rw [idleOk_iff]
    exact fun h => h.elim h0 hi
  · have hsrc : (s.laneMoved v).clock.source = 0 := hs
    have hsel : (s.laneMoved v).selectSource = 1 := selectSource_crystal (.inr (Bool.or_true _)) hx
      ((congrArg Source.failed (modSource_other (s.clkSet v _ true) 0 1 _ (by decide))).trans hf)
    rw [State.reselect, hsel, switchTo_other (s := s.laneMoved v) (by rw [hsrc]; decide) hp (by decide), if_neg (by rw [hsrc]; decide)]
    exact ⟨rfl, rfl, Bool.or_true _, rfl, rfl, (congrArg Source.failed (modSource_other (s.laneMoved v) 1 0 _ (by decide))).trans
      (laneMoved_failed s v), hp⟩

end Sys2Proof.Machine
end

section
/-! PROOFS. Resets that are asked for, restarts and power (19, 22). -/

namespace Sys2Proof.Machine

open Sys2Proof

/-! ## Resets that are asked for (19, R470; 22, R514, R518) -/

section
variable {s : State} {v : W32}

theorem moduleAsked_of_none (h : s.clock.resetting = none) : s.moduleAsked = false := by simp [State.moduleAsked, h]

theorem hubUp_clock (h : s.hubUp = true) : s.clock.resetting = none ∧ s.clock.resetHeld = false := by
  simp only [State.hubUp, Bool.and_eq_true, Option.isNone_iff_eq_none, Bool.not_eq_true'] at h
  exact ⟨h.1.1.2, h.1.2⟩

theorem h1Up_clock (h : s.h1Up = true) : s.board.aonOn = true ∧ s.clock.resetHeld = false ∧ s.moduleAsked = false := by
  simp only [State.h1Up, Bool.and_eq_true, Bool.not_eq_true'] at h
  exact ⟨h.1.1, h.1.2, h.2⟩

theorem askModule_asks {code : Nat} (ht : s.power.thermtrip = false) (hp : s.board.pwrGood = true) (hh : s.clock.resetHeld = false)
    (hm : s.moduleAsked = false) : s.askModule code = s.modClock (fun k => { k with
      resetting := some (.module, s.pilot), resetDone := false, lastReset := code }) :=
  if_neg (by rw [ht, hp, hh, hm]; decide)

theorem askHub_asks (hf : s.faults.fatal = false) (hp : s.board.pwrGood = true) (hh : s.clock.resetHeld = false)
    (hn : s.clock.perstHeld = false) (hr : s.clock.resetting = none) (hs : 5 ≤ s.clock.stage) :
    s.askHub = s.modClock (fun k => { k with resetting := some (.hub, s.pilot), resetDone := false, lastReset := 4 }) :=
  if_neg (by rw [hf, hp, hh, hn, hr, decide_eq_false (Nat.not_lt.2 hs)]; decide)

theorem bmcReset_module (hk : bits v.toNat 31 16 = 0x5D1A) (h : v.getLsbD 0 = true) : bmcReset v = some .module := by
  unfold bmcReset
  rw [if_neg (not_not.2 hk), if_pos h]

theorem bmcReset_hub (hk : bits v.toNat 31 16 = 0x5D1A) (h0 : v.getLsbD 0 = false) (h : v.getLsbD 1 = true) :
    bmcReset v = some .hub := by
  unfold bmcReset
  rw [if_neg (not_not.2 hk), h0, h]
  rfl

theorem bmcReset_none (h : ¬ bits v.toNat 31 16 = 0x5D1A ∨ (v.getLsbD 0 = false ∧ v.getLsbD 1 = false)) : bmcReset v = none := by
  unfold bmcReset
  by_cases hk : bits v.toNat 31 16 = 0x5D1A
  · obtain ⟨h0, h1⟩ := h.resolve_left (not_not.2 hk)
    rw [if_neg (not_not.2 hk), h0, h1]
    rfl
  · exact if_pos hk

end

/-- Settles O34: RESET_CTRL, BMC_RESET and MOD_RESET_N. -/
theorem resetsAreAskedFor : Obligations.ResetsAreAskedFor := by
  intro s v hp ht
  dsimp only
  refine ⟨fun hu => (inHub_up _ _ hu).trans (congrArg _ ?_), fun hu h0 hk => (inH1_up _ _ hu).trans (congrArg _ ?_),
    fun hu h0 h1 hk hf hn hr hs => (inH1_up _ _ hu).trans (congrArg _ ?_), fun hu h => ?_, fun hu hm => ⟨?_, fun hh => ?_⟩⟩
  · obtain ⟨hr, hh⟩ := hubUp_clock hu
    by_cases h : v.getLsbD 0 = true ∧ bits v.toNat 31 16 = 0x5D1A
    · rw [if_pos h, doResetCtrlWrite, if_pos (by simp [h.1, h.2])]
      exact askModule_asks ht hp hh (moduleAsked_of_none hr)
    · rw [if_neg h, doResetCtrlWrite, if_neg (by simpa using h)]
      rfl
  · obtain ⟨-, hh, hm⟩ := h1Up_clock hu
    rw [doBmcModuleReset, bmcReset_module hk h0, if_neg (by decide), State.writeBmcReset, bmcReset_module hk h0]
    exact askModule_asks ht hp hh hm
  · obtain ⟨-, hh, -⟩ := h1Up_clock hu
    rw [doBmcHubReset, bmcReset_hub hk h0 h1, if_neg (by decide), State.writeBmcReset, bmcReset_hub hk h0 h1]
    exact askHub_asks hf hp hh hn hr hs
  · refine ⟨(inH1_up _ _ hu).trans (congrArg _ ?_), (inH1_up _ _ hu).trans (congrArg _ ?_)⟩
    · rw [doBmcModuleReset, bmcReset_none h, if_neg (by decide), State.writeBmcReset, bmcReset_none h]
      rfl
    · rw [doBmcHubReset, bmcReset_none h, if_neg (by decide), State.writeBmcReset, bmcReset_none h]
      rfl
  · refine (inAon_up _ _ hu).trans (congrArg _ ?_)
    rw [doModResetN, if_neg (by rw [hp, ht, hm]; decide)]
    rfl
  · refine (inAon_up _ _ hu).trans (congrArg _ ?_)
    rw [doModResetN, if_neg (by rw [hp, ht, hm]; decide), if_neg (by decide), if_pos hh]
    exact askModule_asks ht hp rfl rfl

/-! ## Restarts and power (19, R469, R471, R473; 22, R510 to R515) -/

/-- Settles O36: what a module reset and a power-on leave. -/
theorem restartsReinitialise : Obligations.RestartsReinitialise := by
  rintro s cmd osc slot hu (⟨rfl, hm⟩ | ⟨rfl, hp, hg⟩)
  · have hrun : exec .moduleReset s = .next (doModuleReset s) := inAon_up _ _ hu
    rw [hrun, doModuleReset, if_neg (by rw [hm]; decide)]
    refine ⟨_, rfl, ?_⟩
    exact ⟨rfl, rfl, rfl, rfl, rfl, rfl, rfl, rfl, fun _ => rfl, rfl, rfl, rfl, rfl, rfl, rfl, rfl, rfl, rfl, rfl, rfl, rfl,
      fun _ => ⟨rfl, rfl, rfl, rfl, rfl, rfl, rfl⟩, fun h => Instr.noConfusion h⟩
  · have hrun : exec (.powerOnReset osc slot) s = .next (doPowerOnReset osc slot s) := inAon_up _ _ hu
    rw [hrun, doPowerOnReset, if_neg (by rw [hp, hg]; decide)]
    refine ⟨_, rfl, ?_⟩
    exact ⟨rfl, rfl, rfl, rfl, rfl, rfl, rfl, rfl, fun _ => rfl, rfl, rfl, rfl, rfl, rfl, rfl, rfl, rfl, rfl, rfl, rfl, rfl,
      fun h => Instr.noConfusion h, fun _ => ⟨rfl, rfl, rfl, rfl, rfl, rfl⟩⟩

/-- The module has lost its rails: contexts, memory and blocks are as after reset, and the stored records and faults stay. -/
structure LosesPower (s t : State) : Prop where
  good : t.board.pwrGood = false
  rails : t.board.railsOn = false
  cores : t.cores = State.reset.cores
  hbm : t.hbm = State.reset.hbm
  ctx : ∀ x, t.ctx x = State.reset.ctx x
  sec : t.sec = s.sec
  faults : t.faults = s.faults
  ready : t.clock.ready = false

theorem losesPower_powerDown (s : State) (b : Bool) (f : Power → Power) (g : Board → Board)
    (hg : ∀ k, (g k).pwrGood = k.pwrGood ∧ (g k).railsOn = k.railsOn) :
    LosesPower s (((s.modPower f).powerDown b).modBoard g) :=
  ⟨(hg _).1, (hg _).2, rfl, rfl, fun _ => rfl, rfl, rfl, rfl⟩

section
variable {s : State}

theorem doModPwrEnAssert_rises {bank : Nat} (he : s.board.pwrEn = false) (hv : s.board.vinOk = true) (ht : s.power.thermtrip = false)
    (hb : 10000 ≤ bank) (hoff : ∀ t, s.board.enOffAt = some t → t + 50000000 ≤ s.pilot) :
    doModPwrEnAssert bank s = s.modBoard (fun k => { k with
      pwrEn := true, railsOn := true, aonOn := true, pwrGood := true, goodAt := none, enOffAt := none }) := by
  unfold doModPwrEnAssert
  cases h : s.board.enOffAt with
  | none => exact if_neg (by simp [he, hv, ht, Nat.not_lt.2 hb])
  | some t => exact if_neg (by simp [he, hv, ht, Nat.not_lt.2 hb, Nat.not_lt.2 (hoff t h)])

theorem doModPwrEnDeassert_falls (he : s.board.pwrEn = true) : doModPwrEnDeassert s =
    ((s.modPower (fun p => { p with thermtrip := false })).powerDown false).modBoard (fun k => { k with
      pwrEn := false, enOffAt := some s.pilot }) := if_neg (by rw [he]; simp)

theorem doVinUndervoltage_falls {mv : Nat} (h : mv < 45000) : doVinUndervoltage mv s =
    ((s.modPower (fun p => { p with thermtrip := false })).powerDown false).modBoard (fun k => { k with
      vinOk := false, inputLost := true, vinMv := mv, pwrEn := false }) := if_neg (Nat.not_le.2 h)

theorem doVinOvervoltage_trips {mv : Nat} (h : 58500 < mv) (hr : s.board.railsOn = true) : doVinOvervoltage mv s =
    ((s.modPower (fun p => { p with thermtrip := true })).powerDown true).modBoard (fun k => { k with vinMv := mv }) := by
  unfold doVinOvervoltage
  rw [if_neg (Nat.not_le.2 h)]
  dsimp only
  rw [if_pos hr]

end

/-- Settles O39: MOD_PWR_EN and VIN. -/
theorem powerFollowsItsPins : Obligations.PowerFollowsItsPins := by
  intro s
  refine ⟨fun bank he hv ht hb hoff => congrArg Host.Outcome.next (doModPwrEnAssert_rises he hv ht hb hoff), ?_,
    fun mv h => congrArg Host.Outcome.next (if_neg (Nat.not_le.2 h))⟩
  rintro cmd mv (⟨rfl, he⟩ | ⟨rfl, h⟩ | ⟨rfl, h, hr⟩)
  · obtain ⟨h1, h2, h3, h4, h5, h6, h7, h8⟩ := losesPower_powerDown s false (fun p => { p with thermtrip := false })
      (fun k => { k with pwrEn := false, enOffAt := some s.pilot }) (fun _ => ⟨rfl, rfl⟩)
    exact ⟨_, congrArg Host.Outcome.next (doModPwrEnDeassert_falls he), h1, h2, ⟨fun h => Bool.noConfusion h, fun h => Instr.noConfusion h⟩,
      h3, h4, h5, h6, h7, h8, fun _ => ⟨rfl, rfl, rfl⟩, fun h => Instr.noConfusion h, fun h => Instr.noConfusion h⟩
  · obtain ⟨h1, h2, h3, h4, h5, h6, h7, h8⟩ := losesPower_powerDown s false (fun p => { p with thermtrip := false })
      (fun k => { k with vinOk := false, inputLost := true, vinMv := mv, pwrEn := false }) (fun _ => ⟨rfl, rfl⟩)
    exact ⟨_, congrArg Host.Outcome.next (doVinUndervoltage_falls h), h1, h2, ⟨fun h => Bool.noConfusion h, fun h => Instr.noConfusion h⟩,
      h3, h4, h5, h6, h7, h8, fun h => Instr.noConfusion h, fun _ => ⟨rfl, rfl, rfl⟩, fun h => Instr.noConfusion h⟩
  · obtain ⟨h1, h2, h3, h4, h5, h6, h7, h8⟩ := losesPower_powerDown s true (fun p => { p with thermtrip := true })
      (fun k => { k with vinMv := mv }) (fun _ => ⟨rfl, rfl⟩)
    exact ⟨_, congrArg Host.Outcome.next (doVinOvervoltage_trips h hr), h1, h2, ⟨fun _ => rfl, fun _ => rfl⟩,
      h3, h4, h5, h6, h7, h8, fun h => Instr.noConfusion h, fun h => Instr.noConfusion h, fun _ => ⟨Bool.true_or (!s.faults.storeBatch.isEmpty), rfl, rfl⟩⟩

end Sys2Proof.Machine
end

section
/-! PROOFS. Function-level and interface resets (12, 19). -/

namespace Sys2Proof.Machine

open Sys2Proof

/-! ## Contexts that take no entries (12, R318) -/

/-- A context that takes no entries: it does not exist, it is KILLED, or its destruction has no packet to answer. -/
def Ctx.Mute (k : Ctx) : Prop := k.state = .none ∨ k.state = .killed ∨ (k.state = .destroying ∧ k.destroyTag = none)

/-- A context that takes no entries stays as it is. -/
structure Hush (y : Fin 16) (s t : State) : Prop where
  stays : (s.ctx y).Mute → t.ctx y = s.ctx y

section
variable {y : Fin 16}

theorem Hush.refl (s : State) : Hush y s s := ⟨fun _ => rfl⟩

theorem Hush.trans {s t u : State} (h : Hush y s t) (k : Hush y t u) : Hush y s u := ⟨fun hm => by
  have ht := h.stays hm
  rw [← ht]
  exact k.stays (ht ▸ hm)⟩

theorem hush_of_ctxs {s t : State} (h : t.hub.ctxs = s.hub.ctxs) : Hush y s t := ⟨fun _ => by simp only [State.ctx, h]⟩

theorem hush_modCtx (s : State) {x : Fin 16} (f : Ctx → Ctx) (h : y ≠ x) : Hush y s (s.modCtx x f) :=
  ⟨fun _ => State.modCtx_other s x y f h⟩

theorem hush_foldl {α : Type} (f : State → α → State) (l : List α) (h : ∀ s a, Hush y s (f s a)) (s : State) :
    Hush y s (l.foldl f s) := frame_foldl Hush.refl Hush.trans f l (fun s a _ => h s a) s

theorem hush_foldl_pair {α β : Type} (f : State × β → α → State × β) (l : List α) (h : ∀ r a, Hush y r.1 (f r a).1)
    (r : State × β) : Hush y r.1 (l.foldl f r).1 := by
  induction l generalizing r with
  | nil => exact Hush.refl r.1
  | cons a l ih => exact (h r a).trans (ih (f r a))

theorem hush_post (s : State) (x : Fin 16) (e : Entry) : Hush y s (s.post x e) := by
  refine ⟨fun hm => ?_⟩
  by_cases h : y = x
  · subst h
    unfold State.post
    rcases hm with hm | hm | ⟨hm, ht⟩
    · rw [hm]
    · rw [hm]
    · rw [hm, ht]; rfl
  · rcases post_cases s x e with he | he <;> rw [he]
    exact State.modCtx_other s x y _ h

theorem hush_deepLowCheck (s : State) (ch : Fin 16) (n : Nat) : Hush y s (s.deepLowCheck ch n) := by
  unfold State.deepLowCheck
  dsimp only
  split
  · refine Hush.trans (t := s.modTiers (fun t => { t with lowArmed := t.lowArmed.set ch false })) (hush_of_ctxs rfl)
      (hush_foldl _ _ (fun s x => ?_) _)
    split
    · exact hush_post s x _
    · exact Hush.refl s
  · split
    · exact hush_of_ctxs rfl
    · exact Hush.refl s

theorem hush_placeBlock {s t : State} {p j : Nat} {bs : List PByte} (h : s.placeBlock p j bs = some t) : Hush y s t := by
  have put : ∀ (u : State) g n ch, u.hub = s.hub → Hush y s ((u.putDeep p j g n bs).deepLowOf ch) := fun u g n ch hu =>
    Hush.trans (t := u.putDeep p j g n bs) (hush_of_ctxs (congrArg Hub.ctxs hu)) (hush_deepLowCheck _ _ _)
  unfold State.placeBlock at h
  dsimp only at h
  split at h
  · cases h
    exact put s _ _ _ rfl
  · split at h
    · cases h
    · cases h
      exact put _ _ _ _ rfl

theorem hush_writeDeepBlock (s : State) (x : Fin 16) (p j off : Nat) (bs : List PByte) : Hush y s (s.writeDeepBlock x p j off bs) := by
  unfold State.writeDeepBlock
  dsimp only
  split
  · exact hush_of_ctxs rfl
  · split
    next h => exact hush_placeBlock h
    · split
      · exact Hush.refl s
      · exact hush_of_ctxs rfl

theorem hush_writeHome (s : State) (x : Fin 16) (h : Home) (p off : Nat) (bs : List PByte) : Hush y s (s.writeHome x h p off bs) := by
  have stack : ∀ (u : State) n f, Hush y u (u.modStack n f) := fun _ _ _ => hush_of_ctxs rfl
  unfold State.writeHome
  cases h with
  | placed n f => exact hush_foldl_pair _ _ (fun r _ => stack r.1 _ _) (s, bs)
  | spread slot => exact hush_foldl_pair _ _ (fun r _ => stack r.1 _ _) (s, bs)
  | deep => exact hush_foldl _ _ (fun s _ => hush_writeDeepBlock s _ _ _ _ _) s

theorem hush_uwrite (s : State) (a : Nat) (bs : List PByte) : Hush y s (s.uwrite a bs) := by
  unfold State.uwrite
  refine Hush.trans (t := s.invalidate a bs.length) (hush_of_ctxs rfl) (hush_foldl_pair _ _ (fun r q => ?_) (_, bs))
  dsimp only
  split
  · exact Hush.refl _
  · split
    · exact hush_of_ctxs rfl
    · exact hush_writeHome _ _ _ _ _ _

theorem hush_modTiers (s : State) (f : Tiers → Tiers) : Hush y s (s.modTiers f) := hush_of_ctxs rfl

theorem hush_clearDeep (s : State) (p : Nat) : Hush y s (s.clearDeep p) :=
  (hush_modTiers s _).trans (hush_foldl _ _ (fun s _ => hush_deepLowCheck s _ _) _)

theorem hush_freePage (s : State) (p : Nat) : Hush y s (s.freePage p) := by
  unfold State.freePage
  dsimp only
  split
  · split
    · exact hush_modTiers s _
    · exact (hush_modTiers s _).trans (hush_clearDeep _ _)
  · exact hush_modTiers s _

theorem hush_releaseAll (s : State) (x : Fin 16) : Hush y s (s.releaseAll x) := by
  rw [releaseAll_eq]
  exact (hush_foldl _ _ (fun s (e : Nat × HomeEntry) => hush_freePage s e.1) s).trans
    (hush_foldl (fun s c => s.modFeed c (fun f => f.dropCtx (s.cc x c) x)) _ (fun _ _ => hush_of_ctxs rfl) _)

theorem hush_haltMoves (s : State) {x : Fin 16} (h : y ≠ x) : Hush y s (s.haltMoves x) := by
  unfold State.haltMoves
  refine hush_foldl _ _ (fun s m => ?_) s
  have land : ∀ u (b : Bool), Hush y s u → Hush y s (if b then (u.landStalled m).modCtx x (fun k => { k with
      aborts := satAdd k.aborts 1 }) else u.landStalled m) := by
    intro u b hu
    have hland : Hush y s (u.landStalled m) := hu.trans (hush_foldl _ _ (fun s w => hush_uwrite s _ _) u)
    split
    · exact hland.trans (hush_modCtx _ _ h)
    · exact hland
  dsimp only
  split
  · exact hush_modTiers s _
  · refine land _ _ ?_
    split
    · refine Hush.trans ?_ (hush_clearDeep _ _)
      exact hush_of_ctxs rfl
    · exact hush_of_ctxs rfl

end

/-! ## Function-level resets (12, R294) -/

/-- What is left of a context when its function is reset. -/
structure FunctionReset (pf : Bool) (x : Fin 16) (k k' : Ctx) : Prop where
  seqExpect : k'.seqExpect = 1
  formed : k'.formed = []
  backlog : k'.backlog = []
  cqHead : k'.cqHead = 0
  cqTail : k'.cqTail = 0
  slots : ∀ j : Fin 8, k'.slots[j].state = .free
  state : k'.state = if k.state = .none then .none else .destroying
  tag : k.state ≠ .none → k'.destroyTag =
    if k.state = .destroying ∧ pf = false then k.destroyTag.filter (fun t => t.1 != x.val) else none

theorem FunctionReset.mute {x : Fin 16} {k k' : Ctx} (h : FunctionReset true x k k') : k'.Mute := by
  by_cases hk : k.state = .none
  · exact .inl (h.state.trans (if_pos hk))
  · exact .inr (.inr ⟨h.state.trans (if_neg hk), (h.tag hk).trans (if_neg (fun hh => Bool.noConfusion hh.2))⟩)

/-- What becomes of the contexts and of the rest when the destruction of a context for a reset begins. -/
structure FlrBegins (pf : Bool) (x : Fin 16) (s t : State) : Prop where
  clock : t.clock = s.clock
  msix : t.hub.msix = s.hub.msix
  others : ∀ y, y ≠ x → t.ctx y = { s.ctx y with formed := (t.ctx y).formed } ∧ (s.ctx y).formed <+: (t.ctx y).formed
  hush : ∀ y, y ≠ x → Hush y s t
  state : (t.ctx x).state = if (s.ctx x).state = .none then .none else .destroying
  tag : (s.ctx x).state ≠ .none → (t.ctx x).destroyTag =
    if (s.ctx x).state = .destroying ∧ pf = false then (s.ctx x).destroyTag.filter (fun t => t.1 != x.val) else none

/-- The first part of flrCtx. -/
def State.flrBegin (s : State) (x : Fin 16) (pf : Bool) : State :=
  match (s.ctx x).state with
  | .none => s
  | .destroying => s.modCtx x (fun k => { k with
      silent := true, destroyTag := k.destroyTag.filter (fun t => t.1 != x.val && !pf) })
  | _ => s.beginDestroy x none

theorem flrCtx_eq (s : State) (x : Fin 16) (pf : Bool) : s.flrCtx x pf = (s.flrBegin x pf).resetFunction x := rfl

theorem DropsSpans.hush {s t : State} (h : DropsSpans s t) (y : Fin 16) : Hush y s t := by
  refine hush_of_ctxs ?_
  rw [h.rest]

theorem onlyWork_beginDestroy (s : State) (x : Fin 16) (tag : Option (Nat × W32 × W64 × Nat)) : OnlyWork s (s.beginDestroy x tag) := by
  obtain ⟨u, hu, heq⟩ := beginDestroy_eq s x tag
  have hdrop : OnlyWork (s.modCtx x (·.emptied tag)) u := by
    rw [hu.rest]
    rfl
  rw [heq]
  exact (((onlyWork_modCtx s x _).trans hdrop).trans (onlyWork_haltMoves u x)).trans (onlyWork_modTiers _ _ (fun _ => ⟨rfl, rfl, rfl⟩))

theorem flrBegins_beginDestroy (s : State) (x : Fin 16) (pf : Bool) (h : (s.ctx x).state ≠ .none) (hd : (s.ctx x).state ≠ .destroying) :
    FlrBegins pf x s (s.beginDestroy x none) := by
  obtain ⟨u, hu, heq⟩ := beginDestroy_eq s x none
  have hhalt := (halts_haltMoves u x)
  have hwork := onlyWork_beginDestroy s x none
  have hctx (y : Fin 16) : (s.beginDestroy x none).ctx y = (u.haltMoves x).ctx y := by rw [heq]; rfl
  have hux : u.ctx x = (s.ctx x).emptied none := by rw [hu.ctx, State.modCtx_same]
  have huy (y : Fin 16) (hy : y ≠ x) : u.ctx y = s.ctx y := by rw [hu.ctx, State.modCtx_other s x y _ hy]
  obtain ⟨-, -, hhub, -, -, -, -, -, -, hclock, -⟩ := (onlyWork_iff _ _).1 hwork
  refine ⟨hclock, by rw [hhub], fun y hy => ?_, fun y hy => ?_, ?_, fun _ => ?_⟩
  · rw [hctx, ← huy y hy]
    exact ⟨hhalt.others y hy, hhalt.formed y⟩
  · rw [heq]
    exact (((hush_modCtx s _ hy).trans (hu.hush y)).trans (hush_haltMoves u hy)).trans (hush_modTiers _ _)
  · rw [hctx, hhalt.own, hux, if_neg h]
    rfl
  · rw [hctx, hhalt.own, hux, if_neg (fun hh => hd hh.1)]
    rfl

theorem flrBegins_flrBegin (s : State) (x : Fin 16) (pf : Bool) : FlrBegins pf x s (s.flrBegin x pf) := by
  unfold State.flrBegin
  split
  next h => exact ⟨rfl, rfl, fun _ _ => ⟨rfl, List.prefix_rfl⟩, fun _ _ => Hush.refl s, by rw [h, if_pos rfl], fun hn => absurd h hn⟩
  next h =>
    refine ⟨rfl, rfl, fun y hy => by rw [State.modCtx_other s x y _ hy]; exact ⟨rfl, List.prefix_rfl⟩, fun y hy => hush_modCtx s _ hy, ?_, fun _ => ?_⟩
    · rw [State.modCtx_same]
      exact h.trans (if_neg (by rw [h]; decide)).symm
    · rw [State.modCtx_same]
      cases pf
      · rw [if_pos ⟨h, rfl⟩]
        simp
      · rw [if_neg (fun hh => Bool.noConfusion hh.2)]
        simp
  next hn hd => exact flrBegins_beginDestroy s x pf hn hd

/-- A function-level reset of one function. -/
structure FlrEnds (pf : Bool) (x : Fin 16) (s t : State) : Prop where
  clock : t.clock = s.clock
  own : t.hub.msix[x] = ⟨[], []⟩
  msix : ∀ y, y ≠ x → t.hub.msix[y] = s.hub.msix[y]
  others : ∀ y, y ≠ x → t.ctx y = { s.ctx y with formed := (t.ctx y).formed } ∧ (s.ctx y).formed <+: (t.ctx y).formed
  hush : ∀ y, y ≠ x → Hush y s t
  reset : FunctionReset pf x (s.ctx x) (t.ctx x)

theorem flrEnds_flrCtx (s : State) (x : Fin 16) (pf : Bool) : FlrEnds pf x s (s.flrCtx x pf) := by
  obtain ⟨h1, h2, h3, h4, h5, h6⟩ := flrBegins_flrBegin s x pf
  rw [flrCtx_eq]
  generalize s.flrBegin x pf = u at *
  have hother (y : Fin 16) (hy : y ≠ x) : (u.resetFunction x).ctx y = u.ctx y := State.modCtx_other _ x y _ hy
  have hown := State.modCtx_same ({ u with hub := { u.hub with msix := vmod u.hub.msix x (fun _ => ⟨[], []⟩) } } : State) x (fun k => { k with
    lastReason := 0, seqExpect := 1, lastRefused := 0, cqHead := 0, cqTail := 0, formed := [], backlog := []
    owedOverflow := false, lateWrites := 0, sealRefused := 0, eventsDropped := 0
    slots := k.slots.map (fun m => { m with state := .free }) })
  refine ⟨h1, vmod_same _ _ _, fun y hy => (vmod_other _ _ _ _ hy).trans (by rw [h2]), fun y hy => by rw [hother y hy]; exact h3 y hy,
    fun y hy => (h4 y hy).trans ⟨fun _ => hother y hy⟩, ?_⟩
  rw [show (u.resetFunction x).ctx x = _ from hown]
  exact ⟨rfl, rfl, rfl, rfl, rfl, fun j => by simp, h5, h6⟩

theorem FunctionReset.of_formed {pf : Bool} {x : Fin 16} {k k' : Ctx} {l : List Entry} (h : FunctionReset pf x { k with formed := l } k') :
    FunctionReset pf x k k' :=
  ⟨h.seqExpect, h.formed, h.backlog, h.cqHead, h.cqTail, h.slots, h.state, h.tag⟩

/-- The functions of a list are reset with the physical function. -/
structure FlrAll (l : List (Fin 16)) (s t : State) : Prop where
  clock : t.clock = s.clock
  own : ∀ y ∈ l, t.hub.msix[y] = ⟨[], []⟩ ∧ FunctionReset true y (s.ctx y) (t.ctx y)
  others : ∀ y, y ∉ l → t.hub.msix[y] = s.hub.msix[y] ∧ Hush y s t

theorem flrAll_foldl (l : List (Fin 16)) (hl : l.Nodup) (s : State) : FlrAll l s (l.foldl (fun s y => s.flrCtx y true) s) := by
  induction l generalizing s with
  | nil => exact ⟨rfl, fun y hy => absurd hy List.not_mem_nil, fun y _ => ⟨rfl, Hush.refl s⟩⟩
  | cons x l ih =>
    obtain ⟨hx, hl⟩ := List.nodup_cons.1 hl
    rw [List.foldl_cons]
    obtain ⟨h1, h2, h3⟩ := ih hl (s.flrCtx x true)
    obtain ⟨k1, k2, k3, k4, k5, k6⟩ := flrEnds_flrCtx s x true
    generalize s.flrCtx x true = u at *
    generalize l.foldl (fun s y => s.flrCtx y true) u = t at *
    refine ⟨h1.trans k1, fun y hy => ?_, fun y hy => ?_⟩
    · rcases List.mem_cons.1 hy with rfl | hy
      · obtain ⟨hm, hh⟩ := h3 y hx
        refine ⟨hm.trans k2, ?_⟩
        rw [hh.stays k6.mute]
        exact k6
      · have hne : y ≠ x := fun h => hx (h ▸ hy)
        obtain ⟨hm, hr⟩ := h2 y hy
        refine ⟨hm, ?_⟩
        rw [(k4 y hne).1] at hr
        exact hr.of_formed
    · obtain ⟨hne, hy⟩ := not_or.1 (fun h => hy (List.mem_cons.2 h))
      obtain ⟨hm, hh⟩ := h3 y hy
      exact ⟨hm.trans (k3 y hne), (k5 y hne).trans hh⟩

/-- A function-level reset of the physical function is one of every function. -/
theorem flrAll_doFunctionLevelReset (s : State) : FlrAll (List.finRange 16) s (doFunctionLevelReset 0 s) ∧
    (doFunctionLevelReset 0 s).hub.vfEnable = false := by
  obtain ⟨h1, h2, -⟩ := flrAll_foldl (List.finRange 16) (List.nodup_finRange 16) s
  unfold doFunctionLevelReset
  rw [if_pos rfl]
  dsimp only
  generalize (List.finRange 16).foldl (fun s y => s.flrCtx y true) s = t at h1 h2 ⊢
  exact ⟨⟨h1, h2, fun y hy => absurd (List.mem_finRange y) hy⟩, rfl⟩

/-- A reset of the interface: every function, and LAST_RESET. -/
theorem pcieReset_spec (s : State) : s.pcieReset.clock = { s.clock with lastReset := 5 } ∧ s.pcieReset.hub.vfEnable = false ∧
    ∀ y, s.pcieReset.hub.msix[y] = ⟨[], []⟩ ∧ FunctionReset true y (s.ctx y) (s.pcieReset.ctx y) := by
  obtain ⟨⟨h1, h2, -⟩, hv⟩ := flrAll_doFunctionLevelReset s
  unfold State.pcieReset
  generalize doFunctionLevelReset 0 s = u at h1 h2 hv ⊢
  exact ⟨by rw [← h1]; rfl, hv, fun y => h2 y (List.mem_finRange y)⟩

/-- The link trains to 16, 32 or 64 GT/s. -/
theorem trainLink_spec (s : State) : s.trainLink = { s with board := s.trainLink.board, freeCtr := s.trainLink.freeCtr } ∧
    s.trainLink.board = { s.board with pcieStatus := s.trainLink.board.pcieStatus } ∧
    4 ≤ bits s.trainLink.board.pcieStatus.toNat 2 0 ∧ bits s.trainLink.board.pcieStatus.toNat 2 0 ≤ 6 := by
  refine ⟨rfl, rfl, ?_⟩
  have htrain : ∃ n m, s.trainLink.board.pcieStatus = BitVec.ofNat 32 (4 + Config.choice n % 3 +
      8 * (if Config.choice m % 2 = 0 then 16 else 8) + 256 * b2n (4 + Config.choice n % 3 == 6)) := ⟨_, _, rfl⟩
  obtain ⟨n, m, h⟩ := htrain
  have hb : b2n (4 + Config.choice n % 3 == 6) ≤ 1 := by
    cases (4 + Config.choice n % 3 == 6) <;> decide
  have hw : (if Config.choice m % 2 = 0 then 16 else 8) ≤ 16 := by split <;> decide
  rw [h, BitVec.toNat_ofNat]
  generalize (if Config.choice m % 2 = 0 then 16 else 8) = w at hw
  generalize b2n (4 + Config.choice n % 3 == 6) = b at hb
  simp only [bits]
  omega

/-- What the statement of a reset says of one function. -/
theorem FunctionReset.clauses {pf : Bool} {x y : Fin 16} {k : Ctx} {t : State} (h : FunctionReset pf y k (t.ctx y))
    (hm : t.hub.msix[y] = ⟨[], []⟩) (hp : (pf = true ∧ x = 0) ∨ (pf = false ∧ x ≠ 0 ∧ y = x)) :
    (t.ctx y).seqExpect = 1 ∧ (t.ctx y).formed = [] ∧ (t.ctx y).backlog = [] ∧
      (t.ctx y).cqHead = 0 ∧ (t.ctx y).cqTail = 0 ∧ (∀ j : Fin 8, (t.ctx y).slots[j].state = .free) ∧
      t.hub.msix[y] = ⟨[], []⟩ ∧ (t.ctx y).state = (if k.state = .none then .none else .destroying) ∧
      (k.state ≠ .none → (t.ctx y).destroyTag =
        if k.state = .destroying ∧ x ≠ 0 then k.destroyTag.filter (·.1 != x.val) else none) := by
  refine ⟨h.seqExpect, h.formed, h.backlog, h.cqHead, h.cqTail, h.slots, hm, h.state, fun hk => (h.tag hk).trans ?_⟩
  rcases hp with ⟨rfl, rfl⟩ | ⟨rfl, hx, rfl⟩
  · rw [if_neg (fun hh => Bool.noConfusion hh.2), if_neg (fun hh => hh.2 rfl)]
  · by_cases hd : k.state = .destroying
    · rw [if_pos ⟨hd, rfl⟩, if_pos ⟨hd, hx⟩]
    · rw [if_neg (fun hh => hd hh.1), if_neg (fun hh => hd hh.1)]

/-- Settles O35: resets of a function, of the interface by the link, and by PERST_N. -/
theorem pcieResetsDestroyTheContexts : Obligations.PcieResetsDestroyTheContexts := by
  intro s
  refine ⟨?_, fun hu hh => ?_⟩
  · rintro cmd x (⟨rfl, hu⟩ | ⟨rfl, rfl, hu⟩ | ⟨rfl, rfl, hu, hh, hr, hrh⟩)
    · refine ⟨_, inHub_up _ _ hu, ?_⟩
      by_cases hx : x = 0
      · subst hx
        obtain ⟨⟨h1, h2, -⟩, hv⟩ := flrAll_doFunctionLevelReset s
        refine ⟨fun _ => hv, fun h => absurd rfl h, h1.trans (by simp), fun y _ => ?_⟩
        obtain ⟨hm, hf⟩ := h2 y (List.mem_finRange y)
        exact hf.clauses hm (.inl ⟨rfl, rfl⟩)
      · have hrun : doFunctionLevelReset x s = s.flrCtx x false := if_neg hx
        obtain ⟨h1, h2, h3, h4, h5, h6⟩ := flrEnds_flrCtx s x false
        rw [hrun]
        refine ⟨fun h => absurd h hx, fun _ => h4, h1.trans (by simp), fun y hy => ?_⟩
        obtain rfl : y = x := hy.resolve_right hx
        exact h6.clauses h2 (.inr ⟨rfl, hx, rfl⟩)
    · refine ⟨_, (inHub_up _ _ hu).trans (congrArg _ (if_pos hu)), ?_⟩
      obtain ⟨h1, h2, h3⟩ := pcieReset_spec s
      generalize s.pcieReset = u at h1 h2 h3 ⊢
      exact ⟨fun _ => h2, fun h => absurd rfl h, h1.trans (by simp), fun y _ => (h3 y).2.clauses (h3 y).1 (.inl ⟨rfl, rfl⟩)⟩
    · have hrun : doPerstN true s = (s.modClock (fun k => { k with perstHeld := true })).pcieReset := by
        unfold doPerstN
        rw [if_neg (by rw [hh]; decide), if_pos rfl]
        exact if_neg (by rw [hr, hrh]; decide)
      refine ⟨_, (inAon_up _ _ hu).trans (congrArg _ hrun), ?_⟩
      obtain ⟨h1, h2, h3⟩ := pcieReset_spec (s.modClock (fun k => { k with perstHeld := true }))
      generalize (s.modClock (fun k => { k with perstHeld := true })).pcieReset = u at h1 h2 h3 ⊢
      exact ⟨fun _ => h2, fun h => absurd rfl h, h1.trans (by simp), fun y _ => (h3 y).2.clauses (h3 y).1 (.inl ⟨rfl, rfl⟩)⟩
  · have hne : ¬ (false == s.clock.perstHeld) = true := by rw [hh]; decide
    have hrun : doPerstN false s = if (s.modClock (fun k => { k with perstHeld := false })).hubUp then
        (s.modClock (fun k => { k with perstHeld := false })).trainLink else s.modClock (fun k => { k with perstHeld := false }) := if_neg hne
    refine ⟨_, (inAon_up _ _ hu).trans (congrArg _ hrun), ?_⟩
    by_cases hup : (s.modClock (fun k => { k with perstHeld := false })).hubUp = true
    · rw [if_pos hup]
      obtain ⟨h1, h2, h3⟩ := trainLink_spec (s.modClock (fun k => { k with perstHeld := false }))
      exact ⟨h1, h2, fun _ => h3⟩
    · rw [if_neg hup]
      exact ⟨rfl, rfl, fun h => absurd h hup⟩

end Sys2Proof.Machine
end

section
/-! PROOFS. Hub resets and heartbeats (19). -/

namespace Sys2Proof.Machine

open Sys2Proof

/-! ## Hub resets and heartbeats (19, R470 to R472) -/

/-! ### A hub reset -/

theorem onlyWork_freePage (s : State) (p : Nat) : OnlyWork s (s.freePage p) := by
  unfold State.freePage
  dsimp only
  split
  · split
    · exact onlyWork_modTiers s _ (fun _ => ⟨rfl, rfl, rfl⟩)
    · refine OnlyWork.trans ?_ (onlyWork_clearDeep _ _)
      exact onlyWork_modTiers s _ (fun _ => ⟨rfl, rfl, rfl⟩)
  · exact onlyWork_modTiers s _ (fun _ => ⟨rfl, rfl, rfl⟩)

theorem onlyWork_releaseAll (s : State) (x : Fin 16) : OnlyWork s (s.releaseAll x) := by
  rw [releaseAll_eq]
  exact (onlyWork_foldl _ (fun s (e : Nat × HomeEntry) => onlyWork_freePage s e.1) _ s).trans
    (onlyWork_foldl (fun s c => s.modFeed c (fun f => f.dropCtx (s.cc x c) x)) (fun s c => onlyWork_modFeed s c _) _ _)

theorem onlyStops_wipeCtx (s : State) (x : Fin 16) : OnlyStops s (s.wipeCtx x) := by
  obtain ⟨hstop, -, -⟩ := stopWork_stops s x
  unfold State.wipeCtx State.makeNone
  exact ((hstop.trans (onlyStops_dropFabric _ x)).trans (onlyWork_releaseAll _ x).stops).trans
    ((onlyWork_modCtx _ x _).trans (onlyWork_modCtx _ x _)).stops

theorem hush_dropFabric (s : State) (x y : Fin 16) : Hush y s (s.dropFabric x) := hush_of_ctxs rfl

theorem hush_stopWork (s : State) {x y : Fin 16} (h : y ≠ x) : Hush y s (s.stopWork x) := by
  obtain ⟨u, hu, hrest⟩ := clearCores_rest (s.modCtx x Ctx.halted) x
  have hctx : Hush y (s.modCtx x Ctx.halted) u := hush_of_ctxs (by rw [hrest])
  have heq : ∃ f, s.stopWork x = ((u.dropFabric x).haltMoves x).modTiers f := by
    subst hu
    unfold State.stopWork
    exact ⟨_, rfl⟩
  obtain ⟨f, heq⟩ := heq
  rw [heq]
  exact ((((hush_modCtx s _ h).trans hctx).trans (hush_dropFabric u x y)).trans (hush_haltMoves (u.dropFabric x) h)).trans (hush_modTiers _ f)

theorem hush_wipeCtx (s : State) {x y : Fin 16} (h : y ≠ x) : Hush y s (s.wipeCtx x) := by
  have hstop := hush_stopWork s h
  unfold State.wipeCtx State.makeNone
  generalize s.stopWork x = u at hstop ⊢
  have hrel := (hstop.trans (hush_dropFabric u x y)).trans (hush_releaseAll _ x)
  generalize (u.dropFabric x).releaseAll x = v at hrel ⊢
  exact (hrel.trans (hush_modCtx _ _ h)).trans (hush_modCtx _ _ h)

/-- A context whose function a hub reset has returned to its reset values. -/
def Ctx.wiped : Ctx := { Ctx.blank with seqExpect := 1 }

/-- A hub reset of one function. -/
def State.wipeFunction (s : State) (x : Fin 16) : State := (s.wipeCtx x).resetFunction x

theorem wipeFunction_own (s : State) (x : Fin 16) : (s.wipeFunction x).ctx x = Ctx.wiped := by
  have hblank : (s.wipeCtx x).ctx x = Ctx.blank := State.modCtx_same _ x _
  unfold State.wipeFunction
  generalize s.wipeCtx x = u at hblank
  have hown : (u.resetFunction x).ctx x = { u.ctx x with
      lastReason := 0, seqExpect := 1, lastRefused := 0, cqHead := 0, cqTail := 0, formed := [], backlog := []
      owedOverflow := false, lateWrites := 0, sealRefused := 0, eventsDropped := 0
      slots := (u.ctx x).slots.map (fun m => { m with state := .free }) } := State.modCtx_same _ x _
  rw [hown, hblank]
  decide +kernel

theorem hush_resetFunction (s : State) {x y : Fin 16} (h : y ≠ x) : Hush y s (s.resetFunction x) :=
  ⟨fun _ => State.modCtx_other _ x y _ h⟩

theorem hush_wipeFunction (s : State) {x y : Fin 16} (h : y ≠ x) : Hush y s (s.wipeFunction x) :=
  (hush_wipeCtx s h).trans (hush_resetFunction _ h)

/-- Only the contexts, their MSI-X state and what stopped work may touch differ. -/
structure Wipes (s t : State) : Prop where
  clock : t.clock = s.clock
  links : t.links = s.links
  blks : t.blks = s.blks

theorem Wipes.trans {s t u : State} (h : Wipes s t) (k : Wipes t u) : Wipes s u :=
  ⟨k.clock.trans h.clock, k.links.trans h.links, k.blks.trans h.blks⟩

theorem wipes_wipeFunction (s : State) (x : Fin 16) : Wipes s (s.wipeFunction x) := by
  have h := onlyStops_wipeCtx s x
  unfold State.wipeFunction
  generalize s.wipeCtx x = u at h ⊢
  obtain ⟨-, -, -, -, -, hblks, hlinks, -, -, hclock, -⟩ := (onlyWork_iff _ _).1 h
  exact Wipes.mk hclock hlinks hblks

theorem foldl_wipeFunction (l : List (Fin 16)) (s : State) : Wipes s (l.foldl State.wipeFunction s) ∧
    ∀ y, y ∈ l ∨ s.ctx y = Ctx.wiped → (l.foldl State.wipeFunction s).ctx y = Ctx.wiped := by
  induction l generalizing s with
  | nil => exact ⟨⟨rfl, rfl, rfl⟩, fun y h => h.resolve_left List.not_mem_nil⟩
  | cons x l ih =>
    have hstep := wipes_wipeFunction s x
    have hown := wipeFunction_own s x
    have hush := fun y (hx : y ≠ x) => hush_wipeFunction s hx
    rw [List.foldl_cons]
    generalize s.wipeFunction x = u at hstep hown hush ⊢
    obtain ⟨h1, h2⟩ := ih u
    refine ⟨hstep.trans h1, fun y hy => h2 y ?_⟩
    by_cases hx : y = x
    · rw [hx]
      exact .inr hown
    · rcases hy with hy | hy
      · exact .inl ((List.mem_cons.1 hy).resolve_left hx)
      · exact .inr (((hush y hx).stays (by rw [hy]; exact .inl rfl)).trans hy)

/-- What a hub reset does once the functions are wiped: the hub's own registers, the sessions, the role and the clock. -/
def State.hubCleared (s : State) (due : Bool) (at_ : Nat) : State :=
  let s2 := { s with hub := { s.hub with vfEnable := false, maxPayload := 128, turn := 15, badSlots := [] } }
  let s3 := s2.modSec (fun t => let u := if due then t.runBoot else t; { u with spdm := u.spdm.filter (fun q => q.who != 0) })
  let s4 := s3.modRoles (fun r => match r.record with | some b => Roles.ofRecord b none | none => r)
  (s4.modClock (fun k => { k with resetDone := true, lastBeat := at_ })).modBoard (fun b => { b with pcieStatus := 0 })

theorem hubWiped_spec (s : State) : s.hubWiped.clock = { s.clock with resetDone := true, lastBeat := s.pilot } ∧
    (∀ x, s.hubWiped.ctx x = Ctx.wiped) ∧ s.hubWiped.links = s.links ∧ s.hubWiped.blks = s.blks := by
  obtain ⟨hwipes, hctx⟩ := foldl_wipeFunction (List.finRange 16) s.flushAll
  have heq : s.hubWiped = ((List.finRange 16).foldl State.wipeFunction s.flushAll).hubCleared s.sec.hubResetAt.isSome s.pilot := by
    have hf : (fun s x => (State.wipeCtx s x).resetFunction x) = State.wipeFunction := rfl
    unfold State.hubWiped
    rw [hf]
    generalize (List.finRange 16).foldl State.wipeFunction s.flushAll = u
    rfl
  rw [heq]
  generalize (List.finRange 16).foldl State.wipeFunction s.flushAll = u at hwipes hctx ⊢
  obtain ⟨hclock, hlinks, hblks⟩ := hwipes
  exact ⟨congrArg (fun k : Clock => { k with resetDone := true, lastBeat := s.pilot }) hclock,
    fun x => hctx x (.inl (List.mem_finRange x)), hlinks, hblks⟩

/-! ### A heartbeat that does not come -/

theorem OnlyStops.nmiFatal {s t : State} (h : OnlyStops s t) : t.faults.nmiFatal = s.faults.nmiFatal := by
  unfold OnlyStops OnlyWork at h
  rw [h]

/-- A module that becomes fatal keeps its ring and sets the second cause. -/
theorem enterFatal_enters {s : State} (hf : s.faults.fatal = false) (reason : Nat) (rseq : W32) :
    (s.enterFatal reason rseq).faults.ring = s.faults.ring ∧ (s.enterFatal reason rseq).faults.nmiFatal = true := by
  have h := onlyStops_foldl (fun (s : State) (x : Fin 16) => s.kill x reason rseq) (List.finRange 16)
    (fun s x => onlyStops_kill s x reason rseq) (s.modFaults (fun t => { t.setCause 1 s.pilot with fatal := true }))
  have heq : s.enterFatal reason rseq = ((List.finRange 16).foldl (fun s x => s.kill x reason rseq)
      (s.modFaults (fun t => { t.setCause 1 s.pilot with fatal := true }))).nonMaskable := if_neg (by simp [hf])
  rw [heq, nonMaskable_faults]
  exact ⟨h.ring.1, h.nmiFatal.trans (Bool.or_true _)⟩

/-- What reports a fatal fault leaves its entry in the ring. -/
theorem fatalNow_ring {s : State} {n : Nat} {e : RingEntry} (hf : s.faults.fatal = false) (hr : s.faults.ring = [(n, e)]) :
    (s.fatalNow e).faults.nmiFatal = true ∧ ∃ e', (s.fatalNow e).faults.ring = [(n, e')] ∧ e'.fault = e.fault := by
  have enters (u : State) (e' : RingEntry) (hu : u.faults.fatal = false) (hring : u.faults.ring = [(n, e')])
      (he : e'.fault = e.fault) : (u.enterFatal e.fault.reason e.rseq).faults.nmiFatal = true ∧
      ∃ e', (u.enterFatal e.fault.reason e.rseq).faults.ring = [(n, e')] ∧ e'.fault = e.fault := by
    obtain ⟨h1, h2⟩ := enterFatal_enters hu e.fault.reason e.rseq
    exact ⟨h2, e', h1.trans hring, he⟩
  unfold State.fatalNow
  rw [if_neg (by simp [hf])]
  dsimp only
  split
  next dst epoch h =>
    split
    · have hsend := onlyStops_sendLast s dst 0x0B epoch (s.cper e)
      have hfaults : (s.sendLast dst 0x0B epoch (s.cper e)).faults.fatal = false := by
        unfold OnlyStops OnlyWork at hsend
        rw [hsend]
        exact hf
      have hring := hsend.ring.1.trans hr
      refine enters _ hfaults (e' := { e with mgrSent := true }) ?_ rfl
      rw [modRing_eq]
      show List.map _ _ = _
      rw [hring, List.map_cons, List.map_nil, if_pos rfl]
    · exact enters s e hf hr rfl
  · exact enters s e hf hr rfl

theorem recordFault_ring {s : State} {f : FaultRec} (hr : s.faults.ring = []) (hn : s.faults.fatal = false) (hf : f.severity = 3) :
    (s.recordFault f).faults.nmiFatal = true ∧
      ∃ e, (s.recordFault f).faults.ring = [(s.faults.rseqNext.toNat % 4096, e)] ∧ e.fault = f := by
  unfold State.recordFault
  simp only [State.modFaults, hr, List.find?_nil, alookup, Bool.false_eq_true, if_false, if_pos hf]
  exact fatalNow_ring hn rfl

/-- The fault of a lamplighter that stays silent. -/
def State.silentLamp (s : State) : FaultRec := { s.faultNow 3 0x070D 0x0A with unitKind := 9, unit := 30 }

theorem doLlHeartbeatLoss_fatal {s : State} (hs : 5 ≤ s.clock.stage) (hr : s.clock.resetting = none) (hh : s.clock.resetHeld = false)
    (hf : s.faults.fatal = false) (hb : s.clock.lastBeat + 50000000 ≤ s.pilot) :
    doLlHeartbeatLoss s = s.recordFault s.silentLamp := by
  unfold doLlHeartbeatLoss
  rw [hr, hh, hf]
  simp only [Option.isSome_none, Bool.or_false]
  exact if_neg (by simp; omega)

theorem doLlHeartbeat_ends {s : State} (hs : 5 ≤ s.clock.stage) (hm : s.moduleAsked = false) (hd : s.clock.resetDone = true)
    (hp : s.clock.perstHeld = true) : ∃ t, doLlHeartbeat s = t ∧ t.clock = { s.clock with
      beats := satAdd s.clock.beats 1, lastBeat := s.pilot, resetting := none, resetDone := false } ∧ t.hub = s.hub := by
  unfold doLlHeartbeat
  rw [if_neg (by simp [State.hubAsked, hm, hd]; omega)]
  dsimp only
  rw [if_pos hd, if_pos hp]
  refine ⟨_, rfl, ?_, ?_⟩
  · simp only [State.modRoles, State.modSec, State.modClock]
  · simp only [State.modRoles, State.modSec, State.modClock]

/-- Settles O37: the hub is wiped of every context, and the lamplighter's heartbeats end the reset or are missed. -/
theorem hubResetsAndHeartbeats : Obligations.HubResetsAndHeartbeats := by
  intro s
  refine ⟨fun hu ha ⟨a, hr⟩ hd => ?_, fun hu hs hr hd => ?_, fun hu hs hd hp => ?_, fun hu hs hr hf hring hb => ?_⟩
  · have hasked : s.hubAsked = true := by simp [State.hubAsked, hr, hd]
    have heq : doHubReset s = s.hubWiped := by
      unfold doHubReset
      simp only [hasked, Bool.true_or, if_true]
    obtain ⟨hclock, hctx, hlinks, hblks⟩ := hubWiped_spec s
    exact ⟨_, (inH1_up _ _ hu).trans (congrArg _ heq), hclock, hctx, hlinks, hblks⟩
  · refine (inDies_up _ _ hu).trans (congrArg _ ?_)
    unfold doLlHeartbeat
    rw [if_neg (by simp [State.moduleAsked, State.hubAsked, hr]; omega)]
    exact if_neg (by simp [hd])
  · have hm := (h1Up_clock (by simp only [State.diesUp, Bool.and_eq_true] at hu; exact hu.1)).2.2
    obtain ⟨u, heq, hclock, hhub⟩ := doLlHeartbeat_ends hs hm hd hp
    exact ⟨u, (inDies_up _ _ hu).trans (congrArg Host.Outcome.next heq), hclock, hhub⟩
  · have hh := (h1Up_clock hu).2.1
    obtain ⟨hnmi, e, hring', he⟩ := recordFault_ring hring hf (f := s.silentLamp) rfl
    have hfatal := recordFault_fatal hring (f := s.silentLamp) rfl
    have heq := doLlHeartbeatLoss_fatal hs hr hh hf hb
    generalize s.recordFault s.silentLamp = u at hnmi hring' hfatal heq
    have hrun : exec .llHeartbeatLoss s = .next u := (inH1_up _ _ hu).trans (congrArg Host.Outcome.next heq)
    exact ⟨u, hrun, hfatal, hnmi, e, hring', congrArg FaultRec.reason he, congrArg FaultRec.severity he⟩

end Sys2Proof.Machine
end

section
/-! PROOFS. The stages of a start (19, 20). -/

namespace Sys2Proof.Machine

open Sys2Proof

/-! ## The stages of a start (19, R468, R473 to R475; 20, R481) -/

section
variable {s : State}

theorem doStartStage_plain (hs : s.starting = true) (h : s.clock.stage = 1 ∨ s.clock.stage = 6 ∨ (s.clock.stage = 8 ∧ s.windowClosed = true)) :
    doStartStage .plain s = s.nextStage := by
  rcases h with h | h | ⟨h, hw⟩
  · unfold doStartStage
    rw [hs, h]
    rfl
  · unfold doStartStage
    rw [hs, h]
    rfl
  · unfold doStartStage
    rw [hs, h]
    exact if_pos hw

theorem crystalPasses_of {counts : List Nat} (hl : counts.length = 4)
    (h : ∀ n ∈ counts, 98000 ≤ n ∧ n ≤ 102000 ∧ ∀ m ∈ counts, n ≤ m + 5) : crystalPasses counts = true := by
  simp only [crystalPasses, hl, beq_self_eq_true, Bool.true_and, Bool.and_eq_true, List.all_eq_true, decide_eq_true_eq]
  exact ⟨fun n hn => ⟨(h n hn).1, (h n hn).2.1⟩, fun n hn => (h n hn).2.2⟩

/-- A crystal whose counts pass ends stage 3 with its frequency as the calibration. -/
theorem doStartStage_crystal (hs : s.starting = true) (h3 : s.clock.stage = 3) (hc : s.crystalCounted = true) {counts : List Nat}
    (hp : crystalPasses counts = true) (hz : Nat) : doStartStage (.crystal counts hz) s = { s with clock := { s.clock with
      xtalPassed := true, calibrated := hz, calAt := s.pilot, stage := 4, stageAt := s.pilot } } := by
  unfold doStartStage
  rw [hs, h3]
  show s.endCrystal counts hz = _
  unfold State.endCrystal
  rw [hc, hp]
  show (s.modClock _).nextStage = _
  simp only [State.nextStage, State.modClock, h3]

theorem bankReason_ne {t : Sec} {b : Fin 2} {found : Nat} (h : found ≠ 0) : t.bankReason b found ≠ 0 := by
  unfold Sec.bankReason
  split
  · exact h
  · split
    · decide
    · exact h

theorem bankReason_failed (t : Sec) (b : Fin 2) : t.bankReason b 0x080D = 0x080D := if_pos rfl

/-- With neither bank to run, the start stops. -/
theorem doStartStage_noBank (hs : s.starting = true) (h2 : s.clock.stage = 2) {other : Nat} (ho : other ≠ 0) (areaOk identityOk : Bool)
    (rs : List (List Byte)) : doStartStage (.verified 0x080D other areaOk identityOk rs) s = s.stopStart 0x080D := by
  unfold doStartStage
  rw [hs, h2]
  show s.endVerify 0x080D other areaOk identityOk rs = _
  unfold State.endVerify
  simp only [bankReason_failed]
  exact if_pos ⟨by decide, bankReason_ne ho⟩

/-- What a module that becomes ready leaves as it is, but for its tests. -/
structure TimesTests (s t : State) : Prop where
  clock : t.clock = s.clock
  hub : t.hub = s.hub

theorem timesTests_foldl (f : Fin 4 → Ift → Ift) (l : List (Fin 4)) (s : State) :
    TimesTests s (l.foldl (fun s c => s.modIft c (f c)) s) :=
  frame_foldl (R := TimesTests) (fun _ => ⟨rfl, rfl⟩) (fun h k => ⟨k.clock.trans h.clock, k.hub.trans h.hub⟩)
    (fun s c => s.modIft c (f c)) l (fun _ _ _ => ⟨rfl, rfl⟩) s

theorem doStartStage_ready (hs : s.starting = true) (h9 : s.clock.stage = 9) : ∃ t, doStartStage .plain s = t ∧ t.hub = s.hub ∧
    t.roles.readyAt = some s.pilot ∧ t.clock = { s.clock with ready := true, startReason := 0 } := by
  refine ⟨s.becomeReady, ?_, ?_⟩
  · unfold doStartStage
    rw [hs, h9]
    rfl
  unfold State.becomeReady
  dsimp only
  have h := timesTests_foldl (fun c t => { t with nextMinute := s.faults.minute.toNat + t.period * (c.val + 1) / 4 }) (List.finRange 4)
    ((s.modClock (fun k => { k with ready := true, startReason := 0 })).modSec Sec.raiseFloor)
  generalize (List.finRange 4).foldl _ _ = u at h ⊢
  exact ⟨h.hub, rfl, h.clock⟩

end

/-- Settles O38: each stage ends at its word, and what fails or is late stops the start. -/
theorem theStartRunsItsStages : Obligations.TheStartRunsItsStages := by
  intro s hu hs
  have run {f t} (h : f s = t) : inH1 f s = .next t := (inH1_up _ _ hu).trans (congrArg _ h)
  refine ⟨fun h => run (doStartStage_plain hs h), fun hz a b c d h3 hc hp => ?_, fun h9 => ?_, fun other areaOk identityOk rs h2 ho => ?_,
    fun hlate => ?_⟩
  · exact run (doStartStage_crystal hs h3 (decide_eq_true hc) (crystalPasses_of rfl hp) hz)
  · obtain ⟨t, heq, h⟩ := doStartStage_ready hs h9
    exact ⟨t, run heq, h⟩
  · exact run (doStartStage_noBank hs h2 ho areaOk identityOk rs)
  · exact run (if_pos (by simp [hs, hlate]))

end Sys2Proof.Machine
end

section
/-! PROOFS. Ports and their lanes (14, 16, 19). -/

namespace Sys2Proof.Machine

open Sys2Proof

/-! ## Ports (14, R347; 16, R407; 19, R460, R461) -/

section
variable {s : State} {p : Fin 16}

theorem modPort_same (s : State) (p : Fin 16) (f : Port → Port) :
    ((s.modPort p f).links[dieOfPort p]).ports[ix 4 (p.val % 4)] = f (s.links[dieOfPort p]).ports[ix 4 (p.val % 4)] := by
  unfold State.modPort State.modLink
  rw [vmod_same]
  exact vmod_same _ _ f

/-- A port of an enabled link die that holds the service is up. -/
theorem portUp_of_links {t : State} (he : s.blks[ix 36 (32 + p.val / 4)].enabled = true) (hb : t.blks = s.blks)
    {f : Port → Port} (hl : t.links = (s.modPort p f).links) (hf : ∀ k, (f k).inService = true) : t.portUp p = true := by
  unfold State.portUp
  rw [hb, hl, he, modPort_same, hf]
  rfl

theorem doPortInService_enters (he : s.blks[ix 36 (32 + p.val / 4)].enabled = true)
    (hr : (s.links[dieOfPort p]).ports[ix 4 (p.val % 4)].retired = false) (hc : s.clock.source ≠ 2) :
    doPortInService p s = (s.modPort p (fun k => { k with inService := true, training := false })).pumpAll := by
  unfold doPortInService
  dsimp only
  rw [he, hr]
  exact if_neg (by simp [hc])

theorem afterPorts_of_recDisabled (h : s.recEnabled = false) (t : State) : s.afterPorts t = t := if_neg (by simp [State.refLost, h])

theorem doPortAlignmentLoss_leaves (hi : (s.links[dieOfPort p]).ports[ix 4 (p.val % 4)].inService = true) (h : s.recEnabled = false) :
    doPortAlignmentLoss p none s = s.modPort p (fun k => { k with inService := false, training := true }) := by
  unfold doPortAlignmentLoss
  dsimp only
  rw [hi]
  exact afterPorts_of_recDisabled h _

/-- What changes faults only loses no reference. -/
theorem afterPorts_of_faults {t : State} (h : t = { s with faults := t.faults }) : s.afterPorts t = t := by
  refine if_neg ?_
  have hup : t.portUp t.refPort = s.portUp s.refPort := by
    rw [h]
    rfl
  unfold State.refLost State.recEnabled
  rw [hup]
  simp +contextual

/-! ### Transients of a lane -/

theorem find?_putHist (e : HistEntry) (l : List HistEntry) :
    (putHist e l).find? (fun f => f.kind = e.kind && f.unit == e.unit) = some e := by
  induction l with
  | nil => simp [putHist]
  | cons f l ih =>
    unfold putHist
    split
    · simp
    next h => simpa only [List.find?_cons, Bool.eq_false_of_not_eq_true h] using ih

theorem histOf_key (s : State) (kind unit : Nat) : (s.histOf kind unit).kind = kind ∧ (s.histOf kind unit).unit = unit := by
  unfold State.histOf
  cases h : s.faults.history.find? (fun f => f.kind = kind && f.unit == unit) with
  | none => exact ⟨rfl, rfl⟩
  | some e => simpa using List.find?_some h

/-- What the store of a history entry leaves: the history and the ring. -/
structure StoresHist (s t : State) : Prop where
  rest : t = { s with faults := t.faults }
  history : t.faults.history = s.faults.history
  ring : t.faults.ring = s.faults.ring

theorem storeHist_spec (s : State) (e : HistEntry) : StoresHist s (s.storeHist e) := by
  unfold State.storeHist
  split
  · split <;> exact ⟨rfl, rfl, rfl⟩
  · exact ⟨rfl, rfl, rfl⟩

/-- A history with room, or with the entry's unit, takes the entry. -/
theorem writeHist_takes {e : HistEntry}
    (h : s.faults.history.any (fun f => f.kind = e.kind && f.unit == e.unit) = true ∨ s.faults.history.length < 65536) :
    s.writeHist e = ((s.modFaults (fun t => { t with history := putHist e s.faults.history })).storeHist e, true) := by
  unfold State.writeHist
  exact if_pos (by simpa only [Bool.or_eq_true, decide_eq_true_eq] using h)

/-- A transient of a unit with fewer than two times is noted and makes nothing permanent. -/
theorem transient_notes {kind unit minute : Nat} (ht : (s.histOf kind unit).times.length < 2)
    (h : s.faults.history.any (fun f => f.kind = kind && f.unit == unit) = true ∨ s.faults.history.length < 65536) :
    ∃ t, s.transient kind unit minute 1 = t ∧ t = { s with faults := t.faults } ∧ t.faults.ring = s.faults.ring ∧
      t.histOf kind unit = { s.histOf kind unit with
        count := satAdd (s.histOf kind unit).count 1, times := minute :: (s.histOf kind unit).times } := by
  obtain ⟨hk, hu⟩ := histOf_key s kind unit
  have htimes : (List.replicate (min 1 3) minute ++ (s.histOf kind unit).times).take 3 = minute :: (s.histOf kind unit).times :=
    List.take_of_length_le (by simp; omega)
  unfold State.transient
  dsimp only
  rw [htimes]
  generalize he : { s.histOf kind unit with
      count := satAdd (s.histOf kind unit).count 1, times := minute :: (s.histOf kind unit).times } = e
  have hek : e.kind = kind := he ▸ hk
  have heu : e.unit = unit := he ▸ hu
  subst hek heu
  obtain ⟨hrest, hhist, hring⟩ := storeHist_spec (s.modFaults (fun t => { t with history := putHist e s.faults.history })) e
  rw [writeHist_takes h]
  generalize (s.modFaults (fun t => { t with history := putHist e s.faults.history })).storeHist e = u at hrest hhist hring ⊢
  refine ⟨u, ?_, hrest, hring, ?_⟩
  · rcases htl : (s.histOf e.kind e.unit).times with _ | ⟨t1, _ | ⟨t2, l⟩⟩
    · rfl
    · rfl
    · rw [htl] at ht
      exact absurd ht (by simp)
  · unfold State.histOf
    rw [hhist]
    show ((putHist e s.faults.history).find? _).getD _ = e
    rw [find?_putHist]
    rfl

end

/-- Settles O40: a port that is trained or loses its alignment changes by itself, and a lane's transient goes to the history. -/
theorem portsEnterAndLeaveService : Obligations.PortsEnterAndLeaveService := by
  intro s p hu
  have run {f t} (h : f s = t) : inDies f s = .next t := (inDies_up _ _ hu).trans (congrArg _ h)
  refine ⟨fun he hr hc => ?_, fun hi h => run (doPortAlignmentLoss_leaves hi h), fun d lane u hl ht hroom => ?_⟩
  · have heq := doPortInService_enters he hr hc
    have hp := onlyFabric_pumpAll (s.modPort p (fun k => { k with inService := true, training := false }))
    generalize (s.modPort p (fun k => { k with inService := true, training := false })).pumpAll = t at heq hp
    have hb : t.blks = s.blks := by rw [hp]; rfl
    have hl : t.links = (s.modPort p (fun k => { k with inService := true, training := false })).links := by rw [hp]
    exact ⟨t, run heq, portUp_of_links he hb hl (fun _ => rfl), hp⟩
  · subst hl
    obtain ⟨t, heq, hrest, hring, hhist⟩ := transient_notes (minute := s.faults.minute.toNat) ht hroom
    refine ⟨t, run ?_, hrest, hhist, hring⟩
    unfold doLaneSymbolErrorRatio linkLaneUnit
    rw [heq]
    exact afterPorts_of_faults hrest

end Sys2Proof.Machine
end

section
/-! PROOFS. Blocks: their check, ENABLE and pending values (00, 12, 21). -/

namespace Sys2Proof.Machine

open Sys2Proof

/-! ## Blocks: their check, ENABLE and pending values (00, R12, R13; 12, R322; 21, R499, R501) -/

/-! ### The kinds of blocks -/

theorem ix_of_val {n : Nat} [NeZero n] {i : Fin n} {v : Nat} (h : i.val = v) : ix n v = i := by
  subst h
  exact Fin.ofNat_val_eq_self i

/-- The seven kinds of blocks and their numbers. -/
inductive BlkIs (b : Fin 36) : Prop
  | base (h : b.val < 2) (hid : blockId b = (b.val + 1, 0))
  | core (c : Fin 4) (h : b.val = 2 + c.val) (hid : blockId b = (3, c.val))
  | side (n : Fin 4) (h : b.val = 6 + n.val) (hid : blockId b = (4, n.val))
  | array (a : Fin 8) (h : b.val = 10 + a.val) (hid : blockId b = (5, a.val))
  | stack (n : Fin 12) (h : b.val = 18 + n.val) (hid : blockId b = (6, n.val))
  | deep (d : Fin 2) (h : b.val = 30 + d.val) (hid : blockId b = (7, d.val))
  | link (l : Fin 4) (h : b.val = 32 + l.val) (hid : blockId b = (8, l.val))

theorem blkIs (b : Fin 36) : BlkIs b := by
  obtain ⟨i, hi⟩ := b
  have hid : blockId ⟨i, hi⟩ = if i < 2 then (i + 1, 0) else if i < 6 then (3, i - 2) else if i < 10 then (4, i - 6)
    else if i < 18 then (5, i - 10) else if i < 30 then (6, i - 18) else if i < 32 then (7, i - 30) else (8, i - 32) := rfl
  split_ifs at hid with h1 h2 h3 h4 h5 h6
  · exact .base h1 hid
  · exact .core ⟨i - 2, by omega⟩ (by simp; omega) hid
  · exact .side ⟨i - 6, by omega⟩ (by simp; omega) hid
  · exact .array ⟨i - 10, by omega⟩ (by simp; omega) hid
  · exact .stack ⟨i - 18, by omega⟩ (by simp; omega) hid
  · exact .deep ⟨i - 30, by omega⟩ (by simp; omega) hid
  · exact .link ⟨i - 32, by omega⟩ (by simp; omega) hid

section
variable {s : State} {b : Fin 36}

theorem modBlk_same (s : State) (b : Fin 36) (f : Blk → Blk) : (s.modBlk b f).blks[b] = f s.blks[b] := vmod_same _ _ _

theorem onlyBlk_modBlk (s : State) (b : Fin 36) (f : Blk → Blk) : OnlyBlk b s (s.modBlk b f) := ⟨rfl, fun _ hk => vmod_other _ _ _ _ hk⟩

theorem OnlyBlk.refl (s : State) (b : Fin 36) : OnlyBlk b s s := ⟨rfl, fun _ _ => rfl⟩

theorem OnlyBlk.trans {s t u : State} (h : OnlyBlk b s t) (k : OnlyBlk b t u) : OnlyBlk b s u := by
  obtain ⟨h1, h2⟩ := h
  obtain ⟨k1, k2⟩ := k
  refine ⟨?_, fun j hj => (k2 j hj).trans (h2 j hj)⟩
  rw [h1] at k1
  exact k1

/-! ### Pending values -/

/-- What putting the pending values of a block in force may touch. -/
structure AppliesRws (b : Fin 36) (s t : State) : Prop where
  rest : t = { s with blks := t.blks, cores := t.cores, hbm := t.hbm, tiers := t.tiers }
  others : ∀ j, j ≠ b → t.blks[j] = s.blks[j]
  own : t.blks[b] = { s.blks[b] with updatePending := false }
  applied : Applied b s t
  banks : ∀ n : Fin 12, b.val ≠ 18 + n.val → t.stack n = s.stack n

/-- Pending values of a block that has none: its mark is cleared. -/
theorem applied_none {t : State} (h : b.val < 2 ∨ (6 ≤ b.val ∧ b.val < 18) ∨ 32 ≤ b.val) : Applied b s t :=
  ⟨fun c hc => by omega, fun n hn => by omega, fun d hd => by omega⟩

theorem appliesRws_mark (h : b.val < 2 ∨ (6 ≤ b.val ∧ b.val < 18) ∨ 32 ≤ b.val) :
    AppliesRws b s (s.modBlk b (fun k => { k with updatePending := false })) :=
  ⟨rfl, (onlyBlk_modBlk s b _).2, modBlk_same s b _, applied_none h, fun _ _ => rfl⟩

/-- The mark of pending values is cleared. -/
def State.unmarked (s : State) (b : Fin 36) : State := s.modBlk b (fun k => { k with updatePending := false })

/-- The values that a stack takes at its boundary. -/
def StackS.applied (t : StackS) : StackS :=
  { t with ctrl := { t.ctrl with wcbAge := t.shadow.wcbAge, wcbHigh := t.shadow.wcbHigh, scrubH := t.shadow.scrubH } }

theorem applyRws_eq (s : State) (b : Fin 36) {k n : Nat} (hid : blockId b = (k, n)) : s.applyRws b =
    if k = 3 then (s.unmarked b).coreRws (ix 4 n)
    else if k = 6 then (s.unmarked b).modStack (ix 12 n) StackS.applied
    else if k = 7 then (s.unmarked b).modTiers (fun t => { t with deepLow := vmod t.deepLow (ix 2 n) (fun _ => t.deepLowNext[ix 2 n]) })
    else s.unmarked b := by
  unfold State.applyRws
  rw [hid]
  dsimp only
  split
  · rfl
  · rfl
  · rfl
  next h3 h6 h7 => rw [if_neg h3, if_neg h6, if_neg h7]; rfl

theorem appliesRws_applyRws (s : State) (b : Fin 36) : AppliesRws b s (s.applyRws b) := by
  have mark (h : b.val < 2 ∨ (6 ≤ b.val ∧ b.val < 18) ∨ 32 ≤ b.val) {k n : Nat} (hid : blockId b = (k, n)) (h3 : k ≠ 3) (h6 : k ≠ 6)
      (h7 : k ≠ 7) : AppliesRws b s (s.applyRws b) := by
    rw [applyRws_eq s b hid, if_neg h3, if_neg h6, if_neg h7]
    exact appliesRws_mark h
  cases blkIs b with
  | base h hid => exact mark (.inl h) hid (by omega) (by omega) (by omega)
  | core c h hid =>
    rw [applyRws_eq s b hid, if_pos rfl, ix_of_val (rfl : c.val = c.val)]
    have hblks : ((s.unmarked b).coreRws c).blks = vmod (s.unmarked b).blks b (fun k => { k with updatePending := false }) :=
      congrArg (vmod (s.unmarked b).blks · (fun k => { k with updatePending := false })) (ix_of_val h)
    refine ⟨rfl, fun j hj => ?_, ?_, ⟨fun e he => ?_, fun n hn => ?_, fun d hd => ?_⟩, fun _ _ => rfl⟩
    · rw [hblks]
      exact (vmod_other _ _ _ _ hj).trans ((onlyBlk_modBlk s b _).2 j hj)
    · rw [hblks, vmod_same]
      exact congrArg (fun k : Blk => { k with updatePending := false }) (modBlk_same s b _)
    · have hec : e = c := Fin.ext (by omega)
      subst hec
      exact congrArg (fun k : CoreS => k.ift.period) (vmod_same s.cores e _)
    · omega
    · omega
  | side n h hid => exact mark (by omega) hid (by decide) (by decide) (by decide)
  | array a h hid => exact mark (by omega) hid (by decide) (by decide) (by decide)
  | stack n h hid =>
    rw [applyRws_eq s b hid, if_neg (by decide), if_pos rfl, ix_of_val (rfl : n.val = n.val)]
    refine ⟨rfl, (onlyBlk_modBlk s b _).2, modBlk_same s b _, ⟨fun c hc => by omega, fun m hm => ?_, fun d hd => by omega⟩, fun m hm => ?_⟩
    · have hmn : m = n := Fin.ext (by omega)
      subst hmn
      exact congrArg StackS.ctrl (vmod_same s.hbm m _)
    · exact vmod_other s.hbm n m _ (fun hmn => hm (by rw [hmn]; exact h))
  | deep d h hid =>
    rw [applyRws_eq s b hid, if_neg (by decide), if_neg (by decide), if_pos rfl]
    have hix : ix 2 d.val = d := ix_of_val rfl
    simp only [hix]
    refine ⟨rfl, (onlyBlk_modBlk s b _).2, modBlk_same s b _, ⟨fun c hc => by omega, fun m hm => by omega, fun e he => ?_⟩, fun _ _ => rfl⟩
    have hed : e = d := Fin.ext (by omega)
    subst hed
    exact vmod_same s.tiers.deepLow e _
  | link l h hid => exact mark (by omega) hid (by decide) (by decide) (by decide)

/-! ### The ports of a block that leaves -/

/-- Ports stay out of service, and no block's header changes. -/
structure KeepsOut (s t : State) : Prop where
  blks : t.blks = s.blks
  out : ∀ l p : Fin 4, (s.links[l]).ports[p].inService = false ∧ (s.links[l]).ports[p].training = false →
    (t.links[l]).ports[p].inService = false ∧ (t.links[l]).ports[p].training = false

theorem KeepsOut.refl (s : State) : KeepsOut s s := ⟨rfl, fun _ _ h => h⟩

theorem KeepsOut.trans {s t u : State} (h : KeepsOut s t) (k : KeepsOut t u) : KeepsOut s u :=
  ⟨k.blks.trans h.blks, fun l p hp => k.out l p (h.out l p hp)⟩

theorem keepsOut_of_links {s t : State} (hb : t.blks = s.blks) (hl : t.links = s.links) : KeepsOut s t :=
  ⟨hb, fun l p h => by rw [hl]; exact h⟩

theorem keepsOut_markFailed (s : State) (i : Fin 3) : KeepsOut s (s.markFailed i) := keepsOut_of_links rfl rfl

theorem keepsOut_portsOut (s : State) : KeepsOut s s.portsOut := by
  refine ⟨rfl, fun l p _ => ?_⟩
  have h : (s.portsOut.links[l]).ports[p] = { (s.links[l]).ports[p] with inService := false, training := false } := by
    simp [State.portsOut]
  rw [h]
  exact ⟨rfl, rfl⟩

theorem keepsOut_startPause (s : State) : KeepsOut s s.startPause := keepsOut_of_links rfl rfl

theorem keepsOut_switchTo (s : State) (i : Fin 3) : KeepsOut s (s.switchTo i) := by
  unfold State.switchTo
  split
  · exact KeepsOut.refl s
  · split
    · exact keepsOut_of_links rfl rfl
    · dsimp only
      have hs : KeepsOut s ((s.modSource i (fun q => { q with switches := satAdd q.switches 1 })).modClock (fun k => { k with
        source := i, limited := i == 2, holdover := false })) := keepsOut_of_links rfl rfl
      split
      · refine KeepsOut.trans ?_ (keepsOut_startPause _)
        split
        · exact (hs.trans (keepsOut_portsOut _)).trans (keepsOut_markFailed _ _)
        · exact hs.trans (keepsOut_portsOut _)
      · split
        · exact hs.trans (keepsOut_startPause _)
        · exact hs

theorem keepsOut_clockNmi (s : State) : KeepsOut s s.clockNmi := by
  unfold State.clockNmi State.nonMaskable State.event
  rw [post_rest]
  exact keepsOut_of_links rfl rfl

theorem keepsOut_afterPorts (s t : State) : KeepsOut t (s.afterPorts t) := by
  unfold State.afterPorts State.sourcesFail State.reselect
  split
  · dsimp only
    split
    · exact ((keepsOut_markFailed t 0).trans (keepsOut_switchTo _ _)).trans (keepsOut_clockNmi _)
    · exact keepsOut_markFailed t 0
  · exact KeepsOut.refl t

/-- An array out of service. -/
def ArrayS.out (t : ArrayS) : ArrayS := { t with inService := false }

/-- A link die with its ports out of service. -/
def LinkS.out (k : LinkS) : LinkS := { k with ports := k.ports.map (fun p => { p with inService := false, training := false }) }

theorem onDisabled_eq (s : State) (b : Fin 36) {k n : Nat} (hid : blockId b = (k, n)) : s.onDisabled b =
    if k = 5 then s.modArr (ix 8 n) ArrayS.out else if k = 8 then s.afterPorts (s.modLink (ix 4 n) LinkS.out) else s := by
  unfold State.onDisabled
  rw [hid]
  dsimp only
  split
  · rfl
  · rfl
  next h5 h8 => rw [if_neg h5, if_neg h8]

/-- A block that leaves takes its array, or its ports, out of service. -/
theorem onDisabled_spec (s : State) (b : Fin 36) : (s.onDisabled b).blks = s.blks ∧
    (6 ≤ b.val → ∀ u, AppliesRws b u s → Applied b u (s.onDisabled b)) ∧
    (∀ a : Fin 8, b.val = 10 + a.val → ((s.onDisabled b).arr a).inService = false) ∧
    ∀ l p : Fin 4, b.val = 32 + l.val →
      ((s.onDisabled b).links[l]).ports[p].inService = false ∧ ((s.onDisabled b).links[l]).ports[p].training = false := by
  have stays (hs : s.onDisabled b = s) (ha : ∀ a : Fin 8, b.val ≠ 10 + a.val) (hl : ∀ l : Fin 4, b.val ≠ 32 + l.val) :
      (s.onDisabled b).blks = s.blks ∧ (6 ≤ b.val → ∀ u, AppliesRws b u s → Applied b u (s.onDisabled b)) ∧
      (∀ a : Fin 8, b.val = 10 + a.val → ((s.onDisabled b).arr a).inService = false) ∧
      ∀ l p : Fin 4, b.val = 32 + l.val →
        ((s.onDisabled b).links[l]).ports[p].inService = false ∧ ((s.onDisabled b).links[l]).ports[p].training = false := by
    rw [hs]
    exact ⟨rfl, fun _ u hu => hu.applied, fun a h => absurd h (ha a), fun l _ h => absurd h (hl l)⟩
  have kind {k n : Nat} (hid : blockId b = (k, n)) (h5 : k ≠ 5) (h8 : k ≠ 8) : s.onDisabled b = s := by
    rw [onDisabled_eq s b hid, if_neg h5, if_neg h8]
  cases blkIs b with
  | base h hid => exact stays (kind hid (by omega) (by omega)) (fun a => by omega) (fun l => by omega)
  | core c h hid => exact stays (kind hid (by decide) (by decide)) (fun a => by omega) (fun l => by omega)
  | side n h hid => exact stays (kind hid (by decide) (by decide)) (fun a => by omega) (fun l => by omega)
  | array a h hid =>
    rw [onDisabled_eq s b hid, if_pos rfl, ix_of_val (rfl : a.val = a.val)]
    refine ⟨rfl, fun _ u _ => applied_none (by omega), fun a' h' => ?_, fun l p hl => by omega⟩
    have haa : a' = a := Fin.ext (by omega)
    subst haa
    exact congrArg ArrayS.inService (vmod_same s.arrays a' _)
  | stack n h hid => exact stays (kind hid (by decide) (by decide)) (fun a => by omega) (fun l => by omega)
  | deep d h hid => exact stays (kind hid (by decide) (by decide)) (fun a => by omega) (fun l => by omega)
  | link l h hid =>
    rw [onDisabled_eq s b hid, if_neg (by decide), if_pos rfl, ix_of_val (rfl : l.val = l.val)]
    have hkeep := keepsOut_afterPorts s (s.modLink l LinkS.out)
    refine ⟨hkeep.blks, fun _ u _ => applied_none (by omega), fun a ha => by omega, fun l' p hl => hkeep.out l' p ?_⟩
    have hll : l' = l := Fin.ext (by omega)
    subst hll
    have hport : ((s.modLink l' LinkS.out).links[l']).ports[p] =
        { (s.links[l']).ports[p] with inService := false, training := false } := by
      unfold State.modLink LinkS.out
      rw [vmod_same]
      exact Vector.getElem_map _ _
    rw [hport]
    exact ⟨rfl, rfl⟩

/-! ### A write that leaves the other fields as they stand -/

/-- A write of which something is dropped counts once. -/
def State.counted (s : State) (b : Fin 36) (d : Bool) : State := if d then s.dropWrite b.val else s

theorem counted_spec (s : State) (b : Fin 36) (d : Bool) : OnlyBlk b s (s.counted b d) ∧
    (s.counted b d).blks[b] = { s.blks[b] with rweDropped := if d then satAdd s.blks[b].rweDropped 1 else s.blks[b].rweDropped } := by
  cases d with
  | false => exact ⟨OnlyBlk.refl s b, rfl⟩
  | true =>
    have hdrop : s.counted b true = s.modBlk b (fun k => { k with rweDropped := satAdd k.rweDropped 1 }) := by
      unfold State.counted State.dropWrite
      rw [ix_of_val rfl]
      rfl
    rw [hdrop]
    exact ⟨onlyBlk_modBlk s b _, modBlk_same s b _⟩

theorem enableOnly_eq (s : State) (b : Fin 36) (e host : Bool) : s.enableOnly b e host =
    ((s.writeBack b).1.writeEnable b e host).1.counted b ((s.writeBack b).2 || ((s.writeBack b).1.writeEnable b e host).2) := rfl

/-- What a write that leaves the fields as they stand does before it counts what is dropped. -/
structure WritesBack (b : Fin 36) (s u : State) (d : Bool) : Prop where
  only : OnlyBlk b s u
  own : u.blks[b] = { s.blks[b] with updatePending := (s.rewritten b).updatePending }
  rewritten : s.rewritten b = { u.blks[b] with rweDropped := if d then satAdd s.blks[b].rweDropped 1 else s.blks[b].rweDropped }

theorem writesBack_writeBack (s : State) (h : 6 ≤ b.val) : WritesBack b s (s.writeBack b).1 (s.writeBack b).2 := by
  have eq {k n : Nat} (hid : blockId b = (k, n)) (hp : (k == 6 || k == 7) = (decide (18 ≤ b.val) && decide (b.val < 32)))
      (hd : (k == 6 || k == 8) = true ↔ (18 ≤ b.val ∧ b.val < 30) ∨ 32 ≤ b.val) :
      WritesBack b s (s.writeBack b).1 (s.writeBack b).2 := by
    cases hrun : s.blkRunning b with
    | false =>
      have hre : s.rewritten b = s.blks[b] := if_neg (by simp [hrun])
      have heq : s.writeBack b = (s, false) := by
        unfold State.writeBack
        rw [hrun]
        rfl
      rw [heq]
      exact ⟨OnlyBlk.refl s b, by rw [hre], by rw [hre]; rfl⟩
    | true =>
      have heq : s.writeBack b = (if k == 6 || k == 7 then s.modBlk b (fun q => { q with updatePending := true }) else s,
          k == 6 || k == 8) := by
        unfold State.writeBack
        rw [hrun, hid]
        rfl
      rw [heq]
      have hre : s.rewritten b = { s.blks[b] with
          updatePending := s.blks[b].updatePending || (decide (18 ≤ b.val) && decide (b.val < 32))
          rweDropped := if (18 ≤ b.val ∧ b.val < 30) ∨ 32 ≤ b.val then satAdd s.blks[b].rweDropped 1 else s.blks[b].rweDropped } :=
        if_pos hrun
      rw [← hp] at hre
      simp only [← hd] at hre
      cases hk : (k == 6 || k == 7) with
      | false => exact ⟨OnlyBlk.refl s b, by simp [hre, hk], by simp [hre, hk]⟩
      | true =>
        have hown := modBlk_same s b (fun k => { k with updatePending := true })
        exact ⟨onlyBlk_modBlk s b _, by simpa [hre, hk] using hown, by simp [hre, hk, hown]⟩
  cases blkIs b with
  | base hb hid => omega
  | core c hb hid => omega
  | side n hb hid => exact eq hid (by simp; omega) (by simp; omega)
  | array a hb hid => exact eq hid (by simp; omega) (by simp; omega)
  | stack n hb hid => exact eq hid (by simp; omega) (by simp; omega)
  | deep d hb hid => exact eq hid (by simp; omega) (by simp; omega)
  | link l hb hid => exact eq hid (by simp; omega) (by simp; omega)

/-! ### A write of ENABLE -/

variable {u : State} {d : Bool} {host : Bool}

theorem WritesBack.enable (h : WritesBack b s u d) : u.blks[b].enable = s.blks[b].enable ∧ u.blks[b].enabled = s.blks[b].enabled := by
  rw [h.own]
  exact ⟨rfl, rfl⟩

theorem WritesBack.anyContext (h : WritesBack b s u d) : u.anyContext = s.anyContext := by
  rw [h.only.1]
  rfl

theorem WritesBack.enabled (h : WritesBack b s u d) (j : Fin 36) : u.blks[j].enabled = s.blks[j].enabled := by
  by_cases hj : j = b
  · subst hj
    exact h.enable.2
  · rw [h.only.2 j hj]

theorem WritesBack.neededBy (h : WritesBack b s u d) : u.neededBy b = s.neededBy b := by
  unfold State.neededBy
  simp only [h.enabled]

theorem writeEnable_repeats {e : Bool} (he : u.blks[b].enable = e) : u.writeEnable b e host = (u, false) :=
  if_pos (by rw [he]; simp)

theorem writeEnable_ignored {e : Bool} (hb : 6 ≤ b.val) (he : u.blks[b].enable ≠ e) (hc : u.anyContext = true) :
    u.writeEnable b e true = (u.dropHost, false) := by
  unfold State.writeEnable
  dsimp only
  rw [if_neg (by simpa [hasEnable, hb] using Ne.symm he)]
  exact if_pos (by simp [hc])

theorem writeEnable_checks (hb : 6 ≤ b.val) (he : u.blks[b].enable = false) (hc : host = true → u.anyContext = false) :
    u.writeEnable b true host = (u.modBlk b (fun k => { k with enable := true, checking := !k.enabled }), false) := by
  unfold State.writeEnable
  dsimp only
  rw [if_neg (by rw [he]; simp [hasEnable, hb]), if_neg (by cases host <;> simp_all)]
  rfl

theorem writeEnable_needed (hb : 6 ≤ b.val) (he : u.blks[b].enable = true) (hc : host = true → u.anyContext = false)
    (hn : u.blks[b].enabled = true) (hnb : u.neededBy b = true) : u.writeEnable b false host = (u, true) := by
  unfold State.writeEnable
  dsimp only
  rw [if_neg (by rw [he]; simp [hasEnable, hb]), if_neg (by cases host <;> simp_all), if_neg (by decide)]
  exact if_pos (by rw [hn, hnb]; rfl)

/-- A block that is disabled. -/
def State.disabled (s : State) (b : Fin 36) : State :=
  s.modBlk b (fun k => { k with enable := false, enabled := false, checking := false })

theorem writeEnable_stops (hb : 6 ≤ b.val) (he : u.blks[b].enable = true) (hc : host = true → u.anyContext = false)
    (hn : u.blks[b].enabled = false ∨ u.neededBy b = false) : u.writeEnable b false host =
      (if u.blks[b].enabled then ((u.disabled b).applyRws b).onDisabled b else (u.disabled b).applyRws b, false) := by
  unfold State.writeEnable
  dsimp only
  rw [if_neg (by rw [he]; simp [hasEnable, hb]), if_neg (by cases host <;> simp_all), if_neg (by decide),
    if_neg (by rcases hn with hn | hn <;> rw [hn] <;> simp)]
  rfl

/-- What counts a dropped write finishes a write that changed the header of its block only. -/
theorem OnlyBlk.counted {v : State} (h : OnlyBlk b s v) (d : Bool) : OnlyBlk b s (v.counted b d) := h.trans (counted_spec v b d).1

theorem counted_own {v : State} {k : Blk} (h : v.blks[b] = k) (d : Bool) :
    (v.counted b d).blks[b] = { k with rweDropped := if d then satAdd k.rweDropped 1 else k.rweDropped } := by
  rw [(counted_spec v b d).2, h]

theorem enableOnly_repeats (hb : 6 ≤ b.val) {e : Bool} (he : s.blks[b].enable = e) (host : Bool) :
    OnlyBlk b s (s.enableOnly b e host) ∧ (s.enableOnly b e host).blks[b] = s.rewritten b := by
  have hw := writesBack_writeBack s hb
  rw [enableOnly_eq, writeEnable_repeats (hw.enable.1.trans he), hw.rewritten]
  exact ⟨hw.only.counted _, by rw [counted_own rfl, Bool.or_false, hw.own]⟩

theorem enableOnly_checks (hb : 6 ≤ b.val) (he : s.blks[b].enable = false) (hc : host = true → s.anyContext = false) :
    OnlyBlk b s (s.enableOnly b true host) ∧
      (s.enableOnly b true host).blks[b] = { s.rewritten b with enable := true, checking := !s.blks[b].enabled } := by
  have hw := writesBack_writeBack s hb
  rw [enableOnly_eq, writeEnable_checks hb (hw.enable.1.trans he) (fun h => hw.anyContext.trans (hc h)), hw.rewritten]
  refine ⟨(hw.only.trans (onlyBlk_modBlk _ b _)).counted _, ?_⟩
  rw [counted_own (modBlk_same _ b _), Bool.or_false, hw.own]

theorem enableOnly_needed (hb : 6 ≤ b.val) (he : s.blks[b].enable = true) (hc : host = true → s.anyContext = false)
    (hn : s.blks[b].enabled = true) (hnb : s.neededBy b = true) : OnlyBlk b s (s.enableOnly b false host) ∧
      (s.enableOnly b false host).blks[b] = { s.rewritten b with rweDropped := satAdd s.blks[b].rweDropped 1 } := by
  have hw := writesBack_writeBack s hb
  rw [enableOnly_eq, writeEnable_needed hb (hw.enable.1.trans he) (fun h => hw.anyContext.trans (hc h)) (hw.enable.2.trans hn)
    (hw.neededBy.trans hnb), hw.rewritten]
  exact ⟨hw.only.counted _, by rw [counted_own rfl, Bool.or_true, hw.own]; rfl⟩

theorem enableOnly_ignored (hb : 6 ≤ b.val) {e : Bool} (he : s.blks[b].enable ≠ e) (hc : s.anyContext = true) :
    OnlyBlk b s.dropHost (s.enableOnly b e true) ∧ (s.enableOnly b e true).blks[b] = s.rewritten b := by
  have hw := writesBack_writeBack s hb
  rw [enableOnly_eq, writeEnable_ignored hb (by rw [hw.enable.1]; exact he) (hw.anyContext.trans hc), hw.rewritten]
  have hdrop : OnlyBlk b s.dropHost (s.writeBack b).1.dropHost := by
    refine ⟨?_, hw.only.2⟩
    rw [hw.only.1]
    rfl
  have hown : (s.writeBack b).1.dropHost.blks[b] = (s.writeBack b).1.blks[b] := rfl
  exact ⟨hdrop.counted _, by rw [counted_own hown, Bool.or_false, hw.own]⟩

/-- Pending values in force stay so while only headers change. -/
theorem Applied.of_headers {s' t t' : State} (h : Applied b s' t') (hs : s' = { s with blks := s'.blks })
    (ht : t' = { t with blks := t'.blks }) : Applied b s t := by
  rw [hs, ht] at h
  exact h

theorem enableOnly_stops (hb : 6 ≤ b.val) (he : s.blks[b].enable = true) (hc : host = true → s.anyContext = false)
    (hn : s.blks[b].enabled = false ∨ s.neededBy b = false) {t : State} (ht : s.enableOnly b false host = t) :
    (∀ j, j ≠ b → t.blks[j] = s.blks[j]) ∧
      t.blks[b] = { s.rewritten b with enable := false, enabled := false, checking := false, updatePending := false } ∧
      Applied b s t ∧ (s.blks[b].enabled = true →
        (∀ a : Fin 8, b.val = 10 + a.val → (t.arr a).inService = false) ∧
        ∀ l p : Fin 4, b.val = 32 + l.val → (t.links[l]).ports[p].inService = false ∧ (t.links[l]).ports[p].training = false) := by
  have hw := writesBack_writeBack s hb
  have hn' : (s.writeBack b).1.blks[b].enabled = false ∨ (s.writeBack b).1.neededBy b = false := by
    rw [hw.neededBy, hw.enable.2]
    exact hn
  rw [enableOnly_eq, writeEnable_stops hb (hw.enable.1.trans he) (fun h => hw.anyContext.trans (hc h)) hn', hw.enable.2] at ht
  generalize (s.writeBack b).1 = u at hw ht
  generalize (s.writeBack b).2 = d at hw ht
  have hoff := onlyBlk_modBlk u b (fun k => { k with enable := false, enabled := false, checking := false })
  have hown := modBlk_same u b (fun k => { k with enable := false, enabled := false, checking := false })
  have happ := appliesRws_applyRws (u.disabled b) b
  obtain ⟨hblks, happlied, harr, hports⟩ := onDisabled_spec ((u.disabled b).applyRws b) b
  have hstart : u.disabled b = { s with blks := (u.disabled b).blks } := (hw.only.trans hoff).1
  generalize hv : (if s.blks[b].enabled then ((u.disabled b).applyRws b).onDisabled b else (u.disabled b).applyRws b) = v at ht
  have hvblks : v.blks = ((u.disabled b).applyRws b).blks := by
    rw [← hv]
    split
    · exact hblks
    · rfl
  have hvapp : Applied b (u.disabled b) v := by
    rw [← hv]
    split
    · exact happlied hb _ happ
    · exact happ.applied
  obtain ⟨hcount, -⟩ := counted_spec v b (d || false)
  rw [show v.counted b (d || false) = t from ht] at hcount
  have hv' : v = { t with blks := v.blks } := by rw [hcount.1]
  refine ⟨fun j hj => ?_, ?_, hvapp.of_headers hstart hv', fun hen => ?_⟩
  · rw [hcount.2 j hj, hvblks, happ.others j hj]
    exact (hw.only.trans hoff).2 j hj
  · rw [← ht, counted_own (by rw [hvblks, happ.own, State.disabled, hown]), Bool.or_false, hw.rewritten, hw.own]
  · rw [if_pos hen] at hv
    rw [hcount.1, ← hv]
    exact ⟨harr, hports⟩

/-! ### The end of a check and a boundary -/

/-- The header of a block after its check. -/
def State.checked (s : State) (b : Fin 36) : State :=
  s.modBlk b (fun k => { k with checking := false, enabled := s.checkReason b == 0, reason := s.checkReason b })

theorem endCheck_refused (h : s.checkReason b ≠ 0) : s.endCheck b = (s.checked b).applyRws b := if_neg h

theorem endCheck_passed (h : s.checkReason b = 0) : s.endCheck b = (s.checked b).onEnabled b := if_pos h

theorem checked_own (s : State) (b : Fin 36) : (s.checked b).blks[b] =
    { s.blks[b] with checking := false, enabled := s.checkReason b == 0, reason := s.checkReason b } := modBlk_same s b _

/-- An array that its block serves. -/
def ArrayS.served (t : ArrayS) : ArrayS := { t with inService := !t.degraded }

theorem onEnabled_eq (s : State) (b : Fin 36) {k n : Nat} (hid : blockId b = (k, n)) : s.onEnabled b =
    if k = 5 then s.modArr (ix 8 n) ArrayS.served
    else if k = 8 then (if s.clock.source = 2 then s else s.portsTrain) else s := by
  unfold State.onEnabled
  rw [hid]
  dsimp only
  split
  · rfl
  · rfl
  next h5 h8 => rw [if_neg h5, if_neg h8]

theorem portsTrain_port {l p : Fin 4} (he : s.blks[ix 36 (32 + l.val)].enabled = true) : (s.portsTrain.links[l]).ports[p] =
    { (s.links[l]).ports[p] with training := (s.links[l]).ports[p].training ||
        (!(s.links[l]).ports[p].inService && !(s.links[l]).ports[p].retired) } := by
  have hl : s.portsTrain.links[l] = { s.links[l] with ports := s.links[l].ports.map (fun p =>
      { p with training := p.training || (!p.inService && !p.retired) }) } :=
    (Vector.getElem_ofFn l.isLt).trans (if_pos he)
  rw [hl]
  exact Vector.getElem_map _ _

/-- What follows when a block becomes enabled. -/
theorem onEnabled_spec (s : State) (b : Fin 36) : s.onEnabled b = { s with arrays := (s.onEnabled b).arrays, links := (s.onEnabled b).links } ∧
    (∀ a : Fin 8, b.val = 10 + a.val → ((s.onEnabled b).arr a).inService = !(s.arr a).degraded) ∧
    ∀ l p : Fin 4, b.val = 32 + l.val → s.clock.source ≠ 2 → s.blks[b].enabled = true → (s.links[l]).ports[p].inService = false →
      (s.links[l]).ports[p].retired = false → ((s.onEnabled b).links[l]).ports[p].training = true := by
  have kind {k n : Nat} (hid : blockId b = (k, n)) (h5 : k ≠ 5) (h8 : k ≠ 8) : s.onEnabled b = s := by
    rw [onEnabled_eq s b hid, if_neg h5, if_neg h8]
  have stays (hs : s.onEnabled b = s) : s.onEnabled b = { s with arrays := (s.onEnabled b).arrays, links := (s.onEnabled b).links } := by
    rw [hs]
  cases blkIs b with
  | base h hid => exact ⟨stays (kind hid (by omega) (by omega)), fun a => by omega, fun l p => by omega⟩
  | core c h hid => exact ⟨stays (kind hid (by decide) (by decide)), fun a => by omega, fun l p => by omega⟩
  | side n h hid => exact ⟨stays (kind hid (by decide) (by decide)), fun a => by omega, fun l p => by omega⟩
  | array a h hid =>
    rw [onEnabled_eq s b hid, if_pos rfl, ix_of_val (rfl : a.val = a.val)]
    refine ⟨rfl, fun a' h' => ?_, fun l p => by omega⟩
    have haa : a' = a := Fin.ext (by omega)
    subst haa
    exact congrArg ArrayS.inService (vmod_same s.arrays a' _)
  | stack n h hid => exact ⟨stays (kind hid (by decide) (by decide)), fun a => by omega, fun l p => by omega⟩
  | deep d h hid => exact ⟨stays (kind hid (by decide) (by decide)), fun a => by omega, fun l p => by omega⟩
  | link l h hid =>
    rw [onEnabled_eq s b hid, if_neg (by decide), if_pos rfl]
    refine ⟨?_, fun a => by omega, fun l' p hl hc he hi hr => ?_⟩
    · split <;> rfl
    · rw [if_neg hc, portsTrain_port ((congrArg (fun i : Fin 36 => s.blks[i].enabled) (ix_of_val hl)).trans he), hi, hr]
      exact Bool.or_true _

theorem doRwsApply_waits (h : s.blks[b].updatePending = false ∨ ∃ c : Fin 4, b.val = 2 + c.val ∧ s.coreIdle c = false) :
    doRwsApply b s = s := by
  unfold doRwsApply
  rcases h with h | ⟨c, hb, hc⟩
  · rw [h]
    rfl
  · cases blkIs b with
    | core c' h' hid =>
      have hcc : c' = c := Fin.ext (by omega)
      subst hcc
      rw [hid]
      dsimp only
      rw [ix_of_val (rfl : c'.val = c'.val), hc]
      exact if_pos (Bool.or_true _)
    | base h' _ => omega
    | side _ h' _ => omega
    | array _ h' _ => omega
    | stack _ h' _ => omega
    | deep _ h' _ => omega
    | link _ h' _ => omega

theorem doRwsApply_applies (h : s.blks[b].updatePending = true) (hc : ∀ c : Fin 4, b.val = 2 + c.val → s.coreIdle c = true) :
    doRwsApply b s = s.applyRws b := by
  have free {k n : Nat} (hid : blockId b = (k, n)) (h3 : (k == 3 && !s.coreIdle (ix 4 n)) = false) : doRwsApply b s = s.applyRws b := by
    unfold doRwsApply
    rw [hid]
    dsimp only
    rw [h, h3]
    rfl
  cases blkIs b with
  | base h' hid => exact free hid (by rw [beq_false_of_ne (by omega)]; rfl)
  | core c h' hid => exact free hid (by rw [ix_of_val (rfl : c.val = c.val), hc c h']; rfl)
  | side _ h' hid => exact free hid rfl
  | array _ h' hid => exact free hid rfl
  | stack _ h' hid => exact free hid rfl
  | deep _ h' hid => exact free hid rfl
  | link _ h' hid => exact free hid rfl

end

/-- Settles O41: ENABLE is written last, a check ends with its reason, and pending values come into force at a boundary. -/
theorem blocksAreCheckedAndEnabled : Obligations.BlocksAreCheckedAndEnabled := by
  intro s b k hu hk
  subst hk
  have run {f t} (h : f s = t) : inDies f s = .next t := (inDies_up _ _ hu).trans (congrArg _ h)
  have enable (hb : 6 ≤ b.val) (host : Bool) : exec (.blockEnable b host) s = .next (s.enableOnly b true host) :=
    run (if_pos (decide_eq_true hb))
  have disable (hb : 6 ≤ b.val) (host : Bool) : exec (.blockDisable b host) s = .next (s.enableOnly b false host) :=
    run (if_pos (decide_eq_true hb))
  refine ⟨fun hb host => ?_, fun hb host hc => ⟨fun he => ?_, fun he => ?_, fun he => ?_, fun he hn hnb => ?_, fun he hn => ?_⟩,
    fun hb hc cmd hcmd => ?_, fun hk => run (if_neg (by rw [hk]; decide)), fun hk hr => ?_, fun hk hr => ?_, fun hp hc => ?_,
    fun hp => run (doRwsApply_waits hp)⟩
  · have hno : ¬ hasEnable b = true := by simpa [hasEnable] using hb
    exact ⟨run (if_neg hno), run (if_neg hno)⟩
  · exact ⟨_, enable hb host, enableOnly_checks hb he hc⟩
  · exact ⟨_, enable hb host, enableOnly_repeats hb he host⟩
  · exact ⟨_, disable hb host, enableOnly_repeats hb he host⟩
  · exact ⟨_, disable hb host, enableOnly_needed hb he hc hn hnb⟩
  · exact ⟨_, disable hb host, enableOnly_stops hb he hc hn rfl⟩
  · rcases hcmd with ⟨rfl, he⟩ | ⟨rfl, he⟩
    · obtain ⟨h1, h2⟩ := enableOnly_ignored (e := true) hb (by rw [he]; decide) hc
      exact ⟨_, enable hb true, h2, h1⟩
    · obtain ⟨h1, h2⟩ := enableOnly_ignored (e := false) hb (by rw [he]; decide) hc
      exact ⟨_, disable hb true, h2, h1⟩
  · obtain ⟨hrest, hothers, hown, happ, -⟩ := appliesRws_applyRws (s.checked b) b
    refine ⟨_, run ((if_pos hk).trans (endCheck_refused hr)), hrest, fun j hj => (hothers j hj).trans ((onlyBlk_modBlk s b _).2 j hj), ?_, happ⟩
    rw [hown, checked_own, beq_false_of_ne hr]
  · obtain ⟨hrest, harr, hports⟩ := onEnabled_spec (s.checked b) b
    have hblks : ((s.checked b).onEnabled b).blks = (s.checked b).blks := by rw [hrest]
    refine ⟨_, run ((if_pos hk).trans (endCheck_passed hr)), ?_, fun j hj => ?_, ?_, harr, fun l p hl hc hi hret => ?_⟩
    · rw [hblks]
      exact hrest
    · rw [hblks]
      exact (onlyBlk_modBlk s b _).2 j hj
    · rw [hblks, checked_own, hr]
      rfl
    · exact hports l p hl hc (by rw [checked_own, hr]; rfl) hi hret
  · obtain ⟨hrest, hothers, hown, happ, hbanks⟩ := appliesRws_applyRws s b
    exact ⟨_, run (doRwsApply_applies hp hc), hrest, hothers, hown, happ, hbanks⟩

end Sys2Proof.Machine
end

section
/-! PROOFS. Registers, the management bus and the test port (00, 21, 22). -/

namespace Sys2Proof.Machine

open Sys2Proof

/-! ## Registers, the management bus and the test port (00, R10; 21, R494 to R499; 22, R516 to R519) -/

section
variable {s : State}

/-! ### Register writes -/

theorem chunks_leBytes (v : W32) : chunks 4 (leBytes 4 v.toNat) = [leBytes 4 v.toNat] := rfl

theorem chunks_leBytes_pair (v w : W32) : chunks 4 (leBytes 4 v.toNat ++ leBytes 4 w.toNat) = [leBytes 4 v.toNat, leBytes 4 w.toNat] := rfl

theorem words_leBytes (v : W32) : (chunks 4 (leBytes 4 v.toNat)).map (fun c => BitVec.ofNat 32 (leNat c)) = [v] := by
  rw [chunks_leBytes, List.map_cons, List.map_nil, ofNat_leNat_leBytes]

theorem words_leBytes_pair (v w : W32) :
    (chunks 4 (leBytes 4 v.toNat ++ leBytes 4 w.toNat)).map (fun c => BitVec.ofNat 32 (leNat c)) = [v, w] := by
  rw [chunks_leBytes_pair, List.map_cons, List.map_cons, List.map_nil, ofNat_leNat_leBytes, ofNat_leNat_leBytes]

theorem windowOf_range {bar w off : Nat} (h : windowOf bar = some (w, off)) : 0x100000 ≤ bar ∧ bar < 0x2600000 ∧
    w = (bar - 0x100000) / 0x100000 ∧ off = bar % 0x100000 := by
  unfold windowOf at h
  split at h
  · exact absurd h (by simp)
  · split at h
    · simp only [Option.some.injEq, Prod.mk.injEq] at h
      omega
    · exact absurd h (by simp)

theorem windowOf_module {off : Nat} (h : off < 0x100000) : windowOf (0x100000 + off) = some (0, off) := by
  unfold windowOf
  rw [if_neg (by omega), if_pos (by omega)]
  congr 2 <;> omega

theorem windowOf_block {b off : Nat} (hb : b < 36) (h : off < 0x100000) : windowOf (0x200000 + 0x100000 * b + off) = some (b + 1, off) := by
  unfold windowOf
  rw [if_neg (by omega), if_pos (by omega)]
  congr 2 <;> omega

theorem doRegisterWrite_words {bar : Nat} {bs : List Byte} (hlo : 0x100000 ≤ bar) (hhi : bar < 0x4000000) (hl : bs.length = 4 ∨ bs.length = 8)
    (ha : bar % bs.length = 0) : doRegisterWrite bar bs s = s.writeWords bar ((chunks 4 bs).map (fun c => BitVec.ofNat 32 (leNat c))) := by
  unfold doRegisterWrite
  rw [if_neg (by omega), if_pos ⟨hl, ha⟩]

theorem doRegisterWrite_dropped {bar : Nat} {bs : List Byte} (hlo : 0x100000 ≤ bar) (hhi : bar < 0x4000000)
    (h : (bs.length ≠ 4 ∧ bs.length ≠ 8) ∨ bar % bs.length ≠ 0) : doRegisterWrite bar bs s = s.dropHost := by
  unfold doRegisterWrite
  rw [if_neg (by omega), if_neg (by rintro ⟨h1, h2⟩; omega)]

/-- One word in the module window. -/
theorem writeWords_module {bar off : Nat} (h : windowOf bar = some (0, off)) (v : W32) : s.writeWords bar [v] = s.writeModule off v := by
  unfold State.writeWords
  rw [h]
  rfl

theorem doRegisterWrite_module {off : Nat} (h : off < 0x100000) (ha : off % 4 = 0) (v : W32) :
    doRegisterWrite (0x100000 + off) (leBytes 4 v.toNat) s = s.writeModule off v := by
  rw [doRegisterWrite_words (by omega) (by omega) (.inl (leBytes_length 4 _)) (by rw [leBytes_length]; omega), words_leBytes,
    writeWords_module (windowOf_module h)]

/-- The word that a write of a block's window gives an offset. -/
def wordAt (ws : List W32) (off o : Nat) : Option Nat := if off ≤ o then (ws[(o - off) / 4]?).map (·.toNat) else none

theorem writeWords_block {bar w off : Nat} (h : windowOf bar = some (w, off)) (hw : w ≠ 0) (ws : List W32) : s.writeWords bar ws =
    s.writeBlock (ix 36 (w - 1)) (if 2 < (blockId (ix 36 (w - 1))).1 then wordAt ws off 0x100 else none)
      (if (blockId (ix 36 (w - 1))).1 = 8 then wordAt ws off 0x104 else none) := by
  unfold State.writeWords
  rw [h]
  exact if_neg hw

theorem writeBlock_none (s : State) (b : Fin 36) : s.writeBlock b none none = s := rfl

theorem writeWords_elsewhere {bar w off : Nat} (h : windowOf bar = some (w, off)) (hw : w ≠ 0) (ha : bar % 4 = 0) (h0 : off ≠ 0x100)
    (h4 : off ≠ 0x104) (v : W32) : s.writeWords bar [v] = s := by
  obtain ⟨-, -, -, hoff⟩ := windowOf_range h
  have none (o : Nat) (ho : o % 4 = 0) (hne : off ≠ o) : wordAt [v] off o = none := by
    unfold wordAt
    split
    next hle =>
      rw [List.getElem?_eq_none]
      · rfl
      · show 1 ≤ _
        omega
    · rfl
  rw [writeWords_block h hw, none 0x100 (by decide) h0, none 0x104 (by decide) h4, ite_self, ite_self, writeBlock_none]

theorem writeModule_elsewhere {off : Nat} (h : off ∉ [0x100, 0x110, 0x120, 0x130]) (v : W32) : s.writeModule off v = s := by
  simp only [List.mem_cons, List.not_mem_nil, or_false, not_or] at h
  obtain ⟨h1, h2, h3, h4⟩ := h
  unfold State.writeModule
  rw [if_neg h1, if_neg h2, if_neg h3, if_neg h4]

theorem doRegisterWrite_elsewhere {bar w off : Nat} (h : windowOf bar = some (w, off)) (ha : bar % 4 = 0)
    (hoff : (w = 0 ∧ off ∉ [0x100, 0x110, 0x120, 0x130]) ∨ (w ≠ 0 ∧ off ≠ 0x100 ∧ off ≠ 0x104)) (v : W32) :
    doRegisterWrite bar (leBytes 4 v.toNat) s = s := by
  obtain ⟨hlo, hhi, -, -⟩ := windowOf_range h
  rw [doRegisterWrite_words hlo (by omega) (.inl (leBytes_length 4 _)) (by rw [leBytes_length]; exact ha), words_leBytes]
  rcases hoff with ⟨rfl, hoff⟩ | ⟨hw, h0, h4⟩
  · rw [writeWords_module h, writeModule_elsewhere hoff]
  · exact writeWords_elsewhere h hw ha h0 h4 v

/-! ### The control register of a stack -/

theorem vmod_id {α : Type} {n : Nat} (v : Vector α n) (i : Fin n) {f : α → α} (h : f v[i] = v[i]) : vmod v i f = v := by
  unfold vmod
  rw [h]
  exact Vector.set_getElem_self i.isLt

/-- A write of the control register of a block that does not run, with ENABLE as it stands. -/
theorem writeEnable_same (b : Fin 36) {e host : Bool} (h : e = s.blks[b].enable) : s.writeEnable b e host = (s, false) :=
  writeEnable_repeats h.symm

/-- The fields of SC_CTRL in a value. -/
def scOf (v : Nat) : ScCtrl :=
  { loopback := bits v 3 1, eraseEn := bit v 4, wcbAge := bits v 9 8
    wcbHigh := (if bits v 13 10 = 0 then 12 else bits v 13 10), scrubH := bits v 21 14 }

theorem writeSc_stopped {v : Nat} (n : Fin 12) (lo : 1 ≤ bits v 21 14) (hi : bits v 21 14 ≤ 168) :
    s.writeSc n false v = (s.modStack n (fun t => { t with ctrl := scOf v, shadow := scOf v }), false) := by
  unfold State.writeSc
  simp only [lo, hi, decide_true, Bool.and_true, if_true, Bool.false_eq_true, if_false, Bool.not_true]
  rfl

theorem modStack_same (s : State) (n : Fin 12) (f : StackS → StackS) : (s.modStack n f).stack n = f (s.stack n) := vmod_same _ _ _

theorem applyRws_stack {n : Fin 12} {b : Fin 36} (hid : blockId b = (6, n.val)) (hp : s.blks[b].updatePending = false)
    (hc : (s.stack n).applied = s.stack n) : s.applyRws b = s := by
  rw [applyRws_eq s b hid, if_neg (by decide), if_pos rfl, ix_of_val (rfl : n.val = n.val)]
  have hmark : s.unmarked b = s := by
    have h : vmod s.blks b (fun k => { k with updatePending := false }) = s.blks := vmod_id _ _ (by rw [← hp])
    unfold State.unmarked State.modBlk
    rw [h]
  rw [hmark]
  have h : vmod s.hbm n StackS.applied = s.hbm := vmod_id _ _ hc
  unfold State.modStack
  rw [h]

theorem blockId_stack {n : Fin 12} {b : Fin 36} (hb : b.val = 18 + n.val) : blockId b = (6, n.val) := by
  cases blkIs b with
  | stack m h hid => rw [hid]; congr 1; omega
  | base h _ => omega
  | core _ h _ => omega
  | side _ h _ => omega
  | array _ h _ => omega
  | deep _ h _ => omega
  | link _ h _ => omega

theorem blockId_link {l : Fin 4} {b : Fin 36} (hb : b.val = 32 + l.val) : blockId b = (8, l.val) := by
  cases blkIs b with
  | link m h hid => rw [hid]; congr 1; omega
  | base h _ => omega
  | core _ h _ => omega
  | side _ h _ => omega
  | array _ h _ => omega
  | stack _ h _ => omega
  | deep _ h _ => omega

theorem writeBlock_sc {v : Nat} {n : Fin 12} {b : Fin 36} (hb : b.val = 18 + n.val) (hr : s.blkRunning b = false)
    (he : bit v 0 = s.blks[b].enable) (hp : s.blks[b].updatePending = false) (lo : 1 ≤ bits v 21 14) (hi : bits v 21 14 ≤ 168) :
    s.writeBlock b (some v) none = s.modStack n (fun t => { t with ctrl := scOf v, shadow := scOf v }) := by
  have hid : blockId b = (6, n.val) := blockId_stack hb
  have hfields : s.writeFields b v = (s.modStack n (fun t => { t with ctrl := scOf v, shadow := scOf v }), false, true) := by
    unfold State.writeFields
    rw [hid, hr]
    show ((s.writeSc (ix 12 n.val) false v).1, (s.writeSc (ix 12 n.val) false v).2, true) = _
    rw [ix_of_val (rfl : n.val = n.val), writeSc_stopped n lo hi]
  generalize hu : s.modStack n (fun t => { t with ctrl := scOf v, shadow := scOf v }) = u at hfields ⊢
  have hrun : u.blkRunning b = false := by
    rw [← hu]
    exact hr
  have hblks : u.blks = s.blks := by rw [← hu]; rfl
  have hrws : u.rwsWritten b = u := by
    have happ : u.rwsWritten b = u.applyRws b := by
      unfold State.rwsWritten
      rw [hrun]
      rfl
    rw [happ]
    refine applyRws_stack hid (by rw [hblks]; exact hp) ?_
    rw [← hu, modStack_same]
    rfl
  have hen : u.writeEnable b (bit v 0) true = (u, false) := writeEnable_same b (by rw [hblks]; exact he)
  unfold State.writeBlock
  simp only [hfields, if_true, hrws, hen, Bool.or_false, Bool.false_eq_true, if_false]

theorem doRegisterWrite_sc {v : W32} {n : Fin 12} {b : Fin 36} (hb : b.val = 18 + n.val) (hr : s.blkRunning b = false)
    (he : bit v.toNat 0 = s.blks[b].enable) (hp : s.blks[b].updatePending = false) (lo : 1 ≤ bits v.toNat 21 14)
    (hi : bits v.toNat 21 14 ≤ 168) : doRegisterWrite (0x200100 + 0x100000 * b.val) (leBytes 4 v.toNat) s =
      s.modStack n (fun t => { t with ctrl := scOf v.toNat, shadow := scOf v.toNat }) := by
  have hw : windowOf (0x200100 + 0x100000 * b.val) = some (b.val + 1, 0x100) := by
    rw [show 0x200100 + 0x100000 * b.val = 0x200000 + 0x100000 * b.val + 0x100 by omega, windowOf_block b.isLt (by decide)]
  have hix : ix 36 (b.val + 1 - 1) = b := ix_of_val rfl
  have hid : blockId b = (6, n.val) := blockId_stack hb
  rw [doRegisterWrite_words (by omega) (by omega) (.inl (leBytes_length 4 _)) (by rw [leBytes_length]; omega), words_leBytes,
    writeWords_block hw (by omega), hix, hid]
  exact writeBlock_sc hb hr he hp lo hi

/-! ### The registers of a link die -/

/-- A link die after a write of both of its registers. -/
def LinkS.written (k : LinkS) (v w : Nat) : LinkS :=
  { k with
    payMax := bits v 5 4, vlanEn := bit v 6, vlanId := bits v 19 8, vlanPcp := bits v 22 20
    etype := bits w 15 0, retxUs := bits w 28 16 }

theorem modLink_modLink (s : State) (l : Fin 4) (f g : LinkS → LinkS) : (s.modLink l f).modLink l g = s.modLink l (fun k => g (f k)) := by
  unfold State.modLink
  exact congrArg (fun v => { s with links := v }) (vmod_vmod s.links l f g)

theorem writeBlock_link {v w : Nat} {l : Fin 4} {b : Fin 36} (hb : b.val = 32 + l.val) (hr : s.blkRunning b = false)
    (he : bit v 0 = s.blks[b].enable) : s.writeBlock b (some v) (some w) = s.modLink l (·.written v w) := by
  have hid : blockId b = (8, l.val) := blockId_link hb
  have hix : ix 4 l.val = l := ix_of_val rfl
  have hfields : s.writeFields b v = (s.modLink l (fun k => { k with
      payMax := bits v 5 4, vlanEn := bit v 6, vlanId := bits v 19 8, vlanPcp := bits v 22 20 }), false, false) := by
    unfold State.writeFields
    rw [hid, hr]
    show (s.modLink (ix 4 l.val) _, false, false) = _
    rw [hix]
  have hbxt (u : State) : u.writeBxt (ix 4 (blockId b).2) false w =
      (u.modLink l (fun k => { k with etype := bits w 15 0, retxUs := bits w 28 16 }), false) := by
    rw [hid, hix]
    rfl
  have hen : (s.modLink l (·.written v w)).writeEnable b (bit v 0) true = (s.modLink l (·.written v w), false) :=
    writeEnable_same (s := s.modLink l (·.written v w)) b he
  have hboth : (s.modLink l (fun k => { k with
      payMax := bits v 5 4, vlanEn := bit v 6, vlanId := bits v 19 8, vlanPcp := bits v 22 20 })).modLink l
      (fun k => { k with etype := bits w 15 0, retxUs := bits w 28 16 }) = s.modLink l (·.written v w) := modLink_modLink s l _ _
  unfold State.writeBlock
  simp only [hfields, hr, hbxt, hboth, hen, Bool.or_false, Bool.false_eq_true, if_false]

theorem writeBlock_link_running {v w : Nat} {l : Fin 4} {b : Fin 36} (hb : b.val = 32 + l.val) (hr : s.blkRunning b = true)
    (he : bit v 0 = s.blks[b].enable) : s.writeBlock b (some v) (some w) = s.counted b true := by
  have hfields : s.writeFields b v = (s, true, false) := by
    unfold State.writeFields
    rw [blockId_link hb, hr]
    rfl
  have hen : s.writeEnable b (bit v 0) true = (s, false) := writeEnable_same b he
  have hbxt (l : Fin 4) : s.writeBxt l true w = (s, true) := rfl
  unfold State.writeBlock
  simp only [hfields, hr, hbxt, hen, Bool.or_true, Bool.or_false, Bool.false_eq_true, if_false]
  rfl

theorem doRegisterWrite_link {v w : W32} {l : Fin 4} {b : Fin 36} (hb : b.val = 32 + l.val) :
    doRegisterWrite (0x200100 + 0x100000 * b.val) (leBytes 4 v.toNat ++ leBytes 4 w.toNat) s =
      s.writeBlock b (some v.toNat) (some w.toNat) := by
  have hw : windowOf (0x200100 + 0x100000 * b.val) = some (b.val + 1, 0x100) := by
    rw [show 0x200100 + 0x100000 * b.val = 0x200000 + 0x100000 * b.val + 0x100 by omega, windowOf_block b.isLt (by decide)]
  have hix : ix 36 (b.val + 1 - 1) = b := ix_of_val rfl
  have hlen : (leBytes 4 v.toNat ++ leBytes 4 w.toNat).length = 8 := by simp
  rw [doRegisterWrite_words (by omega) (by omega) (.inr hlen) (by rw [hlen]; omega), words_leBytes_pair,
    writeWords_block hw (by omega), hix, blockId_link hb]
  rfl

/-! ### Reads -/

theorem readWindow_latches {w off n start v : Nat} (h : s.regAt w off = some (start, 8, v)) (ho : off = start) (hn : n = 4) :
    s.readWindow w off n = { s with board := { s.board with
      readOut := s.windowRead w off 4
      latches := s.board.latches.filter (fun l => l.window != w) ++ [⟨w, start, BitVec.ofNat 32 (v / 2 ^ 32)⟩] } } := by
  unfold State.readWindow
  rw [h, hn]
  exact if_pos ⟨rfl, ho⟩

theorem readWindow_reads {w off n : Nat} (h : ∀ start v, s.regAt w off = some (start, 8, v) → n ≠ 4 ∨ off ≠ start) :
    s.readWindow w off n = { s with board := { s.board with readOut := s.windowRead w off n } } := by
  unfold State.readWindow
  dsimp only
  split
  next start v hr =>
    refine if_neg ?_
    rintro ⟨h4, ho⟩
    rcases h start v hr with h | h
    · exact h h4
    · exact h ho
  · rfl

theorem windowRead_latched {w off n start v : Nat} {l : Latch} (h : s.regAt w off = some (start, 8, v)) (ho : off = start + 4) (hn : n = 4)
    (hl : s.latchOf w = some l) (hs : l.offset = start) : s.windowRead w off n = leBytes 4 l.high.toNat := by
  unfold State.windowRead
  dsimp only
  rw [h, hl]
  exact if_pos ⟨hn, rfl, ho, hs⟩

theorem doCounterLowHalfRead_refused {x : Fin 16} {bar n : Nat} (h : readOk bar n = false) : doCounterLowHalfRead x bar n s = s :=
  if_pos (by rw [h]; rfl)

theorem doCounterLowHalfRead_mailbox {x : Fin 16} {bar n : Nat} (h : readOk bar n = true) (hb : bar < 0x100000) :
    doCounterLowHalfRead x bar n s = { s with board := { s.board with
      readOut := (List.range n).map (fun i => s.mailboxByte x (bar + i)) } } := by
  unfold doCounterLowHalfRead
  rw [if_neg (by rw [h]; decide), if_pos hb]
  rfl

theorem doCounterLowHalfRead_reserved {bar n : Nat} (h : readOk bar n = true) (hb : 0x2600000 ≤ bar) :
    doCounterLowHalfRead 0 bar n s = { s with board := { s.board with readOut := zeros n } } := by
  have hw : windowOf bar = none := by
    unfold windowOf
    rw [if_neg (by omega), if_neg (by omega)]
  unfold doCounterLowHalfRead
  rw [if_neg (by rw [h]; decide), if_neg (by omega), hw]
  rfl

theorem doCounterLowHalfRead_window {bar w off n : Nat} (h : readOk bar n = true) (hw : windowOf bar = some (w, off)) :
    doCounterLowHalfRead 0 bar n s = s.readWindow w off n := by
  unfold doCounterLowHalfRead
  rw [if_neg (by rw [h]; decide), if_neg (by have := (windowOf_range hw).1; omega), hw]
  rfl

/-! ### The management bus -/

theorem fld_leBytes (v : W32) (bs : List Byte) : fld (leBytes 4 v.toNat ++ bs) 0 4 = v.toNat := by
  unfold fld
  rw [List.drop_zero, List.take_left' (leBytes_length 4 _), leNat_leBytes, Nat.mod_eq_of_lt (show v.toNat < 256 ^ 4 from v.isLt)]

theorem fld_leBytes_second (v w : W32) : BitVec.ofNat 32 (fld (leBytes 4 v.toNat ++ leBytes 4 w.toNat) 4 4) = w := by
  unfold fld
  rw [List.drop_left' (leBytes_length 4 _), List.take_of_length_le (leBytes_length 4 _).le, ofNat_leNat_leBytes]

/-- The offset of the management bus is set. -/
def State.i3cAt (s : State) (off : Nat) : State := { s with board := { s.board with i3cOffset := off } }

theorem doI3cPrivateWrite_offset {a : Nat} (h : s.board.i3cAddr = some a) (off : W32) :
    doI3cPrivateWrite (leBytes 4 off.toNat) s = s.i3cAt off.toNat := by
  have hoff := fld_leBytes off []
  rw [List.append_nil] at hoff
  unfold doI3cPrivateWrite
  rw [h, leBytes_length, hoff]
  rfl

theorem doI3cPrivateWrite_word {a : Nat} (h : s.board.i3cAddr = some a) (off v : W32) :
    doI3cPrivateWrite (leBytes 4 off.toNat ++ leBytes 4 v.toNat) s =
      if off.toNat % 4 = 0 then (s.i3cAt off.toNat).i3cStore off.toNat v else (s.i3cAt off.toNat).dropHost := by
  have hlen : (leBytes 4 off.toNat ++ leBytes 4 v.toNat).length = 8 := by simp
  unfold doI3cPrivateWrite
  rw [h, hlen, fld_leBytes, fld_leBytes_second]
  dsimp only
  by_cases ha : off.toNat % 4 = 0
  · rw [if_pos ha, if_neg (by simp), if_neg (by decide), if_neg (by decide), if_pos ⟨rfl, ha⟩]
    rfl
  · rw [if_neg ha, if_neg (by simp), if_neg (by decide), if_neg (by decide), if_neg (fun h => ha h.2)]
    rfl

theorem i3cStore_elsewhere {off : Nat} (h0 : off ≠ 0x100) (h1 : off ≠ 0x1000) (h4 : off ≠ 0x1004) (v : W32) : s.i3cStore off v = s := by
  unfold State.i3cStore
  rw [if_neg h0, if_neg h1, if_neg h4]

/-- The commands that an I3C write of a register stands for. -/
theorem exec_i3cStore (hu : s.h1Up = true) {off v : W32} {cmd : Instr}
    (h : (off = 0x100 ∧ cmd = .faultStatusWrite v) ∨ (off = 0x1000 ∧ cmd = .bmcCapWrite v) ∨
      (off = 0x1004 ∧ bmcReset v ≠ some .hub ∧ cmd = .bmcModuleReset v) ∨
      (off = 0x1004 ∧ bmcReset v = some .hub ∧ cmd = .bmcHubReset v)) :
    off.toNat % 4 = 0 ∧ exec cmd s = .next (s.i3cStore off.toNat v) := by
  have run {f t} (h : f s = t) : inH1 f s = .next t := (inH1_up _ _ hu).trans (congrArg _ h)
  rcases h with ⟨rfl, rfl⟩ | ⟨rfl, rfl⟩ | ⟨rfl, hr, rfl⟩ | ⟨rfl, hr, rfl⟩
  · exact ⟨rfl, run rfl⟩
  · exact ⟨rfl, run rfl⟩
  · exact ⟨rfl, run (if_neg hr)⟩
  · exact ⟨rfl, run (if_neg (by rw [hr]; decide))⟩

theorem doI3cAddressAssignment_takes {st : Option Nat} {addr : Nat} (ha : addr ≤ 127) (hn : s.board.i3cAddr = none)
    (hs : st = none ∨ st = some (0x30 + s.board.slotId % 8)) :
    doI3cAddressAssignment st addr s = { s with board := { s.board with i3cAddr := some addr } } := by
  unfold doI3cAddressAssignment
  rcases hs with rfl | rfl
  · exact if_neg (by simp [hn]; omega)
  · exact if_neg (by simp [hn, State.staticAddr]; omega)

theorem doI3cAddressAssignment_ignores {st : Option Nat} {addr : Nat}
    (h : s.board.i3cAddr ≠ none ∨ (st ≠ none ∧ st ≠ some (0x30 + s.board.slotId % 8))) : doI3cAddressAssignment st addr s = s := by
  unfold doI3cAddressAssignment
  rcases h with h | ⟨hn, hs⟩
  · exact if_pos (by simp [Option.isSome_iff_ne_none.2 h])
  · obtain ⟨a, rfl⟩ := Option.ne_none_iff_exists'.1 hn
    have ha : (a == s.staticAddr) = false := beq_false_of_ne (fun h => hs (congrArg some h))
    exact if_pos (by simp [ha])

/-! ### The test port -/

theorem doJtagInstruction_bypassed (h : s.clock.resetHeld = false) :
    doJtagInstruction .extest s = s.modBoard (fun k => { k with jtagIr := 0, jtagOut := 0 }) := by
  unfold doJtagInstruction
  rw [h]
  rfl

theorem doJtagInstruction_extest (h : s.clock.resetHeld = true) :
    doJtagInstruction .extest s = s.occasion.2.modBoard (fun k => { k with jtagIr := 3, jtagOut := Config.freeWord s.occasion.1 }) := by
  unfold doJtagInstruction
  rw [h]
  rfl

end

/-- Settles O42: a write has the effect of its register, a read answers its window, and the two buses act on what they name. -/
theorem registersAndBusesAnswer : Obligations.RegistersAndBusesAnswer := by
  intro s
  refine ⟨fun v bar cmd hu h1 hcmd => ?_, fun v n b c hu hb hr he hp lo hi hc => ?_, fun v w l b hu hb he => ⟨fun hr => ?_, fun hr => ?_⟩,
    fun v bar w off hu hw ha hoff => ?_, fun bar bs hu lo hi h => ?_, fun x bar n hu => ⟨fun h => ?_, fun h hb => ?_, fun h hb => ?_⟩,
    fun w off n bar hu hw h => ⟨fun start v hr ho hn => ?_, fun hr => ?_, fun start v l hr ho hn hl hs => windowRead_latched hr ho hn hl hs⟩,
    fun off a hu ha => ?_, fun off v a u hu ha hueq => ⟨fun cmd hcmd => ?_, fun h4 hoff => ?_, fun h4 => ?_⟩,
    fun bs words hu hn => ⟨?_, ?_⟩, fun words a hu ha h4 => ?_, fun st addr hu ha => ⟨fun hn hs => ?_, fun h => ?_⟩, fun hon => ?_⟩
  · have hub {f t} (h : f s = t) : inHub f s = .next t := (inHub_up _ _ hu).trans (congrArg _ h)
    rcases hcmd with ⟨rfl, rfl⟩ | ⟨rfl, rfl⟩ | ⟨rfl, rfl⟩ | ⟨rfl, rfl⟩
    · exact ⟨_, hub (doRegisterWrite_module (off := 0x100) (by decide) rfl v), (inH1_up _ _ h1).trans rfl⟩
    · exact ⟨_, hub (doRegisterWrite_module (off := 0x110) (by decide) rfl v), hub rfl⟩
    · exact ⟨_, hub (doRegisterWrite_module (off := 0x120) (by decide) rfl v), hub rfl⟩
    · exact ⟨_, hub (doRegisterWrite_module (off := 0x130) (by decide) rfl v), hub rfl⟩
  · subst hc
    exact ⟨_, (inHub_up _ _ hu).trans (congrArg _ (doRegisterWrite_sc hb hr he hp lo hi)),
      ⟨rfl, fun m hm => vmod_other _ _ _ _ hm⟩, modStack_same s n _⟩
  · exact (inHub_up _ _ hu).trans (congrArg _ ((doRegisterWrite_link hb).trans (writeBlock_link hb hr he)))
  · obtain ⟨honly, hown⟩ := counted_spec s b true
    exact ⟨_, (inHub_up _ _ hu).trans (congrArg _ ((doRegisterWrite_link hb).trans (writeBlock_link_running hb hr he))), honly, hown⟩
  · exact (inHub_up _ _ hu).trans (congrArg _ (doRegisterWrite_elsewhere hw ha hoff v))
  · exact (inHub_up _ _ hu).trans (congrArg _ (doRegisterWrite_dropped lo hi h))
  · exact (inHub_up _ _ hu).trans (congrArg _ (doCounterLowHalfRead_refused h))
  · exact (inHub_up _ _ hu).trans (congrArg _ (doCounterLowHalfRead_mailbox h hb))
  · exact (inHub_up _ _ hu).trans (congrArg _ (doCounterLowHalfRead_reserved h hb))
  · exact (inHub_up _ _ hu).trans (congrArg _ ((doCounterLowHalfRead_window h hw).trans (readWindow_latches hr ho hn)))
  · exact (inHub_up _ _ hu).trans (congrArg _ ((doCounterLowHalfRead_window h hw).trans (readWindow_reads hr)))
  · exact (inH1_up _ _ hu).trans (congrArg _ (doI3cPrivateWrite_offset ha off))
  · subst hueq
    obtain ⟨h4, hexec⟩ := exec_i3cStore (s := s.i3cAt off.toNat) hu hcmd
    exact ⟨_, (inH1_up _ _ hu).trans (congrArg _ ((doI3cPrivateWrite_word ha off v).trans (if_pos h4))), hexec⟩
  · subst hueq
    have hne : off.toNat ≠ 0x100 ∧ off.toNat ≠ 0x1000 ∧ off.toNat ≠ 0x1004 := by
      simp only [List.mem_cons, List.not_mem_nil, or_false, not_or] at hoff
      obtain ⟨h0, h1, h2⟩ := hoff
      exact ⟨fun h => h0 (BitVec.eq_of_toNat_eq h), fun h => h1 (BitVec.eq_of_toNat_eq h), fun h => h2 (BitVec.eq_of_toNat_eq h)⟩
    exact (inH1_up _ _ hu).trans (congrArg _ (((doI3cPrivateWrite_word ha off v).trans (if_pos h4)).trans
      (i3cStore_elsewhere hne.1 hne.2.1 hne.2.2 v)))
  · subst hueq
    exact (inH1_up _ _ hu).trans (congrArg _ ((doI3cPrivateWrite_word ha off v).trans (if_neg h4)))
  · exact (inH1_up _ _ hu).trans (congrArg _ (if_pos (by rw [hn]; rfl)))
  · exact (inH1_up _ _ hu).trans (congrArg _ (if_pos (by rw [hn]; rfl)))
  · exact (inH1_up _ _ hu).trans (congrArg _ (if_neg (by simp [ha, h4])))
  · exact (inH1_up _ _ hu).trans (congrArg _ (doI3cAddressAssignment_takes ha hn hs))
  · exact (inH1_up _ _ hu).trans (congrArg _ (doI3cAddressAssignment_ignores h))
  · have aon {f t} (h : f s = t) : inAon f s = .next t := (inAon_up _ s hon).trans (congrArg _ h)
    exact ⟨aon rfl, aon rfl, fun hh => aon (doJtagInstruction_bypassed hh), fun hh => ⟨_, aon (doJtagInstruction_extest hh)⟩, _, aon rfl⟩

end Sys2Proof.Machine
end

section
/-! PROOFS. Frames and flows (14). -/

namespace Sys2Proof.Machine

open Sys2Proof

/-! ## Frames and flows (14, R348, R351 to R355) -/

/-! ### Sending flows -/

theorem OnlyFabric.refl (s : State) : OnlyFabric s s := rfl

theorem onlyFabric_modTx (s : State) (peer job channel : Nat) (g : TxFlow → TxFlow) : OnlyFabric s (s.modTx peer job channel g) := rfl

/-- A frame that is sent changes the port that is next and what has been sent. -/
theorem transmit_tx {s t : State} {p : Option (Fin 16)} {f : Frame} (h : s.transmit p f = some t) :
    t.fabric.tx = s.fabric.tx ∧ t.fabric.services = s.fabric.services := by
  have next : ∀ t, s.nextPort.map (fun q => s.wire q f) = some t →
      t.fabric.tx = s.fabric.tx ∧ t.fabric.services = s.fabric.services := by
    intro t h
    obtain ⟨q, -, rfl⟩ := Option.map_eq_some_iff.1 h
    exact ⟨rfl, rfl⟩
  unfold State.transmit at h
  split at h
  · split at h
    · cases h
      exact ⟨rfl, rfl⟩
    · exact next t h
  · exact next t h

section
variable {peer job channel : Nat}

/-- A flow after a change that keeps its key. -/
theorem txFlow_modTx (s : State) {g : TxFlow → TxFlow} (hg : ∀ t, t.isKey peer job channel = true → (g t).isKey peer job channel = true) :
    (s.modTx peer job channel g).txFlow peer job channel = (s.txFlow peer job channel).map g := by
  have hkey : (TxFlow.isKey · peer job channel) ∘ (fun t => if t.isKey peer job channel then g t else t) =
      (TxFlow.isKey · peer job channel) := by
    funext t
    simp only [Function.comp]
    split
    next h => rw [hg t h, h]
    · rfl
  show (s.fabric.tx.map _).find? _ = _
  rw [List.find?_map, hkey]
  show _ = (s.fabric.tx.find? _).map g
  cases h : s.fabric.tx.find? (·.isKey peer job channel) with
  | none => rfl
  | some t => exact congrArg some (if_pos (List.find?_some h))

/-- What sending again or further frames leaves of a flow. -/
structure KeepsFlow (peer job channel : Nat) (s t : State) : Prop where
  rest : OnlyFabric s t
  services : t.fabric.services = s.fabric.services
  flow : ∀ u, s.txFlow peer job channel = some u → ∃ v, t.txFlow peer job channel = some v ∧ v.credit = u.credit ∧ v.next = u.next ∧
    v.frames.map (·.frame) = u.frames.map (·.frame)

theorem KeepsFlow.refl (s : State) : KeepsFlow peer job channel s s := ⟨rfl, rfl, fun u h => ⟨u, h, rfl, rfl, rfl⟩⟩

theorem KeepsFlow.trans {s t u : State} (h : KeepsFlow peer job channel s t) (k : KeepsFlow peer job channel t u) :
    KeepsFlow peer job channel s u := by
  refine ⟨h.rest.trans k.rest, k.services.trans h.services, fun a ha => ?_⟩
  obtain ⟨b, hb, hc, hn, hf⟩ := h.flow a ha
  obtain ⟨c, hc', hcr, hnx, hfr⟩ := k.flow b hb
  exact ⟨c, hc', hcr.trans hc, hnx.trans hn, hfr.trans hf⟩

theorem keepsFlow_modTx (s : State) {g : TxFlow → TxFlow} (hg : ∀ t, t.isKey peer job channel = true → (g t).isKey peer job channel = true)
    (hk : ∀ t, (g t).credit = t.credit ∧ (g t).next = t.next ∧ (g t).frames.map (·.frame) = t.frames.map (·.frame)) :
    KeepsFlow peer job channel s (s.modTx peer job channel g) :=
  ⟨rfl, rfl, fun u hu => ⟨g u, by rw [txFlow_modTx s hg, hu]; rfl, hk u⟩⟩

theorem map_frame_ite (l : List OutFrame) (p : OutFrame → Bool) (g : OutFrame → OutFrame) (hg : ∀ o, (g o).frame = o.frame) :
    (l.map (fun o => if p o then g o else o)).map (·.frame) = l.map (·.frame) := by
  rw [List.map_map]
  refine List.map_congr_left (fun o _ => ?_)
  simp only [Function.comp]
  split
  · exact hg o
  · rfl

theorem markSent_frames (t : TxFlow) (seq : W32) (now : Nat) : (t.markSent seq now).frames.map (·.frame) = t.frames.map (·.frame) := by
  have h := map_frame_ite t.frames (fun o => decide (o.frame.seq = seq)) (fun o => { o with sent := some now }) (fun _ => rfl)
  simp only [decide_eq_true_eq] at h
  exact h

theorem keepsFlow_markSent (s : State) (seq : W32) (now : Nat) : KeepsFlow peer job channel s (s.modTx peer job channel (·.markSent seq now)) :=
  keepsFlow_modTx s (fun _ h => h) (fun t => ⟨rfl, rfl, markSent_frames t seq now⟩)

theorem keepsFlow_transmit {s t : State} {p : Option (Fin 16)} {f : Frame} (h : s.transmit p f = some t) : KeepsFlow peer job channel s t := by
  obtain ⟨htx, hsv⟩ := transmit_tx h
  have hflow : t.txFlow peer job channel = s.txFlow peer job channel := congrArg (List.find? (fun q : TxFlow => q.isKey peer job channel)) htx
  exact ⟨onlyFabric_transmit h, hsv, fun u hu => ⟨u, hflow.trans hu, rfl, rfl, rfl⟩⟩

theorem keepsFlow_pump (s : State) : KeepsFlow peer job channel s (s.pump peer job channel) := by
  unfold State.pump
  split
  · exact KeepsFlow.refl s
  · dsimp only
    split
    · exact KeepsFlow.refl s
    · refine frame_foldl (R := KeepsFlow peer job channel) KeepsFlow.refl KeepsFlow.trans _ _ (fun s o _ => ?_) s
      split
      · exact KeepsFlow.refl s
      next h => exact (keepsFlow_transmit h).trans (keepsFlow_markSent _ _ _)

theorem keepsFlow_resend (s : State) {t : TxFlow} (ht : t.isKey peer job channel = true) (o : OutFrame) :
    KeepsFlow peer job channel s (s.resend t o) := by
  simp only [TxFlow.isKey, Bool.and_eq_true, beq_iff_eq] at ht
  obtain ⟨⟨rfl, rfl⟩, rfl⟩ := ht
  unfold State.resend
  split
  · exact KeepsFlow.refl s
  next h => exact (keepsFlow_transmit h).trans (keepsFlow_markSent _ _ _)

theorem keepsFlow_fastResend (s : State) {t : TxFlow} (ht : t.isKey peer job channel = true) :
    KeepsFlow peer job channel s (s.fastResend t) := by
  have hkey := ht
  simp only [TxFlow.isKey, Bool.and_eq_true, beq_iff_eq] at hkey
  obtain ⟨⟨rfl, rfl⟩, rfl⟩ := hkey
  unfold State.fastResend
  refine frame_foldl (R := KeepsFlow t.peer t.job t.channel) KeepsFlow.refl KeepsFlow.trans _ _ (fun s o _ => ?_) s
  refine (keepsFlow_resend s ht o).trans (keepsFlow_modTx _ (fun _ h => h) (fun u => ⟨rfl, rfl, ?_⟩))
  have h := map_frame_ite u.frames (fun q => decide (q.frame.seq = o.frame.seq)) (fun q => { q with fast := true }) (fun _ => rfl)
  simp only [decide_eq_true_eq] at h
  exact h

/-! ### Receiving flows -/

theorem isKey_self (r : RxFlow) : r.isKey r.peer r.job r.channel = true := by simp [RxFlow.isKey]

/-- A receiving flow that is set is the one found. -/
theorem rxFlow_setRx (s : State) {r : RxFlow} (h : r.isKey peer job channel = true) :
    (s.setRx r).rxFlow peer job channel = some r := by
  have hkey := h
  simp only [RxFlow.isKey, Bool.and_eq_true, beq_iff_eq] at hkey
  obtain ⟨⟨rfl, rfl⟩, rfl⟩ := hkey
  show List.find? _ (if _ then _ else _) = some r
  split
  next hany =>
    rw [List.find?_map]
    have hcomp : (RxFlow.isKey · r.peer r.job r.channel) ∘ (fun q => if q.isKey r.peer r.job r.channel then r else q) =
        (RxFlow.isKey · r.peer r.job r.channel) := by
      funext q
      simp only [Function.comp]
      split
      next hq => rw [h, hq]
      · rfl
    rw [hcomp]
    obtain ⟨q, hq, hqk⟩ := List.any_eq_true.1 hany
    obtain ⟨a, ha⟩ := Option.isSome_iff_exists.1 (List.find?_isSome (p := fun q : RxFlow => q.isKey r.peer r.job r.channel) |>.2 ⟨q, hq, hqk⟩)
    rw [ha]
    exact congrArg some (if_pos (List.find?_some ha))
  next hany =>
    have hnone : s.fabric.rx.find? (fun q => q.isKey r.peer r.job r.channel) = none :=
      List.find?_eq_none.2 (fun q hq hk => hany (List.any_eq_true.2 ⟨q, hq, hk⟩))
    rw [List.find?_append, hnone, List.find?_cons_of_pos (p := fun q : RxFlow => q.isKey r.peer r.job r.channel) h]
    rfl

theorem rxFlow_key {s : State} {r : RxFlow} (h : s.rxFlow peer job channel = some r) : r.isKey peer job channel = true :=
  List.find?_some (p := fun q : RxFlow => q.isKey peer job channel) h

/-- A frame that comes in its order moves the flow by one. -/
theorem advance_inOrder {r : RxFlow} (h : r.seen = []) (n : Nat) :
    RxFlow.advance (n + 1) { r with seen := r.expected.toNat :: r.seen } = { r with expected := r.expected + 1 } := by
  rw [h]
  unfold RxFlow.advance
  rw [if_pos (by simp)]
  have hnil : ([r.expected.toNat].erase r.expected.toNat : List Nat) = [] := by simp
  rw [hnil]
  cases n with
  | zero => rw [← h]; rfl
  | succ n =>
    unfold RxFlow.advance
    rw [if_neg (by simp), ← h]

end

/-! ### Frames that are taken in -/

section
variable {s : State} {p : Fin 16} {f : Frame}

theorem hear_discards (hu : s.portUp p = true) (h : s.frameOk f = false) : s.hear p f = (s.discardFrame p, false) := by
  unfold State.hear
  rw [hu, h]
  rfl

/-- The state that has heard a frame of a peer. -/
def State.peerHeard (s : State) (f : Frame) : State := s.modFabric (fun b => { b with peers := ainsert f.src f.throttled b.peers })

theorem hear_takes (hu : s.portUp p = true) (h : s.frameOk f = true) : s.hear p f = (s.peerHeard f, true) := by
  unfold State.hear
  rw [hu, h]
  rfl

theorem receive_discards (hu : s.portUp p = true) (h : s.frameOk f = false) : s.receive p f = (s.discardFrame p, false) := by
  unfold State.receive
  rw [hear_discards hu h]

theorem receive_takes (hu : s.portUp p = true) (h : s.frameOk f = true) : s.receive p f = (s.peerHeard f).takeSeq p f := by
  unfold State.receive
  rw [hear_takes hu h]

theorem takeIn_refused {u : State} (h : s.receive p f = (u, false)) : s.takeIn p f = (u, false) := by
  unfold State.takeIn
  rw [h]

theorem takeIn_new {u : State} (h : s.receive p f = (u, true)) : s.takeIn p f = (u.noteHeard f, true) := by
  unfold State.takeIn
  rw [h]

theorem doDataFrame_refused {u : State} (hk : f.kind = 1) (h : s.takeIn p f = (u, false)) : doDataFrame p f s = u := by
  unfold doDataFrame
  rw [if_neg (not_not.2 hk), h]

/-- An ACK changes its flow, what has been sent and the free values. -/
structure Acks (s t : State) : Prop where
  rest : t = { s with fabric := t.fabric, freeCtr := t.freeCtr }

theorem sendAck_rest (s : State) (r : RxFlow) : s.sendAck r = { s with fabric := (s.sendAck r).fabric, freeCtr := (s.sendAck r).freeCtr } := by
  have sent {u v : State} {f : Frame} (h : u.transmit none f = some v) (g : RxFlow) : v.setRx g = { u with fabric := (v.setRx g).fabric } := by
    have hv := onlyFabric_transmit h
    unfold State.setRx State.modFabric
    dsimp only
    rw [hv]
  unfold State.sendAck
  split
  · rfl
  · dsimp only
    split
    · rfl
    next v h =>
      rw [sent h]
      rfl

/-- A frame that is behind its window, or accepted, is counted and acknowledged again. -/
theorem takeSeq_duplicate {r : RxFlow} (hs : f.start = false) (hr : s.rxFlow f.src f.job f.channel = some r)
    (h : 2 ^ 31 ≤ dist32 f.seq r.expected ∨ f.seq.toNat ∈ r.seen) : s.takeSeq p f =
      ((s.modLink (dieOfPort p) (fun k => { k with rxDup := satAdd k.rxDup 1 })).sendAck r, false) := by
  have hdup : 2 ^ 31 ≤ dist32 f.seq r.expected ∨ r.seen.contains f.seq.toNat = true := h.imp_right List.elem_iff.2
  unfold State.takeSeq
  rw [hs]
  simp only [Bool.false_eq_true, if_false, hr, Option.getD_some]
  exact if_pos hdup

/-- The flow that has taken in the frame it expected. -/
def RxFlow.stepped (r : RxFlow) (now : Nat) : RxFlow :=
  { r with expected := r.expected + 1, fresh := r.fresh + 1, firstAt := some (r.firstAt.getD now) }

theorem takeSeq_inOrder {r : RxFlow} (hs : f.start = false) (hr : s.rxFlow f.src f.job f.channel = some r) (he : f.seq = r.expected)
    (hn : r.seen = []) (hf : r.fresh < 15) : s.takeSeq p f = (s.setRx (r.stepped s.pilot), true) := by
  have hd : dist32 f.seq r.expected = 0 := by
    rw [he]
    simp [dist32]
  unfold State.takeSeq
  rw [hs]
  simp only [Bool.false_eq_true, if_false, hr, Option.getD_some, hd]
  rw [if_neg (by rw [hn]; simp), if_neg (by omega), he, advance_inOrder hn 1023]
  dsimp only
  rw [if_neg (by omega)]
  rfl

/-! ### A context without a dispatched fabric command -/

variable {x : Fin 16} {job : Nat}

theorem fabRuns_of_nil (h : (s.ctx x).fabricRun = []) : s.fabRuns x = [] := by
  unfold State.fabRuns
  rw [h]
  rfl

theorem matchRts_of_nil (h : (s.ctx x).fabricRun = []) : s.matchRts x job = s := by
  unfold State.matchRts
  rw [fabRuns_of_nil h]
  rfl

theorem settle_of_nil (h : (s.ctx x).fabricRun = []) : s.settle x job = s := by
  unfold State.settle
  rw [fabRuns_of_nil h]
  rfl

theorem drainOne_of_nil (h : (s.ctx x).fabricRun = []) (hc : f.channel = 0) : s.drainOne x f = s := by
  have hnone : s.collsFor x f = [] := by
    unfold State.collsFor
    rw [fabRuns_of_nil h]
    rfl
  unfold State.drainOne
  dsimp only
  rw [if_pos hc, hnone]
  rfl

theorem foldl_stays {α β : Type} (g : β → α → β) (b : β) (l : List α) (h : ∀ a ∈ l, g b a = b) : l.foldl g b = b := by
  induction l with
  | nil => rfl
  | cons a l ih =>
    rw [List.foldl_cons, h a List.mem_cons_self]
    exact ih (fun c hc => h c (List.mem_cons_of_mem _ hc))

theorem drain_of_nil (h : (s.ctx x).fabricRun = []) (hc : ∀ g ∈ s.fabric.early, g.job = job → g.channel = 0) : s.drain x job = s := by
  unfold State.drain
  refine foldl_stays _ s _ (fun g hg => ?_)
  split
  next hj => exact drainOne_of_nil h (hc g hg hj)
  · rfl

theorem progress_of_nil (h : (s.ctx x).fabricRun = []) (hc : ∀ g ∈ s.fabric.early, g.job = job → g.channel = 0) :
    s.progress x job = s := by
  unfold State.progress
  rw [drain_of_nil h hc, matchRts_of_nil h, settle_of_nil h]

theorem mem_insertEarly {g f : Frame} {l : List Frame} (h : g ∈ insertEarly f l) : g = f ∨ g ∈ l := by
  induction l with
  | nil => exact .inl (List.mem_singleton.1 h)
  | cons u l ih =>
    unfold insertEarly at h
    split at h
    · exact List.mem_cons.1 h
    · rcases List.mem_cons.1 h with h | h
      · exact .inr (List.mem_cons.2 (.inl h))
      · exact (ih h).imp_right (List.mem_cons_of_mem u)

/-- The new frame of a collective waits for its command. -/
theorem doDataFrame_keeps (hk : f.kind = 1) (hc : f.channel = 0) {u : State} (ht : s.takeIn p f = (u, true)) (hj : u.jobCtx f.job = some x)
    (hr : (u.ctx x).fabricRun = []) (he : ∀ g ∈ u.fabric.early, g.job = f.job → g.channel = 0) : doDataFrame p f s = u.keep f := by
  unfold doDataFrame
  rw [if_neg (not_not.2 hk), ht]
  dsimp only
  rw [hj]
  dsimp only
  rw [if_pos (by omega)]
  refine progress_of_nil hr (fun g hg hgj => ?_)
  rcases mem_insertEarly hg with rfl | hg
  · exact hc
  · exact he g hg hgj

/-! ### An acknowledgement -/

theorem endServices_of_nil (h : s.fabric.services = []) : s.endServices = s := by
  unfold State.endServices
  rw [h]
  rfl

/-- The frames that an ACK leaves in a flow. -/
theorem ackedFrames (l : List OutFrame) (q : OutFrame → Bool) (sacked : OutFrame → Bool) :
    ((l.filter q).map (fun o => if sacked o then { o with sacked := true } else o)).map (·.frame) = (l.filter q).map (·.frame) :=
  map_frame_ite _ sacked _ (fun _ => rfl)

/-- A flow after an ACK. -/
def TxFlow.acked (t : TxFlow) (f : Frame) : TxFlow :=
  let acked := fun (o : OutFrame) => decide (2 ^ 31 ≤ dist32 o.frame.seq f.msg) && o.sent.isSome
  let sacked := fun (o : OutFrame) =>
    let d := dist32 o.frame.seq (f.msg + 1)
    decide (d < 64) && f.offset.getLsbD d
  { t with
    credit := min 1024 (max 16 f.word.toNat)
    cwnd := if t.frames.any acked then min 1024 (t.cwnd + 1) else t.cwnd
    frames := (t.frames.filter (fun o => !acked o)).map (fun o => if sacked o then { o with sacked := true } else o) }

/-- The state after the ACK of a flow, before services and commands end. -/
def State.ackFlow (s : State) (f : Frame) (t : TxFlow) : State :=
  let s2 := s.modTx f.src f.job f.channel (fun _ => t)
  (if s2.maySend then s2.fastResend t else s2).pump f.src f.job f.channel

theorem keepsFlow_ackFlow (s : State) {t : TxFlow} (ht : t.isKey f.src f.job f.channel = true) :
    KeepsFlow f.src f.job f.channel (s.modTx f.src f.job f.channel (fun _ => t)) (s.ackFlow f t) := by
  unfold State.ackFlow
  refine KeepsFlow.trans ?_ (keepsFlow_pump _)
  split
  · exact keepsFlow_fastResend _ ht
  · exact KeepsFlow.refl _

theorem doAckFrame_eq {u : TxFlow} (hk : f.kind = 2) (hp : s.portUp p = true) (hok : s.frameOk f = true)
    (hu : s.txFlow f.src f.job f.channel = some u) {v : State} (hv : ((s.peerHeard f).noteHeard f).ackFlow f (u.acked f) = v)
    (hsv : v.fabric.services = []) (hrun : ∀ x, v.jobCtx f.job = some x → (v.ctx x).fabricRun = []) : doAckFrame p f s = v := by
  have hflow : ((s.peerHeard f).noteHeard f).txFlow f.src f.job f.channel = some u := hu
  have hend : v.endServices = v := endServices_of_nil hsv
  have heq : doAckFrame p f s = (v.endServices.jobCtx f.job).elim v.endServices (fun x => v.endServices.settle x f.job) := by
    unfold doAckFrame
    rw [if_neg (not_not.2 hk), hear_takes hp hok]
    dsimp only
    rw [hflow, ← hv]
    unfold State.ackFlow TxFlow.acked
    dsimp only
    split
    next x h => rw [h]; rfl
    next h => rw [h]; rfl
  rw [heq, hend]
  cases hj : v.jobCtx f.job with
  | none => rfl
  | some x => exact settle_of_nil (hrun x hj)

theorem doAckFrame_acks {u : TxFlow} (hk : f.kind = 2) (hp : s.portUp p = true) (hok : s.frameOk f = true)
    (hu : s.txFlow f.src f.job f.channel = some u) (hsv : s.fabric.services = [])
    (hrun : ∀ x, s.jobCtx f.job = some x → (s.ctx x).fabricRun = []) :
    ∃ t v, doAckFrame p f s = t ∧ t = { s with fabric := t.fabric } ∧
        t.txFlow f.src f.job f.channel = some v ∧ v.credit = min 1024 (max 16 f.word.toNat) ∧ v.next = u.next ∧
        v.frames.map (·.frame) = (u.frames.filter (fun o =>
          !(decide (2 ^ 31 ≤ dist32 o.frame.seq f.msg) && o.sent.isSome))).map (·.frame) := by
  have hkey : (u.acked f).isKey f.src f.job f.channel = true := by
    have h : u.isKey f.src f.job f.channel = true := List.find?_some (p := fun q : TxFlow => q.isKey f.src f.job f.channel) hu
    exact h
  have hflow : (((s.peerHeard f).noteHeard f).modTx f.src f.job f.channel (fun _ => u.acked f)).txFlow f.src f.job f.channel =
      some (u.acked f) := by
    rw [txFlow_modTx _ (fun _ _ => hkey)]
    exact congrArg (Option.map (fun _ => u.acked f)) hu
  have hkeep := keepsFlow_ackFlow ((s.peerHeard f).noteHeard f) hkey
  obtain ⟨v, hv, hcredit, hnext, hframes⟩ := hkeep.flow _ hflow
  have hrest : OnlyFabric s (((s.peerHeard f).noteHeard f).ackFlow f (u.acked f)) :=
    OnlyFabric.trans (t := ((s.peerHeard f).noteHeard f).modTx f.src f.job f.channel (fun _ => u.acked f)) rfl hkeep.rest
  have hserv := hkeep.services.trans hsv
  generalize ht : ((s.peerHeard f).noteHeard f).ackFlow f (u.acked f) = t at hv hrest hserv
  have hruns : ∀ x, t.jobCtx f.job = some x → (t.ctx x).fabricRun = [] := by
    rw [hrest]
    exact hrun
  exact ⟨t, v, doAckFrame_eq hk hp hok hu ht hserv hruns, hrest, hv, hcredit, hnext, hframes.trans (ackedFrames _ _ _)⟩

end

/-- Settles O43: a frame is discarded, counted again or taken in by its flow, and an ACK takes frames out of theirs. -/
theorem framesAreTakenInOnce : Obligations.FramesAreTakenInOnce := by
  intro s p hu hp
  have run {f t} (h : f s = t) : inDies f s = .next t := (inDies_up _ _ hu).trans (congrArg _ h)
  have discard (o : Option Frame) (h : ∀ f ∈ o, s.frameOk f = false) : doRxDiscard p o s = s.discardFrame p := by
    unfold doRxDiscard
    rw [hp]
    cases o with
    | none => rfl
    | some f =>
      have hf : (!s.frameOk f) = true := by rw [h f rfl]; rfl
      exact if_pos hf
  refine ⟨run (discard none (fun _ h => nomatch h)), fun f hf => ⟨run (discard (some f) (fun g h => ?_)), fun hk => run ?_, fun hk => run ?_⟩,
    fun f r hk hok hs hr h => ?_, fun f x r hk hc hok hs hj hrun hr he hn hfr hearly => ?_, fun f u hk hok hu' hsv hrun => ?_⟩
  · rw [← Option.some.inj h]
    exact hf
  · exact doDataFrame_refused hk (takeIn_refused (receive_discards hp hf))
  · unfold doAckFrame
    rw [if_neg (not_not.2 hk), hear_discards hp hf]
    rfl
  · have hdup := takeSeq_duplicate (s := s.peerHeard f) (p := p) hs hr h
    have hrest := sendAck_rest ((s.peerHeard f).modLink (dieOfPort p) (fun k => { k with rxDup := satAdd k.rxDup 1 })) r
    have heq := doDataFrame_refused hk (takeIn_refused ((receive_takes hp hok).trans hdup))
    generalize ((s.peerHeard f).modLink (dieOfPort p) (fun k => { k with rxDup := satAdd k.rxDup 1 })).sendAck r = t at hrest heq
    exact ⟨t, run heq, hrest⟩
  · have hin := takeIn_new ((receive_takes hp hok).trans (takeSeq_inOrder (s := s.peerHeard f) (p := p) hs (by rw [hc]; exact hr) he hn hfr))
    have hkey : (r.stepped s.pilot).isKey f.src f.job 0 = true := by
      have h := rxFlow_key hr
      exact h
    have hset := rxFlow_setRx (s.peerHeard f) hkey
    exact ⟨_, run (doDataFrame_keeps (x := x) hk hc hin hj hrun hearly), rfl, rfl, r.stepped s.pilot, hset, rfl, rfl⟩
  · obtain ⟨t, v, heq, h⟩ := doAckFrame_acks hk hp hok hu' hsv hrun
    exact ⟨t, v, run heq, h⟩

end Sys2Proof.Machine
end

section
/-! PROOFS. What fabric commands leave of flows and queues (14). -/

namespace Sys2Proof.Machine

open Sys2Proof

/-! ## What fabric commands leave of flows and queues (14, R356 to R365) -/

/-- Flows keep the frames they hold, no RTS appears where none waited, and no command enters or leaves a fabric queue. -/
structure Serves (s t : State) : Prop where
  flows : ∀ peer job channel u, s.txFlow peer job channel = some u → ∃ v, t.txFlow peer job channel = some v ∧
    u.frames.map (·.frame) ⊆ v.frames.map (·.frame)
  rts : s.fabric.rts = [] → t.fabric.rts = []
  queue : ∀ x, (t.ctx x).fabric = (s.ctx x).fabric

theorem Serves.refl (s : State) : Serves s s := ⟨fun _ _ _ u h => ⟨u, h, List.Subset.refl _⟩, fun h => h, fun _ => rfl⟩

theorem Serves.trans {s t u : State} (h : Serves s t) (k : Serves t u) : Serves s u := by
  refine ⟨fun peer job channel a ha => ?_, fun hr => k.rts (h.rts hr), fun x => (k.queue x).trans (h.queue x)⟩
  obtain ⟨b, hb, hab⟩ := h.flows peer job channel a ha
  obtain ⟨c, hc, hbc⟩ := k.flows peer job channel b hb
  exact ⟨c, hc, fun f hf => hbc (hab hf)⟩

theorem serves_foldl {α : Type} (f : State → α → State) (l : List α) (h : ∀ s a, Serves s (f s a)) (s : State) :
    Serves s (l.foldl f s) := frame_foldl Serves.refl Serves.trans f l (fun s a _ => h s a) s

theorem serves_foldl_pair {α β : Type} (f : State × β → α → State × β) (l : List α) (h : ∀ r a, Serves r.1 (f r a).1)
    (r : State × β) : Serves r.1 (l.foldl f r).1 := by
  induction l generalizing r with
  | nil => exact Serves.refl r.1
  | cons a l ih => exact (h r a).trans (ih (f r a))

/-- A frame in a flow stays there. -/
theorem Serves.sends {s t : State} (h : Serves s t) {peer job channel : Nat} {p : Frame → Prop} (k : Sends s peer job channel p) :
    Sends t peer job channel p := by
  obtain ⟨u, hu, o, ho, hp⟩ := k
  obtain ⟨v, hv, hsub⟩ := h.flows peer job channel u hu
  obtain ⟨o', ho', he⟩ := List.mem_map.1 (hsub (List.mem_map_of_mem ho))
  exact ⟨v, hv, o', ho', by rw [he]; exact hp⟩

/-- What changes no flow, no RTS and no queue. -/
theorem serves_of_same {s t : State} (ht : t.fabric.tx = s.fabric.tx) (hr : s.fabric.rts = [] → t.fabric.rts = [])
    (hq : ∀ x, (t.ctx x).fabric = (s.ctx x).fabric) : Serves s t :=
  ⟨fun peer job channel u h => ⟨u, (congrArg (List.find? (fun q : TxFlow => q.isKey peer job channel)) ht).trans h, List.Subset.refl _⟩, hr, hq⟩

theorem serves_of_fabric {s t : State} (hf : t.fabric = s.fabric) (hq : ∀ x, (t.ctx x).fabric = (s.ctx x).fabric) : Serves s t :=
  serves_of_same (congrArg Fabric.tx hf) (fun h => (congrArg Fabric.rts hf).trans h) hq

theorem OnlyWork.fabric {s t : State} (h : OnlyWork s t) : t.fabric = s.fabric := by
  unfold OnlyWork at h
  rw [h]

theorem serves_of_written {s t : State} (h : OnlyWork s t) (k : Written s t) : Serves s t :=
  serves_of_fabric h.fabric (fun x => by rw [k.ctx x])

theorem serves_of_calm {s t : State} (h : OnlyWork s t) (k : Calm s t) : Serves s t :=
  serves_of_fabric h.fabric (fun x => by rw [k.ctx x])

theorem serves_of_reads {s t : State} (h : Reads s t) : Serves s t :=
  serves_of_fabric (by rw [h.rest]) (fun x => by rw [h.ctx x])

/-! ### Memory and runs -/

theorem serves_rwrite (s : State) (x : Fin 16) (space : Nat) (c : Fin 4) (a : Nat) (bs : List PByte) :
    Serves s (s.rwrite x space c a bs) := serves_of_written (onlyWork_rwrite s x space c a bs) (written_rwrite s x space c a bs)

theorem serves_uwrite (s : State) (a : Nat) (bs : List PByte) : Serves s (s.uwrite a bs) :=
  serves_of_written (onlyWork_uwrite s a bs) (written_uwrite s a bs)

theorem serves_poisonRegion (s : State) (x : Fin 16) (c : Fin 4) (r : Region) : Serves s (s.poisonRegion x c r) :=
  serves_of_written (onlyWork_poisonRegion s x c r) (written_poisonRegion s x c r)

theorem serves_touchRange (s : State) (a n : Nat) (reader : Option (Fin 4)) : Serves s (s.touchRange a n reader) :=
  serves_of_reads (reads_touchRange s a n reader)

theorem serves_modRun (s : State) (id : Nat) (f : Run → Run) : Serves s (s.modRun id f) :=
  serves_of_fabric rfl (fun x => by rw [modRun_ctx])

theorem serves_notePoison (s : State) (r : Run) (p : Bool) : Serves s (s.notePoison r p) := by
  unfold State.notePoison
  split
  · exact serves_modRun s _ _
  · exact Serves.refl s

theorem serves_detect (s : State) (f : FaultRec) : Serves s (s.detect f) := serves_of_fabric rfl (fun _ => rfl)

theorem serves_failClean (s : State) (r : Run) (reason : Nat) : Serves s (s.failClean r reason) := serves_modRun s _ _

/-! ### Progress -/

theorem serves_modFabOf (s : State) (run : Nat) (g : Fab → Fab) : Serves s (s.modFabOf run g) :=
  serves_of_same rfl (fun h => h) (fun _ => rfl)

theorem serves_dropFab (s : State) (run : Nat) : Serves s (s.dropFab run) := serves_of_same rfl (fun h => h) (fun _ => rfl)

theorem serves_fabFail (s : State) (r : Run) (reason : Nat) : Serves s (s.fabFail r reason) :=
  (serves_failClean s r reason).trans (serves_dropFab _ _)

theorem serves_sendSink (s : State) (r : Run) : Serves s (s.sendSink r) := by
  unfold State.sendSink
  split
  · exact Serves.refl s
  · split
    · exact Serves.refl s
    · exact (serves_modFabOf s _ _).trans (serves_detect _ _)

theorem serves_gotPoison (s : State) (r : Run) (p : Bool) : Serves s (s.gotPoison r p) := by
  unfold State.gotPoison
  split
  · exact serves_modFabOf s _ _
  · exact Serves.refl s

/-! ### Flows -/

/-- A change of one flow that keeps every key. -/
theorem txFlow_modTx_any (s : State) (peer job channel peer' job' channel' : Nat) {g : TxFlow → TxFlow}
    (hg : ∀ t, (g t).peer = t.peer ∧ (g t).job = t.job ∧ (g t).channel = t.channel) :
    (s.modTx peer job channel g).txFlow peer' job' channel' =
      (s.txFlow peer' job' channel').map (fun t => if t.isKey peer job channel then g t else t) := by
  have hkey : (TxFlow.isKey · peer' job' channel') ∘ (fun t => if t.isKey peer job channel then g t else t) =
      (TxFlow.isKey · peer' job' channel') := by
    funext t
    obtain ⟨h1, h2, h3⟩ := hg t
    simp only [Function.comp]
    split
    · simp only [TxFlow.isKey, h1, h2, h3]
    · rfl
  show (s.fabric.tx.map _).find? _ = _
  rw [List.find?_map, hkey]
  rfl

theorem serves_modTx (s : State) (peer job channel : Nat) {g : TxFlow → TxFlow}
    (hg : ∀ t, (g t).peer = t.peer ∧ (g t).job = t.job ∧ (g t).channel = t.channel)
    (hf : ∀ t, t.frames.map (·.frame) ⊆ (g t).frames.map (·.frame)) : Serves s (s.modTx peer job channel g) := by
  refine ⟨fun p j c u hu => ⟨if u.isKey peer job channel then g u else u, ?_, ?_⟩, fun h => h, fun _ => rfl⟩
  · rw [txFlow_modTx_any s _ _ _ _ _ _ hg, hu]
    rfl
  · split
    · exact hf u
    · exact List.Subset.refl _

theorem serves_transmit {s t : State} {p : Option (Fin 16)} {f : Frame} (h : s.transmit p f = some t) : Serves s t := by
  have next : ∀ t, s.nextPort.map (fun q => s.wire q f) = some t → Serves s t := by
    intro t h
    obtain ⟨q, -, rfl⟩ := Option.map_eq_some_iff.1 h
    exact serves_of_same rfl (fun h => h) (fun _ => rfl)
  unfold State.transmit at h
  split at h
  · split at h
    · cases h
      exact serves_of_same rfl (fun h => h) (fun _ => rfl)
    · exact next t h
  · exact next t h

theorem serves_pump (s : State) (peer job channel : Nat) : Serves s (s.pump peer job channel) := by
  unfold State.pump
  split
  · exact Serves.refl s
  · dsimp only
    split
    · exact Serves.refl s
    · refine serves_foldl _ _ (fun s o => ?_) s
      split
      · exact Serves.refl s
      next h =>
        refine (serves_transmit h).trans (serves_modTx _ _ _ _ (fun _ => ⟨rfl, rfl, rfl⟩) (fun t => ?_))
        rw [markSent_frames]
        exact List.Subset.refl _

/-- The state in which a flow exists. -/
def State.opened (s : State) (x : Option (Fin 16)) (f : Frame) : State :=
  match s.txFlow f.dst f.job f.channel with
  | some _ => s
  | none => s.modFabric (fun b => { b with tx := b.tx ++ [TxFlow.fresh f.dst f.job f.channel x] })

/-- A flow with one frame more. -/
def TxFlow.push (t : TxFlow) (x : Option (Fin 16)) (owner : Option Nat) (port : Option (Fin 16)) (f : Frame) : TxFlow :=
  { t with x := x, next := t.next + 1, start := false
           frames := t.frames ++ [{ frame := { f with seq := t.next, start := t.start }, sent := none, timeouts := 0, sacked := false
                                    fast := false, owner := owner, port := port }] }

theorem enqueue_eq (s : State) (x : Option (Fin 16)) (owner : Option Nat) (port : Option (Fin 16)) (f : Frame) :
    s.enqueue x owner port f = ((s.opened x f).modTx f.dst f.job f.channel (·.push x owner port f)).pump f.dst f.job f.channel := rfl

theorem opened_flow (s : State) (x : Option (Fin 16)) (f : Frame) :
    Serves s (s.opened x f) ∧ ∃ u, (s.opened x f).txFlow f.dst f.job f.channel = some u := by
  unfold State.opened
  split
  next u h => exact ⟨Serves.refl s, u, h⟩
  next h =>
    refine ⟨⟨fun peer job channel u hu => ⟨u, ?_, List.Subset.refl _⟩, fun h => h, fun _ => rfl⟩, TxFlow.fresh f.dst f.job f.channel x, ?_⟩
    · show (s.fabric.tx ++ _).find? _ = _
      rw [List.find?_append]
      have hu' : s.fabric.tx.find? (fun q => q.isKey peer job channel) = some u := hu
      rw [hu']
      rfl
    · show (s.fabric.tx ++ _).find? _ = _
      rw [List.find?_append]
      have hn : s.fabric.tx.find? (fun q => q.isKey f.dst f.job f.channel) = none := h
      rw [hn, List.find?_cons_of_pos (p := fun q : TxFlow => q.isKey f.dst f.job f.channel) (by simp [TxFlow.isKey, TxFlow.fresh])]
      rfl

theorem serves_push (s : State) (x : Option (Fin 16)) (owner : Option Nat) (port : Option (Fin 16)) (f : Frame) :
    Serves s (s.modTx f.dst f.job f.channel (·.push x owner port f)) :=
  serves_modTx s _ _ _ (fun _ => ⟨rfl, rfl, rfl⟩) (fun t => by
    simp only [TxFlow.push, List.map_append]
    exact List.subset_append_left _ _)

theorem serves_enqueue (s : State) (x : Option (Fin 16)) (owner : Option Nat) (port : Option (Fin 16)) (f : Frame) :
    Serves s (s.enqueue x owner port f) := by
  rw [enqueue_eq]
  exact ((opened_flow s x f).1.trans (serves_push _ x owner port f)).trans (serves_pump _ _ _ _)

/-- A frame that is given its place is in its flow, but for its place. -/
theorem sends_enqueue (s : State) (x : Option (Fin 16)) (owner : Option Nat) (port : Option (Fin 16)) (f : Frame) {p : Frame → Prop}
    (hp : ∀ n b, p { f with seq := n, start := b }) : Sends (s.enqueue x owner port f) f.dst f.job f.channel p := by
  obtain ⟨u, hu⟩ := (opened_flow s x f).2
  rw [enqueue_eq]
  refine (serves_pump _ _ _ _).sends ⟨u.push x owner port f, ?_, _, List.mem_append_right _ (List.mem_singleton_self _), hp _ _⟩
  rw [txFlow_modTx_any _ _ _ _ _ _ _ (g := (·.push x owner port f)) (fun _ => ⟨rfl, rfl, rfl⟩), hu]
  exact congrArg some (if_pos (List.find?_some (p := fun q : TxFlow => q.isKey f.dst f.job f.channel) hu))

theorem onlyFabric_enqueue (s : State) (x : Option (Fin 16)) (owner : Option Nat) (port : Option (Fin 16)) (f : Frame) :
    OnlyFabric s (s.enqueue x owner port f) := by
  rw [enqueue_eq]
  refine OnlyFabric.trans (OnlyFabric.trans ?_ (onlyFabric_modTx _ _ _ _ _)) (onlyFabric_pump _ _ _ _)
  unfold State.opened
  split <;> rfl

/-! ### Collectives -/

theorem serves_touchElems (s : State) (t : Tensor) (e n : Nat) : Serves s (s.touchElems t e n) := by
  unfold State.touchElems
  split
  · exact Serves.refl s
  · exact serves_foldl _ _ (fun s _ => serves_touchRange s _ _ _) s

theorem serves_writeElems (s : State) (x : Fin 16) (c : Fin 4) (t : Tensor) (e : Nat) (vs : List PV) : Serves s (s.writeElems x c t e vs) :=
  serves_foldl_pair _ _ (fun r _ => serves_rwrite r.1 _ _ _ _ _) (s, vs)

theorem serves_collOut (s : State) (r : Run) (a : CollArgs) (chunk e : Nat) (vs : List PV) : Serves s (s.collOut r a chunk e vs) :=
  (serves_writeElems s _ _ _ _ _).trans (serves_notePoison _ _ _)

theorem serves_sendElems (s : State) (r : Run) (a : CollArgs) (job next step stripe off len : Nat) (clean : Bool) (vs : List PV) :
    Serves s (s.sendElems r a job next step stripe off len clean vs) := by
  unfold State.sendElems
  refine serves_foldl _ _ (fun s c => ?_) s
  dsimp only
  split
  · exact (serves_enqueue s _ _ _ _).trans (serves_sendSink _ _)
  · exact serves_enqueue s _ _ _ _

theorem serves_collSend (s : State) (r : Run) (a : CollArgs) (job next step chunk : Nat) (final : Bool) :
    Serves s (s.collSend r a job next step chunk final) := by
  unfold State.collSend
  refine serves_foldl _ _ (fun s st => ?_) s
  dsimp only
  split
  · exact Serves.refl s
  · refine Serves.trans ?_ (serves_sendElems _ _ _ _ _ _ _ _ _ _ _)
    split
    · exact (serves_touchElems s _ _ _).trans (serves_collOut _ _ _ _ _ _)
    · exact serves_touchElems s _ _ _

theorem serves_collStart (s : State) (r : Run) (a : CollArgs) (job next : Nat) : Serves s (s.collStart r a job next) := by
  unfold State.collStart
  split
  · exact serves_collSend s _ _ _ _ _ _ _
  · split
    · exact serves_collSend s _ _ _ _ _ _ _
    · split
      · exact serves_foldl _ _ (fun s _ => serves_collSend s _ _ _ _ _ _ _) s
      · exact Serves.refl s

theorem serves_collStep (s : State) (r : Run) (a : CollArgs) (job next step stripe off : Nat) (poison : Bool) (vs : List PV) :
    Serves s (s.collStep r a job next step stripe off poison vs) := by
  unfold State.collStep
  dsimp only
  split
  · split
    · exact (serves_touchElems s _ _ _).trans (serves_sendElems _ _ _ _ _ _ _ _ _ _ _)
    · split
      · exact ((serves_touchElems s _ _ _).trans (serves_collOut _ _ _ _ _ _)).trans (serves_sendElems _ _ _ _ _ _ _ _ _ _ _)
      · exact (serves_touchElems s _ _ _).trans (serves_collOut _ _ _ _ _ _)
  · have onward (b : Bool) (k : Nat) : Serves s (if b then
        (s.collOut r a (a.arrives step) (a.stripeAt (a.arrives step) stripe + off) vs).sendElems r a job next k stripe off
          (a.stripeLen (a.arrives step) stripe) (!poison) vs
        else s.collOut r a (a.arrives step) (a.stripeAt (a.arrives step) stripe + off) vs) := by
      split
      · exact (serves_collOut s _ _ _ _ _).trans (serves_sendElems _ _ _ _ _ _ _ _ _ _ _)
      · exact serves_collOut s _ _ _ _ _
    exact onward _ _

theorem serves_collTake (s : State) (r : Run) (f : Frame) : Serves s (s.collTake r f) :=
  ((serves_modFabOf s _ _).trans (serves_gotPoison _ _ _)).trans (serves_collStep _ _ _ _ _ _ _ _ _ _)

/-! ### Messages -/

theorem serves_sendBytes (s : State) (x : Fin 16) (owner channel job peer : Nat) (msg word : W32) (bs : List PByte) :
    Serves s (s.sendBytes x owner channel job peer msg word bs).1 :=
  serves_foldl_pair _ _ (fun r _ => serves_enqueue r.1 _ _ _ _) (s, false)

theorem serves_sendCts (s : State) (x : Fin 16) (channel job peer : Nat) (msg : W32) (status : Nat) :
    Serves s (s.sendCts x channel job peer msg status) := serves_enqueue s _ _ _ _

theorem serves_sendRts (s : State) (r : Run) (job : Nat) : Serves s (s.sendRts r job) :=
  (serves_enqueue s _ _ _ _).trans (serves_modFabOf _ _ _)

/-- The state whose reads of a message's pieces have been made. -/
def State.touchMsg (s : State) (m : MsgArgs) : State :=
  if m.t.space = 0 then s else (msgPieces m 0 m.bytes).foldl (fun s q => s.touchRange q.1 q.2 none) s

/-- The bytes of a message. -/
def State.msgBytes (s : State) (x : Fin 16) (m : MsgArgs) : List PByte :=
  (msgPieces m 0 m.bytes).flatMap (fun q => s.rread x m.t.space m.core q.1 q.2)

theorem serves_touchMsg (s : State) (m : MsgArgs) : Serves s (s.touchMsg m) := by
  unfold State.touchMsg
  split
  · exact Serves.refl s
  · exact serves_foldl _ _ (fun s _ => serves_touchRange s _ _ _) s

/-- What follows the data of a SEND. -/
def State.dataSent (s : State) (r : Run) (bad : Bool) : State :=
  if bad then (s.modFabOf r.id (fun g => { g with phase := 2 })).sendSink r else s.modFabOf r.id (fun g => { g with phase := 2 })

theorem sendData_eq (s : State) (r : Run) (job : Nat) {m : MsgArgs} (hm : m = msgArgs r.cmd) : s.sendData r job =
    ((s.touchMsg m).sendBytes r.x r.id 1 job m.peer m.tag 0 ((s.touchMsg m).msgBytes r.x m)).1.dataSent r
      ((s.touchMsg m).sendBytes r.x r.id 1 job m.peer m.tag 0 ((s.touchMsg m).msgBytes r.x m)).2 := by
  subst hm
  rfl

theorem serves_dataSent (s : State) (r : Run) (bad : Bool) : Serves s (s.dataSent r bad) := by
  unfold State.dataSent
  split
  · exact (serves_modFabOf s _ _).trans (serves_sendSink _ _)
  · exact serves_modFabOf s _ _

theorem serves_sendData (s : State) (r : Run) (job : Nat) : Serves s (s.sendData r job) := by
  rw [sendData_eq s r job rfl]
  exact ((serves_touchMsg s _).trans (serves_sendBytes _ _ _ _ _ _ _ _ _)).trans (serves_dataSent _ _ _)

theorem serves_writeMsg (s : State) (x : Fin 16) (m : MsgArgs) (off : Nat) (bs : List PByte) : Serves s (s.writeMsg x m off bs) :=
  serves_foldl_pair _ _ (fun r _ => serves_rwrite r.1 _ _ _ _ _) (s, bs)

theorem serves_recvTake (s : State) (r : Run) (f : Frame) : Serves s (s.recvTake r f) :=
  (((serves_modFabOf s _ _).trans (serves_gotPoison _ _ _)).trans (serves_writeMsg _ _ _ _ _)).trans (serves_notePoison _ _ _)

theorem serves_ctsTake (s : State) (r : Run) (f : Frame) : Serves s (s.ctsTake r f) := by
  unfold State.ctsTake
  split
  · exact serves_sendData s r _
  · split
    · exact serves_modFabOf s _ _
    · split
      · exact serves_fabFail s r _
      · exact serves_fabFail s r _

theorem serves_unkeep (s : State) (f : Frame) : Serves s (s.unkeep f) := serves_of_same rfl (fun h => h) (fun _ => rfl)

theorem serves_drainOne (s : State) (x : Fin 16) (f : Frame) : Serves s (s.drainOne x f) := by
  have give (rs : List Run) (take : State → Run → State) (h : ∀ s r, Serves s (take s r)) :
      Serves s (if rs.isEmpty then s.unkeep f else match s.place f rs false with
        | some r => take (s.unkeep f) r
        | none => s) := by
    split
    · exact serves_unkeep s f
    · split
      · exact (serves_unkeep s f).trans (h _ _)
      · exact Serves.refl s
  unfold State.drainOne
  dsimp only
  split
  · split
    · exact (serves_unkeep s f).trans (serves_collTake _ _ _)
    · exact Serves.refl s
  · split
    · exact give _ _ (fun s r => serves_ctsTake s r f)
    · exact give _ _ (fun s r => serves_recvTake s r f)

theorem serves_drain (s : State) (x : Fin 16) (job : Nat) : Serves s (s.drain x job) := by
  unfold State.drain
  refine serves_foldl _ _ (fun s f => ?_) s
  split
  · exact serves_drainOne s x f
  · exact Serves.refl s

theorem serves_matchRts (s : State) (x : Fin 16) (job : Nat) : Serves s (s.matchRts x job) := by
  unfold State.matchRts
  refine serves_foldl _ _ (fun s p => ?_) s
  dsimp only
  split
  · exact Serves.refl s
  · split
    · exact Serves.refl s
    next t h =>
      have herase : Serves s (s.modFabric (fun b => { b with rts := b.rts.erase t })) :=
        serves_of_same rfl (fun h => by show List.erase _ _ = _; rw [h]; rfl) (fun _ => rfl)
      split
      · exact Serves.refl s
      · split
        · exact (herase.trans (serves_sendCts _ _ _ _ _ _ _)).trans (serves_modFabOf _ _ _)
        · exact (herase.trans (serves_sendCts _ _ _ _ _ _ _)).trans (serves_fabFail _ _ _)

/-! ### Completion -/

theorem serves_shardEnd (s : State) (r : Run) (g : Fab) : Serves s (s.shardEnd r g) := by
  unfold State.shardEnd
  dsimp only
  have vers : ∀ bs, Serves s (if (shardArgs r.cmd).versOut = 0 then s else s.uwrite (shardArgs r.cmd).versOut bs) := by
    intro bs
    split
    · exact Serves.refl s
    · exact serves_uwrite s _ _
  split
  · refine Serves.trans ?_ (serves_modRun _ _ _)
    split
    · exact (vers _).trans (serves_poisonRegion _ _ _ _)
    · exact vers _
  · exact vers _

/-- A dispatched command has everything it needs. -/
def State.fabDone (s : State) (job channel : Nat) (r : Run) (g : Fab) : Bool :=
  if r.cmd.op = 0x41 then g.phase == 2 && s.allAcked r.id
  else if r.cmd.op = 0x42 then g.phase == 1 && g.parts.all (fun p => p.left == 0) && g.lasts.all (fun l => s.inOrder l.1 job channel l.2)
  else g.parts.all (fun p => p.left == 0) && g.lasts.all (fun l => s.inOrder l.1 job channel l.2) && s.allSent r.id

/-- The state in which a fabric command has ended its work. -/
def State.fabEnded (s : State) (r : Run) (g : Fab) : State :=
  let s1 := if r.cmd.op = 0x43 then s.shardEnd r g else s
  let s2 := if g.bad = 0 then s1
    else s1.modRun r.id (fun r => { r with out := { r.out with
      reason := if r.out.failed then r.out.reason else g.bad, failed := true, poisoned := true } })
  (s2.modRun r.id (fun r => { r with busy := false })).dropFab r.id

theorem settleFab_eq (s : State) (job channel : Nat) (r : Run) (g : Fab) :
    s.settleFab job channel r g = if !s.fabDone job channel r g then s else s.fabEnded r g := rfl

theorem serves_fabEnded (s : State) (r : Run) (g : Fab) : Serves s (s.fabEnded r g) := by
  have shard : Serves s (if r.cmd.op = 0x43 then s.shardEnd r g else s) := by
    split
    · exact serves_shardEnd s r g
    · exact Serves.refl s
  unfold State.fabEnded
  refine Serves.trans ?_ (serves_dropFab _ _)
  refine Serves.trans ?_ (serves_modRun _ _ _)
  dsimp only
  by_cases hb : g.bad = 0
  · rw [if_pos hb]
    exact shard
  · rw [if_neg hb]
    exact shard.trans (serves_modRun _ _ _)

theorem serves_settleFab (s : State) (job channel : Nat) (r : Run) (g : Fab) : Serves s (s.settleFab job channel r g) := by
  rw [settleFab_eq]
  split
  · exact Serves.refl s
  · exact serves_fabEnded s r g

theorem serves_settle (s : State) (x : Fin 16) (job : Nat) : Serves s (s.settle x job) := by
  unfold State.settle
  refine serves_foldl _ _ (fun s p => ?_) s
  split
  · exact serves_settleFab s _ _ _ _
  · exact Serves.refl s

theorem serves_progress (s : State) (x : Fin 16) (job : Nat) : Serves s (s.progress x job) :=
  ((serves_drain s x job).trans (serves_matchRts _ _ _)).trans (serves_settle _ _ _)

end Sys2Proof.Machine
end

section
/-! PROOFS. SEND and RECV (14). -/

namespace Sys2Proof.Machine

open Sys2Proof

/-! ## SEND and RECV (14, R362) -/

/-! ### Reads of regions -/

@[simp] theorem FeedS.read_length (f : FeedS) (o n : Nat) (tr : Bool) : (f.read o n tr).length = n := by simp [FeedS.read]

theorem wread_length (s : State) (x : Fin 16) (c : Fin 4) (w n : Nat) : (s.wread x c w n).length = n := by
  unfold State.wread
  split <;> simp

theorem rread_length (s : State) (x : Fin 16) (space : Nat) (c : Fin 4) (a n : Nat) : (s.rread x space c a n).length = n := by
  unfold State.rread
  split
  · exact wread_length s x c a n
  · exact uread_length s a n

/-- The first of the pieces of a run that is not empty. -/
theorem pieces_cons {u n : Nat} (hu : 0 < u) (hn : 0 < n) (fuel a : Nat) : ∃ k l, 0 < k ∧ pieces u (fuel + 1) a n = (a, k) :: l := by
  refine ⟨min n (u - a % u), pieces u fuel (a + min n (u - a % u)) (n - min n (u - a % u)), ?_, ?_⟩
  · have := Nat.mod_lt a hu
    omega
  · exact if_neg (by omega)

theorem flatMap_ne_nil {α β : Type} {a : α} {l : List α} {f : α → List β} (h : f a ≠ []) : (a :: l).flatMap f ≠ [] := by
  rw [List.flatMap_cons]
  exact fun hn => h (List.append_eq_nil_iff.1 hn).1

theorem msgBytes_ne (s : State) (x : Fin 16) {m : MsgArgs} (h : 0 < m.bytes) : s.msgBytes x m ≠ [] := by
  obtain ⟨k, l, hk, hp⟩ := pieces_cons (u := max m.rowBytes 1) (by omega) h (m.bytes / max m.rowBytes 1 + 1) 0
  have hm : msgPieces m 0 m.bytes = (m.t.rowAddr (0 / max m.rowBytes 1) + 0 % max m.rowBytes 1, k) ::
      l.map (fun q => (m.t.rowAddr (q.1 / max m.rowBytes 1) + q.1 % max m.rowBytes 1, q.2)) := by
    unfold msgPieces
    dsimp only
    rw [hp]
    rfl
  unfold State.msgBytes
  rw [hm]
  refine flatMap_ne_nil (fun hn => ?_)
  have hlen := congrArg List.length hn
  rw [rread_length] at hlen
  exact absurd hlen (by simp; omega)

/-! ### Data -/

theorem chunks_cons {α : Type} {n : Nat} {l : List α} (hl : l ≠ []) : ∃ c cs, chunks n l = c :: cs := by
  cases l with
  | nil => exact absurd rfl hl
  | cons a l => exact ⟨_, _, rfl⟩

/-- Bytes that are sent begin with a frame of offset 0. -/
theorem sends_sendBytes (s : State) (x : Fin 16) (owner channel job peer : Nat) (msg word : W32) {bs : List PByte} (h : bs ≠ []) :
    Sends (s.sendBytes x owner channel job peer msg word bs).1 peer job channel
      (fun a => a.kind = 1 ∧ a.msg = msg ∧ a.word = word ∧ a.offset = 0) := by
  obtain ⟨c, cs, hc⟩ := chunks_cons (n := s.payMax) h
  unfold State.sendBytes
  dsimp only
  rw [hc, List.zipIdx_cons, List.foldl_cons]
  refine (serves_foldl_pair _ _ (fun r _ => serves_enqueue r.1 _ _ _ _) _).sends ?_
  refine sends_enqueue s (some x) (some owner) none _ (fun n b => ⟨rfl, rfl, rfl, ?_⟩)
  dsimp only
  rw [Nat.zero_mul]
  rfl

theorem sends_sendData (s : State) (r : Run) (job : Nat) {m : MsgArgs} (hm : m = msgArgs r.cmd) (h : 0 < m.bytes) :
    Sends (s.sendData r job) m.peer job 1 (fun a => a.kind = 1 ∧ a.msg = m.tag ∧ a.offset = 0) := by
  rw [sendData_eq s r job hm]
  obtain ⟨u, hu, o, ho, hk, hmsg, -, hoff⟩ := sends_sendBytes (s.touchMsg m) r.x r.id 1 job m.peer m.tag 0 (msgBytes_ne (s.touchMsg m) r.x h)
  exact (serves_dataSent _ r _).sends ⟨u, hu, o, ho, hk, hmsg, hoff⟩

/-! ### Dispatch -/

/-- A fabric command that its queue lets go. -/
structure Leaves (x : Fin 16) (s s1 : State) (r : Run) : Prop where
  fabric : s1.fabric = s.fabric
  queue : (s1.ctx x).fabric = (s.ctx x).fabric.tail
  runs : (s1.ctx x).fabricRun = (s.ctx x).fabricRun ++ [r]
  id : r.id = s.hub.nextRun
  ctx : r.x = x

theorem leaves_dispatchFabric {s s1 : State} {x : Fin 16} {isOp : Cmd → Bool} {r : Run} (h : s.dispatchFabric x isOp = some (s1, r)) :
    Leaves x s s1 r ∧ isOp r.cmd = true := by
  obtain ⟨cmd, rest, hq, ho, -, rfl, rfl⟩ := dispatchFabric_inv h
  have hctx := (enterQueue_calm s x cmd (fun k => { k with
    fabric := rest, fabricWait := 0, fabricStarve := 0, fabricRun := k.fabricRun ++ [s.entering x cmd] })).ctx x
  rw [State.modCtx_same] at hctx
  refine ⟨⟨?_, by rw [hctx, hq]; rfl, by rw [hctx], rfl, rfl⟩, ho⟩
  have hrest := (tidy_claims x (s.modCtx x (fun k => { k with
    fabric := rest, fabricWait := 0, fabricStarve := 0, fabricRun := k.fabricRun ++ [s.entering x cmd] })) (s.claimsOf x cmd)).rest
  have heq : (s.enterQueue x cmd (fun k => { k with
      fabric := rest, fabricWait := 0, fabricStarve := 0, fabricRun := k.fabricRun ++ [s.entering x cmd] })).fabric =
      ((s.claimsOf x cmd).foldl (fun s k => s.claim x k) (s.modCtx x (fun k => { k with
        fabric := rest, fabricWait := 0, fabricStarve := 0, fabricRun := k.fabricRun ++ [s.entering x cmd] }))).fabric := rfl
  rw [heq, hrest]
  rfl

/-- The progress of a command that has just been dispatched. -/
def Fab.new (id : Nat) (x : Fin 16) : Fab :=
  { run := id, x := x, waits := 0, phase := 0, retry := none, parts := [], got := [], lasts := [], versions := [], bad := 0, heard := none }

/-- The state in which a dispatched command is busy. -/
def State.begun (s : State) (x : Fin 16) (r : Run) : State :=
  (s.modRun r.id (fun r => { r with busy := true })).modFabric (fun b => { b with fabs := b.fabs ++ [Fab.new r.id x] })

theorem startFab_begins {s s1 : State} {x : Fin 16} {op : Nat} {r : Run} (h : s.dispatchFabric x (fun m => m.op == op) = some (s1, r))
    (hr : s1.fabReason r = 0) (begin' : State → Run → Nat → State) : s.startFab x op begin' =
      (begin' (s1.begun x r) r (((s1.jobOf x).map (·.job)).getD 0)).settle x (((s1.jobOf x).map (·.job)).getD 0) := by
  unfold State.startFab
  rw [h]
  dsimp only
  rw [if_neg (not_not.2 hr)]
  rfl

section
variable {s s1 : State} {x : Fin 16} {r : Run}

theorem serves_begun (s : State) (x : Fin 16) (r : Run) : Serves s (s.begun x r) :=
  (serves_modRun s _ _).trans (serves_of_same rfl (fun h => h) (fun _ => rfl))

/-- A command that begins leaves its queue and what its begin sends stays in its flow. -/
theorem begins_queue (h : Leaves x s s1 r) {t : State} (ht : Serves (s1.begun x r) t) (job : Nat) :
    ((t.settle x job).ctx x).fabric = (s.ctx x).fabric.tail :=
  (((serves_begun s1 x r).trans ht).trans (serves_settle t x job)).queue x |>.trans h.queue

theorem sends_sendRts (s : State) (r : Run) (job : Nat) : Sends (s.sendRts r job) (msgArgs r.cmd).peer job 1 (fun f => f.kind = 3 ∧
    f.msg = (msgArgs r.cmd).tag ∧ f.offset = BitVec.ofNat 64 (msgArgs r.cmd).bytes) :=
  (serves_modFabOf _ _ _).sends (sends_enqueue s _ _ _ { (s.frame 3 1 job (msgArgs r.cmd).peer []) with
    msg := (msgArgs r.cmd).tag, offset := BitVec.ofNat 64 (msgArgs r.cmd).bytes } (fun _ _ => ⟨rfl, rfl, rfl⟩))

theorem matchRts_of_noRts (h : s.fabric.rts = []) (job : Nat) : s.matchRts x job = s := by
  unfold State.matchRts
  refine foldl_stays _ s _ (fun p _ => ?_)
  dsimp only
  rw [h]
  split <;> rfl

/-! ### A RECV that waits -/

/-- What other commands' ends leave of a dispatched run. -/
structure Spares (x : Fin 16) (id : Nat) (s t : State) : Prop where
  runs : ∀ q ∈ (s.ctx x).fabricRun, q.id = id → q ∈ (t.ctx x).fabricRun
  fab : t.fabOf id = s.fabOf id

variable {id : Nat}

theorem Spares.refl (s : State) : Spares x id s s := ⟨fun _ h _ => h, rfl⟩

theorem Spares.trans {s t u : State} (h : Spares x id s t) (k : Spares x id t u) : Spares x id s u :=
  ⟨fun q hq hi => k.runs q (h.runs q hq hi) hi, k.fab.trans h.fab⟩

theorem spares_of_written {s t : State} (h : OnlyWork s t) (k : Written s t) : Spares x id s t :=
  ⟨fun q hq _ => by rw [k.ctx x]; exact hq, congrArg (fun b : Fabric => b.fabs.find? (fun f : Fab => f.run == id)) h.fabric⟩

theorem spares_modRun (s : State) {n : Nat} (h : n ≠ id) (f : Run → Run) : Spares x id s (s.modRun n f) := by
  refine ⟨fun q hq hi => ?_, rfl⟩
  rw [modRun_ctx]
  exact List.mem_map.2 ⟨q, hq, if_neg (by rw [hi]; exact Ne.symm h)⟩

theorem spares_dropFab (s : State) {n : Nat} (h : n ≠ id) : Spares x id s (s.dropFab n) := by
  refine ⟨fun q hq _ => hq, ?_⟩
  show List.find? _ (List.filter _ _) = List.find? _ _
  rw [List.find?_filter]
  refine congrArg (fun p => List.find? p s.fabric.fabs) (funext fun f => ?_)
  by_cases hf : f.run = id
  · simp [hf, Ne.symm h]
  · simp [hf]

theorem spares_shardEnd (s : State) {r : Run} (h : r.id ≠ id) (g : Fab) : Spares x id s (s.shardEnd r g) := by
  unfold State.shardEnd
  dsimp only
  have vers : ∀ bs, Spares x id s (if (shardArgs r.cmd).versOut = 0 then s else s.uwrite (shardArgs r.cmd).versOut bs) := by
    intro bs
    split
    · exact Spares.refl s
    · exact spares_of_written (onlyWork_uwrite s _ _) (written_uwrite s _ _)
  split
  · refine Spares.trans ?_ (spares_modRun _ h _)
    split
    · exact (vers _).trans (spares_of_written (onlyWork_poisonRegion _ _ _ _) (written_poisonRegion _ _ _ _))
    · exact vers _
  · exact vers _

theorem spares_fabEnded (s : State) {r : Run} (h : r.id ≠ id) (g : Fab) : Spares x id s (s.fabEnded r g) := by
  have shard : Spares x id s (if r.cmd.op = 0x43 then s.shardEnd r g else s) := by
    split
    · exact spares_shardEnd s h g
    · exact Spares.refl s
  unfold State.fabEnded
  refine Spares.trans ?_ (spares_dropFab _ h)
  refine Spares.trans ?_ (spares_modRun _ h _)
  dsimp only
  by_cases hb : g.bad = 0
  · rw [if_pos hb]
    exact shard
  · rw [if_neg hb]
    exact shard.trans (spares_modRun _ h _)

/-- A command that is not done survives the ends of the others. -/
theorem spares_settle (s : State) (job : Nat) {g : Fab} (hg : s.fabOf id = some g)
    (hn : ∀ q ∈ (s.ctx x).fabricRun, q.id = id → ∀ t : State, ∀ channel, t.fabDone job channel q g = false) :
    Spares x id s (s.settle x job) := by
  have step (t : State) (p : Run × Fab) (hp : p ∈ s.fabRuns x) (ht : t.fabOf id = some g) : Spares x id t (match t.fabOf p.1.id with
      | some g => t.settleFab job (fabChannel p.1.cmd.op) p.1 g
      | none => t) := by
    by_cases hi : p.1.id = id
    · obtain ⟨q, hq, hqp⟩ := List.mem_filterMap.1 hp
      have hrun : p.1 = q := by
        obtain ⟨f, -, hf⟩ := Option.map_eq_some_iff.1 hqp
        rw [← hf]
      rw [hi, ht]
      dsimp only
      rw [settleFab_eq, hn p.1 (hrun ▸ hq) hi]
      exact Spares.refl t
    · split
      · rw [settleFab_eq]
        split
        · exact Spares.refl t
        · exact spares_fabEnded t hi _
      · exact Spares.refl t
  unfold State.settle
  have fold : ∀ (l : List (Run × Fab)), (∀ p ∈ l, p ∈ s.fabRuns x) → ∀ t : State, t.fabOf id = some g → Spares x id t
      (l.foldl (fun s p => match s.fabOf p.1.id with
        | some g => s.settleFab job (fabChannel p.1.cmd.op) p.1 g
        | none => s) t) := by
    intro l hl
    induction l with
    | nil => exact fun t _ => Spares.refl t
    | cons p l ih =>
      intro t ht
      have h := step t p (hl p List.mem_cons_self) ht
      exact h.trans (ih (fun q hq => hl q (List.mem_cons_of_mem _ hq)) _ (h.fab.trans ht))
  exact fold _ (fun _ h => h) s hg

theorem recv_notDone {q : Run} {g : Fab} (ho : q.cmd.op = 0x42) (hp : g.phase = 0) (job channel : Nat) (t : State) :
    t.fabDone job channel q g = false := by
  unfold State.fabDone
  rw [if_neg (by rw [ho]; decide), if_pos ho, hp]
  rfl

theorem begun_fab (h : Leaves x s s1 r) (hn : RunsNumbered s) : (s1.begun x r).fabOf r.id = some (Fab.new r.id x) := by
  show List.find? _ (s1.fabric.fabs ++ _) = _
  have hnone : s1.fabric.fabs.find? (fun f => f.run == r.id) = none := by
    refine List.find?_eq_none.2 (fun g hg => ?_)
    rw [h.fabric] at hg
    have hlt := hn.2.2 g hg
    rw [h.id]
    simp
    omega
  rw [List.find?_append, hnone, List.find?_cons_of_pos (by simp [Fab.new])]
  rfl

theorem begun_runs (h : Leaves x s s1 r) (hn : RunsNumbered s) : ((s1.begun x r).ctx x).fabricRun =
    (s.ctx x).fabricRun ++ [{ r with busy := true }] := by
  have hctx : ((s1.begun x r).ctx x).fabricRun = ((s1.ctx x).fabricRun).map (fun q => if q.id = r.id then { q with busy := true } else q) :=
    congrArg Ctx.fabricRun (modRun_ctx s1 r.id _ x)
  rw [hctx, h.runs, List.map_append, List.map_cons, List.map_nil, if_pos rfl]
  refine congrArg (· ++ _) ((List.map_congr_left (fun q hq => ?_)).trans (List.map_id _))
  have hlt := hn.2.1 x q (List.mem_append_left _ hq)
  exact if_neg (by rw [h.id]; omega)

end

/-! ### Frames that are taken in in their order -/

section
variable {s : State} {p : Fin 16} {f : Frame} {q : RxFlow}

/-- What a new frame notes for a command that awaits its sender. -/
def State.hearFab (s : State) (f : Frame) (g : Fab) : Fab :=
  match (s.hub.ctxs.toList.flatMap (fun k => k.fabricRun)).find? (fun r => r.id == g.run) with
  | some r => if s.awaits r g = f.src then { g with heard := some s.pilot } else g
  | none => g

theorem hearFab_eq (s : State) (f : Frame) (g : Fab) : s.hearFab f g = { g with heard := (s.hearFab f g).heard } := by
  unfold State.hearFab
  split
  · split <;> rfl
  · rfl

theorem noteHeard_eq (s : State) (f : Frame) : s.noteHeard f = s.modFabric (fun b => { b with fabs := b.fabs.map (s.hearFab f) }) := rfl

/-- Progress found after a change that keeps the runs. -/
theorem fabOf_map {s t : State} {g : Fab → Fab} (hg : ∀ a, (g a).run = a.run) (h : t.fabric.fabs = s.fabric.fabs.map g) (id : Nat) :
    t.fabOf id = (s.fabOf id).map g := by
  unfold State.fabOf
  rw [h, List.find?_map]
  have hcomp : (fun a : Fab => a.run == id) ∘ g = (fun a : Fab => a.run == id) := by
    funext a
    simp [hg]
  rw [hcomp]

theorem fabRuns_map {s t : State} {x : Fin 16} {g : Fab → Fab} (hg : ∀ a, (g a).run = a.run) (h : t.fabric.fabs = s.fabric.fabs.map g)
    (hr : (t.ctx x).fabricRun = (s.ctx x).fabricRun) : t.fabRuns x = (s.fabRuns x).map (fun p => (p.1, g p.2)) := by
  unfold State.fabRuns
  rw [hr, List.map_filterMap]
  refine congrArg (fun m => List.filterMap m _) (funext fun r => ?_)
  rw [fabOf_map hg h]
  cases s.fabOf r.id <;> rfl

theorem fabOf_of_fabRuns {x : Fin 16} {r : Run} {g : Fab} (h : s.fabRuns x = [(r, g)]) : s.fabOf r.id = some g := by
  have hm : (r, g) ∈ s.fabRuns x := by rw [h]; exact List.mem_singleton_self _
  obtain ⟨a, -, ha⟩ := List.mem_filterMap.1 hm
  obtain ⟨b, hb, hab⟩ := Option.map_eq_some_iff.1 ha
  cases hab
  exact hb

/-- The state that has taken in a frame in its order. -/
def State.tookIn (s : State) (f : Frame) (q : RxFlow) : State := ((s.peerHeard f).setRx (q.stepped s.pilot)).noteHeard f

theorem takeIn_inOrder (hu : s.portUp p = true) (hok : s.frameOk f = true) (hs : f.start = false)
    (hr : s.rxFlow f.src f.job f.channel = some q) (he : f.seq = q.expected) (hn : q.seen = []) (hf : q.fresh < 15) :
    s.takeIn p f = (s.tookIn f q, true) :=
  takeIn_new ((receive_takes hu hok).trans (takeSeq_inOrder (s := s.peerHeard f) (p := p) hs hr he hn hf))

theorem tookIn_rxFlow (hr : s.rxFlow f.src f.job f.channel = some q) :
    (s.tookIn f q).rxFlow f.src f.job f.channel = some (q.stepped s.pilot) := by
  have hkey : (q.stepped s.pilot).isKey f.src f.job f.channel = true := by
    have h := rxFlow_key hr
    exact h
  exact rxFlow_setRx (s.peerHeard f) hkey

/-- The frame is now in its order. -/
theorem tookIn_inOrder (hr : s.rxFlow f.src f.job f.channel = some q) (he : f.seq = q.expected) :
    (s.tookIn f q).inOrder f.src f.job f.channel f.seq = true := by
  unfold State.inOrder
  rw [tookIn_rxFlow hr, he]
  have hd : dist32 q.expected (q.expected + 1) = 2 ^ 32 - 1 := by
    unfold dist32
    bv_omega
  exact decide_eq_true (by show 2 ^ 31 ≤ dist32 q.expected (q.expected + 1); rw [hd]; decide)

theorem tookIn_fabRuns (s : State) (f : Frame) (q : RxFlow) (x : Fin 16) : ∃ g : Fab → Fab,
    (∀ a, g a = { a with heard := (g a).heard }) ∧ (s.tookIn f q).fabRuns x = (s.fabRuns x).map (fun p => (p.1, g p.2)) := by
  refine ⟨((s.peerHeard f).setRx (q.stepped s.pilot)).hearFab f, hearFab_eq _ f, ?_⟩
  refine fabRuns_map (s := s) (fun a => ?_) rfl rfl
  rw [hearFab_eq]

/-! ### An RTS that finds its RECV -/

variable {x : Fin 16} {r : Run} {g : Fab} {m : MsgArgs}

/-- The RTS that a frame asks with. -/
def rtsOf (x : Fin 16) (f : Frame) : Rts := { peer := f.src, x := x, seq := f.seq, tag := f.msg, bytes := f.offset.toNat }

theorem matchRts_meets {job : Nat} {t : Rts} (hr : s.fabRuns x = [(r, g)]) (ho : r.cmd.op = 0x42) (hp : g.phase = 0) (hm : m = msgArgs r.cmd)
    (ht : s.fabric.rts = [t]) (hx : t.x = x) (hpeer : t.peer = m.peer) (htag : t.tag = m.tag) (hio : s.inOrder t.peer job 1 t.seq = true)
    (hb : t.bytes = m.bytes) : s.matchRts x job = ((s.modFabric (fun b => { b with rts := [] })).sendCts x 1 job m.peer m.tag 0).modFabOf r.id
      (fun g => { g with phase := 1, parts := [⟨0, 0, ceilDiv m.bytes 64 * 64⟩] }) := by
  have herase : s.modFabric (fun b => { b with rts := b.rts.erase t }) = s.modFabric (fun b => { b with rts := [] }) := by
    unfold State.modFabric
    dsimp only
    rw [ht, List.erase_cons_head]
  unfold State.matchRts
  rw [hr, List.foldl_cons, List.foldl_nil]
  dsimp only
  rw [← hm, ho, hp, ht, List.find?_cons_of_pos (by simp [hx, hpeer, htag])]
  dsimp only
  rw [hio, if_pos hb, herase]
  rfl

theorem doRtsFrame_meets (hk : f.kind = 3) (hc : f.channel = 1) {u : State} (ht : s.takeIn p f = (u, true)) (hj : u.jobCtx f.job = some x)
    (hr : u.fabRuns x = [(r, g)]) (ho : r.cmd.op = 0x42) (hp : g.phase = 0) (hm : m = msgArgs r.cmd) (hpeer : m.peer = f.src)
    (htag : m.tag = f.msg) (hb : m.bytes = f.offset.toNat) (hrts : u.fabric.rts = [])
    (hio : u.inOrder f.src f.job 1 f.seq = true) : ∃ t, doRtsFrame p f s = t ∧ t.fabric.rts = [] ∧
      Sends t f.src f.job 1 (fun a => a.kind = 4 ∧ a.msg = f.msg ∧ a.word = 0) := by
  have hone : u.modFabric (fun b => { b with rts := insertRts (rtsOf x f) b.rts }) = u.modFabric (fun b => { b with rts := [rtsOf x f] }) := by
    unfold State.modFabric
    dsimp only
    rw [hrts]
    rfl
  have hmeets := matchRts_meets (s := u.modFabric (fun b => { b with rts := [rtsOf x f] })) (job := f.job) (t := rtsOf x f) hr ho hp hm rfl
    rfl hpeer.symm htag.symm hio hb.symm
  have hcts : Sends ((u.modFabric (fun b => { b with rts := [rtsOf x f] })).matchRts x f.job) f.src f.job 1
      (fun a => a.kind = 4 ∧ a.msg = f.msg ∧ a.word = 0) := by
    rw [hmeets, ← hpeer, ← htag]
    exact (serves_modFabOf _ _ _).sends (sends_enqueue _ _ _ _ _ (fun _ _ => ⟨rfl, rfl, rfl⟩))
  have hnone : ((u.modFabric (fun b => { b with rts := [rtsOf x f] })).matchRts x f.job).fabric.rts = [] := by
    rw [hmeets]
    exact ((serves_sendCts _ x 1 f.job m.peer m.tag 0).trans (serves_modFabOf _ _ _)).rts rfl
  generalize hv : (u.modFabric (fun b => { b with rts := [rtsOf x f] })).matchRts x f.job = v at hcts hnone
  have heq : doRtsFrame p f s = v.progress x f.job := by
    unfold doRtsFrame
    rw [if_neg (by omega), ht]
    dsimp only
    rw [hj]
    dsimp only
    rw [← rtsOf, hone, hv, hnone]
    rfl
  have hserve := serves_progress v x f.job
  exact ⟨_, heq, hserve.rts hnone, hserve.sends hcts⟩

/-! ### A CTS that finds its SEND -/

theorem foldl_insertEarly {α : Type} (F : α → Frame → α) (f : Frame) (l : List Frame) (h : ∀ g ∈ l, ∀ a, F a g = a) (a : α) :
    (insertEarly f l).foldl F a = F a f := by
  induction l with
  | nil => rfl
  | cons u l ih =>
    have hrest : ∀ b, l.foldl F b = b := fun b => foldl_stays F b l (fun g hg => h g (List.mem_cons_of_mem _ hg) b)
    unfold insertEarly
    split
    · rw [List.foldl_cons, List.foldl_cons, h u List.mem_cons_self, hrest]
    · rw [List.foldl_cons, h u List.mem_cons_self]
      exact ih (fun g hg => h g (List.mem_cons_of_mem _ hg))

/-- A kept CTS goes to the one SEND that awaits it. -/
theorem drain_cts (hr : s.fabRuns x = [(r, g)]) (he : ∀ g ∈ s.fabric.early, g.job ≠ f.job) (hk : f.kind = 4) (hc : f.channel = 1)
    (ho : r.cmd.op = 0x41) (hp : g.phase = 0) (hret : g.retry = none) (hm : m = msgArgs r.cmd) (hpeer : m.peer = f.src)
    (htag : m.tag = f.msg) : (s.keep f).drain x f.job = ((s.keep f).unkeep f).ctsTake r f := by
  have hsends : (s.keep f).sendsFor x f = [r] := by
    have hruns : (s.keep f).fabRuns x = [(r, g)] := hr
    unfold State.sendsFor
    rw [hruns, List.filter_cons_of_pos (by simp [ho, hp, hret, ← hm, hpeer, htag])]
    rfl
  have hone : (s.keep f).drainOne x f = ((s.keep f).unkeep f).ctsTake r f := by
    unfold State.drainOne
    dsimp only
    rw [if_neg (by omega), if_pos hk, hsends]
    rfl
  unfold State.drain
  have hearly : (s.keep f).fabric.early = insertEarly f s.fabric.early := rfl
  rw [hearly, foldl_insertEarly _ f _ (fun g hg a => if_neg (he g hg)), if_pos rfl, hone]

theorem doCtsFrame_keeps (hk : f.kind = 4) (hc : f.channel = 1) {u : State} (ht : s.takeIn p f = (u, true)) (hj : u.jobCtx f.job = some x) :
    doCtsFrame p f s = (u.keep f).progress x f.job := by
  unfold doCtsFrame
  rw [if_neg (not_not.2 hk), ht]
  dsimp only
  rw [hj]
  dsimp only
  rw [if_neg (by omega), if_pos hc]

/-- A busy answer notes the time for another RTS. -/
def Fab.busyAt (g : Fab) (now : Nat) : Fab := { g with retry := some now }

theorem ctsTake_busy (h : f.word = 1) : s.ctsTake r f = s.modFabOf r.id (·.busyAt s.pilot) := by
  unfold State.ctsTake
  rw [h]
  rfl

theorem ctsTake_accepted (h : f.word = 0) : s.ctsTake r f = s.sendData r f.job := if_pos (by rw [h]; rfl)

/-- What a change of one command's progress leaves of the commands. -/
theorem modFabOf_fabRuns {g' : Fab → Fab} (hg : ∀ a, (g' a).run = a.run) (hr : s.fabRuns x = [(r, g)]) (hgr : g.run = r.id) :
    (s.modFabOf r.id g').fabRuns x = [(r, g' g)] := by
  have h := fabRuns_map (s := s) (t := s.modFabOf r.id g') (x := x) (g := fun a => if a.run = r.id then g' a else a)
    (fun a => by split; exact hg a; rfl) rfl rfl
  rw [h, hr, List.map_cons, List.map_nil, if_pos hgr]

theorem fabOf_run {id : Nat} (h : s.fabOf id = some g) : g.run = id := by
  have hf := List.find?_some (p := fun f : Fab => f.run == id) h
  simpa using hf

theorem matchRts_of_send {job : Nat} (hr : s.fabRuns x = [(r, g)]) (ho : r.cmd.op = 0x41) : s.matchRts x job = s := by
  unfold State.matchRts
  rw [hr, List.foldl_cons, List.foldl_nil]
  exact if_pos (by rw [ho]; rfl)

theorem settle_of_send {job : Nat} (hr : s.fabRuns x = [(r, g)]) (ho : r.cmd.op = 0x41) (hp : g.phase = 0) : s.settle x job = s := by
  unfold State.settle
  rw [hr, List.foldl_cons, List.foldl_nil]
  dsimp only
  rw [fabOf_of_fabRuns hr]
  dsimp only
  rw [settleFab_eq]
  exact if_pos (by unfold State.fabDone; rw [if_pos ho, hp]; rfl)

theorem onlyFabric_kept (s : State) (f : Frame) (q : RxFlow) : OnlyFabric s (((s.tookIn f q).keep f).unkeep f) := by
  have change (u : State) (g : Fabric → Fabric) : OnlyFabric u (u.modFabric g) := rfl
  unfold State.tookIn State.peerHeard State.setRx State.noteHeard State.keep State.unkeep
  exact ((((change s _).trans (change _ _)).trans (change _ _)).trans (change _ _)).trans (change _ _)

/-- A SEND that is told to wait notes the time. -/
theorem busy_waits (hr : s.fabRuns x = [(r, g)]) (ho : r.cmd.op = 0x41) (hp : g.phase = 0) (hw : f.word = 1) (job : Nat) :
    ∃ t h, ((s.ctsTake r f).matchRts x job).settle x job = t ∧ t.fabOf r.id = some h ∧ h.retry = some s.pilot ∧ t.hub = s.hub := by
  have hafter := modFabOf_fabRuns (g' := (·.busyAt s.pilot)) (fun _ => rfl) hr (fabOf_run (fabOf_of_fabRuns hr))
  rw [ctsTake_busy hw, matchRts_of_send hafter ho, settle_of_send hafter ho hp]
  exact ⟨_, _, rfl, fabOf_of_fabRuns hafter, rfl, rfl⟩

end

/-- Settles O44: an RTS goes out, meets a RECV that waits, and its CTS lets the data go. -/
theorem messagesMeet : Obligations.MessagesMeet := by
  intro s x hu hn
  have run {f t} (h : f s = t) : inDies f s = .next t := (inDies_up _ _ hu).trans (congrArg _ h)
  refine ⟨fun s1 r j hd hr hj => ?_, fun s1 r hd hr hrts => ?_,
    fun p f r g m q hp hk hc hok hs hj hruns ho hph hm hpeer htag hb hrts hq he hseen hfresh => ?_,
    fun p f r g m q hp hk hc hok hs hj hruns ho hph hret hm hpeer htag hb hq he hseen hfresh hearly => ?_⟩
  · obtain ⟨hl, -⟩ := leaves_dispatchFabric hd
    have heq := startFab_begins hd hr (fun s r job => s.sendRts r job)
    rw [hj] at heq
    have hserve := serves_sendRts (s1.begun x r) r j.job
    exact ⟨_, run heq, begins_queue hl hserve j.job, (serves_settle _ _ _).sends (sends_sendRts _ _ _)⟩
  · obtain ⟨hl, ho⟩ := leaves_dispatchFabric hd
    have heq := startFab_begins hd hr (fun s _ job => s.matchRts x job)
    generalize ((s1.jobOf x).map (·.job)).getD 0 = job at heq
    have hnone : (s1.begun x r).fabric.rts = [] := (congrArg Fabric.rts hl.fabric).trans hrts
    rw [matchRts_of_noRts hnone] at heq
    refine ⟨_, run heq, begins_queue hl (Serves.refl _) job, { r with busy := true }, ?_, rfl, rfl⟩
    have hruns := begun_runs hl hn
    have hop : r.cmd.op = 0x42 := by simpa using ho
    refine (spares_settle (s1.begun x r) job (begun_fab hl hn) (fun q hq hi t channel => ?_)).runs _
      (by rw [hruns]; exact List.mem_append_right _ (List.mem_singleton_self _)) rfl
    rw [hruns] at hq
    rcases List.mem_append.1 hq with hq | hq
    · have hlt := hn.2.1 x q (List.mem_append_left _ hq)
      rw [hi, hl.id] at hlt
      omega
    · rw [List.mem_singleton.1 hq]
      exact recv_notDone hop rfl job channel t
  · have ht := takeIn_inOrder hp hok hs (by rw [hc]; exact hq) he hseen hfresh
    obtain ⟨φ, hφ, hfr⟩ := tookIn_fabRuns s f q x
    rw [hruns] at hfr
    have hio := tookIn_inOrder (s := s) (f := f) (by rw [hc]; exact hq) he
    rw [hc] at hio
    obtain ⟨t, heq, h⟩ := doRtsFrame_meets hk hc ht hj hfr ho (by rw [hφ]; exact hph) hm hpeer htag hb hrts hio
    exact ⟨t, run heq, h⟩
  · have ht := takeIn_inOrder hp hok hs (by rw [hc]; exact hq) he hseen hfresh
    obtain ⟨φ, hφ, hfr⟩ := tookIn_fabRuns s f q x
    rw [hruns] at hfr
    have hph' : (φ g).phase = 0 := by rw [hφ]; exact hph
    have hret' : (φ g).retry = none := by rw [hφ]; exact hret
    have heq := doCtsFrame_keeps hk hc ht hj
    have hdrain := drain_cts (s := s.tookIn f q) hfr hearly hk hc ho hph' hret' hm hpeer htag
    unfold State.progress at heq
    rw [hdrain] at heq
    refine ⟨fun hw => ?_, fun hw => ?_⟩
    · rw [ctsTake_accepted hw] at heq
      have hsend := sends_sendData (((s.tookIn f q).keep f).unkeep f) r f.job hm hb
      rw [hpeer, htag] at hsend
      exact ⟨_, run heq, ((serves_matchRts _ _ _).trans (serves_settle _ _ _)).sends hsend⟩
    · have hafter : (((s.tookIn f q).keep f).unkeep f).fabRuns x = [(r, φ g)] := hfr
      have hrest := onlyFabric_kept s f q
      have hpilot : (((s.tookIn f q).keep f).unkeep f).pilot = s.pilot := by rw [hrest]
      have hhub : (((s.tookIn f q).keep f).unkeep f).hub = s.hub := by rw [hrest]
      clear hrest hdrain
      generalize ((s.tookIn f q).keep f).unkeep f = u at hafter hpilot hhub heq
      obtain ⟨v, h, hv, hfab, hretry, hvhub⟩ := busy_waits hafter ho hph' hw f.job
      exact ⟨v, h, run (heq.trans hv), hfab, hretry.trans (congrArg some hpilot), hvhub.trans hhub⟩

end Sys2Proof.Machine
end

section
/-! PROOFS. Collectives and shard gathers (14). -/

namespace Sys2Proof.Machine

open Sys2Proof

/-! ## Collectives and shard gathers (14, R359, R360, R364) -/

/-- A frame that one step of a fold sends, and every other keeps, is sent by the fold. -/
theorem sends_foldl {α : Type} {F : State → α → State} {peer job channel : Nat} {p : Frame → Prop} (hF : ∀ s b, Serves s (F s b)) {a : α}
    (hs : ∀ s, Sends (F s a) peer job channel p) {l : List α} (ha : a ∈ l) (s : State) : Sends (l.foldl F s) peer job channel p := by
  induction l generalizing s with
  | nil => exact absurd ha List.not_mem_nil
  | cons b l ih =>
    rw [List.foldl_cons]
    rcases List.mem_cons.1 ha with rfl | ha
    · exact (serves_foldl F l hF _).sends (hs s)
    · exact ih ha _

/-! ### Elements of a region -/

theorem take_ne {α : Type} {n : Nat} {l : List α} (hn : 0 < n) (hl : l ≠ []) : l.take n ≠ [] := by
  cases l with
  | nil => exact absurd rfl hl
  | cons a l =>
    obtain ⟨m, rfl⟩ := Nat.exists_eq_succ_of_ne_zero (Nat.ne_of_gt hn)
    simp

theorem chunks_head {α : Type} (n : Nat) {l : List α} (hl : l ≠ []) : ∃ cs, chunks n l = l.take n :: cs := by
  cases l with
  | nil => exact absurd rfl hl
  | cons a l => exact ⟨_, rfl⟩

/-- The first segment of a row that is not empty has a code. -/
theorem segCodes_ne (f : Fmt) {bs : List PByte} (h : bs ≠ []) : segCodes f bs ≠ [] := by
  have hcodes : ∀ eb : List PByte, eb ≠ [] → (if f == .s4 then (eb.map (fun x => [(x.b.toNat % 16, x.p), (x.b.toNat / 16, x.p)])).flatten
      else eb.map (fun x => (x.b.toNat, x.p))) ≠ [] := by
    intro eb heb
    cases eb with
    | nil => exact absurd rfl heb
    | cons a l => split <;> simp
  have hb : 0 < f.blockElems := by cases f <;> decide
  unfold segCodes
  dsimp only
  obtain ⟨cs, hc⟩ := chunks_head f.blockElems (hcodes _ (take_ne (n := 256) (by decide) h))
  rw [hc, List.zipIdx_cons, List.map_cons, List.flatten_cons]
  intro hnil
  exact take_ne hb (hcodes _ (take_ne (n := 256) (by decide) h)) (List.map_eq_nil_iff.1 (List.append_eq_nil_iff.1 hnil).1)

theorem decodeRow_ne (f : Fmt) (t : W32) {n : Nat} {bs : List PByte} (hn : 0 < n) (hb : bs ≠ []) : decodeRow f t n bs ≠ [] := by
  have plain {g : List PByte → PV} (k : Nat) : ((chunks k bs).map g).take n ≠ [] := by
    obtain ⟨cs, hc⟩ := chunks_head k hb
    refine take_ne hn ?_
    rw [hc]
    simp
  have seg : (((chunks f.segBytes bs).map (segCodes f)).flatten.map (fun x => (⟨dequant f t x.2.1 x.1, x.2.2⟩ : PV))).take n ≠ [] := by
    have hs : 0 < f.segBytes := by cases f <;> decide
    obtain ⟨cs, hc⟩ := chunks_head f.segBytes hb
    refine take_ne hn ?_
    rw [hc, List.map_cons, List.flatten_cons]
    intro hnil
    exact segCodes_ne f (take_ne hs hb) (List.append_eq_nil_iff.1 (List.map_eq_nil_iff.1 hnil)).1
  cases f with
  | fp32 => exact plain 4
  | bf16 => exact plain 2
  | s4 => exact seg
  | s8eB => exact seg
  | s8wB => exact seg
  | s8eT => exact seg
  | s8wT => exact seg

theorem readElems_ne (s : State) (x : Fin 16) (c : Fin 4) (t : Tensor) (e : Nat) {n : Nat} (h : 0 < n) : s.readElems x c t e n ≠ [] := by
  obtain ⟨k, l, hk, hp⟩ := pieces_cons (u := max (t.fullCols - t.col0) 1) (by omega) h (n / max (t.fullCols - t.col0) 1 + 1) e
  have hm : elemPieces t e n = (t.rowAddr (e / max (t.fullCols - t.col0) 1) + e % max (t.fullCols - t.col0) 1 * wideBytes t, k) ::
      l.map (fun q => (t.rowAddr (q.1 / max (t.fullCols - t.col0) 1) + q.1 % max (t.fullCols - t.col0) 1 * wideBytes t, q.2)) := by
    unfold elemPieces
    dsimp only
    rw [hp]
    rfl
  have hw : 0 < wideBytes t := by
    unfold wideBytes
    split <;> decide
  unfold State.readElems
  rw [hm]
  refine flatMap_ne_nil (decodeRow_ne _ _ hk (fun hn => ?_))
  have hlen := congrArg List.length hn
  rw [rread_length] at hlen
  exact absurd hlen (Nat.ne_of_gt (Nat.mul_pos hk hw))

/-! ### Collectives -/

section
variable {s s1 : State} {x : Fin 16} {r : Run}

/-- Elements of a stripe from its first on begin with a frame of the step's first offset. -/
theorem sends_sendElems (s : State) (r : Run) (a : CollArgs) (job next stripe len : Nat) (clean : Bool) {vs : List PV} (h : vs ≠ []) :
    Sends (s.sendElems r a job next 0 stripe 0 len clean vs) next job 0
      (fun f => f.kind = 1 ∧ f.stripe = stripe ∧ f.msg = a.tag ∧ f.offset = 0) := by
  obtain ⟨c, cs, hc⟩ := chunks_cons (n := s.payMax / a.bytes) h
  unfold State.sendElems
  dsimp only
  rw [hc, List.zipIdx_cons, List.foldl_cons]
  have hstep : ∀ (s : State) (b : Bool), Serves s (if b then s.sendSink r else s) := by
    intro s b
    cases b
    · exact Serves.refl s
    · exact serves_sendSink s r
  refine (serves_foldl _ _ (fun s c => ?_) _).sends ((hstep _ _).sends (sends_enqueue s (some r.x) (some r.id) (some (stripePort stripe)) _
    (fun n b => ⟨rfl, rfl, rfl, ?_⟩)))
  · exact (serves_enqueue s _ _ _ _).trans (hstep _ _)
  · dsimp only
    rw [Nat.zero_mul, Nat.zero_mul]
    simp

theorem sends_collSend (s : State) (r : Run) (a : CollArgs) (job next chunk : Nat) {st : Nat} (hst : st < a.stripes)
    (hl : 0 < a.stripeLen chunk st) : Sends (s.collSend r a job next 0 chunk false) next job 0
      (fun f => f.kind = 1 ∧ f.stripe = st ∧ f.msg = a.tag ∧ f.offset = 0) := by
  unfold State.collSend
  refine sends_foldl (a := st) (fun s st => ?_) (fun s => ?_) (List.mem_range.2 hst) s
  · dsimp only
    split
    · exact Serves.refl s
    · exact (serves_touchElems s _ _ _).trans (serves_sendElems _ _ _ _ _ _ _ _ _ _ _)
  · dsimp only
    rw [if_neg (by omega)]
    exact sends_sendElems _ r a job next st _ true (fun hn => readElems_ne _ _ _ _ _ hl (List.map_eq_nil_iff.1 hn))

theorem begun_nodes (s : State) (x : Fin 16) (r : Run) (addr p : Nat) : (s.begun x r).memberNodes addr p = s.memberNodes addr p := rfl

/-- What begins a collective. -/
def State.collBegin (x : Fin 16) (s : State) (r : Run) (job : Nat) : State :=
  let a := collArgs r.cmd
  let nodes := s.memberNodes (fld r.cmd.desc 0x10 8) a.p
  ((s.modFabOf r.id (fun g => { g with parts := a.parts })).collStart r a job ((nodes[(a.me + 1) % a.p]?).getD 0)).drain x job

theorem doColl_eq (x : Fin 16) (s : State) : doColl x s = s.startFab x 0x40 (State.collBegin x) := rfl

theorem serves_collBegin (x : Fin 16) (s : State) (r : Run) (job : Nat) : Serves s (s.collBegin x r job) :=
  ((serves_modFabOf s _ _).trans (serves_collStart _ _ _ _ _)).trans (serves_drain _ _ _)

theorem sends_collBegin (s : State) (r : Run) (job : Nat) {a : CollArgs} (ha : a = collArgs r.cmd) (hop : a.op < 2) {next st : Nat}
    (hn : (s.memberNodes (fld r.cmd.desc 0x10 8) a.p)[(a.me + 1) % a.p]? = some next) (hst : st < a.stripes)
    (hl : 0 < a.stripeLen ((a.me + a.p - 1) % a.p) st) : Sends (s.collBegin x r job) next job 0
      (fun f => f.kind = 1 ∧ f.stripe = st ∧ f.msg = a.tag ∧ f.offset = 0) := by
  subst ha
  unfold State.collBegin
  dsimp only
  rw [hn]
  refine (serves_drain _ _ _).sends ?_
  unfold State.collStart
  rw [if_pos hop]
  exact sends_collSend _ r _ job next _ hst hl

/-! ### Shard gathers -/

/-- A request for the shard of one owner. -/
def State.askShard (s : State) (r : Run) (job : Nat) (n : Nat × Nat) : State :=
  if n.2 = (shardArgs r.cmd).me then s
  else s.enqueue (some r.x) (some r.id) none { (s.frame 3 2 job n.1
      (pad64 (leBytes 8 (shardArgs r.cmd).src ++ leBytes 4 (shardArgs r.cmd).group))) with
    msg := shardMsg r.id, offset := BitVec.ofNat 64 (shardArgs r.cmd).bytes }

theorem serves_askShard (s : State) (r : Run) (job : Nat) (n : Nat × Nat) : Serves s (s.askShard r job n) := by
  unfold State.askShard
  split
  · exact Serves.refl s
  · exact serves_enqueue s _ _ _ _

/-- A gather asks every other owner, and waits on the own group. -/
theorem shardStart_asks (s : State) (r : Run) (job : Nat) (nodes : List Nat) :
    Serves (nodes.zipIdx.foldl (fun s n => s.askShard r job n) (s.modFabOf r.id (fun g => { g with
      parts := (List.range (shardArgs r.cmd).p).map (fun i => ⟨i, 0, (shardArgs r.cmd).bytes⟩) }))) (s.shardStart r job nodes) :=
  serves_of_same rfl (fun h => h) (fun _ => rfl)

theorem serves_shardStart (s : State) (r : Run) (job : Nat) (nodes : List Nat) : Serves s (s.shardStart r job nodes) :=
  ((serves_modFabOf s _ _).trans (serves_foldl _ _ (fun s n => serves_askShard s r job n) _)).trans (shardStart_asks s r job nodes)

theorem sends_shardStart (s : State) (r : Run) (job : Nat) {nodes : List Nat} {a : ShardArgs} (ha : a = shardArgs r.cmd) {i node : Nat}
    (hi : i ≠ a.me) (hn : nodes[i]? = some node) : Sends (s.shardStart r job nodes) node job 2
      (fun f => f.kind = 3 ∧ f.msg = shardMsg r.id ∧ f.offset = BitVec.ofNat 64 a.bytes) := by
  subst ha
  refine (shardStart_asks s r job nodes).sends (sends_foldl (a := (node, i)) (fun s n => serves_askShard s r job n) (fun s => ?_)
    (List.mk_mem_zipIdx_iff_getElem?.2 hn) _)
  unfold State.askShard
  rw [if_neg hi]
  exact sends_enqueue s _ _ _ _ (fun _ _ => ⟨rfl, rfl, rfl⟩)

/-! ### Requests of shards -/

variable {p : Fin 16} {f : Frame} {q : RxFlow}

theorem onlyFabric_tookIn (s : State) (f : Frame) (q : RxFlow) : OnlyFabric s (s.tookIn f q) := by
  have change (u : State) (g : Fabric → Fabric) : OnlyFabric u (u.modFabric g) := rfl
  unfold State.tookIn State.peerHeard State.setRx State.noteHeard
  exact ((change s _).trans (change _ _)).trans (change _ _)

theorem shardRefused_of_fabric {s t : State} (h : OnlyFabric s t) (x : Fin 16) (src n g : Nat) :
    t.shardRefused x src n g = s.shardRefused x src n g := by
  rw [h]
  rfl

/-- The service that a request asks for. -/
def serviceOf (s : State) (x : Fin 16) (f : Frame) : Service :=
  { id := s.hub.nextRun, x := x, job := f.job, peer := f.src, msg := f.msg, src := fld f.payload 0 8, bytes := f.offset.toNat
    group := bits (fld f.payload 8 4) 17 0, started := false, own := none }

theorem doShardRequest_eq (hk : f.kind = 3) (hc : f.channel = 2) {u : State} (ht : s.takeIn p f = (u, true)) (hj : u.jobCtx f.job = some x) :
    doShardRequest p f s = if u.shardRefused x (fld f.payload 0 8) f.offset.toNat (bits (fld f.payload 8 4) 17 0)
      then u.sendCts x 2 f.job f.src f.msg 3
      else { u with hub := { u.hub with nextRun := u.hub.nextRun + 1 }
                    fabric := { u.fabric with services := u.fabric.services ++ [serviceOf u x f] } } := by
  unfold doShardRequest
  rw [if_neg (by omega), ht]
  dsimp only
  rw [hj]
  rfl

/-! ### Shards that are sent -/

theorem services_enqueue (s : State) (x : Option (Fin 16)) (owner : Option Nat) (port : Option (Fin 16)) (f : Frame) :
    (s.enqueue x owner port f).fabric.services = s.fabric.services := by
  rw [enqueue_eq, (keepsFlow_pump _).services]
  unfold State.opened
  split <;> rfl

theorem services_sendBytes (s : State) (x : Fin 16) (owner channel job peer : Nat) (msg word : W32) (bs : List PByte) :
    (s.sendBytes x owner channel job peer msg word bs).1.fabric.services = s.fabric.services := by
  unfold State.sendBytes
  dsimp only
  have fold (g : State × Bool → List PByte × Nat → State × Bool) (hg : ∀ r a, (g r a).1.fabric.services = r.1.fabric.services)
      (l : List (List PByte × Nat)) (r : State × Bool) : (l.foldl g r).1.fabric.services = r.1.fabric.services := by
    induction l generalizing r with
    | nil => rfl
    | cons a l ih => exact (ih (g r a)).trans (hg r a)
  exact fold _ (fun r a => services_enqueue _ _ _ _ _) _ (s, false)

theorem fabric_addRefs (s : State) (x : Fin 16) (g : Nat) (up : Bool) : (s.addRefs x g up).fabric = s.fabric := by
  unfold State.addRefs
  split
  · rfl
  · exact (onlyWork_putAlm s _ _ _ _).fabric

/-- The state in which the one service has started. -/
def State.serving (s : State) (v : Service) : State :=
  (((s.touchRange v.src v.bytes none).addRefs v.x v.group true).modFabric (fun b => { b with services := b.services.map (fun w =>
    if w.id = v.id then { w with started := true } else w) }))

theorem serving_services {v : Service} (h : s.fabric.services = [v]) : (s.serving v).fabric.services = [{ v with started := true }] := by
  have hf : ((s.touchRange v.src v.bytes none).addRefs v.x v.group true).fabric = s.fabric := by
    rw [fabric_addRefs, (onlyWork_touchRange s _ _ _).fabric]
  show List.map _ _ = _
  rw [hf, h, List.map_cons, List.map_nil, if_pos rfl]

/-- What a shard of the module's own that is poisoned leaves. -/
def State.sunk (s : State) (x : Fin 16) (bad : Bool) : State :=
  if bad then s.detect { s.faultNow 2 0x0508 0x0C with ctx := some x } else s

theorem serves_sunk (s : State) (x : Fin 16) (bad : Bool) : Serves s (s.sunk x bad) ∧ (s.sunk x bad).fabric.services = s.fabric.services := by
  unfold State.sunk
  split
  · exact ⟨serves_detect s _, rfl⟩
  · exact ⟨Serves.refl s, rfl⟩

theorem doShardServe_serves {v : Service} {e : List Byte} (h : s.fabric.services = [v]) (ho : v.own = none) (hs : v.started = false)
    (hm : s.maySend = true) (hr : s.shardRefused v.x v.src v.bytes v.group = false) (he : s.almEntry v.x v.group = some e)
    (hp : almPending e = false) (hu : almUpdating e = false) (hrefs : almRefs e < 65535) : ∃ bs : List PByte, bs.length = v.bytes ∧
      doShardServe 0 s = ((s.serving v).sendBytes v.x v.id 2 v.job v.peer v.msg (BitVec.ofNat 32 (almVersion e)) bs).1.sunk v.x
        ((s.serving v).sendBytes v.x v.id 2 v.job v.peer v.msg (BitVec.ofNat 32 (almVersion e)) bs).2 := by
  refine ⟨(s.touchRange v.src v.bytes none).uread v.src v.bytes, uread_length _ _ _, ?_⟩
  unfold doShardServe
  rw [h]
  dsimp only [List.getElem?_cons_zero]
  rw [ho, hs, hm, hr, he]
  dsimp only [Option.bind_none]
  rw [if_neg (by decide), if_neg (by decide), hp, hu, if_neg (by simp; omega)]
  rfl

end

/-- Settles O45: what begins a collective or a gather is in the flow to its node, and so is what answers a request. -/
theorem collectivesAndShardsBegin : Obligations.CollectivesAndShardsBegin := by
  intro s x hu hn
  have run {f t} (h : f s = t) : inDies f s = .next t := (inDies_up _ _ hu).trans (congrArg _ h)
  refine ⟨fun s1 r j a next st hd hr hj ha hop hearly hnode hst hl => ?_, fun s1 r j a i node hidle hd hr hj ha hi hnode => ?_,
    fun p f q hp hk hc hok hs hj hq he hseen hfresh => ?_, fun v e hsv ho hst hm hr he hp hup hrefs hb => ?_⟩
  · obtain ⟨hl', -⟩ := leaves_dispatchFabric hd
    have heq := (doColl_eq x s).trans (startFab_begins hd hr (State.collBegin x))
    rw [hj] at heq
    exact ⟨_, run heq, begins_queue hl' (serves_collBegin x _ r j.job) j.job,
      (serves_settle _ _ _).sends (sends_collBegin (s1.begun x r) r j.job ha hop (by rw [begun_nodes]; exact hnode) hst hl)⟩
  · obtain ⟨hl', -⟩ := leaves_dispatchFabric hd
    have heq := startFab_begins hd hr (fun s r job => s.shardStart r job (s.memberNodes (shardArgs r.cmd).members (shardArgs r.cmd).p))
    rw [hj] at heq
    have hdo : doShardGather x s = _ := (if_neg (by rw [hidle]; decide)).trans heq
    exact ⟨_, run hdo, begins_queue hl' (serves_shardStart _ r j.job _) j.job,
      (serves_settle _ _ _).sends (sends_shardStart (s1.begun x r) r j.job ha hi (by rw [begun_nodes, ← ha]; exact hnode))⟩
  · have ht := takeIn_inOrder hp hok hs (by rw [hc]; exact hq) he hseen hfresh
    have heq := doShardRequest_eq hk hc ht hj
    have hfab := onlyFabric_tookIn s f q
    rw [shardRefused_of_fabric hfab] at heq
    refine ⟨fun href => ?_, fun href => ?_⟩
    · rw [if_pos href] at heq
      exact ⟨_, run heq, hfab.trans (onlyFabric_enqueue _ _ _ _ _), sends_enqueue _ _ _ _ _ (fun _ _ => ⟨rfl, rfl, rfl⟩)⟩
    · rw [if_neg (by rw [href]; decide)] at heq
      exact ⟨_, serviceOf (s.tookIn f q) x f, run heq, rfl, rfl, rfl, rfl, rfl⟩
  · obtain ⟨bs, hlen, heq⟩ := doShardServe_serves hsv ho hst hm hr he hp hup hrefs
    have hne : bs ≠ [] := fun hnil => by
      rw [hnil] at hlen
      exact absurd hlen (by simp; omega)
    obtain ⟨hserve, hserv⟩ := serves_sunk ((s.serving v).sendBytes v.x v.id 2 v.job v.peer v.msg (BitVec.ofNat 32 (almVersion e)) bs).1 v.x
      ((s.serving v).sendBytes v.x v.id 2 v.job v.peer v.msg (BitVec.ofNat 32 (almVersion e)) bs).2
    exact ⟨_, run heq, (hserv.trans (services_sendBytes _ _ _ _ _ _ _ _ _)).trans (serving_services hsv),
      hserve.sends (sends_sendBytes _ _ _ _ _ _ _ _ hne)⟩

end Sys2Proof.Machine
end

section
/-! PROOFS. Timers of the fabric (14). -/

namespace Sys2Proof.Machine

open Sys2Proof

/-! ## Timers of the fabric (14, R353, R354, R357, R362) -/

section
variable {s : State} {peer job channel : Nat}

/-! ### The timer of acknowledgements -/

theorem transmit_next {p : Fin 16} (h : s.nextPort = some p) (f : Frame) : s.transmit none f = some (s.wire p f) := by
  unfold State.transmit
  rw [h]
  rfl

/-- The ACK of a flow. -/
def State.ackOf (s : State) (r : RxFlow) : Frame :=
  { (s.occasion.2.frame 2 r.channel r.job r.peer []) with
    msg := r.expected, offset := BitVec.ofNat 64 r.sack, word := BitVec.ofNat 32 (16 + Config.choice s.occasion.1 % 1009) }

theorem sendAck_sends {r : RxFlow} {p : Fin 16} (hm : s.maySend = true) (hp : s.nextPort = some p) :
    s.sendAck r = (s.occasion.2.wire p (s.ackOf r)).setRx { r with fresh := 0, firstAt := none } := by
  have ht : s.occasion.2.transmit none (s.ackOf r) = some (s.occasion.2.wire p (s.ackOf r)) := transmit_next (s := s.occasion.2) hp _
  unfold State.sendAck
  rw [hm]
  show (match s.occasion.2.transmit none (s.ackOf r) with
    | none => s
    | some s2 => s2.setRx { r with fresh := 0, firstAt := none }) = _
  rw [ht]

theorem doAckTimer_sends {r : RxFlow} {a : Nat} {p : Fin 16} (hr : s.rxFlow peer job channel = some r) (hf : r.firstAt = some a)
    (ha : a + 200 ≤ s.pilot) (hm : s.maySend = true) (hp : s.nextPort = some p) : ∃ t w, doAckTimer peer job channel s = t ∧
      t = { s with fabric := t.fabric, freeCtr := s.freeCtr + 1 } ∧
        t.fabric.sent = s.fabric.sent ++ [w] ∧ w.port = p.val ∧ w.frame.kind = 2 ∧ w.frame.dst = peer ∧
        w.frame.msg = r.expected ∧ w.frame.offset = BitVec.ofNat 64 r.sack ∧
        t.rxFlow peer job channel = some { r with fresh := 0, firstAt := none } := by
  have hkey := rxFlow_key hr
  have heq : doAckTimer peer job channel s = s.sendAck r := by
    unfold doAckTimer
    rw [hr]
    dsimp only
    rw [hf]
    exact if_pos ha
  rw [sendAck_sends hm hp] at heq
  have hset := rxFlow_setRx (s.occasion.2.wire p (s.ackOf r)) (r := { r with fresh := 0, firstAt := none }) hkey
  have hpeer : r.peer = peer := by
    simp only [RxFlow.isKey, Bool.and_eq_true, beq_iff_eq] at hkey
    exact hkey.1.1
  exact ⟨_, _, heq, rfl, rfl, rfl, rfl, hpeer, rfl, rfl, hset⟩

/-! ### Retransmission -/

variable {u : TxFlow} {o : OutFrame}

/-- A flow after a timeout of one frame. -/
def TxFlow.timedOut (u : TxFlow) (seq : W32) (n now : Nat) : TxFlow :=
  { u with
    cwnd := max 8 (u.cwnd / 2)
    frames := u.frames.map (fun q => if q.frame.seq = seq then { q with timeouts := n + 1, sent := some now } else q) }

theorem find?_map_seq (l : List OutFrame) (seq : W32) {g : OutFrame → OutFrame} (hg : ∀ o, (g o).frame = o.frame)
    {o : OutFrame} (h : l.find? (fun o => o.frame.seq == seq) = some o) :
    (l.map (fun q => if q.frame.seq = seq then g q else q)).find? (fun o => o.frame.seq == seq) = some (g o) := by
  have hcomp : (fun o : OutFrame => o.frame.seq == seq) ∘ (fun q => if q.frame.seq = seq then g q else q) =
      (fun o : OutFrame => o.frame.seq == seq) := by
    funext q
    simp only [Function.comp]
    split
    · rw [hg]
    · rfl
  have ho : o.frame.seq = seq := by simpa using List.find?_some (p := fun o : OutFrame => o.frame.seq == seq) h
  rw [List.find?_map, hcomp, h]
  exact congrArg some (if_pos ho)

theorem txFlow_key (h : s.txFlow peer job channel = some u) : u.isKey peer job channel = true :=
  List.find?_some (p := fun q : TxFlow => q.isKey peer job channel) h

/-- What a frame that is sent again has of its flow. -/
structure Again (peer job channel : Nat) (seq : W32) (now : Nat) (u : TxFlow) (o : OutFrame) (t : State) : Prop where
  flow : ∃ v, t.txFlow peer job channel = some v ∧ v.cwnd = u.cwnd ∧
    ∃ q, v.frames.find? (fun o => o.frame.seq == seq) = some q ∧ q.timeouts = o.timeouts ∧ q.sent = some now

theorem again_resend {seq : W32} (ht : s.txFlow peer job channel = some u) (ho : u.frames.find? (fun o => o.frame.seq == seq) = some o)
    (hs : o.sent = some s.pilot) {t : TxFlow} (hk : t.isKey peer job channel = true) {q : OutFrame} (hq : q.frame.seq = seq) :
    Again peer job channel seq s.pilot u o (s.resend t q) := by
  simp only [TxFlow.isKey, Bool.and_eq_true, beq_iff_eq] at hk
  obtain ⟨⟨rfl, rfl⟩, rfl⟩ := hk
  unfold State.resend
  split
  · exact ⟨u, ht, rfl, o, ho, rfl, hs⟩
  next v h =>
    have hv : v.txFlow t.peer t.job t.channel = some u :=
      (congrArg (List.find? (fun q : TxFlow => q.isKey t.peer t.job t.channel)) (transmit_tx h).1).trans ht
    refine ⟨u.markSent q.frame.seq s.pilot, ?_, rfl, { o with sent := some s.pilot }, ?_, rfl, rfl⟩
    · rw [txFlow_modTx v (g := (·.markSent q.frame.seq s.pilot)) (fun _ h => h), hv]
      rfl
    · rw [hq]
      exact find?_map_seq u.frames seq (g := fun o => { o with sent := some s.pilot }) (fun _ => rfl) ho

theorem onlyFabric_resend (s : State) (t : TxFlow) (o : OutFrame) : OnlyFabric s (s.resend t o) := by
  unfold State.resend
  split
  · exact OnlyFabric.refl s
  next h => exact (onlyFabric_transmit h).trans (onlyFabric_modTx _ _ _ _ _)

theorem doRetxTimeout_eq {seq : W32} {a : Nat} (ht : s.txFlow peer job channel = some u)
    (ho : u.frames.find? (fun o => o.frame.seq == seq) = some o) (hs : o.sent = some a)
    (ha : a + s.linkCfg.retxUs * 50 * 2 ^ o.timeouts ≤ s.pilot) (hm : s.maySend = true) : doRetxTimeout peer job channel seq s =
      if 7 ≤ o.timeouts then s.failFlow u
      else (s.modTx peer job channel (·.timedOut seq o.timeouts s.pilot)).resend u { o with timeouts := o.timeouts + 1 } := by
  obtain ⟨frame, sent, timeouts, sacked, fast, owner, port⟩ := o
  cases hs
  unfold doRetxTimeout
  rw [ht]
  dsimp only
  rw [ho]
  dsimp only
  rw [if_neg (by rw [hm]; simp; exact ha)]
  rfl

theorem doRetxTimeout_again {seq : W32} {a : Nat} (ht : s.txFlow peer job channel = some u)
    (ho : u.frames.find? (fun o => o.frame.seq == seq) = some o) (hs : o.sent = some a)
    (ha : a + s.linkCfg.retxUs * 50 * 2 ^ o.timeouts ≤ s.pilot) (hm : s.maySend = true) (hn : o.timeouts < 7) :
    ∃ t v, doRetxTimeout peer job channel seq s = t ∧ t = { s with fabric := t.fabric } ∧
        t.txFlow peer job channel = some v ∧ v.cwnd = max 8 (u.cwnd / 2) ∧
        ∃ q, v.frames.find? (fun o => o.frame.seq == seq) = some q ∧ q.timeouts = o.timeouts + 1 ∧ q.sent = some s.pilot := by
  have heq := (doRetxTimeout_eq ht ho hs ha hm).trans (if_neg (by omega))
  have hseq : o.frame.seq = seq := by simpa using List.find?_some (p := fun o : OutFrame => o.frame.seq == seq) ho
  have hflow : (s.modTx peer job channel (·.timedOut seq o.timeouts s.pilot)).txFlow peer job channel =
      some (u.timedOut seq o.timeouts s.pilot) := by
    rw [txFlow_modTx s (g := (·.timedOut seq o.timeouts s.pilot)) (fun _ h => h), ht]
    rfl
  have hfind := find?_map_seq u.frames seq (g := fun q => { q with timeouts := o.timeouts + 1, sent := some s.pilot }) (fun _ => rfl) ho
  obtain ⟨v, hv, hcwnd, q, hq, hto, hsent⟩ := (again_resend hflow hfind rfl (txFlow_key ht) (q := { o with timeouts := o.timeouts + 1 }) hseq).flow
  exact ⟨_, v, heq, (onlyFabric_modTx s _ _ _ _).trans (onlyFabric_resend _ _ _), hv, hcwnd, q, hq, hto, hsent⟩

/-- Flows stay as they are. -/
theorem failFlow_spec (s : State) (hu : s.txFlow peer job channel = some u) : ∃ v, (s.failFlow u).txFlow peer job channel = some v ∧
    v.frames = [] ∧ v.start = true := by
  have hkey := txFlow_key hu
  simp only [TxFlow.isKey, Bool.and_eq_true, beq_iff_eq] at hkey
  obtain ⟨⟨rfl, rfl⟩, rfl⟩ := hkey
  have hmod : (s.modTx u.peer u.job u.channel (fun u => { u with frames := [], next := 0, start := true })).txFlow u.peer u.job u.channel =
      some { u with frames := [], next := 0, start := true } := by
    rw [txFlow_modTx s (g := fun u => { u with frames := [], next := 0, start := true }) (fun _ h => h), hu]
    rfl
  have gone (l : List Service) (s : State) : (l.foldl (fun s v => (if v.started then s.addRefs v.x v.group false else s).modFabric (fun b => { b with
      services := b.services.filter (fun w => w.id != v.id) })) s).fabric.tx = s.fabric.tx := by
    induction l generalizing s with
    | nil => rfl
    | cons v l ih =>
      refine (ih _).trans ?_
      show (if v.started then s.addRefs v.x v.group false else s).fabric.tx = _
      split
      · rw [fabric_addRefs]
      · rfl
  have fails (l : List (Run × Fab)) (s : State) : (l.foldl (fun s p => if s.usesFlow p.1 u.peer u.channel then s.fabFail p.1 0x0502 else s) s
      ).fabric.tx = s.fabric.tx := by
    induction l generalizing s with
    | nil => rfl
    | cons p l ih =>
      refine (ih _).trans ?_
      show (if s.usesFlow p.1 u.peer u.channel then s.fabFail p.1 0x0502 else s).fabric.tx = _
      split <;> rfl
  have htx : (s.failFlow u).fabric.tx = (s.modTx u.peer u.job u.channel (fun u => { u with frames := [], next := 0, start := true })).fabric.tx := by
    unfold State.failFlow
    dsimp only
    split
    · exact gone _ _
    · exact (fails _ _).trans (gone _ _)
  exact ⟨_, (congrArg (List.find? (fun q : TxFlow => q.isKey u.peer u.job u.channel)) htx).trans hmod, rfl, rfl⟩

/-! ### A busy RTS -/

theorem fabOf_modFabOf {id : Nat} {g : Fab} {g' : Fab → Fab} (hg : ∀ a, (g' a).run = a.run) (h : s.fabOf id = some g) :
    (s.modFabOf id g').fabOf id = some (g' g) := by
  have hrun := fabOf_run h
  rw [fabOf_map (s := s) (t := s.modFabOf id g') (g := fun f => if f.run = id then g' f else f) (fun a => by split; exact hg a; rfl) rfl, h]
  exact congrArg some (if_pos hrun)

theorem fabs_transmit {p : Option (Fin 16)} {f : Frame} {s t : State} (h : s.transmit p f = some t) : t.fabric.fabs = s.fabric.fabs := by
  have next (h : s.nextPort.map (fun q => s.wire q f) = some t) : t.fabric.fabs = s.fabric.fabs := by
    obtain ⟨q, -, rfl⟩ := Option.map_eq_some_iff.1 h
    rfl
  unfold State.transmit at h
  split at h
  · split at h
    · cases h
      rfl
    · exact next h
  · exact next h

theorem fabs_pump (s : State) (peer job channel : Nat) : (s.pump peer job channel).fabric.fabs = s.fabric.fabs := by
  unfold State.pump
  split
  · rfl
  · dsimp only
    split
    · rfl
    · refine frame_foldl (R := fun s t => t.fabric.fabs = s.fabric.fabs) (fun _ => rfl) (fun h k => k.trans h) _ _ (fun s o _ => ?_) s
      split
      · rfl
      next t ht => exact (fabs_transmit ht :)

theorem fabs_enqueue (s : State) (x : Option (Fin 16)) (owner : Option Nat) (port : Option (Fin 16)) (f : Frame) :
    (s.enqueue x owner port f).fabric.fabs = s.fabric.fabs := by
  have opens (s : State) : (match s.txFlow f.dst f.job f.channel with
      | some _ => s
      | none => s.modFabric (fun b => { b with tx := b.tx ++ [TxFlow.fresh f.dst f.job f.channel x] })).fabric.fabs = s.fabric.fabs := by
    split <;> rfl
  unfold State.enqueue
  exact (fabs_pump _ _ _ _).trans (opens s)

theorem sendRts_fab {r : Run} {g : Fab} (h : s.fabOf r.id = some g) (job : Nat) :
    (s.sendRts r job).fabOf r.id = some { g with phase := 0, retry := none } := by
  unfold State.sendRts
  refine fabOf_modFabOf (fun _ => rfl) ?_
  exact (congrArg (List.find? (fun f : Fab => f.run == r.id)) (fabs_enqueue s _ _ _ _)).trans h

theorem doRtsRetry_sends {x : Fin 16} {i : Nat} {r : Run} {g : Fab} {j : JobEntry} {a : Nat} (hr : (s.ctx x).fabricRun[i]? = some r)
    (hg : s.fabOf r.id = some g) (hret : g.retry = some a) (hj : s.jobOf x = some j) (ha : a + 5000 ≤ s.pilot) :
    doRtsRetry x i s = s.sendRts r j.job := by
  obtain ⟨_, _, _, _, _, _, _, _, _, _, _⟩ := g
  cases hret
  unfold doRtsRetry
  rw [hr]
  dsimp only
  rw [hg, hj]
  exact if_pos ha

/-! ### A peer that is silent -/

theorem failRun_runs (s : State) (r : Run) (reason : Nat) (x : Fin 16) : ((s.failRun r reason).ctx x).fabricRun =
    (s.ctx x).fabricRun.map (fun q => if q.id = r.id
      then { q with busy := false, out := { q.out with reason := reason, failed := true, poisoned := true } } else q) := by
  unfold State.failRun
  dsimp only
  rw [modRun_ctx]
  have h : Written s ((r.cmd.regions.filter (fun g => g.write && !g.scratch)).foldl (fun s g => s.poisonRegion r.x (ix 4 g.core) g) s) :=
    written_foldl _ _ (fun s _ => written_poisonRegion s _ _ _) s
  rw [h.ctx x]

theorem doPeerWaitTimeout_fails {x : Fin 16} {i : Nat} {r : Run} {g : Fab} (hr : (s.ctx x).fabricRun[i]? = some r)
    (hg : s.fabOf r.id = some g) (hw : s.inPeerWait r g = true) (hl : peerLimit r.cmd ≤ g.waits) (hh : g.heard ≠ some s.pilot) :
    doPeerWaitTimeout x i s = (s.failRun r 0x0503).dropFab r.id := by
  unfold doPeerWaitTimeout
  rw [hr]
  dsimp only
  rw [hg]
  exact if_pos (by rw [hw]; simp [hl, hh])

theorem fabOf_dropFab (s : State) (id : Nat) : (s.dropFab id).fabOf id = none := by
  refine List.find?_eq_none.2 (fun f hf => ?_)
  have h := (List.mem_filter.1 hf).2
  simpa using h

end

/-- Settles O46: each timer sends again what it stands for, or fails it. -/
theorem fabricTimersRunOut : Obligations.FabricTimersRunOut := by
  intro s hu
  have run {f t} (h : f s = t) : inDies f s = .next t := (inDies_up _ _ hu).trans (congrArg _ h)
  refine ⟨fun peer job channel r a p hr hf ha hm hp => ?_, fun peer job channel seq u o a ht ho hs ha hm => ⟨fun hn => ?_, fun hn => ?_⟩,
    fun x i r g j a hr hg hret hj ha => ?_, fun x i r g hr hg hw hl hh => ?_⟩
  · obtain ⟨t, w, heq, h⟩ := doAckTimer_sends hr hf ha hm hp
    exact ⟨t, w, run heq, h⟩
  · obtain ⟨t, v, heq, h⟩ := doRetxTimeout_again ht ho hs ha hm hn
    exact ⟨t, v, run heq, h⟩
  · obtain ⟨v, hv, h⟩ := failFlow_spec s ht
    exact ⟨_, v, run ((doRetxTimeout_eq ht ho hs ha hm).trans (if_pos hn)), hv, h⟩
  · obtain ⟨u, hu', o, ho, hk, hmsg, -⟩ := sends_sendRts s r j.job
    exact ⟨_, _, run (doRtsRetry_sends hr hg hret hj ha), (onlyFabric_enqueue s _ _ _ _).trans rfl, sendRts_fab hg j.job, rfl, u, hu', o, ho, hk, hmsg⟩
  · refine ⟨_, run (doPeerWaitTimeout_fails hr hg hw hl hh), fabOf_dropFab _ _, ?_⟩
    show ((s.failRun r 0x0503).ctx x).fabricRun[i]? = _
    rw [failRun_runs, List.getElem?_map, hr]
    exact congrArg some (if_pos rfl)

end Sys2Proof.Machine
end

section
/-! PROOFS. Role messages (15). -/

namespace Sys2Proof.Machine

open Sys2Proof

/-! ## What role messages leave (15, R374) -/

section
variable {s s1 : State} {p : Fin 16} {f : Frame} {msg : Nat} {c : Ctrl}

/-- Flows keep the frames they hold, the module stays the node that it is, and registration stays open or closed. -/
structure Tells (s t : State) : Prop where
  serves : Serves s t
  record : t.roles.record = s.roles.record
  closed : t.roles.closed = s.roles.closed

theorem Tells.refl (s : State) : Tells s s := ⟨Serves.refl s, rfl, rfl⟩

theorem Tells.trans {s t u : State} (h : Tells s t) (k : Tells t u) : Tells s u :=
  ⟨h.serves.trans k.serves, k.record.trans h.record, k.closed.trans h.closed⟩

theorem Tells.told {s t : State} (h : Tells s t) {node msg : Nat} {body : List Byte} (k : Told s node msg body) : Told t node msg body :=
  h.serves.sends k

theorem node_of_record {s t : State} (h : t.roles.record = s.roles.record) : t.node = s.node := by
  unfold State.node
  rw [h]

theorem tells_foldl {α : Type} (F : State → α → State) (l : List α) (h : ∀ s a, Tells s (F s a)) (s : State) : Tells s (l.foldl F s) :=
  frame_foldl Tells.refl Tells.trans F l (fun s a _ => h s a) s

theorem tells_of_onlyFabric {s t : State} (h : Serves s t) (k : OnlyFabric s t) : Tells s t := by
  unfold OnlyFabric at k
  exact ⟨h, by rw [k], by rw [k]⟩

theorem tells_sendCtrl (s : State) (dst msg epoch : Nat) (body : List Byte) : Tells s (s.sendCtrl dst msg epoch body) := by
  refine tells_of_onlyFabric ?_ (onlyFabric_sendCtrl _ _ _ _ _)
  unfold State.sendCtrl
  split
  · exact Serves.refl s
  · exact serves_enqueue _ _ _ _ _

theorem tells_modRoles (s : State) {g : Roles → Roles} (hr : (g s.roles).record = s.roles.record) (hc : (g s.roles).closed = s.roles.closed) :
    Tells s (s.modRoles g) := ⟨serves_of_fabric rfl (fun _ => rfl), hr, hc⟩

theorem OnlyFabric.roles {s t : State} (h : OnlyFabric s t) : t.roles = s.roles := by
  unfold OnlyFabric at h
  rw [h]

/-- A change of the roles and a message behind it leave the rest. -/
theorem rest_of_onlyFabric {s t : State} {g : Roles → Roles} (h : OnlyFabric (s.modRoles g) t) : t = { s with roles := t.roles, fabric := t.fabric } := by
  rw [h.roles]
  exact h

theorem tells_modMember (s : State) (node : Nat) (g : Member → Member) : Tells s (s.modMember node g) := tells_modRoles s rfl rfl

theorem tells_modPower (s : State) (g : Power → Power) : Tells s (s.modPower g) := ⟨serves_of_fabric rfl (fun _ => rfl), rfl, rfl⟩

theorem OnlyWork.roles {s t : State} (h : OnlyWork s t) : t.roles = s.roles := by
  unfold OnlyWork at h
  rw [h]

theorem tells_event (s : State) (x : Fin 16) (reason : Nat) (d : List Byte) : Tells s (s.event x reason d) :=
  ⟨serves_of_written (onlyWork_event s x reason d) (written_post s x _), by rw [(onlyWork_event s x reason d).roles],
    by rw [(onlyWork_event s x reason d).roles]⟩

theorem tells_checkSpares (s : State) (g : Nat) : Tells s (s.checkSpares g) := by
  unfold State.checkSpares
  dsimp only
  split
  · exact Tells.refl s
  · exact (tells_modRoles s rfl rfl).trans (tells_foldl _ _ (fun s _ => tells_event s _ _ _) _)

theorem tells_updateRestore (s : State) : Tells s s.updateRestore := by
  unfold State.updateRestore
  exact frame_ite (Tells.refl s) (tells_modRoles s rfl rfl)

theorem tells_firstCaps (s : State) : Tells s s.firstCaps := by
  unfold State.firstCaps
  refine frame_ite (Tells.refl s) (tells_foldl _ _ (fun s m => ?_) _)
  exact frame_ite ((tells_modMember s _ _).trans (tells_modPower _ _)) ((tells_modMember s _ _).trans (tells_sendCtrl _ _ _ _ _))

theorem tells_installNow (s : State) (body : List Byte) : Tells s (s.installNow body) := by
  unfold State.installNow
  exact frame_ite (((tells_modRoles s rfl rfl).trans (tells_foldl _ _ (fun s _ => tells_sendCtrl s _ _ _ _) _)).trans (tells_firstCaps _))
    (tells_modRoles s rfl rfl)

theorem ctrlHeader_length (s : State) (msg epoch : Nat) (body : List Byte) : (s.ctrlHeader msg epoch body).length = 16 := by
  simp [State.ctrlHeader]

theorem byteAt_ctrlHeader (s : State) {msg : Nat} (h : msg < 256) (epoch : Nat) (body : List Byte) : byteAt (s.ctrlHeader msg epoch body) 0 = msg := by
  simp [State.ctrlHeader, byteAt, fld, leNat, Nat.mod_eq_of_lt h]

/-- A control message to another node is in its flow. -/
theorem told_sendCtrl {me dst msg : Nat} (hn : s.node = some me) (hd : dst ≠ me) (hm : msg < 256) (epoch : Nat) (body : List Byte) :
    Told (s.sendCtrl dst msg epoch body) dst msg body := by
  have hs : (s.node.isNone || s.node == some dst) = false := by
    rw [hn]
    simpa using fun h => hd h.symm
  unfold State.sendCtrl
  rw [hs]
  exact sends_enqueue s none none none (s.ctrlFrame dst msg epoch body)
    (fun _ _ => ⟨rfl, _, _, rfl, ctrlHeader_length s msg epoch body, byteAt_ctrlHeader s hm epoch body⟩)

theorem told_sendGroup {me dst msg : Nat} (hn : s.node = some me) (hd : dst ≠ me) (hm : msg < 256) (body : List Byte) :
    Told (s.sendGroup dst msg body) dst msg body := told_sendCtrl hn hd hm _ _

theorem told_sendTop {me dst msg : Nat} (hn : s.node = some me) (hd : dst ≠ me) (hm : msg < 256) (body : List Byte) :
    Told (s.sendTop dst msg body) dst msg body := told_sendCtrl hn hd hm _ _

theorem onlyFabric_sendGroup (s : State) (dst msg : Nat) (body : List Byte) : OnlyFabric s (s.sendGroup dst msg body) :=
  onlyFabric_sendCtrl _ _ _ _ _

theorem onlyFabric_sendTop (s : State) (dst msg : Nat) (body : List Byte) : OnlyFabric s (s.sendTop dst msg body) :=
  onlyFabric_sendCtrl _ _ _ _ _

theorem tells_sendGroup (s : State) (dst msg : Nat) (body : List Byte) : Tells s (s.sendGroup dst msg body) := tells_sendCtrl _ _ _ _ _

theorem tells_sendTop (s : State) (dst msg : Nat) (body : List Byte) : Tells s (s.sendTop dst msg body) := tells_sendCtrl _ _ _ _ _

/-- HELLO names arrays, ports and the format of the record, none of which the other fields of the roles change. -/
theorem helloBody_modRoles (s : State) {g : Roles → Roles} (h : (g s.roles).record = s.roles.record) : (s.modRoles g).helloBody = s.helloBody := by
  have hr : (s.modRoles g).role 0 2 = s.role 0 2 := by
    unfold State.role
    rw [show (s.modRoles g).roles.record = s.roles.record from h]
  unfold State.helloBody
  rw [hr]
  rfl

/-- A message that one step of a fold sends, and every other keeps, is sent by the fold. -/
theorem told_foldl {α : Type} {F : State → α → State} (hF : ∀ s b, Tells s (F s b)) {a : α} {r : Option (List Byte)} {node msg : Nat}
    {body : List Byte} (hs : ∀ s, s.roles.record = r → Told (F s a) node msg body) {l : List α} (ha : a ∈ l) (s : State)
    (hr : s.roles.record = r) : Told (l.foldl F s) node msg body := by
  induction l generalizing s with
  | nil => exact absurd ha List.not_mem_nil
  | cons b l ih =>
    rw [List.foldl_cons]
    rcases List.mem_cons.1 ha with rfl | ha
    · exact (tells_foldl F l hF _).told (hs s hr)
    · exact ih ha _ ((hF s b).record.trans hr)

/-! ### A control message that is taken in -/

/-- The node of the module and its time stay. -/
structure KeepsNode (s t : State) : Prop where
  record : t.roles.record = s.roles.record
  pilot : t.pilot = s.pilot

theorem KeepsNode.trans {s t u : State} (h : KeepsNode s t) (k : KeepsNode t u) : KeepsNode s u :=
  ⟨k.record.trans h.record, k.pilot.trans h.pilot⟩

theorem keepsNode_takeSeq (s : State) (p : Fin 16) (f : Frame) : KeepsNode s (s.takeSeq p f).1 := by
  have opens : KeepsNode s (if f.start then s.startFlow f.src f.job f.channel else s) := frame_ite ⟨rfl, rfl⟩ ⟨rfl, rfl⟩
  unfold State.takeSeq
  dsimp only
  generalize (if f.start then s.startFlow f.src f.job f.channel else s) = u at opens ⊢
  refine opens.trans ?_
  split
  · rw [sendAck_rest]
    exact ⟨rfl, rfl⟩
  · split
    · exact ⟨rfl, rfl⟩
    · dsimp only
      split
      · rw [sendAck_rest]
        exact ⟨rfl, rfl⟩
      · exact ⟨rfl, rfl⟩

theorem keepsNode_receive (s : State) (p : Fin 16) (f : Frame) : KeepsNode s (s.receive p f).1 := by
  have heard : KeepsNode s (s.hear p f).1 := by
    unfold State.hear
    split
    · exact ⟨rfl, rfl⟩
    · split <;> exact ⟨rfl, rfl⟩
  unfold State.receive
  split
  next u h => rw [h] at heard; exact heard
  next u h => rw [h] at heard; exact heard.trans (keepsNode_takeSeq _ _ _)

theorem keepsNode_yieldTo (s : State) (msg : Nat) (top : Bool) (c : Ctrl) : KeepsNode s (s.yieldTo msg top c) := by
  unfold State.yieldTo
  exact frame_ite ⟨rfl, rfl⟩ (frame_ite (frame_ite ⟨rfl, rfl⟩ ⟨rfl, rfl⟩) (frame_ite ⟨rfl, rfl⟩ ⟨rfl, rfl⟩))

/-- Taking in a message leaves the node of the module and its time. -/
theorem keepsNode_takeCtrl (h : s.takeCtrl p f msg = (s1, some c)) : KeepsNode s s1 := by
  have recv := keepsNode_receive s p f
  have last {A B : Prop} [Decidable A] [Decidable B] {x y z : State} {d : Ctrl}
      (h : (if A then (x, none) else if B then (y, none) else (z, some d)) = (s1, some c)) : z = s1 ∧ d = c := by
    split at h
    · cases h
    · split at h
      · cases h
      · cases h
        exact ⟨rfl, rfl⟩
  unfold State.takeCtrl at h
  split at h
  · cases h
  · split at h
    · cases h
    next u hu =>
      rw [hu] at recv
      obtain ⟨rfl, -⟩ := last h
      exact recv.trans (keepsNode_yieldTo _ _ _ _)

theorem KeepsNode.node {s t : State} (h : KeepsNode s t) {me : Nat} (hn : s.node = some me) : t.node = some me :=
  (node_of_record h.record).trans hn

theorem record_of_node {me : Nat} (h : s.node = some me) : s.roles.record.isNone = false := by
  unfold State.node at h
  cases hr : s.roles.record with
  | none => rw [hr] at h; cases h
  | some r => rfl

end

end Sys2Proof.Machine
end

section
/-! PROOFS. Members join their group (15). -/

namespace Sys2Proof.Machine

open Sys2Proof

/-! ## Members join their group (15, R375, R376) -/

section
variable {s s1 : State} {p : Fin 16} {f : Frame} {c : Ctrl} {me : Nat}

/-- A module that its top deputy hears of as a manager is noted. -/
def State.hearsManager (s : State) (c : Ctrl) : State := if s.isTopDeputy && c.role == 1 then s.modRoles (fun r => { r with asked := true }) else s

theorem hearsManager_spec (s : State) (c : Ctrl) : Tells s (s.hearsManager c) ∧ (s.hearsManager c).roles.members = s.roles.members ∧
    (s.hearsManager c).roles.groupEpoch = s.roles.groupEpoch :=
  frame_ite (R := fun s t => Tells s t ∧ t.roles.members = s.roles.members ∧ t.roles.groupEpoch = s.roles.groupEpoch)
    ⟨tells_modRoles s rfl rfl, rfl, rfl⟩ ⟨Tells.refl s, rfl, rfl⟩

theorem doHello_welcomes {m : Member} (h : s.takeCtrl p f 0x01 = (s1, some c)) (hs : s1.roles.servesGroup = true)
    (hr : s1.roles.managerReadyAt.isSome = true) (hf : s1.roles.formed = false) (hm : s1.roles.members.find? (fun m => m.node == c.src) = some m) :
    doHello p f s = ((s1.hearsManager c).modMember c.src (fun m => { m with present := true, beat := s.pilot })).welcome c.src m.index := by
  have hn : s1.roles.managerReadyAt.isNone = false := by simpa using hr
  unfold doHello
  rw [h]
  dsimp only
  rw [hm]
  dsimp only
  rw [hs, hn, hf]
  rfl

theorem onlyFabric_welcome (s : State) (node : Nat) (i : Option Nat) : OnlyFabric s (s.welcome node i) := onlyFabric_sendCtrl _ _ _ _ _

theorem told_welcome {node : Nat} (hn : s.node = some me) (hd : node ≠ me) (i : Option Nat) {e : Nat} (he : s.roles.groupEpoch = e) :
    Told (s.welcome node i) node 0x02 (leBytes 2 (i.getD 0xFFFF) ++ leBytes 2 e) := by
  rw [← he]
  exact told_sendGroup hn hd (by omega) _

/-- Every entry of a node, once changed, is what the change made of it. -/
theorem of_mem_modMember {node : Nat} {g : Member → Member} {P : Member → Prop} (hP : ∀ m, m.node = node → P (g m)) {k : Member}
    (hk : k ∈ (s.modMember node g).roles.members) (hn : k.node = node) (hg : ∀ m, (g m).node = m.node) : P k := by
  obtain ⟨m, -, rfl⟩ := List.mem_map.1 hk
  split at hn
  next h => rw [if_pos h]; exact hP m h
  next h => exact absurd hn h

theorem doHelloRepeat_sends {a : Nat} (hn : s.node = some me) (hr : s.roles.readyAt = some a) (hw : s.roles.welcomed = false)
    (hs : s.roles.servesGroup = false) (hd : ∀ b, s.roles.helloAt = some b → b + 50000000 ≤ s.pilot) (hm : s.roles.manager ≠ me) :
    OnlyFabric (s.modRoles (fun r => { r with helloAt := some s.pilot })) (doHelloRepeat s) ∧ Told (doHelloRepeat s) s.roles.manager 0x01 s.helloBody := by
  have hs' : (s.modRoles (fun r => { r with helloAt := some s.pilot })).node = some me := hn
  have told : Told ((s.modRoles (fun r => { r with helloAt := some s.pilot })).sendHello s.roles.manager) s.roles.manager 0x01 s.helloBody := by
    unfold State.sendHello
    rw [helloBody_modRoles s (g := fun r => { r with helloAt := some s.pilot }) rfl]
    exact told_sendGroup hs' hm (by omega) _
  have sent : OnlyFabric (s.modRoles (fun r => { r with helloAt := some s.pilot }))
    ((s.modRoles (fun r => { r with helloAt := some s.pilot })).sendHello s.roles.manager) := onlyFabric_sendGroup _ _ _ _
  unfold doHelloRepeat
  dsimp only
  rw [hr]
  dsimp only
  rw [if_neg]
  · exact frame_ite (R := fun s t => OnlyFabric s t ∧ Told t _ _ _) ⟨sent.trans (onlyFabric_sendGroup _ _ _ _), (tells_sendGroup _ _ _ _).told told⟩
      ⟨sent, told⟩
  · rw [record_of_node hn, hw, hs]
    split
    next b hb => simpa using hd b hb
    · simp

theorem doManagerReady_lists {g : Nat} (hn : s.node = some me) (hs : s.roles.servesGroup = true) (hr : s.roles.readyAt.isSome = true)
    (hm : s.roles.managerReadyAt = none) (hg : s.board.goodAt = some g) (hp : g + 3750000000 ≤ s.pilot) : doManagerReady s =
    { s with roles := { s.roles with managerReadyAt := some s.pilot, welcomed := true, members := s.listMembers } } := by
  have hn' : s.roles.readyAt.isNone = false := by simpa using hr
  unfold doManagerReady
  dsimp only
  rw [hg, record_of_node hn, hn', hm, hs]
  dsimp only
  rw [if_neg (by simp [hp])]
  simp only [State.modRoles, hs, Bool.or_true, if_true]

/-- The roles of a group that forms with every worker present. -/
def Roles.complete (r : Roles) : Roles :=
  { r with formed := true, members := r.members.map (fun m => if m.present then m else { m with index := none }) }

theorem doGroupForm_complete {a : Nat} (hr : s.roles.role = 1) (hm : s.roles.managerReadyAt = some a) (hf : s.roles.formed = false)
    (hi : s.roles.installReady = false) (hp : ∀ m ∈ s.roles.members, m.listed < s.role 0x16 2 → m.present = true) :
    doGroupForm s = (s.modRoles Roles.complete).sendTop s.roles.top 0x03 (s.modRoles Roles.complete).readyBody := by
  have hall : (s.roles.members.filter (fun m => decide (m.listed < s.role 0x16 2))).all (·.present) = true := by
    refine List.all_eq_true.2 (fun m h => ?_)
    obtain ⟨hm, hl⟩ := List.mem_filter.1 h
    exact hp m hm (of_decide_eq_true hl)
  have habs : (s.roles.members.filter (fun m => decide (m.listed < s.role 0x16 2))).filter (fun m => !m.present) = [] := by
    refine List.filter_eq_nil_iff.2 (fun m h => ?_)
    rw [List.all_eq_true.1 hall m h]
    simp
  have hs : s.roles.servesGroup = true := by simp [Roles.servesGroup, hr]
  have ha : (s.modRoles Roles.complete).roles.servesAll = false := by
    show (s.roles.role == 2) = false
    rw [hr]
    rfl
  have ready : (s.modRoles Roles.complete).sendReady = (s.modRoles Roles.complete).sendTop s.roles.top 0x03 (s.modRoles Roles.complete).readyBody := by
    unfold State.sendReady
    dsimp only
    rw [ha]
    rfl
  have later : ((s.modRoles Roles.complete).sendReady).roles.installReady = false := by
    rw [ready]
    exact (congrArg Roles.installReady (onlyFabric_sendTop _ _ _ _).roles).trans hi
  unfold doGroupForm
  dsimp only
  rw [hm]
  dsimp only
  rw [hs, hf, hall, habs]
  show (if ((s.modRoles Roles.complete).sendReady).roles.installReady = true then _ else (s.modRoles Roles.complete).sendReady) = _
  rw [later]
  exact ready

end

/-- Settles O47: each message of the bring-up is answered by the message that follows it, from a node that is another. -/
theorem membersJoinTheirGroup : Obligations.MembersJoinTheirGroup := by
  intro s me hu hn
  have run {f : State → State} {t} (h : f s = t) : inLamp f s = .next t := (inLamp_up _ _ hu).trans (congrArg _ h)
  refine ⟨fun p f s1 c m h hs hr hf hm hc => ?_, fun p f s1 c h hs => run ?_, fun a hr hw hs hd hm => ?_, fun g hs hr hm hg hp => run ?_,
    fun a hr hm hf hi ht hp => ?_⟩
  · obtain ⟨htell, hmem, hep⟩ := hearsManager_spec s1 c
    refine ⟨_, run (doHello_welcomes h hs hr hf hm), fun k hk hkn => ?_, ?_⟩
    · rw [(onlyFabric_welcome _ _ _).roles] at hk
      exact of_mem_modMember (P := fun m => m.present = true ∧ m.beat = s.pilot) (fun _ _ => ⟨rfl, rfl⟩) hk hkn (fun _ => rfl)
    · have hnode := (node_of_record htell.record).trans ((keepsNode_takeCtrl h).node hn)
      exact told_welcome (s := (s1.hearsManager c).modMember c.src _) hnode hc m.index hep
  · unfold doWelcome
    rw [h]
    dsimp only
    rw [hs]
    rfl
  · obtain ⟨hfab, htold⟩ := doHelloRepeat_sends hn hr hw hs hd hm
    exact ⟨_, run (f := doHelloRepeat) rfl, hfab.roles, rest_of_onlyFabric hfab, htold⟩
  · exact doManagerReady_lists hn hs hr hm hg hp
  · have heq := doGroupForm_complete hr hm hf hi hp
    have hfab : OnlyFabric (s.modRoles Roles.complete) (doGroupForm s) := heq ▸ onlyFabric_sendTop _ _ _ _
    refine ⟨_, (s.modRoles Roles.complete).readyBody, run (f := doGroupForm) rfl, rest_of_onlyFabric hfab, hfab.roles, ?_⟩
    rw [heq]
    exact told_sendTop (s := s.modRoles Roles.complete) hn ht (by omega) _

end Sys2Proof.Machine
end

section
/-! PROOFS. The installation comes up (15). -/

namespace Sys2Proof.Machine

open Sys2Proof

/-! ## The installation comes up (15, R377, R378, R384) -/

section
variable {s s1 : State} {p : Fin 16} {f : Frame} {c : Ctrl} {me : Nat}

/-! ### Groups register -/

/-- What identifies a registered group: all but its spares that were posted and its steps. -/
structure SameGroup (g h : GroupReg) : Prop where
  group : h.group = g.group
  node : h.node = g.node
  present : h.present = g.present
  absent : h.absent = g.absent
  spares : h.spares = g.spares

/-- Registered groups stay, and nothing changes of the roles but groups and steps. -/
structure KeepsGroups (s t : State) : Prop where
  kept : ∀ g ∈ s.roles.groups, ∃ h ∈ t.roles.groups, SameGroup g h
  roles : t.roles = { s.roles with groups := t.roles.groups, steps := t.roles.steps, restore := t.roles.restore }

theorem SameGroup.refl (g : GroupReg) : SameGroup g g := ⟨rfl, rfl, rfl, rfl, rfl⟩

theorem SameGroup.trans {g h k : GroupReg} (a : SameGroup g h) (b : SameGroup h k) : SameGroup g k :=
  ⟨b.group.trans a.group, b.node.trans a.node, b.present.trans a.present, b.absent.trans a.absent, b.spares.trans a.spares⟩

theorem KeepsGroups.refl (s : State) : KeepsGroups s s := ⟨fun g h => ⟨g, h, SameGroup.refl g⟩, rfl⟩

theorem KeepsGroups.trans {s t u : State} (h : KeepsGroups s t) (k : KeepsGroups t u) : KeepsGroups s u := by
  refine ⟨fun g hg => ?_, ?_⟩
  · obtain ⟨a, ha, hsa⟩ := h.kept g hg
    obtain ⟨b, hb, hsb⟩ := k.kept a ha
    exact ⟨b, hb, hsa.trans hsb⟩
  · rw [k.roles, h.roles]

theorem keepsGroups_of_roles {s t : State} (h : t.roles = s.roles) : KeepsGroups s t := by
  refine ⟨fun g hg => ⟨g, by rw [h]; exact hg, SameGroup.refl g⟩, ?_⟩
  rw [h]

theorem keepsGroups_map (s : State) {F : GroupReg → GroupReg} (hF : ∀ g, SameGroup g (F g)) {r : Roles}
    (hr : r = { s.roles with groups := s.roles.groups.map F, steps := r.steps, restore := r.restore }) : KeepsGroups s { s with roles := r } :=
  ⟨fun g hg => ⟨F g, by rw [hr]; exact List.mem_map_of_mem hg, hF g⟩, by rw [hr]⟩

theorem keepsGroups_checkSpares (s : State) (g : Nat) : KeepsGroups s (s.checkSpares g) := by
  have events (l : List Nat) (s : State) (d : List Byte) : KeepsGroups s (l.foldl (fun s _ => s.event 0 0x0526 d) s) :=
    frame_foldl KeepsGroups.refl KeepsGroups.trans _ _ (fun s _ _ => keepsGroups_of_roles (onlyWork_event s _ _ _).roles) s
  unfold State.checkSpares
  dsimp only
  split
  · exact KeepsGroups.refl s
  · refine KeepsGroups.trans ?_ (events _ _ _)
    exact keepsGroups_map s (F := fun h => if h.group = g then { h with posted := _ } else h)
      (fun h => by split; exact ⟨rfl, rfl, rfl, rfl, rfl⟩; exact SameGroup.refl h) rfl

theorem keepsGroups_updateRestore (s : State) : KeepsGroups s s.updateRestore := by
  unfold State.updateRestore
  refine frame_ite (KeepsGroups.refl s) ?_
  exact keepsGroups_map s (F := fun g => { g with steps := liveSteps _ g.steps }) (fun g => ⟨rfl, rfl, rfl, rfl, rfl⟩) rfl

/-- What a registration enters. -/
def State.registered (s : State) (g : GroupReg) : State :=
  s.modRoles (fun r => { r with groups := r.groups.filter (fun h => h.group != g.group) ++ [match s.roles.groups.find? (fun h => h.group == g.group) with
    | some h => { g with posted := h.posted, steps := h.steps ++ g.steps }
    | none => { g with posted := none }] })

theorem registerGroup_eq (s : State) (g : GroupReg) (h : s.roles.closed = false) :
    s.registerGroup g = ((s.registered g).checkSpares g.group).updateRestore := by
  unfold State.registerGroup
  dsimp only
  rw [h]
  rfl

theorem keepsGroups_registerGroup (s : State) (g : GroupReg) (h : s.roles.closed = false) : KeepsGroups (s.registered g) (s.registerGroup g) := by
  rw [registerGroup_eq s g h]
  exact (keepsGroups_checkSpares _ _).trans (keepsGroups_updateRestore _)

theorem registered_holds (s : State) (g : GroupReg) : ∃ h ∈ (s.registered g).roles.groups, SameGroup g h := by
  refine ⟨_, List.mem_append_right _ (List.mem_singleton_self _), ?_⟩
  split <;> exact ⟨rfl, rfl, rfl, rfl, rfl⟩

theorem registerGroup_holds (s : State) (g : GroupReg) (h : s.roles.closed = false) : ∃ h ∈ (s.registerGroup g).roles.groups, SameGroup g h := by
  obtain ⟨a, ha, hsa⟩ := registered_holds s g
  obtain ⟨b, hb, hsb⟩ := (keepsGroups_registerGroup s g h).kept a ha
  exact ⟨b, hb, hsa.trans hsb⟩

theorem tells_registerGroup (s : State) (g : GroupReg) : Tells s (s.registerGroup g) := by
  unfold State.registerGroup
  exact frame_ite (Tells.refl s) (((tells_modRoles s rfl rfl).trans (tells_checkSpares _ _)).trans (tells_updateRestore _))

theorem tells_sendReady (s : State) : Tells s s.sendReady := by
  unfold State.sendReady
  exact frame_ite (tells_registerGroup _ _) (tells_sendTop _ _ _ _)

/-- The holder of the installation registers its own group: its office stays. -/
theorem sendReady_roles (h : s.roles.servesAll = true) (hc : s.roles.closed = false) : ∃ gs st re,
    s.sendReady.roles = { s.roles with groups := gs, steps := st, restore := re } := by
  unfold State.sendReady
  dsimp only
  rw [if_pos h]
  have k := (keepsGroups_registerGroup s { group := s.role 0x10 1, node := s.node.getD 0, present := s.roles.served.length
                                           absent := (s.roles.members.filter (fun m => !m.present && decide (m.listed < s.role 0x16 2))).length
                                           spares := s.roles.freeSpares.length, posted := none, beat := s.pilot, steps := s.roles.steps } hc).roles
  exact ⟨_, _, _, k⟩

theorem doGroupReady_registers (h : s.takeCtrl p f 0x03 = (s1, some c)) (hs : s1.roles.servesAll = true) : doGroupReady p f s =
    s1.registerGroup { group := c.group, node := c.src, present := fld c.body 0 2, absent := fld c.body 2 2
                       spares := fld c.body (4 + 4 * fld c.body 2 2) 2, posted := none, beat := s.pilot, steps := [] } := by
  unfold doGroupReady
  rw [h]
  dsimp only
  rw [hs]
  rfl

/-! ### The installation is ready -/

theorem servesAll_of_group (h : s.roles.servesGroup = false) : s.roles.servesAll = false := by
  unfold Roles.servesGroup at h
  exact (Bool.or_eq_false_iff.1 h).2

theorem doInstallReady_installs (h : s.takeCtrl p f 0x04 = (s1, some c)) (hs : s1.roles.servesGroup = false) : doInstallReady p f s =
    { s1 with roles := { s1.roles with installReady := true, installEpoch := max s1.roles.installEpoch (fld c.body 0 2), offset := fld c.body 4 2 } } := by
  unfold doInstallReady
  rw [h]
  dsimp only
  rw [servesAll_of_group hs]
  have hs' : (s1.modRoles (fun r => { r with installReady := true, installEpoch := max r.installEpoch (fld c.body 0 2), offset := fld c.body 4 2 })
    ).roles.servesGroup = false := hs
  show (if _ then _ else s1.installNow c.body) = _
  unfold State.installNow
  dsimp only
  rw [hs']
  rfl

/-- The body of INSTALL_READY for a group. -/
def State.readyFor (s : State) (g : Nat) : List Byte :=
  leBytes 2 s.roles.installEpoch ++ leBytes 2 s.roles.groups.length ++ leBytes 2 (s.evalOffset g)

/-- Nodes that the record lists as managers of groups. -/
def Roles.listed (r : Roles) : List Nat := match r.record with | some b => (groupNodes b).map Prod.fst | none => []

/-- INSTALL_READY to one group. -/
def State.tellGroup (s : State) (t : State) (g : Nat) : State :=
  if g = t.role 0x10 1 then t.installNow (s.readyFor g)
  else match s.roles.groups.find? (fun h => h.group == g), s.roles.listed[g]? with
    | some h, _ => t.sendTop h.node 0x04 (s.readyFor g)
    | none, some m => t.sendTop m 0x04 (s.readyFor g)
    | none, none => t

theorem tells_tellGroup (s t : State) (g : Nat) : Tells t (s.tellGroup t g) := by
  unfold State.tellGroup
  split
  · exact tells_installNow _ _
  · split
    · exact tells_sendTop _ _ _ _
    · exact tells_sendTop _ _ _ _
    · exact Tells.refl t

theorem doRegistrationClose_tells {a : Nat} (hs : s.roles.servesAll = true) (hm : s.roles.managerReadyAt = some a) (hc : s.roles.closed = false)
    (hg : s.role 0x11 1 ≤ s.roles.groups.length) : doRegistrationClose s =
    (List.range (s.role 0x11 1)).foldl s.tellGroup (s.modRoles (fun r => { r with closed := true })) := by
  unfold doRegistrationClose
  dsimp only
  rw [hm]
  dsimp only
  rw [hs, hc, if_neg (by simp [hg])]
  rfl

theorem tellGroup_told (s : State) {t : State} {g : Nat} {h : GroupReg} (hg : g ≠ s.role 0x10 1)
    (hf : s.roles.groups.find? (fun k => k.group == g) = some h) (hn : s.node = some me) (hm : h.node ≠ me)
    (hr : t.roles.record = s.roles.record) : Told (s.tellGroup t g) h.node 0x04 (s.readyFor g) := by
  unfold State.tellGroup
  have hrole : t.role 0x10 1 = s.role 0x10 1 := by
    unfold State.role
    rw [hr]
  rw [hrole, if_neg hg, hf]
  exact told_sendTop ((node_of_record hr).trans hn) hm (by omega) _

/-! ### Deputies -/

/-- The roles of a deputy that takes charge of its group. -/
def State.charged (s : State) (me : Nat) : Roles :=
  { s.roles with role := 1, groupEpoch := s.roles.groupEpoch + 1, manager := me, chargeAt := some s.pilot, welcomed := true
                 formed := false, members := s.listMembers }

/-- A deputy of its group tells the members. -/
def State.deputyTells (s : State) (me : Nat) : State :=
  (s.listMembers.filter (fun m => m.node != me)).foldl (fun t m => t.sendGroup m.node 0x06 (leBytes 2 (s.roles.groupEpoch + 1)))
    (s.modRoles (fun _ => s.charged me))

theorem doDeputyTakeCharge_group {a : Nat} (hn : s.node = some me) (hm : s.roles.managerReadyAt = some a) (hp : a + 500000000 ≤ s.pilot)
    (hd : s.isDeputy = true) (hs : s.roles.servesGroup = false) (hw : s.roles.welcomed = false) : doDeputyTakeCharge false s =
    (s.deputyTells me).sendTop (s.deputyTells me).roles.top 0x06 (leBytes 2 (s.roles.groupEpoch + 1)) := by
  unfold doDeputyTakeCharge
  dsimp only
  rw [hm]
  dsimp only
  rw [hd, hs, hw, hn, if_neg Bool.false_ne_true, if_neg (by simp; omega)]
  rfl

theorem deputyTells_spec (s : State) (me : Nat) (hn : s.node = some me) : OnlyFabric (s.modRoles (fun _ => s.charged me)) (s.deputyTells me) ∧
    ∀ m ∈ s.listMembers, m.node ≠ me → Told (s.deputyTells me) m.node 0x06 (leBytes 2 (s.roles.groupEpoch + 1)) := by
  refine ⟨frame_foldl OnlyFabric.refl OnlyFabric.trans _ _ (fun s _ _ => onlyFabric_sendGroup _ _ _ _) _, fun m hm hne => ?_⟩
  exact told_foldl (a := m) (r := s.roles.record) (fun s _ => tells_sendGroup s _ _ _)
    (fun t ht => told_sendGroup ((node_of_record ht).trans hn) hne (by omega) _) (List.mem_filter.2 ⟨hm, by simpa using hne⟩) _ rfl

/-- The roles of a top deputy that takes charge of the installation. -/
def State.topCharged (s : State) (me : Nat) : Roles :=
  { s.roles with role := 2, installEpoch := s.roles.installEpoch + 1, top := me, topChargeAt := some s.pilot, closed := false
                 groups := [], asked := false }

theorem doDeputyTakeCharge_top {a : Nat} (hn : s.node = some me) (hm : s.roles.managerReadyAt = some a) (hp : a + 500000000 ≤ s.pilot)
    (hd : s.isTopDeputy = true) (hr : s.roles.role = 1) (hb : s.roles.managerBeat = none) : doDeputyTakeCharge true s =
    (s.roles.listed.filter (· != me)).foldl (fun t m => t.sendTop m 0x06 (leBytes 2 (s.roles.installEpoch + 1)))
      (if s.roles.formed then (s.modRoles (fun _ => s.topCharged me)).sendReady else s.modRoles (fun _ => s.topCharged me)) := by
  unfold doDeputyTakeCharge
  dsimp only
  rw [hm]
  dsimp only
  rw [if_pos rfl, if_neg, hn]
  · rfl
  · rw [hd, hr, hb]
    simp [hp]

theorem topCharge_roles (s : State) (me : Nat) (b : Bool) : ∃ gs st re,
    (if b then (s.modRoles (fun _ => s.topCharged me)).sendReady else s.modRoles (fun _ => s.topCharged me)).roles =
    { s.topCharged me with groups := gs, steps := st, restore := re } := by
  split
  · exact sendReady_roles (s := s.modRoles (fun _ => s.topCharged me)) rfl rfl
  · exact ⟨_, _, _, rfl⟩

/-! ### Following the holder -/

/-- The roles of a module that follows another holder of its group. -/
def Roles.following (r : Roles) (epoch node now : Nat) : Roles :=
  { r with groupEpoch := epoch, manager := node, welcomed := false, helloAt := some now }

theorem follow_spec (s : State) {node : Nat} (hn : s.node = some me) (hd : node ≠ me) (hs : s.roles.servesGroup = false) (epoch : Nat) :
    (s.follow epoch node).roles = s.roles.following epoch node s.pilot ∧ Told (s.follow epoch node) node 0x01 s.helloBody := by
  have heq : s.follow epoch node = (s.modRoles (·.following epoch node s.pilot)).sendHello node := by
    unfold State.follow State.modRoles
    dsimp only
    rw [hs]
    rfl
  rw [heq]
  refine ⟨(onlyFabric_sendGroup _ _ _ _).roles, ?_⟩
  unfold State.sendHello
  rw [helloBody_modRoles s (g := (·.following epoch node s.pilot)) rfl]
  exact told_sendGroup (s := s.modRoles (·.following epoch node s.pilot)) hn hd (by omega) _

theorem doTakeCharge_follows (h : s.takeCtrl p f 0x06 = (s1, some c)) (hg : c.group = s1.role 0x10 1) (he : s1.roles.groupEpoch < fld c.body 0 2) :
    doTakeCharge p f s = s1.follow (fld c.body 0 2) c.src := by
  unfold doTakeCharge
  rw [h]
  dsimp only
  rw [if_pos hg, if_pos he]

theorem doNotice_follows (h : s.takeCtrl p f 0x0E = (s1, some c)) (hg : c.group = s1.role 0x10 1) (hs : s1.roles.servesGroup = false)
    (hn : s1.node = some me) (hd : fld c.body 2 4 ≠ me) : doNotice p f s = s1.follow (fld c.body 0 2) (fld c.body 2 4) := by
  unfold doNotice
  rw [h]
  dsimp only
  rw [if_neg (by rw [hn]; simpa using fun h => hd h.symm), if_pos hg, hs]
  rfl

end

/-- Settles O48: a message that reaches its holder takes effect, and each node that is to hear of it is told. -/
theorem theInstallationComesUp : Obligations.TheInstallationComesUp := by
  intro s me hu hn
  have run {f : State → State} {t} (h : f s = t) : inLamp f s = .next t := (inLamp_up _ _ hu).trans (congrArg _ h)
  refine ⟨fun p f s1 c h hs hc => ?_, fun p f s1 c h hs => run (doInstallReady_installs h hs), fun a hs hm hc hg => ?_,
    fun a hm hp => ⟨fun hd hs hw => ?_, fun hd hr hb => ?_⟩, fun p f s1 c cmd node hcmd hg hs hd => ?_⟩
  · obtain ⟨g, hg, hsame⟩ := registerGroup_holds s1 ⟨c.group, c.src, fld c.body 0 2, fld c.body 2 2, fld c.body (4 + 4 * fld c.body 2 2) 2,
        none, s.pilot, []⟩ hc
    exact ⟨_, run (doGroupReady_registers h hs), g, hg, hsame.group, hsame.node, hsame.present, hsame.absent, hsame.spares⟩
  · refine ⟨_, run (doRegistrationClose_tells hs hm hc hg), (tells_foldl _ _ (fun t g => tells_tellGroup s t g) _).closed, fun g h hlt hne hf hme => ?_⟩
    exact told_foldl (a := g) (r := s.roles.record) (fun t g => tells_tellGroup s t g) (fun t ht => tellGroup_told s hne hf hn hme ht)
      (List.mem_range.2 hlt) _ rfl
  · obtain ⟨hfab, htold⟩ := deputyTells_spec s me hn
    refine ⟨_, run (doDeputyTakeCharge_group hn hm hp hd hs hw), (onlyFabric_sendTop _ _ _ _).roles.trans hfab.roles, fun m hm hne => ?_⟩
    exact (tells_sendTop _ _ _ _).told (htold m hm hne)
  · obtain ⟨gs, st, re, hroles⟩ := topCharge_roles s me s.roles.formed
    have hall : (doDeputyTakeCharge true s).roles = { s.topCharged me with groups := gs, steps := st, restore := re } := by
      rw [doDeputyTakeCharge_top hn hm hp hd hr hb, ← hroles]
      exact (frame_foldl OnlyFabric.refl OnlyFabric.trans _ _ (fun s _ _ => onlyFabric_sendTop _ _ _ _) _).roles
    refine ⟨_, run (f := doDeputyTakeCharge true) rfl, ?_⟩
    rw [hall]
    exact ⟨rfl, rfl, rfl, rfl⟩
  · rcases hcmd with ⟨rfl, h, rfl, he⟩ | ⟨rfl, h, rfl⟩
    · have keep := keepsNode_takeCtrl h
      have k := follow_spec s1 (keep.node hn) hd hs (fld c.body 0 2)
      rw [keep.pilot] at k
      exact ⟨_, run (doTakeCharge_follows h hg he), k⟩
    · have keep := keepsNode_takeCtrl h
      have k := follow_spec s1 (keep.node hn) hd hs (fld c.body 0 2)
      rw [keep.pilot] at k
      exact ⟨_, run (doNotice_follows h hg hs (keep.node hn) hd), k⟩

end Sys2Proof.Machine
end

section
/-! PROOFS. Managers hear their members (15). -/

namespace Sys2Proof.Machine

open Sys2Proof

/-! ## Managers hear their members (15, R379, R385; 20, R491) -/

section
variable {s s1 : State} {p : Fin 16} {f : Frame} {c : Ctrl} {me node : Nat}

/-! ### Heartbeats -/

theorem doHeartbeat_noted {m : Member} (h : s.takeCtrl p f 0x05 = (s1, some c)) (hg : c.group = s1.role 0x10 1) (hs : s1.roles.servesGroup = true)
    (hm : s1.roles.members.find? (fun m => m.node == c.src) = some m) (hf : m.failed = false) (hp : m.present = true)
    (hl : fld c.body 20 2 = 0) : doHeartbeat p f s = s1.noteBeat c.src c.body := by
  have hown : (c.group == s1.role 0x10 1) = true := beq_iff_eq.2 hg
  unfold doHeartbeat
  rw [h]
  dsimp only
  rw [hown, hs, hm, if_neg (by simp), if_neg (by simp), if_pos (Bool.and_self true)]
  show s1.memberBeat c m = _
  unfold State.memberBeat
  dsimp only
  rw [hf, hp, if_neg (by simp), if_pos hl]

theorem noteBeat_at {n : Nat} (h : s.pilot = n) (node : Nat) (b : List Byte) : s.noteBeat node b =
    s.modMember node (fun m => { m with beat := n, beats := (beatOf b :: m.beats).take 10, faults := beatFaults b }) := by
  rw [← h]
  rfl

/-- The heartbeat of a member to its manager. -/
def State.beatSent (s : State) : State := s.sentBeat.sendGroup s.roles.manager 0x05 (s.beatBody [])

theorem sentBeat_spec (s : State) : Tells s s.sentBeat ∧ s.sentBeat.roles.beatAt = some s.pilot := by
  unfold State.sentBeat
  have plain : Tells s ((s.modRoles (fun r => { r with beatAt := some s.pilot })).modPower (fun p => { p with periods := 0, shortPeriods := 0 })) :=
    (tells_modRoles s rfl rfl).trans (tells_modPower _ _)
  exact frame_ite (R := fun s t => Tells s t ∧ t.roles.beatAt = some s.pilot) ⟨plain.trans (tells_modMember _ _ _), rfl⟩ ⟨plain, rfl⟩

theorem beatSent_spec (hn : s.node = some me) (hm : s.roles.manager ≠ me) :
    s.beatSent.roles.beatAt = some s.pilot ∧ Told s.beatSent s.roles.manager 0x05 (s.beatBody []) := by
  obtain ⟨htell, hbeat⟩ := sentBeat_spec s
  exact ⟨(congrArg Roles.beatAt (onlyFabric_sendGroup _ _ _ _).roles).trans hbeat, told_sendGroup ((node_of_record htell.record).trans hn) hm (by omega) _⟩

/-- Behind a heartbeat a count of records may go out. -/
theorem doHeartbeatSend_sends (hn : s.node = some me) (hr : s.roles.role = 0) (ha : s.roles.readyAt.isSome = true) (hw : s.roles.welcomed = true)
    (hd : ∀ b, s.roles.beatAt = some b → b + 5000000 ≤ s.pilot) :
    doHeartbeatSend s = s.beatSent ∨ ∃ dst epoch body, doHeartbeatSend s =
      (s.beatSent.sendCtrl dst 0x0B epoch body).modRoles (fun r => { r with countsAt := some s.pilot }) := by
  have hready : s.roles.readyAt.isNone = false := by simpa using ha
  unfold doHeartbeatSend
  dsimp only
  rw [hr, if_neg, if_neg (by omega), if_neg (by omega)]
  · split
    · exact (Classical.em _).elim (fun h => .inr ⟨_, _, _, if_pos h⟩) (fun h => .inl (if_neg h))
    · exact .inl rfl
  · rw [record_of_node hn, hready, hw]
    split
    next b hb => simpa using hd b hb
    · simp

/-! ### Members fail -/

/-- The entries of the members stay. -/
def KeepsMembers (s t : State) : Prop := t.roles.members = s.roles.members

theorem KeepsMembers.refl (s : State) : KeepsMembers s s := rfl

theorem KeepsMembers.trans {s t u : State} (h : KeepsMembers s t) (k : KeepsMembers t u) : KeepsMembers s u := Eq.trans k h

theorem keepsMembers_of_roles {s t : State} (h : t.roles = s.roles) : KeepsMembers s t := congrArg Roles.members h

theorem keepsMembers_modRoles (s : State) {g : Roles → Roles} (h : (g s.roles).members = s.roles.members) : KeepsMembers s (s.modRoles g) := h

theorem keepsMembers_tellRoster (s : State) (index node job step reason : Nat) : KeepsMembers s (s.tellRoster index node job step reason) :=
  (frame_foldl KeepsMembers.refl KeepsMembers.trans _ _ (fun _ _ _ => keepsMembers_of_roles (onlyFabric_sendGroup _ _ _ _).roles) s).trans
    (keepsMembers_of_roles (onlyWork_event _ _ _ _).roles)

theorem keepsMembers_runTakeovers (n : Nat) (s : State) : KeepsMembers s (State.runTakeovers n s) := by
  induction n generalizing s with
  | zero => rfl
  | succ n ih =>
    unfold State.runTakeovers
    split
    · rfl
    · split
      · rfl
      · dsimp only
        split
        · exact ((keepsMembers_modRoles s rfl).trans (keepsMembers_tellRoster _ _ _ _ _ _)).trans (ih _)
        · exact (keepsMembers_modRoles s rfl).trans (keepsMembers_of_roles (onlyFabric_sendGroup _ _ _ _).roles)

theorem keepsMembers_ownSpares (s : State) : KeepsMembers s s.ownSpares := by
  unfold State.ownSpares
  refine frame_ite (KeepsMembers.refl s) ?_
  refine Eq.trans (congrArg Roles.members (KeepsGroups.roles (keepsGroups_checkSpares _ _))) ?_
  rfl

/-- What becomes of the entry of a member that fails. -/
def Member.out (m : Member) : Member := { m with failed := true, present := false, index := none }

theorem failMember_members {m : Member} (h : s.roles.members.find? (fun m => m.node == node && m.present && !m.failed) = some m) :
    (s.failMember node).roles.members = (s.modMember node Member.out).roles.members := by
  unfold State.failMember
  rw [h]
  refine Eq.trans (keepsMembers_ownSpares _) (Eq.trans (keepsMembers_runTakeovers _ _) ?_)
  rfl

theorem doMemberFail_fails {m : Member} (hs : s.roles.servesGroup = true) (hf : s.roles.formed = true) (hn : s.node = some me) (hne : node ≠ me)
    (h : s.roles.members.find? (fun m => m.node == node && m.present && !m.failed) = some m) (hb : m.beat + 100000000 ≤ s.pilot) :
    doMemberFail node s = s.failMember node := by
  have hnode : (m.node == node) = true := by
    have := List.find?_some (p := fun m : Member => m.node == node && m.present && !m.failed) h
    simp only [Bool.and_eq_true] at this
    exact this.1.1
  have hany : s.roles.members.any (fun m => m.node == node && decide (m.beat + 100000000 ≤ s.pilot)) = true :=
    List.any_eq_true.2 ⟨m, List.mem_of_find?_eq_some h, by rw [hnode]; simpa using hb⟩
  unfold doMemberFail
  dsimp only
  rw [hany, hs, hf, hn]
  exact if_pos (by simpa using fun h => hne h.symm)

/-! ### A manager of which nothing is heard -/

/-- The roles of a manager that turns to the top deputy. -/
def State.turned (s : State) (me : Nat) : Roles :=
  { s.roles with helloAt := some s.pilot, asked := s.roles.asked || decide (s.role 0x28 4 = me) }

theorem doManagerHeartbeatLoss_turns {b : Nat} (hn : s.node = some me) (hr : s.roles.role = 1) (hb : s.roles.silentSince = some b)
    (hp : b + 100000000 ≤ s.pilot) (hd : ∀ a, s.roles.helloAt = some a → a + 50000000 ≤ s.pilot) :
    doManagerHeartbeatLoss s = (s.modRoles (fun _ => s.turned me)).sendTop (s.role 0x28 4) 0x01 s.helloBody := by
  have hdep : s.isTopDeputy = decide (s.role 0x28 4 = me) := by
    unfold State.isTopDeputy
    rw [hn]
    by_cases h : s.role 0x28 4 = me
    · simp [h]
    · simpa [h] using fun k => h k.symm
  unfold doManagerHeartbeatLoss
  dsimp only
  rw [hb]
  dsimp only
  rw [if_neg, hdep]
  · rfl
  · rw [hr]
    split
    next a ha => simpa using ⟨hp, hd a ha⟩
    · simpa using hp

/-! ### SLOW_REPORT -/

theorem noteSlow_spec (s : State) (node : Nat) (v : List Nat) : s.noteSlow node v = { s with roles := (s.noteSlow node v).roles, hub := (s.noteSlow node v).hub } ∧
    ∀ k ∈ (s.noteSlow node v).roles.members, k.node = node → k.slow = v := by
  have first (k : Member) (hk : k ∈ (s.modMember node (fun m => { m with slow := v })).roles.members) (hn : k.node = node) : k.slow = v :=
    of_mem_modMember (P := fun m => m.slow = v) (fun _ _ => rfl) hk hn (fun _ => rfl)
  have second (g : Member → Member) (hs : ∀ m, (g m).slow = m.slow) (hg : ∀ m, (g m).node = m.node) (k : Member)
      (hk : k ∈ ((s.modMember node (fun m => { m with slow := v })).modMember node g).roles.members) (hn : k.node = node) : k.slow = v := by
    obtain ⟨m, hm, rfl⟩ := List.mem_map.1 hk
    split at hn
    next h => rw [if_pos h]; exact (hs m).trans (first m hm h)
    next h => exact absurd hn h
  have posts (u : State) (d : List Byte) (hr : u = { s with roles := u.roles, hub := u.hub })
      (hm : ∀ k ∈ u.roles.members, k.node = node → k.slow = v) : u.event 0 0x0527 d = { s with roles := (u.event 0 0x0527 d).roles, hub := (u.event 0 0x0527 d).hub } ∧
        ∀ k ∈ (u.event 0 0x0527 d).roles.members, k.node = node → k.slow = v := by
    refine ⟨?_, by rw [(onlyWork_event u 0 0x0527 d).roles]; exact hm⟩
    unfold State.event
    rcases post_cases u 0 { Entry.blank 4 0x0527 with detail := d } with h | h
    · rw [h, hr]
      rfl
    · rw [h]
      exact hr
  have entered (g : Member → Member) (hs : ∀ m, (g m).slow = m.slow) (hg : ∀ m, (g m).node = m.node) (b : Bool) (d : List Byte) :
      let u := (s.modMember node (fun m => { m with slow := v })).modMember node g
      let t := if b then u.event 0 0x0527 d else u
      t = { s with roles := t.roles, hub := t.hub } ∧ ∀ k ∈ t.roles.members, k.node = node → k.slow = v := by
    cases b
    · exact ⟨rfl, second g hs hg⟩
    · exact posts _ d rfl (second g hs hg)
  unfold State.noteSlow
  dsimp only
  split
  · exact ⟨rfl, first⟩
  · refine entered _ ?_ ?_ _ _ <;> exact fun _ => rfl

theorem doSlowReportSend_sends (hn : s.node = some me) (hs : s.roles.servesGroup = false) (ha : s.roles.readyAt.isSome = true)
    (hw : s.roles.welcomed = true) (hd : ∀ b, s.roles.slowAt = some b → b + 500000000 ≤ s.pilot) : doSlowReportSend s =
    (s.modRoles (fun r => { r with slowAt := some s.pilot })).sendGroup s.roles.manager 0x0C s.slowBody := by
  have hready : s.roles.readyAt.isNone = false := by simpa using ha
  unfold doSlowReportSend
  dsimp only
  rw [hs, if_neg]
  · rfl
  · rw [record_of_node hn, hready, hw]
    split
    next b hb => simpa using hd b hb
    · simp

end

/-- Settles O49: what a member reports is kept in its entry, and what it is to hear goes out. -/
theorem managersHearTheirMembers : Obligations.ManagersHearTheirMembers := by
  intro s me hu hn
  have run {f : State → State} {t} (h : f s = t) : inLamp f s = .next t := (inLamp_up _ _ hu).trans (congrArg _ h)
  refine ⟨fun p f s1 c m h hg hs hm hf hp hl => ?_, fun hr ha hw hm hd => ?_, fun node m hs hf hne h hb => ?_, fun b hr hb hp hd => ?_,
    fun p f s1 c h hs => ?_, fun hs ha hw hm hd => ?_, fun node => ⟨run ?_, fun hs => run ?_⟩⟩
  · refine run ((doHeartbeat_noted h hg hs hm hf hp hl).trans ?_)
    exact noteBeat_at (keepsNode_takeCtrl h).pilot _ _
  · obtain ⟨hbeat, htold⟩ := beatSent_spec hn hm
    refine ⟨_, run (f := doHeartbeatSend) rfl, ?_⟩
    rcases doHeartbeatSend_sends hn hr ha hw hd with heq | ⟨dst, epoch, body, heq⟩
    · rw [heq]
      exact ⟨hbeat, htold⟩
    · rw [heq]
      exact ⟨(congrArg Roles.beatAt (onlyFabric_sendCtrl _ _ _ _ _).roles).trans hbeat,
        ((tells_sendCtrl s.beatSent dst 0x0B epoch body).trans (tells_modRoles _ rfl rfl)).told htold⟩
  · refine ⟨_, run (doMemberFail_fails hs hf hn hne h hb), fun k hk hkn => ?_⟩
    rw [failMember_members h] at hk
    exact of_mem_modMember (P := fun m => m.failed = true ∧ m.present = false ∧ m.index = none) (fun _ _ => ⟨rfl, rfl, rfl⟩) hk hkn (fun _ => rfl)
  · refine ⟨_, run (doManagerHeartbeatLoss_turns hn hr hb hp hd), (onlyFabric_sendTop _ _ _ _).roles, fun hne => ?_⟩
    exact told_sendTop (s := s.modRoles (fun _ => s.turned me)) hn hne (by omega) _
  · obtain ⟨hrest, hslow⟩ := noteSlow_spec s1 c.src (slowValues c.body)
    refine ⟨_, run (t := s1.noteSlow c.src (slowValues c.body)) ?_, hrest, hslow⟩
    unfold doSlowReport
    rw [h]
    exact if_pos hs
  · refine ⟨_, run (doSlowReportSend_sends hn hs ha hw hd), (onlyFabric_sendGroup _ _ _ _).roles, ?_⟩
    exact told_sendGroup (s := s.modRoles (fun r => { r with slowAt := some s.pilot })) hn hm (by omega) _
  · exact if_neg (by simp)
  · exact if_pos (by rw [hs]; rfl)

end Sys2Proof.Machine
end

section
/-! PROOFS. Takeovers, reports and caps (15). -/

namespace Sys2Proof.Machine

open Sys2Proof

/-! ## Takeovers, reports and caps (15, R381, R382, R385, R386) -/

section
variable {s s1 : State} {p : Fin 16} {f : Frame} {c : Ctrl} {me : Nat}

/-! ### Takeovers -/

/-- A module that hears of a takeover takes its epoch. -/
def State.heardEpoch (s : State) (e : Nat) : State := s.modRoles (fun r => { r with groupEpoch := max r.groupEpoch e })

/-- What a spare reports of a takeover. -/
def takeoverReport (b : List Byte) (reason : Nat) : List Byte :=
  leBytes 2 (fld b 0 2) ++ leBytes 2 (fld b 6 2) ++ leBytes 4 (fld b 8 4) ++ leBytes 2 reason

/-- A spare that has stored its shard. -/
def State.tookShard (s : State) (j : JobEntry) (bs : List Byte) (index : Nat) : State :=
  (s.uwrite (j.ckptFirst * 131072) (cleanBytes bs)).modRoles (fun r => { r with role := 0, index := index })

/-- A spare stores the shard if it could read it and its job has pages for it. -/
def State.takesShard (s : State) (b : List Byte) (bs : List Byte) (j : JobEntry) : Bool :=
  fld b 12 4 != 0xFFFFFFFF && bs.length == j.ckptPages * 131072 && s.owns j.x (j.ckptFirst * 131072) (j.ckptPages * 131072)

theorem doTakeover_other (h : s.takeCtrl p f 0x08 = (s1, some c)) (hr : s1.roles.role ≠ 3) (shard : Option (List Byte)) :
    doTakeover p f shard s = s1.heardEpoch c.epoch := by
  unfold doTakeover
  rw [h]
  exact if_pos hr

theorem doTakeover_none (h : s.takeCtrl p f 0x08 = (s1, some c)) (hr : s1.roles.role = 3) :
    doTakeover p f none s = (s1.heardEpoch c.epoch).sendGroup c.src 0x09 (takeoverReport c.body 0x0524) := by
  unfold doTakeover
  rw [h]
  exact if_neg (fun k => k hr)

theorem doTakeover_some {bs : List Byte} {j : JobEntry} (h : s.takeCtrl p f 0x08 = (s1, some c)) (hr : s1.roles.role = 3)
    (hj : s1.jobs.find? (fun j => j.job == fld c.body 6 2) = some j) : doTakeover p f (some bs) s =
    if (s1.heardEpoch c.epoch).takesShard c.body bs j
    then ((s1.heardEpoch c.epoch).tookShard j bs (fld c.body 0 2)).sendGroup c.src 0x09 (takeoverReport c.body 0)
    else (s1.heardEpoch c.epoch).sendGroup c.src 0x09 (takeoverReport c.body 0x0524) := by
  have hj' : (s1.heardEpoch c.epoch).jobs.find? (fun j => j.job == fld c.body 6 2) = some j := hj
  unfold doTakeover
  rw [h]
  dsimp only
  rw [if_neg (fun k => k hr)]
  show (match some bs, (s1.heardEpoch c.epoch).jobs.find? (fun j => j.job == fld c.body 6 2) with
    | some bs, some j => if _ then _ else _
    | _, _ => _) = _
  rw [hj']
  have hcond : (fld c.body 12 4 == 0xFFFFFFFF || bs.length != j.ckptPages * 131072 ||
      !(s1.heardEpoch c.epoch).owns j.x (j.ckptFirst * 131072) (j.ckptPages * 131072)) = !(s1.heardEpoch c.epoch).takesShard c.body bs j := by
    unfold State.takesShard
    simp [bne]
  have step (b : Bool) {t u : State} : (if (!b) = true then t else u) = if b = true then u else t := by cases b <;> rfl
  exact (congrArg (fun b : Bool => if b = true then _ else _) hcond).trans (step _)

theorem takesShard_iff (s : State) (b bs : List Byte) (j : JobEntry) : s.takesShard b bs j = true ↔
    fld b 12 4 ≠ 0xFFFFFFFF ∧ bs.length = j.ckptPages * 131072 ∧ s.owns j.x (j.ckptFirst * 131072) (j.ckptPages * 131072) = true := by
  unfold State.takesShard
  simp [and_assoc]

theorem tookShard_node (s : State) (j : JobEntry) (bs : List Byte) (index : Nat) : (s.tookShard j bs index).node = s.node :=
  node_of_record (t := s.tookShard j bs index) (congrArg (fun r : Roles => r.record) (onlyWork_uwrite s (j.ckptFirst * 131072) (cleanBytes bs)).roles :)

theorem tookShard_roles (s : State) (j : JobEntry) (bs : List Byte) (index : Nat) : (s.tookShard j bs index).roles =
    { s.roles with role := 0, index := index } := by
  unfold State.tookShard State.modRoles
  dsimp only
  rw [(onlyWork_uwrite s _ _).roles]

/-! ### A takeover that is done -/

/-- How the takeover of an index ended: the entries of the members. -/
def Member.tookOver (m : Member) (src reason index : Nat) : Member :=
  if m.node = src ∧ reason = 0 then { m with index := some index, sparePos := none } else m

theorem runTakeovers_nil (h : s.roles.takeovers = []) (n : Nat) : State.runTakeovers n s = s := by
  cases n with
  | zero => rfl
  | succ n =>
    unfold State.runTakeovers
    rw [h]

/-- Tells the members of a takeover. -/
def State.rosterSent (s : State) (body : List Byte) : State := s.others.foldl (fun s m => s.sendGroup m.node 0x07 body) s

theorem onlyFabric_rosterSent (s : State) (body : List Byte) : OnlyFabric s (s.rosterSent body) :=
  frame_foldl OnlyFabric.refl OnlyFabric.trans _ _ (fun _ _ _ => onlyFabric_sendGroup _ _ _ _) s

theorem tellRoster_roles (s : State) (index node job step reason : Nat) : (s.tellRoster index node job step reason).roles = s.roles :=
  (onlyWork_event _ _ _ _).roles.trans (onlyFabric_rosterSent s _).roles

theorem tellRoster_posts (ha : (s.ctx 0).state = .active) (index node job step reason : Nat) :
    ∃ e : Entry, ((s.tellRoster index node job step reason).ctx 0).formed = (s.ctx 0).formed ++ [e] ∧ e.reason = reason := by
  have told (body d : List Byte) : (((s.rosterSent body).event 0 reason d).ctx 0).formed = (s.ctx 0).formed ++ [{ Entry.blank 4 reason with detail := d }] := by
    have hctx : (s.rosterSent body).ctx = s.ctx := by
      have h := onlyFabric_rosterSent s body
      unfold OnlyFabric at h
      rw [h]
      rfl
    unfold State.event
    rw [post_active _ _ _ (by rw [hctx]; exact ha), State.modCtx_same, hctx]
  exact ⟨_, told _ _, rfl⟩

theorem checkSpares_roles (s : State) (g : Nat) : (s.checkSpares g).roles = { s.roles with groups := (s.checkSpares g).roles.groups } := by
  have events (l : List Nat) (u : State) (d : List Byte) : (l.foldl (fun s _ => s.event 0 0x0526 d) u).roles = u.roles :=
    frame_foldl (R := fun s t => t.roles = s.roles) (fun _ => rfl) (fun h k => k.trans h) _ _ (fun s _ _ => (onlyWork_event s _ _ _).roles) u
  unfold State.checkSpares
  dsimp only
  split
  · rfl
  · rw [events]
    rfl

theorem ownSpares_roles (s : State) : s.ownSpares.roles = { s.roles with groups := s.ownSpares.roles.groups } ∧
    (s.roles.servesAll = false → s.ownSpares.roles.groups = s.roles.groups) := by
  unfold State.ownSpares
  split
  · exact ⟨rfl, fun _ => rfl⟩
  next h =>
    refine ⟨(checkSpares_roles _ _).trans rfl, fun ha => ?_⟩
    rw [ha] at h
    exact absurd rfl h

theorem written_checkSpares (s : State) (g : Nat) : Written s (s.checkSpares g) := by
  unfold State.checkSpares
  dsimp only
  split
  · exact Written.refl s
  · refine Written.trans (t := s.modRoles _) (written_of_same rfl rfl rfl) (written_foldl _ _ (fun s _ => ?_) _)
    exact written_post s _ _

theorem written_ownSpares (s : State) : Written s s.ownSpares := by
  unfold State.ownSpares
  exact frame_ite (Written.refl s) (Written.trans (t := s.modRoles _) (written_of_same rfl rfl rfl) (written_checkSpares _ _))

/-- The roles of a manager whose only takeover has ended. -/
def Roles.afterTakeover (r : Roles) (src reason index : Nat) : Roles :=
  { r with takeovers := [], members := r.members.map (·.tookOver src reason index) }

theorem afterTakeover_done (s : State) (src index : Nat) :
    (s.modRoles (fun r => { r with takeovers := [] })).modMember src (fun m => { m with index := some index, sparePos := none }) =
    s.modRoles (·.afterTakeover src 0 index) := by
  have hmap : (fun m : Member => m.tookOver src 0 index) = fun m => if m.node = src then { m with index := some index, sparePos := none } else m := by
    funext m
    unfold Member.tookOver
    simp only [and_true]
  unfold Roles.afterTakeover
  rw [hmap]
  rfl

theorem afterTakeover_failed (s : State) (src index : Nat) {reason : Nat} (h : reason ≠ 0) :
    s.modRoles (fun r => { r with takeovers := [] }) = s.modRoles (·.afterTakeover src reason index) := by
  have hmap : (fun m : Member => m.tookOver src reason index) = fun m => m := by
    funext m
    exact if_neg (fun k => h k.2)
  unfold Roles.afterTakeover
  rw [hmap]
  simp only [List.map_id']

theorem doTakeoverDone_ends {k : Takeover} (h : s.takeCtrl p f 0x09 = (s1, some c)) (hs : s1.roles.servesGroup = true)
    (ht : s1.roles.takeovers = [k]) (hk : k.spare = some c.src) (hi : k.index = fld c.body 0 2) :
    ∃ node, doTakeoverDone p f s = ((s1.modRoles (·.afterTakeover c.src (fld c.body 8 2) k.index)).tellRoster k.index node (fld c.body 2 2) (fld c.body 4 4) (if fld c.body 8 2 = 0 then 0x0523 else 0x0524)).ownSpares := by
  unfold doTakeoverDone
  rw [h]
  dsimp only
  rw [ht]
  dsimp only
  rw [if_neg (by rw [hs, hk, hi]; simp)]
  by_cases hz : fld c.body 8 2 = 0
  · rw [if_pos hz, if_pos hz, if_pos hz, hz, runTakeovers_nil (by rw [tellRoster_roles]; rfl), afterTakeover_done]
    exact ⟨_, rfl⟩
  · rw [if_neg hz, if_neg hz, if_neg hz, runTakeovers_nil (by rw [tellRoster_roles]; rfl), afterTakeover_failed s1 c.src k.index hz]
    exact ⟨_, rfl⟩

/-! ### Checkpoints -/

theorem noteCkpt_enters {owner job step holder i : Nat} {m : Member} (hm : s.roles.members.find? (fun m => m.node == owner) = some m)
    (hi : m.index = some i) (hk : ∀ k ∈ s.roles.ckpts, ¬(k.job = job ∧ k.index = i)) :
    (s.noteCkpt owner job step holder).roles.ckpts = s.roles.ckpts ++ [⟨job, i, step, holder⟩] := by
  have hnone : s.roles.ckpts.find? (fun c => c.job == job && c.index == i) = none :=
    List.find?_eq_none.2 (fun k hk' => by simpa using hk k hk')
  have hall : s.roles.ckpts.filter (fun c => !(c.job == job && c.index == i)) = s.roles.ckpts :=
    List.filter_eq_self.2 (fun k hk' => by simpa [Decidable.imp_iff_not_or] using hk k hk')
  have restored (u : State) : u.updateRestore.roles.ckpts = u.roles.ckpts := by
    unfold State.updateRestore
    exact frame_ite (R := fun s t => t.roles.ckpts = s.roles.ckpts) rfl rfl
  obtain ⟨⟩ := m
  cases hi
  unfold State.noteCkpt
  rw [hm]
  dsimp only
  rw [hnone]
  dsimp only
  rw [if_pos rfl]
  split
  · exact (restored _).trans (congrArg (· ++ [_]) hall)
  · exact congrArg (· ++ [_]) hall

/-! ### Caps -/

/-- Every member has a cap within the range. -/
def CapsOk (s : State) : Prop := ∀ m ∈ s.roles.members, 1600 ≤ m.cap ∧ m.cap ≤ 3200

theorem capsOk_setCap (h : CapsOk s) (old : Nat) {m : Member} (hm : 1600 ≤ m.cap ∧ m.cap ≤ 3200) : CapsOk (s.setCap old m) := by
  have entered : CapsOk (s.modMember m.node (fun k => { k with cap := m.cap })) := by
    intro k hk
    obtain ⟨q, hq, rfl⟩ := List.mem_map.1 hk
    split
    · exact hm
    · exact h q hq
  unfold State.setCap
  dsimp only
  split
  · exact entered
  · split
    · exact entered
    · unfold CapsOk
      rw [(onlyFabric_sendGroup _ _ _ _).roles]
      exact entered

theorem setCap_reviewAt (s : State) (old : Nat) (m : Member) : (s.setCap old m).roles.reviewAt = s.roles.reviewAt := by
  unfold State.setCap
  dsimp only
  split
  · rfl
  · split
    · rfl
    · rw [(onlyFabric_sendGroup _ _ _ _).roles]
      rfl

/-- A review takes from the slack and gives to the short, within the range. -/
theorem doCapReview_spec (hs : s.roles.servesGroup = true) (hf : s.roles.formed = true) (hi : s.roles.installReady = true) (hw : s.role 0x34 4 ≠ 0)
    (hd : ∀ b, s.roles.reviewAt = some b → b + 50000000 ≤ s.pilot) (hm : CapsOk s) :
    (doCapReview s).roles.reviewAt = some s.pilot ∧ CapsOk (doCapReview s) := by
  have sets (F : Member → Nat) (hF : ∀ m, 1600 ≤ m.cap → 1600 ≤ F m ∧ F m ≤ 3200) (l : List Member) (hl : ∀ m ∈ l, 1600 ≤ m.cap ∧ m.cap ≤ 3200)
      (u : State) (hu : CapsOk u) : (l.foldl (fun s m => s.setCap m.cap { m with cap := F m }) u).roles.reviewAt = u.roles.reviewAt ∧
        CapsOk (l.foldl (fun s m => s.setCap m.cap { m with cap := F m }) u) := by
    induction l generalizing u with
    | nil => exact ⟨rfl, hu⟩
    | cons m l ih =>
      obtain ⟨h1, h2⟩ := ih (fun k hk => hl k (List.mem_cons_of_mem _ hk)) (u.setCap m.cap { m with cap := F m })
        (capsOk_setCap hu _ (hF m (hl m List.mem_cons_self).1))
      exact ⟨h1.trans (setCap_reviewAt _ _ _), h2⟩
  unfold doCapReview
  dsimp only
  rw [if_neg]
  · refine sets (fun m => min 3200 ((if m.isSlack then max 1600 (m.cap - 32) else m.cap) + _)) (fun m hc => ?_) _
      (fun m h => hm m (List.mem_of_mem_filter h)) (s.modRoles (fun r => { r with reviewAt := some s.pilot })) hm
    refine ⟨le_min (by omega) (le_add_right ?_), min_le_left _ _⟩
    split <;> omega
  · rw [hs, hf, hi]
    split
    next b hb => simpa [hw] using hd b hb
    · simp [hw]

end

/-- Settles O50: a takeover, a report and a cap reach the tables of their holder, and the spare is heard. -/
theorem takeoversReportsAndCaps : Obligations.TakeoversReportsAndCaps := by
  intro s me hu hn
  have run {f : State → State} {t} (h : f s = t) : inLamp f s = .next t := (inLamp_up _ _ hu).trans (congrArg _ h)
  refine ⟨fun p f s1 c h hr hc => ?_, fun p f s1 u c bs j h hr hc hj hu => ⟨fun hm hl ho => ?_, fun hno => ?_⟩, fun p f s1 c shard h hr => ?_,
    fun p f s1 c k h hs ht hk hi => ?_, fun p f s1 c h => ?_, fun p f s1 c m i h hs hm hi hk => ?_, fun p f s1 c h hs hl => ?_,
    fun p f s1 c h h1 h2 => ?_, fun hs hf hi hw hd hm => ?_⟩
  · have hn1 := (keepsNode_takeCtrl h).node hn
    exact ⟨_, run (doTakeover_none h hr), (onlyFabric_sendGroup _ _ _ _).roles, told_sendGroup (s := s1.heardEpoch c.epoch) hn1 hc (by omega) _⟩
  · cases hu
    have hn1 := (keepsNode_takeCtrl h).node hn
    have heq := (doTakeover_some (bs := bs) h hr hj).trans (if_pos ((takesShard_iff _ _ _ _).2 ⟨hm, hl, ho⟩))
    have hfab := onlyFabric_sendGroup ((s1.heardEpoch c.epoch).tookShard j bs (fld c.body 0 2)) c.src 0x09 (takeoverReport c.body 0)
    exact ⟨_, run heq, rest_of_onlyFabric hfab, hfab.roles.trans (tookShard_roles _ _ _ _),
      told_sendGroup (s := (s1.heardEpoch c.epoch).tookShard j bs (fld c.body 0 2)) ((tookShard_node _ j bs _).trans hn1) hc (by omega) _⟩
  · cases hu
    have hn1 := (keepsNode_takeCtrl h).node hn
    have hnot : (s1.heardEpoch c.epoch).takesShard c.body bs j ≠ true := by
      intro ht
      obtain ⟨h1, h2, h3⟩ := (takesShard_iff _ _ _ _).1 ht
      rcases hno with k | k | k
      · exact h1 k
      · exact k h2
      · exact Bool.false_ne_true (k.symm.trans h3)
    exact ⟨_, run ((doTakeover_some (bs := bs) h hr hj).trans (if_neg hnot)), onlyFabric_sendGroup _ _ _ _,
      told_sendGroup (s := s1.heardEpoch c.epoch) hn1 hc (by omega) _⟩
  · exact run (doTakeover_other h hr shard)
  · obtain ⟨node, heq⟩ := doTakeoverDone_ends h hs ht hk hi
    obtain ⟨hroles, hgroups⟩ := ownSpares_roles ((s1.modRoles (·.afterTakeover c.src (fld c.body 8 2) k.index)).tellRoster k.index node
      (fld c.body 2 2) (fld c.body 4 4) (if fld c.body 8 2 = 0 then 0x0523 else 0x0524))
    rw [tellRoster_roles] at hroles hgroups
    refine ⟨_, run heq, hroles, hgroups, fun ha => ?_⟩
    obtain ⟨e, he, hr⟩ := tellRoster_posts (s := s1.modRoles (·.afterTakeover c.src (fld c.body 8 2) k.index)) ha k.index node
      (fld c.body 2 2) (fld c.body 4 4) (if fld c.body 8 2 = 0 then 0x0523 else 0x0524)
    exact ⟨e, he ▸ (written_ownSpares _).formed 0, hr⟩
  · refine run ?_
    unfold doRosterUpdate
    rw [h]
    rfl
  · refine ⟨_, run (t := s1.noteCkpt (fld c.body 0 4) (fld c.body 4 2) (fld c.body 6 4) c.src) ?_, noteCkpt_enters hm hi hk, onlyRoles_noteCkpt _ _ _ _ _⟩
    unfold doCkptHeld
    rw [h]
    exact if_pos hs
  · refine run ?_
    unfold doFaultReport
    rw [h]
    dsimp only
    rw [hs, if_neg (by simp), if_pos hl]
    rfl
  · refine run ?_
    unfold doCapSet
    rw [h]
    dsimp only
    have hok : capOk (fld c.body 0 4) = true := by simp [capOk, h1, h2]
    rw [hok]
    by_cases hm : c.src = s1.roles.manager
    · rw [if_neg (fun k => k hm), if_pos hm]
      rfl
    · rw [if_pos hm, if_neg hm]
  · obtain ⟨hat, hcaps⟩ := doCapReview_spec hs hf hi hw hd hm
    exact ⟨_, run rfl, hat, hcaps⟩

end Sys2Proof.Machine
end

section
/-! PROOFS. What compute commands leave (05, 06, 08, 09). -/

namespace Sys2Proof.Machine

open Sys2Proof

/-! ## What compute commands leave (05, 06, 08, 09) -/

section
variable {w : Prop} {c : Fin 4} {s t u : State}

/-- Tokens, packets, state and ring of a context stay. -/
def Ctx.SameHost (k l : Ctx) : Prop :=
  l.tokens = k.tokens ∧ l.slots = k.slots ∧ l.state = k.state ∧ l.cqHead = k.cqHead ∧ l.cqTail = k.cqTail

theorem Ctx.SameHost.refl (k : Ctx) : k.SameHost k := ⟨rfl, rfl, rfl, rfl, rfl⟩

theorem Ctx.SameHost.trans {k l m : Ctx} (h : k.SameHost l) (j : l.SameHost m) : k.SameHost m := by
  obtain ⟨h1, h2, h3, h4, h5⟩ := h
  obtain ⟨j1, j2, j3, j4, j5⟩ := j
  exact ⟨j1.trans h1, j2.trans h2, j3.trans h3, j4.trans h4, j5.trans h5⟩

/-- The command that runs on core c goes on under its number, in the generation of its feed die; where w holds, every stack, the
tiers and the other feed dies stay. -/
structure Computes (w : Prop) (c : Fin 4) (s t : State) : Prop where
  work : OnlyWork s t
  next : t.hub.nextRun = s.hub.nextRun
  gen : (t.feed c).gen = (s.feed c).gen
  run : ∀ k, (s.core c).running = some k → ∃ l, (t.core c).running = some l ∧ l.cmd = k.cmd ∧ l.x = k.x ∧ l.id = k.id
  host : ∀ y, (s.ctx y).SameHost (t.ctx y)
  own : w → t.hbm = s.hbm ∧ t.tiers = s.tiers ∧ ∀ d, d ≠ c → t.feed d = s.feed d

theorem Computes.refl (s : State) : Computes w c s s :=
  ⟨OnlyWork.refl s, rfl, rfl, fun k h => ⟨k, h, rfl, rfl, rfl⟩, fun _ => Ctx.SameHost.refl _, fun _ => ⟨rfl, rfl, fun _ _ => rfl⟩⟩

theorem Computes.trans (h : Computes w c s t) (k : Computes w c t u) : Computes w c s u := by
  refine ⟨h.work.trans k.work, k.next.trans h.next, k.gen.trans h.gen, fun a ha => ?_, fun y => (h.host y).trans (k.host y), fun hw => ?_⟩
  · obtain ⟨b, hb, h1, h2, h3⟩ := h.run a ha
    obtain ⟨d, hd, k1, k2, k3⟩ := k.run b hb
    exact ⟨d, hd, k1.trans h1, k2.trans h2, k3.trans h3⟩
  · obtain ⟨h1, h2, h3⟩ := h.own hw
    obtain ⟨k1, k2, k3⟩ := k.own hw
    exact ⟨k1.trans h1, k2.trans h2, fun d hd => (k3 d hd).trans (h3 d hd)⟩

theorem computes_foldl {α : Type} (f : State → α → State) (l : List α) (h : ∀ s, ∀ a ∈ l, Computes w c s (f s a)) (s : State) :
    Computes w c s (l.foldl f s) := frame_foldl Computes.refl Computes.trans f l h s

theorem computes_foldl_pair {α β : Type} (f : State × β → α → State × β) (l : List α) (h : ∀ r, ∀ a ∈ l, Computes w c r.1 (f r a).1)
    (r : State × β) : Computes w c r.1 (l.foldl f r).1 := by
  induction l generalizing r with
  | nil => exact Computes.refl r.1
  | cons a l ih => exact (h r a List.mem_cons_self).trans (ih (fun r b hb => h r b (List.mem_cons_of_mem _ hb)) (f r a))

/-! ### Changes of one part -/

/-- What leaves contexts, cores and feed dies alone. -/
theorem computes_of_rest (hw : OnlyWork s t) (hh : t.hub = s.hub) (hc : t.cores = s.cores) (hf : t.feeds = s.feeds) (hm : t.hbm = s.hbm)
    (ht : t.tiers = s.tiers) : Computes w c s t := by
  have hfeed : t.feed = s.feed := by unfold State.feed; rw [hf]
  have hctx : t.ctx = s.ctx := by unfold State.ctx; rw [hh]
  have hcore : t.core = s.core := by unfold State.core; rw [hc]
  exact ⟨hw, by rw [hh], by rw [hfeed], fun k h => ⟨k, by rw [hcore]; exact h, rfl, rfl, rfl⟩, fun y => by rw [hctx]; exact Ctx.SameHost.refl _,
    fun _ => ⟨hm, ht, fun _ _ => by rw [hfeed]⟩⟩

theorem computes_modArr (s : State) (a : Fin 8) (f : ArrayS → ArrayS) : Computes w c s (s.modArr a f) :=
  computes_of_rest (onlyWork_modArr s a f) rfl rfl rfl rfl rfl

theorem computes_occasion (s : State) : Computes w c s s.occasion.2 := computes_of_rest (onlyWork_occasion s) rfl rfl rfl rfl rfl

theorem computes_detect (s : State) (f : FaultRec) : Computes w c s (s.detect f) := computes_of_rest (onlyWork_detect s f) rfl rfl rfl rfl rfl

theorem computes_modCtx (s : State) (x : Fin 16) {f : Ctx → Ctx} (h : ∀ k : Ctx, k.SameHost (f k)) : Computes w c s (s.modCtx x f) := by
  refine ⟨onlyWork_modCtx s x f, rfl, rfl, fun k h => ⟨k, h, rfl, rfl, rfl⟩, fun y => ?_, fun _ => ⟨rfl, rfl, fun _ _ => rfl⟩⟩
  by_cases hy : y = x
  · subst hy
    rw [State.modCtx_same]
    exact h _
  · rw [State.modCtx_other _ _ _ _ hy]
    exact Ctx.SameHost.refl _

theorem computes_modCC (s : State) (x : Fin 16) (d : Fin 4) (f : CtxCore → CtxCore) : Computes w c s (s.modCC x d f) :=
  computes_modCtx s x (fun _ => ⟨rfl, rfl, rfl, rfl, rfl⟩)

theorem computes_setScaleRec (s : State) (x : Fin 16) (i : Nat) (r : ScaleRec) : Computes w c s (s.setScaleRec x i r) :=
  computes_modCtx s x (fun _ => ⟨rfl, rfl, rfl, rfl, rfl⟩)

theorem computes_post (s : State) (x : Fin 16) (e : Entry) : Computes w c s (s.post x e) := by
  rcases post_cases s x e with h | h
  · rw [h]
    exact computes_modCtx s x (fun _ => ⟨rfl, rfl, rfl, rfl, rfl⟩)
  · rw [h]
    exact Computes.refl s

theorem computes_event (s : State) (x : Fin 16) (reason : Nat) (d : List Byte) : Computes w c s (s.event x reason d) := computes_post s x _

theorem computes_modCore (s : State) (d : Fin 4) {f : CoreS → CoreS} (h : ∀ k, (f k).running = k.running) : Computes w c s (s.modCore d f) := by
  refine ⟨onlyWork_modCore s d f, rfl, rfl, fun k hk => ⟨k, ?_, rfl, rfl, rfl⟩, fun _ => Ctx.SameHost.refl _, fun _ => ⟨rfl, rfl, fun _ _ => rfl⟩⟩
  by_cases hd : c = d
  · subst hd
    rw [State.modCore_same, h]
    exact hk
  · rw [State.modCore_other _ _ _ _ hd]
    exact hk

theorem computes_modFeed (s : State) {f : FeedS → FeedS} (h : ∀ k, (f k).gen = k.gen) : Computes w c s (s.modFeed c f) := by
  refine ⟨onlyWork_modFeed s c f, rfl, ?_, fun k hk => ⟨k, hk, rfl, rfl, rfl⟩, fun _ => Ctx.SameHost.refl _,
    fun _ => ⟨rfl, rfl, fun d hd => State.modFeed_other _ _ _ _ hd⟩⟩
  rw [State.modFeed_same]
  exact h _

theorem computes_modRun (s : State) (id : Nat) {f : Run → Run} (h : ∀ k, (f k).cmd = k.cmd ∧ (f k).x = k.x ∧ (f k).id = k.id) :
    Computes w c s (s.modRun id f) := by
  refine ⟨onlyWork_modRun s id f, rfl, rfl, fun k hk => ?_, fun y => ?_, fun _ => ⟨rfl, rfl, fun _ _ => rfl⟩⟩
  · rw [modRun_core]
    dsimp only
    rw [hk]
    by_cases hi : k.id = id
    · exact ⟨f k, congrArg some (if_pos hi), h k⟩
    · exact ⟨k, congrArg some (if_neg hi), rfl, rfl, rfl⟩
  · rw [modRun_ctx]
    exact ⟨rfl, rfl, rfl, rfl, rfl⟩

/-! ### Memory -/

/-- Runs are numbered and feed dies counted as before. -/
structure KeepsCounts (s t : State) : Prop where
  next : t.hub.nextRun = s.hub.nextRun
  gens : ∀ d, (t.feed d).gen = (s.feed d).gen

theorem KeepsCounts.refl (s : State) : KeepsCounts s s := ⟨rfl, fun _ => rfl⟩

theorem KeepsCounts.trans (h : KeepsCounts s t) (k : KeepsCounts t u) : KeepsCounts s u :=
  ⟨k.next.trans h.next, fun d => (k.gens d).trans (h.gens d)⟩

theorem keepsCounts_of (hh : t.hub.nextRun = s.hub.nextRun) (hf : t.feeds = s.feeds) : KeepsCounts s t :=
  ⟨hh, fun d => by unfold State.feed; rw [hf]⟩

theorem keepsCounts_post (s : State) (x : Fin 16) (e : Entry) : KeepsCounts s (s.post x e) := by
  rcases post_cases s x e with h | h <;> rw [h] <;> exact keepsCounts_of rfl rfl

theorem keepsCounts_deepLowCheck (s : State) (ch : Fin 16) (n : Nat) : KeepsCounts s (s.deepLowCheck ch n) := by
  unfold State.deepLowCheck
  dsimp only
  split
  · refine KeepsCounts.trans (t := s.modTiers _) (keepsCounts_of rfl rfl) (frame_foldl KeepsCounts.refl KeepsCounts.trans _ _ (fun s x _ => ?_) _)
    split
    · exact keepsCounts_post s _ _
    · exact KeepsCounts.refl s
  · split <;> exact keepsCounts_of rfl rfl

theorem keepsCounts_putDeep (s : State) (p j g n : Nat) (bs : List PByte) : KeepsCounts s (s.putDeep p j g n bs) := keepsCounts_of rfl rfl

theorem keepsCounts_occasion (s : State) : KeepsCounts s s.occasion.2 := keepsCounts_of rfl rfl

theorem keepsCounts_placeBlock {p j : Nat} {bs : List PByte} (h : s.placeBlock p j bs = some t) : KeepsCounts s t := by
  unfold State.placeBlock at h
  dsimp only at h
  split at h
  · cases h
    exact (keepsCounts_putDeep s p j 0 0 bs).trans (keepsCounts_deepLowCheck _ _ _)
  · split at h
    · cases h
    · cases h
      refine KeepsCounts.trans ?_ (keepsCounts_deepLowCheck _ _ _)
      refine KeepsCounts.trans ?_ (keepsCounts_putDeep _ p j _ _ bs)
      exact (keepsCounts_occasion s).trans (keepsCounts_occasion _)

theorem keepsCounts_writeDeepBlock (s : State) (x : Fin 16) (p j off : Nat) (bs : List PByte) : KeepsCounts s (s.writeDeepBlock x p j off bs) := by
  unfold State.writeDeepBlock
  dsimp only
  split
  · exact keepsCounts_of rfl rfl
  · split
    next h => exact keepsCounts_placeBlock h
    · split
      · exact KeepsCounts.refl s
      · exact keepsCounts_of rfl rfl

theorem keepsCounts_writeHome (s : State) (x : Fin 16) (h : Home) (p off : Nat) (bs : List PByte) : KeepsCounts s (s.writeHome x h p off bs) := by
  have near (l : List (Fin 12 × Nat × Nat)) (r : State × List PByte) : KeepsCounts r.1 (l.foldl (fun (r : State × List PByte) q =>
      (r.1.modStack q.1 (fun st => st.write q.2.1 (r.2.take q.2.2)), r.2.drop q.2.2)) r).1 := by
    induction l generalizing r with
    | nil => exact KeepsCounts.refl r.1
    | cons q l ih =>
      refine KeepsCounts.trans ?_ (ih _)
      exact keepsCounts_of rfl rfl
  unfold State.writeHome
  cases h with
  | placed n f => exact near _ (s, bs)
  | spread slot => exact near _ (s, bs)
  | deep => exact frame_foldl KeepsCounts.refl KeepsCounts.trans _ _ (fun s _ _ => keepsCounts_writeDeepBlock s _ _ _ _ _) s

theorem keepsCounts_invalidate (s : State) (a n : Nat) : KeepsCounts s (s.invalidate a n) := by
  refine ⟨rfl, fun d => ?_⟩
  unfold State.invalidate State.feed
  simp only [Fin.getElem_fin, Vector.getElem_map]

theorem keepsCounts_uwrite (s : State) (a : Nat) (bs : List PByte) : KeepsCounts s (s.uwrite a bs) := by
  have writes (l : List (Nat × Nat)) (r : State × List PByte) (f : State × List PByte → Nat × Nat → State × List PByte)
      (hf : ∀ r q, KeepsCounts r.1 (f r q).1) : KeepsCounts r.1 (l.foldl f r).1 := by
    induction l generalizing r with
    | nil => exact KeepsCounts.refl r.1
    | cons q l ih => exact (hf r q).trans (ih (f r q))
  unfold State.uwrite
  refine (keepsCounts_invalidate s a bs.length).trans (writes _ (_, bs) _ (fun r q => ?_))
  dsimp only
  split
  · exact KeepsCounts.refl _
  · split
    · exact keepsCounts_of rfl rfl
    · exact keepsCounts_writeHome _ _ _ _ _ _

theorem computes_uwrite (hw : ¬w) (s : State) (a : Nat) (bs : List PByte) : Computes w c s (s.uwrite a bs) := by
  have hwr := written_uwrite s a bs
  have hk := keepsCounts_uwrite s a bs
  refine ⟨onlyWork_uwrite s a bs, hk.next, hk.gens c, fun k h => ⟨k, ?_, rfl, rfl, rfl⟩, fun y => ?_, fun h => absurd h hw⟩
  · unfold State.core at h ⊢
    rw [hwr.cores]
    exact h
  · rw [hwr.ctx y]
    exact ⟨rfl, rfl, rfl, rfl, rfl⟩

theorem computes_of_reads (hw : ¬w) (h : Reads s t) : Computes w c s t := by
  refine ⟨?_, by rw [h.rest], by rw [h.rest]; rfl, fun k hk => ⟨k, by rw [h.core c]; exact hk, rfl, rfl, rfl⟩, fun y => ?_, fun h => absurd h hw⟩
  · rw [h.rest]
    rfl
  · rw [h.rest]
    exact Ctx.SameHost.refl _

theorem write_gen (f : FeedS) (o : Nat) (bs : List PByte) (tr : Bool) : (f.write o bs tr).gen = f.gen := by
  have erased (l : List (Nat × Nat)) (f : FeedS) : (l.foldl (fun f q =>
      let row := q.1 / 1024
      if alookup row f.tags = some f.gen then f
      else { f with spad := f.spad.erase (1024 * row) 1024, poison := setErase row f.poison
                    tags := ainsert row f.gen f.tags }) f).gen = f.gen := by
    induction l generalizing f with
    | nil => rfl
    | cons q l ih =>
      refine (ih _).trans ?_
      dsimp only
      split <;> rfl
  unfold FeedS.write
  split
  · exact erased _ f
  · rfl

theorem computes_wwrite (s : State) (x : Fin 16) (a : Nat) (bs : List PByte) : Computes w c s (s.wwrite x c a bs) := by
  unfold State.wwrite
  split
  · exact computes_modFeed s (fun f => write_gen f _ _ _)
  · exact Computes.refl s

theorem computes_rwrite {space : Nat} (hw : w → space = 0) (s : State) (x : Fin 16) (a : Nat) (bs : List PByte) :
    Computes w c s (s.rwrite x space c a bs) := by
  unfold State.rwrite
  split
  · exact computes_wwrite s x a bs
  next h => exact computes_uwrite (fun k => h (hw k)) s a bs

theorem computes_rwriteRuns {space : Nat} (hw : w → space = 0) (s : State) (x : Fin 16) (runs : List (Nat × List PByte)) :
    Computes w c s (s.rwriteRuns x space c runs) := computes_foldl _ _ (fun s _ _ => computes_rwrite hw s _ _ _) s

theorem computes_poisonRegion {r : Region} (hw : w → r.space = 0) (s : State) (x : Fin 16) : Computes w c s (s.poisonRegion x c r) :=
  computes_foldl _ _ (fun s _ _ => computes_rwrite hw s _ _ _) s

end

end Sys2Proof.Machine
end

section
/-! PROOFS. The common parts of compute commands (05, 06, 08, 09). -/

namespace Sys2Proof.Machine

open Sys2Proof

/-! ## The common parts of compute commands -/

section
variable {w : Prop} {c : Fin 4} {s t u : State}

/-! ### Scales and contributions -/

theorem computes_rollRec (s : State) (x : Fin 16) (i : Nat) (step : W32) : Computes w c s (s.rollRec x i step) := by
  unfold State.rollRec
  dsimp only
  split
  · exact computes_setScaleRec _ _ _ _
  · exact (computes_setScaleRec _ _ _ _).trans (computes_post _ _ _)

theorem computes_quantScale (s : State) (x : Fin 16) (i : Nat) (e step : W32) : Computes w c s (s.quantScale x i e step).1 := by
  unfold State.quantScale
  dsimp only
  split
  · exact Computes.refl s
  · split
    · exact computes_setScaleRec _ _ _ _
    · split
      · exact Computes.refl s
      · exact computes_rollRec _ _ _ _
      · exact Computes.refl s
      · exact Computes.refl s

theorem computes_quantOpnd (s : State) (x : Fin 16) (t : Tensor) (step : W32) : Computes w c s (s.quantOpnd x t step).1 := by
  unfold State.quantOpnd
  split
  · exact computes_quantScale _ _ _ _ _
  · exact Computes.refl s

/-- The operand of a store is its tensor with a scale. -/
theorem quantOpnd_tensor {x : Fin 16} {t : Tensor} {step : W32} {o : Opnd} (h : (s.quantOpnd x t step).2 = some o) : o.t = t := by
  unfold State.quantOpnd at h
  split at h
  · obtain ⟨v, -, rfl⟩ := Option.map_eq_some_iff.1 h
    rfl
  · cases h
    rfl

theorem computes_contributeNow (s : State) (x : Fin 16) (b : Contribution) : Computes w c s (s.contributeNow x b) := by
  unfold State.contributeNow
  dsimp only
  split
  · exact (computes_setScaleRec _ _ _ _).trans (computes_post _ _ _)
  · exact computes_setScaleRec _ _ _ _

theorem computes_contribute (s : State) (x : Fin 16) (b : Contribution) : Computes w c s (s.contribute x b) := by
  unfold State.contribute
  dsimp only
  split
  · exact Computes.refl s
  · split
    · exact computes_contributeNow _ _ _
    · split
      · exact (computes_setScaleRec _ _ _ _).trans (computes_post _ _ _)
      · exact computes_setScaleRec _ _ _ _
    · exact (computes_rollRec _ _ _ _).trans (computes_contributeNow _ _ _)
    · exact Computes.refl s

theorem computes_contributeAll (s : State) (x : Fin 16) (cs : List Contribution) : Computes w c s (s.contributeAll x c cs) := by
  have applied : Computes w c s (s.applyContribs x c cs) := by
    refine Computes.trans ?_ (computes_foldl _ _ (fun s b _ => computes_contribute s x b) _)
    exact computes_modFeed s (fun _ => rfl)
  unfold State.contributeAll
  split
  · split
    · exact computes_modCore s c (fun _ => rfl)
    · exact applied
  · exact applied

/-! ### The record of the run -/

theorem computes_notePoison (s : State) (r : Run) (p : Bool) : Computes w c s (s.notePoison r p) := by
  unfold State.notePoison
  split
  · exact computes_modRun s r.id (fun _ => ⟨rfl, rfl, rfl⟩)
  · exact Computes.refl s

theorem computes_failClean (s : State) (r : Run) (reason : Nat) : Computes w c s (s.failClean r reason) :=
  computes_modRun s r.id (fun _ => ⟨rfl, rfl, rfl⟩)

theorem computes_setStatusOut (s : State) (r : Run) (reason : Nat) : Computes w c s (s.setStatusOut r reason) :=
  computes_modRun s r.id (fun _ => ⟨rfl, rfl, rfl⟩)

theorem computes_keepScales (s : State) (r : Run) (scales : List W32) (stamps : List Nat) : Computes w c s (s.keepScales r scales stamps) :=
  computes_modRun s r.id (fun _ => ⟨rfl, rfl, rfl⟩)

/-! ### Reads and stores -/

/-- The reads of one region through the cache. -/
theorem computes_cacheTouch (hw : ¬w) (s : State) (x : Fin 16) (k : Nat) : Computes w c s (s.cacheTouch x c k) := by
  unfold State.cacheTouch
  dsimp only
  split
  · exact computes_modFeed s (fun _ => rfl)
  · exact ((computes_of_reads hw (reads_touchRange _ _ _ _)).trans (computes_occasion _)).trans (computes_modFeed _ (fun _ => rfl))

theorem computes_touch (hw : ¬w) (s : State) (a : Nat) (reader : Option (Fin 4)) : Computes w c s (s.touch a reader) :=
  computes_of_reads hw (reads_touch s a reader)

theorem computes_touchRange (hw : ¬w) (s : State) (a n : Nat) (reader : Option (Fin 4)) : Computes w c s (s.touchRange a n reader) :=
  computes_of_reads hw (reads_touchRange s a n reader)

theorem computes_cacheReads (s : State) (x : Fin 16) {rs : List Region} (hw : w → ∀ g ∈ rs, g.space = 0) : Computes w c s (s.cacheReads x c rs) := by
  have far {g : Region} (hg : g ∈ rs.filter (fun r => !r.write && r.space == 1)) : ¬w := by
    intro h
    obtain ⟨hm, hs⟩ := List.mem_filter.1 hg
    simp [hw h g hm] at hs
  unfold State.cacheReads
  split
  · split
    · exact Computes.refl s
    · exact computes_foldl _ _ (fun s g hg => computes_foldl _ _ (fun s k _ => computes_touch (far hg) s _ _) s) s
  · exact computes_foldl _ _ (fun s g hg => computes_foldl _ _ (fun s k _ => computes_cacheTouch (far hg) s x k) s) s

theorem computes_storeOut {o : Opnd} (hw : w → o.t.space = 0) (s : State) (r : Run) (m : StoreMode) (stamp off : Nat)
    (rows : List (Nat × List PV)) : Computes w c s (s.storeOut r c o m stamp off rows) :=
  ((computes_rwriteRuns hw s r.x _).trans (computes_contributeAll _ _ _)).trans (computes_notePoison _ _ _)

theorem computes_scrambleArea (s : State) (x : Fin 16) (off size : Nat) (p : Bool) : Computes w c s (s.scrambleArea x c off size p) := by
  unfold State.scrambleArea
  split
  · exact (computes_occasion s).trans (computes_wwrite _ _ _ _)
  · exact Computes.refl s

/-- A write of another feed die leaves generations too. -/
theorem computes_wwrite_other (hw : ¬w) (s : State) (x : Fin 16) (d : Fin 4) (a : Nat) (bs : List PByte) : Computes w c s (s.wwrite x d a bs) := by
  unfold State.wwrite
  split
  next o tr _ =>
    refine ⟨onlyWork_modFeed s d _, rfl, ?_, fun k hk => ⟨k, hk, rfl, rfl, rfl⟩, fun _ => Ctx.SameHost.refl _, fun h => absurd h hw⟩
    by_cases hd : c = d
    · subst hd
      rw [State.modFeed_same]
      exact write_gen _ _ _ _
    · rw [State.modFeed_other _ _ _ _ hd]
  · exact Computes.refl s

theorem computes_poisonRegion_other (hw : ¬w) (s : State) (x : Fin 16) (d : Fin 4) (g : Region) : Computes w c s (s.poisonRegion x d g) := by
  refine computes_foldl _ _ (fun s i _ => ?_) s
  dsimp only
  unfold State.rwrite
  split
  · exact computes_wwrite_other hw _ _ _ _ _
  · exact computes_uwrite hw _ _ _

/-- A command that fails poisons what it writes. -/
theorem computes_failRun {r : Run} (hw : w → InWindow c r.cmd) (s : State) (reason : Nat) : Computes w c s (s.failRun r reason) := by
  refine (computes_foldl _ _ (fun s g hg => ?_) s).trans (computes_modRun _ _ (fun _ => ⟨rfl, rfl, rfl⟩))
  by_cases h : w
  · obtain ⟨hs, hd⟩ := (hw h).2 g (List.mem_of_mem_filter hg)
    rw [hd]
    exact computes_poisonRegion (fun _ => hs) s r.x
  · exact computes_poisonRegion_other h s _ _ _

/-! ### Arrays -/

theorem computes_dropShadows (s : State) (d : Fin 4) : Computes w c s (s.dropShadows d) := (computes_modArr _ _ _).trans (computes_modArr _ _ _)

theorem computes_noteRow (s : State) (a : Fin 8) (n : Nat) (r : AccRow) (b : Bool) : Computes w c s (s.noteRow a n r b) := computes_modArr _ _ _

theorem computes_endSide (s : State) (d : Fin 4) (side : Nat) (rows : List AccRow) (loads : Nat) (b : Bank) :
    Computes w c s (s.endSide d side rows loads b) := by
  unfold State.endSide
  dsimp only
  split
  · exact (computes_modArr _ _ _).trans (computes_modCore _ _ (fun _ => rfl))
  · exact computes_modArr _ _ _

theorem computes_endAcc (s : State) (d : Fin 4) : Computes w c s (s.endAcc d) := by
  unfold State.endAcc
  split
  · exact Computes.refl s
  · exact computes_modCore _ _ (fun _ => rfl)

theorem computes_rampReqs (s : State) (l : List RampReq) : Computes w c s { s with power := { s.power with rampReqs := l } } :=
  computes_of_rest rfl rfl rfl rfl rfl rfl

theorem computes_beginArray (s : State) (d : Fin 4) (two : Bool) (n : Nat) : Computes w c s (s.beginArray d two n) := by
  unfold State.beginArray
  refine frame_ite (R := Computes w c) ?_ ?_
  · refine Computes.trans ?_ (computes_rampReqs _ _)
    refine Computes.trans ?_ (computes_foldl _ _ (fun s _ _ => computes_modArr s _ _) _)
    exact computes_modCore s d (fun _ => rfl)
  · refine Computes.trans ?_ (computes_foldl _ _ (fun s _ _ => computes_modArr s _ _) _)
    exact computes_modCore s d (fun _ => rfl)

end

end Sys2Proof.Machine
end

section
/-! PROOFS. The forward and feed commands (05, 06). -/

namespace Sys2Proof.Machine

open Sys2Proof

/-! ## The forward and feed commands (05, 06) -/

section
variable {w : Prop} {c : Fin 4} {r : Run}

/-! ### Operands -/

theorem tensor_space {cmd : Cmd} (hw : InWindow c cmd) {off : Nat} {t : Tensor} (h : cmd.tensor off = some t) : t.space = 0 := by
  unfold Cmd.tensor at h
  dsimp only at h
  split at h
  · cases h
  · obtain ⟨bs, hbs, rfl⟩ := Option.map_eq_some_iff.1 h
    exact hw.1 bs (List.mem_of_getElem? hbs)

theorem tensorD_space {cmd : Cmd} (hw : InWindow c cmd) (off : Nat) : (cmd.tensorD off).space = 0 := by
  unfold Cmd.tensorD
  cases h : cmd.tensor off with
  | none => decide
  | some t => exact tensor_space hw h

theorem computes_cacheRegions (hw : w → InWindow c r.cmd) (s : State) : Computes w c s (s.cacheReads r.x c r.cmd.regions) :=
  computes_cacheReads s r.x (fun h g hg => ((hw h).2 g hg).1)

theorem quantOpnd_space (hw : w → InWindow c r.cmd) {s : State} {off : Nat} {step : W32} {o : Opnd}
    (h : (s.quantOpnd r.x (r.cmd.tensorD off) step).2 = some o) : w → o.t.space = 0 := by
  intro k
  rw [quantOpnd_tensor h]
  exact tensorD_space (hw k) off

/-! ### VEC, NORM, QUANT, GATHER_E and COPY -/

theorem computes_runVec (hw : w → InWindow c r.cmd) (s : State) : Computes w c s (s.runVec r c) := by
  have quant := computes_quantOpnd (w := w) (c := c) s r.x (r.cmd.tensorD 0xA) (r.cmd.word 0x24)
  unfold State.runVec
  dsimp only
  split
  · exact quant.trans (computes_failRun hw _ _)
  next o ho =>
    exact (quant.trans (computes_cacheRegions hw _)).trans (computes_storeOut (quantOpnd_space hw ho) _ _ _ _ _ _)

theorem computes_runNorm (hw : w → InWindow c r.cmd) (s : State) : Computes w c s (s.runNorm r c) := by
  have quant := computes_quantOpnd (w := w) (c := c) s r.x (r.cmd.tensorD 4) (r.cmd.word 0x18)
  unfold State.runNorm
  dsimp only
  split
  · exact quant.trans (computes_failRun hw _ _)
  next o ho =>
    exact (quant.trans (computes_cacheRegions hw _)).trans (computes_storeOut (quantOpnd_space hw ho) _ _ _ _ _ _)

theorem computes_storeRotated {o : Opnd} (hw : w → o.t.space = 0) (s : State) (m : StoreMode) (stamp : Nat) (rows : List (List PV)) :
    Computes w c s (s.storeRotated r c o m stamp rows) :=
  ((computes_rwriteRuns hw s r.x _).trans (computes_contributeAll _ _ _)).trans (computes_notePoison _ _ _)

theorem computes_runQuant (hw : w → InWindow c r.cmd) (s : State) : Computes w c s (s.runQuant r c) := by
  have quant := computes_quantOpnd (w := w) (c := c) s r.x (r.cmd.tensorD 6) (r.cmd.word 0x10)
  unfold State.runQuant
  dsimp only
  split
  next o _ ho =>
    refine frame_ite (R := Computes w c) ?_ ?_
    · exact (quant.trans (computes_cacheRegions hw _)).trans (computes_storeOut (quantOpnd_space hw ho) _ _ _ _ _ _)
    · exact (quant.trans (computes_cacheRegions hw _)).trans (computes_storeRotated (quantOpnd_space hw ho) _ _ _ _)
  · exact quant.trans (computes_failRun hw _ _)

theorem computes_rwriteNoted {space : Nat} (hw : w → space = 0) (s : State) (runs : List (Nat × List PByte)) :
    Computes w c s ((s.rwriteRuns r.x space c runs).notePoison r (runsPoisoned runs)) :=
  (computes_rwriteRuns hw s r.x runs).trans (computes_notePoison _ _ _)

theorem gatherReads_space {cmd : Cmd} (h : ∀ g ∈ cmd.regions, g.space = 0) (tt : Tensor) (rows cols : Nat) (is : List PV) :
    ∀ g ∈ gatherReads cmd c tt rows cols is, g.space = 0 := by
  intro g hg
  unfold gatherReads at hg
  dsimp only at hg
  rcases List.mem_append.1 hg with hg | hg
  · exact h g (List.mem_of_mem_filter hg)
  · split at hg
    next hall =>
      obtain ⟨i, -, rfl⟩ := List.mem_map.1 hg
      exact h (tt.region c rows cols false) (List.contains_iff_mem.1 hall)
    · exact absurd hg List.not_mem_nil

theorem computes_runGather (hw : w → InWindow c r.cmd) (s : State) : Computes w c s (s.runGather r c) := by
  have reads (is : List PV) : Computes w c s (s.cacheReads r.x c (gatherReads r.cmd c (r.cmd.tensorD 4) (fld r.cmd.desc 0xC 4) (fld r.cmd.desc 0x10 4) is)) :=
    computes_cacheReads s r.x (fun h => gatherReads_space (fun g hg => ((hw h).2 g hg).1) _ _ _ _)
  unfold State.runGather
  refine (reads (s.gatherIndices r c (fld r.cmd.desc 8 4))).trans ?_
  refine frame_ite (R := Computes w c) ?_ ?_
  · refine frame_ite (R := Computes w c) (computes_failRun hw _ _) (frame_ite (R := Computes w c) (computes_failRun hw _ _) ?_)
    exact computes_storeOut (fun h => tensorD_space (hw h) 4) _ _ _ _ _ _
  · exact frame_ite (R := Computes w c) (computes_failRun hw _ _) (computes_rwriteNoted (fun h => tensorD_space (hw h) 6) _ _)

theorem computes_runCopy (hw : w → InWindow c r.cmd) (s : State) : Computes w c s (s.runCopy r c) := by
  have written (u : State) (runs : List (Nat × List PByte)) :
      Computes w c u ((u.rwriteRuns r.x (r.cmd.tensorD 4).space c runs).notePoison r (runsPoisoned runs)) :=
    computes_rwriteNoted (fun h => tensorD_space (hw h) 4) u runs
  unfold State.runCopy
  refine (computes_cacheRegions hw s).trans (frame_ite (R := Computes w c) ?_ (written _ _))
  split
  · exact computes_failRun hw _ _
  · exact written _ _

/-! ### MM -/

theorem computes_mmStore (hw : w → InWindow c r.cmd) {r' : Run} (hc : r'.cmd = r.cmd) (s : State) (a : MMArgs) (b row : Nat)
    (va vb : List PV) : Computes w c s (s.mmStore r' c a b row va vb) := by
  have space (off : Nat) : w → (r'.cmd.tensorD off).space = 0 := fun h => by rw [hc]; exact tensorD_space (hw h) off
  unfold State.mmStore
  refine frame_ite (R := Computes w c) ?_ ?_
  · refine Computes.trans ?_ (computes_storeOut (space 0xE) _ _ _ _ _ _)
    exact computes_storeOut (space 8) _ _ _ _ _ _
  · exact computes_storeOut (space 8) _ _ _ _ _ _

theorem computes_drainRow (hw : w → InWindow c r.cmd) {r' : Run} (hc : r'.cmd = r.cmd) (s : State) (a : MMArgs) (row : AccRow)
    (ups : List (Nat × W32)) : Computes w c s (s.drainRow r' c a row ups) := by
  unfold State.drainRow
  dsimp only
  have noted := computes_noteRow (w := w) (c := c) s (s.arrayFor c (upsetLanes row ups).side) (s.spanPlace c).1 (upsetLanes row ups) (s.spanPlace c).2
  refine noted.trans ?_
  refine frame_ite (R := Computes w c) (computes_mmStore hw hc _ _ _ _ _ _) ?_
  split
  · exact computes_modCore _ c (fun _ => rfl)
  · refine Computes.trans ?_ (computes_mmStore hw hc _ _ _ _ _ _)
    exact computes_modCore _ c (fun _ => rfl)

theorem computes_drainKept (hw : w → InWindow c r.cmd) {r' : Run} (hc : r'.cmd = r.cmd) (s : State) (a : MMArgs) (row : AccRow)
    (ups : List (Nat × W32)) : Computes w c s (s.drainKept r' c a row ups) := by
  unfold State.drainKept
  refine Computes.trans ?_ (computes_drainRow hw hc _ _ _ _)
  exact frame_ite (R := Computes w c) (Computes.refl s) (computes_modArr _ _ _)

theorem computes_mmSide (s0 s : State) (r : Run) (a : MMArgs) (b g side : Nat) : Computes w c s (State.mmSide s0 s r c a b g side).1 := by
  unfold State.mmSide
  dsimp only
  split
  · exact Computes.refl s
  · exact computes_endSide _ _ _ _ _ _

theorem computes_mmRunAcc (s0 s : State) (r : Run) (a : MMArgs) (b g : Nat) : Computes w c s (State.mmRunAcc s0 s r c a b g).1 :=
  ((computes_mmSide s0 s r a b g 0).trans (computes_mmSide s0 _ r a b g 1)).trans (computes_endAcc _ _)

theorem computes_mmDrainAcc (hw : w → InWindow c r.cmd) {r' : Run} (hc : r'.cmd = r.cmd) (s0 s : State) (a : MMArgs) (ups : List Upset)
    (b g : Nat) : Computes w c s (State.mmDrainAcc s0 s r' c a ups b g) :=
  (computes_mmRunAcc s0 s r' a b g).trans (computes_foldl _ _ (fun s _ _ => computes_drainKept hw hc s _ _ _) _)

theorem computes_mmHoldAcc (s0 s : State) (r : Run) (a : MMArgs) (b g : Nat) : Computes w c s (State.mmHoldAcc s0 s r c a b g) := by
  have hold (s : State) (side : Nat) (rows : List AccRow) : Computes w c s
      (if rows.isEmpty then s else s.modArr (s.arrayFor c side) (fun t => { t with rows := t.rows ++ rows })) :=
    frame_ite (Computes.refl s) (computes_modArr _ _ _)
  exact ((computes_mmRunAcc s0 s r a b g).trans (hold _ _ _)).trans (hold _ _ _)

theorem computes_leaveStaging (s : State) (r : Run) (a : MMArgs) (t : Tensor) : Computes w c s (s.leaveStaging r c a t) := by
  unfold State.leaveStaging
  split
  · refine Computes.trans ?_ (computes_wwrite _ _ _ _)
    exact computes_of_rest rfl rfl rfl rfl rfl rfl
  · exact Computes.refl s

/-- The records of what an MM stores, classified at its dispatch. -/
def State.mmQuant (s : State) (r : Run) : State × Option Opnd :=
  let s1 := (s.quantOpnd r.x (r.cmd.tensorD 8) (mmArgs r.cmd).step).1
  if (mmArgs r.cmd).norm then s1.quantOpnd r.x (r.cmd.tensorD 0xE) (mmArgs r.cmd).step else (s1, some ⟨r.cmd.tensorD 4, 0⟩)

theorem computes_mmQuant (s : State) (r : Run) : Computes w c s (s.mmQuant r).1 := by
  have first := computes_quantOpnd (w := w) (c := c) s r.x (r.cmd.tensorD 8) (mmArgs r.cmd).step
  unfold State.mmQuant
  dsimp only
  split
  · exact first.trans (computes_quantOpnd _ _ _ _)
  · exact first

/-- The accumulations of an MM whose scales are fixed, from the state at its dispatch. -/
def State.mmAccs (s : State) (r : Run) (c : Fin 4) (hold : Bool) (ups : List Upset) : State :=
  let a := mmArgs r.cmd
  let accs := (List.range (a.blocks * a.groups)).map (fun i => (i / a.groups, i % a.groups))
  let lastAcc := a.blocks * a.groups - 1
  let s4 := ((if hold then accs.take lastAcc else accs)).foldl (fun t p => State.mmDrainAcc s t r c a ups p.1 p.2) s
  if hold then State.mmHoldAcc s s4 r c a (lastAcc / a.groups) (lastAcc % a.groups) else s4

theorem computes_mmAccs (hw : w → InWindow c r.cmd) {r' : Run} (hc : r'.cmd = r.cmd) (s : State) (hold : Bool) (ups : List Upset) :
    Computes w c s (s.mmAccs r' c hold ups) := by
  have drained (l : List (Nat × Nat)) (a : MMArgs) : Computes w c s (l.foldl (fun t p => State.mmDrainAcc s t r' c a ups p.1 p.2) s) :=
    computes_foldl _ _ (fun t p _ => computes_mmDrainAcc hw hc s t a ups p.1 p.2) s
  unfold State.mmAccs
  exact frame_ite (R := Computes w c) ((drained _ _).trans (computes_mmHoldAcc _ _ _ _ _ _)) (drained _ _)

/-- An MM whose scales are fixed begins. -/
def State.mmBegun (s : State) (r : Run) (c : Fin 4) (scales : List W32) (stamps : List Nat) : State :=
  ((s.keepScales r scales stamps).cacheReads r.x c r.cmd.regions).beginArray c (!((mmArgs r.cmd).cols 0 1).isEmpty) ((mmArgs r.cmd).cols 0 0).length

theorem computes_mmBegun (hw : w → InWindow c r.cmd) (s : State) (scales : List W32) (stamps : List Nat) :
    Computes w c s (s.mmBegun r c scales stamps) :=
  ((computes_keepScales s r scales stamps).trans (computes_cacheRegions hw _)).trans (computes_beginArray _ _ _ _)

/-- An MM whose scales are fixed runs to its end. -/
def State.mmRun (s : State) (r : Run) (c : Fin 4) (hold : Bool) (ups : List Upset) (scales : List W32) (stamps : List Nat) : State :=
  (s.mmBegun r c scales stamps).mmAccs { r with scales := scales, stamps := stamps } c hold ups

theorem runMM_cases (s : State) (r : Run) (c : Fin 4) (hold : Bool) (ups : List Upset) :
    (∃ scales stamps, s.runMM r c hold ups = if (r.cmd.tensorD 6).space = 1
      then ((s.mmQuant r).1.mmRun r c hold ups scales stamps).leaveStaging r c (mmArgs r.cmd) (r.cmd.tensorD 6)
      else (s.mmQuant r).1.mmRun r c hold ups scales stamps) ∨
    s.runMM r c hold ups = ((s.mmQuant r).1.failRun r 0x0211).dropShadows c := by
  unfold State.runMM
  dsimp only
  split
  · exact .inl ⟨_, _, rfl⟩
  · exact .inr rfl

theorem computes_runMM (hw : w → InWindow c r.cmd) (s : State) (hold : Bool) (ups : List Upset) : Computes w c s (s.runMM r c hold ups) := by
  have run (scales : List W32) (stamps : List Nat) : Computes w c s ((s.mmQuant r).1.mmRun r c hold ups scales stamps) := by
    unfold State.mmRun
    refine ((computes_mmQuant s r).trans (computes_mmBegun hw _ scales stamps)).trans ?_
    exact computes_mmAccs (r' := { r with scales := scales, stamps := stamps }) hw rfl _ hold ups
  rcases runMM_cases s r c hold ups with ⟨scales, stamps, h⟩ | h
  · rw [h]
    exact frame_ite (R := Computes w c) ((run _ _).trans (computes_leaveStaging _ _ _ _)) (run _ _)
  · rw [h]
    exact ((computes_mmQuant s r).trans (computes_failRun hw _ _)).trans (computes_dropShadows _ _)

/-! ### ATTEND -/

theorem computes_phaseSide (s : State) (acc side : Nat) (ups : List Upset) (xs ws : List (List EV)) :
    Computes w c s (s.phaseSide c acc side ups xs ws).1 := by
  unfold State.phaseSide
  split
  · exact Computes.refl s
  · refine Computes.trans ?_ (computes_foldl_pair _ _ (fun a _ _ => computes_noteRow a.1 _ _ _ _) (_, []))
    exact computes_endSide _ _ _ _ _ _

/-- A fold over what carries a state keeps the frame if each step does. -/
theorem computes_foldl_of {α β : Type} (st : β → State) (f : β → α → β) (l : List α) (h : ∀ b, ∀ a ∈ l, Computes w c (st b) (st (f b a)))
    (b : β) : Computes w c (st b) (st (l.foldl f b)) := by
  induction l generalizing b with
  | nil => exact Computes.refl _
  | cons a l ih => exact (h b a List.mem_cons_self).trans (ih (fun b k hk => h b k (List.mem_cons_of_mem _ hk)) (f b a))

theorem computes_phase (s : State) (acc : Nat) (ups : List Upset) (xs ws : List (List EV)) : Computes w c s (s.phase c acc ups xs ws).st := by
  unfold State.phase
  refine computes_foldl_of PhaseOut.st _ _ (fun o pass _ => ?_) ⟨s, [], [], acc⟩
  exact ((computes_phaseSide o.st _ 0 _ _ _).trans (computes_phaseSide _ _ 1 _ _ _)).trans (computes_endAcc _ _)

theorem computes_sweepBlock (v : Sweep) (a : AttendArgs) (ups : List Upset) (q0 k0 : Nat) (qs ks vs : List (List PV)) :
    Computes w c v.st (v.block c a ups q0 k0 qs ks vs).st := (computes_phase v.st _ _ _ _).trans (computes_phase _ _ _ _ _)

theorem computes_sweep (s : State) (a : AttendArgs) (ups : List Upset) (acc q0 : Nat) (qs ks vs : List (List PV)) :
    Computes w c s (s.sweep c a ups acc q0 qs ks vs).st := by
  unfold State.sweep
  refine computes_foldl_of Sweep.st _ _ (fun v b _ => ?_) ⟨s, _, _, acc⟩
  exact computes_sweepBlock v _ _ _ _ _ _ _

theorem computes_attendHead (s0 s : State) (r : Run) (a : AttendArgs) (ups : List Upset) (acc sq h : Nat) :
    Computes w c s (State.attendHead s0 s r c a ups acc sq h).1 :=
  computes_foldl_of (fun o : State × List (List PV) × Nat => o.1) _ _ (fun o _ _ => computes_sweep o.1 _ _ _ _ _ _ _) (s, [], acc)

theorem computes_attendHeads (s0 s : State) (r : Run) (a : AttendArgs) (ups : List Upset) :
    Computes w c s (State.attendHeads s0 s r c a ups).1 := by
  refine computes_foldl_of (fun o : State × List (List (List (List PV))) × Nat => o.1) _ _ (fun o sq _ => ?_) (s, [], 0)
  exact computes_foldl_of (fun q : State × List (List (List PV)) × Nat => q.1) _ _ (fun q h _ => computes_attendHead s0 q.1 r a ups _ _ _) (o.1, [], o.2.2)

theorem attendReads_space {cmd : Cmd} (h : ∀ g ∈ cmd.regions, g.space = 0) (a : AttendArgs) : ∀ g ∈ attendReads cmd c a, g.space = 0 := by
  intro g hg
  unfold attendReads at hg
  obtain ⟨k, hk, hg⟩ := List.mem_flatMap.1 hg
  split at hg
  · split at hg
    · exact absurd hg List.not_mem_nil
    · obtain ⟨i, -, rfl⟩ := List.mem_map.1 hg
      exact h k hk
  · rw [List.mem_singleton.1 hg]
    exact h k hk

theorem computes_attendReads (hw : w → InWindow c r.cmd) (s : State) (a : AttendArgs) : Computes w c s (s.cacheReads r.x c (attendReads r.cmd c a)) :=
  computes_cacheReads s r.x (fun h => attendReads_space (fun g hg => ((hw h).2 g hg).1) a)

theorem computes_runAttend (hw : w → InWindow c r.cmd) (s : State) (ups : List Upset) : Computes w c s (s.runAttend r c ups) := by
  have quant := computes_quantOpnd (w := w) (c := c) s r.x (r.cmd.tensorD 8) (attendArgs r.cmd).step
  unfold State.runAttend
  dsimp only
  split
  · exact (quant.trans (computes_failRun hw _ _)).trans (computes_dropShadows _ _)
  next o ho =>
    refine Computes.trans ?_ (computes_scrambleArea _ _ _ _ _)
    refine Computes.trans ?_ (computes_storeOut (quantOpnd_space hw ho) _ _ _ _ _ _)
    refine Computes.trans ?_ (computes_attendHeads _ _ _ _ _)
    exact (quant.trans (computes_attendReads hw _ _)).trans (computes_beginArray _ _ _ _)

end

end Sys2Proof.Machine
end

section
/-! PROOFS. The backward commands (08). -/

namespace Sys2Proof.Machine

open Sys2Proof

/-! ## The backward commands (08) -/

section
variable {w : Prop} {c : Fin 4} {r : Run}

/-! ### MMB -/

/-- What an MMB stores lies in the window. -/
structure MmbOpnds.InOwn (w : Prop) (o : MmbOpnds) : Prop where
  dx : ∀ p, o.tdx = some p → w → p.1.t.space = 0
  dw : ∀ p, o.tdw = some p → w → p.1.t.space = 0

theorem computes_putDy (s : State) (x : Fin 16) (a : MmbArgs) (d : DyBlock) : Computes w c s (s.putDy x c a d) :=
  computes_foldl _ _ (fun s _ _ => computes_wwrite s x _ _) s

theorem computes_putDx {o : MmbOpnds} (ho : o.InOwn w) (s : State) (r : Run) (a : MmbArgs) (m lo : Nat) (ys : List PV) :
    Computes w c s (s.putDx r c a o m lo ys) := by
  unfold State.putDx
  split
  · exact Computes.refl s
  next t stamp h => exact computes_storeOut (ho.dx _ h) _ _ _ _ _ _

theorem computes_putDwUnit {t : Opnd} (ht : w → t.t.space = 0) (s : State) (r : Run) (a : MmbArgs) (stamp k unit : Nat) (ys : List PV) :
    Computes w c s (s.putDwUnit r c a t stamp k unit ys) := by
  unfold State.putDwUnit
  refine frame_ite (R := Computes w c) ?_ ?_
  · exact ((computes_rwriteRuns ht s r.x _).trans (computes_contributeAll _ _ _)).trans (computes_notePoison _ _ _)
  · exact (computes_rwrite ht s r.x _ _).trans (computes_notePoison _ _ _)

theorem computes_putDw {o : MmbOpnds} (ho : o.InOwn w) (s : State) (r : Run) (a : MmbArgs) (k lo : Nat) (ys : List PV) :
    Computes w c s (s.putDw r c a o k lo ys) := by
  unfold State.putDw
  split
  · exact Computes.refl s
  next t stamp h =>
    refine frame_ite (R := Computes w c) (Computes.refl s) (computes_foldl _ _ (fun s u _ => ?_) s)
    exact frame_ite (R := Computes w c) (computes_putDwUnit (ho.dw _ h) _ _ _ _ _ _ _) (Computes.refl s)

theorem computes_mmbDrain {o : MmbOpnds} (ho : o.InOwn w) (s : State) (r : Run) (a : MmbArgs) (acc : MmbAcc) (row : AccRow) :
    Computes w c s (s.mmbDrain r c a o acc row) := by
  have noted := computes_noteRow (w := w) (c := c) s (s.arrayFor c row.side) (s.spanPlace c).1 row (s.spanPlace c).2
  unfold State.mmbDrain
  exact noted.trans (frame_ite (R := Computes w c) (computes_putDx ho _ _ _ _ _ _) (computes_putDw ho _ _ _ _ _ _))

theorem computes_mmbSide (s0 s : State) (r : Run) (a : MmbArgs) (o : MmbOpnds) (d : DyBlock) (ups : List Upset) (acc : MmbAcc) (number side : Nat) :
    Computes w c s (State.mmbSide s0 s r c a o d ups acc number side).1 := by
  unfold State.mmbSide
  dsimp only
  split
  · exact Computes.refl s
  · exact computes_endSide _ _ _ _ _ _

theorem computes_mmbAcc {o : MmbOpnds} (ho : o.InOwn w) (s0 s : State) (r : Run) (a : MmbArgs) (d : DyBlock) (ups : List Upset) (acc : MmbAcc)
    (number : Nat) : Computes w c s (State.mmbAcc s0 s r c a o d ups acc number) := by
  unfold State.mmbAcc
  refine Computes.trans ?_ (computes_foldl _ _ (fun s row _ => computes_mmbDrain ho s r a acc row) _)
  exact ((computes_mmbSide s0 s r a o d ups acc number 0).trans (computes_mmbSide s0 _ r a o d ups acc number 1)).trans (computes_endAcc _ _)

theorem computes_poisonBytes {space : Nat} (hw : w → space = 0) (s : State) (x : Fin 16) (a n : Nat) :
    Computes w c s (s.poisonBytes x c space a n) := computes_rwrite hw s x _ _

theorem computes_mmbMismatch (hw : w → InWindow c r.cmd) (s : State) (a : MmbArgs) : Computes w c s (s.mmbMismatch r c a) := by
  have dx (u : State) : Computes w c u (match r.cmd.tensor 0xC with
      | some t => u.poisonRegion r.x c (t.region c a.m a.k true)
      | none => u) := by
    split
    next t h => exact computes_poisonRegion (r := t.region c a.m a.k true) (fun k => tensor_space (hw k) h) u r.x
    · exact Computes.refl u
  have kept (u : State) (t : Tensor) (h : w → t.space = 0) : Computes w c u (((List.range a.k).filter (keptRow a)).foldl (fun (s : State) k =>
      ((List.range (a.n / 128)).filter (keptUnit a)).foldl (fun (s : State) u =>
        if a.dwMode = 2 then s.poisonBytes r.x c t.space (t.rowAddr k + 512 * u) 512
        else (storePiece ⟨t, fpOne⟩ ⟨0, 0, 0, none⟩ k (128 * u) (decide (128 * u + 128 = a.n))
          (List.replicate 128 PV.zero)).1.foldl (fun (s : State) (p : Nat × List PByte) => s.poisonBytes r.x c t.space p.1 p.2.length) s) s) u) := by
    refine computes_foldl _ _ (fun s k _ => computes_foldl _ _ (fun s v _ => ?_) s) u
    exact frame_ite (R := Computes w c) (computes_poisonBytes h _ _ _ _)
      (computes_foldl _ _ (fun s p _ => computes_poisonBytes h s _ _ _) _)
  unfold State.mmbMismatch
  refine Computes.trans ?_ (computes_modRun _ _ (fun _ => ⟨rfl, rfl, rfl⟩))
  refine (dx s).trans ?_
  cases h : r.cmd.tensor 0xE with
  | none => exact Computes.refl _
  | some t => exact kept _ t (fun k => tensor_space (hw k) h)

theorem computes_mmbPhases (hw : w → InWindow c r.cmd) {o : MmbOpnds} (ho : o.InOwn w) (s : State) (a : MmbArgs) (stamp : Nat) (ups : List Upset) :
    Computes w c s (s.mmbPhases r c a o stamp ups) := by
  unfold State.mmbPhases
  refine Computes.trans ?_ (computes_foldl _ _ (fun s acc _ => computes_mmbAcc ho _ s _ _ _ _ _ _) _)
  refine Computes.trans ?_ (computes_contributeAll _ _ _)
  refine Computes.trans ?_ (computes_putDy _ _ _ _)
  refine Computes.trans ?_ (computes_occasion _)
  exact (computes_cacheRegions hw s).trans (computes_beginArray _ _ _ _)

/-- The operand of an output that may be absent, with its stamp. -/
def State.optOpnd (s : State) (r : Run) (step : W32) (off : Nat) : State × Option (Option (Opnd × Nat)) :=
  match r.cmd.tensor off with
  | none => (s, some none)
  | some t => ((s.quantOpnd r.x t step).1, (s.quantOpnd r.x t step).2.map (fun o => some (o, (s.quantOpnd r.x t step).1.stampOf r.x t)))

theorem computes_optOpnd (s : State) (r : Run) (step : W32) (off : Nat) : Computes w c s (s.optOpnd r step off).1 := by
  unfold State.optOpnd
  split
  · exact Computes.refl s
  · exact computes_quantOpnd _ _ _ _

theorem optOpnd_space (hw : w → InWindow c r.cmd) {s : State} {step : W32} {off : Nat} {p : Opnd × Nat}
    (h : (s.optOpnd r step off).2 = some (some p)) : w → p.1.t.space = 0 := by
  intro k
  unfold State.optOpnd at h
  split at h
  · cases h
  next t ht =>
    obtain ⟨o, ho, he⟩ := Option.map_eq_some_iff.1 h
    cases he
    rw [show (o, _).1.t = t from quantOpnd_tensor ho]
    exact tensor_space (hw k) ht

theorem computes_runMmb (hw : w → InWindow c r.cmd) (s : State) (ups : List Upset) : Computes w c s (s.runMmb r c ups) := by
  have quant : Computes w c s (s.quantScale r.x (mmbArgs r.cmd).dyRec 0 (mmbArgs r.cmd).step).1 := computes_quantScale _ _ _ _ _
  have both := (quant.trans (computes_optOpnd (w := w) (c := c) _ r (mmbArgs r.cmd).step 0xC)).trans
    (computes_optOpnd (w := w) (c := c) _ r (mmbArgs r.cmd).step 0xE)
  unfold State.runMmb
  refine frame_ite (R := Computes w c) ((computes_mmbMismatch hw s _).trans (computes_dropShadows _ _)) ?_
  dsimp only
  split
  next ts tdx tdw twb txt _ hx hd _ _ =>
    refine both.trans (computes_mmbPhases hw ⟨?_, ?_⟩ _ _ _ _)
    · intro p hp
      cases hp
      exact optOpnd_space hw hx
    · intro p hp
      cases hp
      exact optOpnd_space hw hd
  · exact (both.trans (computes_failRun hw _ _)).trans (computes_dropShadows _ _)

/-! ### NORM_B -/

theorem computes_runNormB (hw : w → InWindow c r.cmd) (s : State) : Computes w c s (s.runNormB r c) := by
  have put (u : State) (off : Nat) (m : StoreMode) (v : List PV) : Computes w c u (match r.cmd.tensor off with
      | some t => u.storeOut r c ⟨t, 0⟩ m 0 0 [(0, v)]
      | none => u) := by
    split
    next t h => exact computes_storeOut (fun k => tensor_space (hw k) h) _ _ _ _ _ _
    · exact Computes.refl u
  unfold State.runNormB
  refine Computes.trans ?_ (put _ _ _ _)
  refine Computes.trans ?_ (put _ _ _ _)
  refine Computes.trans ?_ (computes_storeOut (fun h => tensorD_space (hw h) 8) _ _ _ _ _ _)
  exact computes_cacheRegions hw s

/-! ### ATTEND_B -/

theorem computes_attBlock (g : AttGrads) (a : AttendArgs) (ups : List Upset) (b : QueryBlock) (soft : List SoftState) (dd : List W32) (k0 : Nat)
    (ks vs : List (List PV)) (dq : List (List W32)) : Computes w c g.st (g.block c a ups b soft dd k0 ks vs dq).1.st := by
  unfold AttGrads.block
  refine Computes.trans ?_ (computes_phase _ _ _ _ _)
  refine Computes.trans ?_ (computes_phase _ _ _ _ _)
  refine Computes.trans ?_ (computes_phase _ _ _ _ _)
  exact (computes_phase g.st _ _ _ _).trans (computes_phase _ _ _ _ _)

theorem computes_attQueries (g : AttGrads) (a : AttendArgs) (ups : List Upset) (ks vs : List (List PV)) (b : QueryBlock) :
    Computes w c g.st (g.queries c a ups ks vs b).st := by
  have swept := computes_sweep (w := w) (c := c) g.st a ups g.acc b.q0 b.qs ks vs
  unfold AttGrads.queries
  dsimp only
  refine swept.trans ?_
  exact computes_foldl_of (fun o : AttGrads × List (List W32) => o.1.st) _ _ (fun o k _ => computes_attBlock o.1 _ _ _ _ _ _ _ _ _)
    ({ g with st := _, acc := _, early := _ }, _)

theorem computes_attendBHead (s0 s : State) (r : Run) (a : AttendArgs) (ups : List Upset) (acc sq kvh : Nat) :
    Computes w c s (State.attendBHead s0 s r c a ups acc sq kvh).1.st := by
  unfold State.attendBHead
  exact computes_foldl_of AttGrads.st _ _ (fun g b _ => computes_attQueries g _ _ _ _ b) ⟨s, acc, [], _, _, false⟩

theorem computes_putAttGrads (hw : w → InWindow c r.cmd) (s : State) (a : AttendArgs) (sq kvh : Nat) (g : AttGrads) (p : Bool) :
    Computes w c s (s.putAttGrads r c a sq kvh g p) := by
  have put (u : State) (off : Nat) (runs : List (Nat × List PByte)) :
      Computes w c u ((u.rwriteRuns r.x (r.cmd.tensorD off).space c runs).notePoison r (runsPoisoned runs)) :=
    computes_rwriteNoted (fun h => tensorD_space (hw h) off) u runs
  exact ((put s 0xA _).trans (put _ 0xC _)).trans (put _ 0xE _)

theorem computes_runAttendB (hw : w → InWindow c r.cmd) (s : State) (ups : List Upset) : Computes w c s (s.runAttendB r c ups) := by
  unfold State.runAttendB
  refine Computes.trans ?_ (computes_scrambleArea _ _ _ _ _)
  refine Computes.trans ?_ (computes_foldl_of (fun o : State × Nat => o.1) _ _ (fun o q _ => ?_) (_, 0))
  · exact (computes_attendReads hw s _).trans (computes_beginArray _ _ _ _)
  · exact (computes_attendBHead _ _ _ _ _ _ _ _).trans (computes_putAttGrads hw _ _ _ _ _ _)

end

end Sys2Proof.Machine
end

section
/-! PROOFS. UPDATE and PRECOND (09). -/

namespace Sys2Proof.Machine

open Sys2Proof

/-! ## UPDATE and PRECOND (09) -/

section
variable {c : Fin 4} {r : Run}

theorem notOwn : ¬False := fun h => h

theorem computes_putAlm (s : State) (x : Fin 16) (g off : Nat) (bs : List Byte) : Computes False c s (s.putAlm x g off bs) := by
  unfold State.putAlm
  split
  · exact Computes.refl s
  · split
    · exact Computes.refl s
    · refine Computes.trans ?_ (computes_uwrite notOwn _ _ _)
      exact computes_modCtx s x (fun _ => ⟨rfl, rfl, rfl, rfl, rfl⟩)

theorem computes_setStatus (s : State) (x : Fin 16) (g i : Nat) (v : Bool) : Computes False c s (s.setStatus x g i v) := by
  unfold State.setStatus
  split
  · exact Computes.refl s
  · exact computes_putAlm _ _ _ _ _

theorem computes_dropPending (s : State) (r : Run) (d : Fin 4) (g : Nat) : Computes False c s (s.dropPending r d g) := by
  unfold State.dropPending
  exact frame_ite (R := Computes False c) ((computes_setStatus _ _ _ _ _).trans (computes_modCC _ _ _ _)) (Computes.refl s)

/-- A command that fails, when nothing is said of its window. -/
theorem computes_fails (s : State) (r : Run) (reason : Nat) : Computes False c s (s.failRun r reason) := computes_failRun False.elim s reason

/-! ### The blocks of an UPDATE -/

theorem computes_putCopy (s : State) {u : UpdFix} (hu : u.c = c) (o : Opnd × Nat) (ps : List (List (Nat × List PByte) × List Contrib)) :
    Computes False c s (s.putCopy u o ps) := by
  subst hu
  exact (computes_rwriteRuns False.elim s _ _).trans (computes_contributeAll _ _ _)

theorem computes_putBwd (s : State) {u : UpdFix} (hu : u.c = c) (b : Nat) (p : List W32) : Computes False c s (s.putBwd u b p) := by
  unfold State.putBwd
  split
  · exact Computes.refl s
  · exact computes_putCopy s hu _ _

theorem computes_putFwd (s : State) {u : UpdFix} (hu : u.c = c) (k0 n : Nat) (js : List Nat) : Computes False c s (s.putFwd u k0 n js) := by
  unfold State.putFwd
  split
  · exact Computes.refl s
  · exact computes_putCopy s hu _ _

theorem computes_writeBlockNew (s : State) {u : UpdFix} (hu : u.c = c) (b : Nat) (p m1 m2 : List W32) :
    Computes False c s (s.writeBlockNew u b p m1 m2) := by
  unfold State.writeBlockNew
  refine Computes.trans ?_ (computes_putBwd _ hu _ _)
  subst hu
  exact (computes_uwrite notOwn s _ _).trans (computes_contributeAll _ _ _)

theorem computes_commit (l : UpdLoop) (u : UpdFix) (poison : Bool) {write : State → State} (hw : ∀ s, Computes False c s (write s)) :
    Computes False c l.st (l.commit u poison write).st := by
  unfold UpdLoop.commit
  split
  · exact Computes.refl _
  · split
    · exact computes_detect _ _
    · split
      · exact Computes.refl _
      · exact (hw _).trans (computes_detect _ _)
      · exact hw _

theorem computes_updTouch (l : UpdLoop) (u : UpdFix) (as : List (Nat × Nat)) : Computes False c l.st (l.touch u as).st := by
  unfold UpdLoop.touch
  split
  · exact Computes.refl _
  · exact computes_foldl _ _ (fun s a _ => computes_touchRange notOwn s _ _ _) _

theorem computes_updBlock (l : UpdLoop) {u : UpdFix} (hu : u.c = c) (b : Nat) (g : List PV) : Computes False c l.st (l.block u b g).st := by
  unfold UpdLoop.block
  refine Computes.trans (computes_updTouch l u [(blockAddr u.e b, 832)]) ?_
  exact computes_commit _ _ _ (fun s => computes_writeBlockNew s hu _ _ _ _)

theorem computes_updTile (l : UpdLoop) {u : UpdFix} (hu : u.c = c) (grad : List (List PV)) (k0 n j nb : Nat) :
    Computes False c l.st (l.tile u grad k0 n j nb).st := by
  unfold UpdLoop.tile
  split
  · exact Computes.refl _
  · refine (computes_updTouch l u _).trans (computes_commit _ _ _ (fun s => ?_))
    refine Computes.trans ?_ (computes_uwrite notOwn _ _ _)
    refine Computes.trans ?_ (computes_uwrite notOwn _ _ _)
    exact computes_foldl _ _ (fun s i _ => computes_writeBlockNew s hu _ _ _ _) s

theorem computes_updStrip (l : UpdLoop) {u : UpdFix} (hu : u.c = c) (grad : List (List PV)) (k0 n nb : Nat) (js : List Nat) :
    Computes False c l.st (l.strip u grad k0 n nb js).st := by
  have tiles : Computes False c l.st (js.foldl (fun l j => l.tile u grad k0 n j nb) l).st :=
    computes_foldl_of UpdLoop.st _ _ (fun l j _ => computes_updTile l hu _ _ _ _ _) l
  have blocks : Computes False c l.st (grad.zipIdx.foldl (fun l g => js.foldl (fun l j =>
      l.block u ((k0 + g.2) * nb + j) ((g.1.drop (128 * j)).take 128)) l) l).st :=
    computes_foldl_of UpdLoop.st _ _ (fun l g _ => computes_foldl_of UpdLoop.st _ _ (fun l j _ => computes_updBlock l hu _ _) l) l
  unfold UpdLoop.strip
  dsimp only
  generalize hl : (if u.k.rule = 2 then _ else _ : UpdLoop) = m
  have hm : Computes False c l.st m.st := by
    rw [← hl]
    split
    · exact tiles
    · exact blocks
  split
  · exact hm
  · exact hm.trans (computes_putFwd _ hu _ _ _)

theorem computes_updBand (l : UpdLoop) {u : UpdFix} (hu : u.c = c) (og : Opnd) (layer : W32) (k0 n : Nat) :
    Computes False c l.st (l.band u og layer k0 n).st := by
  unfold UpdLoop.band
  split
  · exact Computes.refl _
  · exact computes_foldl_of UpdLoop.st _ _ (fun l js _ => computes_updStrip l hu _ _ _ _ _) l

theorem computes_runBlocks (s : State) {u : UpdFix} (hu : u.c = c) (og : Opnd) (layer : W32) : Computes False c s (s.runBlocks u og layer) := by
  have bands := computes_foldl_of (w := False) (c := c) UpdLoop.st (fun (l : UpdLoop) (b : Nat × Nat) => l.band u og layer b.1 b.2)
    (updBands u.e u.r.cmd.desc) (fun l b _ => computes_updBand l hu og layer _ _) { st := s, failed := none, done := 0 }
  unfold State.runBlocks
  dsimp only
  split
  · exact bands
  · refine Computes.trans ?_ (computes_failClean _ _ _)
    exact frame_ite (R := Computes False c) (bands.trans (computes_setStatus _ _ _ _ _)) bands

/-! ### The dispatch of an UPDATE -/

/-- The moment records of an UPDATE, classified at its dispatch. -/
def State.momentScales (s : State) (r : Run) (e : List Byte) : State × Option W32 :=
  let s1 := (s.quantScale r.x (fld e 0x30 2) 0 (r.cmd.word 0x14)).1
  if decide (almRule e = 1) then s1.quantScale r.x (fld e 0x32 2) 0 (r.cmd.word 0x14) else (s1, some fpOne)

theorem computes_momentScales (s : State) (r : Run) (e : List Byte) : Computes False c s (s.momentScales r e).1 := by
  have first := computes_quantScale (w := False) (c := c) s r.x (fld e 0x30 2) 0 (r.cmd.word 0x14)
  unfold State.momentScales
  dsimp only
  split
  · exact first.trans (computes_quantScale _ _ _ _ _)
  · exact first

/-- The records of an UPDATE, classified at its dispatch. -/
def State.updClassified (s : State) (r : Run) (e : List Byte) : State :=
  ((s.momentScales r e).1.optOpnd r (r.cmd.word 0x1C) 4).1.optOpnd r (r.cmd.word 0x1C) 6 |>.1

theorem computes_updClassified (s : State) (r : Run) (e : List Byte) : Computes False c s (s.updClassified r e) :=
  ((computes_momentScales s r e).trans (computes_optOpnd _ r _ 4)).trans (computes_optOpnd _ r _ 6)

theorem computes_startUpdate (s : State) (r : Run) (e : List Byte) (group : Nat) (first : Bool) (gs : W32) (q : Bool) (bad : List (Nat × Bool)) :
    Computes False c s (s.startUpdate r c e group first gs q bad) := by
  have classified := computes_updClassified (c := c) s r e
  unfold State.startUpdate
  dsimp only
  split
  · refine Computes.trans ?_ (computes_runBlocks _ ?_ _ _)
    case refine_2 => rfl
    refine (classified.trans ((computes_dropPending _ r c group).trans (computes_cacheReads _ r.x False.elim))).trans
      (frame_ite (R := Computes False c) ?_ (Computes.refl _))
    refine Computes.trans ?_ (computes_putAlm _ _ _ _ _)
    refine Computes.trans ?_ (computes_setStatus _ _ _ _ _)
    exact (computes_putAlm _ _ _ _ _).trans (computes_setStatus _ _ _ _ _)
  · exact (classified.trans (computes_dropPending _ _ _ _)).trans (computes_fails _ _ _)
  · exact (classified.trans (computes_dropPending _ _ _ _)).trans (computes_failClean _ _ _)

theorem computes_skipUpdate (s : State) (r : Run) (group : Nat) (last : Bool) : Computes False c s (s.skipUpdate r c group last) := by
  have skipped := (computes_dropPending (c := c) s r c group).trans (computes_setStatusOut _ r 0x0418)
  unfold State.skipUpdate
  exact frame_ite (R := Computes False c) (skipped.trans (computes_setStatus _ _ _ _ _)) skipped

theorem computes_firstUpdate (s : State) (r : Run) (e : List Byte) (group : Nat) (last : Bool) (bad : List (Nat × Bool)) :
    Computes False c s (s.firstUpdate r c e group last bad) := by
  have drop (u : State) (reason : Nat) : Computes False c u ((u.dropPending r c group).failClean r reason) :=
    (computes_dropPending u r c group).trans (computes_failClean _ _ _)
  have read := computes_touchRange (c := c) notOwn s (fld r.cmd.desc 0x28 8) 4 (some c)
  unfold State.firstUpdate
  refine frame_ite (R := Computes False c) (drop _ _) (frame_ite (R := Computes False c) (computes_startUpdate _ _ _ _ _ _ _ _)
    (frame_ite (R := Computes False c) (drop _ _) ?_))
  refine read.trans (frame_ite (R := Computes False c) (computes_startUpdate _ _ _ _ _ _ _ _) ?_)
  split
  · exact computes_startUpdate _ _ _ _ _ _ _ _
  · refine Computes.trans ?_ (computes_skipUpdate _ _ _ _)
    exact ((computes_putAlm _ _ _ _ _).trans (computes_setStatus _ _ _ _ _)).trans (computes_putAlm _ _ _ _ _)

theorem computes_runUpdate (s : State) (r : Run) (bad : List (Nat × Bool)) : Computes False c s (s.runUpdate r c bad) := by
  have drop (u : State) (g reason : Nat) : Computes False c u ((u.dropPending r c g).failClean r reason) :=
    (computes_dropPending u r c g).trans (computes_failClean _ _ _)
  have fails (reason : Nat) : Computes False c s (s.failClean r reason) := computes_failClean _ _ _
  unfold State.runUpdate
  dsimp only
  split
  · exact (computes_modCC s _ _ _).trans (computes_failClean _ _ _)
  · refine frame_ite (drop _ _ _) (frame_ite (drop _ _ _) (frame_ite ?_ (frame_ite (drop _ _ _) (frame_ite ?_ (frame_ite (fails _)
      (frame_ite ?_ (frame_ite (fails _) ?_)))))))
    · exact ((computes_dropPending _ _ _ _).trans (computes_putAlm _ _ _ _ _)).trans (computes_setStatusOut _ _ _)
    · exact computes_firstUpdate _ _ _ _ _ _
    · exact computes_skipUpdate _ _ _ _
    · exact computes_startUpdate _ _ _ _ _ _ _ _

/-! ### PRECOND -/

theorem computes_preSide (s : State) (r : Run) (e : List Byte) (group tile side : Nat) : Computes False c s (s.preSide r c e group tile side).1 := by
  have read := computes_touchRange (c := c) notOwn s (tileAddr e tile + 0x10000 * side) 0x10000 (some c)
  unfold State.preSide
  dsimp only
  refine read.trans ?_
  refine frame_ite (R := Computes False c) ?_ ?_
  · exact ((computes_uwrite notOwn _ _ _).trans (computes_notePoison _ _ _)).trans (computes_event _ _ _ _)
  · exact (computes_uwrite notOwn _ _ _).trans (computes_notePoison _ _ _)

theorem computes_preTile (s : State) (r : Run) (e : List Byte) (group tile : Nat) : Computes False c s (s.preTile r c e group tile) :=
  ((computes_preSide s r e group tile 0).trans (computes_preSide _ r e group tile 1)).trans (computes_uwrite notOwn _ _ _)

theorem computes_runPrecond (s : State) (r : Run) : Computes False c s (s.runPrecond r c) := by
  unfold State.runPrecond
  dsimp only
  split
  · exact computes_failClean _ _ _
  · exact frame_ite (computes_failClean _ _ _) (frame_ite (computes_failClean _ _ _)
      (computes_foldl _ _ (fun s i _ => computes_preTile s r _ _ _) s))

end

end Sys2Proof.Machine
end

section
/-! PROOFS. Compute commands at their dispatch (13). -/

namespace Sys2Proof.Machine

open Sys2Proof

/-! ## Compute commands at their dispatch (13) -/

section
variable {w : Prop} {c : Fin 4} {s s1 t : State} {r : Run}

/-! ### The scheduler -/

theorem computes_schedPass (xs : List (Fin 16)) (s : State) (r : State × Option (Fin 16) × Bool) :
    Computes w c r.1 (State.schedPass s c xs r).1 := by
  induction xs generalizing s r with
  | nil => exact Computes.refl _
  | cons x xs ih =>
    obtain ⟨st, found, skipped⟩ := r
    unfold State.schedPass
    cases found with
    | some y => exact Computes.refl _
    | none =>
      dsimp only
      split
      · exact ih s (st, none, skipped)
      · split
        · exact (computes_modCC st x c _).trans (ih s (_, none, true))
        · exact computes_modCC st x c _

theorem computes_schedLoop (order : List (Fin 16)) (n : Nat) (s : State) : Computes w c s (State.schedLoop c order n s).1 := by
  induction n generalizing s with
  | zero => exact Computes.refl _
  | succ n ih =>
    have h := computes_schedPass (w := w) (c := c) order s (s, none, false)
    simp only [State.schedLoop]
    split
    next h1 => rw [h1] at h; exact h
    next h1 =>
      rw [h1] at h
      split
      · exact h.trans (ih _)
      · exact h

theorem computes_schedule (s : State) : Computes w c s (s.schedule c).1 := by
  unfold State.schedule
  dsimp only
  split
  · exact Computes.refl s
  · split
    · exact Computes.refl s
    · split
      · exact Computes.refl s
      · have cleared := computes_modCC (w := w) (c := c) s (s.core c).current c (fun k => { k with remaining := 0 })
        have h := cleared.trans (computes_schedLoop (contextsAfter (s.core c).current)
          ((contextsAfter (s.core c).current).foldl (fun n x => n + (s.cc x c).debt / ((s.cc x c).budget + 1) + 2) 1) _)
        split
        next h1 =>
          rw [h1] at h
          refine h.trans (Computes.trans ?_ (computes_modCore _ c (fun _ => rfl)))
          exact frame_ite (Computes.refl _) (computes_dropShadows _ _)
        next h1 =>
          rw [h1] at h
          exact h

/-! ### The start of a run -/

/-- The run of core c starts: it has the next number, and its feed die the next generation; every stack and the other feed dies stay, and of
the tiers only requests change. -/
structure Starts (c : Fin 4) (s t : State) (r : Run) : Prop where
  work : OnlyWork s t
  next : t.hub.nextRun = s.hub.nextRun + 1
  gen : (t.feed c).gen = (s.feed c).gen + 1
  run : (t.core c).running = some r
  id : r.id = s.hub.nextRun
  host : ∀ y, (s.ctx y).SameHost (t.ctx y)
  hbm : t.hbm = s.hbm
  tiers : t.tiers = { s.tiers with reqs := t.tiers.reqs }
  feeds : ∀ d, d ≠ c → t.feed d = s.feed d

/-- A plan that advances asks for moves. -/
structure Asks (s t : State) : Prop where
  rest : t = { s with hub := { s.hub with ctxs := t.hub.ctxs }, tiers := { s.tiers with reqs := t.tiers.reqs } }
  host : ∀ y, (s.ctx y).SameHost (t.ctx y)

theorem Asks.refl (s : State) : Asks s s := ⟨rfl, fun _ => Ctx.SameHost.refl _⟩

theorem Asks.trans {s t u : State} (h : Asks s t) (k : Asks t u) : Asks s u := by
  refine ⟨?_, fun y => (h.host y).trans (k.host y)⟩
  have k1 := k.rest
  rw [h.rest] at k1
  exact k1

theorem asks_askMove (s : State) (r : MoveReq) : Asks s (s.askMove r) := ⟨rfl, fun _ => Ctx.SameHost.refl _⟩

theorem asks_planMoves (s : State) (x : Fin 16) (old new : List Nat) : Asks s (s.planMoves x old new) := by
  have near (s : State) (p : Nat) : Asks s (s.askNear x p) := by
    unfold State.askNear
    split
    · exact asks_askMove _ _
    · exact Asks.refl s
  unfold State.planMoves
  exact (frame_foldl Asks.refl Asks.trans _ _ (fun s _ _ => asks_askMove s _) _).trans
    (frame_foldl Asks.refl Asks.trans _ _ (fun s p _ => near s p) _)

theorem asks_layerAdvance (s : State) (x : Fin 16) (cmd : Cmd) : Asks s (s.layerAdvance x cmd) := by
  have planned (p : Option Plan) : Asks s (s.modCtx x (fun k => { k with plan := p })) :=
    ⟨rfl, (computes_modCtx (w := True) (c := 0) s x (f := fun k => { k with plan := p }) (fun _ => ⟨rfl, rfl, rfl, rfl, rfl⟩)).host⟩
  unfold State.layerAdvance
  split
  · dsimp only
    split
    · exact Asks.refl s
    · split
      · exact (planned _).trans (asks_planMoves _ _ _ _)
      · exact Asks.refl s
  · exact Asks.refl s

/-- The claims of a command are made and it leaves its queue. -/
theorem computes_claims (s : State) (x : Fin 16) (ev : Bool) (ks : List Claim) :
    Computes w c s (ks.foldl (fun s k => s.claim x k) (s.popHead x c ev)) :=
  (computes_modCC s x c _).trans (computes_foldl _ _ (fun s _ _ => computes_modCC s _ _ _) _)

/-- A run enters its core under the next number. -/
def State.entered (s : State) (x : Fin 16) (c : Fin 4) (ev : Bool) (cmd : Cmd) (run : Run) : State :=
  let s2 := s.modFeed c (fun f => { f with gen := f.gen + 1, stage := stageOf cmd })
  let s3 := { s2 with hub := { s2.hub with nextRun := s2.hub.nextRun + 1 } }
  s3.modCore c (fun k => { k with
    running := some run, current := x, epi := []
    span := match k.span with
      | some sp => some (if sp.x = x && sp.eval == ev then sp.join cmd else sp)
      | none => none })

theorem starts_entered (s : State) (x : Fin 16) (ev : Bool) (cmd : Cmd) {run : Run} (h : run.id = s.hub.nextRun) :
    Starts c s (s.entered x c ev cmd run) run := by
  refine ⟨rfl, rfl, ?_, ?_, h, fun _ => Ctx.SameHost.refl _, rfl, rfl, fun d hd => State.modFeed_other s _ _ _ hd⟩
  · exact congrArg FeedS.gen (State.modFeed_same s c _)
  · exact congrArg CoreS.running (State.modCore_same _ c _)

theorem Computes.starts {t u : State} (h : Computes True c s t) (k : Starts c t u r) : Starts c s u r := by
  obtain ⟨hb, ht, hf⟩ := h.own trivial
  refine ⟨h.work.trans k.work, by rw [k.next, h.next], by rw [k.gen, h.gen], k.run, k.id.trans h.next, fun y => (h.host y).trans (k.host y),
    k.hbm.trans hb, ?_, fun d hd => (k.feeds d hd).trans (hf d hd)⟩
  have kt := k.tiers
  rw [ht] at kt
  exact kt

theorem Starts.asks {t u : State} (h : Starts c s t r) (k : Asks t u) (hw : OnlyWork t u) : Starts c s u r := by
  have hrest := k.rest
  refine ⟨h.work.trans hw, by rw [hrest]; exact h.next, by rw [hrest]; exact h.gen, by rw [hrest]; exact h.run, h.id,
    fun y => (h.host y).trans (k.host y), by rw [hrest]; exact h.hbm, ?_, fun d hd => by rw [hrest]; exact h.feeds d hd⟩
  rw [hrest, h.tiers]

theorem starts_startRun (s : State) (x : Fin 16) (ev : Bool) (cmd : Cmd) : Starts c s (s.startRun x c ev cmd).1 (s.startRun x c ev cmd).2 := by
  have claimed := computes_claims (w := True) (c := c) s x ev ((s.claimsOf x cmd).filter (fun k => !(s.madeClaims x (some c)).contains k))
  have entered := claimed.starts (starts_entered _ x ev cmd (run := newRun s x cmd (s.claimsOf x cmd)) claimed.next.symm)
  exact entered.asks (asks_layerAdvance _ x cmd) (onlyWork_layerAdvance _ _ _)

theorem starts_dispatchCore {isOp : Cmd → Bool} (h : s.dispatchCore c isOp = some (s1, r)) : Starts c s s1 r := by
  obtain ⟨x, cmd, ev, -, -, -, hs⟩ := dispatchCore_inv h
  have k := starts_startRun (c := c) (s.schedule c).1 x ev cmd
  rw [hs] at k
  exact (computes_schedule s).starts k

/-! ### The command runs -/

theorem Computes.mono {v : Prop} (h : Computes w c s t) (hv : v → w) : Computes v c s t :=
  ⟨h.work, h.next, h.gen, h.run, h.host, fun k => h.own (hv k)⟩

/-- A dispatch and what its command computes. -/
theorem ran {op : Nat} (h : Starts c s s1 r) (k : Computes (InWindow c r.cmd ∧ op < 0x30) c s1 t) :
    ∃ l, OnlyWork s t ∧ (t.core c).running = some l ∧ l.cmd = r.cmd ∧ l.x = r.x ∧ l.id = s.hub.nextRun ∧ t.hub.nextRun = s.hub.nextRun + 1 ∧
      (t.feed c).gen = (s.feed c).gen + 1 ∧ (∀ y, (s.ctx y).SameHost (t.ctx y)) ∧
      (InWindow c r.cmd → op < 0x30 → t.hbm = s.hbm ∧ t.tiers = { s.tiers with reqs := t.tiers.reqs } ∧ ∀ d, d ≠ c → t.feed d = s.feed d) := by
  obtain ⟨l, hl, hcmd, hx, hid⟩ := k.run r h.run
  refine ⟨l, h.work.trans k.work, hl, hcmd, hx, hid.trans h.id, k.next.trans h.next, k.gen.trans h.gen, fun y => (h.host y).trans (k.host y), fun hw ho => ?_⟩
  obtain ⟨hb, ht, hf⟩ := k.own ⟨hw, ho⟩
  exact ⟨hb.trans h.hbm, by rw [ht]; exact h.tiers, fun d hd => (hf d hd).trans (h.feeds d hd)⟩

end

/-- Settles O51: the dispatch starts the run, and what its command computes leaves the frame. -/
theorem computeCommandsRun : Obligations.ComputeCommandsRun := by
  intro s s1 c r cmd op hu hd hcmd
  have start := starts_dispatchCore hd
  have run {f t} (h : f s = t) : inDies f s = .next t := (inDies_up _ _ hu).trans (congrArg _ h)
  suffices h : ∃ f t, exec cmd s = inDies f s ∧ f s = t ∧ Computes (InWindow c r.cmd ∧ op < 0x30) c s1 t by
    obtain ⟨f, t, he, hf, k⟩ := h
    obtain ⟨l, h⟩ := ran start k
    exact ⟨t, l, he.trans (run hf), h⟩
  have own : InWindow c r.cmd ∧ op < 0x30 → InWindow c r.cmd := And.left
  rcases hcmd with ⟨hold, ups, rfl, rfl⟩ | ⟨ups, rfl, rfl⟩ | ⟨ups, rfl, rfl⟩ | ⟨ups, rfl, rfl⟩ | ⟨rfl, rfl⟩ | ⟨rfl, rfl⟩ | ⟨rfl, rfl⟩ | ⟨rfl, rfl⟩ |
    ⟨rfl, rfl⟩ | ⟨rfl, rfl⟩ | ⟨rfl, rfl⟩ | ⟨bad, rfl, rfl⟩
  · exact ⟨doMm c hold ups, _, rfl, by unfold doMm; rw [hd], computes_runMM own s1 hold ups⟩
  · exact ⟨doMmb c ups, _, rfl, by unfold doMmb; rw [hd], computes_runMmb own s1 ups⟩
  · exact ⟨doAttend c ups, _, rfl, by unfold doAttend; rw [hd], computes_runAttend own s1 ups⟩
  · exact ⟨doAttendB c ups, _, rfl, by unfold doAttendB; rw [hd], computes_runAttendB own s1 ups⟩
  · exact ⟨doVec c, _, rfl, by unfold doVec; rw [hd], computes_runVec own s1⟩
  · exact ⟨doNorm c, _, rfl, by unfold doNorm; rw [hd], computes_runNorm own s1⟩
  · exact ⟨doNormB c, _, rfl, by unfold doNormB; rw [hd], computes_runNormB own s1⟩
  · exact ⟨doQuant c, _, rfl, by unfold doQuant; rw [hd], computes_runQuant own s1⟩
  · exact ⟨doGatherE c, _, rfl, by unfold doGatherE; rw [hd], computes_runGather own s1⟩
  · exact ⟨doCopy c, _, rfl, by unfold doCopy; rw [hd], computes_runCopy own s1⟩
  · exact ⟨doPrecond c, _, rfl, by unfold doPrecond; rw [hd], (computes_runPrecond s1 r).mono (fun k => absurd k.2 (by decide))⟩
  · refine ⟨doUpdate c r.x bad, _, rfl, ?_, (computes_runUpdate s1 r bad).mono (fun k => absurd k.2 (by decide))⟩
    unfold doUpdate
    rw [hd]
    exact if_pos rfl

end Sys2Proof.Machine
end

section
/-! PROOFS. COPY without conversion (06, R156). -/

namespace Sys2Proof.Machine

open Sys2Proof

/-! ## COPY without conversion (06, R156) -/

section
variable {c : Fin 4} {s t u : State} {x : Fin 16}

/-! ### The window of a core -/

/-- The resident sub-windows of core c stand where they stood, with their bytes. -/
structure SameWindow (c : Fin 4) (s t : State) : Prop where
  base : ∀ y, (t.cc y c).resBase = (s.cc y c).resBase
  size : ∀ y, (t.cc y c).resSize = (s.cc y c).resSize
  spad : (t.feed c).spad = (s.feed c).spad

theorem SameWindow.refl (s : State) : SameWindow c s s := ⟨fun _ => rfl, fun _ => rfl, rfl⟩

theorem SameWindow.trans (h : SameWindow c s t) (k : SameWindow c t u) : SameWindow c s u :=
  ⟨fun y => (k.base y).trans (h.base y), fun y => (k.size y).trans (h.size y), k.spad.trans h.spad⟩

theorem sameWindow_of_hub (hh : t.hub = s.hub) (hf : (t.feed c).spad = (s.feed c).spad) : SameWindow c s t := by
  have hcc (y : Fin 16) : t.cc y c = s.cc y c := by rw [State.cc, State.ctx, hh]; rfl
  exact ⟨fun y => by rw [hcc y], fun y => by rw [hcc y], hf⟩

theorem Slices.sameWindow (h : Slices s t) : SameWindow c s t :=
  ⟨fun y => by rw [h.cc y c], fun y => by rw [h.cc y c], by rw [h.rest]; rfl⟩

theorem sameWindow_popHead (s : State) (x : Fin 16) (ev : Bool) : SameWindow c s (s.popHead x c ev) := by
  unfold State.popHead
  exact ⟨fun y => cc_modCC (·.resBase) s x c _ (fun k => by split <;> rfl) y c, fun y => cc_modCC (·.resSize) s x c _ (fun k => by split <;> rfl) y c, rfl⟩

theorem sameWindow_claim (s : State) (x : Fin 16) (k : Claim) : SameWindow c s (s.claim x k) := by
  unfold State.claim State.modTok
  refine ⟨fun y => ?_, fun y => ?_, rfl⟩
  · refine cc_modCC (·.resBase) s x k.die _ ?_ y c
    exact fun _ => rfl
  · refine cc_modCC (·.resSize) s x k.die _ ?_ y c
    exact fun _ => rfl

theorem sameWindow_entered (s : State) (x : Fin 16) (ev : Bool) (cmd : Cmd) (run : Run) : SameWindow c s (s.entered x c ev cmd run) :=
  ⟨fun _ => rfl, fun _ => rfl, (congrArg FeedS.spad (State.modFeed_same s c (fun f => { f with gen := f.gen + 1, stage := stageOf cmd })) :)⟩

theorem sameWindow_layerAdvance (s : State) (x : Fin 16) (cmd : Cmd) : SameWindow c s (s.layerAdvance x cmd) := by
  have planned (p : Option Plan) : SameWindow c s (s.modCtx x (fun k => { k with plan := p })) := by
    have hcc (y : Fin 16) : (s.modCtx x (fun k => { k with plan := p })).cc y c = s.cc y c := by
      by_cases hy : y = x
      · subst hy
        rw [State.cc, State.modCtx_same]; rfl
      · rw [State.cc, State.modCtx_other s x y _ hy]; rfl
    exact ⟨fun y => by rw [hcc y], fun y => by rw [hcc y], rfl⟩
  have ask (s : State) (q : MoveReq) : SameWindow c s (s.askMove q) := sameWindow_of_hub rfl rfl
  have near (s : State) (p : Nat) : SameWindow c s (s.askNear x p) := by
    unfold State.askNear
    split
    · exact ask _ _
    · exact SameWindow.refl s
  have moves (s : State) (old new : List Nat) : SameWindow c s (s.planMoves x old new) := by
    unfold State.planMoves
    exact (frame_foldl SameWindow.refl SameWindow.trans _ _ (fun s _ _ => ask s _) _).trans
      (frame_foldl SameWindow.refl SameWindow.trans _ _ (fun s p _ => near s p) _)
  unfold State.layerAdvance
  split
  · dsimp only
    split
    · exact SameWindow.refl s
    · split
      · exact (planned _).trans (moves _ _ _)
      · exact SameWindow.refl s
  · exact SameWindow.refl s

/-- The dispatch of a command leaves the windows of its core. -/
theorem sameWindow_dispatchCore {isOp : Cmd → Bool} {r : Run} (h : s.dispatchCore c isOp = some (t, r)) : SameWindow c s t := by
  obtain ⟨x, cmd, ev, -, -, -, hs⟩ := dispatchCore_inv h
  have started (s : State) : SameWindow c s (s.startRun x c ev cmd).1 :=
    ((sameWindow_popHead s x ev).trans (frame_foldl SameWindow.refl SameWindow.trans _ _ (fun s k _ => sameWindow_claim s x k) _)).trans
      ((sameWindow_entered _ x ev cmd _).trans (sameWindow_layerAdvance _ x cmd))
  have k := started (s.schedule c).1
  rw [hs] at k
  exact (slices_schedule s c).sameWindow.trans k

/-! ### Reads through the cache -/

/-- Reads through the cache of feed die c: the contexts and the other feed dies stay, and so do the stacks where nothing is marked. -/
structure Caches (c : Fin 4) (s t : State) : Prop where
  hub : t.hub = s.hub
  spad : (t.feed c).spad = (s.feed c).spad
  others : ∀ d, d ≠ c → t.feed d = s.feed d
  quiet : s.quiet = true → t.quiet = true ∧ t.hbm = s.hbm

theorem Caches.refl (s : State) : Caches c s s := ⟨rfl, rfl, fun _ _ => rfl, fun h => ⟨h, rfl⟩⟩

theorem Caches.trans (h : Caches c s t) (k : Caches c t u) : Caches c s u := by
  refine ⟨k.hub.trans h.hub, k.spad.trans h.spad, fun d hd => (k.others d hd).trans (h.others d hd), fun hq => ?_⟩
  obtain ⟨h1, h2⟩ := h.quiet hq
  obtain ⟨k1, k2⟩ := k.quiet h1
  exact ⟨k1, k2.trans h2⟩

theorem caches_modFeed (s : State) {f : FeedS → FeedS} (h : ∀ k, (f k).spad = k.spad) : Caches c s (s.modFeed c f) :=
  ⟨rfl, by rw [State.modFeed_same, h], fun d hd => State.modFeed_other s c d f hd, fun hq => ⟨hq, rfl⟩⟩

theorem Reads.caches (h : Reads s t) (hq : s.quiet = true → t = s) : Caches c s t := by
  have hf (d : Fin 4) : t.feed d = s.feed d := by rw [State.feed, h.feeds]; rfl
  exact ⟨h.hub, by rw [hf], fun d _ => hf d, fun k => by rw [hq k]; exact ⟨k, rfl⟩⟩

theorem caches_cacheTouch (s : State) (x : Fin 16) (k : Nat) : Caches c s (s.cacheTouch x c k) := by
  unfold State.cacheTouch
  dsimp only
  split
  · exact caches_modFeed s (fun _ => rfl)
  · have read := (reads_touchRange s (64 * k) 64 (some c)).caches (c := c) (touchRange_quiet s _ _ _)
    have counted (s : State) : Caches c s s.occasion.2 := ⟨rfl, rfl, fun _ _ => rfl, fun hq => ⟨hq, rfl⟩⟩
    exact (read.trans (counted _)).trans (caches_modFeed _ (fun _ => rfl))

theorem caches_cacheReads (s : State) (x : Fin 16) (rs : List Region) : Caches c s (s.cacheReads x c rs) := by
  unfold State.cacheReads
  split
  · split
    · exact Caches.refl s
    · next hq =>
      exact (frame_foldl Reads.refl Reads.trans _ _ (fun s _ _ => reads_foldl _ (fun s k => reads_touch s _ _) _ s) s).caches (fun h => absurd h hq)
  · exact frame_foldl Caches.refl Caches.trans _ _
      (fun s _ _ => frame_foldl Caches.refl Caches.trans _ _ (fun s k _ => caches_cacheTouch s x k) s) s

theorem Starts.quiet {r : Run} (h : Starts c s t r) (hq : s.quiet = true) : t.quiet = true := by
  rw [State.quiet, h.hbm, h.tiers]
  exact hq

/-! ### Runs of bytes in the window -/

/-- The bytes of one run stand over a memory, at their place in a window. -/
def put (base : Nat) (r : Nat × List PByte) (old : Nat → Byte) (a : Nat) : Byte :=
  if base + r.1 ≤ a ∧ a < base + r.1 + r.2.length then ((r.2[a - (base + r.1)]?).map (·.b)).getD 0 else old a

/-- The runs stand over a memory, each over those before it. -/
def laid (base : Nat) (runs : List (Nat × List PByte)) (old : Nat → Byte) : Nat → Byte :=
  runs.foldl (fun m r => put base r m) old

theorem put_append (base a : Nat) (bs cs : List PByte) (old : Nat → Byte) :
    put base (a, bs ++ cs) old = put base (a + bs.length, cs) (put base (a, bs) old) := by
  funext k
  simp only [put, List.length_append]
  by_cases h1 : base + a ≤ k ∧ k < base + a + bs.length
  · rw [if_pos (by omega), if_neg (by omega), if_pos h1, List.getElem?_append_left (by omega)]
  · by_cases h2 : base + (a + bs.length) ≤ k ∧ k < base + (a + bs.length) + cs.length
    · have hk : k - (base + a) - bs.length = k - (base + (a + bs.length)) := by omega
      rw [if_pos (by omega), if_pos h2, List.getElem?_append_right (by omega), hk]
    · rw [if_neg (by omega), if_neg h2, if_neg h1]

/-- Runs that meet are stored as one, with the same bytes. -/
theorem laid_coalesce (base : Nat) (runs : List (Nat × List PByte)) (old : Nat → Byte) : laid base (coalesce runs) old = laid base runs old := by
  induction runs generalizing old with
  | nil => rfl
  | cons r runs ih =>
    obtain ⟨a, bs⟩ := r
    have hr : laid base ((a, bs) :: runs) old = laid base (coalesce runs) (put base (a, bs) old) := (ih _).symm
    rw [hr, coalesce]
    cases coalesce runs with
    | nil => rfl
    | cons q rest =>
      obtain ⟨b, cs⟩ := q
      dsimp only
      split
      next hb =>
        subst hb
        exact congrArg (laid base rest) (put_append base a bs cs old)
      · rfl

theorem coalesce_end {m : Nat} {runs : List (Nat × List PByte)} (h : ∀ r ∈ runs, r.1 + r.2.length ≤ m) : ∀ r ∈ coalesce runs, r.1 + r.2.length ≤ m := by
  induction runs with
  | nil => exact h
  | cons r runs ih =>
    obtain ⟨a, bs⟩ := r
    have here := h _ List.mem_cons_self
    have rest := ih (fun r hr => h r (List.mem_cons_of_mem _ hr))
    rw [coalesce]
    revert rest
    cases coalesce runs with
    | nil =>
      intro _ r hr
      rw [List.mem_singleton.1 hr]
      exact here
    | cons q l =>
      obtain ⟨b, cs⟩ := q
      intro rest
      dsimp only
      have next := rest _ List.mem_cons_self
      split
      next hb =>
        intro r hr
        rcases List.mem_cons.1 hr with rfl | hr
        · simp only [List.length_append] at *
          omega
        · exact rest r (List.mem_cons_of_mem _ hr)
      · intro r hr
        rcases List.mem_cons.1 hr with rfl | hr
        · exact here
        · exact rest r hr

theorem write_spad_get (f : FeedS) (o : Nat) (bs : List PByte) : (f.write o bs false).spad.get = put 0 (o, bs) f.spad.get := by
  funext a
  show (f.spad.write o (bs.map (·.b))).get a = _
  rw [Mem.get_write]
  simp [put]

theorem write_nil_get (f : FeedS) (o : Nat) (tr : Bool) : (f.write o [] tr).spad.get = f.spad.get := by
  cases tr with
  | false => rw [write_spad_get]; funext a; exact if_neg (by simp)
  | true =>
    funext a
    show (f.spad.write o []).get a = _
    rw [Mem.get_write]
    exact if_neg (by simp)

/-- A run that ends in the resident sub-window. -/
theorem wwrite_put {a : Nat} {bs : List PByte} (h : a + bs.length ≤ (s.cc x c).resSize) :
    ((s.wwrite x c a bs).feed c).spad.get = put (s.cc x c).resBase (a, bs) (s.feed c).spad.get := by
  by_cases ha : a < (s.cc x c).resSize
  · rw [wwrite_window bs ha, State.modFeed_same, write_spad_get]
    funext k
    simp only [put, Nat.zero_add]
  · have hb : bs = [] := List.length_eq_zero_iff.1 (by omega)
    subst hb
    have hput : put (s.cc x c).resBase (a, []) (s.feed c).spad.get = (s.feed c).spad.get := by
      funext k
      exact if_neg (by simp)
    rw [hput]
    unfold State.wwrite
    split
    · rw [State.modFeed_same, write_nil_get]
    · rfl

theorem wwrite_hub (s : State) (x : Fin 16) (c : Fin 4) (a : Nat) (bs : List PByte) : (s.wwrite x c a bs).hub = s.hub := by
  unfold State.wwrite
  split <;> rfl

theorem wwriteAll_laid (runs : List (Nat × List PByte)) (s : State) (h : ∀ r ∈ runs, r.1 + r.2.length ≤ (s.cc x c).resSize) :
    ((runs.foldl (fun s r => s.wwrite x c r.1 r.2) s).feed c).spad.get = laid (s.cc x c).resBase runs (s.feed c).spad.get := by
  induction runs generalizing s with
  | nil => rfl
  | cons r runs ih =>
    have hcc : (s.wwrite x c r.1 r.2).cc x c = s.cc x c := by rw [State.cc, State.ctx, wwrite_hub]; rfl
    have step := ih (s.wwrite x c r.1 r.2) (fun q hq => by rw [hcc]; exact h q (List.mem_cons_of_mem _ hq))
    rw [List.foldl_cons, step, hcc, wwrite_put (h r List.mem_cons_self)]
    rfl

theorem rwriteRuns_laid {runs : List (Nat × List PByte)} (h : ∀ r ∈ runs, r.1 + r.2.length ≤ (s.cc x c).resSize) :
    ((s.rwriteRuns x 0 c runs).feed c).spad.get = laid (s.cc x c).resBase runs (s.feed c).spad.get := by
  rw [← laid_coalesce]
  exact wwriteAll_laid _ s (coalesce_end h)

/-! ### Rows of a tensor -/

/-- Row i of tensor d holds n bytes. -/
def rowRuns (d : Tensor) (rows : Nat) (row : Nat → List PByte) : List (Nat × List PByte) :=
  (List.range rows).map (fun i => (d.rowAddr i, row i))

theorem laid_succ (base : Nat) (d : Tensor) (rows : Nat) (row : Nat → List PByte) (old : Nat → Byte) :
    laid base (rowRuns d (rows + 1) row) old = put base (d.rowAddr rows, row rows) (laid base (rowRuns d rows row) old) := by
  simp only [rowRuns, laid, List.range_succ, List.map_append, List.foldl_append, List.map_cons, List.map_nil, List.foldl_cons, List.foldl_nil]

/-- A row ends before a later one begins. -/
theorem rowAddr_before {d : Tensor} {i k n : Nat} (hn : n ≤ d.pitch) (h : i < k) : d.rowAddr i + n ≤ d.rowAddr k := by
  have := Nat.mul_le_mul_right d.pitch (show i + 1 ≤ k from h)
  rw [Nat.add_mul] at this
  simp only [Tensor.rowAddr]
  omega

variable {d : Tensor} {rows n base : Nat} {row : Nat → List PByte} {old : Nat → Byte}

theorem laid_in_row (hl : ∀ i < rows, (row i).length = n) (hn : n ≤ d.pitch) {i j : Nat} (hi : i < rows) (hj : j < n) :
    laid base (rowRuns d rows row) old (base + d.rowAddr i + j) = (((row i)[j]?).map (·.b)).getD 0 := by
  induction rows with
  | zero => omega
  | succ m ih =>
    rw [laid_succ]
    have hm := hl m (by omega)
    by_cases h : i = m
    · subst h
      simp only [put]
      rw [if_pos (by omega), Nat.add_sub_cancel_left]
    · have hlt : i < m := by omega
      have before := rowAddr_before hn hlt
      simp only [put]
      rw [if_neg (by omega)]
      exact ih (fun i hi => hl i (by omega)) hlt

theorem laid_elsewhere (hl : ∀ i < rows, (row i).length = n) {a : Nat}
    (ha : ∀ i < rows, a < base + d.rowAddr i ∨ base + d.rowAddr i + n ≤ a) : laid base (rowRuns d rows row) old a = old a := by
  induction rows with
  | zero => rfl
  | succ m ih =>
    rw [laid_succ]
    have hm := hl m (by omega)
    have out := ha m (by omega)
    simp only [put]
    rw [if_neg (by omega)]
    exact ih (fun i hi => hl i (by omega)) (fun i hi => ha i (by omega))

/-- A run's number, its poison aside, changes no feed die. -/
theorem notePoison_feed (s : State) (r : Run) (p : Bool) (d : Fin 4) : (s.notePoison r p).feed d = s.feed d := by
  unfold State.notePoison
  split <;> rfl

end

/-- Settles O52: the reads leave the scratchpad, and the rows are laid in the window, apart from each other. -/
theorem copyMovesBytes : Obligations.CopyMovesBytes := by
  intro s s1 u c r ts td rows cols n row hu hd hbit hts htd hcols hrows hu1 hrow hsp hlen hn hin
  have start := starts_dispatchCore hd
  have window := sameWindow_dispatchCore hd
  have reads := caches_cacheReads (c := c) s1 r.x r.cmd.regions
  rw [← hu1] at reads
  have seen := window.trans (sameWindow_of_hub reads.hub reads.spad)
  have hcopy : s1.runCopy r c = (u.rwriteRuns r.x td.space c (rowRuns td rows row)).notePoison r (runsPoisoned (rowRuns td rows row)) := by
    subst hts htd hcols hrows hu1 hrow
    simp only [State.runCopy, hbit, Bool.false_eq_true, if_false, rowRuns]
  rw [hsp] at hcopy
  have stored := computes_rwriteRuns (w := True) (c := c) (fun _ => rfl) u r.x (space := 0) (rowRuns td rows row)
  have noted := computes_notePoison (w := True) (c := c) (u.rwriteRuns r.x 0 c (rowRuns td rows row)) r (runsPoisoned (rowRuns td rows row))
  obtain ⟨hb, -, hf⟩ := (stored.trans noted).own trivial
  rw [← hcopy] at hb hf
  have fits : ∀ q ∈ rowRuns td rows row, q.1 + q.2.length ≤ (u.cc r.x c).resSize := by
    intro q hq
    obtain ⟨i, hi, rfl⟩ := List.mem_map.1 hq
    have hi := List.mem_range.1 hi
    have before := rowAddr_before hn hi
    rw [seen.size]
    simp only [hlen i hi]
    simp only [Tensor.rowAddr] at before ⊢
    omega
  have spad : ((s1.runCopy r c).feed c).spad.get = laid (s.cc r.x c).resBase (rowRuns td rows row) (s.feed c).spad.get := by
    rw [hcopy, notePoison_feed, rwriteRuns_laid fits, seen.base, seen.spad]
  refine ⟨s1.runCopy r c, ?_, ?_, hb, fun hq => ?_, fun d hd => ?_, fun i hi j hj => ?_, fun a ha => ?_⟩
  · refine (inDies_up (doCopy c) _ hu).trans (congrArg _ ?_)
    unfold doCopy
    rw [hd]
  · exact start.work.trans (computes_runCopy (w := False) (fun h => h.elim) s1).work
  · exact hb.trans ((reads.quiet (start.quiet hq)).2.trans start.hbm)
  · exact (hf d hd).trans ((reads.others d hd).trans (start.feeds d hd))
  · rw [spad, laid_in_row hlen hn hi hj]
  · rw [spad, laid_elsewhere hlen ha]

end Sys2Proof.Machine
end

section
/-! PROOFS. Waits past their limits (07, 09, 11, 13). -/

namespace Sys2Proof.Machine

open Sys2Proof

/-! ## Waits past their limits (07, 09, 11, 13) -/

/-! ### What a store keeps -/

/-- What each part of a store keeps: an entry, a change of the tiers, of a stack or of the feed dies, and a choice. -/
structure Storing (R : State → State → Prop) : Prop where
  refl : ∀ s, R s s
  trans : ∀ {s t u}, R s t → R t u → R s u
  post : ∀ s x e, R s (s.post x e)
  tiers : ∀ s f, R s (s.modTiers f)
  stack : ∀ s n f, R s (s.modStack n f)
  feeds : ∀ (s : State) fs, R s { s with feeds := fs }
  occasion : ∀ s, R s s.occasion.2

section
variable {R : State → State → Prop} {s t : State}

theorem Storing.foldl {α : Type} (h : Storing R) (f : State → α → State) (l : List α) (hf : ∀ s a, R s (f s a)) (s : State) : R s (l.foldl f s) :=
  frame_foldl h.refl h.trans f l (fun s a _ => hf s a) s

theorem Storing.foldl_pair {α β : Type} (h : Storing R) (f : State × β → α → State × β) (l : List α) (hf : ∀ r a, R r.1 (f r a).1)
    (r : State × β) : R r.1 (l.foldl f r).1 := by
  induction l generalizing r with
  | nil => exact h.refl r.1
  | cons a l ih => exact h.trans (hf r a) (ih (f r a))

theorem Storing.deepLowCheck (h : Storing R) (s : State) (ch : Fin 16) (n : Nat) : R s (s.deepLowCheck ch n) := by
  unfold State.deepLowCheck
  dsimp only
  split
  · refine h.trans (h.tiers s _) (h.foldl _ _ (fun s x => ?_) _)
    exact frame_ite (h.post s x _) (h.refl s)
  · exact frame_ite (h.tiers s _) (h.refl s)

theorem Storing.placeBlock (h : Storing R) {p j : Nat} {bs : List PByte} (hp : s.placeBlock p j bs = some t) : R s t := by
  have put (u : State) (g n ch : Nat) : R u ((u.putDeep p j g n bs).deepLowOf ch) := h.trans (h.tiers u _) (h.deepLowCheck _ _ _)
  unfold State.placeBlock at hp
  dsimp only at hp
  split at hp
  · cases hp
    exact put s _ _ _
  · split at hp
    · cases hp
    · cases hp
      exact h.trans (h.trans (h.occasion s) (h.occasion _)) (put _ _ _ _)

theorem Storing.writeDeepBlock (h : Storing R) (s : State) (x : Fin 16) (p j off : Nat) (bs : List PByte) : R s (s.writeDeepBlock x p j off bs) := by
  unfold State.writeDeepBlock
  dsimp only
  split
  · exact h.tiers s _
  · split
    next hp => exact h.placeBlock hp
    · exact frame_ite (h.refl s) (h.tiers s _)

theorem Storing.writeHome (h : Storing R) (s : State) (x : Fin 16) (home : Home) (p off : Nat) (bs : List PByte) :
    R s (s.writeHome x home p off bs) := by
  unfold State.writeHome
  cases home with
  | placed n f => exact h.foldl_pair _ _ (fun r _ => h.stack r.1 _ _) (s, bs)
  | spread slot => exact h.foldl_pair _ _ (fun r _ => h.stack r.1 _ _) (s, bs)
  | deep => exact h.foldl _ _ (fun s _ => h.writeDeepBlock s _ _ _ _ _) s

theorem Storing.uwrite (h : Storing R) (s : State) (a : Nat) (bs : List PByte) : R s (s.uwrite a bs) := by
  unfold State.uwrite
  refine h.trans (h.feeds s _) (h.foldl_pair _ _ (fun r q => ?_) (_, bs))
  dsimp only
  split
  · exact h.refl _
  · split
    · exact h.tiers _ _
    · exact h.writeHome _ _ _ _ _ _

theorem Storing.rwrite (h : Storing R) (s : State) (x : Fin 16) (space : Nat) (c : Fin 4) (a : Nat) (bs : List PByte) :
    R s (s.rwrite x space c a bs) := by
  unfold State.rwrite State.wwrite
  split
  · split
    · exact h.feeds s _
    · exact h.refl s
  · exact h.uwrite s a bs

theorem Storing.poisonRegion (h : Storing R) (s : State) (x : Fin 16) (c : Fin 4) (r : Region) : R s (s.poisonRegion x c r) :=
  h.foldl _ _ (fun s _ => h.rwrite s _ _ _ _ _) s

theorem storing_faults : Storing (fun s t => t.faults = s.faults) where
  refl _ := rfl
  trans h k := k.trans h
  post s x e := by rcases post_cases s x e with h | h <;> rw [h] <;> rfl
  tiers _ _ := rfl
  stack _ _ _ := rfl
  feeds _ _ := rfl
  occasion _ := rfl

theorem storing_arrays : Storing (fun s t => t.arrays = s.arrays) where
  refl _ := rfl
  trans h k := k.trans h
  post s x e := by rcases post_cases s x e with h | h <;> rw [h] <;> rfl
  tiers _ _ := rfl
  stack _ _ _ := rfl
  feeds _ _ := rfl
  occasion _ := rfl

end

/-! ### A command fails at the head of its queue -/

/-- What a command of context y that fails at its head keeps: its cores, the records of faults, tokens, and the other contexts. -/
structure Drops (y : Fin 16) (s t : State) : Prop where
  cores : t.cores = s.cores
  faults : t.faults = s.faults
  state : ∀ z, (t.ctx z).state = (s.ctx z).state
  tokens : ∀ z, (t.ctx z).tokens = (s.ctx z).tokens
  others : ∀ z, z ≠ y → t.ctx z = { s.ctx z with formed := (t.ctx z).formed }

/-- Nothing leaves a queue. -/
structure KeepsQueues (s t : State) : Prop where
  core : SameQueues s t
  hub : ∀ z, (t.ctx z).fabric = (s.ctx z).fabric ∧ (t.ctx z).memory = (s.ctx z).memory

section
variable {y : Fin 16} {s t u : State}

theorem Drops.refl (s : State) : Drops y s s := ⟨rfl, rfl, fun _ => rfl, fun _ => rfl, fun _ _ => rfl⟩

theorem Drops.trans (h : Drops y s t) (k : Drops y t u) : Drops y s u := by
  refine ⟨k.cores.trans h.cores, k.faults.trans h.faults, fun z => (k.state z).trans (h.state z), fun z => (k.tokens z).trans (h.tokens z), fun z hz => ?_⟩
  have hk := k.others z hz
  rw [h.others z hz] at hk
  exact hk

theorem KeepsQueues.refl (s : State) : KeepsQueues s s := ⟨fun _ _ => ⟨rfl, rfl⟩, fun _ => ⟨rfl, rfl⟩⟩

theorem KeepsQueues.trans (h : KeepsQueues s t) (k : KeepsQueues t u) : KeepsQueues s u :=
  ⟨h.core.trans k.core, fun z => ⟨(k.hub z).1.trans (h.hub z).1, (k.hub z).2.trans (h.hub z).2⟩⟩

theorem Tidy.drops (h : Tidy y s t) : Drops y s t := by
  refine ⟨by rw [h.rest], by rw [h.rest], fun z => ?_, fun z => ?_, fun z hz => by rw [h.others z hz]⟩ <;>
  · by_cases hz : z = y
    · subst hz; rw [h.own]
    · rw [h.others z hz]

theorem Tidy.keepsQueues (h : Tidy y s t) : KeepsQueues s t := by
  refine ⟨h.calm.sameQueues, fun z => ?_⟩
  by_cases hz : z = y
  · subst hz; rw [h.own]; exact ⟨rfl, rfl⟩
  · rw [h.others z hz]; exact ⟨rfl, rfl⟩

theorem Written.drops (h : Written s t) (hf : t.faults = s.faults) : Drops y s t :=
  ⟨h.cores, hf, fun z => by rw [h.ctx z], fun z => by rw [h.ctx z], fun z _ => h.ctx z⟩

theorem Written.keepsQueues (h : Written s t) : KeepsQueues s t :=
  ⟨fun z d => by rw [State.cc, h.ctx z]; exact ⟨rfl, rfl⟩, fun z => by rw [h.ctx z]; exact ⟨rfl, rfl⟩⟩

/-- A change of context y that keeps its state and tokens. -/
theorem drops_modCtx (s : State) {f : Ctx → Ctx} (h : (f (s.ctx y)).state = (s.ctx y).state ∧ (f (s.ctx y)).tokens = (s.ctx y).tokens) :
    Drops y s (s.modCtx y f) := by
  refine ⟨rfl, rfl, fun z => ?_, fun z => ?_, fun z hz => by rw [State.modCtx_other s y z f hz]⟩
  · by_cases hz : z = y
    · subst hz; rw [State.modCtx_same]; exact h.1
    · rw [State.modCtx_other s y z f hz]
  · by_cases hz : z = y
    · subst hz; rw [State.modCtx_same]; exact h.2
    · rw [State.modCtx_other s y z f hz]

theorem drops_modCC (s : State) (c : Fin 4) (f : CtxCore → CtxCore) : Drops y s (s.modCC y c f) := drops_modCtx s ⟨rfl, rfl⟩

theorem keepsQueues_modCC (s : State) (c : Fin 4) {f : CtxCore → CtxCore} (h : ∀ k, (f k).main = k.main ∧ (f k).eval = k.eval) :
    KeepsQueues s (s.modCC y c f) := by
  refine ⟨sameQueues_modCC s y c f h, fun z => ?_⟩
  by_cases hz : z = y
  · subst hz; rw [State.modCC_ctx_same]; exact ⟨rfl, rfl⟩
  · rw [State.modCC_ctx_other s y z c f hz]; exact ⟨rfl, rfl⟩

/-- The poison of what a command would have written. -/
theorem poisoned_written (s : State) (x : Fin 16) (cmd : Cmd) (p : Bool) :
    Written s (if p then (cmd.regions.filter (fun g => g.write && !g.scratch)).foldl (fun s g => s.poisonRegion x (ix 4 g.core) g) s else s) :=
  frame_ite (written_foldl _ _ (fun s _ => written_poisonRegion s _ _ _) s) (Written.refl s)

theorem poisoned_faults (s : State) (x : Fin 16) (cmd : Cmd) (p : Bool) :
    (if p then (cmd.regions.filter (fun g => g.write && !g.scratch)).foldl (fun s g => s.poisonRegion x (ix 4 g.core) g) s else s).faults = s.faults := by
  split
  · exact storing_faults.foldl _ _ (fun s _ => storing_faults.poisonRegion s _ _ _) s
  · rfl

/-! #### The status of a group -/

theorem drops_almanac (s : State) (a : Almanac) : Drops y s (s.modCtx y (fun k => { k with almanac := some a })) ∧
    KeepsQueues s (s.modCtx y (fun k => { k with almanac := some a })) := by
  refine ⟨drops_modCtx s ⟨rfl, rfl⟩, fun z d => ?_, fun z => ?_⟩
  · by_cases hz : z = y
    · subst hz; rw [State.cc, State.modCtx_same]; exact ⟨rfl, rfl⟩
    · rw [State.cc, State.modCtx_other s y z _ hz]; exact ⟨rfl, rfl⟩
  · by_cases hz : z = y
    · subst hz; rw [State.modCtx_same]; exact ⟨rfl, rfl⟩
    · rw [State.modCtx_other s y z _ hz]; exact ⟨rfl, rfl⟩

/-- A change of the entry of a group of context y. -/
theorem putAlm_drops (s : State) (g off : Nat) (bs : List Byte) : Drops y s (s.putAlm y g off bs) ∧ KeepsQueues s (s.putAlm y g off bs) := by
  unfold State.putAlm
  split
  · exact ⟨Drops.refl s, KeepsQueues.refl s⟩
  · next a _ =>
    split
    · exact ⟨Drops.refl s, KeepsQueues.refl s⟩
    · next e _ =>
      obtain ⟨d, q⟩ := drops_almanac (y := y) s { a with entries := ainsert g (putBytes e off bs) a.entries }
      have stored := written_uwrite (s.modCtx y (fun k => { k with almanac := some { a with entries := ainsert g (putBytes e off bs) a.entries } }))
        (a.base + 256 * g + off) (bs.map (fun b => ⟨b, false⟩))
      exact ⟨d.trans (stored.drops (storing_faults.uwrite _ _ _)), q.trans stored.keepsQueues⟩

theorem setStatus_drops (s : State) (g i : Nat) (v : Bool) : Drops y s (s.setStatus y g i v) ∧ KeepsQueues s (s.setStatus y g i v) := by
  unfold State.setStatus
  split
  · exact ⟨Drops.refl s, KeepsQueues.refl s⟩
  · exact putAlm_drops s _ _ _

theorem endQueued_drops (s : State) (c : Fin 4) (cmd : Cmd) : Drops y s (s.endQueued y c cmd) ∧ KeepsQueues s (s.endQueued y c cmd) := by
  have chain {s t u : State} (h : Drops y s t ∧ KeepsQueues s t) (k : Drops y t u ∧ KeepsQueues t u) : Drops y s u ∧ KeepsQueues s u :=
    ⟨h.1.trans k.1, h.2.trans k.2⟩
  have none (s : State) : Drops y s s ∧ KeepsQueues s s := ⟨Drops.refl s, KeepsQueues.refl s⟩
  have freed (s : State) : Drops y s (s.modCC y c (fun k => { k with setPending := false })) ∧
      KeepsQueues s (s.modCC y c (fun k => { k with setPending := false })) := ⟨drops_modCC s c _, keepsQueues_modCC s c (fun _ => ⟨rfl, rfl⟩)⟩
  unfold State.endQueued
  split
  · exact none s
  · dsimp only
    have first : Drops y s (if (s.cc y c).setPending then (s.setStatus y (groupAt cmd.desc 8) 0 false).modCC y c
        (fun k => { k with setPending := false }) else s) ∧ KeepsQueues s (if (s.cc y c).setPending then
        (s.setStatus y (groupAt cmd.desc 8) 0 false).modCC y c (fun k => { k with setPending := false }) else s) := by
      split
      · exact chain (setStatus_drops s _ _ _) (freed _)
      · exact none s
    split
    · split
      · exact chain first (setStatus_drops _ _ _ _)
      · exact first
    · exact first

/-! #### The queues of cores and of the hub -/

/-- A command that fails with a reason at the head of its queue. -/
theorem reported_fails {x : Fin 16} (ha : (s.ctx x).state = .active) (cmd : Cmd) (reason : Nat) (p : Bool) :
    Reported (s.report x cmd (Done.fails reason p)) x cmd (Done.fails reason p) := reported_report s x cmd _ ha (.inr (.inl rfl))

theorem failHeadCore_spec {c : Fin 4} {ev : Bool} (cmd : Cmd) (reason : Nat) (p : Bool) (ha : (s.ctx y).state = .active)
    (hs : s.spanFor y c ev = none) : ∃ t, s.failHeadCore y c ev cmd reason p = t ∧ Reported t y cmd (Done.fails reason p) ∧ Drops y s t ∧
      (t.cc y c).main = (if ev then (s.cc y c).main else (s.cc y c).main.tail) ∧
      (t.cc y c).eval = (if ev then (s.cc y c).eval.tail else (s.cc y c).eval) := by
  obtain ⟨d0, q0⟩ := endQueued_drops (y := y) s c cmd
  have d1 := d0.trans (drops_modCC (s.endQueued y c cmd) c (fun k => if ev then { k with eval := k.eval.tail, admitted := k.admitted - 1, evalWait := 0, evalStarve := 0 }
    else { k with main := k.main.tail, wait := 0, starve := 0 }))
  have popped := popHead_queues (s.endQueued y c cmd) y c ev
  rw [(q0.core y c).1, (q0.core y c).2] at popped
  have shadow : Drops y ((s.endQueued y c cmd).popHead y c ev) (((s.endQueued y c cmd).popHead y c ev).dropShadows c) :=
    ⟨rfl, rfl, fun _ => rfl, fun _ => rfl, fun _ _ => rfl⟩
  have wr := poisoned_written (((s.endQueued y c cmd).popHead y c ev).dropShadows c) y cmd p
  have d2 := (d1.trans shadow).trans (wr.drops (poisoned_faults (((s.endQueued y c cmd).popHead y c ev).dropShadows c) y cmd p))
  unfold State.failHeadCore
  dsimp only
  generalize (if p then _ else ((s.endQueued y c cmd).popHead y c ev).dropShadows c) = u at wr d2 ⊢
  have hspan : u.spanFor y c ev = none := by
    rw [State.spanFor, State.core, d2.cores]
    exact hs
  rw [hspan]
  have tidied := (tidy_report u y cmd (Done.fails reason p)).trans (tidy_emptyBoundary _ y c ev)
  have queues := wr.keepsQueues.trans tidied.keepsQueues
  refine ⟨_, rfl, ?_, d2.trans tidied.drops, (queues.core y c).1.trans popped.1, (queues.core y c).2.trans popped.2⟩
  exact (reported_fails ((d2.state y).trans ha) cmd reason p).mono (tidy_emptyBoundary _ y c ev).formed

theorem failHeadQueue_spec {fab : Bool} (cmd : Cmd) (reason : Nat) (p : Bool) (ha : (s.ctx y).state = .active) :
    ∃ t, s.failHeadQueue y fab cmd reason p = t ∧ Reported t y cmd (Done.fails reason p) ∧ Drops y s t ∧
      (t.ctx y).fabric = (if fab then (s.ctx y).fabric.tail else (s.ctx y).fabric) ∧
      (t.ctx y).memory = (if fab then (s.ctx y).memory else (s.ctx y).memory.tail) := by
  unfold State.failHeadQueue
  dsimp only
  have d1 : Drops y s (s.modCtx y (fun k => if fab then { k with fabric := k.fabric.tail, fabricWait := 0, fabricStarve := 0 }
    else { k with memory := k.memory.tail, memoryWait := 0 })) := drops_modCtx s (by cases fab <;> exact ⟨rfl, rfl⟩)
  have hq : ∀ {k : Ctx}, ((s.modCtx y (fun k => if fab then { k with fabric := k.fabric.tail, fabricWait := 0, fabricStarve := 0 }
      else { k with memory := k.memory.tail, memoryWait := 0 })).ctx y) = k →
      k.fabric = (if fab then (s.ctx y).fabric.tail else (s.ctx y).fabric) ∧ k.memory = (if fab then (s.ctx y).memory else (s.ctx y).memory.tail) := by
    intro k hk
    rw [State.modCtx_same] at hk
    subst hk
    cases fab <;> exact ⟨rfl, rfl⟩
  have popped := hq rfl
  generalize (s.modCtx y (fun k => if fab then { k with fabric := k.fabric.tail, fabricWait := 0, fabricStarve := 0 }
    else { k with memory := k.memory.tail, memoryWait := 0 })) = v at d1 popped ⊢
  have wr := poisoned_written v y cmd p
  have d2 := d1.trans (wr.drops (poisoned_faults v y cmd p))
  generalize (if p then _ else v) = u at wr d2 ⊢
  have tidied := tidy_report u y cmd (Done.fails reason p)
  have queues := (wr.keepsQueues.trans tidied.keepsQueues).hub y
  exact ⟨_, rfl, reported_fails ((d2.state y).trans ha) cmd reason p, d2.trans tidied.drops, queues.1.trans popped.1, queues.2.trans popped.2⟩

/-- A command that waits at the head of queue q of context y leaves it, failed. -/
structure FailsWaiting (q : QRef) (y : Fin 16) (c : Option (Fin 4)) (ev : Bool) (cmd : Cmd) (reason : Nat) (p : Bool) (s t : State) : Prop where
  reported : Reported t y cmd (Done.fails reason p)
  drops : Drops y s t
  core : ∀ d, c = some d → (t.cc y d).main = (if ev then (s.cc y d).main else (s.cc y d).main.tail) ∧
    (t.cc y d).eval = (if ev then (s.cc y d).eval.tail else (s.cc y d).eval)
  fabric : q = .fabric y → (t.ctx y).fabric = (s.ctx y).fabric.tail
  memory : q = .memory y → (t.ctx y).memory = (s.ctx y).memory.tail

variable {q : QRef} {x : Fin 16} {c : Option (Fin 4)} {ev : Bool} {cmd : Cmd} {n : Nat}

theorem failWaiting_spec (hw : s.waiting q x = some (c, ev, cmd, n)) (ha : (s.ctx (ctxOfQueue q x)).state = .active)
    (hs : ∀ d, c = some d → s.spanFor (ctxOfQueue q x) d ev = none) (reason : Nat) (p : Bool) :
    ∃ t, s.failWaiting q x cmd ev reason p = t ∧ FailsWaiting q (ctxOfQueue q x) c ev cmd reason p s t := by
  cases q with
  | core d =>
    have hc : c = some d := by
      simp only [State.waiting] at hw
      split at hw
      · cases hw; rfl
      · cases hw
    subst hc
    obtain ⟨t, ht, hr, hd, hm, he⟩ := failHeadCore_spec cmd reason p ha (hs d rfl)
    exact ⟨t, ht, hr, hd, fun k hk => by cases hk; exact ⟨hm, he⟩, fun h => (by cases h), fun h => (by cases h)⟩
  | fabric z =>
    have hc : c = none := by
      obtain ⟨k, -, hk⟩ := Option.map_eq_some_iff.1 hw
      cases hk; rfl
    obtain ⟨t, ht, hr, hd, hf, -⟩ := failHeadQueue_spec (fab := true) cmd reason p ha
    exact ⟨t, ht, hr, hd, fun d hk => absurd (hc.symm.trans hk) nofun, fun _ => hf, fun h => (by cases h)⟩
  | memory z =>
    have hc : c = none := by
      obtain ⟨k, -, hk⟩ := Option.map_eq_some_iff.1 hw
      cases hk; rfl
    obtain ⟨t, ht, hr, hd, -, hm⟩ := failHeadQueue_spec (fab := false) cmd reason p ha
    exact ⟨t, ht, hr, hd, fun d hk => absurd (hc.symm.trans hk) nofun, fun h => (by cases h), fun _ => hm⟩

/-! ### Runs past their watchdog -/

variable {r : Run}

/-- The run as its watchdog leaves it. -/
def Run.watched (r : Run) : Run := { r with busy := false, out := { r.out with reason := 0x0223, failed := true, poisoned := true } }

theorem failRun_detected (s : State) (r : Run) (reason : Nat) : (s.failRun r reason).faults = s.faults :=
  storing_faults.foldl _ _ (fun s _ => storing_faults.poisonRegion s _ _ _) s

theorem failRun_written (s : State) (r : Run) : Written s
    ((r.cmd.regions.filter (fun g => g.write && !g.scratch)).foldl (fun s g => s.poisonRegion r.x (ix 4 g.core) g) s) :=
  written_foldl _ _ (fun s _ => written_poisonRegion s _ _ _) s

/-- A failed run as the failure of run r leaves it. -/
def Run.failsWith (r : Run) (reason : Nat) (k : Run) : Run :=
  if k.id = r.id then { k with busy := false, out := { k.out with reason := reason, failed := true, poisoned := true } } else k

theorem failRun_core (s : State) (r : Run) (reason : Nat) (d : Fin 4) :
    (s.failRun r reason).core d = { s.core d with running := (s.core d).running.map (r.failsWith reason) } := by
  unfold State.failRun
  dsimp only
  rw [modRun_core]
  simp only [State.core]
  rw [(failRun_written s r).cores]
  rfl

theorem failRun_ctx (s : State) (r : Run) (reason : Nat) (z : Fin 16) :
    ((s.failRun r reason).ctx z).fabricRun = (s.ctx z).fabricRun.map (r.failsWith reason) ∧
      ((s.failRun r reason).ctx z).memoryRun = (s.ctx z).memoryRun.map (r.failsWith reason) := by
  unfold State.failRun
  dsimp only
  rw [modRun_ctx, (failRun_written s r).ctx z]
  exact ⟨rfl, rfl⟩

theorem failsWith_self (r : Run) : r.failsWith 0x0223 r = r.watched := if_pos rfl

theorem onlyWork_watchdogFail (s : State) (r : Run) : OnlyWork s (s.watchdogFail r) :=
  (onlyWork_failRun s r _).trans (onlyWork_detect _ _)

theorem getElem?_failsWith {l : List Run} {i : Nat} (h : l[i]? = some r) : (l.map (r.failsWith 0x0223))[i]? = some r.watched := by
  rw [List.getElem?_map, h]
  exact congrArg some (failsWith_self r)

/-! ### Arrays of a core that stops -/

/-- The time of an array's last row moves, and nothing else of the arrays. -/
structure StopsRows (s t : State) : Prop where
  arr : ∀ a, t.arr a = { s.arr a with lastIssue := (t.arr a).lastIssue }
  core : ∀ d, (t.core d).running = (s.core d).running
  faults : t.faults = s.faults

theorem stopsRows_modArr (s : State) (a : Fin 8) (m : Nat) : StopsRows s (s.modArr a (fun t => { t with lastIssue := m })) := by
  refine ⟨fun b => ?_, fun _ => rfl, rfl⟩
  by_cases hb : b = a
  · subst hb; rw [State.modArr_same]
  · rw [State.modArr_other s a b _ hb]

theorem StopsRows.refl (s : State) : StopsRows s s := ⟨fun _ => rfl, fun _ => rfl, rfl⟩

theorem StopsRows.trans (h : StopsRows s t) (k : StopsRows t u) : StopsRows s u := by
  refine ⟨fun a => ?_, fun d => (k.core d).trans (h.core d), k.faults.trans h.faults⟩
  have hk := k.arr a
  rw [h.arr a] at hk
  exact hk

theorem stopsRows_stopIssue (s : State) (d : Fin 4) : StopsRows s (s.stopIssue d) := by
  have rows := frame_foldl StopsRows.refl StopsRows.trans (fun s a => s.modArr a (fun t => { t with lastIssue := s.arrayTime })) (s.core d).issuing
    (fun s a _ => stopsRows_modArr s a _) s
  refine rows.trans ⟨fun _ => rfl, fun e => ?_, rfl⟩
  unfold State.stopIssue
  show ((State.modCore _ d _).core e).running = _
  by_cases he : e = d
  · subst he; rw [State.modCore_same]
  · rw [State.modCore_other _ _ _ _ he]

theorem failRun_arrays (s : State) (r : Run) (reason : Nat) : (s.failRun r reason).arrays = s.arrays :=
  storing_arrays.foldl _ _ (fun s _ => storing_arrays.poisonRegion s _ _ _) s

/-- Core d leaves its work after the watchdog of run r. -/
def State.watchedCore (s : State) (d : Fin 4) (r : Run) : State :=
  ((((s.watchdogFail r).stopIssue d).modCore d (fun k => { k with epi := [] })).modArr (arrayOf d 0) ArrayS.clear).modArr (arrayOf d 1) ArrayS.clear

theorem watchedCore_spec {d : Fin 4} (hr : (s.core d).running = some r) :
    OnlyWork s (s.watchedCore d r) ∧ ((s.watchedCore d r).core d).running = some r.watched ∧ ((s.watchedCore d r).core d).epi = [] ∧
      (∀ b, (s.watchedCore d r).arr (arrayOf d b) =
        { (s.arr (arrayOf d b)).clear with lastIssue := ((s.watchedCore d r).arr (arrayOf d b)).lastIssue }) ∧
      (s.watchedCore d r).faults.detected = s.faults.detected ++ [(s.faultNow 1 0x0223 0x0B).ofCmd r.x r.cmd] := by
  have stop := stopsRows_stopIssue (s.watchdogFail r) d
  have harr (a : Fin 8) : (s.watchdogFail r).arr a = s.arr a := by
    show (s.failRun r 0x0223).arrays[a] = _
    rw [failRun_arrays]; rfl
  refine ⟨?_, ?_, ?_, fun b => ?_, ?_⟩
  · exact (onlyWork_watchdogFail s r).trans (((onlyWork_stopIssue _ d).trans (onlyWork_modCore _ d _)).trans
      ((onlyWork_modArr _ _ _).trans (onlyWork_modArr _ _ _)))
  · show ((State.modCore _ d _).core d).running = _
    rw [State.modCore_same]
    refine (stop.core d).trans ?_
    show ((s.failRun r 0x0223).core d).running = _
    rw [failRun_core, hr]
    exact congrArg some (failsWith_self r)
  · show ((State.modCore _ d _).core d).epi = _
    rw [State.modCore_same]
  · have hb : coreOfArray (arrayOf d b) = d := (eq_arrayOf_iff _ d).2 (by
      cases b using Fin.cases with
      | zero => exact .inl rfl
      | succ b => exact .inr (congrArg _ (congrArg Fin.succ (Subsingleton.elim b 0))))
    rw [State.watchedCore, arr_both, if_pos hb, State.modCore_arr, stop.arr, harr]
    rfl
  · show ((s.watchdogFail r).stopIssue d).faults.detected = _
    rw [stop.faults]
    show (s.failRun r 0x0223).faults.detected ++ _ = _
    rw [failRun_detected]

/-! ### A deep write past its time -/

theorem onlyStops_failWriter (s : State) (r : Run) : OnlyStops s (s.failWriter r) := by
  have h := onlyWork_failRun s r 0x031B
  unfold OnlyStops
  unfold OnlyWork at h ⊢
  unfold State.failWriter
  dsimp only
  rw [h]

/-- A run fails with the writers of its number, once or more. -/
theorem failWriters_core {d : Fin 4} {id : Nat} (ws : List Run) (s : State) {k : Run} (hk : (s.core d).running = some k) (hid : k.id = id)
    (hf : (k.out.failed = true ∧ k.out.reason = 0x031B) ∨ ∃ w ∈ ws, w.id = id) :
    ∃ l, ((ws.foldl (fun s r => s.failWriter r) s).core d).running = some l ∧ l.out.failed = true ∧ l.out.reason = 0x031B := by
  induction ws generalizing s k with
  | nil =>
    rcases hf with hf | ⟨w, hw, -⟩
    · exact ⟨k, hk, hf.1, hf.2⟩
    · cases hw
  | cons w ws ih =>
    have hrun : ((s.failWriter w).core d).running = some (w.failsWith 0x031B k) := by
      show ((s.failRun w 0x031B).core d).running = _
      rw [failRun_core, hk]
      rfl
    by_cases h : k.id = w.id
    · have hl : w.failsWith 0x031B k = { k with busy := false, out := { k.out with reason := 0x031B, failed := true, poisoned := true } } := if_pos h
      rw [hl] at hrun
      exact ih _ hrun hid (.inl ⟨rfl, rfl⟩)
    · have hl : w.failsWith 0x031B k = k := if_neg h
      rw [hl] at hrun
      refine ih _ hrun hid (hf.imp_right ?_)
      rintro ⟨v, hv, hvid⟩
      rcases List.mem_cons.1 hv with rfl | hv
      · exact absurd (hid.trans hvid.symm) h
      · exact ⟨v, hv, hvid⟩

theorem event_tiers (s : State) (x : Fin 16) (reason : Nat) (d : List Byte) : (s.event x reason d).tiers = s.tiers := by
  unfold State.event
  rcases post_cases s x { Entry.blank 4 reason with detail := d } with h | h <;> rw [h] <;> rfl

/-- The blocks of the deep tier and what waits for them stay. -/
structure SameWaits (s t : State) : Prop where
  waits : t.tiers.deepWaits = s.tiers.deepWaits
  dir : t.tiers.deepDir = s.tiers.deepDir

theorem SameWaits.refl (s : State) : SameWaits s s := ⟨rfl, rfl⟩

theorem SameWaits.trans (h : SameWaits s t) (k : SameWaits t u) : SameWaits s u := ⟨k.waits.trans h.waits, k.dir.trans h.dir⟩

theorem sameWaits_event (s : State) (x : Fin 16) (reason : Nat) (d : List Byte) : SameWaits s (s.event x reason d) := by
  have h := event_tiers s x reason d
  exact ⟨by rw [h], by rw [h]⟩

theorem sameWaits_armed (s : State) (ch : Fin 16) (b : Bool) : SameWaits s (s.modTiers (fun t => { t with lowArmed := t.lowArmed.set ch b })) :=
  ⟨rfl, rfl⟩

/-- A check of what is left of a channel leaves them. -/
theorem sameWaits_deepLowCheck (s : State) (ch : Fin 16) (n : Nat) : SameWaits s (s.deepLowCheck ch n) := by
  unfold State.deepLowCheck
  dsimp only
  split
  · refine (sameWaits_armed s ch false).trans (frame_foldl SameWaits.refl SameWaits.trans _ _ (fun s x _ => ?_) _)
    exact frame_ite (sameWaits_event s x _ _) (SameWaits.refl s)
  · exact frame_ite (sameWaits_armed s ch true) (SameWaits.refl s)

/-! ### A slot that stands FULL -/

/-- The event of a slot that stands FULL too long. -/
def State.overrun (s : State) (x : Fin 16) (d : Fin 4) (i : Nat) : State :=
  ((s.modTok x d i (fun t => { t with posted := true })).event x 0x0108 (detail [(0, 1, d.val), (1, 1, i)])).modCC x d
    (fun k => { k with overrunEvents := satAdd k.overrunEvents 1 })

theorem modTok_slot {x : Fin 16} {d : Fin 4} {i : Nat} {k : TokSlot} (h : (s.cc x d).table.slots[i]? = some k) (f : TokSlot → TokSlot) :
    ((s.modTok x d i f).cc x d).table.slots[i]? = some (f k) := by
  rw [State.modTok, State.modCC_same]
  simp [h]

theorem overrun_spec {x : Fin 16} {d : Fin 4} {i : Nat} {k : TokSlot} (h : (s.cc x d).table.slots[i]? = some k) (ha : (s.ctx x).state = .active) :
    OnlyCtx x s (s.overrun x d i) ∧ ((s.overrun x d i).cc x d).table.slots[i]? = some { k with posted := true } ∧
      ((s.overrun x d i).cc x d).overrunEvents = satAdd (s.cc x d).overrunEvents 1 ∧
      ((s.overrun x d i).ctx x).formed = (s.ctx x).formed ++ [{ Entry.blank 4 0x0108 with detail := detail [(0, 1, d.val), (1, 1, i)] }] := by
  have marked := modTok_slot h (fun t => { t with posted := true })
  have noted : ((s.modTok x d i (fun t => { t with posted := true })).cc x d).overrunEvents = (s.cc x d).overrunEvents := by
    rw [State.modTok, State.modCC_same]
  have kept : ((s.modTok x d i (fun t => { t with posted := true })).ctx x).formed = (s.ctx x).formed := by
    rw [State.modTok, State.modCC_ctx_same]
  have active : ((s.modTok x d i (fun t => { t with posted := true })).ctx x).state = .active := by
    rw [State.modTok, State.modCC_ctx_same]; exact ha
  have only : OnlyCtx x s (s.modTok x d i (fun t => { t with posted := true })) := onlyCtx_modCtx s x _
  unfold State.overrun State.event
  generalize s.modTok x d i (fun t => { t with posted := true }) = u at *
  rw [post_active u x _ active]
  have posted : ∀ e : Entry, (u.modCtx x (fun k => { k with formed := k.formed ++ [e] })).cc x d = u.cc x d := by
    intro e
    rw [State.cc, State.modCtx_same]; rfl
  refine ⟨only.trans ((onlyCtx_modCtx u x _).trans (onlyCtx_modCtx _ x _)), ?_, ?_, ?_⟩
  · rw [State.modCC_same, posted]; exact marked
  · rw [State.modCC_same, posted]; exact congrArg (satAdd · 1) noted
  · rw [State.modCC_ctx_same, State.modCtx_same, kept]

theorem doOverrunTimeout_eq {x : Fin 16} {d : Fin 4} {i : Nat} {k : TokSlot} (h : (s.cc x d).table.slots[i]? = some k) (hraw : k.raw = false)
    (hst : k.state = .full ∨ k.state = .draining) (hp : k.posted = false)
    (hl : (if (s.cc x d).table.overrunMs = 0 then 100 else (s.cc x d).table.overrunMs) * 50000 ≤ s.pilot - k.since) :
    doOverrunTimeout x d i s = s.overrun x d i := by
  unfold doOverrunTimeout
  rw [h]
  refine if_pos ?_
  rcases hst with hst | hst <;> simp only [hraw, hst, hp, decide_eq_true hl] <;> decide

/-- The block of a wait is lost. -/
def State.blockLost (s : State) (i : Nat) (w : DeepWait) : State :=
  s.modTiers (fun t => { t with
    deepWaits := t.deepWaits.eraseIdx i
    deepDir := ainsert w.page ((s.deepDirOf w.page).set w.block ⟨0, 0xFF⟩) t.deepDir })

/-- The fault of a lost block, seen after the change of state s. -/
def State.blockFault (s : State) (w : DeepWait) : FaultRec :=
  { s.faultNow 1 0x031B 0x06 with
    ctx := some w.x, unitKind := 8, unit := deepChannel w.page w.block, addrKind := 1, addr := w.page * 131072 + w.block * 4096 }

/-- That fault with the first of its writers. -/
def FaultRec.ofWriters (f : FaultRec) (x : Fin 16) (ws : List Run) : FaultRec :=
  match ws with
  | r :: _ => f.ofCmd x r.cmd
  | [] => f

theorem ofWriters_spec (f : FaultRec) (x : Fin 16) (ws : List Run) (hx : f.ctx = some x) : (f.ofWriters x ws).reason = f.reason ∧
    (f.ofWriters x ws).severity = f.severity ∧ (f.ofWriters x ws).ctx = some x := by
  cases ws with
  | nil => exact ⟨rfl, rfl, hx⟩
  | cons r ws => exact ⟨rfl, rfl, rfl⟩

/-- The block of wait i is lost, and what writes it fails. -/
def State.deepTimedOut (s : State) (i : Nat) (w : DeepWait) : State :=
  (((s.writersOf w.x w.page w.block).foldl (fun s r => s.failWriter r)
    ((s.blockLost i w).invalidate (w.page * 131072 + w.block * 4096) 4096)).detect
      (((s.blockLost i w).blockFault w).ofWriters w.x (s.writersOf w.x w.page w.block))).deepLowOf (deepChannel w.page w.block)

theorem doDeepSpaceTimeout_eq {i : Nat} {w : DeepWait} (hw : s.tiers.deepWaits[i]? = some w) (ht : 50000 ≤ s.pilot - w.since) :
    doDeepSpaceTimeout i s = s.deepTimedOut i w := by
  unfold doDeepSpaceTimeout
  rw [hw]
  dsimp only
  rw [if_neg (by omega)]
  rfl

/-- The lost block and what writes it. -/
theorem deepSpace_spec (i : Nat) (w : DeepWait) (hb : w.block < 32) (hd : (s.deepDirOf w.page).length = 32) :
    OnlyStops s (s.deepTimedOut i w) ∧
      (s.writersOf w.x w.page w.block = [] → (s.deepTimedOut i w).tiers.deepWaits = s.tiers.deepWaits.eraseIdx i ∧
        ((s.deepTimedOut i w).deepDirOf w.page)[w.block]? = some ⟨0, 0xFF⟩) ∧
      (∃ f ∈ (s.deepTimedOut i w).faults.detected, f.reason = 0x031B ∧ f.severity = 1 ∧ f.ctx = some w.x) ∧
      ∀ c r, (s.core c).running = some r → r ∈ s.writersOf w.x w.page w.block →
        ∃ k, ((s.deepTimedOut i w).core c).running = some k ∧ k.out.failed = true ∧ k.out.reason = 0x031B := by
  unfold State.deepTimedOut State.deepLowOf
  refine ⟨?_, fun hn => ?_, ?_, fun c r hr hmem => ?_⟩
  · have lost : OnlyWork s (s.blockLost i w) := onlyWork_modTiers s _ (fun _ => ⟨rfl, rfl, rfl⟩)
    refine OnlyStops.trans ?_ ((onlyWork_detect _ _).trans (onlyWork_deepLowCheck _ _ _)).stops
    exact (lost.trans (onlyWork_invalidate _ _ _)).stops.trans (onlyStops_foldl _ _ onlyStops_failWriter _)
  · rw [hn]
    generalize hu : (State.detect _ _ : State) = u
    have h := sameWaits_deepLowCheck u (ix 16 (deepChannel w.page w.block)) u.tiers.deepLow[deepDie (deepChannel w.page w.block)]
    have hdir : u.tiers.deepDir = ainsert w.page ((s.deepDirOf w.page).set w.block ⟨0, 0xFF⟩) s.tiers.deepDir := by rw [← hu]; rfl
    refine ⟨h.waits.trans (by rw [← hu]; rfl), ?_⟩
    rw [State.deepDirOf, h.dir, hdir, alookup_ainsert]
    simp [hd, hb]
  · have hf := ofWriters_spec ((s.blockLost i w).blockFault w) w.x (s.writersOf w.x w.page w.block) rfl
    refine ⟨((s.blockLost i w).blockFault w).ofWriters w.x (s.writersOf w.x w.page w.block), ?_, hf.1, hf.2.1, hf.2.2⟩
    rw [storing_faults.deepLowCheck]
    exact List.mem_append_right _ (List.mem_singleton_self _)
  · obtain ⟨k, hk, h⟩ := failWriters_core (d := c) (s.writersOf w.x w.page w.block)
      ((s.blockLost i w).invalidate (w.page * 131072 + w.block * 4096) 4096) hr rfl (.inr ⟨r, hmem, rfl⟩)
    refine ⟨k, ?_, h⟩
    rw [State.core, (written_deepLowCheck _ _ _).cores]
    exact hk

end

/-- Settles O54: each wait fails its command, and what the command would have written is poisoned where its reason says so. -/
theorem timeoutsFail : Obligations.TimeoutsFail := by
  intro s hu
  have run {f t} (h : f s = t) : inDies f s = .next t := (inDies_up _ _ hu).trans (congrArg _ h)
  refine ⟨fun q x y c ev cmd n reason p e hw hy ha hs he => ?_, fun x d i k hk hraw hst hpost ha hl => ?_,
    fun q i r k hl hf hk => ⟨fun c hq hr => ?_, fun x hq hr => ?_, fun x hq hr => ?_⟩, fun i w hw ht hb hd => ?_⟩
  · subst hy
    obtain ⟨t, ht, h⟩ := failWaiting_spec hw ha hs reason p
    have quiet (hreason : reason ≠ 0x0107) (hx : exec e s = .next t) := And.intro hx (And.intro h.reported (And.intro h.drops.cores (And.intro
      (fun z => And.intro (h.drops.tokens z) (h.drops.others z)) (And.intro h.core (And.intro h.fabric (And.intro h.memory
        (show t.faults.detected = s.faults.detected ++ (if reason = 0x0107 then [(s.faultNow 1 0x0107 0x0B).ofCmd (ctxOfQueue q x) cmd] else []) by
          rw [if_neg hreason, h.drops.faults, List.append_nil])))))))
    rcases he with ⟨rfl, rfl, rfl, hst, hl⟩ | ⟨rfl, rfl, rfl, hform, hf, hl⟩ | ⟨rfl, rfl, rfl, hop, hf, hl⟩ | ⟨d, rfl, rfl, rfl, rfl, hop, hf, hl⟩
    · refine ⟨t.detect ((s.faultNow 1 0x0107 0x0B).ofCmd (ctxOfQueue q x) cmd), run (f := doStarveTimeout q x) ?_, h.reported, h.drops.cores,
        fun z => ⟨h.drops.tokens z, h.drops.others z⟩, h.core, h.fabric, h.memory, ?_⟩
      · unfold doStarveTimeout
        rw [hw]
        dsimp only
        rw [ht]
        exact if_pos (by simp [hst, hl])
      · show t.faults.detected ++ _ = _
        rw [h.drops.faults]
        rfl
    · refine ⟨t, quiet (by decide) (run (f := doFenceWaitTimeout q x) ?_)⟩
      unfold doFenceWaitTimeout
      rw [hw]
      dsimp only
      rw [ht]
      exact if_pos (by simp [hform, hf, hl])
    · refine ⟨t, quiet (by decide) (run (f := doAcquireTimeout q x) ?_)⟩
      unfold doAcquireTimeout
      rw [hw]
      dsimp only
      rw [ht]
      exact if_pos (by simp [hop, hf, hl])
    · refine ⟨t, quiet (by decide) (run (f := doUpdateWaitTimeout d x) ?_)⟩
      unfold doUpdateWaitTimeout
      rw [hw]
      refine (if_pos (by simp [hop, hf, hl])).trans ht
  · exact ⟨s.overrun x d i, run (doOverrunTimeout_eq hk hraw hst hpost hl), overrun_spec hk ha⟩
  · subst hq hk
    obtain ⟨h1, h2, h3, h4, h5⟩ := watchedCore_spec hr
    refine ⟨{ s.watchedCore c r with power := { (s.watchedCore c r).power with
      rampReqs := (s.watchedCore c r).power.rampReqs.filter (fun q => q.core != c) } }, run (f := doCommandWatchdog (.core c) i) ?_, h1.trans rfl, h2, h3, h4, h5⟩
    unfold doCommandWatchdog
    dsimp only
    rw [hr]
    exact if_pos (by simp [hl, hf])
  · subst hq hk
    refine ⟨s.watchdogFail r, run (f := doCommandWatchdog (.fabric x) i) ?_, onlyWork_watchdogFail s r, ?_⟩
    · unfold doCommandWatchdog
      dsimp only
      rw [hr]
      exact if_pos (by simp [hl, hf])
    · show ((s.failRun r 0x0223).ctx x).fabricRun[i]? = _
      rw [(failRun_ctx s r 0x0223 x).1]
      exact getElem?_failsWith hr
  · subst hq hk
    refine ⟨s.watchdogFail r, run (f := doCommandWatchdog (.memory x) i) ?_, onlyWork_watchdogFail s r, ?_⟩
    · unfold doCommandWatchdog
      dsimp only
      rw [hr]
      exact if_pos (by simp [hl, hf])
    · show ((s.failRun r 0x0223).ctx x).memoryRun[i]? = _
      rw [(failRun_ctx s r 0x0223 x).2]
      exact getElem?_failsWith hr
  · exact ⟨_, run (doDeepSpaceTimeout_eq hw ht), deepSpace_spec i w hb hd⟩

end Sys2Proof.Machine
end

section
/-! PROOFS. Replay spans (16). -/

namespace Sys2Proof.Machine

open Sys2Proof

/-! ## Replay spans (16, R397 to R406) -/

section
variable {c : Fin 4} {x : Fin 16} {s t u : State} {sp : Span} {r : Run}

/-! ### What the ends of span commands bear -/

/-- Context x keeps its state and its entries, and core c what it runs and its span. -/
structure Bears (c : Fin 4) (x : Fin 16) (s t : State) : Prop where
  state : (t.ctx x).state = (s.ctx x).state
  formed : (s.ctx x).formed <+: (t.ctx x).formed
  run : (t.core c).running = (s.core c).running
  span : (t.core c).span = (s.core c).span

theorem Bears.refl (s : State) : Bears c x s s := ⟨rfl, List.prefix_rfl, rfl, rfl⟩

theorem Bears.trans (h : Bears c x s t) (k : Bears c x t u) : Bears c x s u :=
  ⟨k.state.trans h.state, h.formed.trans k.formed, k.run.trans h.run, k.span.trans h.span⟩

theorem bears_foldl {α : Type} (f : State → α → State) (l : List α) (h : ∀ s a, Bears c x s (f s a)) (s : State) : Bears c x s (l.foldl f s) :=
  frame_foldl Bears.refl Bears.trans f l (fun s a _ => h s a) s

theorem Calm.bears (h : Calm s t) : Bears c x s t := ⟨h.state x, h.formed x, by rw [h.core c], h.span c⟩

theorem bears_modCtx (s : State) (y : Fin 16) {f : Ctx → Ctx} (h : ∀ k, (f k).state = k.state ∧ k.formed <+: (f k).formed) :
    Bears c x s (s.modCtx y f) := by
  refine ⟨?_, ?_, rfl, rfl⟩ <;>
  · by_cases hx : x = y
    · subst hx; rw [State.modCtx_same]; simp only [h]
    · rw [State.modCtx_other s y x f hx]

theorem bears_modCC (s : State) (y : Fin 16) (d : Fin 4) (f : CtxCore → CtxCore) : Bears c x s (s.modCC y d f) :=
  bears_modCtx s y (fun _ => ⟨rfl, List.prefix_rfl⟩)

theorem bears_modCore (s : State) (d : Fin 4) {f : CoreS → CoreS} (h : ∀ k, (f k).running = k.running ∧ (f k).span = k.span) :
    Bears c x s (s.modCore d f) := by
  refine ⟨rfl, List.prefix_rfl, ?_, ?_⟩ <;>
  · by_cases hd : c = d
    · subst hd; rw [State.modCore_same]; simp only [h]
    · rw [State.modCore_other s d c f hd]

/-- What leaves contexts and cores alone. -/
theorem bears_of_same (hh : t.hub = s.hub) (hc : t.cores = s.cores) : Bears c x s t := by
  have hx : t.ctx x = s.ctx x := by rw [State.ctx, hh]; rfl
  have hk : t.core c = s.core c := by rw [State.core, hc]; rfl
  exact ⟨by rw [hx], by rw [hx], by rw [hk], by rw [hk]⟩

theorem bears_event (s : State) (y : Fin 16) (reason : Nat) (d : List Byte) : Bears c x s (s.event y reason d) := (written_post s y _).calm.bears

/-- Every command of a list that ends with an outcome is reported. -/
theorem reports_foldl {out : Done} (hf : out.failed = true) (cmds : List Cmd) (s : State) (ha : (s.ctx x).state = .active) :
    ∀ k ∈ cmds, Reported (cmds.foldl (fun s k => s.report x k out) s) x k out := by
  induction cmds generalizing s with
  | nil => exact fun k hk => absurd hk (by simp)
  | cons m cmds ih =>
    have tidied := tidy_report s x m out
    have later := bears_foldl (c := 0) (x := x) (fun s k => s.report x k out) cmds (fun s k => (tidy_report s x k out).calm.bears) (s.report x m out)
    intro k hk
    rcases List.mem_cons.1 hk with rfl | hk
    · exact (reported_report s x k out ha (.inr (.inl hf))).mono later.formed
    · exact ih (s.report x m out) ((tidied.calm.state x).trans ha) k hk

/-! ### A span fails -/

/-- The command of a failed span stops, and its context keeps its state and its entries. -/
theorem stopSpanRun_core (s : State) (c : Fin 4) (r : Run) : ((s.stopSpanRun c r).core c).running = none ∧
    ((s.stopSpanRun c r).ctx x).state = (s.ctx x).state := by
  have stop : (s.stopIssue c).ctx x = s.ctx x := by rw [State.ctx, (clearsCore_stopIssue s c).rest]; rfl
  have idle : (((s.stopIssue c).modCore c (fun k => { k with running := none, epi := [] })).core c).running = none := by rw [State.modCore_same]
  have kept : (((s.stopIssue c).modCore c (fun k => { k with running := none, epi := [] })).ctx x).state = (s.ctx x).state := congrArg Ctx.state stop
  unfold State.stopSpanRun
  dsimp only [List.foldl_cons, List.foldl_nil]
  generalize (s.stopIssue c).modCore c (fun k => { k with running := none, epi := [] }) = u at idle kept ⊢
  have b := fun v f => bears_modCC (c := c) (x := x) v r.x c f
  refine ⟨(b _ _).run.trans ?_, (b _ _).state.trans ?_⟩
  · exact idle
  · exact kept

/-- What runs on the core of a failed span stops. -/
def State.stopSpan (s : State) (c : Fin 4) : State :=
  match (s.core c).running with
  | some r => s.stopSpanRun c r
  | none => s

/-- The commands that end with a failed span. -/
def State.spanCmds (s : State) (c : Fin 4) (sp : Span) : List Cmd :=
  sp.done.map (·.1) ++ (match (s.core c).running with | some r => [r.cmd] | none => []) ++ ((s.stopSpan c).dropSpanRest c sp).2

/-- A failed span has left its core and its queue, and what it wrote is poisoned. -/
def State.dropSpan (s : State) (c : Fin 4) (sp : Span) : State :=
  (sp.writes.filter (fun g => !g.scratch)).foldl (fun s g => s.poisonRegion sp.x c g)
    ((sp.done.foldl (fun s d => s.modCC sp.x c (·.countRun d.1 true d.2.2))
      (((s.stopSpan c).dropSpanRest c sp).1.modCore c (fun k => { k with span := none }))).clearCaptures c)

/-- The signals, the claims and the turn behind a failed span. -/
def State.settleSpan (s : State) (c : Fin 4) (sp : Span) (cmds : List Cmd) (claims : List Claim) : State :=
  (((claims.foldl (fun s k => s.release sp.x k true)
    ((cmds.filter (fun k => k.op == 0x60)).foldl (fun s k => s.signal sp.x c.val k) s)).emptyBoundary sp.x c sp.eval).schedule c).1

theorem failSpan_eq (hs : (s.core c).span = some sp) (reason : Nat) : ∃ claims, s.failSpan c reason =
    ((s.spanCmds c sp).foldl (fun s k => s.report sp.x k (Done.fails reason true)) (s.dropSpan c sp)).settleSpan c sp (s.spanCmds c sp) claims := by
  unfold State.failSpan
  rw [hs]
  exact ⟨_, rfl⟩

theorem stopSpan_core (s : State) (c : Fin 4) : ((s.stopSpan c).core c).running = none ∧ ((s.stopSpan c).ctx x).state = (s.ctx x).state := by
  unfold State.stopSpan
  split
  · exact stopSpanRun_core s c _
  next h => exact ⟨h, rfl⟩

theorem dropSpan_core (s : State) (c : Fin 4) (sp : Span) : ((s.dropSpan c sp).core c).span = none ∧ ((s.dropSpan c sp).core c).running = none ∧
    ((s.dropSpan c sp).ctx x).state = (s.ctx x).state := by
  obtain ⟨hrun, hstate⟩ := stopSpan_core (x := x) s c
  have left := bears_modCC (c := c) (x := x) (s.stopSpan c) sp.x c
  have counted (v : State) := bears_foldl (c := c) (x := x) (fun s (d : Cmd × Done × Nat) => s.modCC sp.x c (·.countRun d.1 true d.2.2)) sp.done
    (fun s d => bears_modCC s _ c _) v
  have cleared (v : State) : Bears c x v (v.clearCaptures c) := bears_of_same rfl rfl
  have poisoned (v : State) : Bears c x v ((sp.writes.filter (fun g => !g.scratch)).foldl (fun s g => s.poisonRegion sp.x c g) v) :=
    (written_foldl _ _ (fun s g => written_poisonRegion s _ c g) v).calm.bears
  have after (v : State) := ((counted v).trans (cleared _)).trans (poisoned _)
  unfold State.dropSpan
  refine ⟨(after _).span.trans ?_, (after _).run.trans ?_, (after _).state.trans ((left _).state.trans hstate)⟩
  · rw [State.modCore_same]
  · rw [State.modCore_same]
    exact (left _).run.trans hrun

theorem settleSpan_bears (s : State) (c : Fin 4) (sp : Span) (cmds : List Cmd) (claims : List Claim) : Bears c x s (s.settleSpan c sp cmds claims) := by
  unfold State.settleSpan
  refine Bears.trans ?_ (slices_schedule _ c).calm.bears
  refine Bears.trans ?_ (tidy_emptyBoundary _ _ c _).calm.bears
  refine Bears.trans ?_ (bears_foldl _ _ (fun s k => (tidy_release s _ k true).calm.bears) _)
  exact bears_foldl _ _ (fun s k => (calm_signal s _ _ k).bears) s

/-- A failed span is gone, and each of its commands is reported with the reason, as is the command that runs. -/
theorem failSpan_spec (hs : (s.core c).span = some sp) (ha : (s.ctx sp.x).state = .active) (reason : Nat) :
    ((s.failSpan c reason).core c).span = none ∧ ((s.failSpan c reason).core c).running = none ∧
      (∀ d ∈ sp.done, Reported (s.failSpan c reason) sp.x d.1 (Done.fails reason true)) ∧
      ∀ r, (s.core c).running = some r → Reported (s.failSpan c reason) sp.x r.cmd (Done.fails reason true) := by
  obtain ⟨claims, heq⟩ := failSpan_eq hs reason
  obtain ⟨hspan, hrun, hstate⟩ := dropSpan_core (x := sp.x) s c sp
  have told := reports_foldl (out := Done.fails reason true) rfl (s.spanCmds c sp) (s.dropSpan c sp) (hstate.trans ha)
  have reports := bears_foldl (c := c) (x := sp.x) (fun s k => s.report sp.x k (Done.fails reason true)) (s.spanCmds c sp)
    (fun s k => (tidy_report s _ k _).calm.bears) (s.dropSpan c sp)
  rw [heq]
  generalize (s.spanCmds c sp).foldl (fun s k => s.report sp.x k (Done.fails reason true)) (s.dropSpan c sp) = u at told reports ⊢
  have settled := settleSpan_bears (x := sp.x) u c sp (s.spanCmds c sp) claims
  have all := reports.trans settled
  refine ⟨all.span.trans hspan, all.run.trans hrun, fun d hd => (told d.1 ?_).mono settled.formed, fun r hr => (told r.cmd ?_).mono settled.formed⟩
  · exact List.mem_append_left _ (List.mem_append_left _ (List.mem_map_of_mem hd))
  · unfold State.spanCmds
    rw [hr]
    exact List.mem_append_left _ (List.mem_append_right _ (List.mem_singleton_self _))

/-! ### Captures -/

theorem clearCaptures_none (s : State) (c : Fin 4) (b : Fin 2) : ((s.clearCaptures c).arr (arrayOf c b)).captures = [] := by
  have hb : coreOfArray (arrayOf c b) = c := (eq_arrayOf_iff _ c).2 (by
    cases b using Fin.cases with
    | zero => exact .inl rfl
    | succ b => exact .inr (congrArg _ (congrArg Fin.succ (Subsingleton.elim b 0))))
  show (((s.modArr (arrayOf c 0) _).modArr (arrayOf c 1) _).arr _).captures = []
  rw [arr_both, if_pos hb]

/-- What rows arrays have captured stays. -/
def SameCaptures (s t : State) : Prop := ∀ a, (t.arr a).captures = (s.arr a).captures

theorem SameCaptures.refl (s : State) : SameCaptures s s := fun _ => rfl

theorem SameCaptures.trans (h : SameCaptures s t) (k : SameCaptures t u) : SameCaptures s u := fun a => (k a).trans (h a)

theorem sameCaptures_of (h : t.arrays = s.arrays) : SameCaptures s t := fun a => by rw [State.arr, h]; rfl

theorem sameCaptures_modArr (s : State) (a : Fin 8) {f : ArrayS → ArrayS} (h : ∀ k, (f k).captures = k.captures) : SameCaptures s (s.modArr a f) := by
  intro b
  by_cases hb : b = a
  · subst hb; rw [State.modArr_same, h]
  · rw [State.modArr_other s a b f hb]

theorem sameCaptures_dropShadows (s : State) (d : Fin 4) : SameCaptures s (s.dropShadows d) :=
  (sameCaptures_modArr s _ (f := ArrayS.dropShadow) (fun _ => rfl)).trans (sameCaptures_modArr _ _ (f := ArrayS.dropShadow) (fun _ => rfl))

theorem schedPass_arrays (xs : List (Fin 16)) (s : State) (r : State × Option (Fin 16) × Bool) :
    (State.schedPass s c xs r).1.arrays = r.1.arrays := by
  induction xs generalizing r with
  | nil => rfl
  | cons x xs ih =>
    obtain ⟨st, found, skipped⟩ := r
    unfold State.schedPass
    cases found with
    | some y => rfl
    | none =>
      dsimp only
      split
      · exact ih (st, none, skipped)
      · split
        · exact ih (_, none, true)
        · rfl

theorem schedLoop_arrays (order : List (Fin 16)) (n : Nat) (s : State) : (State.schedLoop c order n s).1.arrays = s.arrays := by
  induction n generalizing s with
  | zero => rfl
  | succ n ih =>
    have h := schedPass_arrays (c := c) order s (s, none, false)
    simp only [State.schedLoop]
    split
    next h1 => rw [h1] at h; exact h
    next h1 =>
      rw [h1] at h
      split
      · exact (ih _).trans h
      · exact h

theorem sameCaptures_schedule (s : State) : SameCaptures s (s.schedule c).1 := by
  unfold State.schedule
  dsimp only
  split
  · exact SameCaptures.refl s
  · split
    · exact SameCaptures.refl s
    · split
      · exact SameCaptures.refl s
      · have h := schedLoop_arrays (c := c) (contextsAfter (s.core c).current)
          ((contextsAfter (s.core c).current).foldl (fun n x => n + (s.cc x c).debt / ((s.cc x c).budget + 1) + 2) 1)
          (s.modCC (s.core c).current c (fun k => { k with remaining := 0 }))
        split
        next h1 =>
          rw [h1] at h
          refine SameCaptures.trans ?_ (sameCaptures_of rfl)
          exact (sameCaptures_of h).trans (frame_ite (SameCaptures.refl _) (sameCaptures_dropShadows _ _))
        next h1 =>
          rw [h1] at h
          exact sameCaptures_of h

theorem sameCaptures_freeCore (s : State) (d : Fin 4) (r : Run) (n : Nat) : SameCaptures s (s.freeCore d r n) := by
  have issue (s : State) (a : Fin 8) : SameCaptures s (s.modArr a (fun t => { t with lastIssue := s.arrayTime })) :=
    sameCaptures_modArr s a (fun _ => rfl)
  have noted : SameCaptures s (s.stopIssue d) :=
    SameCaptures.trans (frame_foldl SameCaptures.refl SameCaptures.trans _ _ (fun s a _ => issue s a) s) (sameCaptures_of (s := s.noteIssues d) rfl)
  refine noted.trans (fun a => ?_)
  unfold State.freeCore
  generalize s.stopIssue d = u
  simp only [State.arr, State.modCC, State.modCtx, State.modCore, Fin.getElem_fin, Vector.getElem_mapIdx]
  split <;> rfl

/-! ### The end of SPAN_OPEN and SPAN_CLOSE -/

/-- A command that has ended outside spans: its core is free, and its context keeps its state, entries and tokens. -/
structure EndsFree (c : Fin 4) (x : Fin 16) (s t : State) : Prop where
  run : (t.core c).running = none
  span : (t.core c).span = (s.core c).span
  state : (t.ctx x).state = (s.ctx x).state
  formed : (s.ctx x).formed <+: (t.ctx x).formed
  tokens : (t.ctx x).tokens = (s.ctx x).tokens
  captures : SameCaptures s t

theorem freeCore_formed (s : State) (d : Fin 4) (r : Run) (n : Nat) : ((s.freeCore d r n).ctx x).formed = (s.ctx x).formed := by
  have h : (s.freeCore d r n).ctx x = (s.modCC r.x d (·.chargeSlice n)).ctx x := by rw [freeCore_eq]; rfl
  rw [h]
  by_cases hx : x = r.x
  · subst hx; rw [State.modCC_ctx_same]
  · rw [State.modCC_ctx_other s r.x x d _ hx]

theorem endsFree_finishCore (hr : (s.core c).running = some r) (hop : 0x60 ≤ r.cmd.op) (hs : s.spanFor r.x c r.cmd.eval = none) :
    EndsFree c r.x s (s.finishCore c 0) := by
  have hu : r.cmd.op ≠ 0x30 := by omega
  have hm : r.cmd.op ≠ 0x11 := by omega
  have chores := chores_finishCore 0 hr hu hm
  have free := (finishCore_free 0 hr hu).1
  have heq := finishCore_of_noSpan 0 hr hs
  rw [endUpdate_of_ne s r hu, leaveWork_of_ne s c r hm] at heq
  refine ⟨free, ?_, chores.state, ?_, chores.tokens, ?_⟩
  · rw [heq, (reportEnd_core _ c c r 0).2, freeCore_core, State.modCore_same]
  · have ended : ((s.freeCore c r 0).ctx r.x).formed <+: (((s.freeCore c r 0).reportEnd c r 0).ctx r.x).formed := by
      have counted (u : State) := (bears_modCC (c := c) (x := r.x) u r.x c (·.countRun r.cmd r.out.failed 0)).formed
      exact (((tidy_releases _ r.x r.claims r.out.failed).formed.trans (counted _)).trans (tidy_afterCount _ c r).formed)
    rw [heq]
    rw [freeCore_formed] at ended
    exact ended
  · rw [heq]
    refine (sameCaptures_freeCore s c r 0).trans ?_
    have released : SameCaptures (s.freeCore c r 0) (r.claims.foldl (fun s k => s.release r.x k r.out.failed) (s.freeCore c r 0)) :=
      sameCaptures_of (by rw [(tidy_releases (s.freeCore c r 0) r.x r.claims r.out.failed).rest])
    refine released.trans ?_
    unfold State.reportEnd
    dsimp only
    generalize r.claims.foldl (fun s k => s.release r.x k r.out.failed) (s.freeCore c r 0) = u
    exact SameCaptures.trans (t := u.modCC r.x c (·.countRun r.cmd r.out.failed 0)) (sameCaptures_of rfl)
      (sameCaptures_of (by rw [(tidy_afterCount (u.modCC r.x c (·.countRun r.cmd r.out.failed 0)) c r).rest]))

theorem endsFree_finishNow (hr : (s.core c).running = some r) (hop : 0x60 ≤ r.cmd.op) (hs : s.spanFor r.x c r.cmd.eval = none) :
    EndsFree c r.x s (s.finishNow (.core c) r) := by
  have h := endsFree_finishCore hr hop hs
  have k := slices_schedule (s.finishCore c 0) c
  have b := k.calm.bears (c := c) (x := r.x)
  have tokens : (((s.finishCore c 0).schedule c).1.ctx r.x).tokens = ((s.finishCore c 0).ctx r.x).tokens := by rw [k.ctx r.x]
  exact ⟨b.run.trans h.run, b.span.trans h.span, b.state.trans h.state, h.formed.trans b.formed, tokens.trans h.tokens,
    h.captures.trans (sameCaptures_schedule _)⟩

/-- It is reported, if it asks for an entry. -/
theorem finishNow_reported (hr : (s.core c).running = some r) (hop : 0x60 ≤ r.cmd.op) (hs : s.spanFor r.x c r.cmd.eval = none)
    (ha : (s.ctx r.x).state = .active) (hn : r.cmd.notify = true) : Reported (s.finishNow (.core c) r) r.x r.cmd r.out :=
  (finishCore_reported 0 hr (by omega) hs ha (.inl hn)).mono ((slices_schedule _ c).calm.formed r.x)

/-- The span of a core behind a dispatch: the command joins it, or there is none. -/
theorem dispatchCore_span {isOp : Cmd → Bool} (h : s.dispatchCore c isOp = some (t, r)) (hop : 0x60 ≤ r.cmd.op) :
    ((s.core c).span = none → (t.core c).span = none) ∧ ∀ sp, (t.core c).span = some sp → sp.x = r.x := by
  obtain ⟨x, cmd, ev, hx, -, -, hs⟩ := dispatchCore_inv h
  have hr : r = newRun (s.schedule c).1 x cmd ((s.schedule c).1.claimsOf x cmd) := (congrArg Prod.snd hs).symm
  have hop' : 0x60 ≤ cmd.op := by rw [hr] at hop; exact hop
  have hspan : (t.core c).span = match (s.core c).span with
      | some sp => some (if sp.x = x && sp.eval == ev then sp.join cmd else sp)
      | none => none := by
    have ht : t = _ := (congrArg Prod.fst hs).symm
    unfold State.startRun at ht
    dsimp only at ht
    rw [layerAdvance_of_none _ x cmd hop'] at ht
    subst ht
    rw [State.modCore_same]
    have claimed := (tidy_claims x ((s.schedule c).1.popHead x c ev) (((s.schedule c).1.claimsOf x cmd).filter
      (fun k => !((s.schedule c).1.madeClaims x (some c)).contains k))).calm.span c
    have popped : (((s.schedule c).1.popHead x c ev).core c).span = ((s.schedule c).1.core c).span := rfl
    have all := (claimed.trans popped).trans ((slices_schedule s c).calm.span c)
    dsimp only
    rw [← all]
    rfl
  refine ⟨fun hn => by rw [hspan, hn], fun sp hsp => ?_⟩
  rw [hspan] at hsp
  cases ho : (s.core c).span with
  | none => rw [ho] at hsp; cases hsp
  | some sp0 =>
    rw [ho] at hsp
    have pick : sp0.x = x := by
      unfold State.schedule at hx
      rw [ho] at hx
      dsimp only at hx
      split at hx
      · exact Option.some.inj hx
      · cases hx
    have hrx : r.x = x := by rw [hr]; rfl
    dsimp only at hsp
    split at hsp
    · cases hsp; exact pick.trans hrx.symm
    · cases hsp; exact pick.trans hrx.symm

/-- What SPAN_OPEN leaves on its core: the span, with the inputs of the commands that stand behind it. -/
def newSpan (s : State) (c : Fin 4) (r : Run) : Span :=
  { x := r.x, eval := r.cmd.eval, id := fld r.cmd.desc 2 2, opener := r.cmd, count := 0, cmds := [], done := []
    contribs := [], claims := [], made := [], writes := []
    inputs := spanInputsOf (spanBody ((s.cc r.x c).queueOf r.cmd.eval))
    replay := false, usedReplay := false, replayDue := false, faults := 0 }

def State.openedSpan (s : State) (c : Fin 4) (r : Run) : State :=
  ((s.finishCore c 0).clearCaptures c).modCore c (fun k => { k with span := some (newSpan ((s.finishCore c 0).clearCaptures c) c r) })

theorem dispatched_op {op : Nat} (h : s.dispatchCore c (fun m => m.op == op) = some (t, r)) : r.cmd.op = op := by
  have k := dispatchQ_isOp (q := .core c) h
  simpa using k

theorem openedSpan_spec (hd : s.dispatchCore c (fun m => m.op == 0x63) = some (t, r)) (hs : (s.core c).span = none) :
    OnlyWork s (t.openedSpan c r) ∧ ((t.openedSpan c r).core c).running = none ∧ ((t.openedSpan c r).core c).span = some (newSpan t c r) ∧
      (∀ b, ((t.openedSpan c r).arr (arrayOf c b)).captures = []) ∧ (r.cmd.notify = true → Reported (t.openedSpan c r) r.x r.cmd Done.ok) := by
  have hop : r.cmd.op = 0x63 := dispatched_op hd
  have hge : 0x60 ≤ r.cmd.op := by omega
  have dis := dispatched_core hd hge
  obtain ⟨hr, -⟩ := dis.standing
  have hspan := (dispatchCore_span hd hge).1 hs
  have hfor : t.spanFor r.x c r.cmd.eval = none := by rw [State.spanFor, hspan]
  have free := endsFree_finishCore hr hge hfor
  have queues := (finishCore_free 0 hr (by omega)).2
  have hinputs : newSpan ((t.finishCore c 0).clearCaptures c) c r = newSpan t c r := by
    have hq : ((t.finishCore c 0).cc r.x c).queueOf r.cmd.eval = (t.cc r.x c).queueOf r.cmd.eval := by
      unfold CtxCore.queueOf
      rw [(queues r.x c).1, (queues r.x c).2]
    unfold newSpan
    rw [show (((t.finishCore c 0).clearCaptures c).cc r.x c) = (t.finishCore c 0).cc r.x c from rfl, hq]
  unfold State.openedSpan
  refine ⟨?_, ?_, ?_, fun b => clearCaptures_none _ c b, fun hn => ?_⟩
  · exact dis.onlyWork.trans ((onlyWork_finishCore t c 0).trans ((onlyWork_clearCaptures _ c).trans (onlyWork_modCore _ c _)))
  · rw [State.modCore_same]; exact free.run
  · rw [State.modCore_same, hinputs]
  · have told := finishCore_reported 0 hr (by omega) hfor (dis.chores.state.trans dis.active) (.inl hn)
    rw [dis.out] at told
    exact told

/-! #### Held effects take place -/

theorem bears_contribute (s : State) (y : Fin 16) (b : Contribution) : Bears c x s (s.contribute y b) := by
  have recorded (s : State) (i : Nat) (r : ScaleRec) : Bears c x s (s.setScaleRec y i r) := bears_modCtx s y (fun _ => ⟨rfl, List.prefix_rfl⟩)
  have posted (s : State) (e : Entry) : Bears c x s (s.post y e) := (written_post s y e).calm.bears
  have now (s : State) : Bears c x s (s.contributeNow y b) := by
    unfold State.contributeNow
    dsimp only
    split
    · exact (recorded _ _ _).trans (posted _ _)
    · exact recorded _ _ _
  unfold State.contribute
  dsimp only
  split
  · exact Bears.refl s
  · split
    · exact now s
    · split
      · exact (recorded _ _ _).trans (posted _ _)
      · exact recorded _ _ _
    · exact (calm_rollRec s y _ _).bears.trans (now _)
    · exact Bears.refl s

theorem bears_applyContribs (s : State) (y : Fin 16) (cs : List Contribution) : Bears c x s (s.applyContribs y c cs) :=
  Bears.trans (t := s.dieCensus c cs) (bears_of_same rfl rfl) (bears_foldl _ _ (fun s b => bears_contribute s y b) _)

theorem applyContribs_tokens (s : State) (y : Fin 16) (cs : List Contribution) : ((s.applyContribs y c cs).ctx x).tokens = (s.ctx x).tokens := by
  have counted : Computes True c s (s.dieCensus c cs) := computes_modFeed s (fun _ => rfl)
  have h : Computes True c s (s.applyContribs y c cs) := counted.trans (computes_foldl _ _ (fun s b _ => computes_contribute s y b) _)
  exact (h.host x).1

/-- The tokens behind the signal of a command. -/
def signalled (tokens : Vector W32 256) (cmd : Cmd) : Vector W32 256 :=
  if cmd.op = 0x60 then vmod tokens (ix 256 (byteAt cmd.desc 2)) (· + 1) else tokens

/-- Its end leaves the state of its context, reports it, and signals. -/
theorem releaseDone_spec (s : State) (x : Fin 16) (d : Cmd × Done × Nat) : Bears c x s (s.releaseDone x c d) ∧
    ((s.releaseDone x c d).ctx x).tokens = signalled (s.ctx x).tokens d.1 ∧
    ((s.ctx x).state = .active → (d.1.notify = true ∨ d.2.1.failed = true ∨ d.2.1.reason ≠ 0) → Reported (s.releaseDone x c d) x d.1 d.2.1) := by
  have signal : ∃ u, u = (if d.1.op = 0x60 then s.signal x c.val d.1 else s) ∧ Bears c x s u ∧ (u.ctx x).tokens = signalled (s.ctx x).tokens d.1 := by
    refine ⟨_, rfl, ?_⟩
    unfold signalled
    split
    · exact ⟨(calm_signal s x _ _).bears, (signal_spec s x _ _).2⟩
    · exact ⟨Bears.refl s, rfl⟩
  obtain ⟨u, hu, hb, ht⟩ := signal
  unfold State.releaseDone
  dsimp only
  rw [← hu]
  have counted := bears_modCC (c := c) (x := x) u x c (·.countRun d.1 d.2.1.failed d.2.2)
  have kept : ((u.modCC x c (·.countRun d.1 d.2.1.failed d.2.2)).ctx x).tokens = (u.ctx x).tokens := by rw [State.modCC_ctx_same]
  have told := tidy_report (u.modCC x c (·.countRun d.1 d.2.1.failed d.2.2)) x d.1 d.2.1
  refine ⟨(hb.trans counted).trans told.calm.bears, ?_, fun ha hn => reported_report _ x _ _ ((hb.trans counted).state.trans ha) hn⟩
  rw [told.own]
  exact kept.trans ht

theorem releaseHeld_spec (s : State) (sp : Span) (i : Nat) (d : Cmd × Done × Nat) : Bears c sp.x s (s.releaseHeld c sp i d) ∧
    ((s.releaseHeld c sp i d).ctx sp.x).tokens = signalled (s.ctx sp.x).tokens d.1 ∧
    ((s.ctx sp.x).state = .active → (d.1.notify = true ∨ d.2.1.failed = true ∨ d.2.1.reason ≠ 0) →
      Reported (s.releaseHeld c sp i d) sp.x d.1 d.2.1) := by
  unfold State.releaseHeld
  dsimp only
  have applied := bears_applyContribs (c := c) (x := sp.x) s sp.x ((sp.contribs.filter (fun b => b.1 == i)).map (·.2))
  have tokens := applyContribs_tokens (c := c) (x := sp.x) s sp.x ((sp.contribs.filter (fun b => b.1 == i)).map (·.2))
  generalize s.applyContribs sp.x c ((sp.contribs.filter (fun b => b.1 == i)).map (·.2)) = u at applied tokens ⊢
  have released := tidy_foldl sp.x (fun s (k : Nat × Claim × Bool) => s.release sp.x k.2.1 k.2.2) (sp.claims.filter (fun k => k.1 == i))
    (fun s k => tidy_release s sp.x _ _) u
  have kept : (((sp.claims.filter (fun k => k.1 == i)).foldl (fun s k => s.release sp.x k.2.1 k.2.2) u).ctx sp.x).tokens = (u.ctx sp.x).tokens := by
    rw [released.own]
  generalize (sp.claims.filter (fun k => k.1 == i)).foldl (fun s k => s.release sp.x k.2.1 k.2.2) u = v at released kept ⊢
  have before := applied.trans released.calm.bears
  obtain ⟨hb, ht, hr⟩ := releaseDone_spec (c := c) v sp.x d
  exact ⟨before.trans hb, by rw [ht, kept, tokens], fun ha => hr (before.state.trans ha)⟩

/-- The end of every command of a span. -/
def State.releaseSpan (s : State) (c : Fin 4) (sp : Span) (l : List ((Cmd × Done × Nat) × Nat)) : State :=
  l.foldl (fun s d => s.releaseHeld c sp d.2 d.1) s

/-- The command signals token k. -/
def signals (k : Fin 256) (d : Cmd × Done × Nat) : Bool := d.1.op == 0x60 && ix 256 (byteAt d.1.desc 2) == k

theorem signalled_get (tokens : Vector W32 256) (d : Cmd × Done × Nat) (k : Fin 256) :
    (signalled tokens d.1)[k] = tokens[k] + BitVec.ofNat 32 (if signals k d then 1 else 0) := by
  unfold signalled signals
  by_cases h : d.1.op = 0x60
  · by_cases hk : ix 256 (byteAt d.1.desc 2) = k
    · subst hk
      simp [h]
    · have hk' : k ≠ ix 256 (byteAt d.1.desc 2) := fun e => hk e.symm
      simp [h, hk, vmod_other _ _ _ _ hk']
  · simp [h]

theorem releaseSpan_bears (s : State) (sp : Span) (l : List ((Cmd × Done × Nat) × Nat)) : Bears c sp.x s (s.releaseSpan c sp l) :=
  bears_foldl _ l (fun s (d : (Cmd × Done × Nat) × Nat) => (releaseHeld_spec s sp d.2 d.1).1) s

theorem releaseSpan_tokens (sp : Span) (k : Fin 256) (l : List ((Cmd × Done × Nat) × Nat)) (s : State) :
    ((s.releaseSpan c sp l).ctx sp.x).tokens[k] = (s.ctx sp.x).tokens[k] + BitVec.ofNat 32 (l.countP (fun d => signals k d.1)) := by
  induction l generalizing s with
  | nil => simp [State.releaseSpan]
  | cons d l ih =>
    have step := ih (s.releaseHeld c sp d.2 d.1)
    have token : ((s.releaseHeld c sp d.2 d.1).ctx sp.x).tokens[k] =
        (s.ctx sp.x).tokens[k] + BitVec.ofNat 32 (if signals k d.1 then 1 else 0) := by
      rw [(releaseHeld_spec s sp d.2 d.1).2.1, signalled_get]
    refine step.trans ?_
    rw [token, List.countP_cons, BitVec.add_assoc, ← BitVec.ofNat_add, Nat.add_comm (if signals k d.1 then 1 else 0)]

theorem releaseSpan_reported (sp : Span) (l : List ((Cmd × Done × Nat) × Nat)) (s : State) (ha : (s.ctx sp.x).state = .active) :
    ∀ d ∈ l, (d.1.1.notify = true ∨ d.1.2.1.failed = true ∨ d.1.2.1.reason ≠ 0) → Reported (s.releaseSpan c sp l) sp.x d.1.1 d.1.2.1 := by
  induction l generalizing s with
  | nil => exact fun d hd => absurd hd (by simp)
  | cons e l ih =>
    obtain ⟨hb, -, hr⟩ := releaseHeld_spec (c := c) s sp e.2 e.1
    intro d hd hn
    rcases List.mem_cons.1 hd with rfl | hd
    · exact (hr ha hn).mono (releaseSpan_bears _ sp l).formed
    · exact ih (s.releaseHeld c sp e.2 e.1) (hb.state.trans ha) d hd hn

theorem zipIdx_count (k : Fin 256) (l : List (Cmd × Done × Nat)) : l.zipIdx.countP (fun d => signals k d.1) = (l.filter (signals k)).length := by
  have h := List.countP_map (p := signals k) (f := Prod.fst) (l := l.zipIdx)
  rw [List.zipIdx_map_fst] at h
  rw [← List.countP_eq_length_filter, h]
  rfl

/-- What SPAN_CLOSE leaves: its span is gone, and its held effects have taken place. -/
def State.closedSpan (s : State) (c : Fin 4) (sp : Span) (r : Run) : State :=
  (((s.modCore c (fun k => { k with span := none })).releaseSpan c sp sp.done.zipIdx).clearCaptures c).finishNow (.core c) r

theorem onlyWork_releaseHeld (s : State) (sp : Span) (i : Nat) (d : Cmd × Done × Nat) : OnlyWork s (s.releaseHeld c sp i d) := by
  have done (s : State) : OnlyWork s (s.releaseDone sp.x c d) := by
    unfold State.releaseDone
    dsimp only
    refine OnlyWork.trans ?_ (onlyWork_report _ _ _ _)
    refine OnlyWork.trans ?_ (onlyWork_modCC _ sp.x c _)
    exact frame_ite (onlyWork_signal s _ _ _) (OnlyWork.refl s)
  unfold State.releaseHeld
  exact ((onlyWork_applyContribs s _ _ _).trans (onlyWork_foldl _ (fun s (k : Nat × Claim × Bool) => onlyWork_release s _ k.2.1 k.2.2) _ _)).trans (done _)

theorem closedSpan_spec (hd : s.dispatchCore c (fun m => m.op == 0x64) = some (t, r)) (hs : (t.core c).span = some sp) :
    OnlyWork s (t.closedSpan c sp r) ∧ ((t.closedSpan c sp r).core c).running = none ∧ ((t.closedSpan c sp r).core c).span = none ∧
      (∀ d ∈ sp.done, d.1.notify = true ∨ d.2.1.failed = true ∨ d.2.1.reason ≠ 0 → Reported (t.closedSpan c sp r) r.x d.1 d.2.1) ∧
      (r.cmd.notify = true → Reported (t.closedSpan c sp r) r.x r.cmd Done.ok) ∧
      (∀ b, ((t.closedSpan c sp r).arr (arrayOf c b)).captures = []) ∧
      ∀ k : Fin 256, ((t.closedSpan c sp r).ctx r.x).tokens[k] = (s.ctx r.x).tokens[k] +
        BitVec.ofNat 32 ((sp.done.filter (signals k)).length) := by
  have hop : r.cmd.op = 0x64 := dispatched_op hd
  have hge : 0x60 ≤ r.cmd.op := by omega
  have dis := dispatched_core hd hge
  obtain ⟨hr, -⟩ := dis.standing
  have hx : sp.x = r.x := (dispatchCore_span hd hge).2 sp hs
  have hact : (t.ctx sp.x).state = .active := by rw [hx]; exact dis.chores.state.trans dis.active
  have gone : ((t.modCore c (fun k => { k with span := none })).core c).span = none := by rw [State.modCore_same]
  have runs : ((t.modCore c (fun k => { k with span := none })).core c).running = some r := by rw [State.modCore_same]; exact hr
  have work : OnlyWork t ((t.modCore c (fun k => { k with span := none })).releaseSpan c sp sp.done.zipIdx) :=
    (onlyWork_modCore t c _).trans (onlyWork_foldl _ (fun s (d : (Cmd × Done × Nat) × Nat) => onlyWork_releaseHeld s sp d.2 d.1) _ _)
  have bears := releaseSpan_bears (c := c) (t.modCore c (fun k => { k with span := none })) sp sp.done.zipIdx
  have told := releaseSpan_reported (c := c) sp sp.done.zipIdx (t.modCore c (fun k => { k with span := none })) hact
  have tokens (k : Fin 256) := releaseSpan_tokens (c := c) sp k sp.done.zipIdx (t.modCore c (fun k => { k with span := none }))
  unfold State.closedSpan
  generalize (t.modCore c (fun k => { k with span := none })).releaseSpan c sp sp.done.zipIdx = u at work bears told tokens ⊢
  have hrun : ((u.clearCaptures c).core c).running = some r := bears.run.trans runs
  have hnone : ((u.clearCaptures c).core c).span = none := bears.span.trans gone
  have hfor : (u.clearCaptures c).spanFor r.x c r.cmd.eval = none := by rw [State.spanFor, hnone]
  have hstate : (u.ctx sp.x).state = .active := bears.state.trans hact
  rw [hx] at told tokens hstate
  have free := endsFree_finishNow hrun hge hfor
  have told' (hn : r.cmd.notify = true) := finishNow_reported hrun hge hfor hstate hn
  rw [dis.out] at told'
  refine ⟨(dis.onlyWork.trans work).trans ((onlyWork_clearCaptures _ c).trans (onlyWork_finishNow _ _ _)), free.run, free.span.trans hnone,
    fun d hdone hn => ?_, told', fun b => (free.captures _).trans (clearCaptures_none _ c b), fun k => ?_⟩
  · obtain ⟨i, hi⟩ := List.mem_iff_getElem?.1 hdone
    have hmem : (d, i) ∈ sp.done.zipIdx := by
      rw [List.mem_zipIdx_iff_getElem?]
      exact hi
    exact (told (d, i) hmem hn).mono free.formed
  · rw [free.tokens]
    refine (tokens k).trans ?_
    rw [zipIdx_count]
    exact congrArg (fun v : Vector W32 256 => v[k] + _) dis.chores.tokens

/-! ### SPAN_REPLAY -/

/-- The span of a replay. -/
def Span.again (sp : Span) : Span :=
  { sp with cmds := [], done := [], contribs := [], claims := [], made := sp.claims.map (·.2.1)
            replay := true, usedReplay := true, replayDue := false }

/-- The commands of a span stand in front of their queue again. -/
def CtxCore.requeue (k : CtxCore) (sp : Span) : CtxCore :=
  let k1 := if sp.eval then { k with eval := sp.cmds ++ k.eval, admitted := k.admitted + sp.cmds.length } else { k with main := sp.cmds ++ k.main }
  { k1 with replays := satAdd k1.replays 1 }

def State.replayed (s : State) (c : Fin 4) (sp : Span) : State :=
  ((s.modCC sp.x c (·.requeue sp)).modCore c (fun k => { k with span := some sp.again })).dropShadows c

theorem requeue_queues (k : CtxCore) (sp : Span) : (k.requeue sp).queueOf sp.eval = sp.cmds ++ k.queueOf sp.eval ∧
    (k.requeue sp).queueOf (!sp.eval) = k.queueOf (!sp.eval) ∧ (k.requeue sp).replays = satAdd k.replays 1 := by
  unfold CtxCore.requeue CtxCore.queueOf
  cases sp.eval <;> exact ⟨rfl, rfl, rfl⟩

theorem replayed_spec (s : State) (c : Fin 4) (sp : Span) :
    s.replayed c sp = { s with hub := { s.hub with ctxs := (s.replayed c sp).hub.ctxs }, cores := (s.replayed c sp).cores, arrays := (s.replayed c sp).arrays } ∧
      ((s.replayed c sp).core c).span = some sp.again ∧
      ((s.replayed c sp).cc sp.x c).queueOf sp.eval = sp.cmds ++ (s.cc sp.x c).queueOf sp.eval ∧
      ((s.replayed c sp).cc sp.x c).queueOf (!sp.eval) = (s.cc sp.x c).queueOf (!sp.eval) ∧
      ((s.replayed c sp).cc sp.x c).replays = satAdd (s.cc sp.x c).replays 1 ∧ ((s.replayed c sp).ctx sp.x).formed = (s.ctx sp.x).formed ∧
      ∀ y, y ≠ sp.x → (s.replayed c sp).ctx y = s.ctx y := by
  have hcc : (s.replayed c sp).cc sp.x c = (s.cc sp.x c).requeue sp := State.modCC_same s sp.x c _
  obtain ⟨h1, h2, h3⟩ := requeue_queues (s.cc sp.x c) sp
  refine ⟨rfl, ?_, by rw [hcc, h1], by rw [hcc, h2], by rw [hcc, h3], ?_, fun y hy => State.modCC_ctx_other s sp.x y c _ hy⟩
  · show ((State.modCore _ c _).core c).span = _
    rw [State.modCore_same]
  · exact (congrArg Ctx.formed (State.modCC_ctx_same s sp.x c (·.requeue sp)) :)

theorem doSpanReplay_eq (hr : (s.core c).running = none) (hs : (s.core c).span = some sp) (hd : sp.replayDue = true) (hf : s.fastUp = true) :
    doSpanReplay c s = s.replayed c sp := by
  unfold doSpanReplay
  rw [hr, hs]
  exact if_neg (by simp [hd, hf])

/-! ### REPLAY_DECISION -/

/-- The captured rows of a core with their outcomes. -/
def outcomesOf (s : State) (c : Fin 4) (rows : List SelfTestRow) : List (Fin 8 × Capture × RowOutcome) :=
  ((([0, 1] : List (Fin 2)).flatMap (fun b => (s.arr (arrayOf c b)).captures.map (fun k => (b, k)))).filter (fun k => k.2.replayed.isSome)).map
    (fun k => (arrayOf c k.1, k.2, k.2.outcome (selfTestPasses rows k.1)))

/-- What the outcomes leave behind. -/
def State.notedOutcomes (s : State) (c : Fin 4) (rows : List SelfTestRow) : State :=
  (outcomesOf s c rows).foldl (fun s o => s.noteOutcome c o.1 o.2.1 o.2.2) s

theorem outcomesOf_outcomes {rows : List SelfTestRow}
    (h : ∀ k ∈ (s.arr (arrayOf c 0)).captures ++ (s.arr (arrayOf c 1)).captures, k.replayed.isSome = true) :
    (outcomesOf s c rows).map (·.2.2) = (s.arr (arrayOf c 0)).captures.map (·.outcome (selfTestPasses rows 0)) ++
      (s.arr (arrayOf c 1)).captures.map (·.outcome (selfTestPasses rows 1)) := by
  unfold outcomesOf
  rw [List.filter_eq_self.2]
  · simp [List.map_map, Function.comp_def]
  · intro k hk
    obtain ⟨b, hb, hk⟩ := List.mem_flatMap.1 hk
    obtain ⟨q, hq, rfl⟩ := List.mem_map.1 hk
    refine h q ?_
    rcases List.mem_cons.1 hb with rfl | hb
    · exact List.mem_append_left _ hq
    · rw [List.mem_singleton.1 hb] at hq
      exact List.mem_append_right _ hq

theorem storeHist_rest (s : State) (e : HistEntry) : (s.storeHist e).hub = s.hub ∧ (s.storeHist e).cores = s.cores := by
  unfold State.storeHist
  split
  · split <;> exact ⟨rfl, rfl⟩
  · exact ⟨rfl, rfl⟩

theorem writeHist_rest (s : State) (e : HistEntry) : (s.writeHist e).1.hub = s.hub ∧ (s.writeHist e).1.cores = s.cores := by
  unfold State.writeHist
  dsimp only
  split
  · exact storeHist_rest _ e
  · split
    · exact storeHist_rest _ e
    · exact ⟨rfl, rfl⟩

theorem bears_writeHist (s : State) (e : HistEntry) : Bears c x s (s.writeHist e).1 :=
  bears_of_same (writeHist_rest s e).1 (writeHist_rest s e).2

theorem bears_oweDegrade (s : State) (a : Fin 8) : Bears c x s (s.oweDegrade a) := by
  unfold State.oweDegrade
  exact frame_ite (Bears.refl s) (bears_modCore s _ (fun _ => ⟨rfl, rfl⟩))

/-- A witness that is flagged for good. -/
theorem bears_makePermanent (s : State) (unit : Nat) : Bears c x s (s.makePermanent 2 unit) := by
  unfold State.makePermanent
  dsimp only
  have flagged (u : State) (f : ArrayS → ArrayS) : Bears c x u (u.modArr (ix 8 unit) f) := bears_of_same rfl rfl
  have permanent (u : State) : Bears c x u (u.onPermanent 2 unit) := by
    unfold State.onPermanent
    exact ((flagged _ _).trans (bears_oweDegrade _ _)).trans (bears_event _ _ _ _)
  split
  · exact Bears.refl s
  · exact (bears_writeHist s _).trans (permanent _)

theorem suspect_hub (s : State) (a : Fin 8) (gs : List Nat) : (s.suspect a gs).hub = s.hub := by
  unfold State.suspect
  dsimp only
  split
  · unfold State.oweDegrade
    split
    · exact (writeHist_rest _ _).1
    · exact (writeHist_rest _ _).1
  · exact (writeHist_rest _ _).1

theorem bears_suspect (s : State) (a : Fin 8) (gs : List Nat) : Bears c x s (s.suspect a gs) := by
  have marked (u : State) (f : ArrayS → ArrayS) : Bears c x u (u.modArr a f) := bears_of_same rfl rfl
  have due (u : State) : Bears c x u (u.modCore (coreOfArray a) (fun k => { k with ift := { k.ift with due := true } })) :=
    bears_modCore u _ (fun _ => ⟨rfl, rfl⟩)
  have noted (g : ArrayS → ArrayS) (e : HistEntry) := ((marked s g).trans (bears_writeHist _ e)).trans (due _)
  unfold State.suspect
  dsimp only
  split
  · exact (noted _ _).trans (bears_oweDegrade _ _)
  · exact noted _ _

/-- What one captured row leaves. -/
theorem noteOutcome_spec (s : State) (a : Fin 8) (k : Capture) (o : RowOutcome) : Bears c x s (s.noteOutcome c a k o) ∧
    (o ≠ .witnessFault → (s.noteOutcome c a k o).hub = s.hub) := by
  have detected (u : State) (f : FaultRec) : Bears c x u (u.detect f) := bears_of_same rfl rfl
  unfold State.noteOutcome
  cases o with
  | transient lanes =>
    refine ⟨bears_foldl _ _ (fun s l => detected s _) s, fun _ => ?_⟩
    exact frame_foldl (R := fun s t => t.hub = s.hub) (fun _ => rfl) (fun h k => k.trans h) (fun s l => s.detect { s.spanRecord c 0 0x0624 1
      (siteUnit a.val (siteOfLane (s.arr a).map l)) with transient := true }) lanes (fun _ _ _ => rfl) s
  | arrayTransient => exact ⟨detected s _, fun _ => rfl⟩
  | witnessTransient => exact ⟨detected s _, fun _ => rfl⟩
  | witnessFault => exact ⟨(detected s _).trans (bears_makePermanent _ _), fun h => absurd rfl h⟩
  | unresolved => exact ⟨(detected s _).trans (bears_suspect _ _ _), fun _ => suspect_hub _ _ _⟩
  | suspect => exact ⟨detected s _, fun _ => rfl⟩

theorem notedOutcomes_spec (s : State) (c : Fin 4) (rows : List SelfTestRow) : Bears c x s (s.notedOutcomes c rows) ∧
    ((∀ o ∈ outcomesOf s c rows, o.2.2 ≠ .witnessFault) → (s.notedOutcomes c rows).hub = s.hub) :=
  ⟨bears_foldl _ _ (fun s (o : Fin 8 × Capture × RowOutcome) => (noteOutcome_spec s o.1 o.2.1 o.2.2).1) s, fun h =>
    frame_foldl (R := fun s t => t.hub = s.hub) (fun _ => rfl) (fun h k => k.trans h) _ _
      (fun s (o : Fin 8 × Capture × RowOutcome) ho => (noteOutcome_spec (x := 0) s o.1 o.2.1 o.2.2).2 (h o ho)) s⟩

/-- The decision on the captured rows of a replay. -/
def State.decided (s : State) (c : Fin 4) (rows : List SelfTestRow) : State :=
  if (outcomesOf s c rows).any (fun o => o.2.2 == .suspect) then ((s.notedOutcomes c rows).failSpan c 0x0606).quarantine c
  else if [0, 1].any (fun b => (s.arr (arrayOf c b)).fresh) then (s.notedOutcomes c rows).failSpan c 0x0607
  else if (outcomesOf s c rows).any (fun o => o.2.2 == .unresolved) then (s.notedOutcomes c rows).failSpan c 0x0605
  else (s.notedOutcomes c rows).clearCaptures c

theorem doReplayDecision_eq {rows : List SelfTestRow} (hr : (s.core c).running = none) (hs : (s.core c).span = some sp) (hp : sp.replay = true)
    (hne : (s.arr (arrayOf c 0)).captures ++ (s.arr (arrayOf c 1)).captures ≠ [])
    (h : ∀ k ∈ (s.arr (arrayOf c 0)).captures ++ (s.arr (arrayOf c 1)).captures, k.replayed.isSome = true) :
    doReplayDecision c rows s = s.decided c rows := by
  have hcaps : (([0, 1] : List (Fin 2)).flatMap (fun b => (s.arr (arrayOf c b)).captures.map (fun k => (b, k)))).isEmpty = false := by
    simpa [List.isEmpty_eq_false_iff, or_iff_not_imp_left] using hne
  have hall : (([0, 1] : List (Fin 2)).flatMap (fun b => (s.arr (arrayOf c b)).captures.map (fun k => (b, k)))).all (fun k => k.2.replayed.isSome) = true := by
    refine List.all_eq_true.2 (fun k hk => ?_)
    obtain ⟨b, hb, hk⟩ := List.mem_flatMap.1 hk
    obtain ⟨q, hq, rfl⟩ := List.mem_map.1 hk
    refine h q ?_
    rcases List.mem_cons.1 hb with rfl | hb
    · exact List.mem_append_left _ hq
    · rw [List.mem_singleton.1 hb] at hq
      exact List.mem_append_right _ hq
  unfold doReplayDecision
  rw [hr, hs]
  dsimp only
  rw [if_neg]
  · rfl
  · rw [hp, hcaps, hall]
    simp

theorem quarantine_spec (s : State) (c : Fin 4) : ((s.quarantine c).core c).quarantined = true ∧ ((s.quarantine c).core c).leaving = true ∧
    Bears c x s (s.quarantine c) := by
  have told := written_post (s.modCore c (fun k => { k with quarantined := true, leaving := true, ift := { k.ift with due := true } })) 0
    { Entry.blank 4 0x060C with detail := detail [(0, 4, c.val)] }
  have core : (s.quarantine c).core c = { s.core c with quarantined := true, leaving := true, ift := { (s.core c).ift with due := true } } := by
    have h := State.modCore_same s c (fun k => { k with quarantined := true, leaving := true, ift := { k.ift with due := true } })
    unfold State.core at h ⊢
    rw [← h]
    exact congrArg (fun v : Vector CoreS 4 => v[c]) told.cores
  refine ⟨by rw [core], by rw [core], ?_⟩
  exact (bears_modCore s c (f := fun k => { k with quarantined := true, leaving := true, ift := { k.ift with due := true } }) (fun _ => ⟨rfl, rfl⟩)).trans
    told.calm.bears

end

/-- Settles O55: held effects take place in order at the close, and a span that fails reports each of its commands. -/
theorem spansOpenCloseAndReplay : Obligations.SpansOpenCloseAndReplay := by
  intro s c hu
  have run {f t} (h : f s = t) : inDies f s = .next t := (inDies_up _ _ hu).trans (congrArg _ h)
  refine ⟨fun s1 r hd hs => ?_, fun s1 r sp hd hs hf => ?_, fun sp hr hs => ⟨fun hdue hfast => ?_, fun rows caps outs reason hp ha hcaps hne houts hall =>
    ⟨fun hfresh hsound => ?_, fun hfail => ?_⟩⟩, fun sp hs hcount ha => ?_⟩
  · obtain ⟨h1, h2, h3, h4, h5⟩ := openedSpan_spec hd hs
    refine ⟨s1.openedSpan c r, newSpan s1 c r, run (f := doSpanOpen c) ?_, h1, h2, h3, rfl, rfl, rfl, rfl, rfl, rfl, rfl, h4, h5⟩
    unfold doSpanOpen
    rw [hd]
    rfl
  · obtain ⟨h1, h2, h3, h4, h5, h6, h7⟩ := closedSpan_spec hd hs
    refine ⟨s1.closedSpan c sp r, run (f := doSpanClose c) ?_, h1, h2, h3, h4, h5, h6, h7⟩
    unfold doSpanClose
    rw [hd]
    dsimp only
    rw [hs]
    exact if_neg (by omega)
  · exact ⟨s.replayed c sp, run (doSpanReplay_eq hr hs hdue hfast), replayed_spec s c sp⟩
  · subst hcaps
    have he := outcomesOf_outcomes (rows := rows) hall
    rw [← houts] at he
    have hmem (o : RowOutcome) : o ∈ outs ↔ ∃ k ∈ outcomesOf s c rows, k.2.2 = o := by rw [← he, List.mem_map]
    obtain ⟨hb, hhub⟩ := notedOutcomes_spec (x := sp.x) s c rows
    have hdec : s.decided c rows = (s.notedOutcomes c rows).clearCaptures c := by
      unfold State.decided
      rw [if_neg, if_neg, if_neg]
      · simp only [List.any_eq_true, beq_iff_eq, ← hmem]
        exact fun h => (hsound _ h).2 rfl
      · simp [hfresh]
      · simp only [List.any_eq_true, beq_iff_eq, ← hmem]
        exact fun h => (hsound _ h).1 rfl
    refine ⟨_, run ((doReplayDecision_eq hr hs hp hne hall).trans hdec), hb.span.trans hs, clearCaptures_none _ c, fun hw y => ?_⟩
    have h := hhub (fun o ho => hw _ ((hmem _).2 ⟨o, ho, rfl⟩))
    show ((s.notedOutcomes c rows).ctx y).formed = _
    rw [State.ctx, h]
    rfl
  · subst hcaps
    have he := outcomesOf_outcomes (rows := rows) hall
    rw [← houts] at he
    have hmem (o : RowOutcome) : o ∈ outs ↔ ∃ k ∈ outcomesOf s c rows, k.2.2 = o := by rw [← he, List.mem_map]
    have hany (o : RowOutcome) : (outcomesOf s c rows).any (fun k => k.2.2 == o) = true ↔ o ∈ outs := by
      rw [hmem]; simp only [List.any_eq_true, beq_iff_eq]
    have hfresh : [0, 1].any (fun b => (s.arr (arrayOf c b)).fresh) = true ↔ ∃ b, (s.arr (arrayOf c b)).fresh = true := by
      simp [Fin.exists_fin_two]
    obtain ⟨hb, -⟩ := notedOutcomes_spec (x := sp.x) s c rows
    obtain ⟨h1, h2, h3, h4⟩ := failSpan_spec (hb.span.trans hs) (hb.state.trans ha) reason
    rcases hfail with ⟨hsus, rfl⟩ | ⟨hsus, hf, rfl⟩ | ⟨hsus, hf, hun, rfl⟩
    · obtain ⟨q1, q2, q3⟩ := quarantine_spec (x := sp.x) ((s.notedOutcomes c rows).failSpan c 0x0606) c
      refine ⟨((s.notedOutcomes c rows).failSpan c 0x0606).quarantine c, run ((doReplayDecision_eq hr hs hp hne hall).trans (if_pos ((hany _).2 hsus))),
        q3.span.trans h1, fun d hd => (h3 d hd).mono q3.formed, fun _ => ⟨q1, q2⟩⟩
    · refine ⟨_, run ((doReplayDecision_eq hr hs hp hne hall).trans ((if_neg (fun h => hsus ((hany _).1 h))).trans (if_pos (hfresh.2 hf)))), h1, h3,
        fun h => absurd h (by decide)⟩
    · refine ⟨_, run ((doReplayDecision_eq hr hs hp hne hall).trans ((if_neg (fun h => hsus ((hany _).1 h))).trans ((if_neg (fun h => ?_)).trans
        (if_pos ((hany _).2 hun))))), h1, h3, fun h => absurd h (by decide)⟩
      obtain ⟨b, hb⟩ := hfresh.1 h
      rw [hf b] at hb
      cases hb
  · obtain ⟨h1, h2, h3, h4⟩ := failSpan_spec hs ha 0x0608
    refine ⟨s.failSpan c 0x0608, run (f := doSpanTimeout c) ?_, onlyWork_failSpan s c _, h1, h2, h3, h4⟩
    unfold doSpanTimeout
    rw [hs]
    exact if_pos hcount

end Sys2Proof.Machine
end

section
/-! PROOFS. Arrays load, drain and leave (04, 13). -/

namespace Sys2Proof.Machine

open Sys2Proof

/-! ## Arrays (04, 13) -/

section
variable {s t u : State} {c : Fin 4} {a : Fin 8} {r : Run}

/-! ### Shadow banks -/

theorem shadow_of_ne {k b : Fin 2} (h : k ≠ b) : ix 2 (b.val + 1) = k := by
  revert k b; decide

theorem shadow_ne (b : Fin 2) : ix 2 (b.val + 1) ≠ b := by
  revert b; decide

theorem coreOf_arrayOf (c : Fin 4) (b : Fin 2) : coreOfArray (arrayOf c b) = c := by
  revert c b; decide

theorem onlyArray_modArr (s : State) (a : Fin 8) (f : ArrayS → ArrayS) : OnlyArray a s (s.modArr a f) :=
  ⟨rfl, fun b hb => State.modArr_other s a b f hb⟩

/-- Which tiles come next depends on which arrays of the core serve. -/
theorem nextTile_isSome_congr (x : Fin 16) (cmd : Cmd) (i : Nat) (h : ∀ side, t.arrayFor (coreOfArray a) side = s.arrayFor (coreOfArray a) side) :
    (t.nextTile x a cmd i).isSome = (s.nextTile x a cmd i).isSome := by
  have hs : t.sidesOn a = s.sidesOn a := by unfold State.sidesOn; simp only [h]
  unfold State.nextTile State.mmLoadsOn State.keyLoadsOn
  simp only [hs]
  split
  · rw [Option.isSome_map, Option.isSome_map]
  · split
    · rw [Option.isSome_map, Option.isSome_map]
    · split
      · rfl
      · rw [Option.isSome_map, Option.isSome_map]

/-- The shadow bank of array a is free for its first tile. -/
def State.wantsAhead (s : State) (cmd : Cmd) (a : Fin 8) : Bool :=
  (s.arr a).inService && (s.arr a).ahead == 0 && (s.arr a).banks[ix 2 ((s.arr a).activeBank.val + 1)].state == .empty &&
    (s.nextTile (s.core (coreOfArray a)).current a cmd 0).isSome

/-- Array a begins to load its first tile ahead. -/
def State.loadAhead (s : State) (cmd : Cmd) (a : Fin 8) : State :=
  if s.wantsAhead cmd a then
    s.modArr a (fun t => { t with banks := vmod t.banks (ix 2 (t.activeBank.val + 1)) (fun _ => { Bank.blank with state := .loading }) })
  else s

/-- Only banks of array a differ: its shadow bank loads. -/
theorem loadAhead_spec (s : State) (cmd : Cmd) (a : Fin 8) : OnlyArray a s (s.loadAhead cmd a) ∧
    (s.loadAhead cmd a).arr a = { s.arr a with banks := ((s.loadAhead cmd a).arr a).banks } ∧
    ∀ k : Fin 2, ((s.loadAhead cmd a).arr a).banks[k] =
      if s.wantsAhead cmd a = true ∧ k ≠ (s.arr a).activeBank then { Bank.blank with state := .loading } else (s.arr a).banks[k] := by
  unfold State.loadAhead
  by_cases h : s.wantsAhead cmd a = true
  · rw [if_pos h]
    refine ⟨onlyArray_modArr s a _, by rw [State.modArr_same], fun k => ?_⟩
    rw [State.modArr_same]
    by_cases hk : k = (s.arr a).activeBank
    · rw [if_neg (fun h => h.2 hk)]
      exact vmod_other _ _ _ _ (hk ▸ (shadow_ne _).symm)
    · rw [if_pos ⟨h, hk⟩]
      simp only [shadow_of_ne hk]
      exact vmod_same _ _ _
  · rw [if_neg h]
    exact ⟨⟨rfl, fun _ _ => rfl⟩, rfl, fun k => (if_neg (fun j => h j.1)).symm⟩

theorem wantsAhead_iff (s : State) (cmd : Cmd) {a : Fin 8} {k : Fin 2} (hk : k ≠ (s.arr a).activeBank) : s.wantsAhead cmd a = true ↔
    (s.arr a).inService = true ∧ (s.arr a).ahead = 0 ∧ (s.arr a).banks[k].state = .empty ∧
      (s.nextTile (s.core (coreOfArray a)).current a cmd 0).isSome = true := by
  unfold State.wantsAhead
  simp only [shadow_of_ne hk, Bool.and_eq_true, beq_iff_eq, and_assoc]

/-- A change of the banks of one array does not change what another array wants. -/
theorem wantsAhead_other {b : Fin 8} (h : OnlyArray b s t) (hd : (t.arr b).degraded = (s.arr b).degraded) (cmd : Cmd) (ha : a ≠ b) :
    t.wantsAhead cmd a = s.wantsAhead cmd a := by
  have hcore (d : Fin 4) : t.core d = s.core d := by rw [h.1]; rfl
  have hdeg (e : Fin 8) : (t.arr e).degraded = (s.arr e).degraded := by
    by_cases he : e = b
    · rw [he]; exact hd
    · rw [h.2 e he]
  have hfor (side : Nat) : t.arrayFor (coreOfArray a) side = s.arrayFor (coreOfArray a) side := by
    unfold State.arrayFor
    rw [hcore, hdeg]
  unfold State.wantsAhead
  simp only [hcore, h.2 a ha, nextTile_isSome_congr _ cmd 0 hfor]

theorem arrays_trans (h : t = { s with arrays := t.arrays }) (k : u = { t with arrays := u.arrays }) : u = { s with arrays := u.arrays } := by
  rw [h] at k
  exact k

/-- The look-ahead loads of a core. -/
def State.loadsAhead (s : State) (cmd : Cmd) (c : Fin 4) : State := (s.loadAhead cmd (arrayOf c 0)).loadAhead cmd (arrayOf c 1)

theorem loadsAhead_spec (s : State) (cmd : Cmd) (c : Fin 4) : s.loadsAhead cmd c = { s with arrays := (s.loadsAhead cmd c).arrays } ∧
    ∀ a, (s.loadsAhead cmd c).arr a = { s.arr a with banks := ((s.loadsAhead cmd c).arr a).banks } ∧
      ∀ k : Fin 2, ((s.loadsAhead cmd c).arr a).banks[k] =
        if coreOfArray a = c ∧ s.wantsAhead cmd a = true ∧ k ≠ (s.arr a).activeBank then { Bank.blank with state := .loading }
        else (s.arr a).banks[k] := by
  have h01 : arrayOf c 1 ≠ arrayOf c 0 := by revert c; decide
  obtain ⟨o0, b0, k0⟩ := loadAhead_spec s cmd (arrayOf c 0)
  obtain ⟨o1, b1, k1⟩ := loadAhead_spec (s.loadAhead cmd (arrayOf c 0)) cmd (arrayOf c 1)
  have want : (s.loadAhead cmd (arrayOf c 0)).wantsAhead cmd (arrayOf c 1) = s.wantsAhead cmd (arrayOf c 1) :=
    wantsAhead_other o0 (by rw [b0]) cmd h01
  rw [want, o0.2 _ h01] at k1
  rw [o0.2 _ h01] at b1
  unfold State.loadsAhead
  refine ⟨?_, fun a => ?_⟩
  · exact arrays_trans o0.1 o1.1
  · by_cases h1 : a = arrayOf c 1
    · subst h1
      refine ⟨b1, fun k => (k1 k).trans ?_⟩
      simp only [coreOf_arrayOf, true_and]
    · rw [o1.2 a h1]
      by_cases h0 : a = arrayOf c 0
      · subst h0
        refine ⟨b0, fun k => (k0 k).trans ?_⟩
        simp only [coreOf_arrayOf, true_and]
      · rw [o0.2 a h0]
        exact ⟨rfl, fun k => (if_neg (fun j => ((eq_arrayOf_iff a c).1 j.1).elim h0 h1)).symm⟩

theorem doLookaheadLoad_eq {cmd : Cmd} (h : s.lookaheadCmd c = some cmd) : doLookaheadLoad c s = s.loadsAhead cmd c := by
  unfold doLookaheadLoad
  rw [h]
  simp only [State.loadsAhead, State.loadAhead, State.wantsAhead, coreOf_arrayOf, List.foldl_cons, List.foldl_nil]

/-! ### Tiles -/

theorem tile_cols (state : BankState) (f : Fmt) (cols : List (List PByte)) (h : cols.length ≤ 4096) :
    (Bank.tile state f cols).cols.length = 4096 ∧ (Bank.tile state f cols).state = state := by
  refine ⟨?_, rfl⟩
  simp only [Bank.tile, List.length_append, List.length_map, List.length_replicate]
  omega

theorem mmCols_length (m : MMArgs) (b side : Nat) : (m.cols b side).length ≤ 4096 := by
  unfold MMArgs.cols
  split <;> simp

theorem sideCols_length (total block side : Nat) : (sideCols total block side).length ≤ 4096 := by
  unfold sideCols
  simp

/-- A tile has 4,096 columns, and it is ready. -/
theorem nextTile_cols {x : Fin 16} {cmd : Cmd} {i : Nat} {b : Bank} (h : s.nextTile x a cmd i = some b) : b.cols.length = 4096 ∧ b.state = .ready := by
  unfold State.nextTile at h
  dsimp only at h
  split at h
  · obtain ⟨q, -, rfl⟩ := Option.map_eq_some_iff.1 h
    exact tile_cols _ _ _ (by rw [List.length_map]; exact mmCols_length _ _ _)
  · split at h
    · obtain ⟨q, -, rfl⟩ := Option.map_eq_some_iff.1 h
      exact tile_cols _ _ _ (by rw [List.length_map]; exact sideCols_length _ _ _)
    · split at h
      · cases h
      · obtain ⟨side, -, rfl⟩ := Option.map_eq_some_iff.1 h
        exact tile_cols _ _ _ (by simp)

/-- Array a has loaded bank k. -/
def State.loaded (s : State) (a : Fin 8) (k : Fin 2) (b : Bank) : State :=
  s.modArr a (fun t => { t with banks := vmod t.banks k (fun q => { b with poison := b.poison || q.poison }) })

theorem doBankLoadDone_eq {k : Fin 2} (hk : k ≠ (s.arr a).activeBank) (hl : (s.arr a).banks[k].state = .loading) {cmd : Cmd} {ev : Bool} {b : Bank}
    (hc : s.aheadCmd (coreOfArray a) = some (cmd, ev)) (ht : s.nextTile (s.core (coreOfArray a)).current a cmd (s.arr a).ahead = some b) :
    doBankLoadDone a s = s.loaded a k b := by
  unfold doBankLoadDone
  dsimp only
  simp only [shadow_of_ne hk]
  rw [if_neg (by rw [hl]; decide), hc]
  simp only [Option.bind_some, ht]
  rfl

theorem loaded_spec {k : Fin 2} (hk : k ≠ (s.arr a).activeBank) (b : Bank) : OnlyArray a s (s.loaded a k b) ∧
    ((s.loaded a k b).arr a).banks[k] = { b with poison := b.poison || (s.arr a).banks[k].poison } ∧
    ((s.loaded a k b).arr a).banks[(s.arr a).activeBank] = (s.arr a).banks[(s.arr a).activeBank] ∧
    ((s.loaded a k b).arr a).activeBank = (s.arr a).activeBank ∧ ((s.loaded a k b).arr a).rows = (s.arr a).rows := by
  unfold State.loaded
  refine ⟨onlyArray_modArr s a _, ?_⟩
  rw [State.modArr_same]
  exact ⟨vmod_same _ _ _, vmod_other _ _ _ _ hk.symm, rfl, rfl⟩

/-- Array a has swapped its banks, and its next load begins if there is one. -/
def State.swapped (s : State) (a : Fin 8) (k : Fin 2) (more : Bool) : State :=
  s.modArr a (fun t => { t with
    activeBank := k, ahead := 1
    banks := vmod (vmod t.banks k (fun q => { q with state := .active })) t.activeBank (fun _ =>
      if more then { Bank.blank with state := .loading } else Bank.blank) })

theorem doBankSwap_eq {k : Fin 2} (hk : k ≠ (s.arr a).activeBank) (hr : (s.arr a).banks[k].state = .ready) (ha : (s.arr a).ahead = 0)
    (hi : (s.core (coreOfArray a)).ift.running = false) (hq : ∀ q ∈ s.power.rampReqs, q.core ≠ coreOfArray a) : doBankSwap a s =
      s.swapped a k ((s.aheadCmd (coreOfArray a)).bind (fun m => s.nextTile (s.core (coreOfArray a)).current a m.1 1)).isSome := by
  have hn : s.power.rampReqs.any (fun q => q.core == coreOfArray a) = false := by
    rw [List.any_eq_false]
    exact fun q hm => by simpa using hq q hm
  unfold doBankSwap
  dsimp only
  simp only [shadow_of_ne hk]
  rw [if_neg (by rw [hr, ha, hi, hn]; decide)]
  rfl

theorem swapped_spec {k : Fin 2} (hk : k ≠ (s.arr a).activeBank) (more : Bool) : OnlyArray a s (s.swapped a k more) ∧
    ((s.swapped a k more).arr a).activeBank = k ∧ ((s.swapped a k more).arr a).ahead = 1 ∧
    ((s.swapped a k more).arr a).banks[k] = { (s.arr a).banks[k] with state := .active } ∧
    (((s.swapped a k more).arr a).banks[(s.arr a).activeBank].state = if more = true then BankState.loading else BankState.empty) ∧
    ((s.swapped a k more).arr a).rows = (s.arr a).rows := by
  unfold State.swapped
  refine ⟨onlyArray_modArr s a _, ?_⟩
  rw [State.modArr_same]
  refine ⟨rfl, rfl, (vmod_other _ _ _ _ hk).trans (vmod_same _ _ _), ?_, rfl⟩
  refine (congrArg Bank.state (vmod_same _ _ _)).trans ?_
  cases more <;> rfl

/-! ### A row drains -/

theorem contribute_arrays (s : State) (x : Fin 16) (b : Contribution) : (s.contribute x b).arrays = s.arrays := by
  have posted (s : State) (e : Entry) : (s.post x e).arrays = s.arrays := by rcases post_cases s x e with h | h <;> rw [h] <;> rfl
  have now (s : State) : (s.contributeNow x b).arrays = s.arrays := by
    unfold State.contributeNow
    dsimp only
    split
    · exact posted _ _
    · rfl
  have rolled : (s.rollRec x b.record b.step).arrays = s.arrays := by
    unfold State.rollRec
    dsimp only
    split
    · rfl
    · exact posted _ _
  unfold State.contribute
  dsimp only
  split
  · rfl
  · split
    · exact now s
    · split
      · exact posted _ _
      · rfl
    · exact (now _).trans rolled
    · rfl

theorem contributeAll_arrays (s : State) (x : Fin 16) (c : Fin 4) (cs : List Contribution) : (s.contributeAll x c cs).arrays = s.arrays := by
  have applied : (s.applyContribs x c cs).arrays = s.arrays :=
    frame_foldl (R := fun s t => t.arrays = s.arrays) (fun _ => rfl) (fun h k => k.trans h) _ _ (fun s b _ => contribute_arrays s x b) (s.dieCensus c cs)
  unfold State.contributeAll
  split
  · split
    · rfl
    · exact applied
  · exact applied

theorem storeOut_arrays (s : State) (r : Run) (c : Fin 4) (o : Opnd) (m : StoreMode) (stamp off : Nat) (rows : List (Nat × List PV)) :
    (s.storeOut r c o m stamp off rows).arrays = s.arrays := by
  have noted (s : State) (p : Bool) : (s.notePoison r p).arrays = s.arrays := by
    unfold State.notePoison
    split <;> rfl
  unfold State.storeOut
  dsimp only
  refine (noted _ _).trans ((contributeAll_arrays _ _ _ _).trans ?_)
  exact storing_arrays.foldl _ _ (fun s q => storing_arrays.rwrite s _ _ _ _ _) s

theorem mmStore_arrays (s : State) (r : Run) (c : Fin 4) (m : MMArgs) (b row : Nat) (va vb : List PV) :
    (s.mmStore r c m b row va vb).arrays = s.arrays := by
  unfold State.mmStore
  refine frame_ite (R := fun (s t : State) => t.arrays = s.arrays) ?_ (storeOut_arrays _ _ _ _ _ _ _ _)
  exact (storeOut_arrays _ _ _ _ _ _ _ _).trans (storeOut_arrays _ _ _ _ _ _ _ _)

/-- What is still to drain stays. -/
def SameRows (s t : State) : Prop := ∀ a, (t.arr a).rows = (s.arr a).rows

theorem sameRows_of (h : t.arrays = s.arrays) : SameRows s t := fun a => by rw [State.arr, h]; rfl

theorem sameRows_modArr (s : State) (a : Fin 8) {f : ArrayS → ArrayS} (h : ∀ k, (f k).rows = k.rows) : SameRows s (s.modArr a f) := by
  intro b
  by_cases hb : b = a
  · subst hb; rw [State.modArr_same, h]
  · rw [State.modArr_other s a b f hb]

theorem SameRows.trans (h : SameRows s t) (k : SameRows t u) : SameRows s u := fun a => (k a).trans (h a)

theorem sameRows_noteRow (s : State) (a : Fin 8) (n : Nat) (row : AccRow) (replay : Bool) : SameRows s (s.noteRow a n row replay) := by
  have counted (k : ArrayS) (ch : Check) : (k.countCheck ch).rows = k.rows := by cases ch <;> rfl
  have replayed (k : ArrayS) (p : RowPlace) (r : AccRow) (failed : Bool) : (k.replayRow p r failed).rows = k.rows := by
    unfold ArrayS.replayRow
    split
    · rfl
    · split <;> rfl
  have captured (k : ArrayS) (p : RowPlace) (r : AccRow) : (k.capture p r).rows = k.rows := by
    unfold ArrayS.capture
    dsimp only
    split <;> rfl
  unfold State.noteRow
  refine sameRows_modArr s a (fun k => ?_)
  dsimp only
  split
  · exact (replayed _ _ _ _).trans (counted _ _)
  · split
    · exact (captured _ _ _).trans (counted _ _)
    · exact counted _ _

theorem sameRows_drainRow (s : State) (r : Run) (c : Fin 4) (m : MMArgs) (row : AccRow) (ups : List (Nat × W32)) :
    SameRows s (s.drainRow r c m row ups) := by
  unfold State.drainRow
  dsimp only
  refine (sameRows_noteRow s (s.arrayFor c (upsetLanes row ups).side) (s.spanPlace c).1 (upsetLanes row ups) (s.spanPlace c).2).trans ?_
  split
  · exact sameRows_of (mmStore_arrays _ _ _ _ _ _ _ _)
  · split
    · exact sameRows_of rfl
    · exact sameRows_of (mmStore_arrays _ _ _ _ _ _ _ _)

theorem drainKept_eq (s : State) (r : Run) (c : Fin 4) (m : MMArgs) (row : AccRow) (ups : List (Nat × W32)) :
    ∃ u, s.drainKept r c m row ups = u.drainRow r c m row ups ∧ SameRows s u ∧ u.cores = s.cores := by
  refine ⟨_, rfl, ?_, ?_⟩
  · exact frame_ite (R := SameRows) (fun _ => rfl) (sameRows_modArr s _ (fun _ => rfl))
  · split <;> rfl

/-- A row whose sum has no other half yet waits for it. -/
theorem drainRow_epi (s : State) (r : Run) (c : Fin 4) (m : MMArgs) (row : AccRow) (ups : List (Nat × W32))
    (hcols : (m.cols (row.acc / m.groups) 1).isEmpty = false) (hn : ∀ e ∈ (s.core c).epi, e.row ≠ row.acc % m.groups * m.r + row.row) :
    ((s.drainRow r c m row ups).core c).epi = (s.core c).epi ++ [⟨row.side, row.acc % m.groups * m.r + row.row,
      (upsetLanes row ups).lanes.map (drainValue (drainScale (mmOpnds r).1 (mmOpnds r).2.1)), row.poison⟩] := by
  unfold State.drainRow
  dsimp only
  rw [if_neg (by rw [show (upsetLanes row ups).acc = row.acc from rfl, hcols]; decide)]
  generalize hu : s.noteRow _ _ _ _ = u
  have hepi : (u.core c).epi = (s.core c).epi := by rw [← hu]; rfl
  have hfind : (u.core c).epi.find? (fun e => e.row == (upsetLanes row ups).acc % m.groups * m.r + (upsetLanes row ups).row &&
      e.side != (upsetLanes row ups).side) = none := by
    rw [List.find?_eq_none, hepi]
    intro e he
    have h := hn e he
    rw [show (upsetLanes row ups).acc = row.acc from rfl, show (upsetLanes row ups).row = row.row from rfl]
    simp [h]
  rw [hfind]
  dsimp only
  rw [State.modCore_same, hepi]
  rfl

/-- The first row of array a has drained. -/
def State.drained (s : State) (a : Fin 8) (r : Run) (row : AccRow) (rest : List AccRow) (ups : List (Nat × W32)) : State :=
  (s.modArr a (fun t => { t with rows := rest })).drainKept r (coreOfArray a) (mmArgs r.cmd) row ups

theorem doRowDrain_eq {row : AccRow} {rest : List AccRow} (ups : List (Nat × W32)) (hr : (s.core (coreOfArray a)).running = some r)
    (hs : (s.arr a).rows = row :: rest) : doRowDrain a ups s = s.drained a r row rest ups := by
  unfold doRowDrain
  dsimp only
  rw [hr, hs]
  rfl

theorem drained_spec {row : AccRow} (rest : List AccRow) (ups : List (Nat × W32)) (hr : (s.core (coreOfArray a)).running = some r) :
    ∃ k, OnlyWork s (s.drained a r row rest ups) ∧ ((s.drained a r row rest ups).arr a).rows = rest ∧
      ((s.drained a r row rest ups).core (coreOfArray a)).running = some k ∧ k.cmd = r.cmd ∧ k.id = r.id ∧
      (((mmArgs r.cmd).cols (row.acc / (mmArgs r.cmd).groups) 1).isEmpty = false →
        (∀ e ∈ (s.core (coreOfArray a)).epi, e.row ≠ row.acc % (mmArgs r.cmd).groups * (mmArgs r.cmd).r + row.row) →
        ((s.drained a r row rest ups).core (coreOfArray a)).epi = (s.core (coreOfArray a)).epi ++
          [⟨row.side, row.acc % (mmArgs r.cmd).groups * (mmArgs r.cmd).r + row.row,
            (upsetLanes row ups).lanes.map (drainValue (drainScale (mmOpnds r).1 (mmOpnds r).2.1)), row.poison⟩]) := by
  have left := computes_modArr (w := False) (c := coreOfArray a) s a (fun t => { t with rows := rest })
  have comp := left.trans (computes_drainKept (w := False) (c := coreOfArray a) (r := r) (fun h => h.elim) rfl
    (s.modArr a (fun t => { t with rows := rest })) (mmArgs r.cmd) row ups)
  obtain ⟨k, hk, hcmd, -, hid⟩ := comp.run r hr
  obtain ⟨u, hu, hrows, hcores⟩ := drainKept_eq (s.modArr a (fun t => { t with rows := rest })) r (coreOfArray a) (mmArgs r.cmd) row ups
  have hcore : u.core (coreOfArray a) = s.core (coreOfArray a) := by rw [State.core, hcores]; rfl
  refine ⟨k, comp.work, ?_, hk, hcmd, hid, fun hcols hn => ?_⟩
  · show ((State.drainKept _ r _ _ row ups).arr a).rows = rest
    rw [hu, sameRows_drainRow, hrows, State.modArr_same]
  · show ((State.drainKept _ r _ _ row ups).core _).epi = _
    rw [hu, drainRow_epi u r _ _ row ups hcols (by rw [hcore]; exact hn), hcore]

/-! ### Lanes and arrays are repaired -/

/-- An event of a unit goes to context 0 and leaves all but contexts. -/
theorem unitEvent_spec (s : State) (reason unit : Nat) :
    s.unitEvent reason unit = { s with hub := { s.hub with ctxs := (s.unitEvent reason unit).hub.ctxs } } ∧
    ((s.ctx 0).state = .active → ((s.unitEvent reason unit).ctx 0).formed = (s.ctx 0).formed ++
      [{ Entry.blank 4 reason with detail := detail [(0, 4, unit)] }]) := by
  unfold State.unitEvent State.event
  refine ⟨?_, fun ha => ?_⟩
  · rcases post_cases s 0 { Entry.blank 4 reason with detail := detail [(0, 4, unit)] } with h | h <;> rw [h]
    rfl
  · rw [post_active s 0 _ ha, State.modCtx_same]

theorem unitEvent_core (s : State) (reason unit : Nat) (d : Fin 4) : (s.unitEvent reason unit).core d = s.core d := by
  rw [(unitEvent_spec s reason unit).1]; rfl

theorem unitEvent_arr (s : State) (reason unit : Nat) (a : Fin 8) : (s.unitEvent reason unit).arr a = s.arr a := by
  rw [(unitEvent_spec s reason unit).1]; rfl

/-- The lane map of an array with a site on its spare. -/
def remapped (map : List Byte) (site : Nat) : List Byte :=
  let m := putBytes map (0x10 + site / 33) [BitVec.ofNat 8 (128 + site % 33)]
  putBytes m 1 [BitVec.ofNat 8 (byteAt m 1 + 1)]

theorem byteAt_eq (bs : List Byte) (i : Nat) : byteAt bs i = ((bs[i]?).getD 0).toNat := by
  unfold byteAt fld
  cases h : bs[i]? with
  | none =>
    rw [List.drop_eq_nil_of_le (List.getElem?_eq_none_iff.1 h)]
    rfl
  | some v =>
    obtain ⟨hi, rfl⟩ := List.getElem?_eq_some_iff.1 h
    rw [List.drop_eq_getElem_cons hi]
    simp only [List.take_succ_cons, List.take_zero, leNat, Nat.mul_zero, Nat.add_zero, Option.getD_some]

theorem putBytes_one (bs : List Byte) {off : Nat} (v : Byte) (h : off < bs.length) : putBytes bs off [v] = bs.set off v := by
  rw [List.set_eq_take_append_cons_drop, if_pos h]
  simp [putBytes]

theorem remapped_group (map : List Byte) {site : Nat} (hs : site < 4224) (hl : map.length = 144) :
    byteAt (remapped map site) (0x10 + site / 33) = 128 + site % 33 := by
  have hg : 0x10 + site / 33 < map.length := by omega
  unfold remapped
  dsimp only
  rw [putBytes_one map _ hg, putBytes_one _ _ (by rw [List.length_set]; omega), byteAt_eq, List.getElem?_set_ne (by omega), List.getElem?_set_self hg]
  simp only [Option.getD_some, BitVec.toNat_ofNat]
  omega

/-- The site of array a has moved to its spare. -/
def State.siteMoved (s : State) (a : Fin 8) (site : Nat) : State :=
  let s1 := s.modCore (coreOfArray a) (fun k => { k with remaps := k.remaps.erase (a, site) })
  let s2 := s1.modArr a (fun t => { t with map := remapped t.map site })
  (((s2.dropShadows (coreOfArray a)).modCore (coreOfArray a) (fun k => { k with reload := true })).queueMap 4 s2.laneMapBody).unitEvent 0x0609
    (siteUnit a.val site)

theorem doLaneRemap_eq {site : Nat} (ht : s.repairTime (coreOfArray a) = true)
    (hr : (s.core (coreOfArray a)).remaps.find? (fun p => p.1 == a) = some (a, site))
    (h7 : bit (byteAt (s.arr a).map (0x10 + site / 33)) 7 = false) (h6 : bit (byteAt (s.arr a).map (0x10 + site / 33)) 6 = false) :
    doLaneRemap a s = s.siteMoved a site := by
  unfold doLaneRemap
  dsimp only
  rw [hr]
  dsimp only
  rw [if_neg (by rw [ht]; decide), if_neg (by rw [h7, h6]; decide)]
  rfl

theorem dropShadows_arr (s : State) (c : Fin 4) (b : Fin 8) : (s.dropShadows c).arr b = if coreOfArray b = c then (s.arr b).dropShadow else s.arr b :=
  arr_both s c ArrayS.dropShadow b

theorem siteMoved_spec (s : State) (a : Fin 8) (site : Nat) :
    ((s.siteMoved a site).arr a).map = remapped (s.arr a).map site ∧ ((s.siteMoved a site).core (coreOfArray a)).reload = true ∧
      ((s.siteMoved a site).core (coreOfArray a)).remaps = (s.core (coreOfArray a)).remaps.erase (a, site) ∧
      (∀ b, b ≠ a → (s.siteMoved a site).arr b = if coreOfArray b = coreOfArray a then (s.arr b).dropShadow else s.arr b) ∧
      ((s.siteMoved a site).arr a).banks = (s.arr a).dropShadow.banks ∧ ((s.siteMoved a site).arr a).inService = (s.arr a).inService ∧
      ((s.ctx 0).state = .active → ((s.siteMoved a site).ctx 0).formed = (s.ctx 0).formed ++
        [{ Entry.blank 4 0x0609 with detail := detail [(0, 4, siteUnit a.val site)] }]) := by
  have arr (b : Fin 8) : (s.siteMoved a site).arr b =
      (((s.modCore (coreOfArray a) (fun k => { k with remaps := k.remaps.erase (a, site) })).modArr a
        (fun t => { t with map := remapped t.map site })).dropShadows (coreOfArray a)).arr b := unitEvent_arr _ _ _ b
  have same : (s.siteMoved a site).arr a = ({ s.arr a with map := remapped (s.arr a).map site } : ArrayS).dropShadow := by
    rw [arr, dropShadows_arr, if_pos rfl, State.modArr_same]
    rfl
  have core : (s.siteMoved a site).core (coreOfArray a) =
      { s.core (coreOfArray a) with remaps := (s.core (coreOfArray a)).remaps.erase (a, site), reload := true } := by
    refine (unitEvent_core _ _ _ _).trans ?_
    show ((State.modCore _ (coreOfArray a) _).core _) = _
    rw [State.modCore_same]
    show (let k := ((State.modCore _ (coreOfArray a) _).core _); ({ k with reload := true } : CoreS)) = _
    rw [State.modCore_same]
  refine ⟨by rw [same]; rfl, by rw [core], by rw [core], fun b hb => ?_, by rw [same]; rfl, by rw [same]; rfl, fun ha => ?_⟩
  · rw [arr, dropShadows_arr, State.modArr_other _ a b _ hb]
    rfl
  · exact (unitEvent_spec _ _ _).2 ha

/-- Array a has left service. -/
def State.degraded (s : State) (a : Fin 8) : State :=
  let s1 := s.modArr a (fun t => { t with degraded := true, inService := false })
  let both := [0, 1].all (fun b => (s1.arr (arrayOf (coreOfArray a) b)).degraded)
  (s1.modCore (coreOfArray a) (fun k => { k with degrades := k.degrades.erase a, remaps := k.remaps.filter (fun p => p.1 != a)
                                                 singleArray := !both, leaving := k.leaving || both })).unitEvent 0x060A a.val

theorem doArrayDegrade_eq (ht : s.repairTime (coreOfArray a) = true) (hd : a ∈ (s.core (coreOfArray a)).degrades) : doArrayDegrade a s = s.degraded a := by
  unfold doArrayDegrade
  dsimp only
  rw [if_neg (by rw [ht]; simp [hd])]
  rfl

/-- Both arrays of the core of array a have left service once the other one has. -/
theorem both_degraded (s : State) (a : Fin 8) : [0, 1].all (fun b => ((s.modArr a (fun t => { t with degraded := true, inService := false })).arr
    (arrayOf (coreOfArray a) b)).degraded) = true ↔ ∀ b, coreOfArray b = coreOfArray a → b ≠ a → (s.arr b).degraded = true := by
  have deg (b : Fin 8) : ((s.modArr a (fun t => { t with degraded := true, inService := false })).arr b).degraded = true ↔
      (b ≠ a → (s.arr b).degraded = true) := by
    by_cases hb : b = a
    · subst hb
      rw [State.modArr_same]
      simp
    · rw [State.modArr_other s a b _ hb]
      simp [hb]
  simp only [List.all_cons, List.all_nil, Bool.and_true, Bool.and_eq_true, deg]
  refine ⟨fun h b hb => ?_, fun h => ⟨h _ (coreOf_arrayOf _ 0), h _ (coreOf_arrayOf _ 1)⟩⟩
  rcases (eq_arrayOf_iff b (coreOfArray a)).1 hb with rfl | rfl
  · exact h.1
  · exact h.2

theorem degraded_spec (s : State) (a : Fin 8) : (s.degraded a).arr a = { s.arr a with degraded := true, inService := false } ∧
    (∀ b, b ≠ a → (s.degraded a).arr b = s.arr b) ∧
    ((∀ b, coreOfArray b = coreOfArray a → b ≠ a → (s.arr b).degraded = true) → ((s.degraded a).core (coreOfArray a)).leaving = true) ∧
    ((∃ b, coreOfArray b = coreOfArray a ∧ b ≠ a ∧ (s.arr b).degraded = false) → ((s.degraded a).core (coreOfArray a)).singleArray = true ∧
      ((s.degraded a).core (coreOfArray a)).leaving = (s.core (coreOfArray a)).leaving) ∧
    ((s.ctx 0).state = .active → ((s.degraded a).ctx 0).formed = (s.ctx 0).formed ++
      [{ Entry.blank 4 0x060A with detail := detail [(0, 4, a.val)] }]) := by
  have both := both_degraded s a
  unfold State.degraded
  dsimp only
  generalize hb : [0, 1].all (fun b => ((s.modArr a (fun t => { t with degraded := true, inService := false })).arr
    (arrayOf (coreOfArray a) b)).degraded) = both' at both ⊢
  refine ⟨?_, fun b hb => ?_, fun h => ?_, fun h => ?_, fun ha => (unitEvent_spec _ _ _).2 ha⟩
  · rw [unitEvent_arr, State.modCore_arr, State.modArr_same]
  · rw [unitEvent_arr, State.modCore_arr, State.modArr_other s a b _ hb]
  · rw [unitEvent_core, State.modCore_same, both.2 h]
    simp
  · obtain ⟨b, hc, hne, hd⟩ := h
    have hf : both' = false := by
      cases hb' : both' with
      | false => rfl
      | true => rw [both.1 hb' b hc hne] at hd; cases hd
    rw [unitEvent_core, State.modCore_same, hf]
    exact ⟨rfl, Bool.or_false _⟩

/-! ### A core leaves service -/

/-- Contexts keep their state, entries and queues; cores their service, and none begins a command. -/
structure Passes (s t : State) : Prop where
  state : ∀ y, (t.ctx y).state = (s.ctx y).state
  formed : ∀ y, (s.ctx y).formed <+: (t.ctx y).formed
  queues : SameQueues s t
  service : ∀ d, (t.core d).inService = (s.core d).inService
  idle : ∀ d, (s.core d).running = none → (t.core d).running = none

theorem Passes.refl (s : State) : Passes s s := ⟨fun _ => rfl, fun _ => List.prefix_rfl, fun _ _ => ⟨rfl, rfl⟩, fun _ => rfl, fun _ h => h⟩

theorem Passes.trans (h : Passes s t) (k : Passes t u) : Passes s u :=
  ⟨fun y => (k.state y).trans (h.state y), fun y => (h.formed y).trans (k.formed y), h.queues.trans k.queues,
    fun d => (k.service d).trans (h.service d), fun d e => k.idle d (h.idle d e)⟩

theorem Calm.passes (h : Calm s t) : Passes s t :=
  ⟨h.state, h.formed, h.sameQueues, fun d => by rw [h.core d], fun d e => by rw [h.core d]; exact e⟩

theorem passes_modCC (s : State) (x : Fin 16) (d : Fin 4) {f : CtxCore → CtxCore} (h : ∀ k, (f k).main = k.main ∧ (f k).eval = k.eval) :
    Passes s (s.modCC x d f) :=
  ⟨fun y => (bears_modCC (c := d) (x := y) s x d f).state, fun y => (bears_modCC (c := d) (x := y) s x d f).formed,
    sameQueues_modCC s x d f h, fun _ => rfl, fun _ e => e⟩

theorem passes_modCore (s : State) (c : Fin 4) {f : CoreS → CoreS} (h : ∀ k, (f k).inService = k.inService ∧ (k.running = none → (f k).running = none)) :
    Passes s (s.modCore c f) := by
  refine ⟨fun _ => rfl, fun _ => List.prefix_rfl, fun _ _ => ⟨rfl, rfl⟩, fun d => ?_, fun d e => ?_⟩
  · by_cases hd : d = c
    · subst hd; rw [State.modCore_same]; exact (h _).1
    · rw [State.modCore_other s c d f hd]
  · by_cases hd : d = c
    · subst hd; rw [State.modCore_same]; exact (h _).2 e
    · rw [State.modCore_other s c d f hd]; exact e

/-- What leaves contexts and cores alone. -/
theorem passes_of_same (hh : t.hub = s.hub) (hc : t.cores = s.cores) : Passes s t := by
  have hx (y : Fin 16) : t.ctx y = s.ctx y := by rw [State.ctx, hh]; rfl
  have hk (d : Fin 4) : t.core d = s.core d := by rw [State.core, hc]; rfl
  exact ⟨fun y => by rw [hx], fun y => by rw [hx], fun y d => by rw [State.cc, hx]; exact ⟨rfl, rfl⟩, fun d => by rw [hk], fun d e => by rw [hk]; exact e⟩

theorem calm_setStatus (s : State) (x : Fin 16) (g i : Nat) (v : Bool) : Calm s (s.setStatus x g i v) := by
  unfold State.setStatus
  split
  · exact Calm.refl s
  next h => exact calm_putAlm _ _ h

theorem passes_endUpdate (s : State) (r : Run) : Passes s (s.endUpdate r) := by
  unfold State.endUpdate
  exact frame_ite (calm_setStatus s _ _ _ _).passes (Passes.refl s)

theorem passes_endQueued (s : State) (x : Fin 16) (c : Fin 4) (cmd : Cmd) : Passes s (s.endQueued x c cmd) := by
  unfold State.endQueued
  split
  · exact Passes.refl s
  · dsimp only
    have freed (s : State) : Passes s (s.modCC x c (fun k => { k with setPending := false })) := passes_modCC s x c (fun _ => ⟨rfl, rfl⟩)
    have first : Passes s (if (s.cc x c).setPending then (s.setStatus x (groupAt cmd.desc 8) 0 false).modCC x c
        (fun k => { k with setPending := false }) else s) :=
      frame_ite ((calm_setStatus s _ _ _ _).passes.trans (freed _)) (Passes.refl s)
    split
    · split
      · exact first.trans (calm_setStatus _ _ _ _ _).passes
      · exact first
    · exact first

theorem passes_failRun (s : State) (r : Run) (reason : Nat) : Passes s (s.failRun r reason) := by
  have wr := (failRun_written s r).calm.passes
  refine wr.trans ?_
  unfold State.failRun
  dsimp only
  generalize (r.cmd.regions.filter (fun g => g.write && !g.scratch)).foldl (fun s g => s.poisonRegion r.x (ix 4 g.core) g) s = u
  refine ⟨fun y => ?_, fun y => ?_, fun y d => ?_, fun d => ?_, fun d e => ?_⟩
  · rw [modRun_ctx]
  · rw [modRun_ctx]
  · rw [modRun_cc]; exact ⟨rfl, rfl⟩
  · rw [modRun_core]
  · rw [modRun_core, e]; rfl

theorem passes_freeCore (s : State) (c : Fin 4) (r : Run) (charge : Nat) : Passes s (s.freeCore c r charge) := by
  have core := passes_modCore s c (f := fun k => { k with running := none, epi := [], issuing := [] }) (fun _ => ⟨rfl, fun _ => rfl⟩)
  have ctx (y : Fin 16) : (s.freeCore c r charge).ctx y = (s.modCC r.x c (·.chargeSlice charge)).ctx y := by rw [freeCore_eq]; rfl
  have charged := bears_modCC (c := c) (x := r.x) s r.x c (·.chargeSlice charge)
  refine ⟨fun y => ?_, fun y => ?_, sameQueues_freeCore s c r charge, fun d => ?_, fun d e => ?_⟩
  · rw [ctx]; exact (bears_modCC (c := c) (x := y) s r.x c _).state
  · rw [ctx]; exact (bears_modCC (c := c) (x := y) s r.x c _).formed
  · rw [freeCore_core]; exact core.service d
  · rw [freeCore_core]; exact core.idle d e

theorem passes_reportEnd (s : State) (c : Fin 4) (r : Run) (charge : Nat) : Passes s (s.reportEnd c r charge) := by
  have released := (tidy_releases s r.x r.claims r.out.failed).calm.passes
  have counted (u : State) : Passes u (u.modCC r.x c (·.countRun r.cmd r.out.failed charge)) :=
    passes_modCC u r.x c (fun k => by rw [countRun_eq]; exact ⟨rfl, rfl⟩)
  exact (released.trans (counted _)).trans (tidy_afterCount _ c r).calm.passes

/-- Whatever runs on a core outside spans ends, and the core is idle. -/
theorem passes_finishCore {c : Fin 4} (hr : (s.core c).running = some r) (hs : (s.core c).span = none) (charge : Nat) :
    Passes s (s.finishCore c charge) ∧ ((s.finishCore c charge).core c).running = none := by
  have hf : s.spanFor r.x c r.cmd.eval = none := by rw [State.spanFor, hs]
  rw [finishCore_of_noSpan charge hr hf]
  have left := (passes_endUpdate s r).trans (written_leaveWork (s.endUpdate r) c r).calm.passes
  refine ⟨(left.trans (passes_freeCore _ c r charge)).trans (passes_reportEnd _ c r charge), ?_⟩
  rw [(reportEnd_core _ c c r charge).1, freeCore_core, State.modCore_same]

theorem failQueued_spec (s : State) (x : Fin 16) (c : Fin 4) (cmd : Cmd) : Passes s (s.failQueued x c cmd) ∧
    ((s.ctx x).state = .active → Reported (s.failQueued x c cmd) x cmd (Done.fails 0x0224 false)) := by
  have ended := passes_endQueued s x c cmd
  unfold State.failQueued
  dsimp only
  have signalled : Passes s (if isForm 0x60 0 cmd then (s.endQueued x c cmd).signal x c.val cmd else s.endQueued x c cmd) := by
    split
    · exact ended.trans (calm_signal _ x _ cmd).passes
    · exact ended
  generalize (if isForm 0x60 0 cmd then _ else s.endQueued x c cmd) = u at signalled ⊢
  exact ⟨signalled.trans (tidy_report u x cmd _).calm.passes, fun ha => reported_fails ((signalled.state x).trans ha) cmd 0x0224 false⟩

theorem failQueued_foldl (x : Fin 16) (c : Fin 4) (cmds : List Cmd) (s : State) : Passes s (cmds.foldl (fun s cmd => s.failQueued x c cmd) s) ∧
    ((s.ctx x).state = .active → ∀ k ∈ cmds, Reported (cmds.foldl (fun s cmd => s.failQueued x c cmd) s) x k (Done.fails 0x0224 false)) := by
  induction cmds generalizing s with
  | nil => exact ⟨Passes.refl s, fun _ k hk => absurd hk (by simp)⟩
  | cons m cmds ih =>
    obtain ⟨h, hr⟩ := failQueued_spec s x c m
    obtain ⟨k, kr⟩ := ih (s.failQueued x c m)
    refine ⟨h.trans k, fun ha j hj => ?_⟩
    rcases List.mem_cons.1 hj with rfl | hj
    · exact (hr ha).mono (k.formed x)
    · exact kr ((h.state x).trans ha) j hj

/-- The commands of context x on core c fail. -/
def State.failQueue (s : State) (c : Fin 4) (x : Fin 16) : State :=
  ((s.cc x c).main ++ (s.cc x c).eval).foldl (fun s cmd => s.failQueued x c cmd)
    (s.modCC x c (fun k => { k with main := [], eval := [], admitted := 0 }))

/-- What it leaves: the queues of other contexts, and everything that passes. -/
structure Empties (c : Fin 4) (s t : State) : Prop where
  state : ∀ y, (t.ctx y).state = (s.ctx y).state
  formed : ∀ y, (s.ctx y).formed <+: (t.ctx y).formed
  service : ∀ d, (t.core d).inService = (s.core d).inService
  idle : ∀ d, (s.core d).running = none → (t.core d).running = none

theorem Empties.trans (h : Empties c s t) (k : Empties c t u) : Empties c s u :=
  ⟨fun y => (k.state y).trans (h.state y), fun y => (h.formed y).trans (k.formed y), fun d => (k.service d).trans (h.service d),
    fun d e => k.idle d (h.idle d e)⟩

theorem Passes.empties (h : Passes s t) : Empties c s t := ⟨h.state, h.formed, h.service, h.idle⟩

theorem failQueue_spec (s : State) (c : Fin 4) (x : Fin 16) : Empties c s (s.failQueue c x) ∧
    ((s.failQueue c x).cc x c).main = [] ∧ ((s.failQueue c x).cc x c).eval = [] ∧
    (∀ y, y ≠ x → ((s.failQueue c x).cc y c).main = (s.cc y c).main ∧ ((s.failQueue c x).cc y c).eval = (s.cc y c).eval) ∧
    ((s.ctx x).state = .active → ∀ k ∈ (s.cc x c).main ++ (s.cc x c).eval, Reported (s.failQueue c x) x k (Done.fails 0x0224 false)) := by
  have b (y : Fin 16) := bears_modCC (c := c) (x := y) s x c (fun k => { k with main := [], eval := [], admitted := 0 })
  obtain ⟨h, hr⟩ := failQueued_foldl x c ((s.cc x c).main ++ (s.cc x c).eval) (s.modCC x c (fun k => { k with main := [], eval := [], admitted := 0 }))
  have emptied : Empties c s (s.modCC x c (fun k => { k with main := [], eval := [], admitted := 0 })) :=
    ⟨fun y => (b y).state, fun y => (b y).formed, fun _ => rfl, fun _ e => e⟩
  refine ⟨emptied.trans h.empties, ?_, ?_, fun y hy => ?_, fun ha => hr ((b x).state.trans ha)⟩
  · exact (h.queues x c).1.trans (by rw [State.modCC_same])
  · exact (h.queues x c).2.trans (by rw [State.modCC_same])
  · have hq := h.queues y c
    rw [State.modCC_other_ctx s x y c c _ hy] at hq
    exact hq

theorem failQueues_foldl (c : Fin 4) (xs : List (Fin 16)) (hn : xs.Nodup) (s : State) :
    Empties c s (xs.foldl (fun s x => s.failQueue c x) s) ∧
    (∀ y, y ∉ xs → ((xs.foldl (fun s x => s.failQueue c x) s).cc y c).main = (s.cc y c).main ∧
      ((xs.foldl (fun s x => s.failQueue c x) s).cc y c).eval = (s.cc y c).eval) ∧
    ∀ x ∈ xs, ((xs.foldl (fun s x => s.failQueue c x) s).cc x c).main = [] ∧ ((xs.foldl (fun s x => s.failQueue c x) s).cc x c).eval = [] ∧
      ((s.ctx x).state = .active → ∀ k ∈ (s.cc x c).main ++ (s.cc x c).eval,
        Reported (xs.foldl (fun s x => s.failQueue c x) s) x k (Done.fails 0x0224 false)) := by
  induction xs generalizing s with
  | nil => exact ⟨(Passes.refl s).empties, fun _ _ => ⟨rfl, rfl⟩, fun x hx => absurd hx (by simp)⟩
  | cons z xs ih =>
    obtain ⟨hz, hn⟩ := List.nodup_cons.1 hn
    obtain ⟨h1, h2, h3, h4, h5⟩ := failQueue_spec s c z
    obtain ⟨k1, k2, k3⟩ := ih hn (s.failQueue c z)
    refine ⟨h1.trans k1, fun y hy => ?_, fun x hx => ?_⟩
    · obtain ⟨hne, hmem⟩ := List.ne_and_not_mem_of_not_mem_cons hy
      exact ⟨(k2 y hmem).1.trans (h4 y hne).1, (k2 y hmem).2.trans (h4 y hne).2⟩
    · rcases List.mem_cons.1 hx with rfl | hx
      · exact ⟨(k2 x hz).1.trans h2, (k2 x hz).2.trans h3, fun ha k hk => (h5 ha k hk).mono (k1.formed x)⟩
      · have hne : x ≠ z := fun e => hz (e ▸ hx)
        obtain ⟨m, e, hr⟩ := k3 x hx
        refine ⟨m, e, fun ha k hk => hr ((h1.state x).trans ha) k ?_⟩
        rw [(h4 x hne).1, (h4 x hne).2]
        exact hk

/-- What runs on a core that leaves service ends. -/
def State.coreStopped (s : State) (c : Fin 4) : State :=
  match (s.core c).running with
  | some r => (s.failRun r 0x0224).finishCore c (s.arrayTime - r.began)
  | none => s

theorem coreStopped_spec (hs : (s.core c).span = none) : Passes s (s.coreStopped c) ∧ ((s.coreStopped c).core c).running = none := by
  unfold State.coreStopped
  split
  next r hr =>
    have core := failRun_core s r 0x0224 c
    have hr' : ((s.failRun r 0x0224).core c).running = some (r.failsWith 0x0224 r) := by rw [core, hr]; rfl
    have hs' : ((s.failRun r 0x0224).core c).span = none := by rw [core]; exact hs
    obtain ⟨h1, h2⟩ := passes_finishCore hr' hs' (s.arrayTime - r.began)
    exact ⟨(passes_failRun s r _).trans h1, h2⟩
  next hr => exact ⟨Passes.refl s, hr⟩

/-- Core c has left service. -/
def State.coreLeft (s : State) (c : Fin 4) : State :=
  (((((List.finRange 16).foldl (fun s x => s.failQueue c x) (s.coreStopped c)).modCore c (fun k => { k with inService := false, leaving := false })).modArr
    (arrayOf c 0) (fun t => { t with inService := false })).modArr (arrayOf c 1) (fun t => { t with inService := false })).coreRws c

theorem doCoreOutOfService_eq (hl : (s.core c).leaving = true) (hs : (s.core c).span = none) : doCoreOutOfService c s = s.coreLeft c := by
  have hf : s.failSpan c 0x0224 = s := by
    unfold State.failSpan
    rw [hs]
  unfold doCoreOutOfService
  rw [if_neg (by rw [hl]; decide)]
  simp only [hf]
  rfl

theorem coreLeft_spec (hs : (s.core c).span = none) : ((s.coreLeft c).core c).inService = false ∧ ((s.coreLeft c).core c).leaving = false ∧
    ((s.coreLeft c).core c).running = none ∧ (∀ d, d ≠ c → ((s.coreLeft c).core d).inService = (s.core d).inService) ∧
    ∀ x, ((s.coreLeft c).cc x c).main = [] ∧ ((s.coreLeft c).cc x c).eval = [] ∧
      ((s.ctx x).state = .active → ∀ cmd ∈ (s.cc x c).main ++ (s.cc x c).eval, Reported (s.coreLeft c) x cmd (Done.fails 0x0224 false)) := by
  obtain ⟨h1, h2⟩ := coreStopped_spec hs
  obtain ⟨k1, -, k3⟩ := failQueues_foldl c (List.finRange 16) (List.nodup_finRange 16) (s.coreStopped c)
  unfold State.coreLeft
  generalize (List.finRange 16).foldl (fun s x => s.failQueue c x) (s.coreStopped c) = u at k1 k3 ⊢
  have core (d : Fin 4) : ((((u.modCore c (fun k => { k with inService := false, leaving := false })).modArr (arrayOf c 0)
      (fun t => { t with inService := false })).modArr (arrayOf c 1) (fun t => { t with inService := false })).coreRws c).core d =
      ((u.modCore c (fun k => { k with inService := false, leaving := false })).modCore c (fun k => { k with ift := { k.ift with period := k.ift.periodNext } })).core d := rfl
  refine ⟨?_, ?_, ?_, fun d hd => ?_, fun x => ?_⟩
  · rw [core, State.modCore_same, State.modCore_same]
  · rw [core, State.modCore_same, State.modCore_same]
  · rw [core, State.modCore_same, State.modCore_same]
    exact k1.idle c h2
  · rw [core, State.modCore_other _ _ _ _ hd, State.modCore_other _ _ _ _ hd]
    exact (k1.service d).trans (h1.service d)
  · obtain ⟨m, e, hr⟩ := k3 x (List.mem_finRange x)
    refine ⟨m, e, fun ha k hk => hr ((h1.state x).trans ha) k ?_⟩
    rw [(h1.queues x c).1, (h1.queues x c).2]
    exact hk

end

/-- Settles O56: each command of the arrays changes its part and leaves what the rest of the core holds. -/
theorem arraysLoadDrainAndLeave : Obligations.ArraysLoadDrainAndLeave := by
  intro s hu
  have run {f t} (h : f s = t) : inDies f s = .next t := (inDies_up _ _ hu).trans (congrArg _ h)
  refine ⟨fun c cmd hc => ?_, fun a k hk => ⟨fun hl cmd ev b hc ht => ?_, fun hr ha hi hq => ?_⟩, fun a ups r row rest hr hs => ?_,
    fun a c hc ht => ⟨fun site hr h7 h6 hs hl => ?_, fun hd => ?_⟩, fun c hl hs => ?_, fun a hcold hiss hift hlong => ?_⟩
  · obtain ⟨h1, h2⟩ := loadsAhead_spec s cmd c
    refine ⟨s.loadsAhead cmd c, run (doLookaheadLoad_eq hc), h1, fun a k => ⟨(h2 a).1, ((h2 a).2 k).trans ?_⟩⟩
    refine if_congr ?_ rfl rfl
    refine and_congr_right (fun ha => ?_)
    by_cases hk : k = (s.arr a).activeBank
    · simp [hk]
    · rw [wantsAhead_iff s cmd hk, ha]
      tauto
  · obtain ⟨h1, h2, h3, h4, h5⟩ := loaded_spec hk b
    obtain ⟨hb, hready⟩ := nextTile_cols ht
    exact ⟨s.loaded a k b, run (doBankLoadDone_eq hk hl hc ht), h1, by rw [h2]; exact hready, h2, hb, h3, h4, h5⟩
  · exact ⟨_, run (doBankSwap_eq hk hr ha hi hq), swapped_spec hk _⟩
  · obtain ⟨k, h⟩ := drained_spec rest ups hr
    exact ⟨_, k, run (doRowDrain_eq ups hr hs), h⟩
  · subst hc
    obtain ⟨hmap, h⟩ := siteMoved_spec s a site
    exact ⟨s.siteMoved a site, run (doLaneRemap_eq ht hr h7 h6), by rw [hmap]; exact remapped_group _ hs hl, h⟩
  · subst hc
    exact ⟨s.degraded a, run (doArrayDegrade_eq ht hd), degraded_spec s a⟩
  · exact ⟨s.coreLeft c, run (doCoreOutOfService_eq hl hs), coreLeft_spec hs⟩
  · refine run (f := doArrayCold a) ?_
    unfold doArrayCold
    exact if_pos (by simp [hcold, hiss, hift, hlong])

end Sys2Proof.Machine
end

section
/-! PROOFS. Scrubs and flushes (10). -/

namespace Sys2Proof.Machine

open Sys2Proof

/-! ## Scrubs and flushes (10, R245 to R248, R259, R261) -/

section
variable {s t : State} {n : Fin 12} {st : StackS} {e : WcbEntry}

/-! ### A flushed entry -/

/-- A read of sector k finds it poisoned, or cannot correct it. -/
def StackS.lost (st : StackS) (k : Nat) : Bool :=
  match st.outcome k with
  | .clean => false
  | .corrected _ => false
  | .poisoned => true
  | .uncorrectable => true

/-- The bytes of a sector are poisoned together. -/
theorem sectorBytes_lost (st : StackS) (k : Nat) : ∀ b ∈ st.sectorBytes k, b.p = st.lost k := by
  unfold StackS.sectorBytes StackS.lost
  dsimp only
  cases st.outcome k <;>
  · intro b hb
    obtain ⟨_, -, rfl⟩ := List.mem_map.1 hb
    rfl

theorem stored_lost (st : StackS) (a : Nat) : (st.stored a).p = st.lost (a / 64) := by
  have hlt : a % 64 < (st.sectorBytes (a / 64)).length := by rw [sectorBytes_length]; exact Nat.mod_lt _ (by decide)
  refine sectorBytes_lost st (a / 64) _ ?_
  rw [StackS.stored, List.getElem?_eq_getElem hlt]
  exact List.getElem_mem _

theorem lost_of_dead {k : Nat} (h : st.dead.contains (pseudoChannel (64 * k)) = true) : st.lost k = true := by
  unfold StackS.lost StackS.outcome
  by_cases hp : st.poison.contains k = true
  · rw [if_pos hp]
  · rw [if_neg hp, if_pos h]

/-- The sector that an entry flushes, with its bytes laid over. -/
def flushedBytes (st : StackS) (e : WcbEntry) : List PByte :=
  overlay 0 e.bytes (st.sectorBytes e.sector) ((st.sectorBytes e.sector).any (·.p) || e.poison)

@[simp] theorem flushedBytes_length (st : StackS) (e : WcbEntry) : (flushedBytes st e).length = 64 := by
  simp [flushedBytes, overlay, sectorBytes_length]

theorem flushedBytes_get (st : StackS) (e : WcbEntry) {j : Nat} (hj : j < 64) : ((flushedBytes st e)[j]?).getD ⟨0, false⟩ =
    match alookup j e.bytes with
    | some v => ⟨v, st.lost e.sector || e.poison⟩
    | none => ⟨(st.stored (64 * e.sector + j)).b, st.lost e.sector || e.poison⟩ := by
  have hlt : j < (st.sectorBytes e.sector).length := by rw [sectorBytes_length]; exact hj
  have hp := sectorBytes_lost st e.sector _ (List.getElem_mem hlt)
  have hany : (st.sectorBytes e.sector).any (·.p) = st.lost e.sector := by
    cases hl : st.lost e.sector with
    | true => exact List.any_eq_true.2 ⟨_, List.getElem_mem hlt, hp.trans hl⟩
    | false => exact List.any_eq_false.2 (fun b hb => by rw [sectorBytes_lost st _ b hb, hl]; decide)
  have hk : (64 * e.sector + j) / 64 = e.sector := by omega
  have hr : (64 * e.sector + j) % 64 = j := by omega
  unfold flushedBytes overlay
  rw [hany]
  simp only [List.getElem?_map, List.getElem?_zipIdx, List.getElem?_eq_getElem hlt, Option.map_some, Option.getD_some, Nat.zero_add, hp]
  cases alookup j e.bytes with
  | some v => simp
  | none => simp [StackS.stored, hk, hr, List.getElem?_eq_getElem hlt]

/-- The flushed sector is poisoned as a whole, or not at all. -/
theorem sectorPoison_flushed (st : StackS) (e : WcbEntry) : sectorPoison (flushedBytes st e) 0 = (st.lost e.sector || e.poison) := by
  have hp : ∀ b ∈ flushedBytes st e, b.p = (st.lost e.sector || e.poison) := by
    intro b hb
    obtain ⟨j, hj, rfl⟩ := List.mem_iff_getElem.1 hb
    have h := flushedBytes_get st e (j := j) (by simpa using hj)
    rw [List.getElem?_eq_getElem hj, Option.getD_some] at h
    rw [h]
    split <;> rfl
  have h0 : 0 < (flushedBytes st e).length := by simp
  unfold sectorPoison
  rw [Nat.mul_zero, List.drop_zero, List.take_of_length_le (by simp)]
  cases hl : (st.lost e.sector || e.poison) with
  | true => exact List.any_eq_true.2 ⟨_, List.getElem_mem h0, (hp _ (List.getElem_mem h0)).trans hl⟩
  | false => exact List.any_eq_false.2 (fun b hb => by rw [hp b hb, hl]; decide)

theorem flushPartial_stored (st : StackS) (e : WcbEntry) (a : Nat) :
    (st.flushPartial e).stored a = (st.putSectors (64 * e.sector) (flushedBytes st e)).stored a := by
  unfold StackS.flushPartial StackS.noteRead
  cases st.outcome e.sector <;> rfl

theorem flushPartial_wcb (st : StackS) (e : WcbEntry) : (st.flushPartial e).wcb = st.wcb.filter (fun x => x.sector != e.sector) := by
  unfold StackS.flushPartial StackS.noteRead
  cases st.outcome e.sector <;> rfl

/-- Entries of other sectors leave a byte alone. -/
theorem foldl_over_none {a : Nat} (es : List WcbEntry) (v : PByte) (h : ∀ e ∈ es, a / 64 ≠ e.sector) : es.foldl (fun b e => e.over a b) v = v := by
  induction es generalizing v with
  | nil => rfl
  | cons e es ih =>
    rw [List.foldl_cons, WcbEntry.over, if_neg (h e List.mem_cons_self)]
    exact ih v (fun e' h' => h e' (List.mem_cons_of_mem _ h'))

/-- Of the entries of different sectors only one is laid over a byte. -/
theorem foldl_over_unique {a : Nat} {es : List WcbEntry} (hn : (es.map (·.sector)).Nodup) (he : e ∈ es) (ha : a / 64 = e.sector) (v : PByte) :
    es.foldl (fun b e => e.over a b) v = e.over a v := by
  induction es generalizing v with
  | nil => cases he
  | cons f es ih =>
    rw [List.map_cons, List.nodup_cons] at hn
    rw [List.foldl_cons]
    rcases List.mem_cons.1 he with rfl | he
    · exact foldl_over_none es _ (fun g hg hs => hn.1 (List.mem_map.2 ⟨g, hg, hs.symm.trans ha⟩))
    · have hf : f.over a v = v := if_neg (fun hs => hn.1 (List.mem_map.2 ⟨e, he, ha.symm.trans hs⟩))
      rw [hf]
      exact ih hn.2 he v

/-- A flush of an entry changes no byte that a read gives. -/
theorem flushPartial_peek (hm : st.mem.wf = true) (hn : (st.wcb.map (·.sector)).Nodup) (he : e ∈ st.wcb) (a : Nat) :
    (st.flushPartial e).peek a = st.peek a := by
  have hstored := stored_putSectors st (a := 64 * e.sector) (bs := flushedBytes st e) (by omega) (by simp) hm a
  rw [flushedBytes_length] at hstored
  unfold StackS.peek
  rw [flushPartial_wcb, flushPartial_stored, hstored]
  by_cases ha : a / 64 = e.sector
  · have hsub : (a - 64 * e.sector) / 64 = 0 := by omega
    have hoff : a - 64 * e.sector = a % 64 := by omega
    have haddr : 64 * e.sector + a % 64 = a := by omega
    rw [if_pos (by omega), foldl_over_unique hn he ha, foldl_over_none _ _ (fun f hf hs => ?_), hsub, sectorPoison_flushed, hoff,
      flushedBytes_get st e (Nat.mod_lt _ (by decide)), haddr, WcbEntry.over, if_pos ha, stored_lost, ha]
    · have hlost : (st.lost e.sector || e.poison || st.dead.contains (pseudoChannel (64 * e.sector))) = (st.lost e.sector || e.poison) := by
        cases hd : st.dead.contains (pseudoChannel (64 * e.sector)) with
        | true => rw [lost_of_dead hd]; rfl
        | false => rw [Bool.or_false]
      rw [hlost]
      cases alookup (a % 64) e.bytes <;> rfl
    · have h := (List.mem_filter.1 hf).2
      simp only [bne_iff_ne] at h
      exact h (hs.symm.trans ha)
  · rw [if_neg (by omega)]
    refine foldl_over_filter _ _ _ (fun f _ hf hs => ha ?_) _
    simp only [bne_eq_false_iff_eq] at hf
    exact hs.trans hf

theorem filter_sector_eraseIdx {es : List WcbEntry} (hn : (es.map (·.sector)).Nodup) {k : Nat} (h : es[k]? = some e) :
    es.filter (fun x => x.sector != e.sector) = es.eraseIdx k := by
  induction es generalizing k with
  | nil => simp at h
  | cons f es ih =>
    rw [List.map_cons, List.nodup_cons] at hn
    cases k with
    | zero =>
      have he : f = e := by simpa using h
      subst he
      rw [List.filter_cons_of_neg (by simp)]
      refine List.filter_eq_self.2 (fun g hg => ?_)
      have hne : g.sector ≠ f.sector := fun he => hn.1 (List.mem_map.2 ⟨g, hg, he⟩)
      simpa using hne
    | succ k =>
      have hmem : e ∈ es := List.mem_of_getElem? (by simpa using h)
      have hne : f.sector ≠ e.sector := fun he => hn.1 (List.mem_map.2 ⟨e, hmem, he.symm⟩)
      rw [List.filter_cons_of_pos (by simpa using hne), ih hn.2 (by simpa using h)]
      rfl

theorem find_sector {es : List WcbEntry} (hn : (es.map (·.sector)).Nodup) (he : e ∈ es) : es.find? (fun f => f.sector == e.sector) = some e := by
  induction es with
  | nil => cases he
  | cons f es ih =>
    rw [List.map_cons, List.nodup_cons] at hn
    rcases List.mem_cons.1 he with rfl | he
    · exact List.find?_cons_of_pos (by simp)
    · have hne : f.sector ≠ e.sector := fun hs => hn.1 (List.mem_map.2 ⟨e, he, hs.symm⟩)
      rw [List.find?_cons_of_neg (by simpa using hne)]
      exact ih hn.2 he

/-- The oldest entries leave the buffer, and every byte reads as before. -/
theorem flushOldest_spec (k : Nat) (st : StackS) (h : st.tidy) : (StackS.flushOldest k st).mem.wf = true ∧
    (∀ a, (StackS.flushOldest k st).peek a = st.peek a) ∧ (StackS.flushOldest k st).wcb = st.wcb.drop k := by
  induction k generalizing st with
  | zero => exact ⟨h.1, fun _ => rfl, rfl⟩
  | succ k ih =>
    obtain ⟨hm, hn⟩ := h
    unfold StackS.flushOldest
    cases hw : st.wcb with
    | nil => exact ⟨hm, fun _ => rfl, by rw [hw]; rfl⟩
    | cons e es =>
      dsimp only
      have he : e ∈ st.wcb := by rw [hw]; exact List.mem_cons_self
      have hwcb : (st.flushPartial e).wcb = es := by
        rw [flushPartial_wcb, filter_sector_eraseIdx hn (k := 0) (by rw [hw]; rfl), hw]
        rfl
      have hn' : ((st.flushPartial e).wcb.map (·.sector)).Nodup := by
        rw [hw, List.map_cons, List.nodup_cons] at hn
        rw [hwcb]
        exact hn.2
      obtain ⟨k1, k2, k3⟩ := ih (st.flushPartial e) ⟨StackS.wf_flushPartial st e hm, hn'⟩
      refine ⟨k1, fun a => (k2 a).trans (flushPartial_peek hm hn he a), ?_⟩
      rw [k3, hwcb]
      rfl

theorem onlyStack_modStack (s : State) (n : Fin 12) (f : StackS → StackS) : OnlyStack n s (s.modStack n f) :=
  ⟨rfl, fun m hm => State.modStack_other s n m f hm⟩

/-- Stacks whose bytes agree read alike. -/
theorem read_congr {st u : StackS} (hm : st.mem.wf = true) (hu : u.mem.wf = true) (h : ∀ a, u.peek a = st.peek a) (a m : Nat) :
    u.read a m = st.read a m := by
  rw [StackS.read_eq st hm, StackS.read_eq u hu]
  exact List.map_congr_left (fun i _ => h _)

theorem flushAge_spec {k : Nat} (h : (s.stack n).tidy) (he : (s.stack n).wcb[k]? = some e) (ha : wcbAge (s.stack n).ctrl.wcbAge ≤ e.age) :
    doWcbAgeFlush n e.sector s = s.modStack n (fun t => t.flushPartial e) ∧
      (∀ a m, ((s.modStack n (fun t => t.flushPartial e)).stack n).read a m = (s.stack n).read a m) ∧
      ((s.modStack n (fun t => t.flushPartial e)).stack n).wcb = (s.stack n).wcb.eraseIdx k := by
  obtain ⟨hm, hn⟩ := h
  have hmem := List.mem_of_getElem? he
  have hfind := find_sector hn hmem
  refine ⟨?_, ?_, ?_⟩
  · unfold doWcbAgeFlush
    dsimp only
    rw [hfind]
    exact if_pos ha
  · rw [State.modStack_same]
    exact read_congr hm (StackS.wf_flushPartial _ _ hm) (flushPartial_peek hm hn hmem)
  · rw [State.modStack_same, flushPartial_wcb, filter_sector_eraseIdx hn he]

theorem flushHigh_spec (h : (s.stack n).tidy) :
    (∀ a m, ((doWcbHighFlush n s).stack n).read a m = (s.stack n).read a m) ∧
      ((doWcbHighFlush n s).stack n).wcb = (s.stack n).wcb.drop ((s.stack n).wcb.length + 1 - 32 * (s.stack n).ctrl.high) := by
  obtain ⟨h1, h2, h3⟩ := flushOldest_spec ((s.stack n).wcb.length + 1 - 32 * (s.stack n).ctrl.high) (s.stack n) h
  unfold doWcbHighFlush
  dsimp only
  rw [State.modStack_same]
  exact ⟨read_congr h.1 h1 h2, h3⟩

/-! ### A scrub -/

/-- What the scrub's decoder finds in a sector (R247, R248, R259). -/
def StackS.scrubbed (st : StackS) (sector : Nat) (all : Pattern) : Decoded :=
  if st.dead.contains (pseudoChannel (64 * sector)) then .uncorrectable
  else decodeSector (st.erased (64 * sector)) (all ++ if st.poison.contains sector then maskPattern else [])

/-- What a scrub does with what it finds. -/
def State.scrub (s : State) (n : Fin 12) (sector : Nat) (all : Pattern) : State :=
  let data := flipData ((s.stack n).mem.read (64 * sector) 64) all
  match (s.stack n).scrubbed sector all with
  | .clean => if (s.stack n).poison.contains sector then s.modStack n (fun t => { t with ue := satAdd t.ue 1 }) else s
  | .poisoned => s.modStack n (fun t => { t with ue := satAdd t.ue 1 })
  | .corrected p => s.modStack n (fun t => (t.noteFixed sector p).putSectors (64 * sector) ((flipData data p).map (fun b => (⟨b, false⟩ : PByte))))
  | .uncorrectable => s.loseSector n (64 * sector) data

theorem doScrubRead_eq {sector : Nat} (err : Pattern) (hb : s.blks[ix 36 (18 + n.val)].enabled = true) (ha : 64 * sector < 0x1200000000) :
    doScrubRead n sector err s = s.scrub n sector ((s.stack n).errsOf sector ++ err) := by
  unfold doScrubRead
  dsimp only
  rw [if_neg (by rw [hb]; simp; omega)]
  rfl

theorem scrubData_length (st : StackS) (sector : Nat) (all : Pattern) : (flipData (st.mem.read (64 * sector) 64) all).length = 64 :=
  flipData_length _ _ (by simp)

theorem sectorPoison_clean (bs : List Byte) (j : Nat) : sectorPoison (bs.map (fun b => (⟨b, false⟩ : PByte))) j = false := by
  unfold sectorPoison
  refine List.any_eq_false.2 (fun b hb => ?_)
  obtain ⟨v, -, rfl⟩ := List.mem_map.1 (List.mem_of_mem_drop (List.mem_of_mem_take hb))
  exact Bool.false_ne_true

/-- A sector stored repaired. -/
theorem repaired_spec (st : StackS) (sector : Nat) (p : Pattern) {bs : List Byte} (hl : bs.length = 64) :
    let t := (st.noteFixed sector p).putSectors (64 * sector) (bs.map (fun b => (⟨b, false⟩ : PByte)))
    t.ce = satAdd st.ce 1 ∧ t.ue = st.ue ∧ sector ∉ t.poison ∧
      t.fixes = st.fixes ++ (p.filter (fun e => e.2 ≠ 0 ∧ e.1 ∉ st.erased (64 * sector))).map (fun e => 36 * pseudoChannel (64 * sector) + e.1) ∧
      (∀ k, k ≠ sector → (k ∈ t.poison ↔ k ∈ st.poison)) ∧
      ∀ a, t.mem.get a = if 64 * sector ≤ a ∧ a < 64 * sector + 64 then (bs[a - 64 * sector]?).getD 0 else st.mem.get a := by
  intro t
  have marks := mem_poison_putSectors (st.noteFixed sector p) (a := 64 * sector) (bs := bs.map (fun b => (⟨b, false⟩ : PByte))) (by simp [hl])
  refine ⟨rfl, rfl, ?_, ?_, fun k hk => ?_, fun a => ?_⟩
  · rw [marks, if_pos (by simp [hl]), sectorPoison_clean]
    decide
  · refine congrArg (fun l => st.fixes ++ List.map _ l) (List.filter_congr (fun e _ => ?_))
    rw [Bool.eq_iff_iff, decide_eq_true_eq, Bool.and_eq_true, bne_iff_ne]
    simp
  · rw [marks, if_neg (by simp [hl]; omega)]
    rfl
  · refine (Mem.get_write _ _ _ _).trans ?_
    simp only [List.length_map, hl, List.getElem?_map, Option.map_map, Function.comp_def, Option.map_id']
    rfl

/-- A sector found uncorrectable outside the reserved region. -/
theorem lostSector_spec {sector : Nat} {data : List Byte} (hl : data.length = 64) (hr : inReserved n (64 * sector) = false) :
    sector ∈ ((s.loseSector n (64 * sector) data).stack n).poison ∧
      ((s.loseSector n (64 * sector) data).stack n).ue = satAdd (s.stack n).ue 1 ∧
      (∀ m, m ≠ n → (s.loseSector n (64 * sector) data).stack m = s.stack m) ∧
      s.loseSector n (64 * sector) data = { s with hbm := (s.loseSector n (64 * sector) data).hbm, faults := { s.faults with
        detected := (s.loseSector n (64 * sector) data).faults.detected } } ∧
      (sector ∉ (s.stack n).poison → (s.loseSector n (64 * sector) data).faults.detected = s.faults.detected ++ [s.sectorFault n (64 * sector)]) := by
  have hdiv : 64 * sector / 64 = sector := by omega
  have marks := mem_poison_putSectors (s.stack n) (a := 64 * sector) (bs := data.map (fun b => (⟨b, true⟩ : PByte))) (by simp [hl]) sector
  have hpois : sectorPoison (data.map (fun b => (⟨b, true⟩ : PByte))) 0 = true := by
    unfold sectorPoison
    cases data with
    | nil => cases hl
    | cons b data => rfl
  have hmem : sector ∈ ((s.stack n).poisonSector (64 * sector) data).poison := by
    refine marks.2 ?_
    rw [if_pos (by simp [hl]), hdiv, Nat.sub_self]
    exact hpois
  have hstack : ((s.loseSector n (64 * sector) data).hbm) = (s.modStack n (fun t => t.poisonSector (64 * sector) data)).hbm := by
    unfold State.loseSector
    dsimp only
    rw [hr, Bool.false_and, if_neg Bool.false_ne_true]
    split <;> rfl
  have hst (m : Fin 12) : (s.loseSector n (64 * sector) data).stack m = (s.modStack n (fun t => t.poisonSector (64 * sector) data)).stack m := by
    unfold State.stack
    rw [hstack]
  refine ⟨?_, ?_, fun m hm => ?_, ?_, fun hp => ?_⟩
  · rw [hst, State.modStack_same]; exact hmem
  · rw [hst, State.modStack_same]; rfl
  · rw [hst, State.modStack_other s n m _ hm]
  · unfold State.loseSector
    dsimp only
    rw [hr, Bool.false_and, if_neg Bool.false_ne_true]
    split <;> rfl
  · unfold State.loseSector
    dsimp only
    rw [hr, Bool.false_and, if_neg Bool.false_ne_true, hdiv, if_neg (by simpa using hp)]
    rfl

end

/-- Settles O57: a scrub stores what its decoder gives, and a flush lays an entry over the sector that a read lays it over. -/
theorem scrubsAndFlushes : Obligations.ScrubsAndFlushes := by
  refine ⟨fun s n sector err all out hu hb hlim hall hout => ?_, fun s n cmd k hu ht hcmd => ?_⟩
  · have run {t} (h : doScrubRead n sector err s = t) : exec (.scrubRead n sector err) s = .next t := (inDies_up _ _ hu).trans (congrArg _ h)
    subst hall
    have heq := doScrubRead_eq err hb hlim
    have hfound : (s.stack n).scrubbed sector ((s.stack n).errsOf sector ++ err) = out := hout.symm
    unfold State.scrub at heq
    dsimp only at heq
    rw [hfound] at heq
    refine ⟨fun ho hp => ?_, fun ho => ?_, fun p ho => ?_, fun ho hr => ?_⟩
    · rw [ho] at heq
      exact run (heq.trans (if_neg (by simpa using hp)))
    · rw [ho] at heq
      exact run heq
    · rw [ho] at heq
      refine ⟨_, run heq, onlyStack_modStack s n _, ?_⟩
      rw [State.modStack_same]
      exact repaired_spec (s.stack n) sector p (flipData_length _ _ (scrubData_length _ _ _))
    · rw [ho] at heq
      exact ⟨_, run heq, lostSector_spec (scrubData_length _ _ _) hr⟩
  · rcases hcmd with ⟨e, rfl, he, ha⟩ | ⟨rfl, rfl⟩
    · obtain ⟨h1, h2, h3⟩ := flushAge_spec ht he ha
      exact ⟨_, (inDies_up (doWcbAgeFlush n e.sector) _ hu).trans (congrArg _ h1), onlyStack_modStack s n _, h2, h3.trans (if_neg (by simp)).symm⟩
    · obtain ⟨h1, h2⟩ := flushHigh_spec ht
      exact ⟨_, inDies_up (doWcbHighFlush n) _ hu, onlyStack_modStack s n _, h1, h2.trans (if_pos rfl).symm⟩

end Sys2Proof.Machine
end

section
/-! PROOFS. Compaction (11). -/

namespace Sys2Proof.Machine

open Sys2Proof

/-! # Compaction (11, R280) -/

/-- A block of the directory has a new place. -/
def State.packBlock (r : State × Nat) (b : Nat × Nat × Nat × Nat) : State × Nat :=
  (r.1.modTiers (fun t => { t with deepDir := ainsert b.1 (((alookup b.1 t.deepDir).getD []).set b.2.1 ⟨r.2, b.2.2.2⟩) t.deepDir }),
    r.2 + b.2.2.2)

theorem packChannel_eq (s : State) (ch : Nat) : s.packChannel ch = ((s.channelBlocks ch).foldl State.packBlock (s, 0)).1 := rfl

/-- A block stands in the directory of its page, with its length. -/
def State.HasBlock (s : State) (b : Nat × Nat × Nat × Nat) : Prop :=
  ∃ d g, alookup b.1 s.tiers.deepDir = some d ∧ d[b.2.1]? = some ⟨g, b.2.2.2⟩

/-- The directory of deep blocks alone differs. -/
def OnlyDir (s t : State) : Prop := t = { s with tiers := { s.tiers with deepDir := t.tiers.deepDir } }

theorem OnlyDir.trans {s t u : State} (h : OnlyDir s t) (k : OnlyDir t u) : OnlyDir s u := by
  unfold OnlyDir at *
  rw [k, h]

section
variable {s : State} {b : Nat × Nat × Nat × Nat}

theorem deepDirOf_packBlock (n : Nat) (h : s.HasBlock b) (p j : Nat) : ((State.packBlock (s, n) b).1.deepDirOf p)[j]? =
    if p = b.1 ∧ j = b.2.1 then some ⟨n, b.2.2.2⟩ else (s.deepDirOf p)[j]? := by
  obtain ⟨d, g, hd, hj⟩ := h
  have hlt : b.2.1 < d.length := (List.getElem?_eq_some_iff.1 hj).1
  have hdir : (State.packBlock (s, n) b).1.deepDirOf p = if p = b.1 then d.set b.2.1 ⟨n, b.2.2.2⟩ else s.deepDirOf p := by
    simp only [State.packBlock, State.deepDirOf, State.modTiers, hd, alookup_ainsert, Option.getD_some]
    split <;> rfl
  rw [hdir]
  by_cases hp : p = b.1
  · subst hp
    have hs : s.deepDirOf b.1 = d := by simp [State.deepDirOf, hd]
    rw [if_pos rfl, hs, List.getElem?_set, if_pos hlt]
    simp [eq_comm]
  · rw [if_neg hp, if_neg (fun h => hp h.1)]

theorem hasBlock_packBlock (n : Nat) (h : s.HasBlock b) {c : Nat × Nat × Nat × Nat} (hc : s.HasBlock c) (hn : (b.1, b.2.1) ≠ (c.1, c.2.1)) :
    (State.packBlock (s, n) b).1.HasBlock c := by
  obtain ⟨d, g, hd, -⟩ := h
  obtain ⟨e, k, he, hk⟩ := hc
  by_cases hp : c.1 = b.1
  · have hde : e = d := by rw [hp, hd] at he; exact (Option.some.inj he).symm
    refine ⟨d.set b.2.1 ⟨n, b.2.2.2⟩, k, ?_, ?_⟩
    · simp [State.packBlock, State.modTiers, hd, alookup_ainsert, hp]
    · have hj : b.2.1 ≠ c.2.1 := fun hj => hn (Prod.ext hp.symm hj)
      rw [List.getElem?_set_ne hj, ← hde]
      exact hk
  · refine ⟨e, k, ?_, hk⟩
    simp [State.packBlock, State.modTiers, alookup_ainsert, hp, he]

/-- Blocks packed one behind the other: each has its place behind those before it, and every other entry stays. -/
theorem foldl_packBlock (l : List (Nat × Nat × Nat × Nat)) (s : State) (n : Nat) (h : ∀ b ∈ l, s.HasBlock b)
    (hd : (l.map (fun b => (b.1, b.2.1))).Nodup) :
    OnlyDir s (l.foldl State.packBlock (s, n)).1 ∧
    (∀ (i : Nat) (b : Nat × Nat × Nat × Nat), l[i]? = some b → (((l.foldl State.packBlock (s, n)).1.deepDirOf b.1)[b.2.1]?) =
      some ⟨n + ((l.take i).map (fun b => b.2.2.2)).sum, b.2.2.2⟩) ∧
    ∀ p j, (∀ b ∈ l, ¬(b.1 = p ∧ b.2.1 = j)) → (((l.foldl State.packBlock (s, n)).1.deepDirOf p)[j]?) = (s.deepDirOf p)[j]? := by
  induction l generalizing s n with
  | nil => exact ⟨rfl, nofun, fun _ _ _ => rfl⟩
  | cons b l ih =>
    have hb := h b List.mem_cons_self
    obtain ⟨hbl, hdl⟩ := List.nodup_cons.1 hd
    have hne : ∀ c ∈ l, (b.1, b.2.1) ≠ (c.1, c.2.1) := fun c hc e => hbl (List.mem_map.2 ⟨c, hc, e.symm⟩)
    obtain ⟨h1, h2, h3⟩ := ih (State.packBlock (s, n) b).1 (n + b.2.2.2)
      (fun c hc => hasBlock_packBlock n hb (h c (List.mem_cons_of_mem _ hc)) (hne c hc)) hdl
    refine ⟨OnlyDir.trans (t := (State.packBlock (s, n) b).1) rfl h1, fun i c hi => ?_, fun p j hp => ?_⟩
    · cases i with
      | zero =>
        have hc : b = c := Option.some.inj hi
        subst hc
        have hno : ∀ c ∈ l, ¬(c.1 = b.1 ∧ c.2.1 = b.2.1) := fun c hc e => hne c hc (Prod.ext e.1.symm e.2.symm)
        refine (h3 b.1 b.2.1 hno).trans ((deepDirOf_packBlock n hb _ _).trans (if_pos ⟨rfl, rfl⟩))
      | succ i =>
        refine (h2 i c hi).trans ?_
        rw [List.take_succ_cons, List.map_cons, List.sum_cons, Nat.add_assoc]
    · have hno := hp b List.mem_cons_self
      exact (h3 p j (fun c hc => hp c (List.mem_cons_of_mem _ hc))).trans
        ((deepDirOf_packBlock n hb p j).trans (if_neg (fun e => hno ⟨e.1.symm, e.2.symm⟩)))

end

theorem alookup_of_mem {β : Type} {l : List (Nat × β)} (hn : (l.map (·.1)).Nodup) {d : Nat × β} (hd : d ∈ l) :
    alookup d.1 l = some d.2 := by
  induction l with
  | nil => cases hd
  | cons c l ih =>
    obtain ⟨hc, hl⟩ := List.nodup_cons.1 hn
    rcases List.mem_cons.1 hd with rfl | hd
    · exact if_pos rfl
    · have hne : c.1 ≠ d.1 := fun e => hc (List.mem_map.2 ⟨d, hd, e.symm⟩)
      exact (if_neg hne).trans (ih hl hd)

/-- A block of a channel stands in the directory, where no page has two. -/
theorem hasBlock_channelBlocks {s : State} (hn : (s.tiers.deepDir.map (·.1)).Nodup) {ch : Nat} {b : Nat × Nat × Nat × Nat}
    (hb : b ∈ s.channelBlocks ch) : s.HasBlock b := by
  obtain ⟨g, -, hg⟩ := List.mem_filterMap.1 hb
  obtain ⟨d, hd, hf⟩ := List.exists_of_findSome?_eq_some hg
  obtain ⟨q, hq, rfl⟩ := Option.map_eq_some_iff.1 hf
  exact ⟨d.2, q.1.granule, alookup_of_mem hn hd, List.mem_zipIdx_iff_getElem?.1 (List.mem_of_find?_eq_some hq)⟩

/-- What a block holds goes by its length, not by its place. -/
theorem deepBlock_of_lengths {s t : State} (h : OnlyDir s t) (p j : Nat)
    (hl : ((t.deepDirOf p)[j]?).map (·.length) = ((s.deepDirOf p)[j]?).map (·.length)) : t.deepBlock p j = s.deepBlock p j := by
  have hlen : (((t.deepDirOf p)[j]?).getD ⟨0, 0⟩).length = (((s.deepDirOf p)[j]?).getD ⟨0, 0⟩).length := by
    generalize (t.deepDirOf p)[j]? = u at *
    generalize (s.deepDirOf p)[j]? = v at *
    cases u <;> cases v <;> simp_all
  have hmem : t.tiers.deepMem = s.tiers.deepMem := by rw [h]
  have hpo : t.tiers.deepPoison = s.tiers.deepPoison := by rw [h]
  simp only [State.deepBlock, hlen, hmem, hpo]

/-- COMPACTION packs the blocks of its channel, and nothing else where no write waits. -/
theorem compaction_packs {s : State} (hu : s.diesUp = true) (ch : Fin 16) (hw : s.tiers.deepWaits = [])
    (hn : (s.tiers.deepDir.map (·.1)).Nodup) (hb : ((s.channelBlocks ch.val).map (fun b => (b.1, b.2.1))).Nodup) :
    ∃ t, exec (.compaction ch) s = .next t ∧ OnlyDir s t ∧ (∀ p j, t.deepBlock p j = s.deepBlock p j) ∧
      (∀ (i : Nat) (b : Nat × Nat × Nat × Nat), (s.channelBlocks ch.val)[i]? = some b → (t.deepDirOf b.1)[b.2.1]? =
        some ⟨(((s.channelBlocks ch.val).take i).map (fun b => b.2.2.2)).sum, b.2.2.2⟩) ∧
      ∀ p j, (∀ b ∈ s.channelBlocks ch.val, ¬(b.1 = p ∧ b.2.1 = j)) → (t.deepDirOf p)[j]? = (s.deepDirOf p)[j]? := by
  obtain ⟨h1, h2, h3⟩ := foldl_packBlock (s.channelBlocks ch.val) s 0 (fun b hb => hasBlock_channelBlocks hn hb) hb
  rw [← packChannel_eq] at h1 h2 h3
  have hw' : (s.packChannel ch.val).tiers.deepWaits = [] := by rw [h1]; exact hw
  have hrun : doCompaction ch s = s.packChannel ch.val := by
    have hsame : (s.packChannel ch.val).modTiers (fun t => { t with deepWaits := [] }) = s.packChannel ch.val := by
      generalize s.packChannel ch.val = u at hw'
      rw [← hw']
      rfl
    simp only [doCompaction, hw', List.foldl_nil, hsame]
  refine ⟨s.packChannel ch.val, (inDies_up _ _ hu).trans (congrArg _ hrun), h1, fun p j => deepBlock_of_lengths h1 p j ?_,
    fun i b hi => (h2 i b hi).trans (by rw [Nat.zero_add]), h3⟩
  by_cases hin : ∃ b ∈ s.channelBlocks ch.val, b.1 = p ∧ b.2.1 = j
  · obtain ⟨b, hb, rfl, rfl⟩ := hin
    obtain ⟨i, hi⟩ := List.mem_iff_getElem?.1 hb
    obtain ⟨d, g, hd, hj⟩ := hasBlock_channelBlocks hn hb
    have hs : s.deepDirOf b.1 = d := by simp [State.deepDirOf, hd]
    rw [h2 i b hi, hs, hj]
    rfl
  · rw [h3 p j (fun b hb he => hin ⟨b, hb, he⟩)]

end Sys2Proof.Machine
end

section
/-! PROOFS. The contents of a page that moves (10, 11). -/

namespace Sys2Proof.Machine

open Sys2Proof

/-! # The contents of a page that moves (10, R246; 11, R282) -/

/-! ## Poison marks whole sectors -/

/-- Whole sectors, each of one poison mark. -/
inductive Marked : List PByte → Prop
  | nil : Marked []
  | cons {c l : List PByte} {p : Bool} (hlen : c.length = 64) (hp : ∀ b ∈ c, b.p = p) (hl : Marked l) : Marked (c ++ l)

theorem Marked.append {l m : List PByte} (hl : Marked l) (hm : Marked m) : Marked (l ++ m) := by
  induction hl with
  | nil => exact hm
  | cons hlen hp _ ih => rw [List.append_assoc]; exact .cons hlen hp ih

theorem Marked.flatten {ls : List (List PByte)} (h : ∀ l ∈ ls, Marked l) : Marked ls.flatten := by
  induction ls with
  | nil => exact .nil
  | cons l ls ih => exact (h l List.mem_cons_self).append (ih (fun m hm => h m (List.mem_cons_of_mem _ hm)))

/-- A write of such sectors marks each byte as it was. -/
theorem Marked.sectorPoison {l : List PByte} (h : Marked l) (i : Nat) (b : PByte) (hb : l[i]? = some b) :
    sectorPoison l (i / 64) = b.p := by
  induction h generalizing i with
  | nil => cases hb
  | @cons c l p hlen hp _ ih =>
    by_cases hi : i < 64
    · have hbc : b ∈ c := by
        rw [List.getElem?_append_left (by omega)] at hb
        exact List.mem_of_getElem? hb
      have hz : i / 64 = 0 := by omega
      have htake : (c ++ l).take 64 = c := by rw [← hlen]; exact List.take_left
      rw [hz, Machine.sectorPoison, Nat.mul_zero, List.drop_zero, htake, hp b hbc]
      cases p with
      | true => exact List.any_eq_true.2 ⟨b, hbc, hp b hbc⟩
      | false => exact List.any_eq_false.2 (fun d hd => by simp [hp d hd])
    · have hdrop : (c ++ l).drop (64 * (i / 64)) = l.drop (64 * ((i - 64) / 64)) := by
        have hk : 64 * (i / 64) = c.length + 64 * ((i - 64) / 64) := by omega
        rw [hk, List.drop_length_add_append]
      rw [List.getElem?_append_right (by omega), hlen] at hb
      rw [← ih (i - 64) hb, Machine.sectorPoison, hdrop]
      rfl

theorem marked_range {f : Nat → PByte} {g : Nat → Bool} (h : ∀ k i, i < 64 → (f (64 * k + i)).p = g k) (m : Nat) :
    Marked ((List.range (64 * m)).map f) := by
  induction m with
  | zero => exact .nil
  | succ m ih =>
    have hc : Marked (((List.range 64).map (64 * m + ·)).map f) := by
      rw [← List.append_nil (List.map _ _)]
      refine .cons (p := g m) (by simp) (fun b hb => ?_) .nil
      simp only [List.map_map, List.mem_map, List.mem_range, Function.comp_apply] at hb
      obtain ⟨i, hi, rfl⟩ := hb
      exact h m i hi
    rw [Nat.mul_succ, List.range_add, List.map_append]
    exact ih.append hc

/-- What a stack reads in whole sectors. -/
theorem marked_stack {st : StackS} (hm : st.mem.wf = true) {a n : Nat} (ha : a % 64 = 0) (hn : n % 64 = 0) : Marked (st.read a n) := by
  have hover : ∀ (es : List WcbEntry) (u v : Nat) (x y : PByte), u / 64 = v / 64 → x.p = y.p →
      (es.foldl (fun b e => e.over u b) x).p = (es.foldl (fun b e => e.over v b) y).p := by
    intro es u v
    induction es with
    | nil => exact fun _ _ _ h => h
    | cons e es ih =>
      intro x y hu hxy
      refine ih _ _ hu ?_
      unfold WcbEntry.over
      dsimp only
      by_cases hs : v / 64 = e.sector
      · rw [if_pos hs, if_pos (hu.trans hs)]
        cases alookup (u % 64) e.bytes <;> cases alookup (v % 64) e.bytes <;> simp [hxy]
      · rw [if_neg hs, if_neg (fun h => hs (hu.symm.trans h))]
        exact hxy
  have hstored : ∀ u v : Nat, u / 64 = v / 64 → (st.stored u).p = (st.stored v).p := by
    intro u v huv
    have hlen := sectorBytes_length st (v / 64)
    have hp : ∃ p, ∀ b ∈ st.sectorBytes (v / 64), b.p = p := by
      unfold StackS.sectorBytes
      dsimp only
      have all (l : List Byte) (m : Bool) : ∃ p, ∀ b ∈ l.map (fun b => (⟨b, m⟩ : PByte)), b.p = p :=
        ⟨m, fun b hb => by obtain ⟨c, -, rfl⟩ := List.mem_map.1 hb; rfl⟩
      split <;> exact all _ _
    obtain ⟨p, hp⟩ := hp
    have hget : ∀ w, w < 64 → (((st.sectorBytes (v / 64))[w]?).getD ⟨0, false⟩).p = p := fun w hw => by
      rw [List.getElem?_eq_getElem (by omega)]
      exact hp _ (List.getElem_mem _)
    simp only [StackS.stored, huv]
    rw [hget _ (Nat.mod_lt _ (by decide)), hget _ (Nat.mod_lt _ (by decide))]
  obtain ⟨m, rfl⟩ : ∃ m, n = 64 * m := ⟨n / 64, by omega⟩
  rw [StackS.read_eq _ hm]
  refine marked_range (g := fun k => (st.peek (a + 64 * k)).p) (fun k i hi => ?_) m
  have hk : (a + (64 * k + i)) / 64 = (a + 64 * k) / 64 := by omega
  exact hover _ _ _ _ _ hk (hstored _ _ hk)

theorem marked_replicate (m : Nat) (b : PByte) : Marked (List.replicate (64 * m) b) := by
  have h := marked_range (f := fun _ => b) (g := fun _ => b.p) (fun _ _ _ => rfl) m
  rwa [List.map_const', List.length_range] at h

/-- Bytes under marks that go by the sector. -/
theorem marked_zipIdx {l : List Byte} {m : Nat} (hl : l.length = 64 * m) (g : Nat → Bool)
    (hg : ∀ k i, i < 64 → g (64 * k + i) = g (64 * k)) : Marked (l.zipIdx.map (fun b => (⟨b.1, g b.2⟩ : PByte))) := by
  have h := marked_range (f := fun i => (⟨(l[i]?).getD 0, g i⟩ : PByte)) (g := fun k => g (64 * k)) hg m
  refine Eq.mp (congrArg Marked (List.ext_getElem (by simp [hl]) (fun i h1 h2 => ?_))) h
  have hi : i < l.length := by simpa using h2
  simp [hi]

/-- What a deep block holds. -/
theorem marked_deepBlock (s : State) (p j : Nat) : Marked (s.deepBlock p j) := by
  unfold State.deepBlock
  dsimp only
  split
  · exact marked_replicate 64 ⟨0, true⟩
  · exact marked_zipIdx (m := 64) (Mem.read_length _ _ _) (fun i => s.tiers.deepPoison.contains ((p * 131072 + j * 4096 + i) / 256)) (fun k i hi => by
      have : (p * 131072 + j * 4096 + (64 * k + i)) / 256 = (p * 131072 + j * 4096 + 64 * k) / 256 := by omega
      simp only [this])

/-- Whole units are cut into whole units. -/
theorem pieces_whole {u : Nat} (hu : 0 < u) (fuel a n : Nat) (ha : a % u = 0) (hn : n % u = 0) :
    ∀ q ∈ pieces u fuel a n, q.1 % u = 0 ∧ q.2 = u := by
  induction fuel generalizing a n with
  | zero => exact nofun
  | succ fuel ih =>
    intro q hq
    unfold pieces at hq
    split at hq
    · cases hq
    next h0 =>
      have hle : u ≤ n := Nat.le_of_dvd (Nat.pos_of_ne_zero h0) (Nat.dvd_of_mod_eq_zero hn)
      have hk : min n (u - a % u) = u := by omega
      simp only [hk] at hq
      rcases List.mem_cons.1 hq with rfl | hq
      · exact ⟨ha, rfl⟩
      · exact ih (a + u) (n - u) (by simpa using ha) ((Nat.mod_eq_sub_mod hle).symm.trans hn) q hq

/-- A page as any home gives it. -/
theorem marked_readHome {s : State} (hm : ∀ n, (s.stack n).mem.wf = true) (h : Home) (p : Nat) : Marked (s.readHome h p 0 131072) := by
  cases h with
  | deep =>
    refine Marked.flatten (fun l hl => ?_)
    obtain ⟨q, hq, rfl⟩ := List.mem_map.1 hl
    obtain ⟨h1, h2⟩ := pieces_whole (by decide) _ _ _ rfl rfl q hq
    rw [h1, h2, List.drop_zero, List.take_of_length_le (Nat.le_of_eq (deepBlock_length s p _))]
    exact marked_deepBlock s p _
  | placed n f =>
    refine Marked.flatten (fun l hl => ?_)
    obtain ⟨q, hq, rfl⟩ := List.mem_map.1 hl
    obtain rfl := List.mem_singleton.1 hq
    refine marked_stack (n := 131072) (hm n) ?_ (by decide)
    simp only [frameBase]
    split <;> omega
  | spread k =>
    refine Marked.flatten (fun l hl => ?_)
    obtain ⟨q, hq, rfl⟩ := List.mem_map.1 hl
    obtain ⟨w, hw, rfl⟩ := List.mem_map.1 hq
    obtain ⟨h1, h2⟩ := pieces_whole (by decide) _ _ _ rfl rfl w hw
    refine marked_stack (hm _) ?_ (by rw [h2])
    simp only [spreadPlace, State.spreadBase]
    omega

/-- Such sectors written to a stack without a dead pseudo-channel read as they were. -/
theorem read_write_marked (st : StackS) (hm : st.mem.wf = true) (hd : st.dead = []) {a : Nat} {bs : List PByte} (ha : a % 64 = 0)
    (hb : bs.length % 64 = 0) (h0 : 0 < bs.length) (hp : Marked bs) : (st.write a bs).read a bs.length = bs := by
  rw [write_aligned st ha hb h0, StackS.read_eq _ (StackS.wf_writeFull _ _ _ hm)]
  refine List.ext_getElem (by simp) (fun i h1 h2 => ?_)
  have hpo := hp.sectorPoison i bs[i] (List.getElem?_eq_getElem h2)
  rw [List.getElem_map, List.getElem_range, peek_writeFull st ha hb hm, if_pos (by omega)]
  simp [hpo, hd, h2]

end Sys2Proof.Machine
end

section
/-! PROOFS. The drift engine (11). -/

namespace Sys2Proof.Machine

open Sys2Proof

/-! # The drift engine (11, R282 to R284) -/

/-! ## The home map and the moves, past what else a step does -/

/-- The home map and the moves are the same. -/
structure KeepsPages (s t : State) : Prop where
  map : t.tiers.map = s.tiers.map
  moves : t.tiers.moves = s.tiers.moves

theorem KeepsPages.refl (s : State) : KeepsPages s s := ⟨rfl, rfl⟩

theorem KeepsPages.trans {s t u : State} (h : KeepsPages s t) (k : KeepsPages t u) : KeepsPages s u :=
  ⟨k.map.trans h.map, k.moves.trans h.moves⟩

theorem keepsPages_of_tiers {s t : State} (h : t.tiers = s.tiers) : KeepsPages s t := ⟨congrArg Tiers.map h, congrArg Tiers.moves h⟩

theorem keepsPages_foldl {α : Type} (f : State → α → State) (l : List α) (h : ∀ s a, KeepsPages s (f s a)) (s : State) :
    KeepsPages s (l.foldl f s) :=
  frame_foldl KeepsPages.refl KeepsPages.trans f l (fun s a _ => h s a) s

theorem keepsPages_deepLowCheck (s : State) (ch : Fin 16) (n : Nat) : KeepsPages s (s.deepLowCheck ch n) := by
  unfold State.deepLowCheck
  dsimp only
  split
  · refine KeepsPages.trans (t := s.modTiers (fun t => { t with lowArmed := t.lowArmed.set ch false })) ⟨rfl, rfl⟩
      (keepsPages_foldl _ _ (fun s x => ?_) _)
    exact frame_ite (keepsPages_of_tiers (post_tiers _ _ _)) (KeepsPages.refl s)
  · exact frame_ite ⟨rfl, rfl⟩ (KeepsPages.refl s)

theorem keepsPages_clearDeep (s : State) (p : Nat) : KeepsPages s (s.clearDeep p) :=
  KeepsPages.trans (t := s.modTiers (fun t => { t with
    deepDir := aerase p t.deepDir, deepMem := t.deepMem.erase (p * 131072) 131072
    deepPoison := clearRange t.deepPoison (p * 512) 512 })) ⟨rfl, rfl⟩ (keepsPages_foldl _ _ (fun s _ => keepsPages_deepLowCheck s _ _) _)

theorem keepsPages_placeBlock {s t : State} {p j : Nat} {bs : List PByte} (h : s.placeBlock p j bs = some t) : KeepsPages s t := by
  have put (u : State) (g n ch : Nat) (hu : u.tiers = s.tiers) : KeepsPages s ((u.putDeep p j g n bs).deepLowOf ch) :=
    (keepsPages_of_tiers hu).trans (KeepsPages.trans (t := u.putDeep p j g n bs) ⟨rfl, rfl⟩ (keepsPages_deepLowCheck _ _ _))
  unfold State.placeBlock at h
  dsimp only at h
  split at h
  · cases h
    exact put s _ _ _ rfl
  · split at h
    · cases h
    · cases h
      exact put _ _ _ _ rfl

theorem keepsPages_writeDeepBlock (s : State) (x : Fin 16) (p j off : Nat) (bs : List PByte) :
    KeepsPages s (s.writeDeepBlock x p j off bs) := by
  unfold State.writeDeepBlock
  dsimp only
  split
  · exact ⟨rfl, rfl⟩
  · split
    next h => exact keepsPages_placeBlock h
    next => exact frame_ite (KeepsPages.refl s) ⟨rfl, rfl⟩

theorem keepsPages_writeHome (s : State) (x : Fin 16) (h : Home) (p off : Nat) (bs : List PByte) :
    KeepsPages s (s.writeHome x h p off bs) := by
  by_cases hd : h = .deep
  · subst hd
    exact keepsPages_foldl _ _ (fun s _ => keepsPages_writeDeepBlock s _ _ _ _ _) s
  · exact keepsPages_of_tiers (writeHome_near_tiers s x hd p off bs)

/-- The home map is the same, and the moves of pages that have no destination. -/
structure Lands (s t : State) : Prop where
  map : t.tiers.map = s.tiers.map
  moveOf : ∀ p, (∀ e, s.homeOf p = some e → e.dest = none) → t.moveOf p = s.moveOf p

theorem homeOf_of_map {s t : State} (h : t.tiers.map = s.tiers.map) (p : Nat) : t.homeOf p = s.homeOf p := by
  rw [State.homeOf, h]; rfl

theorem Lands.refl (s : State) : Lands s s := ⟨rfl, fun _ _ => rfl⟩

theorem Lands.trans {s t u : State} (h : Lands s t) (k : Lands t u) : Lands s u :=
  ⟨k.map.trans h.map, fun p hp => (k.moveOf p (fun e he => hp e ((homeOf_of_map h.map p).symm.trans he))).trans (h.moveOf p hp)⟩

theorem KeepsPages.lands {s t : State} (h : KeepsPages s t) : Lands s t :=
  ⟨h.map, fun p _ => congrArg (List.find? (fun m : Move => m.page = p)) h.moves⟩

/-- A change of the moves of one page. -/
theorem find?_map_page (l : List Move) (f : Move → Move) (hf : ∀ m, (f m).page = m.page) (p : Nat) :
    (l.map f).find? (fun m => m.page = p) = (l.find? (fun m => m.page = p)).map f := by
  rw [List.find?_map]
  refine congrArg (Option.map f) (congrArg (fun g => List.find? g l) (funext (fun m => ?_)))
  simp [hf]

/-- A write to a page that moves is kept with the move of that page (11, R282). -/
theorem lands_stall (s : State) {p : Nat} {e : HomeEntry} {d : Home} (he : s.homeOf p = some e) (hd : e.dest = some d)
    (l : Move → List (Nat × List Byte × Bool)) :
    Lands s (s.modTiers (fun t => { t with moves := t.moves.map (fun m => if m.page = p then { m with stalled := l m } else m) })) := by
  refine ⟨rfl, fun q hq => ?_⟩
  have hne : q ≠ p := by
    rintro rfl
    have := hq e he
    rw [hd] at this
    cases this
  refine (find?_map_page _ _ (fun m => by split <;> rfl) q).trans ?_
  have hfix : ∀ o : Option Move, (∀ m, o = some m → m.page = q) → o.map (fun m => if m.page = p then { m with stalled := l m } else m) = o := by
    intro o ho
    cases o with
    | none => rfl
    | some m => exact congrArg some (if_neg (fun h => hne ((ho m rfl).symm.trans h)))
  exact hfix _ (fun m hm => by simpa using List.find?_some hm)

theorem lands_uwrite (s : State) (a : Nat) (bs : List PByte) : Lands s (s.uwrite a bs) := by
  have fold : ∀ (l : List (Nat × Nat)) (f : State × List PByte → Nat × Nat → State × List PByte), (∀ r q, Lands r.1 (f r q).1) →
      ∀ r, Lands r.1 (l.foldl f r).1 := by
    intro l f hf
    induction l with
    | nil => exact fun r => Lands.refl r.1
    | cons q l ih => exact fun r => (hf r q).trans (ih (f r q))
  unfold State.uwrite
  refine Lands.trans (t := s.invalidate a bs.length) ⟨rfl, fun _ _ => rfl⟩ (fold _ _ (fun r q => ?_) (_, bs))
  dsimp only
  split
  · exact Lands.refl _
  next e he =>
    split
    next d hd => exact lands_stall _ he hd _
    next => exact (keepsPages_writeHome _ _ _ _ _ _).lands

theorem lands_landStalled (s : State) (m : Move) : Lands s (s.landStalled m) :=
  frame_foldl Lands.refl Lands.trans _ _ (fun s _ _ => lands_uwrite s _ _) s

/-- The accounts of commands differ, and their runs: neither pages nor the rest of contexts. -/
structure Accounts (s t : State) : Prop where
  pages : KeepsPages s t
  ctx : ∀ y, t.ctx y = { s.ctx y with fabricRun := (t.ctx y).fabricRun, memoryRun := (t.ctx y).memoryRun }

theorem Accounts.refl (s : State) : Accounts s s := ⟨KeepsPages.refl s, fun _ => rfl⟩

theorem Accounts.trans {s t u : State} (h : Accounts s t) (k : Accounts t u) : Accounts s u := by
  obtain ⟨h1, h2⟩ := h
  obtain ⟨k1, k2⟩ := k
  exact ⟨h1.trans k1, fun y => by rw [k2 y, h2 y]⟩

theorem accounts_modRun (s : State) (id : Nat) (f : Run → Run) : Accounts s (s.modRun id f) :=
  ⟨⟨rfl, rfl⟩, fun y => by rw [modRun_ctx]⟩

theorem accounts_settleMigrate (s : State) (run : Nat) : Accounts s (s.settleMigrate run) := by
  unfold State.settleMigrate
  split
  · exact Accounts.refl _
  · exact frame_ite (Accounts.refl _) (Accounts.trans (t := s.modTiers (fun t => { t with
      migrates := t.migrates.filter (fun k => k.run != run) })) ⟨⟨rfl, rfl⟩, fun _ => rfl⟩ (accounts_modRun _ _ _))

theorem accounts_countPage (s : State) (f : MigrateAcct → MigrateAcct) (run : Nat) : Accounts s (s.countPage f run) :=
  Accounts.trans (t := s.modAcct run (fun m => { f m with left := m.left - 1 })) ⟨⟨rfl, rfl⟩, fun _ => rfl⟩
    (accounts_settleMigrate _ run)

theorem accounts_runs (l : List Nat) (f : MigrateAcct → MigrateAcct) (s : State) :
    Accounts s (l.foldl (fun s id => s.countPage f id) s) :=
  frame_foldl Accounts.refl Accounts.trans _ l (fun s id _ => accounts_countPage s f id) s

theorem Accounts.moveOf {s t : State} (h : Accounts s t) (p : Nat) : t.moveOf p = s.moveOf p :=
  congrArg (List.find? (fun m : Move => m.page = p)) h.pages.moves

theorem homeOf_putHome (s : State) (p : Nat) (e : HomeEntry) (q : Nat) : (s.putHome p e).homeOf q = if q = p then some e else s.homeOf q :=
  alookup_ainsert p q e s.tiers.map

/-- The move of another page, once those of a page are gone. -/
theorem find?_without (l : List Move) (p : Nat) : (l.filter (fun k => k.page != p)).find? (fun m => m.page = p) = none := by
  refine List.find?_eq_none.2 (fun m hm h => ?_)
  have := (List.mem_filter.1 hm).2
  simp_all

/-! ## PAGE_SWITCH and MOVE_TIMEOUT -/

/-- The end of an attempt: the writes that it stalled land, a counter of the owner changes, and its commands count the page. -/
def State.endAttempt (s : State) (m : Move) (x : Fin 16) (count : Ctx → Ctx) (runs : List Nat) (f : MigrateAcct → MigrateAcct) : State :=
  runs.foldl (fun s id => s.countPage f id) ((s.landStalled m).modCtx x count)

/-- Past the end of an attempt the pages are as they were, the moves of settled pages too, and the owner's counter has changed. -/
theorem endAttempt_spec (s : State) (m : Move) (x : Fin 16) (count : Ctx → Ctx) (runs : List Nat) (f : MigrateAcct → MigrateAcct) :
    Lands s (s.endAttempt m x count runs f) ∧ ∃ fd fr mr, (s.endAttempt m x count runs f).ctx x =
      { count { s.ctx x with formed := fd } with fabricRun := fr, memoryRun := mr } := by
  have hl := lands_landStalled s m
  have hp := (posts_landStalled s m).ctx x
  have ha := accounts_runs runs f ((s.landStalled m).modCtx x count)
  refine ⟨(hl.trans (u := (s.landStalled m).modCtx x count) ⟨rfl, fun _ _ => rfl⟩).trans ha.pages.lands,
    ((s.landStalled m).ctx x).formed, ((s.endAttempt m x count runs f).ctx x).fabricRun,
    ((s.endAttempt m x count runs f).ctx x).memoryRun, ?_⟩
  rw [← hp]
  refine (ha.ctx x).trans ?_
  rw [State.modCtx_same]
  rfl

/-- The moves once an attempt of a page is aborted. -/
def abortedMoves (p : Nat) (e : HomeEntry) (l : List Move) : List Move :=
  if 7 ≤ e.aborts then l.filter (fun k => k.page != p)
  else l.map (fun k => if k.page = p then { k with aborted := true, copied := false, stalled := [] } else k)

/-- An attempt that is aborted: the entry has no destination, its move is gone or aborted, and then the attempt ends. -/
theorem abortMove_eq (s : State) (p : Nat) (m : Move) (e : HomeEntry) : ∃ u : State,
    u.tiers.map = (s.putHome p { e with dest := none, aborts := if 7 ≤ e.aborts then 0 else e.aborts + 1 }).tiers.map ∧
    (∀ x, u.ctx x = { s.ctx x with formed := (u.ctx x).formed }) ∧
    u.tiers.moves = abortedMoves p e s.tiers.moves ∧
    s.abortMove p m e = u.endAttempt m e.owner (fun k => { k with aborts := satAdd k.aborts 1 })
      (if 7 ≤ e.aborts then m.runs else []) (fun a => { a with abandoned := a.abandoned + 1 }) := by
  let s1 := s.putHome p { e with dest := none, aborts := if 7 ≤ e.aborts then 0 else e.aborts + 1 }
  have hclear : ∃ s2, (if m.kind = 2 then s1.clearDeep p else s1) = s2 ∧ KeepsPages s1 s2 ∧ Posts s1 s2 :=
    ⟨_, rfl, frame_ite (keepsPages_clearDeep s1 p) (KeepsPages.refl s1), frame_ite (posts_clearDeep s1 p) (Posts.refl s1)⟩
  obtain ⟨s2, hs2, hk, hp⟩ := hclear
  refine ⟨s2.modTiers (fun t => { t with moves := abortedMoves p e t.moves }), hk.map, hp.ctx, congrArg (abortedMoves p e) hk.moves, ?_⟩
  rw [← hs2]
  by_cases h7 : 7 ≤ e.aborts
  · simp only [State.abortMove, State.endAttempt, h7, decide_true, if_true, s1, abortedMoves]
  · simp only [State.abortMove, State.endAttempt, h7, decide_false, if_false, Bool.false_eq_true, s1, abortedMoves, List.foldl_nil]

/-- The entry of a page that has switched. -/
def HomeEntry.switched (e : HomeEntry) (m : Move) (d : Home) : HomeEntry :=
  { e with home := d, dest := none, aborts := 0, switches := e.switches + 1
           prefKind := if m.pref && d.near then m.kind else e.prefKind
           prefStack := if m.pref && d.near then (if m.kind = 0 then m.stack else 0) else e.prefStack }

theorem keeps_flushHome (s : State) (h : Home) : KeepsPages s (s.flushHome h) ∧ Posts s (s.flushHome h) :=
  ⟨keepsPages_foldl (fun (s : State) (q : Fin 12 × Nat × Nat) => s.modStack q.1 (fun st => st.flushRange q.2.1 q.2.2)) _ (fun _ _ => ⟨rfl, rfl⟩) s,
    posts_foldl (fun (s : State) (q : Fin 12 × Nat × Nat) => s.modStack q.1 (fun st => st.flushRange q.2.1 q.2.2)) _ (fun _ _ => posts_of_same rfl rfl) s⟩

/-- A page that switches: the entry has its new home, no move holds it, and then the attempt ends. -/
theorem pageSwitch_eq {s : State} {p : Nat} {m : Move} {e : HomeEntry} {d : Home} (hm : s.moveOf p = some m) (he : s.homeOf p = some e)
    (hd : e.dest = some d) (ha : m.aborted = false) (hc : m.copied = true) (hf : s.fastUp = true) (ht : s.pilot - m.since ≤ 100) :
    ∃ u : State, u.tiers.map = (s.putHome p (e.switched m d)).tiers.map ∧ (∀ x, u.ctx x = { s.ctx x with formed := (u.ctx x).formed }) ∧
    u.tiers.moves = s.tiers.moves.filter (fun k => k.page != p) ∧
    doPageSwitch p s = u.endAttempt m e.owner (fun k => { k with moves := satAdd k.moves 1 }) m.runs
      (fun a => { a with moved := a.moved + 1 }) := by
  obtain ⟨hk, hp⟩ := keeps_flushHome s e.home
  let s2 := ((s.flushHome e.home).putHome p (e.switched m d)).modTiers (fun t => { t with moves := t.moves.filter (fun k => k.page != p) })
  have hmap : s2.tiers.map = (s.putHome p (e.switched m d)).tiers.map := congrArg (ainsert p (e.switched m d)) hk.map
  have hmoves : s2.tiers.moves = s.tiers.moves.filter (fun k => k.page != p) :=
    congrArg (List.filter (fun k : Move => k.page != p)) hk.moves
  have hctx : Posts s s2 := hp.trans (posts_of_same rfl rfl)
  have hclear : KeepsPages s2 (if e.home.near then s2 else s2.clearDeep p) ∧ Posts s2 (if e.home.near then s2 else s2.clearDeep p) :=
    ⟨frame_ite (KeepsPages.refl s2) (keepsPages_clearDeep s2 p), frame_ite (Posts.refl s2) (posts_clearDeep s2 p)⟩
  obtain ⟨hk3, hp3⟩ := hclear
  refine ⟨if e.home.near then s2 else s2.clearDeep p, hk3.map.trans hmap, (hctx.trans hp3).ctx, hk3.moves.trans hmoves, ?_⟩
  have ht' : decide (100 < s.pilot - m.since) = false := by simpa using ht
  simp only [doPageSwitch, hm, he, hd, ha, hc, hf, ht', Bool.not_true, Bool.or_self, Bool.false_eq_true, if_false]
  rfl

section
variable {s : State} (hu : s.diesUp = true) {p : Nat} {m : Move} {e : HomeEntry} (hm : s.moveOf p = some m) (he : s.homeOf p = some e)
include hu hm he

omit hu he in
theorem page_of_moveOf : m.page = p := by simpa using List.find?_some hm

/-- An attempt that took its time, or more, is aborted; the 8th abort abandons the page. -/
theorem moveTimeout_aborts (ha : m.aborted = false) (ht : 100 ≤ s.pilot - m.since) :
    ∃ t, exec (.moveTimeout p) s = .next t ∧
      t.homeOf p = some { e with dest := none, aborts := if 7 ≤ e.aborts then 0 else e.aborts + 1 } ∧
      (t.ctx e.owner).aborts = satAdd (s.ctx e.owner).aborts 1 ∧ (∀ q, q ≠ p → t.homeOf q = s.homeOf q) ∧
      t.moveOf p = if 7 ≤ e.aborts then none else some { m with aborted := true, copied := false, stalled := [] } := by
  have hdo : doMoveTimeout p s = s.abortMove p m e := by
    simp only [doMoveTimeout, hm, he, ha, Bool.false_or, decide_eq_true_eq]
    exact if_neg (by omega)
  let e' : HomeEntry := { e with dest := none, aborts := if 7 ≤ e.aborts then 0 else e.aborts + 1 }
  obtain ⟨u, hmap, hctx, hmove, heq⟩ := abortMove_eq s p m e
  have hpage := page_of_moveOf hm
  have hhome (q : Nat) : u.homeOf q = if q = p then some e' else s.homeOf q :=
    (homeOf_of_map hmap q).trans (homeOf_putHome s p e' q)
  obtain ⟨hl, fd, fr, mr, hx⟩ := endAttempt_spec u m e.owner (fun k => { k with aborts := satAdd k.aborts 1 })
    (if 7 ≤ e.aborts then m.runs else []) (fun a => { a with abandoned := a.abandoned + 1 })
  rw [← heq] at hl hx
  refine ⟨s.abortMove p m e, (inDies_up _ _ hu).trans (congrArg _ hdo), ?_, ?_, fun q hq => ?_, ?_⟩
  · exact (homeOf_of_map hl.map p).trans ((hhome p).trans (if_pos rfl))
  · have ha : (u.ctx e.owner).aborts = (s.ctx e.owner).aborts := by rw [hctx e.owner]
    rw [hx, ← ha]
  · exact (homeOf_of_map hl.map q).trans ((hhome q).trans (if_neg hq))
  · refine (hl.moveOf p (fun e1 h1 => ?_)).trans ?_
    · rw [hhome p, if_pos rfl] at h1
      cases h1
      rfl
    · rw [State.moveOf, hmove, abortedMoves]
      split
      next => exact find?_without _ p
      next =>
        refine (find?_map_page _ _ (fun k => by split <;> rfl) p).trans ?_
        have hf : s.tiers.moves.find? (fun m => m.page = p) = some m := hm
        rw [hf]
        exact congrArg some (if_pos hpage)

/-- A page that has been copied in time switches to its new home. -/
theorem pageSwitch_switches {d : Home} (hd : e.dest = some d) (ha : m.aborted = false) (hc : m.copied = true) (hf : s.fastUp = true)
    (ht : s.pilot - m.since ≤ 100) : ∃ t e', exec (.pageSwitch p) s = .next t ∧ t.homeOf p = some e' ∧ e'.home = d ∧ e'.dest = none ∧
      e'.aborts = 0 ∧ e'.owner = e.owner ∧ e'.pinned = e.pinned ∧ e'.switches = e.switches + 1 ∧ t.moveOf p = none ∧
      (t.ctx e.owner).moves = satAdd (s.ctx e.owner).moves 1 ∧ ∀ q, q ≠ p → t.homeOf q = s.homeOf q := by
  obtain ⟨u, hmap, hctx, hmove, heq⟩ := pageSwitch_eq hm he hd ha hc hf ht
  have hhome (q : Nat) : u.homeOf q = if q = p then some (e.switched m d) else s.homeOf q :=
    (homeOf_of_map hmap q).trans (homeOf_putHome s p _ q)
  obtain ⟨hl, fd, fr, mr, hx⟩ := endAttempt_spec u m e.owner (fun k => { k with moves := satAdd k.moves 1 }) m.runs
    (fun a => { a with moved := a.moved + 1 })
  rw [← heq] at hl hx
  refine ⟨doPageSwitch p s, e.switched m d, inDies_up _ _ hu, (homeOf_of_map hl.map p).trans ((hhome p).trans (if_pos rfl)),
    rfl, rfl, rfl, rfl, rfl, rfl, ?_, ?_, fun q hq => (homeOf_of_map hl.map q).trans ((hhome q).trans (if_neg hq))⟩
  · refine (hl.moveOf p (fun e1 h1 => ?_)).trans ?_
    · rw [hhome p, if_pos rfl] at h1
      cases h1
      rfl
    · rw [State.moveOf, hmove]
      exact find?_without _ p
  · have hmv : (u.ctx e.owner).moves = (s.ctx e.owner).moves := by rw [hctx e.owner]
    rw [hx, ← hmv]

/-- An aborted attempt of a pinned page that no command waits for is given up. -/
theorem moveRetry_pinned (ha : m.aborted = true) (hf : s.fastUp = true) (hd : s.displaced p m = false) (hp : e.pinned = true)
    (hr : m.runs = []) : ∃ t, exec (.moveRetry p) s = .next t ∧ t = { s with tiers := t.tiers } ∧ t.moveOf p = none ∧
      t.homeOf p = some { e with aborts := 0 } ∧ ∀ q, q ≠ p → t.homeOf q = s.homeOf q := by
  have hdo : doMoveRetry p s = s.dropMove p e := by
    simp [doMoveRetry, hm, he, ha, hf, hd, hp, hr]
  have hhome (q : Nat) : (s.dropMove p e).homeOf q = if q = p then some { e with aborts := 0 } else s.homeOf q :=
    homeOf_putHome s p { e with aborts := 0 } q
  exact ⟨s.dropMove p e, (inDies_up _ _ hu).trans (congrArg _ hdo), rfl, find?_without _ p, (hhome p).trans (if_pos rfl),
    fun q hq => (hhome q).trans (if_neg hq)⟩

end

/-! ## A new home, and the attempt that begins -/

theorem nthFreeFrom_spec (l : List Nat) (b n : Nat) (h : l.Pairwise (· < ·)) : b ≤ nthFreeFrom l b n ∧ nthFreeFrom l b n ∉ l := by
  induction l generalizing b n with
  | nil => exact ⟨Nat.le_add_right b n, nofun⟩
  | cons u us ih =>
    obtain ⟨hlt, hus⟩ := List.pairwise_cons.1 h
    unfold nthFreeFrom
    split
    next hb =>
      obtain ⟨h1, h2⟩ := ih b n hus
      exact ⟨h1, List.not_mem_cons_of_ne_of_not_mem (by omega) h2⟩
    next hb =>
      split
      next hn => exact ⟨by omega, List.not_mem_cons_of_ne_of_not_mem (by omega) (fun hm => by have := hlt _ hm; omega)⟩
      next hn =>
        obtain ⟨h1, h2⟩ := ih (u + 1) (n - (u - b)) hus
        exact ⟨by omega, List.not_mem_cons_of_ne_of_not_mem (by omega) h2⟩

/-- Whether there is a home goes by the home map. -/
theorem allocHome_isSome {s t : State} (hm : t.tiers.map = s.tiers.map) (hg : t.tiers.spreadGib = s.tiers.spreadGib) (kind : Nat)
    (n : Fin 12) : (t.allocHome kind n).isSome = (s.allocHome kind n).isSome := by
  have hh : t.homesHeld = s.homesHeld := by simp only [State.homesHeld, hm]
  have hf : t.framesUsed n = s.framesUsed n := by simp only [State.framesUsed, hh]
  have hs : t.slotsUsed = s.slotsUsed := by simp only [State.slotsUsed, hh]
  have hc : t.frameCount n = s.frameCount n := by simp only [State.frameCount, hg]
  have hk : t.slotCount = s.slotCount := by simp only [State.slotCount, hg]
  unfold State.allocHome
  split
  · simp only [hf, hc, apply_ite Option.isSome, Option.isSome_some]
  · simp only [hs, hk, apply_ite Option.isSome, Option.isSome_some]
  · rfl

/-- A near home that is found is one of its kind that no page holds. -/
theorem allocHome_near {s : State} {kind : Nat} {n : Fin 12} (hk : kind < 2) (h : (s.allocHome kind n).isSome = true) :
    ∃ d, s.allocHome kind n = some (d, s.occasion.2) ∧ d.isAt kind n.val = true ∧ d ∉ s.homesHeld ∧ d ≠ .deep ∧
      (kind = 0 → ∃ f, d = .placed n f) := by
  match kind, hk with
  | 0, _ =>
    have hfree : s.frameCount n - (s.framesUsed n).length ≠ 0 := fun hz => by simp [State.allocHome, hz] at h
    refine ⟨_, if_neg hfree, by simp [Home.isAt], fun hmem => ?_, nofun, fun _ => ⟨_, rfl⟩⟩
    obtain ⟨h1, h2⟩ := framesUsed_spec s n
    exact (nthFreeFrom_spec _ _ _ h1).2 ((h2 _).2 ⟨_, hmem, if_pos rfl⟩)
  | 1, _ =>
    have hfree : s.slotCount - s.slotsUsed.length ≠ 0 := fun hz => by simp [State.allocHome, hz] at h
    refine ⟨_, if_neg hfree, rfl, fun hmem => ?_, nofun, nofun⟩
    obtain ⟨h1, h2⟩ := slotsUsed_spec s
    exact (nthFreeFrom_spec _ _ _ h1).2 ((h2 _).2 ⟨_, hmem, rfl⟩)

/-- An attempt to a near home: the page is copied there, the entry names it, and the move stands with the time of now. -/
def State.attempt (s : State) (p : Nat) (e : HomeEntry) (m : Move) (d : Home) : State :=
  ((s.occasion.2.writeHome e.owner d p 0 (s.readHome e.home p 0 131072)).putHome p { e with dest := some d }).modTiers (fun t => { t with
    moves := t.moves.filter (fun (k : Move) => k.page != p) ++ [{ m with since := s.pilot, copied := true, aborted := false, stalled := [] }] })

theorem readHome_occasion (s : State) (h : Home) (p off n : Nat) : s.occasion.2.readHome h p off n = s.readHome h p off n := rfl

theorem beginMove_near {s : State} {p : Nat} {e : HomeEntry} {m : Move} {d : Home} (ha : s.allocHome m.kind (ix 12 m.stack) = some (d, s.occasion.2))
    (hd : d ≠ .deep) : s.beginMove p e m = some (s.attempt p e m d) := by
  unfold State.beginMove
  rw [ha]
  cases d with
  | deep => exact absurd rfl hd
  | placed n f => rfl
  | spread k => rfl

section
variable {s : State} {p : Nat} {e : HomeEntry} {m : Move} {d : Home} (hd : d ≠ .deep)
include hd

theorem homeOf_attempt (q : Nat) : (s.attempt p e m d).homeOf q = if q = p then some { e with dest := some d } else s.homeOf q :=
  (homeOf_putHome _ p { e with dest := some d } q).trans
    (ite_congr rfl (fun _ => rfl) (fun _ => homeOf_of_map (keepsPages_writeHome s.occasion.2 _ _ _ _ _).map q))

theorem reqs_attempt : (s.attempt p e m d).tiers.reqs = s.tiers.reqs :=
  (congrArg Tiers.reqs (writeHome_near_tiers s.occasion.2 e.owner hd p 0 (s.readHome e.home p 0 131072)) :)

omit hd in
theorem moveOf_attempt (hm : m.page = p) : (s.attempt p e m d).moveOf p =
    some { m with since := s.pilot, copied := true, aborted := false, stalled := [] } := by
  refine (List.find?_append).trans ?_
  rw [find?_without]
  simp [hm]

end

/-- A page placed anew reads as the old one does, under its poison (11, R282). -/
theorem readHome_attempt {s : State} {p : Nat} {e : HomeEntry} {m : Move} {n : Fin 12} {f : Nat}
    (hs : ∀ n, (s.stack n).dead = [] ∧ (s.stack n).mem.wf = true) :
    (s.attempt p e m (.placed n f)).readHome (.placed n f) p 0 131072 = s.readHome e.home p 0 131072 := by
  have hframe : (frameBase n f + 0) % 64 = 0 := by simp only [frameBase]; split <;> omega
  have hmark := marked_readHome (fun n => (hs n).2) e.home p
  have hlen := readHome_length s e.home p 0 131072
  generalize hbs : s.readHome e.home p 0 131072 = bs at hmark hlen
  have hst : (s.attempt p e m (.placed n f)).stack n = (s.stack n).write (frameBase n f + 0) (bs.take bs.length) := by
    rw [← hbs]
    exact State.modStack_same _ _ _
  simp only [State.readHome, State.nearPieces, List.map_cons, List.map_nil, List.flatten_cons, List.flatten_nil, List.append_nil]
  rw [hst, List.take_length, ← hlen]
  exact read_write_marked (s.stack n) (hs n).2 (hs n).1 hframe (by omega) (by omega) hmark

/-! ## PAGE_MOVE and MOVE_RETRY -/

section
variable {s : State} (hu : s.diesUp = true) (hf : s.fastUp = true)
include hu hf

/-- An aborted attempt to a near home is made again. -/
theorem moveRetry_begins {p : Nat} {m : Move} {e : HomeEntry} (hm : s.moveOf p = some m) (he : s.homeOf p = some e)
    (ha : m.aborted = true) (hd : s.displaced p m = false) (hp : e.pinned = false)
    (hb : s.canBegin ⟨p, m.x, m.kind, m.stack, m.runs.head?, e.aborts⟩ e = true) (hk : m.kind < 2)
    (hr : (s.allocHome m.kind (ix 12 m.stack)).isSome = true) : ∃ t d k, exec (.moveRetry p) s = .next t ∧
      t.homeOf p = some { e with dest := some d } ∧ d.isAt m.kind (ix 12 m.stack).val = true ∧ t.moveOf p = some k ∧ k.copied = true ∧
      k.aborted = false ∧ k.runs = m.runs ∧ k.since = s.pilot := by
  obtain ⟨d, hal, hat, -, hnd, -⟩ := allocHome_near hk hr
  have hdo : doMoveRetry p s = s.attempt p e m d := by
    simp [doMoveRetry, hm, he, ha, hf, hd, hp, hb, beginMove_near hal hnd]
  exact ⟨s.attempt p e m d, d, _, (inDies_up _ _ hu).trans (congrArg _ hdo), (homeOf_attempt hnd p).trans (if_pos rfl), hat,
    moveOf_attempt (page_of_moveOf hm), rfl, rfl, rfl, rfl⟩

/-- A request for a page that no move holds begins one: the page is copied to a home that none had. -/
theorem pageMove_begins {x : Fin 16} {r : MoveReq} {e : HomeEntry} (hr : s.nextReq x = some r) (he : s.homeOf r.page = some e)
    (hm : s.moveOf r.page = none) (hat : e.home.isAt r.kind r.stack = false) (hp : e.pinned = false) (hk : r.kind < 2)
    (ha : (s.allocHome r.kind (ix 12 r.stack)).isSome = true) (hs : ∀ n, (s.stack n).dead = [] ∧ (s.stack n).mem.wf = true) :
    ∃ t d m, exec (.pageMove x) s = .next t ∧ t.homeOf r.page = some { e with dest := some d, aborts := r.tried } ∧
      d.isAt r.kind (ix 12 r.stack).val = true ∧ d ∉ s.homesHeld ∧ t.moveOf r.page = some m ∧ m.copied = true ∧
      m.aborted = false ∧ m.since = s.pilot ∧ t.tiers.reqs = s.tiers.reqs.erase r ∧
      (r.kind = 0 → t.readHome d r.page 0 131072 = s.readHome e.home r.page 0 131072) ∧
      ∀ q, q ≠ r.page → t.homeOf q = s.homeOf q := by
  let m : Move := { page := r.page, x := r.x, kind := r.kind, stack := r.stack, since := (s.dropReq r).pilot, copied := false
                    aborted := false, stalled := [], runs := r.run.toList, pref := r.run.isSome }
  have ha0 : ((s.dropReq r).allocHome r.kind (ix 12 r.stack)).isSome = true := (allocHome_isSome (s := s) (t := s.dropReq r) rfl rfl _ _).trans ha
  obtain ⟨d, hal, hd, hfree, hnd, hplaced⟩ := allocHome_near hk ha0
  have he0 : (s.dropReq r).homeOf r.page = some e := he
  have hm0 : (s.dropReq r).moveOf r.page = none := hm
  have hbegin : (s.dropReq r).beginMove r.page { e with aborts := r.tried } m =
      some ((s.dropReq r).attempt r.page { e with aborts := r.tried } m d) := beginMove_near hal hnd
  have hopen : (s.dropReq r).openMove s r e = (s.dropReq r).attempt r.page { e with aborts := r.tried } m d := by
    unfold State.openMove
    dsimp only
    rw [if_neg (by simp [hat]), if_neg (by simp [hp])]
    split
    next s1 h1 => exact Option.some.inj (h1.symm.trans hbegin)
    next h1 => cases h1.symm.trans hbegin
  have hdo : doPageMove x s = (s.dropReq r).attempt r.page { e with aborts := r.tried } m d := by
    simp only [doPageMove, hf, Bool.not_true, Bool.false_eq_true, if_false, hr, State.treatReq, he0, hm0, hopen]
  refine ⟨_, d, _, (inDies_up _ _ hu).trans (congrArg _ hdo), (homeOf_attempt hnd _).trans (if_pos rfl), hd, hfree,
    moveOf_attempt rfl, rfl, rfl, rfl, reqs_attempt hnd, fun hz => ?_, fun q hq => (homeOf_attempt hnd q).trans (if_neg hq)⟩
  obtain ⟨f, rfl⟩ := hplaced hz
  exact readHome_attempt hs

end

end Sys2Proof.Machine
end

section
/-! PROOFS. MIGRATE, PIN and UNPIN (11). -/

namespace Sys2Proof.Machine

open Sys2Proof

/-! # MIGRATE, PIN, UNPIN and layer plans (11, R285 to R291) -/

/-! ## A command that leaves the memory queue -/

/-- A memory command that has entered its context: it runs under the next number behind the others. -/
structure Entered (x : Fin 16) (s s1 : State) (r : Run) : Prop where
  owner : r.x = x
  number : r.id = s.hub.nextRun
  busy : r.busy = false
  out : r.out = Done.ok
  tiers : s1.tiers = s.tiers
  memory : (s1.ctx x).memoryRun = (s.ctx x).memoryRun ++ [r]
  cores : s1.cores = s.cores
  deepQ : (s1.ctx x).deepQ = (s.ctx x).deepQ
  nearQ : (s1.ctx x).nearQ = (s.ctx x).nearQ
  plan : (s1.ctx x).plan = (s.ctx x).plan

theorem entered_memory {s s1 : State} {x : Fin 16} {isOp : Cmd → Bool} {r : Run} (h : s.dispatchMemory x isOp = some (s1, r)) :
    Entered x s s1 r := by
  obtain ⟨cmd, rest, -, -, -, rfl, rfl⟩ := dispatchMemory_inv h
  let f : Ctx → Ctx := fun k => { k with memory := rest, memoryWait := 0, memoryRun := k.memoryRun ++ [s.entering x cmd] }
  have htidy := (tidy_claims x (s.modCtx x f) (s.claimsOf x cmd)).rest
  have hctx := (enterQueue_calm s x cmd f).ctx x
  rw [State.modCtx_same] at hctx
  refine ⟨rfl, rfl, rfl, rfl, ?_, (congrArg Ctx.memoryRun hctx :), ?_, (congrArg Ctx.deepQ hctx :), (congrArg Ctx.nearQ hctx :), (congrArg Ctx.plan hctx :)⟩
  · exact (congrArg State.tiers htidy :)
  · exact (congrArg State.cores htidy :)

theorem map_of_older {l : List Run} {id : Nat} (f : Run → Run) (h : ∀ k ∈ l, k.id < id) :
    l.map (fun k => if k.id = id then f k else k) = l :=
  (List.map_congr_left (fun k hk => if_neg (by have := h k hk; omega))).trans (List.map_id' l)

section
variable {s s1 : State} {x : Fin 16} {r : Run} (h : Entered x s s1 r) (hn : RunsNumbered s) (f : Run → Run)
include h hn

/-- A change of the run that has entered leaves the cores. -/
theorem Entered.modRun_cores : (s1.modRun r.id f).cores = s1.cores := by
  refine Vector.ext (fun i hi => ?_)
  have hrun := hn.1 ⟨i, hi⟩
  have hc : s.core ⟨i, hi⟩ = s.cores[i] := rfl
  rw [hc] at hrun
  simp only [State.modRun, Vector.getElem_map, h.cores]
  cases hr : s.cores[i].running with
  | none => rw [Option.map_none, ← hr]
  | some k =>
    have hne : k.id ≠ r.id := by have := hrun k hr; rw [h.number]; omega
    rw [Option.map_some, if_neg hne, ← hr]

theorem Entered.modRun_memory : ((s1.modRun r.id f).ctx x).memoryRun = (s.ctx x).memoryRun ++ [f r] := by
  have hold : ∀ k ∈ (s.ctx x).memoryRun, k.id < r.id := fun k hk => by
    rw [h.number]
    exact hn.2.1 x k (List.mem_append_right _ hk)
  rw [modRun_ctx]
  dsimp only
  rw [h.memory, List.map_append, map_of_older f hold]
  simp

/-- And all else outside the contexts. -/
theorem Entered.modRun_rest : s1.modRun r.id f = { s1 with hub := (s1.modRun r.id f).hub } := by
  have hc := h.modRun_cores hn f
  generalize hu : s1.modRun r.id f = u at hc
  have hrest : u = { s1 with cores := u.cores, hub := u.hub } := by rw [← hu]; rfl
  rw [hc] at hrest
  exact hrest

end

/-! ## MIGRATE -/

section
variable {s s1 : State} {x : Fin 16} {r : Run} (hu : s.diesUp = true) (hn : RunsNumbered s)
  (h : s.dispatchMemory x (fun m => m.op == 0x50) = some (s1, r))
include hu hn h

/-- The pages, the destination and the quota that a MIGRATE names. -/
def Run.movedPages (r : Run) : List Nat := pageRange (fld r.cmd.desc 4 4) (fld r.cmd.desc 8 4)

def Run.toKind (r : Run) : Nat := bits (byteAt r.cmd.desc 1) 1 0

def Run.toStack (r : Run) : Nat := bits (byteAt r.cmd.desc 2) 3 0

/-- The quota takes the pages of a MIGRATE. -/
def State.takes (s : State) (x : Fin 16) (r : Run) : Prop :=
  s.quotaNeed r.movedPages r.toKind r.toStack = 0 ∨
    (if r.toKind = 2 then s.deepUse x else s.nearUse x) + s.quotaNeed r.movedPages r.toKind r.toStack ≤
      (if r.toKind = 2 then (s.ctx x).deepQ else (s.ctx x).nearQ)

omit hu hn in
theorem doMigrate_eq : doMigrate x s =
    if s.quotaNeed r.movedPages r.toKind r.toStack ≠ 0 ∧ (if r.toKind = 2 then (s.ctx x).deepQ else (s.ctx x).nearQ) <
        (if r.toKind = 2 then s.deepUse x else s.nearUse x) + s.quotaNeed r.movedPages r.toKind r.toStack then
      s1.failClean r 0x0314
    else (((s1.modRun r.id (fun r => { r with busy := true })).modTiers (fun t => { t with
      migrates := t.migrates ++ [⟨r.id, 0, 0, 0, 0, r.movedPages.length⟩]
      reqs := t.reqs ++ r.movedPages.map (fun p => ⟨p, x, r.toKind, r.toStack, some r.id, 0⟩) })).settleMigrate r.id) := by
  have he := entered_memory h
  have hneed : s1.quotaNeed r.movedPages r.toKind r.toStack = s.quotaNeed r.movedPages r.toKind r.toStack := by
    simp only [State.quotaNeed, State.homeOf, he.tiers]
  have hdeep : s1.deepUse x = s.deepUse x := by simp only [State.deepUse, State.pagesOf, he.tiers]
  have hnear : s1.nearUse x = s.nearUse x := by simp only [State.nearUse, State.pagesOf, he.tiers]
  rw [← hneed, ← hdeep, ← hnear, ← he.deepQ, ← he.nearQ]
  simp only [doMigrate, h]
  by_cases hk : r.toKind = 2
  · have hk' : bits (byteAt r.cmd.desc 1) 1 0 = 2 := hk
    simp only [hk, hk', if_true]
    rfl
  · have hk' : bits (byteAt r.cmd.desc 1) 1 0 ≠ 2 := hk
    simp only [hk, hk', if_false]
    rfl

/-- Within the quota a MIGRATE asks for its moves and waits for them. -/
theorem migrate_asks (hp : r.movedPages ≠ []) (ht : s.takes x r) (hm : ∀ m ∈ s.tiers.migrates, m.run < s.hub.nextRun) :
    ∃ t, exec (.migrate x) s = .next t ∧ t = { s1 with hub := t.hub, tiers := { s.tiers with
        reqs := s.tiers.reqs ++ r.movedPages.map (fun p => ⟨p, x, r.toKind, r.toStack, some r.id, 0⟩)
        migrates := s.tiers.migrates ++ [⟨r.id, 0, 0, 0, 0, r.movedPages.length⟩] } } ∧
      (t.ctx x).memoryRun = (s.ctx x).memoryRun ++ [{ r with busy := true }] := by
  have he := entered_memory h
  have hrest := he.modRun_rest hn (fun r => { r with busy := true })
  have hmem := he.modRun_memory hn (fun r => { r with busy := true })
  let s3 := (s1.modRun r.id (fun r => { r with busy := true })).modTiers (fun t => { t with
      migrates := t.migrates ++ [⟨r.id, 0, 0, 0, 0, r.movedPages.length⟩]
      reqs := t.reqs ++ r.movedPages.map (fun p => ⟨p, x, r.toKind, r.toStack, some r.id, 0⟩) })
  have hfind : s3.tiers.migrates.find? (fun m => m.run = r.id) = some ⟨r.id, 0, 0, 0, 0, r.movedPages.length⟩ := by
    have hmig : s3.tiers.migrates = s.tiers.migrates ++ [⟨r.id, 0, 0, 0, 0, r.movedPages.length⟩] :=
      congrArg (fun t : Tiers => t.migrates ++ [(⟨r.id, 0, 0, 0, 0, r.movedPages.length⟩ : MigrateAcct)]) he.tiers
    have hnone : s.tiers.migrates.find? (fun m => m.run = r.id) = none :=
      List.find?_eq_none.2 (fun m hmem => by have := hm m hmem; rw [he.number]; simp; omega)
    rw [hmig, List.find?_append, hnone]
    simp
  have hsettle : s3.settleMigrate r.id = s3 := by
    simp only [State.settleMigrate, hfind]
    exact if_pos (by simpa using hp)
  have hdo : doMigrate x s = s3 := by
    refine (doMigrate_eq h).trans ((if_neg ?_).trans hsettle)
    rintro ⟨h1, h2⟩
    rcases ht with ht | ht
    · exact h1 ht
    · omega
  refine ⟨s3, (inDies_up _ _ hu).trans (congrArg _ hdo), ?_, hmem⟩
  have h3 : s3 = { s1.modRun r.id (fun r => { r with busy := true }) with tiers := { s.tiers with
      migrates := s.tiers.migrates ++ [⟨r.id, 0, 0, 0, 0, r.movedPages.length⟩]
      reqs := s.tiers.reqs ++ r.movedPages.map (fun p => ⟨p, x, r.toKind, r.toStack, some r.id, 0⟩) } } := by
    rw [← he.tiers]
    rfl
  have hhub : s3.hub = (s1.modRun r.id (fun r => { r with busy := true })).hub := rfl
  rw [hhub, h3]
  generalize s1.modRun r.id (fun r => { r with busy := true }) = u at hrest
  rw [hrest]

/-- Beyond it the command fails with 0x0314 and asks for nothing. -/
theorem migrate_fails (ht : ¬ s.takes x r) : ∃ t, exec (.migrate x) s = .next t ∧ t = { s1 with hub := t.hub } ∧
    (t.ctx x).memoryRun = (s.ctx x).memoryRun ++ [{ r with out := { r.out with reason := 0x0314, failed := true } }] := by
  have he := entered_memory h
  have hdo : doMigrate x s = s1.failClean r 0x0314 := by
    refine (doMigrate_eq h).trans (if_pos ?_)
    unfold State.takes at ht
    omega
  refine ⟨s1.failClean r 0x0314, (inDies_up _ _ hu).trans (congrArg _ hdo), he.modRun_rest hn _, (he.modRun_memory hn _).trans ?_⟩
  rw [← he.busy]

end

/-! ## PIN and UNPIN -/

section
variable {s s1 : State} {x : Fin 16} {r : Run} {op : Nat} (h : s.dispatchMemory x (fun m => m.op == op) = some (s1, r)) (v : Bool)
include h

/-- The flag is set or cleared on the pages of the range that are mapped. -/
theorem pinRange_pins : s.pinRange x op v = { s1 with tiers := { s.tiers with map := (s.pinRange x op v).tiers.map } } ∧
    ((s.pinRange x op v).ctx x).memoryRun = (s.ctx x).memoryRun ++ [r] ∧
    ∀ q, (s.pinRange x op v).homeOf q = (s.homeOf q).map (fun e =>
      if fld r.cmd.desc 4 4 ≤ q ∧ q < fld r.cmd.desc 4 4 + fld r.cmd.desc 8 4 then { e with pinned := v } else e) := by
  have he := entered_memory h
  have hset : s.pinRange x op v = s1.setPinned (fld r.cmd.desc 4 4) (fld r.cmd.desc 8 4) v := by simp only [State.pinRange, h]
  rw [hset]
  refine ⟨?_, he.memory, fun q => ?_⟩
  · rw [← he.tiers]
    rfl
  · have hmap : ∀ l : List (Nat × HomeEntry), alookup q (l.map (fun e => if fld r.cmd.desc 4 4 ≤ e.1 ∧
        e.1 < fld r.cmd.desc 4 4 + fld r.cmd.desc 8 4 then (e.1, { e.2 with pinned := v }) else e)) = (alookup q l).map (fun e =>
        if fld r.cmd.desc 4 4 ≤ q ∧ q < fld r.cmd.desc 4 4 + fld r.cmd.desc 8 4 then { e with pinned := v } else e) := by
      intro l
      induction l with
      | nil => rfl
      | cons e l ih =>
        by_cases hq : e.1 = q
        · subst hq
          simp only [List.map_cons, alookup, if_true]
          split <;> simp [alookup]
        · simp only [List.map_cons, alookup, hq, if_false]
          split <;> simp only [alookup, hq, if_false, ih]
    have hhome : s.homeOf q = alookup q s1.tiers.map := by rw [he.tiers]; rfl
    rw [hhome]
    exact hmap s1.tiers.map

end

end Sys2Proof.Machine
end

section
/-! PROOFS. Layer plans, and pages that move between tiers (11). -/

namespace Sys2Proof.Machine

open Sys2Proof

/-! # Layer plans (11, R288 to R291) -/

/-! ## What runs, past reads and plans -/

/-- What runs and what is queued of the memory commands is the same, and the contexts' states. -/
structure SameRuns (s t : State) : Prop where
  core : ∀ d, (t.core d).running = (s.core d).running
  fabricRun : ∀ y, (t.ctx y).fabricRun = (s.ctx y).fabricRun
  memoryRun : ∀ y, (t.ctx y).memoryRun = (s.ctx y).memoryRun
  memory : ∀ y, (t.ctx y).memory = (s.ctx y).memory
  state : ∀ y, (t.ctx y).state = (s.ctx y).state

theorem SameRuns.refl (s : State) : SameRuns s s := ⟨fun _ => rfl, fun _ => rfl, fun _ => rfl, fun _ => rfl, fun _ => rfl⟩

theorem SameRuns.trans {s t u : State} (h : SameRuns s t) (k : SameRuns t u) : SameRuns s u :=
  ⟨fun d => (k.core d).trans (h.core d), fun y => (k.fabricRun y).trans (h.fabricRun y), fun y => (k.memoryRun y).trans (h.memoryRun y),
    fun y => (k.memory y).trans (h.memory y), fun y => (k.state y).trans (h.state y)⟩

theorem Reads.sameRuns {s t : State} (h : Reads s t) : SameRuns s t :=
  ⟨fun d => by rw [h.core d], fun y => by rw [h.ctx y], fun y => by rw [h.ctx y], fun y => by rw [h.ctx y], fun y => by rw [h.ctx y]⟩

theorem sameRuns_plan (s : State) (x : Fin 16) (p : Option Plan) : SameRuns s (s.modCtx x (fun k => { k with plan := p })) := by
  have part {β : Type} (g : Ctx → β) (hg : ∀ k : Ctx, g { k with plan := p } = g k) (y : Fin 16) :
      g ((s.modCtx x (fun k => { k with plan := p })).ctx y) = g (s.ctx y) := by
    by_cases hy : y = x
    · subst hy; rw [State.modCtx_same]; exact hg _
    · rw [State.modCtx_other s x y _ hy]
  exact ⟨fun _ => rfl, part _ (fun _ => rfl), part _ (fun _ => rfl), part _ (fun _ => rfl), part _ (fun _ => rfl)⟩

/-- The requests for moves alone differ. -/
def OnlyReqs (s t : State) : Prop := t = { s with tiers := { s.tiers with reqs := t.tiers.reqs } }

theorem OnlyReqs.refl (s : State) : OnlyReqs s s := rfl

theorem OnlyReqs.trans {s t u : State} (h : OnlyReqs s t) (k : OnlyReqs t u) : OnlyReqs s u := by
  unfold OnlyReqs at *
  rw [k, h]

theorem OnlyReqs.sameRuns {s t : State} (h : OnlyReqs s t) : SameRuns s t := by
  rw [h]
  exact ⟨fun _ => rfl, fun _ => rfl, fun _ => rfl, fun _ => rfl, fun _ => rfl⟩

theorem onlyReqs_planMoves (s : State) (x : Fin 16) (old new : List Nat) : OnlyReqs s (s.planMoves x old new) := by
  unfold State.planMoves
  refine OnlyReqs.trans (frame_foldl OnlyReqs.refl OnlyReqs.trans (fun (s : State) p => s.askMove ⟨p, x, 2, 0, none, 0⟩) _ (fun _ _ _ => rfl) s)
    (frame_foldl OnlyReqs.refl OnlyReqs.trans _ _ (fun u q _ => ?_) _)
  unfold State.askNear
  split <;> rfl

theorem Standing.sameRuns {s t u : State} {x : Fin 16} {r r' : Run} (h : Standing s t (.memory x) r r') (k : SameRuns t u) :
    Standing s u (.memory x) r r' := by
  obtain ⟨hx, hh, hq, hr, hf⟩ := h
  exact ⟨hx, hh, (k.memory x).trans hq, (congrArg _ (k.memoryRun x)).trans hr,
    (findRun_congr r.id k.core k.fabricRun k.memoryRun).trans hf⟩

/-! ## The end at dispatch -/

/-- A memory command that ends in the step of its dispatch: it is gone, reported if it asks for it or fails, and tiers, stacks and
the plan of its context stay. -/
structure EndsHere (s u t : State) (x : Fin 16) (r r' : Run) : Prop where
  finished : Finished s t (.memory x) r
  tiers : t.tiers = u.tiers
  hbm : t.hbm = u.hbm
  plan : (t.ctx x).plan = (u.ctx x).plan
  reported : r.cmd.notify = true ∨ r'.out.failed = true ∨ r'.out.reason ≠ 0 → Reported t x r.cmd r'.out

theorem endsHere {s u : State} {x : Fin 16} {r r' : Run} (h : Standing s u (.memory x) r r') (hx : r'.x = r.x) (hc : r'.cmd = r.cmd)
    (hi : r'.id = r.id) (ha : (u.ctx x).state = .active) : EndsHere s u (u.finishNow (.memory x) r) x r r' := by
  obtain ⟨rfl, hh, hq, hr, hf⟩ := h
  have hend : u.finishNow (.memory r.x) r = u.finishRun r' := by simp only [State.finishNow, hf]
  obtain ⟨-, h1, -, h2⟩ := finishRun_ctx u r'
  have htidy := tidy_finishRun u r'
  have hown := htidy.own
  rw [hx] at h1 h2 hown
  rw [hi] at h2 hown
  rw [State.modCtx_same] at hown
  rw [hend]
  refine ⟨⟨rfl, hh, h1.trans hq, h2.trans hr⟩, ?_, ?_, (congrArg Ctx.plan hown :), fun hd => ?_⟩
  · exact (congrArg State.tiers htidy.rest :)
  · exact (congrArg State.hbm htidy.rest :)
  · rw [← hc] at hd ⊢
    rw [← hx]
    exact finishRun_reported u r' (by rw [hx]; exact ha) hd

/-! ## LAYER_PLAN OP 1 -/

section
variable {s s1 : State} {x : Fin 16} {r : Run} (hu : s.diesUp = true) (hn : RunsNumbered s)

theorem sameRuns_stopPlan (s : State) (x : Fin 16) : SameRuns s (s.stopPlan x) :=
  (sameRuns_plan s x none).trans ⟨fun _ => rfl, fun _ => rfl, fun _ => rfl, fun _ => rfl, fun _ => rfl⟩

theorem plan_stopPlan (s : State) (x : Fin 16) : ((s.stopPlan x).ctx x).plan = none :=
  (congrArg Ctx.plan (State.modCtx_same s x (fun k => { k with plan := none })) :)

include hu hn

theorem layerPlanStop_stops (h : s.dispatchMemory x (isForm 0x51 1) = some (s1, r)) :
    ∃ t, exec (.layerPlanStop x) s = .next t ∧ Finished s t (.memory x) r ∧ (t.ctx x).plan = none ∧
      t.tiers = { s.tiers with reqs := s.tiers.reqs.filter (fun r => r.x != x || r.run.isSome) } ∧
      (r.cmd.notify = true → Reported t x r.cmd Done.ok) := by
  have he := entered_memory h
  have hd := dispatched_memory hn h
  have hs := hd.standing.sameRuns (sameRuns_stopPlan s1 x)
  have ha : ((s1.stopPlan x).ctx x).state = .active := by
    rw [(sameRuns_stopPlan s1 x).state, ← he.owner]
    exact hd.chores.state.trans hd.active
  obtain ⟨h1, h2, -, h3, h4⟩ := endsHere hs rfl rfl rfl ha
  have hdo : doLayerPlanStop x s = (s1.stopPlan x).finishNow (.memory x) r := by simp only [doLayerPlanStop, h]
  refine ⟨_, (inDies_up _ _ hu).trans (congrArg _ hdo), h1, h3.trans (plan_stopPlan s1 x), h2.trans ?_, fun hnot => ?_⟩
  · rw [← he.tiers]
    rfl
  · rw [← he.out]
    exact h4 (.inl hnot)

end

/-! ## LAYER_PLAN OP 0 -/

/-- The table of a layer plan as its bytes are read. -/
def State.planBytes (s : State) (r : Run) : List PByte := s.uread (fld r.cmd.desc 8 8) (64 * fld r.cmd.desc 2 2)

def State.planRows (s : State) (r : Run) : List (List Byte) := chunks 64 ((s.planBytes r).map (·.b))

/-- The plan of a table before its window is known, and the bound of the window. -/
def State.planOf (s : State) (r : Run) : Plan :=
  { table := (s.planRows r).map planPos, n := 0, pos := fld r.cmd.desc 6 2, windowMode := false }

def Run.windowBound (r : Run) : Nat :=
  if fld r.cmd.desc 4 2 = 0 then fld r.cmd.desc 2 2 else min (fld r.cmd.desc 4 2) (fld r.cmd.desc 2 2)

/-- The state once the table has been read: a poisoned one leaves its records. -/
def State.planRead (s : State) (r : Run) : State :=
  if (s.planBytes r).any (·.p) then s.touchRange (fld r.cmd.desc 8 8) (64 * fld r.cmd.desc 2 2) none else s

theorem reads_planRead (s : State) (r : Run) : Reads s (s.planRead r) := frame_ite (reads_touchRange _ _ _ _) (Reads.refl s)

theorem planRead_of_clean {s : State} {r : Run} (h : (s.planBytes r).any (·.p) = false) : s.planRead r = s := if_neg (by simp [h])

/-- A plan of n positions with its window. -/
def Plan.started (p : Plan) (n w : Nat) : Plan := { p with n := w, windowMode := !decide (n ≤ w) }

/-- A plan in force, with the moves that it begins with. -/
def State.startPlan (s : State) (x : Fin 16) (p0 : Plan) (n w : Nat) : State :=
  let full := decide (n ≤ w)
  let p : Plan := { p0 with n := w, windowMode := !full }
  let s3 := (s.stopPlan x).modCtx x (fun k => { k with plan := some p })
  if full then s3.planMoves x [] (planPages p0.table) else s3.planMoves x (planPages p0.table) (p.window p.pos)

/-- LAYER_PLAN OP 0 by its three outcomes. -/
theorem doLayerPlanStart_eq {s s1 : State} {x : Fin 16} {r : Run} (h : s.dispatchMemory x (isForm 0x51 0) = some (s1, r)) :
    doLayerPlanStart x s =
      if !(s1.planRows r).all ((s1.planRead r).planPosOk x) then ((s1.planRead r).failClean r 0x0318).finishNow (.memory x) r
      else if (s1.planRead r).planWindow x (s1.planOf r) r.windowBound < 3 ∧
          (s1.planRead r).planWindow x (s1.planOf r) r.windowBound < fld r.cmd.desc 2 2 then
        (((s1.planRead r).stopPlan x).failClean r 0x0319).finishNow (.memory x) r
      else (((s1.planRead r).startPlan x (s1.planOf r) (fld r.cmd.desc 2 2)
          ((s1.planRead r).planWindow x (s1.planOf r) r.windowBound)).modRun r.id (fun k => { k with
        out := { k.out with detail := detail [(8, 4, (s1.planRead r).planWindow x (s1.planOf r) r.windowBound)] } })).finishNow (.memory x) r := by
  unfold doLayerPlanStart
  rw [h]
  rfl

theorem planPosOk_congr {s t : State} (hm : t.tiers.map = s.tiers.map) (x : Fin 16) (bs : List Byte) :
    t.planPosOk x bs = s.planPosOk x bs := by
  simp only [State.planPosOk, State.homeOf, hm]

theorem planWindow_congr {s t : State} (hm : t.tiers.map = s.tiers.map) {x : Fin 16} (hq : (t.ctx x).nearQ = (s.ctx x).nearQ)
    (p : Plan) (bound : Nat) : t.planWindow x p bound = s.planWindow x p bound := by
  have hp : t.pinned = s.pinned := funext (fun g => by simp only [State.pinned, State.homeOf, hm])
  have hf : ∀ q n, t.windowFits p q n = s.windowFits p q n := fun q n => by unfold State.windowFits; rw [hp]
  have hl : ∀ q n, t.largestWindow p q n = s.largestWindow p q n := by
    intro q n
    induction n with
    | zero => rfl
    | succ n ih => rw [State.largestWindow, State.largestWindow, hf, ih]
  unfold State.planWindow State.pagesOf
  rw [hm, hp, hq]
  dsimp only
  rw [hl]

theorem startPlan_spec (s : State) (x : Fin 16) (p0 : Plan) (n w : Nat) : SameRuns s (s.startPlan x p0 n w) ∧
    (s.startPlan x p0 n w).tiers.map = s.tiers.map ∧ (s.startPlan x p0 n w).hbm = s.hbm ∧
    ((s.startPlan x p0 n w).ctx x).plan = some (p0.started n w) := by
  have hreqs : OnlyReqs ((s.stopPlan x).modCtx x (fun k => { k with plan := some (p0.started n w) }))
      (s.startPlan x p0 n w) := frame_ite (onlyReqs_planMoves _ _ _ _) (onlyReqs_planMoves _ _ _ _)
  refine ⟨((sameRuns_stopPlan s x).trans (sameRuns_plan _ _ _)).trans hreqs.sameRuns, ?_, ?_, ?_⟩
  · exact (congrArg (fun u : State => u.tiers.map) hreqs :)
  · exact (congrArg State.hbm hreqs :)
  · refine (congrArg (fun u : State => (u.ctx x).plan) hreqs :).trans ?_
    exact (congrArg Ctx.plan (State.modCtx_same (s.stopPlan x) x _) :)

section
variable {s s1 : State} {x : Fin 16} {r : Run} (hu : s.diesUp = true) (hn : RunsNumbered s)
  (h : s.dispatchMemory x (isForm 0x51 0) = some (s1, r))
include hn h

theorem planBytes_entered : s1.planBytes r = s.planBytes r := by
  rw [(dispatched_memory hn h).chores.rest]
  rfl

/-- The state once the table has been read: what runs, what is mapped and the quota are those of the dispatch. -/
theorem planRead_spec : SameRuns s1 (s1.planRead r) ∧ (s1.planRead r).tiers.map = s.tiers.map ∧
    ((s1.planRead r).ctx x).nearQ = (s.ctx x).nearQ ∧ ((s1.planRead r).ctx x).plan = (s.ctx x).plan ∧
    ((s.planBytes r).any (·.p) = false → (s1.planRead r).tiers = s.tiers ∧ (s1.planRead r).hbm = s.hbm) ∧
    ((s1.planRead r).ctx x).state = .active := by
  have he := entered_memory h
  have hd := dispatched_memory hn h
  have hr := reads_planRead s1 r
  have hstate : (s1.ctx x).state = .active := by
    rw [← he.owner]
    exact hd.chores.state.trans hd.active
  refine ⟨hr.sameRuns, ?_, ?_, ?_, fun hc => ?_, ?_⟩
  · rw [← he.tiers]
    exact (congrArg (fun u : State => u.tiers.map) hr.rest :)
  · rw [hr.ctx]; exact he.nearQ
  · rw [hr.ctx]; exact he.plan
  · rw [planRead_of_clean (by rw [planBytes_entered hn h]; exact hc)]
    exact ⟨he.tiers, (congrArg State.hbm hd.chores.rest :)⟩
  · rw [hr.ctx]; exact hstate

/-- The outcome goes by the table and the home map of the dispatch. -/
theorem layerPlanStart_eq : doLayerPlanStart x s =
    if !(s.planRows r).all (s.planPosOk x) then ((s1.planRead r).failClean r 0x0318).finishNow (.memory x) r
    else if s.planWindow x (s.planOf r) r.windowBound < 3 ∧ s.planWindow x (s.planOf r) r.windowBound < fld r.cmd.desc 2 2 then
      (((s1.planRead r).stopPlan x).failClean r 0x0319).finishNow (.memory x) r
    else (((s1.planRead r).startPlan x (s.planOf r) (fld r.cmd.desc 2 2) (s.planWindow x (s.planOf r) r.windowBound)).modRun r.id
        (fun k => { k with out := { k.out with
          detail := detail [(8, 4, s.planWindow x (s.planOf r) r.windowBound)] } })).finishNow (.memory x) r := by
  obtain ⟨-, hm, hq, -⟩ := planRead_spec hn h
  have hrows : s1.planRows r = s.planRows r := by simp only [State.planRows, planBytes_entered hn h]
  have hplan : s1.planOf r = s.planOf r := by simp only [State.planOf, hrows]
  have hok : (s1.planRead r).planPosOk x = s.planPosOk x := funext (planPosOk_congr hm x)
  rw [doLayerPlanStart_eq h, hrows, hplan, hok, planWindow_congr hm hq]

include hu

/-- A table with a position that is not well formed fails with 0x0318 and leaves the plan in force. -/
theorem layerPlanStart_bad (hb : ∃ k ∈ s.planRows r, s.planPosOk x k = false) :
    ∃ t, exec (.layerPlanStart x) s = .next t ∧ Finished s t (.memory x) r ∧ (t.ctx x).plan = (s.ctx x).plan ∧
      t.tiers.map = s.tiers.map ∧ ((s.planBytes r).any (·.p) = false → t.tiers = s.tiers ∧ t.hbm = s.hbm) ∧
      Reported t x r.cmd { Done.ok with reason := 0x0318, failed := true } := by
  have he := entered_memory h
  obtain ⟨hruns, hm, -, hp, hclean, hact⟩ := planRead_spec hn h
  have hstand := ((dispatched_memory hn h).standing.sameRuns hruns).modRun
    (fun k => { k with busy := false, out := { k.out with reason := 0x0318, failed := true } }) (fun _ => rfl)
  have hctx := modRun_ctx (s1.planRead r) r.id (fun k => { k with busy := false, out := { k.out with reason := 0x0318, failed := true } }) x
  obtain ⟨h1, h2, h3, h4, h5⟩ := endsHere hstand rfl rfl rfl ((congrArg Ctx.state hctx :).trans hact)
  have hdo := (layerPlanStart_eq hn h).trans (if_pos (by simpa using hb))
  refine ⟨_, (inDies_up _ _ hu).trans (congrArg _ hdo), h1, h4.trans ((congrArg Ctx.plan hctx :).trans hp),
    (congrArg Tiers.map h2).trans hm, fun hc => ⟨h2.trans (hclean hc).1, h3.trans (hclean hc).2⟩, ?_⟩
  have hr := h5 (.inr (.inl rfl))
  rw [he.out] at hr
  exact hr

section
variable (hok : ∀ k ∈ s.planRows r, s.planPosOk x k = true)
include hok

/-- A window below 3 that is not the whole table fails with 0x0319; no plan is left. -/
theorem layerPlanStart_small (h3 : s.planWindow x (s.planOf r) r.windowBound < 3)
    (hlt : s.planWindow x (s.planOf r) r.windowBound < fld r.cmd.desc 2 2) :
    ∃ t, exec (.layerPlanStart x) s = .next t ∧ Finished s t (.memory x) r ∧ (t.ctx x).plan = none ∧
      t.tiers.map = s.tiers.map ∧ Reported t x r.cmd { Done.ok with reason := 0x0319, failed := true } := by
  have he := entered_memory h
  obtain ⟨hruns, hm, -, -, -, hact⟩ := planRead_spec hn h
  have hstop := sameRuns_stopPlan (s1.planRead r) x
  have hstand := ((dispatched_memory hn h).standing.sameRuns (hruns.trans hstop)).modRun
    (fun k => { k with busy := false, out := { k.out with reason := 0x0319, failed := true } }) (fun _ => rfl)
  have hctx := modRun_ctx ((s1.planRead r).stopPlan x) r.id
    (fun k => { k with busy := false, out := { k.out with reason := 0x0319, failed := true } }) x
  obtain ⟨h1, h2, -, h4, h5⟩ := endsHere hstand rfl rfl rfl ((congrArg Ctx.state hctx :).trans ((hstop.state x).trans hact))
  have hdo := (layerPlanStart_eq hn h).trans ((if_neg (by simpa using hok)).trans (if_pos ⟨h3, hlt⟩))
  refine ⟨_, (inDies_up _ _ hu).trans (congrArg _ hdo), h1, h4.trans ((congrArg Ctx.plan hctx :).trans (plan_stopPlan _ x)),
    (congrArg Tiers.map h2).trans hm, ?_⟩
  have hr := h5 (.inr (.inl rfl))
  rw [he.out] at hr
  exact hr

/-- Any other starts with the largest window that fits, and reports it. -/
theorem layerPlanStart_starts (hw : 3 ≤ s.planWindow x (s.planOf r) r.windowBound ∨
      fld r.cmd.desc 2 2 ≤ s.planWindow x (s.planOf r) r.windowBound) :
    ∃ t, exec (.layerPlanStart x) s = .next t ∧ Finished s t (.memory x) r ∧
      (t.ctx x).plan = some ((s.planOf r).started (fld r.cmd.desc 2 2) (s.planWindow x (s.planOf r) r.windowBound)) ∧ t.tiers.map = s.tiers.map ∧
      ((s.planBytes r).any (·.p) = false → t.hbm = s.hbm) ∧
      (r.cmd.notify = true → Reported t x r.cmd { Done.ok with
        detail := detail [(8, 4, s.planWindow x (s.planOf r) r.windowBound)] }) := by
  have he := entered_memory h
  have hdo := (layerPlanStart_eq hn h).trans ((if_neg (by simpa using hok)).trans (if_neg (by omega)))
  generalize s.planWindow x (s.planOf r) r.windowBound = w at hdo hw
  obtain ⟨hruns, hm, -, -, hclean, hact⟩ := planRead_spec hn h
  obtain ⟨hstart, hmap, hhbm, hplan⟩ := startPlan_spec (s1.planRead r) x (s.planOf r) (fld r.cmd.desc 2 2) w
  have hstand := ((dispatched_memory hn h).standing.sameRuns (hruns.trans hstart)).modRun
    (fun k => { k with out := { k.out with detail := detail [(8, 4, w)] } }) (fun _ => rfl)
  have hctx := modRun_ctx ((s1.planRead r).startPlan x (s.planOf r) (fld r.cmd.desc 2 2) w) r.id
    (fun k => { k with out := { k.out with detail := detail [(8, 4, w)] } }) x
  obtain ⟨h1, h2, h3, h4, h5⟩ := endsHere hstand rfl rfl rfl ((congrArg Ctx.state hctx :).trans ((hstart.state x).trans hact))
  refine ⟨_, (inDies_up _ _ hu).trans (congrArg _ hdo), h1, h4.trans ((congrArg Ctx.plan hctx :).trans hplan),
    (congrArg Tiers.map h2).trans (hmap.trans hm), fun hc => h3.trans (hhbm.trans (hclean hc).2), fun hnot => ?_⟩
  have hr := h5 (.inl hnot)
  rw [he.out] at hr
  exact hr

end
end

/-! ## Pages move between tiers -/

/-- Settles O58: MIGRATE against its quota, the moves of the drift engine from their beginning to their switch or abort, PIN, UNPIN, layer
plans and compaction. -/
theorem pagesMoveBetweenTiers : Obligations.PagesMoveBetweenTiers := by
  intro s x hu hn
  refine ⟨?_, ?_, ?_, ?_, ?_, ?_, ?_⟩
  · rintro s1 r kind stack need use quota pages h rfl rfl rfl hp rfl rfl rfl
    refine ⟨fun ht hm => migrate_asks hu hn h hp ht hm, fun h1 h2 => migrate_fails hu hn h (fun ht => ?_)⟩
    rcases ht with ht | ht
    · exact h1 ht
    · exact Nat.not_le.2 h2 ht
  · exact fun r e hf hr he hm hat hp hk ha hs => pageMove_begins hu hf hr he hm hat hp hk ha hs
  · intro p m e hm he
    exact ⟨fun d hd ha hc hf ht => pageSwitch_switches hu hm he hd ha hc hf ht, fun ha ht => moveTimeout_aborts hu hm he ha ht,
      fun ha hf hd => ⟨fun hp hr => moveRetry_pinned hu hm he ha hf hd hp hr,
        fun hp hb hk hr => moveRetry_begins hu hf hm he ha hd hp hb hk hr⟩⟩
  · intro s1 r cmd op v h hc
    rcases hc with ⟨rfl, rfl, rfl⟩ | ⟨rfl, rfl, rfl⟩
    · exact ⟨_, inDies_up (doPin x) _ hu, pinRange_pins h true⟩
    · exact ⟨_, inDies_up (doUnpin x) _ hu, pinRange_pins h false⟩
  · rintro s1 r n w bs rows p0 h rfl rfl rfl rfl rfl
    exact ⟨fun hok hw => layerPlanStart_starts hu hn h hok hw, fun hok h3 hlt => layerPlanStart_small hu hn h hok h3 hlt,
      fun hb => layerPlanStart_bad hu hn h hb⟩
  · exact fun s1 r h => layerPlanStop_stops hu hn h
  · rintro ch l hw rfl hd hl
    exact compaction_packs hu ch hw hd hl

end Sys2Proof.Machine
end

section
/-! PROOFS. Steps that change no setting: the state's operations, queues, near memory, the forward pass (4 to 13). -/

namespace Sys2Proof.Machine

open Sys2Proof

/-! # Steps that change no setting -/

theorem settings_foldl {α : Type} (f : State → α → State) (h : ∀ s a, (f s a).settings = s.settings) (l : List α) (s : State) :
    (l.foldl f s).settings = s.settings := by
  induction l generalizing s with
  | nil => rfl
  | cons a l ih => exact (ih (f s a)).trans (h s a)

theorem settings_foldl_pair {α β : Type} (f : State × β → α → State × β) (h : ∀ r a, (f r a).1.settings = r.1.settings)
    (l : List α) (r : State × β) : (l.foldl f r).1.settings = r.1.settings := by
  induction l generalizing r with
  | nil => rfl
  | cons a l ih => exact (ih (f r a)).trans (h r a)

@[simp] theorem settings_ite (c : Prop) [Decidable c] (s t : State) :
    (if c then s else t).settings = if c then s.settings else t.settings := apply_ite _ _ _ _

/-! ## Operations of the state -/

@[simp] theorem settings_modCtx (s : State) (x : Fin 16) (f : Ctx → Ctx) : (s.modCtx x f).settings = s.settings :=
  (onlyWork_modCtx _ _ _).settings

@[simp] theorem settings_modCore (s : State) (c : Fin 4) (f : CoreS → CoreS) : (s.modCore c f).settings = s.settings :=
  (onlyWork_modCore _ _ _).settings

@[simp] theorem settings_modFeed (s : State) (c : Fin 4) (f : FeedS → FeedS) : (s.modFeed c f).settings = s.settings :=
  (onlyWork_modFeed _ _ _).settings

@[simp] theorem settings_modArr (s : State) (a : Fin 8) (f : ArrayS → ArrayS) : (s.modArr a f).settings = s.settings :=
  (onlyWork_modArr _ _ _).settings

@[simp] theorem settings_modStack (s : State) (n : Fin 12) (f : StackS → StackS) : (s.modStack n f).settings = s.settings :=
  (onlyWork_modStack _ _ _).settings

@[simp] theorem settings_modCC (s : State) (x : Fin 16) (c : Fin 4) (f : CtxCore → CtxCore) :
    (s.modCC x c f).settings = s.settings :=
  (onlyWork_modCC _ _ _ _).settings

@[simp] theorem settings_modSlot (s : State) (x : Fin 16) (i : Fin 8) (f : MailSlot → MailSlot) :
    (s.modSlot x i f).settings = s.settings := rfl

@[simp] theorem settings_modTiers (s : State) (f : Tiers → Tiers) (h : (f s.tiers).spreadGib = s.tiers.spreadGib) :
    (s.modTiers f).settings = s.settings := by
  simp [State.settings, h]

@[simp] theorem settings_modFaults (s : State) (f : Faults → Faults) : (s.modFaults f).settings = s.settings := rfl

@[simp] theorem settings_occasion (s : State) : s.occasion.2.settings = s.settings :=
  (onlyWork_occasion _).settings

@[simp] theorem settings_dropWrite (s : State) (block : Nat) : (s.dropWrite block).settings = s.settings := rfl

@[simp] theorem settings_post (s : State) (x : Fin 16) (e : Entry) : (s.post x e).settings = s.settings :=
  (onlyWork_post _ _ _).settings

@[simp] theorem settings_event (s : State) (x : Fin 16) (reason : Nat) (detail : List Byte) :
    (s.event x reason detail).settings = s.settings :=
  (onlyWork_event _ _ _ _).settings

@[simp] theorem settings_detect (s : State) (f : FaultRec) : (s.detect f).settings = s.settings :=
  (onlyWork_detect _ _).settings

@[simp] theorem settings_deepLowOf (s : State) (ch : Nat) : (s.deepLowOf ch).settings = s.settings :=
  (onlyWork_deepLowOf _ _).settings

theorem settings_placeBlock (s : State) (p j : Nat) (bs : List PByte) {t : State} (h : s.placeBlock p j bs = some t) :
    t.settings = s.settings :=
  (onlyWork_placeBlock _ _ _ _ _ h).settings

@[simp] theorem settings_clearDeep (s : State) (p : Nat) : (s.clearDeep p).settings = s.settings :=
  (onlyWork_clearDeep _ _).settings

@[simp] theorem settings_writeHome (s : State) (x : Fin 16) (h : Home) (p off : Nat) (bs : List PByte) :
    (s.writeHome x h p off bs).settings = s.settings :=
  (onlyWork_writeHome _ _ _ _ _ _).settings

@[simp] theorem settings_invalidate (s : State) (a n : Nat) : (s.invalidate a n).settings = s.settings :=
  (onlyWork_invalidate _ _ _).settings

@[simp] theorem settings_uwrite (s : State) (a : Nat) (bs : List PByte) : (s.uwrite a bs).settings = s.settings :=
  (onlyWork_uwrite _ _ _).settings

@[simp] theorem settings_rwrite (s : State) (x : Fin 16) (space : Nat) (c : Fin 4) (a : Nat) (bs : List PByte) :
    (s.rwrite x space c a bs).settings = s.settings :=
  (onlyWork_rwrite _ _ _ _ _ _).settings

@[simp] theorem settings_rwriteRuns (s : State) (x : Fin 16) (space : Nat) (c : Fin 4) (runs : List (Nat × List PByte)) :
    (s.rwriteRuns x space c runs).settings = s.settings :=
  (onlyWork_rwriteRuns _ _ _ _ _).settings

@[simp] theorem settings_poisonRegion (s : State) (x : Fin 16) (c : Fin 4) (r : Region) :
    (s.poisonRegion x c r).settings = s.settings :=
  (onlyWork_poisonRegion _ _ _ _).settings

/-! ## Flags and duplicates -/

@[simp] theorem settings_setScaleRec (s : State) (x : Fin 16) (i : Nat) (r : ScaleRec) :
    (s.setScaleRec x i r).settings = s.settings :=
  (onlyWork_setScaleRec _ _ _ _).settings

/-! ## Operands -/

@[simp] theorem settings_applyContribs (s : State) (x : Fin 16) (c : Fin 4) (cs : List Contribution) :
    (s.applyContribs x c cs).settings = s.settings :=
  (onlyWork_applyContribs _ _ _ _).settings

@[simp] theorem settings_contributeAll (s : State) (x : Fin 16) (c : Fin 4) (cs : List Contribution) :
    (s.contributeAll x c cs).settings = s.settings :=
  (onlyWork_contributeAll _ _ _ _).settings

@[simp] theorem settings_putStored (s : State) (x : Fin 16) (c : Fin 4) (t : Tensor) (d : Stored) :
    (s.putStored x c t d).settings = s.settings := by simp [State.putStored]

/-! ## Group status and records -/

@[simp] theorem settings_putAlm (s : State) (x : Fin 16) (g off : Nat) (bs : List Byte) :
    (s.putAlm x g off bs).settings = s.settings :=
  (onlyWork_putAlm _ _ _ _ _).settings

@[simp] theorem settings_setStatus (s : State) (x : Fin 16) (g i : Nat) (v : Bool) : (s.setStatus x g i v).settings = s.settings :=
  (onlyWork_setStatus _ _ _ _ _).settings

/-! ## Layer plans -/

@[simp] theorem settings_planMoves (s : State) (x : Fin 16) (old new : List Nat) : (s.planMoves x old new).settings = s.settings :=
  (onlyWork_planMoves _ _ _ _).settings

/-! ## Queues and the scheduler -/

@[simp] theorem settings_modTok (s : State) (x : Fin 16) (die : Fin 4) (i : Nat) (f : TokSlot → TokSlot) :
    (s.modTok x die i f).settings = s.settings :=
  (onlyWork_modTok _ _ _ _ _).settings

@[simp] theorem settings_claim (s : State) (x : Fin 16) (c : Claim) : (s.claim x c).settings = s.settings :=
  (onlyWork_claim _ _ _).settings

@[simp] theorem settings_release (s : State) (x : Fin 16) (c : Claim) (failed : Bool) :
    (s.release x c failed).settings = s.settings :=
  (onlyWork_release _ _ _ _).settings

@[simp] theorem settings_dropShadows (s : State) (c : Fin 4) : (s.dropShadows c).settings = s.settings :=
  (onlyWork_dropShadows _ _).settings

@[simp] theorem settings_schedule (s : State) (c : Fin 4) : (s.schedule c).1.settings = s.settings :=
  (onlyWork_schedule _ _).settings

@[simp] theorem settings_popHead (s : State) (x : Fin 16) (c : Fin 4) (ev : Bool) : (s.popHead x c ev).settings = s.settings := rfl

theorem settings_dispatchCore (s : State) (c : Fin 4) (isOp : Cmd → Bool) {t : State} {r : Run} (h : s.dispatchCore c isOp = some (t, r)) :
    t.settings = s.settings :=
  (onlyWork_dispatchCore _ _ _ _ _ h).settings

theorem settings_dispatchFabric (s : State) (x : Fin 16) (isOp : Cmd → Bool) {t : State} {r : Run}
    (h : s.dispatchFabric x isOp = some (t, r)) : t.settings = s.settings := by
  obtain ⟨cmd, rest, -, -, -, -, rfl⟩ := dispatchFabric_inv h
  exact settings_foldl _ (fun s k => settings_claim s x k) _ _

theorem settings_dispatchMemory (s : State) (x : Fin 16) (isOp : Cmd → Bool) {t : State} {r : Run}
    (h : s.dispatchMemory x isOp = some (t, r)) : t.settings = s.settings := by
  obtain ⟨cmd, rest, -, -, -, -, rfl⟩ := dispatchMemory_inv h
  exact settings_foldl _ (fun s k => settings_claim s x k) _ _

theorem settings_dispatchQ (s : State) (q : QRef) (isOp : Cmd → Bool) {t : State} {r : Run} (h : s.dispatchQ q isOp = some (t, r)) :
    t.settings = s.settings := by
  unfold State.dispatchQ at h
  grind [settings_dispatchCore, settings_dispatchFabric, settings_dispatchMemory]

@[simp] theorem settings_modRun (s : State) (id : Nat) (f : Run → Run) : (s.modRun id f).settings = s.settings :=
  (onlyWork_modRun _ _ _).settings

@[simp] theorem settings_failRun (s : State) (r : Run) (reason : Nat) : (s.failRun r reason).settings = s.settings :=
  (onlyWork_failRun _ _ _).settings

@[simp] theorem settings_failClean (s : State) (r : Run) (reason : Nat) : (s.failClean r reason).settings = s.settings :=
  (onlyWork_failClean _ _ _).settings

@[simp] theorem settings_notePoison (s : State) (r : Run) (poisoned : Bool) : (s.notePoison r poisoned).settings = s.settings :=
  (onlyWork_notePoison _ _ _).settings

@[simp] theorem settings_report (s : State) (x : Fin 16) (c : Cmd) (d : Done) : (s.report x c d).settings = s.settings :=
  (onlyWork_report _ _ _ _).settings

@[simp] theorem settings_emptyBoundary (s : State) (x : Fin 16) (c : Fin 4) (ev : Bool) :
    (s.emptyBoundary x c ev).settings = s.settings :=
  (onlyWork_emptyBoundary _ _ _ _).settings

@[simp] theorem settings_coreRws (s : State) (c : Fin 4) : (s.coreRws c).settings = s.settings := rfl

@[simp] theorem settings_endQueued (s : State) (x : Fin 16) (c : Fin 4) (cmd : Cmd) : (s.endQueued x c cmd).settings = s.settings := by
  unfold State.endQueued
  dsimp only
  split
  · simp
  · split <;> simp

@[simp] theorem settings_stopIssue (s : State) (c : Fin 4) : (s.stopIssue c).settings = s.settings :=
  (onlyWork_stopIssue _ _).settings

@[simp] theorem settings_finishCore (s : State) (c : Fin 4) (charge : Nat) : (s.finishCore c charge).settings = s.settings :=
  (onlyWork_finishCore _ _ _).settings

@[simp] theorem settings_finishRun (s : State) (r : Run) : (s.finishRun r).settings = s.settings :=
  (onlyWork_finishRun _ _).settings

@[simp] theorem settings_failHeadCore (s : State) (x : Fin 16) (c : Fin 4) (ev : Bool) (cmd : Cmd) (reason : Nat) (poison : Bool) :
    (s.failHeadCore x c ev cmd reason poison).settings = s.settings := by
  simp only [State.failHeadCore]
  grind [settings_foldl, settings_dropShadows, settings_popHead, settings_endQueued, settings_poisonRegion,
    settings_modCore, settings_emptyBoundary, settings_report]

@[simp] theorem settings_failHeadQueue (s : State) (x : Fin 16) (fabric : Bool) (cmd : Cmd) (reason : Nat) (poison : Bool) :
    (s.failHeadQueue x fabric cmd reason poison).settings = s.settings := by
  simp only [State.failHeadQueue]
  grind [settings_foldl, settings_modCtx, settings_poisonRegion, settings_report]

@[simp] theorem settings_finishNow (s : State) (q : QRef) (r : Run) : (s.finishNow q r).settings = s.settings :=
  (onlyWork_finishNow _ _ _).settings

/-! ## Rows of the arrays -/

@[simp] theorem settings_noteRow (s : State) (a : Fin 8) (cmd : Nat) (r : AccRow) (replay : Bool) :
    (s.noteRow a cmd r replay).settings = s.settings := rfl

/-! ## The history of suspicions -/

@[simp] theorem settings_queueRec (s : State) (kind : Nat) (bytes : List Byte) (packet : Option (Fin 16 × Fin 8 × W32)) :
    (s.queueRec kind bytes packet).settings = s.settings := rfl

@[simp] theorem settings_queueMap (s : State) (kind : Nat) (body : List Byte) : (s.queueMap kind body).settings = s.settings := rfl

@[simp] theorem settings_storeHist (s : State) (e : HistEntry) : (s.storeHist e).settings = s.settings := by
  unfold State.storeHist
  split <;> simp

@[simp] theorem settings_writeHist (s : State) (e : HistEntry) : (s.writeHist e).1.settings = s.settings := by
  unfold State.writeHist
  dsimp only
  split
  · simp
  · split <;> simp

@[simp] theorem settings_unitEvent (s : State) (reason unit : Nat) : (s.unitEvent reason unit).settings = s.settings := by
  simp [State.unitEvent]

@[simp] theorem settings_oweDegrade (s : State) (a : Fin 8) : (s.oweDegrade a).settings = s.settings := by simp [State.oweDegrade]

@[simp] theorem settings_quarantine (s : State) (c : Fin 4) : (s.quarantine c).settings = s.settings := by simp [State.quarantine]

@[simp] theorem settings_permanentSite (s : State) (a : Fin 8) (site : Nat) : (s.permanentSite a site).settings = s.settings := by
  simp [State.permanentSite]

@[simp] theorem settings_eraseLane (s : State) (n : Fin 12) (channel pc lane : Nat) :
    (s.eraseLane n channel pc lane).settings = s.settings := by simp [State.eraseLane]

@[simp] theorem settings_retirePort (s : State) (l : Fin 4) (lane : Nat) : (s.retirePort l lane).settings = s.settings :=
  settings_unitEvent _ _ _

@[simp] theorem settings_onPermanent (s : State) (kind unit : Nat) : (s.onPermanent kind unit).settings = s.settings := by
  unfold State.onPermanent
  split <;> simp

@[simp] theorem settings_makePermanent (s : State) (kind unit : Nat) : (s.makePermanent kind unit).settings = s.settings := by
  simp [State.makePermanent]

@[simp] theorem settings_transient (s : State) (kind unit minute n : Nat) : (s.transient kind unit minute n).settings = s.settings := by
  unfold State.transient
  grind [settings_writeHist, settings_makePermanent]

@[simp] theorem settings_suspect (s : State) (a : Fin 8) (gs : List Nat) : (s.suspect a gs).settings = s.settings := by simp [State.suspect]

@[simp] theorem settings_emptySlots (s : State) (x : Fin 16) : (s.emptySlots x).settings = s.settings := rfl

@[simp] theorem settings_clearCore (s : State) (x : Fin 16) (c : Fin 4) : (s.clearCore x c).settings = s.settings := by
  simp [State.clearCore]

@[simp] theorem settings_reportFailed (s : State) (x : Fin 16) : (s.reportFailed x).settings = s.settings :=
  (onlyWork_reportFailed s x).settings

@[simp] theorem settings_dropFabric (s : State) (x : Fin 16) : (s.dropFabric x).settings = s.settings := rfl

@[simp] theorem settings_landStalled (s : State) (m : Move) : (s.landStalled m).settings = s.settings := by
  unfold State.landStalled
  refine settings_foldl _ (fun s a => ?_) _ _
  simp

@[simp] theorem settings_haltMoves (s : State) (x : Fin 16) : (s.haltMoves x).settings = s.settings :=
  (onlyWork_haltMoves s x).settings

@[simp] theorem settings_stopWork (s : State) (x : Fin 16) : (s.stopWork x).settings = s.settings := by
  unfold State.stopWork
  dsimp only
  rw [settings_modTiers _ _ rfl, settings_haltMoves, settings_dropFabric, settings_foldl _ (fun s c => settings_clearCore s x c)]
  rfl

@[simp] theorem settings_endKill (s : State) (x : Fin 16) : (s.endKill x).settings = s.settings := by simp [State.endKill]

@[simp] theorem settings_kill (s : State) (x : Fin 16) (reason : Nat) (rseq : W32) : (s.kill x reason rseq).settings = s.settings := by
  simp [State.kill]

@[simp] theorem settings_nonMaskable (s : State) : s.nonMaskable.settings = s.settings :=
  settings_event _ _ _ _

@[simp] theorem settings_enterFatal (s : State) (reason : Nat) (rseq : W32) : (s.enterFatal reason rseq).settings = s.settings := by
  simp only [State.enterFatal]
  grind [settings_foldl, settings_modFaults, settings_nonMaskable, settings_kill]

/-! ## Near memory -/

@[simp] theorem settings_detectSpan (s : State) (core : Option (Fin 4)) (f : FaultRec) :
    (s.detectSpan core f).settings = s.settings :=
  (onlyWork_detectSpan _ _ _).settings

@[simp] theorem settings_loseSector (s : State) (n : Fin 12) (a : Nat) (data : List Byte) (core : Option (Fin 4)) (name : FaultRec → FaultRec) :
    (s.loseSector n a data core name).settings = s.settings :=
  (onlyWork_loseSector _ _ _ _ _ _).settings

theorem settings_poisonDeep (s : State) (a : Nat) {q : Nat × Nat × Bool × State} (h : s.poisonDeep a = some q) :
    q.2.2.2.settings = s.settings := by
  unfold State.poisonDeep at h
  grind [settings_modTiers]

@[simp] theorem settings_countDeep (s : State) (ch : Nat) (fixed : Bool) : (s.countDeep ch fixed).settings = s.settings :=
  (onlyWork_countDeep _ _ _).settings

@[simp] theorem settings_touchSector (s : State) (n : Fin 12) (a : Nat) (core : Option (Fin 4)) (name : FaultRec → FaultRec) :
    (s.touchSector n a core name).settings = s.settings :=
  (onlyWork_touchSector _ _ _ _ _).settings

@[simp] theorem settings_touchRange (s : State) (a n : Nat) (reader : Option (Fin 4)) :
    (s.touchRange a n reader).settings = s.settings :=
  (onlyWork_touchRange _ _ _ _).settings

@[simp] theorem settings_doScrubRead (n : Fin 12) (sector : Nat) (err : Pattern) (s : State) :
    (doScrubRead n sector err s).settings = s.settings := by
  unfold doScrubRead
  dsimp only
  split
  · simp
  · split <;> simp

@[simp] theorem settings_doWcbAgeFlush (n : Fin 12) (sector : Nat) (s : State) : (doWcbAgeFlush n sector s).settings = s.settings := by
  unfold doWcbAgeFlush
  dsimp only
  split <;> simp

@[simp] theorem settings_doWcbHighFlush (n : Fin 12) (s : State) : (doWcbHighFlush n s).settings = s.settings := rfl

@[simp] theorem settings_flushAll (s : State) : s.flushAll.settings = s.settings := rfl

/-! ## Vector chains -/

@[simp] theorem settings_storeOut (s : State) (r : Run) (c : Fin 4) (o : Opnd) (m : StoreMode) (stamp off : Nat) (rows : List (Nat × List PV)) :
    (s.storeOut r c o m stamp off rows).settings = s.settings := by simp [State.storeOut]

/-! ## The forward pass -/

@[simp] theorem settings_mmStore (s : State) (r : Run) (c : Fin 4) (a : MMArgs) (b row : Nat) (va vb : List PV) :
    (s.mmStore r c a b row va vb).settings = s.settings := by simp [State.mmStore]

@[simp] theorem settings_drainRow (s : State) (r : Run) (c : Fin 4) (a : MMArgs) (row : AccRow) (ups : List (Nat × W32)) :
    (s.drainRow r c a row ups).settings = s.settings := by
  unfold State.drainRow
  dsimp only
  split
  · simp
  · split <;> simp

/-- A ramp that an array asks for changes no cap. -/
theorem settings_rampReqs (s : State) (q : List RampReq) :
    ({ s with power := { s.power with rampReqs := q } } : State).settings = s.settings := rfl

@[simp] theorem settings_drainKept (s : State) (r : Run) (c : Fin 4) (a : MMArgs) (row : AccRow) (ups : List (Nat × W32)) :
    (s.drainKept r c a row ups).settings = s.settings := by simp [State.drainKept]

@[simp] theorem settings_runMM (s : State) (r : Run) (c : Fin 4) (hold : Bool) (ups : List Upset) :
    (s.runMM r c hold ups).settings = s.settings :=
  (computes_runMM (w := False) False.elim s hold ups).work.settings

@[simp] theorem settings_doMm (c : Fin 4) (hold : Bool) (ups : List Upset) (s : State) : (doMm c hold ups s).settings = s.settings := by
  unfold doMm
  grind [settings_dispatchCore, settings_runMM]

@[simp] theorem settings_doRowDrain (a : Fin 8) (ups : List (Nat × W32)) (s : State) : (doRowDrain a ups s).settings = s.settings := by
  unfold doRowDrain
  dsimp only
  split <;> simp

@[simp] theorem settings_runAttend (s : State) (r : Run) (c : Fin 4) (ups : List Upset) :
    (s.runAttend r c ups).settings = s.settings :=
  (computes_runAttend (w := False) False.elim s ups).work.settings

@[simp] theorem settings_doAttend (c : Fin 4) (ups : List Upset) (s : State) : (doAttend c ups s).settings = s.settings := by
  unfold doAttend
  grind [settings_dispatchCore, settings_runAttend]

/-! ## The feed pipeline -/

@[simp] theorem settings_runVec (s : State) (r : Run) (c : Fin 4) : (s.runVec r c).settings = s.settings :=
  (computes_runVec (w := False) False.elim s).work.settings

@[simp] theorem settings_doVec (c : Fin 4) (s : State) : (doVec c s).settings = s.settings := by
  unfold doVec
  grind [settings_dispatchCore, settings_runVec]

@[simp] theorem settings_runNorm (s : State) (r : Run) (c : Fin 4) : (s.runNorm r c).settings = s.settings :=
  (computes_runNorm (w := False) False.elim s).work.settings

@[simp] theorem settings_doNorm (c : Fin 4) (s : State) : (doNorm c s).settings = s.settings := by
  unfold doNorm
  grind [settings_dispatchCore, settings_runNorm]

@[simp] theorem settings_runQuant (s : State) (r : Run) (c : Fin 4) : (s.runQuant r c).settings = s.settings :=
  (computes_runQuant (w := False) False.elim s).work.settings

@[simp] theorem settings_doQuant (c : Fin 4) (s : State) : (doQuant c s).settings = s.settings := by
  unfold doQuant
  grind [settings_dispatchCore, settings_runQuant]

@[simp] theorem settings_runGather (s : State) (r : Run) (c : Fin 4) : (s.runGather r c).settings = s.settings :=
  (computes_runGather (w := False) False.elim s).work.settings

@[simp] theorem settings_doGatherE (c : Fin 4) (s : State) : (doGatherE c s).settings = s.settings := by
  unfold doGatherE
  grind [settings_dispatchCore, settings_runGather]

@[simp] theorem settings_runCopy (s : State) (r : Run) (c : Fin 4) : (s.runCopy r c).settings = s.settings :=
  (computes_runCopy (w := False) False.elim s).work.settings

@[simp] theorem settings_doCopy (c : Fin 4) (s : State) : (doCopy c s).settings = s.settings := by
  unfold doCopy
  grind [settings_dispatchCore, settings_runCopy]

/-! ## Parameter updates -/

@[simp] theorem settings_runUpdate (s : State) (r : Run) (c : Fin 4) (bad : List (Nat × Bool)) :
    (s.runUpdate r c bad).settings = s.settings :=
  (computes_runUpdate s r bad).work.settings

@[simp] theorem settings_markPending (s : State) (x : Fin 16) (c : Fin 4) : (s.markPending x c).settings = s.settings := by
  unfold State.markPending
  repeat' split
  all_goals simp

@[simp] theorem settings_doUpdate (c : Fin 4) (x : Fin 16) (bad : List (Nat × Bool)) (s : State) :
    (doUpdate c x bad s).settings = s.settings := by
  unfold doUpdate
  grind [settings_dispatchCore, settings_runUpdate, settings_markPending]

@[simp] theorem settings_runPrecond (s : State) (r : Run) (c : Fin 4) : (s.runPrecond r c).settings = s.settings :=
  (computes_runPrecond s r).work.settings

@[simp] theorem settings_doPrecond (c : Fin 4) (s : State) : (doPrecond c s).settings = s.settings := by
  unfold doPrecond
  grind [settings_dispatchCore, settings_runPrecond]

@[simp] theorem settings_doAcquire (q : QRef) (s : State) : (doAcquire q s).settings = s.settings := by
  unfold doAcquire
  grind [settings_dispatchQ, settings_failClean, settings_putAlm, settings_finishNow]

@[simp] theorem settings_doRelease (q : QRef) (s : State) : (doRelease q s).settings = s.settings := by
  unfold doRelease
  grind [settings_dispatchQ, settings_failClean, settings_putAlm, settings_finishNow]

@[simp] theorem settings_failWaiting (s : State) (q : QRef) (x : Fin 16) (cmd : Cmd) (ev : Bool) (reason : Nat) (poison : Bool) :
    (s.failWaiting q x cmd ev reason poison).settings = s.settings := by
  unfold State.failWaiting
  split <;> simp

@[simp] theorem settings_doAcquireTimeout (q : QRef) (x : Fin 16) (s : State) : (doAcquireTimeout q x s).settings = s.settings := by
  unfold doAcquireTimeout
  split <;> simp

@[simp] theorem settings_doUpdateWaitTimeout (c : Fin 4) (x : Fin 16) (s : State) :
    (doUpdateWaitTimeout c x s).settings = s.settings := by
  unfold doUpdateWaitTimeout
  split <;> simp

end Sys2Proof.Machine
end

section
/-! PROOFS. Steps that change no setting: spans, tiers, mailboxes, links (11 to 16). -/

namespace Sys2Proof.Machine

open Sys2Proof

/-! ## Replay spans -/

@[simp] theorem settings_signal (s : State) (x : Fin 16) (q : Nat) (cmd : Cmd) : (s.signal x q cmd).settings = s.settings :=
  (onlyWork_signal _ _ _ _).settings

@[simp] theorem settings_doFenceSignal (q : QRef) (s : State) : (doFenceSignal q s).settings = s.settings := by
  unfold doFenceSignal
  grind [settings_dispatchQ, settings_finishNow, settings_signal]

@[simp] theorem settings_doFenceWait (q : QRef) (s : State) : (doFenceWait q s).settings = s.settings := by
  unfold doFenceWait
  grind [settings_dispatchQ, settings_finishNow]

@[simp] theorem settings_doFenceWaitTimeout (q : QRef) (x : Fin 16) (s : State) : (doFenceWaitTimeout q x s).settings = s.settings := by
  unfold doFenceWaitTimeout
  split <;> simp

@[simp] theorem settings_doNop (q : QRef) (s : State) : (doNop q s).settings = s.settings := by
  unfold doNop
  grind [settings_dispatchQ, settings_finishNow]

@[simp] theorem settings_doHint (q : QRef) (s : State) : (doHint q s).settings = s.settings := by
  simp only [doHint]
  grind [settings_foldl, settings_dispatchQ, settings_modCC, settings_finishNow]

@[simp] theorem settings_censusClose (s : State) (x : Fin 16) (first count : Nat) (step : W32) :
    (s.censusClose x first count step).settings = s.settings :=
  (onlyWork_censusClose _ _ _ _ _).settings

@[simp] theorem settings_censusCopy (s : State) (x : Fin 16) (first count dest : Nat) :
    (s.censusCopy x first count dest).settings = s.settings :=
  (onlyWork_censusCopy _ _ _ _ _).settings

@[simp] theorem settings_doCensus (q : QRef) (s : State) : (doCensus q s).settings = s.settings := by
  unfold doCensus
  grind [settings_dispatchQ, settings_censusClose, settings_censusCopy, settings_finishNow]

@[simp] theorem settings_clearCaptures (s : State) (c : Fin 4) : (s.clearCaptures c).settings = s.settings :=
  (onlyWork_clearCaptures _ _).settings

@[simp] theorem settings_doSpanOpen (c : Fin 4) (s : State) : (doSpanOpen c s).settings = s.settings := by
  unfold doSpanOpen
  grind [settings_dispatchCore, settings_clearCaptures, settings_finishCore, settings_modCore]

@[simp] theorem settings_releaseDone (s : State) (x : Fin 16) (c : Fin 4) (d : Cmd × Done × Nat) :
    (s.releaseDone x c d).settings = s.settings := by simp [State.releaseDone]

@[simp] theorem settings_doSpanReplay (c : Fin 4) (s : State) : (doSpanReplay c s).settings = s.settings := by
  unfold doSpanReplay
  split <;> simp

@[simp] theorem settings_failSpan (s : State) (c : Fin 4) (reason : Nat) : (s.failSpan c reason).settings = s.settings :=
  (onlyWork_failSpan _ _ _).settings

@[simp] theorem settings_releaseHeld (s : State) (c : Fin 4) (sp : Span) (i : Nat) (d : Cmd × Done × Nat) :
    (s.releaseHeld c sp i d).settings = s.settings := by
  simp only [State.releaseHeld]
  grind [settings_foldl, settings_applyContribs, settings_release, settings_releaseDone]

@[simp] theorem settings_doSpanClose (c : Fin 4) (s : State) : (doSpanClose c s).settings = s.settings := by
  simp only [doSpanClose]
  grind [settings_foldl, settings_dispatchCore, settings_finishNow, settings_failSpan, settings_releaseHeld,
    settings_modCore, settings_clearCaptures]

@[simp] theorem settings_endFaulty (s : State) (c : Fin 4) : (s.endFaulty c).settings = s.settings := by
  unfold State.endFaulty
  split <;> simp

@[simp] theorem settings_doCommandComplete (q : QRef) (i charge : Nat) (s : State) :
    (doCommandComplete q i charge s).settings = s.settings := by
  unfold doCommandComplete
  repeat' split
  all_goals simp

@[simp] theorem settings_noteOutcome (s : State) (c : Fin 4) (a : Fin 8) (k : Capture) (o : RowOutcome) :
    (s.noteOutcome c a k o).settings = s.settings := by
  simp only [State.noteOutcome]
  grind [settings_foldl, settings_detect, settings_makePermanent, settings_suspect]

@[simp] theorem settings_doReplayDecision (c : Fin 4) (rows : List SelfTestRow) (s : State) :
    (doReplayDecision c rows s).settings = s.settings := by
  have notes (outs : List (Fin 8 × Capture × RowOutcome)) :
      (outs.foldl (fun s o => s.noteOutcome c o.1 o.2.1 o.2.2) s).settings = s.settings :=
    settings_foldl _ (fun _ _ => settings_noteOutcome _ _ _ _ _) _ _
  unfold doReplayDecision
  split
  · refine (settings_ite _ _ _).trans (ite_eq_left_iff.2 (fun _ => ?_))
    dsimp only
    generalize List.map _ _ = outs
    split
    · rw [settings_quarantine, settings_failSpan, notes]
    · split
      · rw [settings_failSpan, notes]
      · split
        · rw [settings_failSpan, notes]
        · rw [settings_clearCaptures, notes]
  · rfl

@[simp] theorem settings_doSpanTimeout (c : Fin 4) (s : State) : (doSpanTimeout c s).settings = s.settings := by
  unfold doSpanTimeout
  split <;> simp

@[simp] theorem settings_watchdogFail (s : State) (r : Run) : (s.watchdogFail r).settings = s.settings :=
  (onlyWork_watchdogFail s r).settings

@[simp] theorem settings_doCommandWatchdog (q : QRef) (i : Nat) (s : State) :
    (doCommandWatchdog q i s).settings = s.settings := by
  unfold doCommandWatchdog
  cases q with
  | core c =>
    dsimp only
    split
    · split
      · exact (settings_rampReqs _ _).trans (by simp)
      · rfl
    · rfl
  | fabric x => dsimp only; split <;> simp
  | memory x => dsimp only; split <;> simp

@[simp] theorem settings_doStarveTimeout (q : QRef) (x : Fin 16) (s : State) : (doStarveTimeout q x s).settings = s.settings := by
  unfold doStarveTimeout
  split <;> simp

@[simp] theorem settings_doOverrunTimeout (x : Fin 16) (die : Fin 4) (i : Nat) (s : State) :
    (doOverrunTimeout x die i s).settings = s.settings := by
  unfold doOverrunTimeout
  split <;> simp

@[simp] theorem settings_doLaneRemap (a : Fin 8) (s : State) : (doLaneRemap a s).settings = s.settings := by
  unfold doLaneRemap
  dsimp only
  split <;> simp

@[simp] theorem settings_doArrayDegrade (a : Fin 8) (s : State) : (doArrayDegrade a s).settings = s.settings := by simp [doArrayDegrade]

@[simp] theorem settings_failQueued (s : State) (x : Fin 16) (c : Fin 4) (cmd : Cmd) :
    (s.failQueued x c cmd).settings = s.settings := by simp [State.failQueued]

@[simp] theorem settings_doCoreOutOfService (c : Fin 4) (s : State) : (doCoreOutOfService c s).settings = s.settings := by
  simp only [doCoreOutOfService]
  grind [settings_foldl, settings_failSpan, settings_finishCore, settings_failRun, settings_modCC, settings_failQueued,
    settings_modCore, settings_coreRws, settings_modArr]

/-! ## Tiers and migration -/

theorem settings_allocHome (s : State) (kind : Nat) (stack : Fin 12) {h : Home} {t : State}
    (ha : s.allocHome kind stack = some (h, t)) : t.settings = s.settings := by
  unfold State.allocHome at ha
  grind [settings_occasion]

@[simp] theorem settings_putHome (s : State) (p : Nat) (e : HomeEntry) : (s.putHome p e).settings = s.settings := rfl

@[simp] theorem settings_mapPage (s : State) (x : Fin 16) (p kind : Nat) (stack : Fin 12) :
    (s.mapPage x p kind stack).settings = s.settings := by
  unfold State.mapPage
  split
  · rfl
  · rename_i h s1 ha
    have h1 := settings_allocHome _ _ _ ha
    dsimp only
    split <;> simp [h1]

@[simp] theorem settings_freePage (s : State) (p : Nat) : (s.freePage p).settings = s.settings :=
  (onlyWork_freePage s p).settings

@[simp] theorem settings_modAcct (s : State) (run : Nat) (f : MigrateAcct → MigrateAcct) : (s.modAcct run f).settings = s.settings :=
  (onlyWork_modAcct _ _ _).settings

@[simp] theorem settings_settleMigrate (s : State) (run : Nat) : (s.settleMigrate run).settings = s.settings := by
  unfold State.settleMigrate
  split <;> simp

@[simp] theorem settings_countPage (s : State) (f : MigrateAcct → MigrateAcct) (run : Nat) :
    (s.countPage f run).settings = s.settings := by simp [State.countPage]

@[simp] theorem settings_failMigrate (s : State) (run : Nat) : (s.failMigrate run).settings = s.settings := rfl

@[simp] theorem settings_dropReq (s : State) (r : MoveReq) : (s.dropReq r).settings = s.settings := rfl

theorem settings_copyDeep (s : State) (p : Nat) (l : List (Nat × List PByte)) {t : State} (h : s.copyDeep p l = some t) :
    t.settings = s.settings := by
  induction l generalizing s with
  | nil => cases h; rfl
  | cons b l ih =>
    unfold State.copyDeep at h
    split at h
    · rename_i s1 hp
      exact (ih s1 h).trans (settings_placeBlock _ _ _ _ hp)
    · cases h

theorem settings_beginMove (s : State) (p : Nat) (e : HomeEntry) (m : Move) {t : State} (h : s.beginMove p e m = some t) :
    t.settings = s.settings := by
  unfold State.beginMove at h
  grind [settings_allocHome, settings_copyDeep, settings_writeHome, settings_putHome, settings_modTiers]

@[simp] theorem settings_standBack (s : State) (m : Move) (e : HomeEntry) : (s.standBack m e).settings = s.settings := rfl

theorem settings_openMove (s back : State) (r : MoveReq) (e : HomeEntry) (h : back.settings = s.settings) :
    (State.openMove s back r e).settings = s.settings := by
  unfold State.openMove
  dsimp only
  split
  · split <;> simp
  · split
    · split <;> simp
    · split
      next s1 h1 => exact settings_beginMove _ _ _ _ h1
      next =>
        split
        · simp
        · exact h

@[simp] theorem settings_treatReq (s : State) (r : MoveReq) : (s.treatReq r).settings = s.settings := by
  have h0 : (s.dropReq r).settings = s.settings := settings_dropReq s r
  unfold State.treatReq
  dsimp only
  split
  · split
    · exact (settings_countPage _ _ _).trans h0
    · exact h0
  · split
    · exact (settings_openMove _ _ _ _ h0.symm).trans h0
    next =>
      split
      · exact (settings_modTiers _ _ rfl).trans h0
      · exact (settings_openMove _ _ _ _ (h0.symm.trans (settings_standBack _ _ _).symm)).trans ((settings_standBack _ _ _).trans h0)

@[simp] theorem settings_doPageMove (x : Fin 16) (s : State) : (doPageMove x s).settings = s.settings := by
  unfold doPageMove
  split
  · simp
  · split <;> simp

@[simp] theorem settings_flushHome (s : State) (h : Home) : (s.flushHome h).settings = s.settings := by
  unfold State.flushHome
  refine settings_foldl _ (fun s a => ?_) _ _
  simp

@[simp] theorem settings_doPageSwitch (p : Nat) (s : State) : (doPageSwitch p s).settings = s.settings := by
  simp only [doPageSwitch]
  grind [settings_foldl, settings_flushHome, settings_modTiers, settings_putHome, settings_clearDeep, settings_modCtx,
    settings_landStalled, settings_countPage]

@[simp] theorem settings_abortMove (s : State) (p : Nat) (m : Move) (e : HomeEntry) : (s.abortMove p m e).settings = s.settings := by
  simp only [State.abortMove]
  grind [settings_foldl, settings_putHome, settings_clearDeep, settings_modTiers, settings_modCtx, settings_landStalled, settings_countPage]

@[simp] theorem settings_doMoveTimeout (p : Nat) (s : State) : (doMoveTimeout p s).settings = s.settings := by
  unfold doMoveTimeout
  split <;> simp

@[simp] theorem settings_dropMove (s : State) (p : Nat) (e : HomeEntry) : (s.dropMove p e).settings = s.settings := rfl

@[simp] theorem settings_doMoveRetry (p : Nat) (s : State) : (doMoveRetry p s).settings = s.settings := by
  simp only [doMoveRetry]
  grind [settings_foldl, settings_countPage, settings_dropMove, settings_beginMove, settings_failMigrate]

@[simp] theorem settings_doMigrate (x : Fin 16) (s : State) : (doMigrate x s).settings = s.settings := by
  unfold doMigrate
  grind [settings_dispatchMemory, settings_failClean, settings_modRun, settings_modTiers, settings_settleMigrate]

@[simp] theorem settings_setPinned (s : State) (first count : Nat) (v : Bool) : (s.setPinned first count v).settings = s.settings := rfl

@[simp] theorem settings_pinRange (s : State) (x : Fin 16) (op : Nat) (v : Bool) : (s.pinRange x op v).settings = s.settings := by
  unfold State.pinRange
  grind [settings_dispatchMemory, settings_setPinned]

@[simp] theorem settings_doPin (x : Fin 16) (s : State) : (doPin x s).settings = s.settings := by simp [doPin]

@[simp] theorem settings_doUnpin (x : Fin 16) (s : State) : (doUnpin x s).settings = s.settings := by simp [doUnpin]

@[simp] theorem settings_stopPlan (s : State) (x : Fin 16) : (s.stopPlan x).settings = s.settings := rfl

@[simp] theorem settings_doLayerPlanStart (x : Fin 16) (s : State) : (doLayerPlanStart x s).settings = s.settings := by
  unfold doLayerPlanStart
  grind [settings_dispatchMemory, settings_touchRange, settings_finishNow, settings_failClean, settings_stopPlan,
    settings_modCtx, settings_planMoves, settings_modRun]

@[simp] theorem settings_doLayerPlanStop (x : Fin 16) (s : State) : (doLayerPlanStop x s).settings = s.settings := by
  unfold doLayerPlanStop
  grind [settings_dispatchMemory, settings_finishNow, settings_stopPlan]

theorem settings_landWait (s : State) (w : DeepWait) {t : State} (h : s.landWait w = some t) : t.settings = s.settings := by
  obtain ⟨u, hu, rfl⟩ := Option.map_eq_some_iff.1 h
  exact (settings_invalidate _ _ _).trans (settings_placeBlock _ _ _ _ hu)

@[simp] theorem settings_packChannel (s : State) (ch : Nat) : (s.packChannel ch).settings = s.settings := by
  unfold State.packChannel
  exact settings_foldl_pair _ (fun r a => by simp) _ _

@[simp] theorem settings_doCompaction (ch : Fin 16) (s : State) : (doCompaction ch s).settings = s.settings := by
  simp only [doCompaction]
  grind [settings_foldl, settings_packChannel, settings_modTiers, settings_landWait]

@[simp] theorem settings_failWriter (s : State) (r : Run) : (s.failWriter r).settings = s.settings :=
  settings_failRun s r 0x031B

@[simp] theorem settings_doDeepSpaceTimeout (i : Nat) (s : State) : (doDeepSpaceTimeout i s).settings = s.settings := by
  simp only [doDeepSpaceTimeout]
  grind [settings_foldl, settings_modTiers, settings_failWriter, settings_invalidate, settings_deepLowOf, settings_detect]

/-! ## Host mailboxes -/

@[simp] theorem settings_noteRefusal (s : State) (x : Fin 16) (reason : Nat) (seq : W32) :
    (s.noteRefusal x reason seq).settings = s.settings := rfl

@[simp] theorem settings_finishPacket (s : State) (x : Fin 16) (p : Pkt) (reason : Nat) (failed poisoned : Bool) (det : List Byte) :
    (s.finishPacket x p reason failed poisoned det).settings = s.settings := by simp [State.finishPacket]

@[simp] theorem settings_donePacket (s : State) (x : Fin 16) (p : Pkt) : (s.donePacket x p).settings = s.settings := by
  simp [State.donePacket]

@[simp] theorem settings_refusePacket (s : State) (x : Fin 16) (p : Pkt) (reason index : Nat) :
    (s.refusePacket x p reason index).settings = s.settings := by simp [State.refusePacket]

@[simp] theorem settings_seal (s : State) (x : Fin 16) (i : Fin 8) (sramBad : Bool) : (s.seal x i sramBad).settings = s.settings := by
  simp [State.seal]

@[simp] theorem settings_slotWrite (s : State) (x : Fin 16) (i : Fin 8) (off : Nat) (bs : List Byte) (sramBad : Bool) :
    (s.slotWrite x i off bs sramBad).settings = s.settings := by
  unfold State.slotWrite
  split
  · rfl
  · split
    · rfl
    · dsimp only
      split
      · exact settings_seal _ _ _ _
      · rfl

@[simp] theorem settings_doSlotWrite (x : Fin 16) (i : Fin 8) (off : Nat) (bs : List Byte) (s : State) :
    (doSlotWrite x i off bs s).settings = s.settings := by simp [doSlotWrite]

@[simp] theorem settings_doSeal (x : Fin 16) (i : Fin 8) (seq crc : W32) (sramBad : Bool) (s : State) :
    (doSeal x i seq crc sramBad s).settings = s.settings := by simp [doSeal]

@[simp] theorem settings_doPacketTake (x : Fin 16) (s : State) : (doPacketTake x s).settings = s.settings := by
  unfold doPacketTake
  dsimp only
  split
  · rfl
  · split
    · rfl
    · split
      · rfl
      · exact settings_refusePacket _ _ _ _ _

@[simp] theorem settings_acceptPacket (s : State) (x : Fin 16) (p : Pkt) : (s.acceptPacket x p).settings = s.settings := rfl

@[simp] theorem settings_hostWrite (s : State) (x : Fin 16) (addr : Nat) (bs : List Byte) :
    (s.hostWrite x addr bs).settings = s.settings := rfl

@[simp] theorem settings_returnData (s : State) (x : Fin 16) (p : Pkt) (host : Nat) (bs : List PByte) :
    (s.returnData x p host bs).settings = s.settings := by
  unfold State.returnData
  refine settings_foldl _ (fun s a => ?_) _ _
  dsimp only
  split <;> simp

@[simp] theorem settings_sinkPacket (s : State) (x : Fin 16) (p : Pkt) : (s.sinkPacket x p).settings = s.settings := rfl

@[simp] theorem settings_endTransfer (s : State) (x : Fin 16) (p : Pkt) (host : Nat) (bs : List PByte) :
    (s.endTransfer x p host bs).settings = s.settings := by simp [State.endTransfer]

@[simp] theorem settings_runFeed (s : State) (x : Fin 16) (p : Pkt) : (s.runFeed x p).settings = s.settings := by simp [State.runFeed]

@[simp] theorem settings_runFetch (s : State) (x : Fin 16) (p : Pkt) : (s.runFetch x p).settings = s.settings := by simp [State.runFetch]

@[simp] theorem settings_runTransfer (s : State) (x : Fin 16) (p : Pkt) : (s.runTransfer x p).settings = s.settings := by
  simp [State.runTransfer]

@[simp] theorem settings_doFeed (x : Fin 16) (i : Fin 8) (s : State) : (doFeed x i s).settings = s.settings := by
  unfold doFeed
  split <;> simp

@[simp] theorem settings_doFetch (x : Fin 16) (i : Fin 8) (s : State) : (doFetch x i s).settings = s.settings := by
  unfold doFetch
  split <;> simp

@[simp] theorem settings_doHeldPacketRelease (x : Fin 16) (i : Fin 8) (s : State) :
    (doHeldPacketRelease x i s).settings = s.settings := by simp [doHeldPacketRelease]

@[simp] theorem settings_msix (s : State) (x : Fin 16) (v : Nat) : (s.msix x v).settings = s.settings := by
  unfold State.msix
  dsimp only
  split <;> rfl

@[simp] theorem settings_ringWrite (s : State) (x : Fin 16) (e : Entry) : (s.ringWrite x e).settings = s.settings := by
  simp [State.ringWrite]

@[simp] theorem settings_doCompletionEntry (x : Fin 16) (s : State) : (doCompletionEntry x s).settings = s.settings := by
  unfold doCompletionEntry
  dsimp only
  split <;> simp

@[simp] theorem settings_doBacklogDrain (x : Fin 16) (s : State) : (doBacklogDrain x s).settings = s.settings := by
  unfold doBacklogDrain
  dsimp only
  repeat' split
  all_goals simp

@[simp] theorem settings_doCqHeadWrite (x : Fin 16) (v : W32) (s : State) : (doCqHeadWrite x v s).settings = s.settings := rfl

@[simp] theorem settings_releaseAll (s : State) (x : Fin 16) : (s.releaseAll x).settings = s.settings :=
  (onlyWork_releaseAll s x).settings

@[simp] theorem settings_beginDestroy (s : State) (x : Fin 16) (tag : Option (Nat × W32 × W64 × Nat)) :
    (s.beginDestroy x tag).settings = s.settings :=
  (onlyWork_beginDestroy s x tag).settings

@[simp] theorem settings_makeNone (s : State) (x : Fin 16) : (s.makeNone x).settings = s.settings := by simp [State.makeNone]

@[simp] theorem settings_doDestroyFinish (x : Fin 16) (s : State) : (doDestroyFinish x s).settings = s.settings := by
  unfold doDestroyFinish
  dsimp only
  repeat' split
  all_goals simp

@[simp] theorem settings_wipeCtx (s : State) (x : Fin 16) : (s.wipeCtx x).settings = s.settings :=
  (settings_modCtx _ x _).trans ((settings_makeNone _ x).trans (settings_stopWork s x))

@[simp] theorem settings_resetFunction (s : State) (x : Fin 16) : (s.resetFunction x).settings = s.settings := rfl

@[simp] theorem settings_flrCtx (s : State) (x : Fin 16) (pf : Bool) : (s.flrCtx x pf).settings = s.settings := by
  unfold State.flrCtx
  split <;> simp

@[simp] theorem settings_doFunctionLevelReset (x : Fin 16) (s : State) :
    (doFunctionLevelReset x s).settings = s.settings := by
  unfold doFunctionLevelReset
  by_cases hx : x = 0
  · have h := settings_foldl (fun s y => s.flrCtx y true) (fun s y => settings_flrCtx s y true) (List.finRange 16) s
    rw [if_pos hx]
    dsimp only
    generalize (List.finRange 16).foldl (fun s y => s.flrCtx y true) s = u at h ⊢
    exact h
  · rw [if_neg hx]
    exact settings_flrCtx s x false

/-! ## Links -/

@[simp] theorem settings_modLink (s : State) (l : Fin 4) (f : LinkS → LinkS) : (s.modLink l f).settings = s.settings := rfl

@[simp] theorem settings_modPort (s : State) (p : Fin 16) (f : Port → Port) : (s.modPort p f).settings = s.settings := rfl

@[simp] theorem settings_modFabric (s : State) (f : Fabric → Fabric) : (s.modFabric f).settings = s.settings := rfl

@[simp] theorem settings_wire (s : State) (p : Fin 16) (f : Frame) : (s.wire p f).settings = s.settings := rfl

theorem settings_transmit (s : State) (pref : Option (Fin 16)) (f : Frame) {t : State} (h : s.transmit pref f = some t) :
    t.settings = s.settings := by
  unfold State.transmit at h
  split at h
  · split at h
    · cases h; simp
    · obtain ⟨q, -, rfl⟩ := Option.map_eq_some_iff.1 h; simp
  · obtain ⟨q, -, rfl⟩ := Option.map_eq_some_iff.1 h; simp

@[simp] theorem settings_modTx (s : State) (peer job channel : Nat) (f : TxFlow → TxFlow) :
    (s.modTx peer job channel f).settings = s.settings := rfl

@[simp] theorem settings_pump (s : State) (peer job channel : Nat) : (s.pump peer job channel).settings = s.settings := by
  simp only [State.pump]
  grind [settings_foldl, settings_transmit, settings_modTx]

@[simp] theorem settings_pumpAll (s : State) : s.pumpAll.settings = s.settings := by
  unfold State.pumpAll
  refine settings_foldl _ (fun s a => ?_) _ _
  simp

@[simp] theorem settings_enqueue (s : State) (x : Option (Fin 16)) (owner : Option Nat) (port : Option (Fin 16)) (f : Frame) :
    (s.enqueue x owner port f).settings = s.settings := by
  unfold State.enqueue
  split <;> simp

@[simp] theorem settings_discardFrame (s : State) (p : Fin 16) : (s.discardFrame p).settings = s.settings := rfl

@[simp] theorem settings_hear (s : State) (p : Fin 16) (f : Frame) : (s.hear p f).1.settings = s.settings := by
  unfold State.hear
  split
  · simp
  · split <;> simp

@[simp] theorem settings_setRx (s : State) (r : RxFlow) : (s.setRx r).settings = s.settings := rfl

@[simp] theorem settings_sendAck (s : State) (r : RxFlow) : (s.sendAck r).settings = s.settings := by
  unfold State.sendAck
  grind [settings_occasion, settings_transmit, settings_setRx]

@[simp] theorem settings_startFlow (s : State) (peer job channel : Nat) : (s.startFlow peer job channel).settings = s.settings := rfl

@[simp] theorem settings_takeSeq (s : State) (p : Fin 16) (f : Frame) : (s.takeSeq p f).1.settings = s.settings := by
  unfold State.takeSeq
  dsimp only
  repeat' split
  all_goals simp

@[simp] theorem settings_receive (s : State) (p : Fin 16) (f : Frame) : (s.receive p f).1.settings = s.settings := by
  unfold State.receive
  grind [settings_hear, settings_takeSeq]

@[simp] theorem settings_sendCtrl (s : State) (dst msg epoch : Nat) (body : List Byte) :
    (s.sendCtrl dst msg epoch body).settings = s.settings := by simp [State.sendCtrl]

@[simp] theorem settings_sendLast (s : State) (dst msg epoch : Nat) (body : List Byte) :
    (s.sendLast dst msg epoch body).settings = s.settings := by
  unfold State.sendLast
  grind [settings_transmit]

@[simp] theorem settings_doRxDiscard (p : Fin 16) (f : Option Frame) (s : State) : (doRxDiscard p f s).settings = s.settings := by
  unfold doRxDiscard
  grind [settings_discardFrame, settings_receive]

@[simp] theorem settings_doAckTimer (peer job channel : Nat) (s : State) : (doAckTimer peer job channel s).settings = s.settings := by
  unfold doAckTimer
  split
  · simp
  · split <;> simp

end Sys2Proof.Machine
end

section
/-! PROOFS. Steps that change no setting: the backward pass, collectives, clock domains, faults, power (8, 14, 17, 18). -/

namespace Sys2Proof.Machine

open Sys2Proof

/-! ## The backward pass -/

@[simp] theorem settings_runMmb (s : State) (r : Run) (c : Fin 4) (ups : List Upset) : (s.runMmb r c ups).settings = s.settings :=
  (computes_runMmb (w := False) False.elim s ups).work.settings

@[simp] theorem settings_doMmb (c : Fin 4) (ups : List Upset) (s : State) : (doMmb c ups s).settings = s.settings := by
  unfold doMmb
  grind [settings_dispatchCore, settings_runMmb]

@[simp] theorem settings_runNormB (s : State) (r : Run) (c : Fin 4) : (s.runNormB r c).settings = s.settings :=
  (computes_runNormB (w := False) False.elim s).work.settings

@[simp] theorem settings_doNormB (c : Fin 4) (s : State) : (doNormB c s).settings = s.settings := by
  unfold doNormB
  grind [settings_dispatchCore, settings_runNormB]

@[simp] theorem settings_runAttendB (s : State) (r : Run) (c : Fin 4) (ups : List Upset) :
    (s.runAttendB r c ups).settings = s.settings :=
  (computes_runAttendB (w := False) False.elim s ups).work.settings

@[simp] theorem settings_doAttendB (c : Fin 4) (ups : List Upset) (s : State) : (doAttendB c ups s).settings = s.settings := by
  unfold doAttendB
  grind [settings_dispatchCore, settings_runAttendB]

/-! ## Checks of packets -/

@[simp] theorem settings_doSubmit (x : Fin 16) (i : Fin 8) (s : State) : (doSubmit x i s).settings = s.settings := by
  unfold doSubmit
  dsimp only
  repeat' split
  all_goals simp

/-! ## Messages and collectives -/

@[simp] theorem settings_touchElems (s : State) (t : Tensor) (e n : Nat) : (s.touchElems t e n).settings = s.settings := by
  simp only [State.touchElems]
  grind [settings_foldl, settings_touchRange]

@[simp] theorem settings_writeElems (s : State) (x : Fin 16) (c : Fin 4) (t : Tensor) (e : Nat) (vs : List PV) :
    (s.writeElems x c t e vs).settings = s.settings := by
  unfold State.writeElems
  exact settings_foldl_pair _ (fun r a => by simp) _ _

@[simp] theorem settings_modFabOf (s : State) (run : Nat) (g : Fab → Fab) : (s.modFabOf run g).settings = s.settings := rfl

@[simp] theorem settings_dropFab (s : State) (run : Nat) : (s.dropFab run).settings = s.settings := rfl

@[simp] theorem settings_fabFail (s : State) (r : Run) (reason : Nat) : (s.fabFail r reason).settings = s.settings := rfl

@[simp] theorem settings_sendSink (s : State) (r : Run) : (s.sendSink r).settings = s.settings := by
  unfold State.sendSink
  split <;> simp

@[simp] theorem settings_gotPoison (s : State) (r : Run) (poison : Bool) : (s.gotPoison r poison).settings = s.settings := by
  simp [State.gotPoison]

@[simp] theorem settings_sendElems (s : State) (r : Run) (a : CollArgs) (job next step stripe off len : Nat) (clean : Bool) (vs : List PV) :
    (s.sendElems r a job next step stripe off len clean vs).settings = s.settings := by
  unfold State.sendElems
  refine settings_foldl _ (fun s a => ?_) _ _
  dsimp only
  split <;> simp

@[simp] theorem settings_collOut (s : State) (r : Run) (a : CollArgs) (chunk e : Nat) (vs : List PV) :
    (s.collOut r a chunk e vs).settings = s.settings := by simp [State.collOut]

@[simp] theorem settings_collSend (s : State) (r : Run) (a : CollArgs) (job next step chunk : Nat) (final : Bool) :
    (s.collSend r a job next step chunk final).settings = s.settings := by
  unfold State.collSend
  refine settings_foldl _ (fun s a => ?_) _ _
  split <;> simp

@[simp] theorem settings_collStart (s : State) (r : Run) (a : CollArgs) (job next : Nat) :
    (s.collStart r a job next).settings = s.settings := by
  simp only [State.collStart]
  grind [settings_foldl, settings_collSend]

@[simp] theorem settings_collStep (s : State) (r : Run) (a : CollArgs) (job next step stripe off : Nat) (poison : Bool) (vs : List PV) :
    (s.collStep r a job next step stripe off poison vs).settings = s.settings := by simp [State.collStep]

@[simp] theorem settings_collTake (s : State) (r : Run) (f : Frame) : (s.collTake r f).settings = s.settings := by simp [State.collTake]

@[simp] theorem settings_sendBytes (s : State) (x : Fin 16) (owner channel job peer : Nat) (msg word : W32) (bs : List PByte) :
    (s.sendBytes x owner channel job peer msg word bs).1.settings = s.settings := by
  unfold State.sendBytes
  exact settings_foldl_pair _ (fun r a => by simp) _ _

@[simp] theorem settings_sendRts (s : State) (r : Run) (job : Nat) : (s.sendRts r job).settings = s.settings := by simp [State.sendRts]

@[simp] theorem settings_sendData (s : State) (r : Run) (job : Nat) : (s.sendData r job).settings = s.settings := by
  have touched : (if (msgArgs r.cmd).t.space = 0 then s else (msgPieces (msgArgs r.cmd) 0 (msgArgs r.cmd).bytes).foldl
      (fun s q => s.touchRange q.1 q.2 none) s).settings = s.settings := by
    split
    · rfl
    · exact settings_foldl _ (fun _ _ => settings_touchRange _ _ _ _) _ _
  unfold State.sendData
  dsimp only
  generalize (if (msgArgs r.cmd).t.space = 0 then s else (msgPieces (msgArgs r.cmd) 0 (msgArgs r.cmd).bytes).foldl
      (fun s q => s.touchRange q.1 q.2 none) s) = u at touched ⊢
  split <;> simp [touched]

@[simp] theorem settings_sendCts (s : State) (x : Fin 16) (channel job peer : Nat) (msg : W32) (status : Nat) :
    (s.sendCts x channel job peer msg status).settings = s.settings := by simp [State.sendCts]

@[simp] theorem settings_matchRts (s : State) (x : Fin 16) (job : Nat) : (s.matchRts x job).settings = s.settings := by
  unfold State.matchRts
  refine settings_foldl _ (fun s a => ?_) _ _
  dsimp only
  repeat' split
  all_goals simp

@[simp] theorem settings_writeMsg (s : State) (x : Fin 16) (m : MsgArgs) (off : Nat) (bs : List PByte) :
    (s.writeMsg x m off bs).settings = s.settings := by
  unfold State.writeMsg
  exact settings_foldl_pair _ (fun r a => by simp) _ _

@[simp] theorem settings_recvTake (s : State) (r : Run) (f : Frame) : (s.recvTake r f).settings = s.settings := by simp [State.recvTake]

@[simp] theorem settings_ctsTake (s : State) (r : Run) (f : Frame) : (s.ctsTake r f).settings = s.settings := by simp [State.ctsTake]

@[simp] theorem settings_keep (s : State) (f : Frame) : (s.keep f).settings = s.settings := rfl

@[simp] theorem settings_unkeep (s : State) (f : Frame) : (s.unkeep f).settings = s.settings := rfl

@[simp] theorem settings_drainOne (s : State) (x : Fin 16) (f : Frame) : (s.drainOne x f).settings = s.settings := by
  unfold State.drainOne
  dsimp only
  repeat' split
  all_goals simp

@[simp] theorem settings_drain (s : State) (x : Fin 16) (job : Nat) : (s.drain x job).settings = s.settings := by
  unfold State.drain
  refine settings_foldl _ (fun s a => ?_) _ _
  split <;> simp

@[simp] theorem settings_shardStart (s : State) (r : Run) (job : Nat) (nodes : List Nat) :
    (s.shardStart r job nodes).settings = s.settings := by
  unfold State.shardStart
  refine settings_foldl _ (fun s a => ?_) _ _
  split <;> simp

@[simp] theorem settings_shardTake (s : State) (r : Run) (i off : Nat) (version : W32) (bs : List PByte) (f : Option Frame) :
    (s.shardTake r i off version bs f).settings = s.settings := by simp [State.shardTake]

@[simp] theorem settings_shardEnd (s : State) (r : Run) (g : Fab) : (s.shardEnd r g).settings = s.settings := by
  unfold State.shardEnd
  split <;> simp

@[simp] theorem settings_settleFab (s : State) (job channel : Nat) (r : Run) (g : Fab) :
    (s.settleFab job channel r g).settings = s.settings := by simp [State.settleFab]

@[simp] theorem settings_settle (s : State) (x : Fin 16) (job : Nat) : (s.settle x job).settings = s.settings := by
  unfold State.settle
  refine settings_foldl _ (fun s a => ?_) _ _
  split <;> simp

@[simp] theorem settings_progress (s : State) (x : Fin 16) (job : Nat) : (s.progress x job).settings = s.settings := by
  simp [State.progress]

@[simp] theorem settings_tickFabric (s : State) : s.tickFabric.settings = s.settings := rfl

@[simp] theorem settings_doPeerWaitTimeout (x : Fin 16) (i : Nat) (s : State) : (doPeerWaitTimeout x i s).settings = s.settings := by
  unfold doPeerWaitTimeout
  split
  · simp
  · split <;> simp

@[simp] theorem settings_noteHeard (s : State) (f : Frame) : (s.noteHeard f).settings = s.settings := rfl

@[simp] theorem settings_takeIn (s : State) (p : Fin 16) (f : Frame) : (s.takeIn p f).1.settings = s.settings := by
  unfold State.takeIn
  grind [settings_receive, settings_noteHeard]

@[simp] theorem settings_startFab (s : State) (x : Fin 16) (op : Nat) (begin' : State → Run → Nat → State)
    (h : ∀ s r job, (begin' s r job).settings = s.settings) : (s.startFab x op begin').settings = s.settings := by
  unfold State.startFab
  split
  · rfl
  · rename_i s1 r hd
    have h1 := settings_dispatchFabric _ _ _ hd
    simp [h, h1]

@[simp] theorem settings_doColl (x : Fin 16) (s : State) : (doColl x s).settings = s.settings := by simp [doColl]

@[simp] theorem settings_doSend (x : Fin 16) (s : State) : (doSend x s).settings = s.settings := by simp [doSend]

@[simp] theorem settings_doRecv (x : Fin 16) (s : State) : (doRecv x s).settings = s.settings := by simp [doRecv]

@[simp] theorem settings_doShardGather (x : Fin 16) (s : State) : (doShardGather x s).settings = s.settings := by simp [doShardGather]

@[simp] theorem settings_doDataFrame (p : Fin 16) (f : Frame) (s : State) : (doDataFrame p f s).settings = s.settings := by
  unfold doDataFrame
  grind [settings_takeIn, settings_keep, settings_shardTake, settings_gotPoison, settings_progress]

@[simp] theorem settings_doRtsFrame (p : Fin 16) (f : Frame) (s : State) : (doRtsFrame p f s).settings = s.settings := by
  unfold doRtsFrame
  grind [settings_takeIn, settings_matchRts, settings_modFabric, settings_sendCts, settings_progress]

@[simp] theorem settings_doCtsFrame (p : Fin 16) (f : Frame) (s : State) : (doCtsFrame p f s).settings = s.settings := by
  unfold doCtsFrame
  grind [settings_takeIn, settings_fabFail, settings_keep, settings_progress]

@[simp] theorem settings_doRtsRetry (x : Fin 16) (i : Nat) (s : State) : (doRtsRetry x i s).settings = s.settings := by
  unfold doRtsRetry
  split
  · simp
  · split <;> simp

@[simp] theorem settings_doShardRequest (p : Fin 16) (f : Frame) (s : State) :
    (doShardRequest p f s).settings = s.settings := by
  have ht := settings_takeIn s p f
  unfold doShardRequest
  split
  · rfl
  · split
    · rename_i s1 h1
      rw [h1] at ht
      exact ht
    · rename_i s1 h1
      rw [h1] at ht
      split
      · exact ht
      · dsimp only
        split
        · exact (settings_sendCts _ _ _ _ _ _ _).trans ht
        · exact ht

@[simp] theorem settings_addRefs (s : State) (x : Fin 16) (g : Nat) (up : Bool) : (s.addRefs x g up).settings = s.settings := by
  unfold State.addRefs
  split <;> simp

@[simp] theorem settings_doShardServe (i : Nat) (s : State) : (doShardServe i s).settings = s.settings := by
  unfold doShardServe
  dsimp only
  repeat' split
  all_goals simp

@[simp] theorem settings_endServices (s : State) : s.endServices.settings = s.settings := by
  unfold State.endServices
  refine settings_foldl _ (fun s a => ?_) _ _
  split <;> simp

@[simp] theorem settings_resend (s : State) (t : TxFlow) (o : OutFrame) : (s.resend t o).settings = s.settings := by
  unfold State.resend
  grind [settings_transmit, settings_modTx]

@[simp] theorem settings_fastResend (s : State) (t : TxFlow) : (s.fastResend t).settings = s.settings := by
  unfold State.fastResend
  refine settings_foldl _ (fun s a => ?_) _ _
  simp

@[simp] theorem settings_doAckFrame (p : Fin 16) (f : Frame) (s : State) : (doAckFrame p f s).settings = s.settings := by
  unfold doAckFrame
  grind [settings_hear, settings_noteHeard, settings_modTx, settings_pump, settings_fastResend, settings_endServices, settings_settle]

@[simp] theorem settings_failFlow (s : State) (t : TxFlow) : (s.failFlow t).settings = s.settings := by
  simp only [State.failFlow]
  grind [settings_foldl, settings_modTx, settings_modFabric, settings_addRefs, settings_fabFail]

@[simp] theorem settings_doRetxTimeout (peer job channel : Nat) (seq : W32) (s : State) :
    (doRetxTimeout peer job channel seq s).settings = s.settings := by
  unfold doRetxTimeout
  split
  · simp
  · split <;> simp

/-! ## Clock domains -/

@[simp] theorem settings_modClock (s : State) (f : Clock → Clock) (h : (f s.clock).idleUs = s.clock.idleUs ∧
    (f s.clock).source = s.clock.source ∧ (f s.clock).limited = s.clock.limited ∧ (f s.clock).ready = s.clock.ready ∧
    (f s.clock).stage = s.clock.stage) : (s.modClock f).settings = s.settings := by
  simp [State.settings, h]

@[simp] theorem settings_modSource (s : State) (i : Fin 3) (f : Source → Source) : (s.modSource i f).settings = s.settings := rfl

@[simp] theorem settings_markFailed (s : State) (i : Fin 3) : (s.markFailed i).settings = s.settings := rfl

@[simp] theorem settings_portsOut (s : State) : s.portsOut.settings = s.settings := rfl

@[simp] theorem settings_portsTrain (s : State) : s.portsTrain.settings = s.settings := rfl

@[simp] theorem settings_startPause (s : State) : s.startPause.settings = s.settings := rfl

@[simp] theorem settings_clockNmi (s : State) : s.clockNmi.settings = s.settings := by simp [State.clockNmi]

@[simp] theorem settings_doPortInService (p : Fin 16) (s : State) : (doPortInService p s).settings = s.settings := by simp [doPortInService]

@[simp] theorem settings_doOscillatorCalibrate (hz : Nat) (s : State) : (doOscillatorCalibrate hz s).settings = s.settings := by
  simp [doOscillatorCalibrate]

@[simp] theorem settings_doHoldover (s : State) : (doHoldover s).settings = s.settings := by simp [doHoldover]

/-! ## Faults and their handler -/

@[simp] theorem settings_modRing (s : State) (rseq : W32) (g : RingEntry → RingEntry) : (s.modRing rseq g).settings = s.settings := rfl

@[simp] theorem settings_fatalNow (s : State) (e : RingEntry) : (s.fatalNow e).settings = s.settings := by
  unfold State.fatalNow
  split
  · simp
  · split <;> simp

@[simp] theorem settings_loseFault (s : State) (f : FaultRec) : (s.loseFault f).settings = s.settings := by simp [State.loseFault]

@[simp] theorem settings_recordFault (s : State) (f : FaultRec) : (s.recordFault f).settings = s.settings := by
  unfold State.recordFault
  dsimp only
  split
  · simp
  · split <;> simp

@[simp] theorem settings_detectIn (s : State) (core : Option (Fin 4)) (f : FaultRec) : (s.detectIn core f).settings = s.settings := by
  unfold State.detectIn
  split <;> simp

@[simp] theorem settings_unifiedFault (s : State) (a : Nat) (err : Pattern) (reader : Option (Fin 4)) :
    (s.unifiedFault a err reader).settings = s.settings := by
  unfold State.unifiedFault
  dsimp only
  split
  · rfl
  · split
    · split
      · rfl
      next q hq =>
        have hdeep := settings_poisonDeep _ _ hq
        split
        · rfl
        · simp
        · simp
        · split
          · simp
          · exact (settings_detectIn _ _ _).trans ((settings_countDeep _ _ _).trans hdeep)
    · split
      · split <;> simp
      · rfl

@[simp] theorem settings_rowFault (s : State) (c : Fin 4) (row : Nat) (fixed : Bool) :
    (s.rowFault c row fixed).settings = s.settings := by simp [State.rowFault]

@[simp] theorem settings_countParity (s : State) (die : Nat) : (s.countParity die).settings = s.settings := by
  unfold State.countParity
  split_ifs <;> rfl

@[simp] theorem settings_parityUnified (s : State) (a die : Nat) : (s.parityUnified a die).settings = s.settings := by
  unfold State.parityUnified
  dsimp only
  split
  · rfl
  · refine (settings_detectIn _ _ _).trans ?_
    split
    · split
      next q hq => exact (settings_poisonDeep _ _ hq).trans (settings_countParity s die)
      next => exact settings_countParity s die
    · split
      · exact (settings_modStack _ _ _).trans (settings_countParity s die)
      · exact settings_countParity s die

@[simp] theorem settings_reservedError (s : State) (a : Nat) (err : Pattern) : (s.reservedError a err).settings = s.settings := by
  simp [State.reservedError]

@[simp] theorem settings_envFault (s : State) (f : EnvFault) : (s.envFault f).settings = s.settings := by
  cases f with
  | slotSram x i => rfl
  | driftStore p => simp only [State.envFault]; grind [settings_detect, settings_abortMove]
  | scratchpad c row fixed => simp only [State.envFault]; split <;> simp
  | _ => simp [State.envFault]

@[simp] theorem settings_collectFound (s : State) : s.collectFound.settings = s.settings :=
  settings_foldl _ (fun _ _ => (settings_modStack _ _ _).trans (settings_foldl _ (fun _ _ => settings_detect _ _) _ _)) _ _

@[simp] theorem settings_doFaultRecord (f : Option EnvFault) (s : State) : (doFaultRecord f s).settings = s.settings := by
  unfold doFaultRecord
  dsimp only
  repeat' split
  all_goals simp

@[simp] theorem settings_killLatched (s : State) : s.killLatched.settings = s.settings := by
  unfold State.killLatched
  refine settings_foldl _ (fun s a => ?_) _ _
  dsimp only
  simp

@[simp] theorem settings_beginHandling (s : State) (e : RingEntry) : (s.beginHandling e).settings = s.settings := by
  unfold State.beginHandling
  split <;> simp

@[simp] theorem settings_faultEvents (s : State) (e : RingEntry) : (s.faultEvents e).settings = s.settings := by
  unfold State.faultEvents
  split
  · simp
  · split <;> simp

@[simp] theorem settings_reportFault (s : State) (e : RingEntry) : (s.reportFault e).settings = s.settings := by
  unfold State.reportFault
  split <;> simp

@[simp] theorem settings_finishHandling (s : State) (e : RingEntry) : (s.finishHandling e).settings = s.settings := by
  simp [State.finishHandling]

@[simp] theorem settings_doFaultHandle (finish : Bool) (s : State) : (doFaultHandle finish s).settings = s.settings := by
  unfold doFaultHandle
  dsimp only
  repeat' split
  all_goals simp

@[simp] theorem settings_doFaultStatusWrite (v : W32) (s : State) : (doFaultStatusWrite v s).settings = s.settings := rfl

@[simp] theorem settings_endSuspicion (s : State) (a : Fin 8) : (s.endSuspicion a).settings = s.settings := by simp [State.endSuspicion]

@[simp] theorem settings_doMinuteTick (s : State) : (doMinuteTick s).settings = s.settings := by
  simp only [doMinuteTick]
  grind [settings_foldl, settings_endSuspicion, settings_modFaults]

@[simp] theorem settings_modIft (s : State) (c : Fin 4) (f : Ift → Ift) : (s.modIft c f).settings = s.settings := rfl

@[simp] theorem settings_doIftDue (c : Fin 4) (s : State) : (doIftDue c s).settings = s.settings := by simp [doIftDue]

@[simp] theorem settings_doIftRunNow (c : Fin 4) (s : State) : (doIftRunNow c s).settings = s.settings := rfl

@[simp] theorem settings_doIftForce (c : Fin 4) (s : State) : (doIftForce c s).settings = s.settings := by simp [doIftForce]

@[simp] theorem settings_doIftRun (c : Fin 4) (s : State) : (doIftRun c s).settings = s.settings := by
  unfold doIftRun
  dsimp only
  split
  · rfl
  · split
    · exact (settings_rampReqs _ _).trans (by simp)
    · simp

@[simp] theorem settings_iftFail (s : State) (c : Fin 4) (f : IftFail) : (s.iftFail c f).settings = s.settings := by
  unfold State.iftFail
  split <;> simp

@[simp] theorem settings_doIftEnd (c : Fin 4) (fs : List IftFail) (s : State) : (doIftEnd c fs s).settings = s.settings := by
  simp only [doIftEnd]
  grind [settings_foldl, settings_modArr, settings_iftFail, settings_modIft, settings_failSpan]

/-! ## Power -/

@[simp] theorem settings_modPower (s : State) (f : Power → Power) (h : (f s.power).hostCap = s.power.hostCap ∧
    (f s.power).bmcCap = s.power.bmcCap ∧ (f s.power).effCap = s.power.effCap) : (s.modPower f).settings = s.settings := by
  simp [State.settings, h]

@[simp] theorem settings_modRail (s : State) (r : Fin 17) (f : Rail → Rail) : (s.modRail r f).settings = s.settings := rfl

@[simp] theorem settings_setDuties (s : State) : s.setDuties.settings = s.settings := by
  have h := setDuties_rest s
  generalize s.setDuties = u at h ⊢
  rw [h]
  rfl

@[simp] theorem settings_railWindow (s : State) (r : Fin 17) (i lim : Nat) : (s.railWindow r i lim).settings = s.settings := by
  simp [State.railWindow]

@[simp] theorem settings_doBarometerWindow (counts : List (List Nat)) (s : State) :
    (doBarometerWindow counts s).settings = s.settings := by
  simp only [doBarometerWindow]
  grind [settings_foldl, settings_modRail, settings_railWindow, settings_setDuties, settings_modPower]

@[simp] theorem settings_countThrottle (s : State) (a : Fin 8) : (s.countThrottle a).settings = s.settings := rfl

@[simp] theorem settings_doRailMeasurement (r : Fin 17) (i : Nat) (s : State) : (doRailMeasurement r i s).settings = s.settings := by
  simp [doRailMeasurement]

@[simp] theorem settings_doRecalibrationFit (r : Fin 17) (worst : Nat) (s : State) :
    (doRecalibrationFit r worst s).settings = s.settings := by simp [doRecalibrationFit]

@[simp] theorem settings_trip (s : State) (die : Nat) : (s.trip die).settings = s.settings := by
  unfold State.trip
  split
  · rfl
  · exact (settings_recordFault _ _).trans rfl

@[simp] theorem settings_doTemperatureRead (die : Fin 32) (ts : List Nat) (s : State) :
    (doTemperatureRead die ts s).settings = s.settings := by simp [doTemperatureRead]

@[simp] theorem settings_thermalStep (s : State) (c : Fin 4) : (s.thermalStep c).settings = s.settings := by simp [State.thermalStep]

@[simp] theorem settings_doThermalDutyUpdate (s : State) : (doThermalDutyUpdate s).settings = s.settings :=
  (settings_setDuties _).trans (settings_foldl _ settings_thermalStep _ _)

@[simp] theorem settings_doThermalTrip (die : Fin 32) (s : State) : (doThermalTrip die s).settings = s.settings := by simp [doThermalTrip]

@[simp] theorem settings_doRampGrant (s : State) : (doRampGrant s).settings = s.settings := by
  unfold doRampGrant
  dsimp only
  split <;> simp

@[simp] theorem settings_doHintExpire (x : Fin 16) (c : Fin 4) (s : State) : (doHintExpire x c s).settings = s.settings := by
  unfold doHintExpire
  split
  · split <;> simp
  · simp

@[simp] theorem settings_modDomain (s : State) (d : Fin 11) (f : Domain → Domain) : (s.modDomain d f).settings = s.settings := rfl

@[simp] theorem settings_doClockStart (d : Fin 11) (s : State) : (doClockStart d s).settings = s.settings := by simp [doClockStart]

@[simp] theorem settings_doClockStartDone (d : Fin 11) (s : State) : (doClockStartDone d s).settings = s.settings := by
  simp [doClockStartDone]

@[simp] theorem settings_doClockStop (d : Fin 11) (s : State) : (doClockStop d s).settings = s.settings := by simp [doClockStop]

end Sys2Proof.Machine
end

section
/-! PROOFS. Steps that change no setting: roles, security, queries, register blocks, the store (15, 17, 20, 21). -/

namespace Sys2Proof.Machine

open Sys2Proof

/-! ## Records -/

@[simp] theorem settings_doOwnerRecord (x : Fin 16) (i : Fin 8) (s : State) : (doOwnerRecord x i s).settings = s.settings := by
  unfold doOwnerRecord
  split <;> simp

@[simp] theorem settings_doOwnerRelease (x : Fin 16) (i : Fin 8) (s : State) : (doOwnerRelease x i s).settings = s.settings := by
  unfold doOwnerRelease
  split <;> simp

/-! ## Installation roles -/

@[simp] theorem settings_modRoles (s : State) (f : Roles → Roles) : (s.modRoles f).settings = s.settings := rfl

@[simp] theorem settings_applyJobs (s : State) (r : List Byte) : (s.applyJobs r).settings = s.settings := by
  simp only [State.applyJobs]
  grind [settings_foldl, settings_modRoles, settings_fabFail]

@[simp] theorem settings_applyRole (s : State) (r : List Byte) : (s.applyRole r).settings = s.settings := by
  unfold State.applyRole
  split <;> simp

@[simp] theorem settings_doSetRole (x : Fin 16) (i : Fin 8) (s : State) : (doSetRole x i s).settings = s.settings := by
  unfold doSetRole
  split <;> simp

@[simp] theorem settings_sendGroup (s : State) (dst msg : Nat) (body : List Byte) :
    (s.sendGroup dst msg body).settings = s.settings := by simp [State.sendGroup]

@[simp] theorem settings_sendTop (s : State) (dst msg : Nat) (body : List Byte) : (s.sendTop dst msg body).settings = s.settings := by
  simp [State.sendTop]

@[simp] theorem settings_sendHello (s : State) (dst : Nat) : (s.sendHello dst).settings = s.settings := by simp [State.sendHello]

@[simp] theorem settings_modMember (s : State) (node : Nat) (f : Member → Member) : (s.modMember node f).settings = s.settings := rfl

@[simp] theorem settings_notice (s : State) (dst : Nat) (top : Bool) : (s.notice dst top).settings = s.settings := by simp [State.notice]

@[simp] theorem settings_yieldTo (s : State) (msg : Nat) (top : Bool) (c : Ctrl) : (s.yieldTo msg top c).settings = s.settings := by
  simp [State.yieldTo]

@[simp] theorem settings_takeCtrl (s : State) (p : Fin 16) (f : Frame) (msg : Nat) : (s.takeCtrl p f msg).1.settings = s.settings := by
  unfold State.takeCtrl
  grind [settings_receive, settings_discardFrame, settings_notice, settings_yieldTo]

@[simp] theorem settings_updateRestore (s : State) : s.updateRestore.settings = s.settings := by simp [State.updateRestore]

@[simp] theorem settings_noteCkpt (s : State) (owner job step holder : Nat) :
    (s.noteCkpt owner job step holder).settings = s.settings := by
  unfold State.noteCkpt
  split <;> simp

@[simp] theorem settings_ckptHeld (s : State) (r : Run) : (s.ckptHeld r).settings = s.settings := by simp [State.ckptHeld]

@[simp] theorem settings_doCommandEnd (q : QRef) (i charge : Nat) (s : State) : (doCommandEnd q i charge s).settings = s.settings := by
  unfold doCommandEnd
  split
  · split <;> simp
  · simp

@[simp] theorem settings_doManagerReady (s : State) : (doManagerReady s).settings = s.settings := by simp [doManagerReady]

@[simp] theorem settings_doHelloRepeat (s : State) : (doHelloRepeat s).settings = s.settings := by
  unfold doHelloRepeat
  dsimp only
  split <;> simp

@[simp] theorem settings_welcome (s : State) (node : Nat) (index : Option Nat) : (s.welcome node index).settings = s.settings := by
  simp [State.welcome]

@[simp] theorem settings_checkSpares (s : State) (group : Nat) : (s.checkSpares group).settings = s.settings := by
  simp only [State.checkSpares]
  grind [settings_foldl, settings_modRoles, settings_event]

@[simp] theorem settings_ownSpares (s : State) : s.ownSpares.settings = s.settings := by simp [State.ownSpares]

@[simp] theorem settings_firstCaps (s : State) : s.firstCaps.settings = s.settings := by
  simp only [State.firstCaps]
  grind [settings_foldl, settings_modMember, settings_modPower, settings_sendGroup]

@[simp] theorem settings_joinCap (s : State) (node : Nat) : (s.joinCap node).settings = s.settings := by simp [State.joinCap]

@[simp] theorem settings_doHello (p : Fin 16) (f : Frame) (s : State) : (doHello p f s).settings = s.settings := by
  unfold doHello
  grind [settings_takeCtrl, settings_modRoles, settings_welcome, settings_modMember, settings_ownSpares, settings_joinCap]

@[simp] theorem settings_doWelcome (p : Fin 16) (f : Frame) (s : State) : (doWelcome p f s).settings = s.settings := by
  unfold doWelcome
  grind [settings_takeCtrl, settings_modRoles]

@[simp] theorem settings_registerGroup (s : State) (g : GroupReg) : (s.registerGroup g).settings = s.settings := by
  simp [State.registerGroup]

@[simp] theorem settings_sendReady (s : State) : s.sendReady.settings = s.settings := by simp [State.sendReady]

@[simp] theorem settings_fillIndex (s : State) (i : Nat) : (s.fillIndex i).settings = s.settings := by
  unfold State.fillIndex
  split <;> simp

@[simp] theorem settings_doGroupForm (s : State) : (doGroupForm s).settings = s.settings := by
  have form (u : State) (absent : List Nat) (h : u.settings = s.settings) : ((absent.foldl State.fillIndex u).sendReady).settings = s.settings :=
    (settings_sendReady _).trans ((settings_foldl _ settings_fillIndex _ _).trans h)
  unfold doGroupForm
  dsimp only
  split
  · rfl
  · split
    · rfl
    · split
      · exact (settings_firstCaps _).trans (form _ _ (settings_modRoles _ _))
      · exact form _ _ (settings_modRoles _ _)

@[simp] theorem settings_doGroupReady (p : Fin 16) (f : Frame) (s : State) : (doGroupReady p f s).settings = s.settings := by
  unfold doGroupReady
  grind [settings_takeCtrl, settings_registerGroup]

@[simp] theorem settings_installNow (s : State) (body : List Byte) : (s.installNow body).settings = s.settings := by
  simp only [State.installNow]
  grind [settings_foldl, settings_modRoles, settings_firstCaps, settings_sendTop]

@[simp] theorem settings_doInstallReady (p : Fin 16) (f : Frame) (s : State) : (doInstallReady p f s).settings = s.settings := by
  unfold doInstallReady
  grind [settings_takeCtrl, settings_installNow]

@[simp] theorem settings_doRegistrationClose (s : State) : (doRegistrationClose s).settings = s.settings := by
  simp only [doRegistrationClose]
  grind [settings_foldl, settings_modRoles, settings_installNow, settings_sendTop]

@[simp] theorem settings_follow (s : State) (epoch node : Nat) : (s.follow epoch node).settings = s.settings := by simp [State.follow]

@[simp] theorem settings_followTop (s : State) (epoch node : Nat) : (s.followTop epoch node).settings = s.settings := by
  simp [State.followTop]

@[simp] theorem settings_doDeputyTakeCharge (top : Bool) (s : State) : (doDeputyTakeCharge top s).settings = s.settings := by
  simp only [doDeputyTakeCharge]
  grind [settings_foldl, settings_modRoles, settings_sendReady, settings_sendTop, settings_sendGroup]

@[simp] theorem settings_doTakeCharge (p : Fin 16) (f : Frame) (s : State) : (doTakeCharge p f s).settings = s.settings := by
  unfold doTakeCharge
  grind [settings_takeCtrl, settings_follow, settings_followTop, settings_modRoles]

@[simp] theorem settings_doNotice (p : Fin 16) (f : Frame) (s : State) : (doNotice p f s).settings = s.settings := by
  unfold doNotice
  grind [settings_takeCtrl, settings_follow, settings_followTop]

@[simp] theorem settings_doManagerHeartbeatLoss (s : State) : (doManagerHeartbeatLoss s).settings = s.settings := by
  unfold doManagerHeartbeatLoss
  dsimp only
  split <;> simp

@[simp] theorem settings_tellRoster (s : State) (index node job step reason : Nat) :
    (s.tellRoster index node job step reason).settings = s.settings := by
  simp only [State.tellRoster]
  grind [settings_foldl, settings_event, settings_sendGroup]

@[simp] theorem settings_runTakeovers (n : Nat) (s : State) : (State.runTakeovers n s).settings = s.settings := by
  induction n generalizing s with
  | zero => rfl
  | succ n ih =>
    unfold State.runTakeovers
    split
    · rfl
    · split
      · rfl
      · dsimp only
        split
        · exact (ih _).trans ((settings_tellRoster _ _ _ _ _ _).trans (settings_modRoles _ _))
        · exact (settings_sendGroup _ _ _ _).trans (settings_modRoles _ _)

@[simp] theorem settings_failMember (s : State) (node : Nat) : (s.failMember node).settings = s.settings := by
  unfold State.failMember
  split
  · rfl
  · exact (settings_ownSpares _).trans ((settings_runTakeovers _ _).trans ((settings_modRoles _ _).trans (settings_modMember _ _ _)))

@[simp] theorem settings_doMemberFail (node : Nat) (s : State) : (doMemberFail node s).settings = s.settings := by simp [doMemberFail]

@[simp] theorem settings_doTakeover (p : Fin 16) (f : Frame) (shard : Option (List Byte)) (s : State) :
    (doTakeover p f shard s).settings = s.settings := by
  unfold doTakeover
  grind [settings_takeCtrl, settings_sendGroup, settings_modRoles, settings_uwrite]

@[simp] theorem settings_doTakeoverDone (p : Fin 16) (f : Frame) (s : State) : (doTakeoverDone p f s).settings = s.settings := by
  have ht := settings_takeCtrl s p f 0x09
  unfold doTakeoverDone
  split
  next h => rw [h] at ht; exact ht
  next s1 c h =>
    rw [h] at ht
    split
    · exact ht
    · split
      · exact ht
      · refine (settings_ownSpares _).trans ((settings_runTakeovers _ _).trans (Eq.trans ?_ ht))
        dsimp only
        split <;> simp

@[simp] theorem settings_doRosterUpdate (p : Fin 16) (f : Frame) (s : State) : (doRosterUpdate p f s).settings = s.settings := by
  unfold doRosterUpdate
  grind [settings_takeCtrl, settings_event, settings_modRoles]

@[simp] theorem settings_doCkptHeld (p : Fin 16) (f : Frame) (s : State) : (doCkptHeld p f s).settings = s.settings := by
  unfold doCkptHeld
  grind [settings_takeCtrl, settings_noteCkpt]

@[simp] theorem settings_noteBeat (s : State) (node : Nat) (b : List Byte) : (s.noteBeat node b).settings = s.settings := rfl

@[simp] theorem settings_sentBeat (s : State) : s.sentBeat.settings = s.settings := by simp [State.sentBeat]

@[simp] theorem settings_doHeartbeatSend (s : State) : (doHeartbeatSend s).settings = s.settings := by
  simp only [doHeartbeatSend]
  grind [settings_foldl, settings_sentBeat, settings_sendGroup, settings_sendTop, settings_modRoles, settings_sendCtrl]

@[simp] theorem settings_groupBeat (s : State) (c : Ctrl) : (s.groupBeat c).settings = s.settings := by simp [State.groupBeat]

@[simp] theorem settings_memberBeat (s : State) (c : Ctrl) (m : Member) : (s.memberBeat c m).settings = s.settings := by
  simp [State.memberBeat]

@[simp] theorem settings_doHeartbeat (p : Fin 16) (f : Frame) (s : State) : (doHeartbeat p f s).settings = s.settings := by
  unfold doHeartbeat
  grind [settings_takeCtrl, settings_groupBeat, settings_modRoles, settings_memberBeat]

@[simp] theorem settings_doFaultReport (p : Fin 16) (f : Frame) (s : State) : (doFaultReport p f s).settings = s.settings := by
  unfold doFaultReport
  grind [settings_takeCtrl, settings_modMember, settings_sendTop, settings_failMember]

@[simp] theorem settings_noteSlow (s : State) (node : Nat) (v : List Nat) : (s.noteSlow node v).settings = s.settings := by
  unfold State.noteSlow
  dsimp only
  split <;> simp

@[simp] theorem settings_doSlowReport (p : Fin 16) (f : Frame) (s : State) : (doSlowReport p f s).settings = s.settings := by
  unfold doSlowReport
  grind [settings_takeCtrl, settings_noteSlow]

@[simp] theorem settings_writeTable (s : State) : s.writeTable.settings = s.settings := by
  simp only [State.writeTable]
  grind [settings_foldl, settings_uwrite, settings_occasion]

@[simp] theorem settings_doSlowReportSend (s : State) : (doSlowReportSend s).settings = s.settings := by simp [doSlowReportSend]

@[simp] theorem settings_doCapSet (p : Fin 16) (f : Frame) (s : State) : (doCapSet p f s).settings = s.settings := by
  unfold doCapSet
  grind [settings_takeCtrl, settings_modPower, settings_dropWrite]

@[simp] theorem settings_setCap (s : State) (old : Nat) (m : Member) : (s.setCap old m).settings = s.settings := by simp [State.setCap]

@[simp] theorem settings_doCapReview (s : State) : (doCapReview s).settings = s.settings := by
  simp only [doCapReview]
  grind [settings_foldl, settings_setCap, settings_modRoles]

@[simp] theorem settings_doMemberAttestation (node : Nat) (ok : Bool) (s : State) :
    (doMemberAttestation node ok s).settings = s.settings := by simp [doMemberAttestation]

/-! ## Security -/

@[simp] theorem settings_modSec (s : State) (f : Sec → Sec) : (s.modSec f).settings = s.settings := rfl

@[simp] theorem settings_doFwUpdateWrite (x : Fin 16) (i : Fin 8) (s : State) : (doFwUpdateWrite x i s).settings = s.settings := by
  unfold doFwUpdateWrite
  split <;> simp

@[simp] theorem settings_doFwUpdateActivate (x : Fin 16) (i : Fin 8) (s : State) :
    (doFwUpdateActivate x i s).settings = s.settings := by
  unfold doFwUpdateActivate
  split <;> simp

@[simp] theorem settings_doFwUpdateAbandon (x : Fin 16) (i : Fin 8) (s : State) : (doFwUpdateAbandon x i s).settings = s.settings := by
  unfold doFwUpdateAbandon
  split <;> simp

@[simp] theorem settings_finishStored (s : State) (r : StoreRec) : (s.finishStored r).settings = s.settings := by
  unfold State.finishStored
  split <;> simp

@[simp] theorem settings_activateImage (s : State) : s.activateImage.settings = s.settings := by
  unfold State.activateImage
  split <;> simp

@[simp] theorem settings_spdmAnswer (s : State) (m : SpdmMsg) (bs : List Byte) : (s.spdmAnswer m bs).settings = s.settings := by
  simp [State.spdmAnswer]

@[simp] theorem settings_spdmTake (s : State) (r : SpdmReq) : (s.spdmTake r).1.settings = s.settings := by
  unfold State.spdmTake
  grind [settings_receive]

@[simp] theorem settings_spdm (s : State) (r : SpdmReq) (code need : Nat) (f : State → SpdmMsg → State)
    (h : ∀ s m, (f s m).settings = s.settings) : (s.spdm r code need f).settings = s.settings := by
  have ht := settings_spdmTake s r
  unfold State.spdm
  grind [settings_spdmAnswer, settings_modSec]

@[simp] theorem settings_doGetVersion (r : SpdmReq) (s : State) : (doGetVersion r s).settings = s.settings := by simp [doGetVersion]

@[simp] theorem settings_doGetCapabilities (r : SpdmReq) (s : State) : (doGetCapabilities r s).settings = s.settings := by
  simp [doGetCapabilities]

@[simp] theorem settings_doNegotiateAlgorithms (r : SpdmReq) (s : State) : (doNegotiateAlgorithms r s).settings = s.settings := by
  simp [doNegotiateAlgorithms]

@[simp] theorem settings_doGetDigests (r : SpdmReq) (s : State) : (doGetDigests r s).settings = s.settings := by simp [doGetDigests]

@[simp] theorem settings_doGetCertificate (r : SpdmReq) (s : State) : (doGetCertificate r s).settings = s.settings := by
  simp [doGetCertificate]

@[simp] theorem settings_doChallenge (r : SpdmReq) (s : State) : (doChallenge r s).settings = s.settings := by simp [doChallenge]

@[simp] theorem settings_doGetMeasurements (r : SpdmReq) (s : State) : (doGetMeasurements r s).settings = s.settings := by
  simp [doGetMeasurements]

/-! ## Queries -/

@[simp] theorem settings_query (s : State) (x : Fin 16) (i : Fin 8) (sub n : Nat) (bad : Bool) (data : List PByte)
    (after : State → State) (h : (after s).settings = s.settings) : (s.query x i sub n bad data after).settings = s.settings := by
  unfold State.query
  split
  · rfl
  · simp [h]

@[simp] theorem settings_queryRange (s : State) (x : Fin 16) (i : Fin 8) (sub size : Nat) (item : Fin 16 → Nat → List Byte) :
    (s.queryRange x i sub size item).settings = s.settings := by simp [State.queryRange]

@[simp] theorem settings_doQueryContextStatus (x : Fin 16) (i : Fin 8) (s : State) :
    (doQueryContextStatus x i s).settings = s.settings := by simp [doQueryContextStatus]

@[simp] theorem settings_doQueryScaleRecords (x : Fin 16) (i : Fin 8) (s : State) :
    (doQueryScaleRecords x i s).settings = s.settings := by simp [doQueryScaleRecords]

@[simp] theorem settings_doQuerySlots (x : Fin 16) (i : Fin 8) (s : State) : (doQuerySlots x i s).settings = s.settings := by
  simp [doQuerySlots]

@[simp] theorem settings_doQueryTierCounters (x : Fin 16) (i : Fin 8) (s : State) :
    (doQueryTierCounters x i s).settings = s.settings := by simp [doQueryTierCounters]

@[simp] theorem settings_doQueryHomeMap (x : Fin 16) (i : Fin 8) (s : State) : (doQueryHomeMap x i s).settings = s.settings := by
  simp [doQueryHomeMap]

@[simp] theorem settings_doQueryAlmanac (x : Fin 16) (i : Fin 8) (s : State) : (doQueryAlmanac x i s).settings = s.settings := by
  unfold doQueryAlmanac
  grind [settings_query, settings_touchRange]

@[simp] theorem settings_doQueryModule (x : Fin 16) (i : Fin 8) (s : State) : (doQueryModule x i s).settings = s.settings := by
  simp [doQueryModule]

@[simp] theorem settings_doQueryFaultRing (x : Fin 16) (i : Fin 8) (s : State) : (doQueryFaultRing x i s).settings = s.settings := by
  simp only [doQueryFaultRing]
  grind [settings_foldl, settings_query, settings_modRing]

/-! ## Register blocks -/

@[simp] theorem settings_modBlk (s : State) (b : Fin 36) (f : Blk → Blk) : (s.modBlk b f).settings = s.settings := rfl

@[simp] theorem settings_modBoard (s : State) (f : Board → Board) : (s.modBoard f).settings = s.settings := rfl

@[simp] theorem settings_dropHost (s : State) : s.dropHost.settings = s.settings := rfl

@[simp] theorem settings_onEnabled (s : State) (b : Fin 36) : (s.onEnabled b).settings = s.settings := by
  unfold State.onEnabled
  dsimp only
  split <;> simp

@[simp] theorem settings_applyRws (s : State) (b : Fin 36) : (s.applyRws b).settings = s.settings := by
  unfold State.applyRws
  grind [settings_modBlk, settings_coreRws, settings_modStack, settings_modTiers]

@[simp] theorem settings_endCheck (s : State) (b : Fin 36) : (s.endCheck b).settings = s.settings := by simp [State.endCheck]

@[simp] theorem settings_writeBack (s : State) (b : Fin 36) : (s.writeBack b).1.settings = s.settings := by
  unfold State.writeBack
  split <;> simp

@[simp] theorem settings_doEnableCheckDone (b : Fin 36) (s : State) : (doEnableCheckDone b s).settings = s.settings := by
  simp [doEnableCheckDone]

@[simp] theorem settings_doRwsApply (b : Fin 36) (s : State) : (doRwsApply b s).settings = s.settings := by simp [doRwsApply]

@[simp] theorem settings_writeSc (s : State) (n : Fin 12) (run : Bool) (v : Nat) : (s.writeSc n run v).1.settings = s.settings := by
  unfold State.writeSc
  dsimp only
  split <;> simp

@[simp] theorem settings_writeFields (s : State) (b : Fin 36) (v : Nat) : (s.writeFields b v).1.settings = s.settings := by
  unfold State.writeFields
  dsimp only
  repeat' split
  all_goals simp

@[simp] theorem settings_rwsWritten (s : State) (b : Fin 36) : (s.rwsWritten b).settings = s.settings := by simp [State.rwsWritten]

@[simp] theorem settings_writeBxt (s : State) (l : Fin 4) (run : Bool) (v : Nat) : (s.writeBxt l run v).1.settings = s.settings := by
  unfold State.writeBxt
  split <;> simp

@[simp] theorem settings_askModule (s : State) (code : Nat) : (s.askModule code).settings = s.settings := by simp [State.askModule]

@[simp] theorem settings_askHub (s : State) : s.askHub.settings = s.settings := by simp [State.askHub]

@[simp] theorem settings_doResetCtrlWrite (v : W32) (s : State) : (doResetCtrlWrite v s).settings = s.settings := by simp [doResetCtrlWrite]

@[simp] theorem settings_readWindow (s : State) (w off n : Nat) : (s.readWindow w off n).settings = s.settings := by
  unfold State.readWindow
  split <;> simp

@[simp] theorem settings_doCounterLowHalfRead (x : Fin 16) (bar n : Nat) (s : State) :
    (doCounterLowHalfRead x bar n s).settings = s.settings := by
  unfold doCounterLowHalfRead
  repeat' split
  all_goals simp

@[simp] theorem settings_doI3cAddressAssignment (static : Option Nat) (addr : Nat) (s : State) :
    (doI3cAddressAssignment static addr s).settings = s.settings := by simp [doI3cAddressAssignment]

@[simp] theorem settings_writeBmcReset (s : State) (v : W32) : (s.writeBmcReset v).settings = s.settings := by
  unfold State.writeBmcReset
  split <;> simp

@[simp] theorem settings_doBmcModuleReset (v : W32) (s : State) : (doBmcModuleReset v s).settings = s.settings := by simp [doBmcModuleReset]

@[simp] theorem settings_doBmcHubReset (v : W32) (s : State) : (doBmcHubReset v s).settings = s.settings := by simp [doBmcHubReset]

@[simp] theorem settings_doI3cPrivateRead (words : Nat) (s : State) : (doI3cPrivateRead words s).settings = s.settings := by
  simp [doI3cPrivateRead]

@[simp] theorem settings_trainLink (s : State) : s.trainLink.settings = s.settings := rfl

@[simp] theorem settings_doJtagInstruction (j : JtagOp) (s : State) : (doJtagInstruction j s).settings = s.settings := by
  unfold doJtagInstruction
  dsimp only
  split <;> simp

/-! ## The module store -/

@[simp] theorem settings_keepHist (s : State) (bs : List Byte) : (s.keepHist bs).settings = s.settings := by simp [State.keepHist]

@[simp] theorem settings_storeOne (s : State) (r : StoreRec) : (s.storeOne r).settings = s.settings := by
  unfold State.storeOne
  split <;> simp

@[simp] theorem settings_doStoreBatch (vMv : Nat) (s : State) : (doStoreBatch vMv s).settings = s.settings := by simp [doStoreBatch]

@[simp] theorem settings_doStoreBatchDone (s : State) : (doStoreBatchDone s).settings = s.settings := by
  simp only [doStoreBatchDone]
  grind [settings_foldl, settings_finishStored, settings_storeOne, settings_modFaults, settings_modBoard]

@[simp] theorem settings_doHoldupLow (s : State) : (doHoldupLow s).settings = s.settings := by
  unfold doHoldupLow
  split <;> simp

@[simp] theorem settings_measureBank (s : State) (dv : Nat) : (s.measureBank dv).settings = s.settings := rfl

@[simp] theorem settings_doCapacitanceMeasure (dv : Nat) (s : State) : (doCapacitanceMeasure dv s).settings = s.settings := by
  simp [doCapacitanceMeasure]

end Sys2Proof.Machine
end

section
/-! PROOFS. Steps that change no setting: resets, the start, the environment (13, 19). -/

namespace Sys2Proof.Machine

open Sys2Proof

/-! ## Resets -/

@[simp] theorem settings_doModResetN (low : Bool) (s : State) : (doModResetN low s).settings = s.settings := by simp [doModResetN]

/-- A change of the hub changes no setting. -/
theorem settings_withHub (s : State) (h : Hub) : ({ s with hub := h } : State).settings = s.settings := rfl

@[simp] theorem settings_hubWiped (s : State) : s.hubWiped.settings = s.settings := by
  have wiped := (settings_foldl (fun s x => (s.wipeCtx x).resetFunction x)
    (fun s x => (settings_resetFunction (s.wipeCtx x) x).trans (settings_wipeCtx s x)) (List.finRange 16) s.flushAll).trans (settings_flushAll s)
  unfold State.hubWiped
  generalize (List.finRange 16).foldl (fun s x => (s.wipeCtx x).resetFunction x) s.flushAll = u at wiped ⊢
  simp [wiped, settings_withHub]

@[simp] theorem settings_pcieReset (s : State) : s.pcieReset.settings = s.settings := by
  have reset := settings_doFunctionLevelReset 0 s
  unfold State.pcieReset
  generalize doFunctionLevelReset 0 s = u at reset ⊢
  simp [reset]

@[simp] theorem settings_doPerstN (low : Bool) (s : State) : (doPerstN low s).settings = s.settings := by simp [doPerstN]

@[simp] theorem settings_doHotReset (s : State) : (doHotReset s).settings = s.settings := by simp [doHotReset]

@[simp] theorem settings_doModPwrEnAssert (bankMv : Nat) (s : State) : (doModPwrEnAssert bankMv s).settings = s.settings := by
  simp [doModPwrEnAssert]

@[simp] theorem settings_doVinReturn (mv : Nat) (s : State) : (doVinReturn mv s).settings = s.settings := by simp [doVinReturn]

/-! ## The start -/

@[simp] theorem settings_stopStart (s : State) (reason : Nat) : (s.stopStart reason).settings = s.settings := rfl

@[simp] theorem settings_startEvent (s : State) (reason : Nat) : (s.startEvent reason).settings = s.settings := rfl

@[simp] theorem settings_loadMaps (s : State) (lanes hbm : List Byte) : (s.loadMaps lanes hbm).settings = s.settings := rfl

@[simp] theorem settings_loadRole (s : State) : s.loadRole.settings = s.settings := by
  unfold State.loadRole
  split <;> simp

@[simp] theorem settings_firmwareEnable (s : State) (i : Nat) : (s.firmwareEnable i).settings = s.settings := by simp [State.firmwareEnable]

@[simp] theorem settings_trainStack (s : State) (n : Fin 12) (lanes : List (Fin 16 × Option (Fin 2) × Nat)) :
    (s.trainStack n lanes).1.settings = s.settings := by
  unfold State.trainStack
  dsimp only
  split <;> simp

@[simp] theorem settings_repairArray (s : State) (a : Fin 8) : (s.repairArray a).settings = s.settings := by
  simp only [State.repairArray]
  grind [settings_foldl, settings_doArrayDegrade, settings_doLaneRemap]

@[simp] theorem settings_placeCore (s : State) (c : Fin 4) : (s.placeCore c).settings = s.settings := rfl

@[simp] theorem settings_doStartStageTimeout (s : State) : (doStartStageTimeout s).settings = s.settings := by simp [doStartStageTimeout]

/-! ## The environment -/

@[simp] theorem settings_ageWcb (s : State) : s.ageWcb.settings = s.settings := rfl

@[simp] theorem settings_countBanks (s : State) (c : Fin 4) : (s.countBanks c).settings = s.settings := by
  unfold State.countBanks
  split <;> simp

@[simp] theorem settings_countLanes (s : State) (n : Fin 12) : (s.countLanes n).settings = s.settings := by simp [State.countLanes]

@[simp] theorem settings_countFixes (s : State) (n : Fin 12) : (s.countFixes n).settings = s.settings := by
  unfold State.countFixes
  refine settings_foldl _ (fun s a => ?_) _ _
  simp

/-- The clock of a fast pilot cycle, before what it ages. -/
theorem settings_fastClock (s : State) : ({ s with
    arrayTime := s.arrayTime + s.cyclesPerPilot, cores := Vector.ofFn s.tickCore
    hub := { s.hub with ctxs := Vector.ofFn (fun x => s.countRuns (s.tickCtx x)) } } : State).settings = s.settings := rfl

@[simp] theorem settings_tickFast (s : State) : s.tickFast.settings = s.settings := by
  unfold State.tickFast
  dsimp only
  rw [settings_tickFabric, settings_foldl _ settings_countLanes, settings_foldl _ settings_countBanks, settings_ageWcb, settings_fastClock]

@[simp] theorem settings_tickPower (s : State) : s.tickPower.settings = s.settings := rfl

@[simp] theorem settings_tickInput (s : State) : s.tickInput.settings = s.settings := by
  unfold State.tickInput
  split <;> rfl

@[simp] theorem settings_doTick (s : State) : (doTick s).settings = s.settings := by
  have clock : ({ s with pilot := s.pilot + 1 } : State).settings = s.settings := rfl
  have work (t : State) (h : t.settings = s.settings) : ((List.finRange 12).foldl State.countFixes t.tickPower).tickInput.settings = s.settings := by
    rw [settings_tickInput, settings_foldl _ settings_countFixes, settings_tickPower, h]
  unfold doTick
  dsimp only
  generalize ({ s with pilot := s.pilot + 1 } : State) = t at clock ⊢
  split
  · exact clock
  · split
    · exact work _ ((settings_tickFast t).trans clock)
    · exact work _ clock

/-! ## Array commands -/

@[simp] theorem settings_doLookaheadLoad (c : Fin 4) (s : State) : (doLookaheadLoad c s).settings = s.settings := by
  unfold doLookaheadLoad
  split <;> simp

@[simp] theorem settings_doBankLoadDone (a : Fin 8) (s : State) : (doBankLoadDone a s).settings = s.settings := by
  unfold doBankLoadDone
  dsimp only
  split
  · simp
  · split <;> simp

@[simp] theorem settings_doBankSwap (a : Fin 8) (s : State) : (doBankSwap a s).settings = s.settings := by simp [doBankSwap]

@[simp] theorem settings_doArrayCold (a : Fin 8) (s : State) : (doArrayCold a s).settings = s.settings := by simp [doArrayCold]

/-! ## Control commands -/

@[simp] theorem settings_control (s : State) (x : Fin 16) (p : Pkt) (reason : Nat) (f : State → State)
    (h : (f s).settings = s.settings) : (s.control x p reason f).settings = s.settings := by
  unfold State.control
  split <;> simp [h]

@[simp] theorem settings_postStartEvents (s : State) : s.postStartEvents.settings = s.settings := by
  unfold State.postStartEvents
  refine settings_foldl _ (fun s a => ?_) _ _
  simp

@[simp] theorem settings_doCreate (x : Fin 16) (i : Fin 8) (s : State) : (doCreate x i s).settings = s.settings := by
  unfold doCreate
  split <;> simp

@[simp] theorem settings_doDestroy (x : Fin 16) (i : Fin 8) (s : State) : (doDestroy x i s).settings = s.settings := by
  unfold doDestroy
  split <;> simp

@[simp] theorem settings_doSetQuota (x : Fin 16) (i : Fin 8) (s : State) : (doSetQuota x i s).settings = s.settings := by
  unfold doSetQuota
  split <;> simp

@[simp] theorem settings_doSetWindow (x : Fin 16) (i : Fin 8) (s : State) : (doSetWindow x i s).settings = s.settings := by
  unfold doSetWindow
  split <;> simp

@[simp] theorem settings_doSetAreas (x : Fin 16) (i : Fin 8) (s : State) : (doSetAreas x i s).settings = s.settings := by
  unfold doSetAreas
  split <;> simp

@[simp] theorem settings_doAreasApply (c : Fin 4) (s : State) : (doAreasApply c s).settings = s.settings := by
  unfold doAreasApply
  dsimp only
  repeat' split
  all_goals simp

@[simp] theorem settings_doSetSched (x : Fin 16) (i : Fin 8) (s : State) : (doSetSched x i s).settings = s.settings := by
  simp only [doSetSched]
  grind [settings_foldl, settings_control, settings_modCC]

@[simp] theorem settings_touchScale (s : State) (x : Fin 16) (p : Pkt) : (s.touchScale x p).settings = s.settings := by
  simp [State.touchScale]

@[simp] theorem settings_doLoadScale (x : Fin 16) (i : Fin 8) (s : State) : (doLoadScale x i s).settings = s.settings := by
  unfold doLoadScale
  split <;> simp

@[simp] theorem settings_doLoadScaleApply (x : Fin 16) (i : Fin 8) (s : State) : (doLoadScaleApply x i s).settings = s.settings := by
  simp only [doLoadScaleApply]
  grind [settings_foldl, settings_control, settings_modCtx, settings_setScaleRec]

@[simp] theorem settings_doLoadSlots (x : Fin 16) (i : Fin 8) (s : State) : (doLoadSlots x i s).settings = s.settings := by
  unfold doLoadSlots
  split <;> simp

@[simp] theorem settings_doSlotTableApply (x : Fin 16) (i : Fin 8) (s : State) : (doSlotTableApply x i s).settings = s.settings := by
  unfold doSlotTableApply
  split <;> simp

@[simp] theorem settings_touchAlmanac (s : State) (x : Fin 16) (p : Pkt) : (s.touchAlmanac x p).settings = s.settings := by
  simp [State.touchAlmanac]

@[simp] theorem settings_doLoadAlmanac (x : Fin 16) (i : Fin 8) (s : State) : (doLoadAlmanac x i s).settings = s.settings := by
  unfold doLoadAlmanac
  split <;> simp

@[simp] theorem settings_doAlmanacApply (x : Fin 16) (i : Fin 8) (s : State) : (doAlmanacApply x i s).settings = s.settings := by
  simp only [doAlmanacApply]
  grind [settings_foldl, settings_control, settings_modCtx, settings_uwrite]

@[simp] theorem settings_doMap (x : Fin 16) (i : Fin 8) (s : State) : (doMap x i s).settings = s.settings := by
  simp only [doMap]
  grind [settings_foldl, settings_control, settings_mapPage]

@[simp] theorem settings_unmapNow (s : State) (x : Fin 16) (p : Pkt) : (s.unmapNow x p).settings = s.settings := by
  simp only [State.unmapNow]
  grind [settings_foldl, settings_refusePacket, settings_acceptPacket, settings_donePacket, settings_freePage]

@[simp] theorem settings_doUnmap (x : Fin 16) (i : Fin 8) (s : State) : (doUnmap x i s).settings = s.settings := by
  unfold doUnmap
  split <;> simp

end Sys2Proof.Machine
end

section
/-! PROOFS. Steps that change a setting (10, 18, 19). -/

namespace Sys2Proof.Machine

open Sys2Proof

/-! # Steps that change a setting (10, R251; 18, R445, R447; 19, R460 to R467, R470 to R475) -/

/-! ## Legal settings -/

theorem legal_iff (k : Settings) : k.legal = true ↔ (1600 ≤ k.hostCap ∧ k.hostCap ≤ 3200) ∧ (1600 ≤ k.bmcCap ∧ k.bmcCap ≤ 3200) ∧
    k.effCap ≤ 3200 ∧ (k.idleUs = 0 ∨ (10 ≤ k.idleUs ∧ k.idleUs ≤ 1000)) ∧ k.spreadGib ≤ 70 ∧ k.limited = (k.source == 2) ∧
    (k.ready = true → k.stage = 9) := by
  cases hr : k.ready <;> simp [Settings.legal, hr, and_assoc]

/-- A step after which legal settings are legal. -/
def KeepsLegal (s t : State) : Prop := s.settings.legal = true → t.settings.legal = true

theorem KeepsLegal.refl (s : State) : KeepsLegal s s := id

theorem KeepsLegal.trans {s t u : State} (h : KeepsLegal s t) (k : KeepsLegal t u) : KeepsLegal s u := fun hs => k (h hs)

theorem keepsLegal_of_settings {s t : State} (h : t.settings = s.settings) : KeepsLegal s t := fun hs => by rw [h]; exact hs

/-- The source of the reference clock alone changes, and LIMITED with it. -/
theorem keepsLegal_source {s t : State} {i : Fin 3} (h : t.settings = { s.settings with source := i, limited := i == 2 }) :
    KeepsLegal s t := by
  intro hs
  obtain ⟨h1, h2, h3, h4, h5, -, h7⟩ := (legal_iff _).1 hs
  rw [h]
  exact (legal_iff _).2 ⟨h1, h2, h3, h4, h5, rfl, h7⟩

/-- A device that is not ready may be in any stage. -/
theorem keepsLegal_stage {s t : State} {n : Nat} (h : t.settings = { s.settings with stage := n }) (hr : s.clock.ready = false) :
    KeepsLegal s t := by
  intro hs
  obtain ⟨h1, h2, h3, h4, h5, h6, -⟩ := (legal_iff _).1 hs
  rw [h]
  exact (legal_iff _).2 ⟨h1, h2, h3, h4, h5, h6, fun h7 => by cases hr.symm.trans h7⟩

/-! ## Reference clocks (19, R460 to R467) -/

theorem keepsLegal_switchTo (s : State) (i : Fin 3) : KeepsLegal s (s.switchTo i) := by
  unfold State.switchTo
  split
  · exact KeepsLegal.refl s
  · split
    · exact keepsLegal_of_settings rfl
    · refine keepsLegal_source (i := i) ?_
      dsimp only
      split
      · split <;> rfl
      · split <;> rfl

theorem keepsLegal_reselect (s : State) : KeepsLegal s s.reselect := keepsLegal_switchTo s _

theorem keepsLegal_sourcesFail (s : State) (is : List (Fin 3)) : KeepsLegal s (s.sourcesFail is) := by
  have failed : KeepsLegal s (is.foldl State.markFailed s) := keepsLegal_of_settings (settings_foldl _ settings_markFailed is s)
  unfold State.sourcesFail
  dsimp only
  split
  · exact (failed.trans (keepsLegal_reselect _)).trans (keepsLegal_of_settings (settings_clockNmi _))
  · exact failed

theorem keepsLegal_afterPorts (before s : State) : KeepsLegal s (State.afterPorts before s) := by
  unfold State.afterPorts
  split
  · exact keepsLegal_sourcesFail s _
  · exact KeepsLegal.refl s

theorem keepsLegal_doPortAlignmentLoss (p : Fin 16) (lane : Option (Fin 4)) (s : State) : KeepsLegal s (doPortAlignmentLoss p lane s) := by
  unfold doPortAlignmentLoss
  dsimp only
  split
  · exact KeepsLegal.refl s
  · refine KeepsLegal.trans (keepsLegal_of_settings ?_) (keepsLegal_afterPorts s _)
    split
    · exact (settings_transient _ _ _ _ _).trans (settings_modPort _ _ _)
    · exact settings_modPort _ _ _

theorem keepsLegal_doLaneSymbolErrorRatio (die : Fin 4) (lane : Fin 16) (s : State) : KeepsLegal s (doLaneSymbolErrorRatio die lane s) :=
  (keepsLegal_of_settings (settings_transient s _ _ _ _)).trans (keepsLegal_afterPorts s _)

theorem keepsLegal_sourceReturns (s : State) (i : Fin 3) : KeepsLegal s (s.sourceReturns i) := by
  unfold State.sourceReturns
  dsimp only
  split
  · refine KeepsLegal.trans (t := (s.modSource i (fun q => { q with failed := false })).modClock (fun k => { k with
      lanePending := k.lanePending && i != 0 })) (keepsLegal_of_settings rfl) ?_
    split
    · exact (keepsLegal_reselect _).trans (keepsLegal_of_settings (settings_event _ _ _ _))
    · exact KeepsLegal.refl _
  · exact KeepsLegal.refl s

theorem keepsLegal_laneTaken (s : State) : KeepsLegal s s.laneTaken := by
  unfold State.laneTaken
  split
  · exact KeepsLegal.trans (t := s.modClock (fun k => { k with lanePending := false })) (keepsLegal_of_settings rfl) (keepsLegal_reselect _)
  · exact KeepsLegal.refl s

theorem keepsLegal_doMonitorWindow (rec xtal : Option Nat) (s : State) : KeepsLegal s (doMonitorWindow rec xtal s) := by
  have judged (t : State) (is : List (Fin 3)) (h : t.settings = s.settings) :
      KeepsLegal s ((((t.sourcesFail is).sourceReturns 0).sourceReturns 1).laneTaken) :=
    ((((keepsLegal_of_settings h).trans (keepsLegal_sourcesFail t is)).trans (keepsLegal_sourceReturns _ 0)).trans
      (keepsLegal_sourceReturns _ 1)).trans (keepsLegal_laneTaken _)
  have counted (t : State) (i : Fin 3) (g : Bool) : (if g && t.clock.source == i then (t.modSource i (·.window g)).modClock (fun k => { k with
      holdover := false }) else t.modSource i (·.window g)).settings = t.settings := by
    split <;> rfl
  unfold doMonitorWindow
  refine judged _ _ ?_
  dsimp only
  generalize (if s.clock.xtalPassed then xtal.map (inRange 1) else none) = x
  generalize (if s.recEnabled then rec.map (inRange 0) else none) = r0
  generalize (if x = some false ∧ r0 = some false ∧ !s.clock.sources[1].failed then none else r0) = r
  rcases r with _ | g
  · rcases x with _ | h
    · rfl
    · exact counted s 1 h
  · rcases x with _ | h
    · exact counted s 0 g
    · exact (counted _ 1 h).trans (counted s 0 g)

theorem keepsLegal_doSwitchPauseEnd (s : State) : KeepsLegal s (doSwitchPauseEnd s) := by
  unfold doSwitchPauseEnd
  split
  · exact KeepsLegal.refl s
  · dsimp only
    have resumed : KeepsLegal s (if s.clock.source = 2 then s.modClock (fun k => { k with pauseFrom := none, owedSwitch := false })
        else (s.modClock (fun k => { k with pauseFrom := none, owedSwitch := false })).portsTrain) :=
      keepsLegal_of_settings (by split <;> rfl)
    refine KeepsLegal.trans ?_ (keepsLegal_of_settings (settings_pumpAll _))
    split
    · exact resumed.trans (keepsLegal_reselect _)
    · exact resumed

/-- IDLE_US and the fields of the recovered clock. -/
theorem keepsLegal_idle {s t : State} {n : Nat} (h : t.settings = { s.settings with idleUs := n }) (hn : idleOk n = true) : KeepsLegal s t := by
  intro hs
  obtain ⟨h1, h2, h3, -, h5, h6, h7⟩ := (legal_iff _).1 hs
  rw [h]
  exact (legal_iff _).2 ⟨h1, h2, h3, by simpa [idleOk] using hn, h5, h6, h7⟩

theorem keepsLegal_doClkCtrlWrite (v : W32) (s : State) : KeepsLegal s (doClkCtrlWrite v s) := by
  have fields (returnEn linkRefEn pending : Bool) (lane idle : Nat) : KeepsLegal s (s.modClock (fun k => { k with
      returnEn := returnEn, linkRefEn := linkRefEn, refLane := lane, idleUs := if idleOk idle then idle else k.idleUs
      lanePending := k.lanePending || pending })) := by
    cases h : idleOk idle with
    | true => exact keepsLegal_idle rfl h
    | false => exact keepsLegal_of_settings rfl
  have cleared (t : State) (c : Bool) : KeepsLegal t (if c then t.modSource 0 (fun q => { q with failRun := 0, goodRun := 0 }) else t) :=
    keepsLegal_of_settings (by split <;> rfl)
  have left (t : State) (c : Bool) : KeepsLegal t (if c then t.reselect else t) := by
    split
    · exact keepsLegal_reselect t
    · exact KeepsLegal.refl t
  have counted (t : State) (c : Bool) : KeepsLegal t (if c then t else t.dropWrite 1) := keepsLegal_of_settings (by split <;> rfl)
  exact (((fields _ _ _ _ _).trans (cleared _ _)).trans (left _ _)).trans (counted _ _)

/-! ## Caps and the spread (10, R251; 18, R445, R447) -/

theorem keepsLegal_doPwrCapWrite (v : W32) (s : State) : KeepsLegal s (doPwrCapWrite v s) := by
  unfold doPwrCapWrite
  dsimp only
  split
  next hw =>
    intro hs
    obtain ⟨-, h2, h3, h4, h5, h6, h7⟩ := (legal_iff _).1 hs
    have hc : 1600 ≤ bits v.toNat 11 0 ∧ bits v.toNat 11 0 ≤ 3200 := by simpa [capOk] using hw
    exact (legal_iff _).2 ⟨hc, h2, h3, h4, h5, h6, h7⟩
  next => exact keepsLegal_of_settings rfl

theorem keepsLegal_doBmcCapWrite (v : W32) (s : State) : KeepsLegal s (doBmcCapWrite v s) := by
  unfold doBmcCapWrite
  dsimp only
  split
  next hw =>
    intro hs
    obtain ⟨h1, -, h3, h4, h5, h6, h7⟩ := (legal_iff _).1 hs
    have hc : 1600 ≤ bits v.toNat 11 0 ∧ bits v.toNat 11 0 ≤ 3200 := by simpa [capOk] using hw
    exact (legal_iff _).2 ⟨h1, hc, h3, h4, h5, h6, h7⟩
  next => exact keepsLegal_of_settings rfl

/-- The settings after a period: the lowest cap is in force. -/
theorem settings_periodSet (s : State) : s.periodSet.settings =
    { s.settings with effCap := min s.power.hostCap (min s.power.mgrCap s.power.bmcCap) } := by
  have h := settings_foldl State.countThrottle settings_countThrottle (List.finRange 8) s
  unfold State.periodSet
  generalize (List.finRange 8).foldl State.countThrottle s = u at h ⊢
  simp only [State.settings, Settings.mk.injEq] at h ⊢
  obtain ⟨h1, h2, -, h4, h5, h6, h7, h8, h9⟩ := h
  exact ⟨h1, h2, rfl, h4, h5, h6, h7, h8, h9⟩

theorem keepsLegal_doBarometerPeriod (s : State) : KeepsLegal s (doBarometerPeriod s) := by
  by_cases hw : s.power.windows < 2
  · have h : doBarometerPeriod s = s := if_pos hw
    rw [h]
    exact KeepsLegal.refl s
  · have set : KeepsLegal s s.periodSet := by
      intro hs
      obtain ⟨h1, h2, h3, h4, h5, h6, h7⟩ := (legal_iff _).1 hs
      rw [settings_periodSet]
      exact (legal_iff _).2 ⟨h1, h2, (Nat.min_le_left _ _).trans h1.2, h4, h5, h6, h7⟩
    have posted : KeepsLegal s.periodSet s.periodPosted := keepsLegal_of_settings (by
      unfold State.periodPosted
      split
      · exact settings_event _ _ _ _
      · rfl)
    rw [doBarometerPeriod_eq (Nat.not_lt.1 hw)]
    exact (set.trans posted).trans (keepsLegal_of_settings ((settings_setDuties _).trans
      (settings_foldl _ (fun _ _ => settings_unitEvent _ _ _) _ _)))

theorem keepsLegal_doSetSpread (x : Fin 16) (i : Fin 8) (s : State) : KeepsLegal s (doSetSpread x i s) := by
  unfold doSetSpread
  split
  · exact KeepsLegal.refl s
  next p _ =>
    dsimp only
    unfold State.control
    split
    · exact keepsLegal_of_settings (settings_refusePacket _ _ _ _ _)
    next hr =>
      have hv : byteAt p.hdr 0x18 ≤ 70 := by
        by_contra hc
        simp [firstReason, Nat.lt_of_not_le hc] at hr
      refine KeepsLegal.trans ?_ (keepsLegal_of_settings (settings_donePacket _ _ _))
      intro hs
      obtain ⟨h1, h2, h3, h4, -, h6, h7⟩ := (legal_iff _).1 hs
      exact (legal_iff _).2 ⟨h1, h2, h3, h4, hv, h6, h7⟩

/-! ## Blocks and registers (00, R12; 21) -/

theorem keepsLegal_onDisabled (s : State) (b : Fin 36) : KeepsLegal s (s.onDisabled b) := by
  unfold State.onDisabled
  rcases blockId b with ⟨kind, n⟩
  dsimp only
  split
  · exact keepsLegal_of_settings (settings_modArr _ _ _)
  · exact (keepsLegal_of_settings (settings_modLink _ _ _)).trans (keepsLegal_afterPorts s _)
  · exact KeepsLegal.refl s

theorem keepsLegal_writeEnable (s : State) (b : Fin 36) (e host : Bool) : KeepsLegal s (s.writeEnable b e host).1 := by
  unfold State.writeEnable
  dsimp only
  split
  · exact KeepsLegal.refl s
  · split
    · exact keepsLegal_of_settings (settings_dropHost s)
    · split
      · exact keepsLegal_of_settings (settings_modBlk _ _ _)
      · split
        · exact KeepsLegal.refl s
        · have applied : KeepsLegal s ((s.modBlk b (fun k => { k with enable := false, enabled := false, checking := false })).applyRws b) :=
            keepsLegal_of_settings ((settings_applyRws _ b).trans (settings_modBlk s b _))
          dsimp only
          split
          · exact applied.trans (keepsLegal_onDisabled _ b)
          · exact applied

theorem keepsLegal_enableOnly (s : State) (b : Fin 36) (e host : Bool) : KeepsLegal s (s.enableOnly b e host) := by
  have back : KeepsLegal s (s.writeBack b).1 := keepsLegal_of_settings (settings_writeBack s b)
  have written := back.trans (keepsLegal_writeEnable (s.writeBack b).1 b e host)
  unfold State.enableOnly
  dsimp only
  split
  · exact written.trans (keepsLegal_of_settings (settings_dropWrite _ _))
  · exact written

theorem keepsLegal_doBlockEnable (b : Fin 36) (host : Bool) (s : State) : KeepsLegal s (doBlockEnable b host s) := by
  unfold doBlockEnable
  split
  · exact keepsLegal_enableOnly s b true host
  · exact KeepsLegal.refl s

theorem keepsLegal_doBlockDisable (b : Fin 36) (host : Bool) (s : State) : KeepsLegal s (doBlockDisable b host s) := by
  unfold doBlockDisable
  split
  · exact keepsLegal_enableOnly s b false host
  · exact KeepsLegal.refl s

theorem keepsLegal_writeBlock (s : State) (b : Fin 36) (ctrl bxt : Option Nat) : KeepsLegal s (s.writeBlock b ctrl bxt) := by
  have fields : ∀ c : Option Nat, KeepsLegal s (match c with | some v => s.writeFields b v | none => (s, false, false)).1 := by
    rintro (_ | v)
    · exact KeepsLegal.refl s
    · exact keepsLegal_of_settings (settings_writeFields s b v)
  have extra (t : State) (run : Bool) : KeepsLegal t (match bxt with | some v => t.writeBxt (ix 4 (blockId b).2) run v | none => (t, false)).1 := by
    cases bxt with
    | none => exact KeepsLegal.refl t
    | some v => exact keepsLegal_of_settings (settings_writeBxt t _ run v)
  have pending (t : State) (rws : Bool) : KeepsLegal t (if rws then t.rwsWritten b else t) := by
    split
    · exact keepsLegal_of_settings (settings_rwsWritten t b)
    · exact KeepsLegal.refl t
  have enabled (t : State) : KeepsLegal t (match ctrl with | some v => t.writeEnable b (bit v 0) true | none => (t, false)).1 := by
    cases ctrl with
    | none => exact KeepsLegal.refl t
    | some v => exact keepsLegal_writeEnable t b _ true
  have counted (t : State) (c : Bool) : KeepsLegal t (if c then t.dropWrite b.val else t) := keepsLegal_of_settings (by split <;> rfl)
  unfold State.writeBlock
  exact ((((fields ctrl).trans (extra _ _)).trans (pending _ _)).trans (enabled _)).trans (counted _ _)

theorem keepsLegal_writeModule (s : State) (off : Nat) (v : W32) : KeepsLegal s (s.writeModule off v) := by
  unfold State.writeModule
  split
  · exact keepsLegal_of_settings (settings_doFaultStatusWrite v s)
  · split
    · exact keepsLegal_doPwrCapWrite v s
    · split
      · exact keepsLegal_doClkCtrlWrite v s
      · split
        · exact keepsLegal_of_settings (settings_doResetCtrlWrite v s)
        · exact KeepsLegal.refl s

theorem keepsLegal_doRegisterWrite (bar : Nat) (bs : List Byte) (s : State) : KeepsLegal s (doRegisterWrite bar bs s) := by
  have words (ws : List W32) : KeepsLegal s (s.writeWords bar ws) := by
    unfold State.writeWords
    split
    · exact KeepsLegal.refl s
    next w off _ =>
      have module := frame_foldl KeepsLegal.refl KeepsLegal.trans (fun (t : State) (v : W32 × Nat) => t.writeModule (off + 4 * v.2) v.1)
        ws.zipIdx (fun t v _ => keepsLegal_writeModule t (off + 4 * v.2) v.1) s
      dsimp only
      split
      · exact module
      · exact keepsLegal_writeBlock s _ _ _
  unfold doRegisterWrite
  split
  · exact KeepsLegal.refl s
  · split
    · exact words _
    · exact keepsLegal_of_settings (settings_dropHost s)

theorem keepsLegal_i3cStore (s : State) (off : Nat) (v : W32) : KeepsLegal s (s.i3cStore off v) := by
  unfold State.i3cStore
  split
  · exact keepsLegal_of_settings (settings_doFaultStatusWrite v s)
  · split
    · exact keepsLegal_doBmcCapWrite v s
    · split
      · exact keepsLegal_of_settings (settings_writeBmcReset s v)
      · exact KeepsLegal.refl s

theorem keepsLegal_doI3cPrivateWrite (bs : List Byte) (s : State) : KeepsLegal s (doI3cPrivateWrite bs s) := by
  have at' : KeepsLegal s (s.modBoard (fun k => { k with i3cOffset := fld bs 0 4 })) := keepsLegal_of_settings (settings_modBoard s _)
  unfold doI3cPrivateWrite
  split
  · exact KeepsLegal.refl s
  · split
    · exact keepsLegal_of_settings (settings_dropHost s)
    · dsimp only
      split
      · exact at'
      · split
        · exact at'.trans (keepsLegal_i3cStore _ _ _)
        · exact at'.trans (keepsLegal_of_settings (settings_dropHost _))

/-! ## Resets and power (19, R468 to R475; 22, R510 to R515) -/

/-- The settings of a module that starts anew. -/
theorem legal_fresh {t : State} (hp : t.power.hostCap = 3200 ∧ t.power.bmcCap = 3200 ∧ t.power.effCap = 3200) (hi : t.clock.idleUs = 50)
    (hg : t.tiers.spreadGib = 36) (hs : t.clock.source = 2) (hl : t.clock.limited = true) (hr : t.clock.ready = false) :
    t.settings.legal = true := by
  obtain ⟨h1, h2, h3⟩ := hp
  simp [Settings.legal, State.settings, h1, h2, h3, hi, hg, hs, hl, hr]

theorem keepsLegal_doModuleReset (s : State) : KeepsLegal s (doModuleReset s) := by
  unfold doModuleReset
  split
  · exact KeepsLegal.refl s
  · exact fun _ => legal_fresh ⟨rfl, rfl, rfl⟩ rfl rfl rfl rfl rfl

theorem keepsLegal_powerDown (s : State) (keepAon : Bool) : KeepsLegal s (s.powerDown keepAon) :=
  fun _ => legal_fresh ⟨rfl, rfl, rfl⟩ rfl rfl rfl rfl rfl

theorem keepsLegal_doPowerOnReset (osc : Fin 4) (slot : Fin 64) (s : State) : KeepsLegal s (doPowerOnReset osc slot s) := by
  unfold doPowerOnReset
  split
  · exact KeepsLegal.refl s
  · exact fun _ => legal_fresh ⟨rfl, rfl, rfl⟩ rfl rfl rfl rfl rfl

theorem keepsLegal_thermtrip (s : State) (b : Bool) : KeepsLegal s (s.modPower (fun p => { p with thermtrip := b })) :=
  keepsLegal_of_settings rfl

theorem keepsLegal_doModPwrEnDeassert (s : State) : KeepsLegal s (doModPwrEnDeassert s) := by
  unfold doModPwrEnDeassert
  split
  · exact KeepsLegal.refl s
  · exact ((keepsLegal_thermtrip s false).trans (keepsLegal_powerDown _ false)).trans (keepsLegal_of_settings (settings_modBoard _ _))

theorem keepsLegal_doVinUndervoltage (mv : Nat) (s : State) : KeepsLegal s (doVinUndervoltage mv s) := by
  unfold doVinUndervoltage
  split
  · exact KeepsLegal.refl s
  · exact ((keepsLegal_thermtrip s false).trans (keepsLegal_powerDown _ false)).trans (keepsLegal_of_settings (settings_modBoard _ _))

theorem keepsLegal_doVinOvervoltage (mv : Nat) (s : State) : KeepsLegal s (doVinOvervoltage mv s) := by
  unfold doVinOvervoltage
  split
  · exact KeepsLegal.refl s
  · refine ((keepsLegal_thermtrip s true).trans ?_).trans (keepsLegal_of_settings (settings_modBoard _ _))
    split
    · exact keepsLegal_powerDown _ true
    · exact KeepsLegal.refl _

/-! ## The start (19, R468, R473) -/

/-- A stage that ends while the device is not ready. -/
theorem keepsLegal_nextStage {s t : State} (h : t.settings = s.settings) (hr : s.clock.ready = false) : KeepsLegal s t.nextStage :=
  keepsLegal_stage (n := t.clock.stage + 1) (congrArg (fun k : Settings => { k with stage := t.clock.stage + 1 }) h :) hr

section
variable {s : State} (hr : s.clock.ready = false)
include hr

theorem keepsLegal_endVerify (active other : Nat) (areaOk identityOk : Bool) (rs : List (List Byte)) :
    KeepsLegal s (s.endVerify active other areaOk identityOk rs) := by
  unfold State.endVerify
  dsimp only
  generalize (if s.sec.boot = 0 then (1 : Fin 2) else 0) = spare
  split
  · exact keepsLegal_of_settings rfl
  · split
    · exact keepsLegal_of_settings ((settings_recordFault _ _).trans (by split <;> rfl))
    · split
      · exact keepsLegal_of_settings (by split <;> rfl)
      · split
        · refine keepsLegal_nextStage ((settings_loadRole _).trans ((settings_loadMaps _ _ _).trans ?_)) hr
          split <;> rfl
        · exact keepsLegal_of_settings (by split <;> rfl)

theorem keepsLegal_endCrystal (counts : List Nat) (hz : Nat) : KeepsLegal s (s.endCrystal counts hz) := by
  unfold State.endCrystal
  split
  · exact KeepsLegal.refl s
  · exact keepsLegal_nextStage (by split <;> rfl) hr

theorem keepsLegal_endClocks : KeepsLegal s s.endClocks := by
  have chosen : KeepsLegal s (s.modClock (fun k => { k with source := s.selectSource, limited := s.selectSource == 2, lastBeat := s.pilot })) :=
    keepsLegal_source rfl
  have next := chosen.trans (keepsLegal_nextStage rfl hr)
  unfold State.endClocks
  dsimp only
  split
  · exact next
  · exact next.trans (keepsLegal_of_settings (settings_trainLink _))

theorem keepsLegal_endTraining (lanes : List (Fin 12 × Fin 16 × Option (Fin 2) × Nat)) (dv : Nat) :
    KeepsLegal s (s.endTraining lanes dv) := by
  unfold State.endTraining
  dsimp only
  generalize hf : List.foldl _ (s, false) (List.finRange 12) = q
  have trained : (((q.1.firmwareEnable 30).firmwareEnable 31).measureBank dv).settings = s.settings := by
    rw [settings_measureBank, settings_firmwareEnable, settings_firmwareEnable, ← hf]
    refine settings_foldl_pair _ (fun r n => ?_) _ (s, false)
    exact settings_trainStack r.1 n _
  generalize ((q.1.firmwareEnable 30).firmwareEnable 31).measureBank dv = u at trained ⊢
  have queued : (if u.stackMapBody = s.stackMapBody then u else u.queueMap 5 u.stackMapBody).settings = s.settings := by
    split
    · exact trained
    · exact (settings_queueMap _ _ _).trans trained
  split
  · exact keepsLegal_of_settings ((settings_stopStart _ _).trans queued)
  · exact keepsLegal_nextStage queued hr

theorem keepsLegal_endSelfTest (fails : List (Fin 8 × Nat × Bool)) : KeepsLegal s (s.endSelfTest fails) :=
  keepsLegal_nextStage ((settings_foldl _ settings_firmwareEnable _ _).trans ((settings_foldl _ settings_placeCore _ _).trans
    ((settings_foldl _ settings_firmwareEnable _ _).trans ((settings_foldl _ settings_repairArray _ _).trans
      (settings_foldl _ (fun _ _ => settings_iftFail _ _ _) _ _))))) hr

end

/-- The device becomes ready in stage 9. -/
theorem keepsLegal_becomeReady {s : State} (h9 : s.clock.stage = 9) : KeepsLegal s s.becomeReady := by
  have ready : KeepsLegal s ((s.modClock (fun k => { k with ready := true, startReason := 0 })).modSec Sec.raiseFloor) := by
    intro hs
    obtain ⟨h1, h2, h3, h4, h5, h6, -⟩ := (legal_iff _).1 hs
    exact (legal_iff _).2 ⟨h1, h2, h3, h4, h5, h6, fun _ => h9⟩
  exact ready.trans (keepsLegal_of_settings ((settings_modRoles _ _).trans (settings_foldl _ (fun _ _ => settings_modIft _ _ _) _ _)))

theorem keepsLegal_doStartStage (o : StageEnd) (s : State) : KeepsLegal s (doStartStage o s) := by
  unfold doStartStage
  split
  · exact KeepsLegal.refl s
  next h =>
    have hr : s.clock.ready = false := by
      have hs : s.starting = true := by simpa using h
      simp only [State.starting, Bool.and_eq_true, Bool.not_eq_true'] at hs
      obtain ⟨⟨-, hready⟩, -⟩ := hs
      exact hready
    split
    · exact keepsLegal_nextStage rfl hr
    · exact keepsLegal_endVerify hr _ _ _ _ _
    · exact keepsLegal_endCrystal hr _ _
    · exact keepsLegal_endClocks hr
    · exact keepsLegal_endTraining hr _ _
    · exact keepsLegal_nextStage rfl hr
    · exact keepsLegal_endSelfTest hr _
    · split
      · exact keepsLegal_nextStage rfl hr
      · exact KeepsLegal.refl s
    next h9 => exact keepsLegal_becomeReady h9
    · exact KeepsLegal.refl s

end Sys2Proof.Machine
end

section
/-! PROOFS. Every step keeps the settings legal. -/

namespace Sys2Proof.Machine

open Sys2Proof

/-! # Every step keeps the settings legal (10, R251; 18, R445, R447; 19, R460 to R475) -/

/-! ## Hub resets and the heartbeat of the lamplighter (19, R470 to R472) -/

@[simp] theorem settings_doHubReset (s : State) : (doHubReset s).settings = s.settings := by
  have asked (c : Bool) : (if c then s else s.askHub).settings = s.settings := by
    split
    · rfl
    · exact settings_askHub s
  simp only [doHubReset, settings_ite, settings_hubWiped, asked, ite_self]

/-- The heartbeat that ends a hub reset changes nothing of the clock that a setting names. -/
theorem settings_resetEnds (s : State) : (s.modClock (fun k => { k with resetting := none, resetDone := false })).settings = s.settings :=
  settings_modClock s _ ⟨rfl, rfl, rfl, rfl, rfl⟩

@[simp] theorem settings_doLlHeartbeat (s : State) : (doLlHeartbeat s).settings = s.settings := by
  simp only [doLlHeartbeat, settings_ite, settings_trainLink, settings_modRoles, settings_modSec, settings_resetEnds, ite_self]
  exact ite_eq_left_iff.2 fun _ => rfl

@[simp] theorem settings_doLlHeartbeatLoss (s : State) : (doLlHeartbeatLoss s).settings = s.settings := by
  unfold doLlHeartbeatLoss
  split
  · rfl
  · exact settings_recordFault s _

/-! ## A command that reaches no logic in power changes nothing -/

/-- A command behind a gate, open or not. -/
theorem keepsLegal_gated {b : Bool} {f : State → State} {s t : State} (hf : KeepsLegal s (f s))
    (h : (.next (if b then f s else s) : Result) = .next t) : KeepsLegal s t := by
  cases h
  split
  · exact hf
  · exact KeepsLegal.refl s

section Gates

variable {f : State → State} {s t : State}

theorem keepsLegal_inDies (hf : KeepsLegal s (f s)) : inDies f s = .next t → KeepsLegal s t := keepsLegal_gated hf

theorem keepsLegal_inHub (hf : KeepsLegal s (f s)) : inHub f s = .next t → KeepsLegal s t := keepsLegal_gated hf

theorem keepsLegal_inLamp (hf : KeepsLegal s (f s)) : inLamp f s = .next t → KeepsLegal s t := keepsLegal_gated hf

theorem keepsLegal_inH1 (hf : KeepsLegal s (f s)) : inH1 f s = .next t → KeepsLegal s t := keepsLegal_gated hf

theorem keepsLegal_inAon (hf : KeepsLegal s (f s)) : inAon f s = .next t → KeepsLegal s t := keepsLegal_gated hf

theorem keepsLegal_onBoard (hf : KeepsLegal s (f s)) : onBoard f s = .next t → KeepsLegal s t := by
  rintro ⟨⟩
  exact hf

end Gates

/-! ## Every command -/

theorem keepsLegal_exec (i : Instr) (s t : State) : exec i s = .next t → KeepsLegal s t := by
  cases i with
  | slotWrite => exact keepsLegal_inHub (keepsLegal_of_settings (settings_doSlotWrite ..))
  | sealWrite => exact keepsLegal_inHub (keepsLegal_of_settings (settings_doSeal ..))
  | packetTake => exact keepsLegal_inHub (keepsLegal_of_settings (settings_doPacketTake ..))
  | heldPacketRelease => exact keepsLegal_inHub (keepsLegal_of_settings (settings_doHeldPacketRelease ..))
  | submit => exact keepsLegal_inHub (keepsLegal_of_settings (settings_doSubmit ..))
  | feed => exact keepsLegal_inHub (keepsLegal_of_settings (settings_doFeed ..))
  | fetch => exact keepsLegal_inHub (keepsLegal_of_settings (settings_doFetch ..))
  | create => exact keepsLegal_inHub (keepsLegal_of_settings (settings_doCreate ..))
  | destroy => exact keepsLegal_inHub (keepsLegal_of_settings (settings_doDestroy ..))
  | destroyFinish => exact keepsLegal_inHub (keepsLegal_of_settings (settings_doDestroyFinish ..))
  | setQuota => exact keepsLegal_inHub (keepsLegal_of_settings (settings_doSetQuota ..))
  | setWindow => exact keepsLegal_inHub (keepsLegal_of_settings (settings_doSetWindow ..))
  | setAreas => exact keepsLegal_inHub (keepsLegal_of_settings (settings_doSetAreas ..))
  | areasApply => exact keepsLegal_inHub (keepsLegal_of_settings (settings_doAreasApply ..))
  | setSpread => exact keepsLegal_inHub (keepsLegal_doSetSpread _ _ _)
  | loadScale => exact keepsLegal_inHub (keepsLegal_of_settings (settings_doLoadScale ..))
  | loadScaleApply => exact keepsLegal_inHub (keepsLegal_of_settings (settings_doLoadScaleApply ..))
  | loadSlots => exact keepsLegal_inHub (keepsLegal_of_settings (settings_doLoadSlots ..))
  | slotTableApply => exact keepsLegal_inHub (keepsLegal_of_settings (settings_doSlotTableApply ..))
  | loadAlmanac => exact keepsLegal_inHub (keepsLegal_of_settings (settings_doLoadAlmanac ..))
  | almanacApply => exact keepsLegal_inHub (keepsLegal_of_settings (settings_doAlmanacApply ..))
  | map => exact keepsLegal_inHub (keepsLegal_of_settings (settings_doMap ..))
  | unmap => exact keepsLegal_inHub (keepsLegal_of_settings (settings_doUnmap ..))
  | setRole => exact keepsLegal_inHub (keepsLegal_of_settings (settings_doSetRole ..))
  | ownerRecord => exact keepsLegal_inHub (keepsLegal_of_settings (settings_doOwnerRecord ..))
  | ownerRelease => exact keepsLegal_inHub (keepsLegal_of_settings (settings_doOwnerRelease ..))
  | setSched => exact keepsLegal_inHub (keepsLegal_of_settings (settings_doSetSched ..))
  | fwUpdateWrite => exact keepsLegal_inHub (keepsLegal_of_settings (settings_doFwUpdateWrite ..))
  | fwUpdateActivate => exact keepsLegal_inHub (keepsLegal_of_settings (settings_doFwUpdateActivate ..))
  | fwUpdateAbandon => exact keepsLegal_inHub (keepsLegal_of_settings (settings_doFwUpdateAbandon ..))
  | queryContextStatus => exact keepsLegal_inHub (keepsLegal_of_settings (settings_doQueryContextStatus ..))
  | queryScaleRecords => exact keepsLegal_inHub (keepsLegal_of_settings (settings_doQueryScaleRecords ..))
  | querySlots => exact keepsLegal_inHub (keepsLegal_of_settings (settings_doQuerySlots ..))
  | queryTierCounters => exact keepsLegal_inHub (keepsLegal_of_settings (settings_doQueryTierCounters ..))
  | queryHomeMap => exact keepsLegal_inHub (keepsLegal_of_settings (settings_doQueryHomeMap ..))
  | queryAlmanac => exact keepsLegal_inHub (keepsLegal_of_settings (settings_doQueryAlmanac ..))
  | queryModule => exact keepsLegal_inHub (keepsLegal_of_settings (settings_doQueryModule ..))
  | queryFaultRing => exact keepsLegal_inHub (keepsLegal_of_settings (settings_doQueryFaultRing ..))
  | cqHeadWrite => exact keepsLegal_inHub (keepsLegal_of_settings (settings_doCqHeadWrite ..))
  | backlogDrain => exact keepsLegal_inHub (keepsLegal_of_settings (settings_doBacklogDrain ..))
  | completionEntry => exact keepsLegal_inHub (keepsLegal_of_settings (settings_doCompletionEntry ..))
  | functionLevelReset => exact keepsLegal_inHub (keepsLegal_of_settings (settings_doFunctionLevelReset ..))
  | mm => exact keepsLegal_inDies (keepsLegal_of_settings (settings_doMm ..))
  | mmb => exact keepsLegal_inDies (keepsLegal_of_settings (settings_doMmb ..))
  | attend => exact keepsLegal_inDies (keepsLegal_of_settings (settings_doAttend ..))
  | attendB => exact keepsLegal_inDies (keepsLegal_of_settings (settings_doAttendB ..))
  | vec => exact keepsLegal_inDies (keepsLegal_of_settings (settings_doVec ..))
  | norm => exact keepsLegal_inDies (keepsLegal_of_settings (settings_doNorm ..))
  | normB => exact keepsLegal_inDies (keepsLegal_of_settings (settings_doNormB ..))
  | quant => exact keepsLegal_inDies (keepsLegal_of_settings (settings_doQuant ..))
  | gatherE => exact keepsLegal_inDies (keepsLegal_of_settings (settings_doGatherE ..))
  | copy => exact keepsLegal_inDies (keepsLegal_of_settings (settings_doCopy ..))
  | update => exact keepsLegal_inDies (keepsLegal_of_settings (settings_doUpdate ..))
  | precond => exact keepsLegal_inDies (keepsLegal_of_settings (settings_doPrecond ..))
  | coll => exact keepsLegal_inDies (keepsLegal_of_settings (settings_doColl ..))
  | send => exact keepsLegal_inDies (keepsLegal_of_settings (settings_doSend ..))
  | recv => exact keepsLegal_inDies (keepsLegal_of_settings (settings_doRecv ..))
  | shardGather => exact keepsLegal_inDies (keepsLegal_of_settings (settings_doShardGather ..))
  | migrate => exact keepsLegal_inDies (keepsLegal_of_settings (settings_doMigrate ..))
  | layerPlanStart => exact keepsLegal_inDies (keepsLegal_of_settings (settings_doLayerPlanStart ..))
  | layerPlanStop => exact keepsLegal_inDies (keepsLegal_of_settings (settings_doLayerPlanStop ..))
  | pin => exact keepsLegal_inDies (keepsLegal_of_settings (settings_doPin ..))
  | unpin => exact keepsLegal_inDies (keepsLegal_of_settings (settings_doUnpin ..))
  | fenceSignal => exact keepsLegal_inDies (keepsLegal_of_settings (settings_doFenceSignal ..))
  | fenceWait => exact keepsLegal_inDies (keepsLegal_of_settings (settings_doFenceWait ..))
  | acquire => exact keepsLegal_inDies (keepsLegal_of_settings (settings_doAcquire ..))
  | release => exact keepsLegal_inDies (keepsLegal_of_settings (settings_doRelease ..))
  | spanOpen => exact keepsLegal_inDies (keepsLegal_of_settings (settings_doSpanOpen ..))
  | spanClose => exact keepsLegal_inDies (keepsLegal_of_settings (settings_doSpanClose ..))
  | hint => exact keepsLegal_inDies (keepsLegal_of_settings (settings_doHint ..))
  | census => exact keepsLegal_inDies (keepsLegal_of_settings (settings_doCensus ..))
  | nop => exact keepsLegal_inDies (keepsLegal_of_settings (settings_doNop ..))
  | commandComplete => exact keepsLegal_inDies (keepsLegal_of_settings (settings_doCommandEnd ..))
  | lookaheadLoad => exact keepsLegal_inDies (keepsLegal_of_settings (settings_doLookaheadLoad ..))
  | bankLoadDone => exact keepsLegal_inDies (keepsLegal_of_settings (settings_doBankLoadDone ..))
  | bankSwap => exact keepsLegal_inDies (keepsLegal_of_settings (settings_doBankSwap ..))
  | rowDrain => exact keepsLegal_inDies (keepsLegal_of_settings (settings_doRowDrain ..))
  | spanReplay => exact keepsLegal_inDies (keepsLegal_of_settings (settings_doSpanReplay ..))
  | replayDecision => exact keepsLegal_inDies (keepsLegal_of_settings (settings_doReplayDecision ..))
  | laneRemap => exact keepsLegal_inDies (keepsLegal_of_settings (settings_doLaneRemap ..))
  | arrayDegrade => exact keepsLegal_inDies (keepsLegal_of_settings (settings_doArrayDegrade ..))
  | coreOutOfService => exact keepsLegal_inDies (keepsLegal_of_settings (settings_doCoreOutOfService ..))
  | starveTimeout => exact keepsLegal_inDies (keepsLegal_of_settings (settings_doStarveTimeout ..))
  | overrunTimeout => exact keepsLegal_inDies (keepsLegal_of_settings (settings_doOverrunTimeout ..))
  | commandWatchdog => exact keepsLegal_inDies (keepsLegal_of_settings (settings_doCommandWatchdog ..))
  | spanTimeout => exact keepsLegal_inDies (keepsLegal_of_settings (settings_doSpanTimeout ..))
  | fenceWaitTimeout => exact keepsLegal_inDies (keepsLegal_of_settings (settings_doFenceWaitTimeout ..))
  | acquireTimeout => exact keepsLegal_inDies (keepsLegal_of_settings (settings_doAcquireTimeout ..))
  | updateWaitTimeout => exact keepsLegal_inDies (keepsLegal_of_settings (settings_doUpdateWaitTimeout ..))
  | peerWaitTimeout => exact keepsLegal_inDies (keepsLegal_of_settings (settings_doPeerWaitTimeout ..))
  | deepSpaceTimeout => exact keepsLegal_inDies (keepsLegal_of_settings (settings_doDeepSpaceTimeout ..))
  | pageMove => exact keepsLegal_inDies (keepsLegal_of_settings (settings_doPageMove ..))
  | pageSwitch => exact keepsLegal_inDies (keepsLegal_of_settings (settings_doPageSwitch ..))
  | moveTimeout => exact keepsLegal_inDies (keepsLegal_of_settings (settings_doMoveTimeout ..))
  | moveRetry => exact keepsLegal_inDies (keepsLegal_of_settings (settings_doMoveRetry ..))
  | scrubRead => exact keepsLegal_inDies (keepsLegal_of_settings (settings_doScrubRead ..))
  | wcbAgeFlush => exact keepsLegal_inDies (keepsLegal_of_settings (settings_doWcbAgeFlush ..))
  | wcbHighFlush => exact keepsLegal_inDies (keepsLegal_of_settings (settings_doWcbHighFlush ..))
  | faultRecord => exact keepsLegal_inH1 (keepsLegal_of_settings (settings_doFaultRecord ..))
  | faultHandle => exact keepsLegal_inH1 (keepsLegal_of_settings (settings_doFaultHandle ..))
  | faultStatusWrite => exact keepsLegal_inH1 (keepsLegal_of_settings (settings_doFaultStatusWrite ..))
  | minuteTick => exact keepsLegal_inAon (keepsLegal_of_settings (settings_doMinuteTick ..))
  | storeBatch => exact keepsLegal_inH1 (keepsLegal_of_settings (settings_doStoreBatch ..))
  | storeBatchDone => exact keepsLegal_inH1 (keepsLegal_of_settings (settings_doStoreBatchDone ..))
  | holdupLow => exact keepsLegal_inH1 (keepsLegal_of_settings (settings_doHoldupLow ..))
  | capacitanceMeasure => exact keepsLegal_inH1 (keepsLegal_of_settings (settings_doCapacitanceMeasure ..))
  | iftDue => exact keepsLegal_inH1 (keepsLegal_of_settings (settings_doIftDue ..))
  | iftRun => exact keepsLegal_inDies (keepsLegal_of_settings (settings_doIftRun ..))
  | iftForce => exact keepsLegal_inH1 (keepsLegal_of_settings (settings_doIftForce ..))
  | iftRunNow => exact keepsLegal_inH1 (keepsLegal_of_settings (settings_doIftRunNow ..))
  | portInService => exact keepsLegal_inDies (keepsLegal_of_settings (settings_doPortInService ..))
  | portAlignmentLoss => exact keepsLegal_inDies (keepsLegal_doPortAlignmentLoss _ _ _)
  | dataFrame => exact keepsLegal_inDies (keepsLegal_of_settings (settings_doDataFrame ..))
  | ackFrame => exact keepsLegal_inDies (keepsLegal_of_settings (settings_doAckFrame ..))
  | rtsFrame => exact keepsLegal_inDies (keepsLegal_of_settings (settings_doRtsFrame ..))
  | ctsFrame => exact keepsLegal_inDies (keepsLegal_of_settings (settings_doCtsFrame ..))
  | shardRequest => exact keepsLegal_inDies (keepsLegal_of_settings (settings_doShardRequest ..))
  | shardServe => exact keepsLegal_inDies (keepsLegal_of_settings (settings_doShardServe ..))
  | ackTimer => exact keepsLegal_inDies (keepsLegal_of_settings (settings_doAckTimer ..))
  | retxTimeout => exact keepsLegal_inDies (keepsLegal_of_settings (settings_doRetxTimeout ..))
  | rtsRetry => exact keepsLegal_inDies (keepsLegal_of_settings (settings_doRtsRetry ..))
  | hello => exact keepsLegal_inLamp (keepsLegal_of_settings (settings_doHello ..))
  | welcome => exact keepsLegal_inLamp (keepsLegal_of_settings (settings_doWelcome ..))
  | groupReady => exact keepsLegal_inLamp (keepsLegal_of_settings (settings_doGroupReady ..))
  | installReady => exact keepsLegal_inLamp (keepsLegal_of_settings (settings_doInstallReady ..))
  | heartbeat => exact keepsLegal_inLamp (keepsLegal_of_settings (settings_doHeartbeat ..))
  | takeCharge => exact keepsLegal_inLamp (keepsLegal_of_settings (settings_doTakeCharge ..))
  | rosterUpdate => exact keepsLegal_inLamp (keepsLegal_of_settings (settings_doRosterUpdate ..))
  | takeover => exact keepsLegal_inLamp (keepsLegal_of_settings (settings_doTakeover ..))
  | takeoverDone => exact keepsLegal_inLamp (keepsLegal_of_settings (settings_doTakeoverDone ..))
  | ckptHeld => exact keepsLegal_inLamp (keepsLegal_of_settings (settings_doCkptHeld ..))
  | faultReport => exact keepsLegal_inLamp (keepsLegal_of_settings (settings_doFaultReport ..))
  | slowReport => exact keepsLegal_inLamp (keepsLegal_of_settings (settings_doSlowReport ..))
  | capSet => exact keepsLegal_inLamp (keepsLegal_of_settings (settings_doCapSet ..))
  | notice => exact keepsLegal_inLamp (keepsLegal_of_settings (settings_doNotice ..))
  | helloRepeat => exact keepsLegal_inLamp (keepsLegal_of_settings (settings_doHelloRepeat ..))
  | groupForm => exact keepsLegal_inLamp (keepsLegal_of_settings (settings_doGroupForm ..))
  | deputyTakeCharge => exact keepsLegal_inLamp (keepsLegal_of_settings (settings_doDeputyTakeCharge ..))
  | registrationClose => exact keepsLegal_inLamp (keepsLegal_of_settings (settings_doRegistrationClose ..))
  | heartbeatSend => exact keepsLegal_inLamp (keepsLegal_of_settings (settings_doHeartbeatSend ..))
  | memberFail => exact keepsLegal_inLamp (keepsLegal_of_settings (settings_doMemberFail ..))
  | capReview => exact keepsLegal_inLamp (keepsLegal_of_settings (settings_doCapReview ..))
  | slowReportSend => exact keepsLegal_inLamp (keepsLegal_of_settings (settings_doSlowReportSend ..))
  | getVersion => exact keepsLegal_inDies (keepsLegal_of_settings (settings_doGetVersion ..))
  | getCapabilities => exact keepsLegal_inDies (keepsLegal_of_settings (settings_doGetCapabilities ..))
  | negotiateAlgorithms => exact keepsLegal_inDies (keepsLegal_of_settings (settings_doNegotiateAlgorithms ..))
  | getDigests => exact keepsLegal_inDies (keepsLegal_of_settings (settings_doGetDigests ..))
  | getCertificate => exact keepsLegal_inDies (keepsLegal_of_settings (settings_doGetCertificate ..))
  | challenge => exact keepsLegal_inDies (keepsLegal_of_settings (settings_doChallenge ..))
  | getMeasurements => exact keepsLegal_inDies (keepsLegal_of_settings (settings_doGetMeasurements ..))
  | barometerWindow => exact keepsLegal_inH1 (keepsLegal_of_settings (settings_doBarometerWindow ..))
  | barometerPeriod => exact keepsLegal_inH1 (keepsLegal_doBarometerPeriod _)
  | railMeasurement => exact keepsLegal_inH1 (keepsLegal_of_settings (settings_doRailMeasurement ..))
  | recalibrationFit => exact keepsLegal_inH1 (keepsLegal_of_settings (settings_doRecalibrationFit ..))
  | temperatureRead => exact keepsLegal_inH1 (keepsLegal_of_settings (settings_doTemperatureRead ..))
  | thermalDutyUpdate => exact keepsLegal_inH1 (keepsLegal_of_settings (settings_doThermalDutyUpdate ..))
  | thermalTrip => exact keepsLegal_inH1 (keepsLegal_of_settings (settings_doThermalTrip ..))
  | rampGrant => exact keepsLegal_inH1 (keepsLegal_of_settings (settings_doRampGrant ..))
  | hintExpire => exact keepsLegal_inH1 (keepsLegal_of_settings (settings_doHintExpire ..))
  | clockStart => exact keepsLegal_inH1 (keepsLegal_of_settings (settings_doClockStart ..))
  | clockStartDone => exact keepsLegal_inH1 (keepsLegal_of_settings (settings_doClockStartDone ..))
  | clockStop => exact keepsLegal_inH1 (keepsLegal_of_settings (settings_doClockStop ..))
  | pwrCapWrite => exact keepsLegal_inHub (keepsLegal_doPwrCapWrite _ _)
  | bmcCapWrite => exact keepsLegal_inH1 (keepsLegal_doBmcCapWrite _ _)
  | monitorWindow => exact keepsLegal_inH1 (keepsLegal_doMonitorWindow _ _ _)
  | switchPauseEnd => exact keepsLegal_inH1 (keepsLegal_doSwitchPauseEnd _)
  | oscillatorCalibrate => exact keepsLegal_inH1 (keepsLegal_of_settings (settings_doOscillatorCalibrate ..))
  | clkCtrlWrite => exact keepsLegal_inHub (keepsLegal_doClkCtrlWrite _ _)
  | powerOnReset => exact keepsLegal_inAon (keepsLegal_doPowerOnReset _ _ _)
  | modResetN => exact keepsLegal_inAon (keepsLegal_of_settings (settings_doModResetN ..))
  | moduleReset => exact keepsLegal_inAon (keepsLegal_doModuleReset _)
  | hubReset => exact keepsLegal_inH1 (keepsLegal_of_settings (settings_doHubReset ..))
  | perstN => exact keepsLegal_inAon (keepsLegal_of_settings (settings_doPerstN ..))
  | resetCtrlWrite => exact keepsLegal_inHub (keepsLegal_of_settings (settings_doResetCtrlWrite ..))
  | bmcModuleReset => exact keepsLegal_inH1 (keepsLegal_of_settings (settings_doBmcModuleReset ..))
  | bmcHubReset => exact keepsLegal_inH1 (keepsLegal_of_settings (settings_doBmcHubReset ..))
  | startStage => exact keepsLegal_inH1 (keepsLegal_doStartStage _ _)
  | startStageTimeout => exact keepsLegal_inH1 (keepsLegal_of_settings (settings_doStartStageTimeout ..))
  | llHeartbeat => exact keepsLegal_inDies (keepsLegal_of_settings (settings_doLlHeartbeat ..))
  | llHeartbeatLoss => exact keepsLegal_inH1 (keepsLegal_of_settings (settings_doLlHeartbeatLoss ..))
  | modPwrEnAssert => exact keepsLegal_onBoard (keepsLegal_of_settings (settings_doModPwrEnAssert ..))
  | modPwrEnDeassert => exact keepsLegal_onBoard (keepsLegal_doModPwrEnDeassert _)
  | vinUndervoltage => exact keepsLegal_onBoard (keepsLegal_doVinUndervoltage _ _)
  | vinOvervoltage => exact keepsLegal_onBoard (keepsLegal_doVinOvervoltage _ _)
  | blockEnable => exact keepsLegal_inDies (keepsLegal_doBlockEnable _ _ _)
  | blockDisable => exact keepsLegal_inDies (keepsLegal_doBlockDisable _ _ _)
  | enableCheckDone => exact keepsLegal_inDies (keepsLegal_of_settings (settings_doEnableCheckDone ..))
  | rwsApply => exact keepsLegal_inDies (keepsLegal_of_settings (settings_doRwsApply ..))
  | registerWrite => exact keepsLegal_inHub (keepsLegal_doRegisterWrite _ _ _)
  | counterLowHalfRead => exact keepsLegal_inHub (keepsLegal_of_settings (settings_doCounterLowHalfRead ..))
  | i3cPrivateWrite => exact keepsLegal_inH1 (keepsLegal_doI3cPrivateWrite _ _)
  | i3cPrivateRead => exact keepsLegal_inH1 (keepsLegal_of_settings (settings_doI3cPrivateRead ..))
  | i3cAddressAssignment => exact keepsLegal_inH1 (keepsLegal_of_settings (settings_doI3cAddressAssignment ..))
  | jtagInstruction => exact keepsLegal_inAon (keepsLegal_of_settings (settings_doJtagInstruction ..))
  | arrayCold => exact keepsLegal_inDies (keepsLegal_of_settings (settings_doArrayCold ..))
  | compaction => exact keepsLegal_inDies (keepsLegal_of_settings (settings_doCompaction ..))
  | vinReturn => exact keepsLegal_onBoard (keepsLegal_of_settings (settings_doVinReturn ..))
  | rxDiscard => exact keepsLegal_inDies (keepsLegal_of_settings (settings_doRxDiscard ..))
  | laneSymbolErrorRatio => exact keepsLegal_inDies (keepsLegal_doLaneSymbolErrorRatio _ _ _)
  | iftEnd => exact keepsLegal_inDies (keepsLegal_of_settings (settings_doIftEnd ..))
  | managerHeartbeatLoss => exact keepsLegal_inLamp (keepsLegal_of_settings (settings_doManagerHeartbeatLoss ..))
  | memberAttestation => exact keepsLegal_inLamp (keepsLegal_of_settings (settings_doMemberAttestation ..))
  | managerReady => exact keepsLegal_inLamp (keepsLegal_of_settings (settings_doManagerReady ..))
  | holdover => exact keepsLegal_inH1 (keepsLegal_of_settings (settings_doHoldover ..))
  | hotReset => exact keepsLegal_inHub (keepsLegal_of_settings (settings_doHotReset ..))

/-- Settles O59: a pilot cycle changes no setting, and each command changes none or leaves it in its range. -/
theorem settingsStayLegal : Obligations.SettingsStayLegal := by
  unfold Obligations.SettingsStayLegal
  intro s t h
  unfold step at h
  split at h
  next =>
    cases h
    exact keepsLegal_of_settings (settings_doTick s)
  next c rest _ => exact keepsLegal_exec c { s with pending := rest } t h

end Sys2Proof.Machine
end
